-- ==== Sys2Proof/Word.lean ====
section
/-!
DEFINITION. The machine's words: plain bit vectors (R7, R94).
-/
namespace Sys2Proof

/-- A byte of memory or of a store. -/
abbrev Byte := BitVec 8

/-- A 16-bit word. -/
abbrev W16 := BitVec 16

/-- A 32-bit word: an instruction word (R97), a vector lane (R192). -/
abbrev W32 := BitVec 32

/-- A 64-bit word: a scalar register (R94), a Crown register (R459), the time counter (R37). -/
abbrev W64 := BitVec 64

end Sys2Proof
end

