-- ==== Sys2Proof/Machine/Units/Ids.lean ====
section
/-!
DEFINITION. How the units of the package are named: dies, clusters, cores, arrays, links and queues (R2, R12, R14).
-/
namespace Sys2Proof.Machine

/-- A die: at most eight per package (Table 00-1). -/
abbrev DieId := Fin 8

/-- A cluster of a die, by its physical number (Table 00-1). -/
structure ClusterId where
  die : DieId
  cl : Fin 16
  deriving DecidableEq, Repr

/-- A core of a cluster, by its physical number (Table 00-1). -/
structure CoreId where
  die : DieId
  cl : Fin 16
  core : Fin 4
  deriving DecidableEq, Repr

/-- An array of a core, by its physical number (Table 00-1). -/
structure ArrayId where
  core : CoreId
  arr : Fin 4
  deriving DecidableEq, Repr

/-- A Mitten link of a die: four per die. -/
structure LinkId where
  die : DieId
  link : Fin 4
  deriving DecidableEq, Repr

/-- A Peat port of a die: eight per die. -/
structure PortId where
  die : DieId
  port : Fin 8
  deriving DecidableEq, Repr

/-- A hardware queue: its home die and its local number (R14). -/
structure QueueId where
  die : DieId
  q : W16
  deriving DecidableEq, Repr

/-- A store: the core store of a core or the map store of a cluster (R174). -/
inductive StoreId where
  | core (c : CoreId)
  | map (k : ClusterId)
  deriving DecidableEq, Repr

/-- What a receive lane showed in the 64 cycles of IDENT: a word, and whether all 64 were that word (R317). -/
structure LaneSeen where
  word : W16
  steady : Bool
  deriving DecidableEq, Repr

/-- The path of a dictionary request (R401): driver, safety and partition mailboxes, DAP with KEYID 0 or 1. -/
inductive DPath where
  | driver
  | safety
  | partition (p : Fin 16)
  | dap (key : Fin 2)
  deriving DecidableEq, Repr

/-- The key of a cluster in the machine's tables. -/
def ClusterId.key (c : ClusterId) : Nat := c.die.val * 16 + c.cl.val

/-- The key of a core in the machine's tables. -/
def CoreId.key (c : CoreId) : Nat := (c.die.val * 16 + c.cl.val) * 4 + c.core.val

/-- The cluster of a core. -/
def CoreId.cluster (c : CoreId) : ClusterId := ⟨c.die, c.cl⟩

/-- The key of an array in the machine's tables. -/
def ArrayId.key (a : ArrayId) : Nat := a.core.key * 4 + a.arr.val

/-- The key of a link in the machine's tables. -/
def LinkId.key (l : LinkId) : Nat := l.die.val * 4 + l.link.val

/-- The queue number the host uses (R14): die × 65,536 + local queue number. -/
def QueueId.key (q : QueueId) : Nat := q.die.val * 65536 + q.q.toNat

/-- The die with a number, taken modulo 8. -/
def dieOf (n : Nat) : DieId := Fin.ofNat 8 n

/-- The queue the host names by a number (R14). -/
def queueOf (n : Nat) : QueueId := ⟨dieOf (n / 65536), BitVec.ofNat 16 n⟩

/-- The core with a key. -/
def coreOf (k : Nat) : CoreId := ⟨dieOf (k / 64), Fin.ofNat 16 (k / 4), Fin.ofNat 4 k⟩

/-- The cluster with a key. -/
def clusterOf (k : Nat) : ClusterId := ⟨dieOf (k / 16), Fin.ofNat 16 k⟩

end Sys2Proof.Machine
end

