-- ==== Sys2Proof/Machine/SMap.lean ====
section
/-!
DEFINITION. Sparse data by key: a list of key and value pairs with strictly rising keys.
Every table of the machine (memory, the stores, the register files, the tables of units) is held so.
-/
namespace Sys2Proof.Machine

/-- A finite map from numbers, as plain data: pairs of a key and a value. -/
structure SMap (β : Type) where
  entries : List (Nat × β) := []
  deriving DecidableEq, Repr

namespace SMap

variable {β : Type}

/-- The map that lists nothing. -/
def empty : SMap β := ⟨[]⟩

/-- Put a pair in front of the first pair with a greater key. -/
def insertSorted (k : Nat) (v : β) : List (Nat × β) → List (Nat × β)
  | [] => [(k, v)]
  | e :: es => if k < e.1 then (k, v) :: e :: es else e :: insertSorted k v es

/-- The value listed first under a key. -/
def lookup (k : Nat) : List (Nat × β) → Option β
  | [] => none
  | e :: es => if e.1 = k then some e.2 else lookup k es

/-- The value a key maps to, if the map lists the key. -/
def find? (m : SMap β) (k : Nat) : Option β := lookup k m.entries

/-- The value a key maps to; `d` where the map does not list it. -/
def get (m : SMap β) (d : β) (k : Nat) : β := (m.find? k).getD d

/-- The map without a key. -/
def erase (m : SMap β) (k : Nat) : SMap β := ⟨m.entries.filter fun e => e.1 != k⟩

/-- The map with a key bound to a value. -/
def put (m : SMap β) (k : Nat) (v : β) : SMap β := ⟨insertSorted k v (m.erase k).entries⟩

/-- The map in which a key reads as a value; the key is not listed when the value is the default `d`. -/
def setD [DecidableEq β] (m : SMap β) (d : β) (k : Nat) (v : β) : SMap β :=
  if v = d then m.erase k else m.put k v

/-- The values, in rising order of their keys. -/
def values (m : SMap β) : List β := m.entries.map (·.2)

/-- The keys, in rising order. -/
def keys (m : SMap β) : List Nat := m.entries.map (·.1)

/-- Apply a function to every listed value. -/
def mapVals {γ : Type} (m : SMap β) (f : β → γ) : SMap γ := ⟨m.entries.map fun e => (e.1, f e.2)⟩

/-- Apply a function of key and value to every listed value. -/
def mapKV {γ : Type} (m : SMap β) (f : Nat → β → γ) : SMap γ := ⟨m.entries.map fun e => (e.1, f e.1 e.2)⟩

/-- The map without the pairs that fail a test. -/
def filter (m : SMap β) (p : Nat → β → Bool) : SMap β := ⟨m.entries.filter fun e => p e.1 e.2⟩

/-- The keys rise strictly. -/
def sorted : List (Nat × β) → Bool
  | [] => true
  | e :: es => (es.all fun f => decide (e.1 < f.1)) && sorted es

/-- The canonical form of a map with no default: its keys rise strictly. -/
def wf (m : SMap β) : Bool := sorted m.entries

/-- The canonical form of a map with default `d`: its keys rise strictly and no pair holds `d`.
DESIGN CHOICE, log entry 3. -/
def wfD [DecidableEq β] (d : β) (m : SMap β) : Bool :=
  sorted m.entries && m.entries.all fun e => decide (e.2 ≠ d)

end SMap

end Sys2Proof.Machine
end

