-- ==== Sys2Proof/Machine/Units/Reset.lean ====
section
/-!
DEFINITION. Reset units, escalations and crash dumps as data (R351 to R366).
-/
namespace Sys2Proof.Machine

/-- A reset unit (Table 18-1), or the boundary latch behind it. -/
inductive ResetUnit where
  | array (a : ArrayId)
  | vector (c : CoreId)
  | stream (c : CoreId)
  | gen (c : ClusterId) (g : Fin 4)
  | core (c : CoreId)
  | cluster (c : ClusterId)
  | die (d : DieId)
  deriving DecidableEq, Repr

/-- Levels of reset (Table 18-1). -/
inductive ResetLevel where
  | engine | core | cluster | die
  deriving DecidableEq, Repr

/-- A region record of a dump (R365). -/
structure DumpRegion where
  id : Nat
  /-- 0 OK, 1 UNREACHABLE, 2 TRUNCATED. -/
  status : Nat
  unit : Nat
  /-- The core, cluster, queue or other thing that the region belongs to, by key, and its index, as in `RegionTodo`. -/
  key : Nat := 0
  idx : Nat := 0
  data : List Byte
  time : W64
  deriving DecidableEq, Repr

/-- A dump (Table 18-6). -/
structure Dump where
  level : Nat
  die : Nat
  unit : Nat
  cause : Nat
  joined : Nat := 0
  regions : List DumpRegion := []
  trunc : Nat := 0
  t0 : W64
  tReset : W64 := 0
  seqno : Nat
  deriving DecidableEq, Repr

/-- A region still to be read on a collection path: path, id, unit number, data length (R364, Table 18-5). -/
structure RegionTodo where
  path : Nat
  id : Nat
  unit : Nat
  len : Nat
  /-- The core or cluster the region belongs to, by key, and its index. -/
  key : Nat := 0
  idx : Nat := 0
  deriving DecidableEq, Repr

/-- An escalation of the reset ladder on a die (R359, R360). -/
structure Escalation where
  /-- The unit that the ladder climbs from, the code of the starting event, and the present level. -/
  unit : ResetUnit
  /-- The unit in which the first starting event arose: its launch fails with the code (R361). -/
  start : ResetUnit
  code : Nat
  level : ResetLevel
  /-- Tick of detection. -/
  t0 : Nat
  /-- Tick from which collection at this level is counted (R364). -/
  from' : Nat
  /-- Regions still to be read at this level, and the tick at which each path began its first one. -/
  todo : List RegionTodo := []
  pathAt : SMap Nat := {}
  /-- The reset of the level has been asserted, at this tick. -/
  resetAt : Option Nat := none
  /-- The dump has room for its header in the store (R365). -/
  kept : Bool := true
  dump : Dump
  deriving DecidableEq, Repr

/-- A part of a launch that was placed on a die, in the retained part list (R352). -/
structure PartEntry where
  queue : Nat
  home : Nat
  ctx : Nat
  ldie : Nat
  clusters : List Nat := []
  cores : List Nat := []
  deriving DecidableEq, Repr

/-- A request whose unit was reset before it was answered, with the tick of the reset; none: its unit has given it up as
unanswered and is still to be reset (R172, R355). -/
structure Orphan where
  req : Nat
  at' : Option Nat
  deriving DecidableEq, Repr

end Sys2Proof.Machine
end

