-- ==== Sys2Proof/Syntax.lean ====
section
/-!
DEFINITION. The commands of the block: one constructor for each row of the table of operations and events.

A row of an instruction names the core whose sequencer executes it and the instruction word. A row of a unit names
the unit. A row of a message, request, signal or walk names it by its number in the state. A row of a Crown write
carries CR_ROLE, CR_WSTRB, what the offset depends on, and the data.
-/
namespace Sys2Proof
open Machine

/-- The commands. -/
inductive Instr where
  /-- ADD (R100): Scalar add of two registers into rd. -/
  | add (c : CoreId) (w : W32)
  /-- SUB (R100): Scalar subtract into rd. -/
  | sub (c : CoreId) (w : W32)
  /-- AND (R100): Scalar bitwise AND into rd. -/
  | and (c : CoreId) (w : W32)
  /-- OR (R100): Scalar bitwise OR into rd. -/
  | or (c : CoreId) (w : W32)
  /-- XOR (R100): Scalar bitwise XOR into rd. -/
  | xor (c : CoreId) (w : W32)
  /-- SHL (R100): Shift left by register amount. -/
  | shl (c : CoreId) (w : W32)
  /-- SHR (R100): Logical shift right by register amount. -/
  | shr (c : CoreId) (w : W32)
  /-- SRA (R100): Arithmetic shift right by register amount. -/
  | sra (c : CoreId) (w : W32)
  /-- MUL (R100): Low 64 bits of the product. -/
  | mul (c : CoreId) (w : W32)
  /-- MULH (R100): High 64 bits of the signed product. -/
  | mulh (c : CoreId) (w : W32)
  /-- MULHU (R100): High 64 bits of the unsigned product. -/
  | mulhu (c : CoreId) (w : W32)
  /-- MIN (R100): Signed minimum. -/
  | min (c : CoreId) (w : W32)
  /-- MAX (R100): Signed maximum. -/
  | max (c : CoreId) (w : W32)
  /-- MINU (R100): Unsigned minimum. -/
  | minu (c : CoreId) (w : W32)
  /-- MAXU (R100): Unsigned maximum. -/
  | maxu (c : CoreId) (w : W32)
  /-- DIVU (R100): Unsigned division, all ones on divide by zero. -/
  | divu (c : CoreId) (w : W32)
  /-- REMU (R100): Unsigned remainder, dividend on divide by zero. -/
  | remu (c : CoreId) (w : W32)
  /-- ADDI (R100): Add sign-extended immediate. -/
  | addi (c : CoreId) (w : W32)
  /-- ANDI (R100): AND with sign-extended immediate. -/
  | andi (c : CoreId) (w : W32)
  /-- ORI (R100): OR with sign-extended immediate. -/
  | ori (c : CoreId) (w : W32)
  /-- XORI (R100): XOR with sign-extended immediate. -/
  | xori (c : CoreId) (w : W32)
  /-- SHLI (R100): Shift left by immediate. -/
  | shli (c : CoreId) (w : W32)
  /-- SHRI (R100): Logical shift right by immediate. -/
  | shri (c : CoreId) (w : W32)
  /-- SRAI (R100): Arithmetic shift right by immediate. -/
  | srai (c : CoreId) (w : W32)
  /-- MULI (R100): Multiply by sign-extended immediate. -/
  | muli (c : CoreId) (w : W32)
  /-- LI (R100): Load sign-extended 14-bit immediate. -/
  | li (c : CoreId) (w : W32)
  /-- LIS (R100): Shift rd left 14 and OR in an immediate. -/
  | lis (c : CoreId) (w : W32)
  /-- CMP (R101): Compare two registers under CC into a predicate. -/
  | cmp (c : CoreId) (w : W32)
  /-- CMPI (R101): Compare a register with an immediate into a predicate. -/
  | cmpi (c : CoreId) (w : W32)
  /-- PLOG (R100): Predicate logic from a truth table. -/
  | plog (c : CoreId) (w : W32)
  /-- PRD (R100): Read all predicates into a register. -/
  | prd (c : CoreId) (w : W32)
  /-- PWR (R100): Write predicates p1 to p7 from a register. -/
  | pwr (c : CoreId) (w : W32)
  /-- TIME (R100): Read the time counter into rd. -/
  | time (c : CoreId) (w : W32)
  /-- LDB (R102): Load a sign-extended byte from device memory. -/
  | ldb (c : CoreId) (w : W32)
  /-- LDBU (R102): Load a zero-extended byte. -/
  | ldbu (c : CoreId) (w : W32)
  /-- LDH (R102): Load a sign-extended halfword. -/
  | ldh (c : CoreId) (w : W32)
  /-- LDHU (R102): Load a zero-extended halfword. -/
  | ldhu (c : CoreId) (w : W32)
  /-- LDW (R102): Load a sign-extended word. -/
  | ldw (c : CoreId) (w : W32)
  /-- LDWU (R102): Load a zero-extended word. -/
  | ldwu (c : CoreId) (w : W32)
  /-- LDD (R102): Load a doubleword. -/
  | ldd (c : CoreId) (w : W32)
  /-- STB (R102): Store a byte to device memory. -/
  | stb (c : CoreId) (w : W32)
  /-- STH (R102): Store a halfword. -/
  | sth (c : CoreId) (w : W32)
  /-- STW (R102): Store a word. -/
  | stw (c : CoreId) (w : W32)
  /-- STD (R102): Store a doubleword. -/
  | std (c : CoreId) (w : W32)
  /-- LDCD (R103): Load 8 bytes from core store. -/
  | ldcd (c : CoreId) (w : W32)
  /-- STCD (R103): Store 8 bytes to core store. -/
  | stcd (c : CoreId) (w : W32)
  /-- FENCE (R102): Complete when every earlier store of the sequencer is complete. -/
  | fence (c : CoreId) (w : W32)
  /-- BR (R104): Relative branch. -/
  | br (c : CoreId) (w : W32)
  /-- CALL (R95): Push return index and branch. -/
  | call (c : CoreId) (w : W32)
  /-- CALLR (R95): Push return index and branch to a register target. -/
  | callr (c : CoreId) (w : W32)
  /-- RET (R95): Pop the return stack into PC. -/
  | ret (c : CoreId) (w : W32)
  /-- CRD (R96): Read a control register, with any read side effect such as WPAD clear. -/
  | crd (c : CoreId) (w : W32)
  /-- CWR (R96): Write a control register such as ARR_AST. -/
  | cwr (c : CoreId) (w : W32)
  /-- TRAP (R100): Raise F-0507 with an immediate code. -/
  | trap (c : CoreId) (w : W32)
  /-- YIELD (R109): Preemption point that waits for engines and link credits. -/
  | yield (c : CoreId) (w : W32)
  /-- END (R111): End the core's part of the command. -/
  | endCmd (c : CoreId) (w : W32)
  /-- CODE_VIOLATION (R107): Both rails of a dual-rail bit asserted, raising F-0541 or F-1802. -/
  | codeViolation (u : ResetUnit)
  /-- LAUNCH_HEADER_CHECK (R93): A core checks the fetched program image header and starts at ENTRY or faults. -/
  | launchHeaderCheck (c : CoreId)
  /-- CODE_BLOCK_FETCH (R91): A fetched code block arrives and its trailer is checked. -/
  | codeBlockFetch (c : CoreId)
  /-- SEQUENCER_LOAD_RETURN (R102): Load data returns to a stalled sequencer. -/
  | sequencerLoadReturn (c : CoreId)
  /-- ARR_MM (R125): Dispatch a matrix product to a logical array. -/
  | arrMm (c : CoreId) (w : W32)
  /-- ARR_MMG (R78): Dispatch a gathered matrix product. -/
  | arrMmg (c : CoreId) (w : W32)
  /-- ARR_WFMT (R128): Queue a write of ARR_FMT. -/
  | arrWfmt (c : CoreId) (w : W32)
  /-- ARR_WCFG (R128): Queue a write of ARR_CFG. -/
  | arrWcfg (c : CoreId) (w : W32)
  /-- ARR_RFMT (R128): Read ARR_FMT after earlier queue entries. -/
  | arrRfmt (c : CoreId) (w : W32)
  /-- ARR_RCFG (R128): Read ARR_CFG after earlier queue entries. -/
  | arrRcfg (c : CoreId) (w : W32)
  /-- ARRAY_ISSUE (R73): An array instruction at queue head issues once tokens and phase allow. -/
  | arrayIssue (a : ArrayId)
  /-- GATHER_WINDOW_EXPIRY (R79): GWIN counts pass and the open group issues. -/
  | gatherWindowExpiry (a : ArrayId)
  /-- ARRAY_COMPLETE (R74): Last output element written; output token PRESENT and holds released. -/
  | arrayComplete (a : ArrayId)
  /-- IDLE_TIMER_EXPIRY (R82): Array idle timer reaches 200 and the controller goes to FILL_DOWN. -/
  | idleTimerExpiry (a : ArrayId)
  /-- DENSITY_CHANGE (R83): Array density moves one level after at least 12 counts. -/
  | densityChange (a : ArrayId)
  /-- FILLER_PATTERN (R84): A filler known-answer pattern completes and is checked. -/
  | fillerPattern (a : ArrayId) (ok : Bool)
  /-- STR_LD (R129): Dispatch a memory-to-token load. -/
  | strLd (c : CoreId) (w : W32)
  /-- STR_ST (R129): Dispatch a token-to-memory store. -/
  | strSt (c : CoreId) (w : W32)
  /-- STR_LDM (R129): Dispatch a map store to token load. -/
  | strLdm (c : CoreId) (w : W32)
  /-- STR_STM (R129): Dispatch a token to map store store. -/
  | strStm (c : CoreId) (w : W32)
  /-- STR_XP (R212): Dispatch a window expansion into a token. -/
  | strXp (c : CoreId) (w : W32)
  /-- STR_MLD (R156): Dispatch a memory to map store transfer. -/
  | strMld (c : CoreId) (w : W32)
  /-- STR_MST (R156): Dispatch a map store to memory transfer. -/
  | strMst (c : CoreId) (w : W32)
  /-- STR_CVRD (R132): Read a running check value after earlier stream instructions. -/
  | strCvrd (c : CoreId) (w : W32)
  /-- STR_CVWR (R132): Write a running check value after earlier stream instructions. -/
  | strCvwr (c : CoreId) (w : W32)
  /-- STREAM_ISSUE (R157): A stream instruction issues after descriptor, offset and footprint checks. -/
  | streamIssue (c : CoreId)
  /-- STREAM_COMPLETE (R131): A stream instruction completes and its token becomes PRESENT where it loads. -/
  | streamComplete (c : CoreId)
  /-- VEC_VLD (R135): Load 64 token elements into a vector register. -/
  | vecVld (c : CoreId) (w : W32)
  /-- VEC_VST (R135): Store 64 lanes into a token. -/
  | vecVst (c : CoreId) (w : W32)
  /-- VEC_VOPF (R194): FP32 lane operation. -/
  | vecVopf (c : CoreId) (w : W32)
  /-- VEC_VOPB (R195): BF16-rounded lane operation. -/
  | vecVopb (c : CoreId) (w : W32)
  /-- VEC_VOPI (R196): INT32 lane operation. -/
  | vecVopi (c : CoreId) (w : W32)
  /-- VEC_VSFU (R198): Correctly rounded special function per lane. -/
  | vecVsfu (c : CoreId) (w : W32)
  /-- VEC_VRED (R199): Reduction of 64 lanes into lane 0. -/
  | vecVred (c : CoreId) (w : W32)
  /-- VEC_VCVT (R200): Lane conversion. -/
  | vecVcvt (c : CoreId) (w : W32)
  /-- VEC_VBCST (R139): Broadcast a scalar to every lane. -/
  | vecVbcst (c : CoreId) (w : W32)
  /-- VEC_VMOVS (R139): Move one lane to a scalar register. -/
  | vecVmovs (c : CoreId) (w : W32)
  /-- VEC_VSORT (R137): Stable sort of records and keep the first KEEP. -/
  | vecVsort (c : CoreId) (w : W32)
  /-- VEC_VBOX (R226): Decode input records into box records. -/
  | vecVbox (c : CoreId) (w : W32)
  /-- VEC_VNMS (R228): Sort and suppress overlapping boxes. -/
  | vecVnms (c : CoreId) (w : W32)
  /-- VECTOR_ISSUE (R203): A vector instruction issues when sources and claims are ready. -/
  | vectorIssue (c : CoreId)
  /-- VECTOR_COMPLETE (R136): A vector instruction completes and releases its claims. -/
  | vectorComplete (c : CoreId)
  /-- SYNC_TDEF (R119): Define a token's region and shape. -/
  | syncTdef (c : CoreId) (w : W32)
  /-- SYNC_TREL (R122): Make a token EMPTY. -/
  | syncTrel (c : CoreId) (w : W32)
  /-- SYNC_TSTAT (R140): Return a token's state and claims. -/
  | syncTstat (c : CoreId) (w : W32)
  /-- SYNC_PHASE (R141): Change the core's phase after the required waits. -/
  | syncPhase (c : CoreId) (w : W32)
  /-- SYNC_WAIT (R142): Wait for earlier instructions of named engines. -/
  | syncWait (c : CoreId) (w : W32)
  /-- SYNC_BAR (R144): Arrive at a cluster barrier. -/
  | syncBar (c : CoreId) (w : W32)
  /-- SYNC_HPOST (R145): Add to a halo token counter after earlier streams. -/
  | syncHpost (c : CoreId) (w : W32)
  /-- SYNC_HWAIT (R145): Wait for a halo counter threshold. -/
  | syncHwait (c : CoreId) (w : W32)
  /-- SYNC_SACQ (R146): Acquire a hardware semaphore unit. -/
  | syncSacq (c : CoreId) (w : W32)
  /-- SYNC_STRY (R146): Try to acquire a semaphore unit. -/
  | syncStry (c : CoreId) (w : W32)
  /-- SYNC_SREL (R146): Release a semaphore unit. -/
  | syncSrel (c : CoreId) (w : W32)
  /-- SYNC_ALLOC (R187): Allocate from map store or context heap. -/
  | syncAlloc (c : CoreId) (w : W32)
  /-- SYNC_FREE (R188): Free an allocation. -/
  | syncFree (c : CoreId) (w : W32)
  /-- SYNC_WGCLM (R148): Claim a window generator. -/
  | syncWgclm (c : CoreId) (w : W32)
  /-- SYNC_WGBIND (R214): Bind a window token to a generator geometry. -/
  | syncWgbind (c : CoreId) (w : W32)
  /-- SYNC_WGREL (R148): Release a window generator and its tokens. -/
  | syncWgrel (c : CoreId) (w : W32)
  /-- LOAD_GRANT (R18): The cluster's load grant passes to a requesting core. -/
  | loadGrant (k : ClusterId)
  /-- BARRIER_COMPLETE (R144): Every participant has arrived and the barrier completes. -/
  | barrierComplete (k : ClusterId) (b : Fin 8)
  /-- HALO_WAIT_MET (R145): A halo counter reaches the awaited threshold. -/
  | haloWaitMet (c : CoreId)
  /-- SEMAPHORE_GRANT (R146): A waiting acquire is granted a unit in FIFO order. -/
  | semaphoreGrant (sem : BitVec 12)
  /-- PREEMPTION (R109): After YIELD's waits with YPEND set, state is saved and the core released. -/
  | preemption (c : CoreId)
  /-- CORE_RESUME (R110): A preempted context resumes at the saved PC on a chosen core. -/
  | coreResume (c : CoreId) (q : QueueId) (lcore : Nat)
  /-- CORE_IMAGE_SAVE (R183): A core store image and state block are written to the save area. -/
  | coreImageSave (c : CoreId)
  /-- MAP_STORE_IMAGE_SAVE (R184): A logical cluster's map store image is saved. -/
  | mapStoreImageSave (k : ClusterId)
  /-- IMAGE_RESTORE (R185): A saved image is read back with trailer and generation checks. -/
  | imageRestore (st : StoreId)
  /-- STORE_CLEAR (R181): A core or map store clear finishes. -/
  | storeClear (st : StoreId)
  /-- SCRUB (R180): The scrubber reads a store word and corrects or reports it. -/
  | scrub (st : StoreId) (word : Nat)
  /-- PEAT_READ_REQUEST_TRANSFER (R455): A read request transfers when OFFER and TAKE meet. -/
  | peatReadRequestTransfer (r : Nat)
  /-- PEAT_WRITE_REQUEST_TRANSFER (R455): A write request with data transfers at the serving port. -/
  | peatWriteRequestTransfer (r : Nat)
  /-- PEAT_READ_DATA (R455): Read data or failure returns with its tag. -/
  | peatReadData (p : PortId) (tag : Nat) (fail : Bool)
  /-- PEAT_WRITE_ACCEPTANCE (R458): A write acceptance or failure returns with its tag. -/
  | peatWriteAcceptance (p : PortId) (tag : Nat) (fail : Bool)
  /-- UNANSWERED_REQUEST (R172): A request has no response within 1,000 counts. -/
  | unansweredRequest (r : Nat)
  /-- DOORBELL (R255): A doorbell write sets the queue's fill mark or faults. -/
  | doorbell (role strb : Byte) (q : QueueId) (wr : W64)
  /-- DOORBELL_FORWARD (R14): Die 0 forwards a doorbell to the queue's home die. -/
  | doorbellForward (m : Nat)
  /-- COMMAND_ACCEPTANCE (R260): A ring command is read, checked, referenced and pre-translated. -/
  | commandAcceptance (q : QueueId)
  /-- NOP (R261): Command with no effect. -/
  | nop (q : QueueId)
  /-- LAUNCH (R264): Command that runs a program on placed cores. -/
  | launch (q : QueueId)
  /-- SIGNAL (R261): Command that signals a fence with STATUS 0. -/
  | signal (q : QueueId)
  /-- WAIT (R263): Command that waits for a memory condition. -/
  | wait (q : QueueId)
  /-- TEST (R261): Command that sets a condition flag from one read. -/
  | test (q : QueueId)
  /-- WRITE_COMMAND (R261): Command that writes a value to memory. -/
  | writeCommand (q : QueueId)
  /-- TIME_COMMAND (R261): Command that writes the time counter to memory. -/
  | timeCommand (q : QueueId)
  /-- CALL_COMMAND (R262): Command that executes a buffer COUNT times. -/
  | callCommand (q : QueueId)
  /-- BREAK (R261): Command that ends the innermost CALL. -/
  | breakCall (q : QueueId)
  /-- INVAL (R296): Command that invalidates a translation span on every die. -/
  | inval (q : QueueId)
  /-- WAIT_REREAD (R263): A waiting queue re-reads its value on its interval or after a fence write. -/
  | waitReread (q : QueueId)
  /-- LAUNCH_PLACEMENT (R269): The scheduler places a waiting launch when cores free. -/
  | launchPlacement (q : QueueId) (d : DieId)
  /-- RESIDENT_SLOT_TAKE (R268): A context takes a resident slot, evicting a victim if needed. -/
  | residentSlotTake (d : DieId) (ctx : BitVec 14)
  /-- SLICE_EXPIRY (R271): A launch's slice passes and YPEND is set on its cores. -/
  | sliceExpiry (q : QueueId) (d : DieId)
  /-- COMMAND_TIMEOUT (R266): Per-command timeout expires and the queue enters STOPPING. -/
  | commandTimeout (q : QueueId)
  /-- DRAIN_EXPIRY (R266): The 2,000-count drain ends and busy engines are reset. -/
  | drainExpiry (q : QueueId)
  /-- LAUNCH_COMPLETE (R19): All cores ended and writes accepted; fence, event record and interrupt follow. -/
  | launchComplete (q : QueueId)
  /-- LOSS_PROCEDURE (R247): After a context's launches stop, its queues are walked and fences error-advanced. -/
  | lossProcedure (ctx : BitVec 14)
  /-- LAUNCH_TO_DIE_0 (R15): Home die sends a multi-die launch to die 0, which chooses dies. -/
  | launchToDie0 (m : Nat)
  /-- DISTRIBUTION_RECORD (R321): A die receives, checks and places its launch part. -/
  | distributionRecord (m : Nat)
  /-- LAUNCH_COUNT_REACHED (R348): The global counter reaches COUNT and the part's cores are released. -/
  | launchCountReached (q : QueueId) (d : DieId)
  /-- PART_ENDED (R322): A part-ended or part-failed message reaches the home die. -/
  | partEnded (m : Nat)
  /-- STOP (R274): A stop message halts a unit's part of a command. -/
  | stop (m : Nat)
  /-- STOP_ACKNOWLEDGEMENT (R274): A unit acknowledges its stop; the last one frees the queue. -/
  | stopAcknowledgement (m : Nat)
  /-- SEMAPHORE_REQUEST (R250): A semaphore request reaches die 0's synchronisation unit. -/
  | semaphoreRequest (m : Nat)
  /-- POOL1_CALL (R186): A pool 1 call reaches die 0's allocator. -/
  | pool1Call (m : Nat)
  /-- FENCE_SIGNAL (R245): The serving die's fence unit applies or drops a signal. -/
  | fenceSignal (n : Nat)
  /-- CTX_CREATE (R236): Object request creating a context. -/
  | ctxCreate (role strb : Byte) (v : W64)
  /-- CTX_ABORT (R247): Object request making a context LOST. -/
  | ctxAbort (role strb : Byte) (v : W64)
  /-- CTX_DESTROY (R236): Object request freeing a context. -/
  | ctxDestroy (role strb : Byte) (v : W64)
  /-- Q_CREATE (R238): Object request opening a queue. -/
  | qCreate (role strb : Byte) (v : W64)
  /-- Q_DESTROY (R274): Object request destroying a queue. -/
  | qDestroy (role strb : Byte) (v : W64)
  /-- MO_REGISTER (R239): Object request registering a memory object. -/
  | moRegister (role strb : Byte) (v : W64)
  /-- MO_DESTROY (R242): Object request moving a memory object to RETIRING. -/
  | moDestroy (role strb : Byte) (v : W64)
  /-- MO_RETIRE_END (R242): All DEV_REFS reach 0 and the RETIRING object becomes FREE. -/
  | moRetireEnd (handle : BitVec 20)
  /-- SEM_CREATE (R250): Object request creating a semaphore. -/
  | semCreate (role strb : Byte) (v : W64)
  /-- SEM_DESTROY (R250): Object request freeing a semaphore. -/
  | semDestroy (role strb : Byte) (v : W64)
  /-- WALK_END (R282): A range table walk ends, installing an entry or posting a fault. -/
  | walkEnd (d : DieId) (n : Nat)
  /-- DEFERRED_FAULT_POST (R291): A stalled fault is posted when a fault queue slot frees. -/
  | deferredFaultPost (d : DieId)
  /-- RETRY (R292): FQ_RESP action replaying every stalled access of a record. -/
  | retry (role strb : Byte) (d : DieId) (v : W64)
  /-- FAIL (R294): FQ_RESP action failing every stalled access of a record. -/
  | fail (role strb : Byte) (d : DieId) (v : W64)
  /-- ACK (R292): FQ_RESP action freeing a HOT record. -/
  | ack (role strb : Byte) (d : DieId) (v : W64)
  /-- REPLAY (R293): A faulting tile is replayed with fresh translation. -/
  | replay (d : DieId) (n : Nat)
  /-- HOT_PERIOD_EXPIRY (R303): Remote counters of the die are cleared at each period. -/
  | hotPeriodExpiry (d : DieId)
  /-- PART_ROOT_COMMIT (R279): Write covering byte 7 commits a partition root to every die. -/
  | partRootCommit (role strb : Byte) (p : Fin 16) (v : W64)
  /-- SEGMENT_BLOCK_LOAD (R299): A context's Kindling segment block is read and checked. -/
  | segmentBlockLoad (d : DieId) (ctx : BitVec 14)
  /-- INVALIDATION (R296): A die removes overlapping translations and drains their requests. -/
  | invalidation (m : Nat)
  /-- INVALIDATION_ACKNOWLEDGEMENT (R296): A die acknowledges; the last one completes the INVAL. -/
  | invalidationAcknowledgement (d : DieId) (q : QueueId)
  /-- FLIT (R313): A flit is received, checked, delivered in order or NAKed. -/
  | flit (l : LinkId) (raw : List Byte)
  /-- ACK_TIMEOUT (R313): No ACK within 200 counts; replay from the oldest held flit. -/
  | ackTimeout (l : LinkId)
  /-- MT_PHY_READY (R316): PHY reports ready and training enters IDENT. -/
  | mtPhyReady (l : LinkId)
  /-- MT_PHY_READY_FALL (R462): PHY ready falls in ACTIVE and the link enters RETRAIN. -/
  | mtPhyReadyFall (l : LinkId)
  /-- IDENT_COMPLETE (R317): After 64 cycles each receive lane is classified and lanes retired. -/
  | identComplete (l : LinkId) (lanes : List LaneSeen)
  /-- REPORT_COMPLETE (R316): Both sides hold retired masks; ALIGN or FAILED follows. -/
  | reportComplete (l : LinkId) (farRetired : List (BitVec 48)) (farDie : List (Fin 8)) (farLink : List (Fin 4))
  /-- ALIGN_COMPLETE (R316): Deskew done and the link is ACTIVE. -/
  | alignComplete (l : LinkId)
  /-- TRAINING_PHASE_TIMEOUT (R316): A training phase exceeds 20 counts and restarts at IDENT. -/
  | trainingPhaseTimeout (l : LinkId)
  /-- LINK_TRAIN_TIMEOUT (R482): A link not ACTIVE within 50 ms of LINKS is FAILED. -/
  | linkTrainTimeout (l : LinkId)
  /-- TOPOLOGY_ANNOUNCEMENT (R318): A die announces its ACTIVE links and routes are recomputed. -/
  | topologyAnnouncement (d : DieId)
  /-- ALIGNMENT_EXCHANGE_TIMER (R343): A die sends its next alignment request every 10 counts. -/
  | alignmentExchangeTimer (d : DieId)
  /-- ALIGNMENT_REQUEST (R312): Die 0 answers an alignment request at once with its count. -/
  | alignmentRequest (m : Nat)
  /-- ALIGNMENT_ANSWER (R343): An answer arrives; after 16 the offset is applied. -/
  | alignmentAnswer (m : Nat)
  /-- COUNTER_HOLD_END (R343): A negative-offset hold ends and the counter advances again. -/
  | counterHoldEnd (d : DieId)
  /-- PERIODIC_ALIGNMENT_CHECK (R345): Every second a die rechecks its offset against die 0. -/
  | periodicAlignmentCheck (d : DieId)
  /-- ALIGNMENT_TIMEOUT (R345): No answer within 1,000 counts; F-1702 and ALIGNED cleared. -/
  | alignmentTimeout (d : DieId)
  /-- PULSE_INPUT (R441): A pulse input edge latches GC_CAP and PPS_IN. -/
  | pulseInput (d : DieId)
  /-- STAGE_REPORT (R482): Die 0 receives a die's stage report and fills the capability table. -/
  | stageReport (m : Nat)
  /-- LINKS_END (R482): Fitted links settled and die ALIGNED; the stage report is sent. -/
  | linksEnd (d : DieId)
  /-- READINESS_REPORT (R484): A die receives the readiness report and raises READY. -/
  | readinessReport (m : Nat)
  /-- HOST_DONE (R484): START_CTL write asking for the readiness report. -/
  | hostDone (role strb : Byte) (v : W64)
  /-- SELFTEST_VERDICT (R481): Self-test finishes and failed units are disabled. -/
  | selftestVerdict (d : DieId) (fails : List ResetUnit) (dieFail : Nat)
  /-- COMPUTE_PART_RELEASE (R402): The compute part leaves reset and committed values and plan are written. -/
  | computePartRelease (d : DieId)
  /-- RATE_WINDOW (R33): A 1,000-count rate window completes and the rate register updates. -/
  | rateWindow (d : DieId) (rate : W16)
  /-- SUPPLY_DIP (R31): Supply below 0.60 V for 100 ns: F-0203, safe-state request, compute part reset. -/
  | supplyDip (d : DieId)
  /-- SUPPLY_RECOVERY (R31): Supply at or above 0.65 V for 10 µs releases the compute part. -/
  | supplyRecovery (d : DieId)
  /-- TIMEBASE_LOST (R39): No timebase edge for 60 to 100 ns; F-0201 and ring oscillator. -/
  | timebaseLost (d : DieId)
  /-- TIMEBASE_RESUME (R39): Timebase edges resume and the counter follows them. -/
  | timebaseResume (d : DieId)
  /-- TIMEBASE_STABLE (R39): After 1 ms of edges the steward clears F-0201. -/
  | timebaseStable (d : DieId)
  /-- WATCHDOG_EXPIRY (R358): A unit's watchdog reaches WD_LIMIT and starts the reset ladder. -/
  | watchdogExpiry (u : ResetUnit) (counts : Nat)
  /-- RESET_DEADLINE (R359): A reset misses its deadline and the ladder moves up a level. -/
  | resetDeadline (d : DieId) (n : Nat)
  /-- RESET_CHECK (R353): A reset unit passes its reset check and returns to service. -/
  | resetCheck (d : DieId) (n : Nat)
  /-- REGION_READ_TIMEOUT (R364): A dump region read exceeds 200 counts and is marked UNREACHABLE. -/
  | regionReadTimeout (d : DieId) (n path : Nat)
  /-- COLLECTION_CUTOFF (R364): Collection time at a level ends and remaining regions are TRUNCATED. -/
  | collectionCutoff (d : DieId) (n : Nat)
  /-- BOUNDARY_SLOT_TIMEOUT (R355): 1,000 counts after a reset, unanswered slots and credits are returned. -/
  | boundarySlotTimeout (d : DieId) (r : Nat)
  /-- DUMP_FREE (R366): DUMP_STAT FREE write frees the oldest dump. -/
  | dumpFree (role strb : Byte) (d : DieId) (v : W64)
  /-- DIE_RESET_REPLAN (R392): After a DIE reset the steward rewrites codes and raise-plans regions. -/
  | dieResetReplan (d : DieId)
  /-- PAIR_COMPARISON (R374): Both runs reach a comparison point and signatures are compared. -/
  | pairComparison (q : QueueId) (lcore : Nat)
  /-- PAIR_WAIT_EXPIRY (R374): The other run misses its comparison point; F-1902. -/
  | pairWaitExpiry (q : QueueId) (lcore : Nat)
  /-- READBACK_MISMATCH (R377): Error pair pins differ from driven state for 4 counts; F-1903. -/
  | readbackMismatch (d : DieId) (sampled : BitVec 2)
  /-- SUPERVISION_CYCLE (R378): Steward completes supervision and toggles SAFE_HB. -/
  | supervisionCycle (d : DieId)
  /-- EMBER_MEASUREMENT (R387): An Ember monitor completes a slack reading. -/
  | emberMeasurement (d : DieId) (region mon : Nat) (reading : Byte)
  /-- MONITOR_FAILURE (R388): A monitor misses two intervals or reads out of range; F-2003. -/
  | monitorFailure (d : DieId) (region mon : Nat)
  /-- PERIODIC_REPLAN (R390): Ten minutes pass and every enabled region is re-planned. -/
  | periodicReplan (d : DieId)
  /-- VREQ_STEP (R393): VREQ moves one code toward VT every 100 counts. -/
  | vreqStep (d : DieId)
  /-- SLACK_RECORD (R394): Each hour SLACK_MIN of every region is journaled. -/
  | slackRecord (d : DieId)
  /-- IMAGE_CHECK (R397): On steward reset release the Carori image is checked and run or ROM base runs. -/
  | imageCheck (d : DieId) (flashOk : Bool)
  /-- RECOVER (R398): Writing 0x5A restarts the steward into the ROM base firmware. -/
  | recover (d : DieId) (path : DPath)
  /-- STEWARD_WATCHDOG (R399): No supervision cycle in 2 ms restarts the steward; F-2101. -/
  | stewardWatchdog (d : DieId)
  /-- READ (R403): Dictionary request returning a committed value. -/
  | dictRead (d : DieId) (path : DPath)
  /-- WRITE (R407): Dictionary request writing or staging an object value. -/
  | dictWrite (d : DieId) (path : DPath)
  /-- COMMIT (R408): Dictionary request committing a staged group. -/
  | dictCommit (d : DieId) (path : DPath)
  /-- ABORT (R407): Dictionary request ending a staging session. -/
  | dictAbort (d : DieId) (path : DPath)
  /-- DESCRIBE (R404): Dictionary request returning an object's attributes. -/
  | dictDescribe (d : DieId) (path : DPath)
  /-- IMG_ERASE (R404): ROM base request erasing the firmware slot. -/
  | imgErase (d : DieId) (path : DPath)
  /-- IMG_WRITE (R404): ROM base request programming firmware slot bytes. -/
  | imgWrite (d : DieId) (path : DPath)
  /-- BOOT (R404): ROM base request restarting the steward under R397. -/
  | boot (d : DieId) (path : DPath)
  /-- DAP_FRAME (R411): A DAP frame is authenticated, sequence-checked and queued. -/
  | dapFrame (d : DieId) (frame : List Byte)
  /-- SESSION_TIMEOUT (R407): A staging session idle for 1 s ends. -/
  | sessionTimeout (d : DieId) (group : Byte)
  /-- JOURNAL_RECORD_WRITE (R422): A record is programmed, read back and counted as written. -/
  | journalRecordWrite (d : DieId) (ok : Bool)
  /-- JOURNAL_REPLAY (R424): The active bank is replayed at power-up or restart. -/
  | journalReplay (d : DieId)
  /-- COMPACTION (R425): Append point reaches 75 % and live state is copied to the other bank. -/
  | compaction (d : DieId)
  /-- SECTOR_ERASE (R425): A flash sector erase completes. -/
  | sectorErase (d : DieId)
  /-- JRN_CLEAR (R428): Writing 0xC3 erases both banks and restarts the steward. -/
  | jrnClear (d : DieId) (path : DPath)
  /-- SYNC_MESSAGE (R438): A gPTP Sync steps device time or drives the servo. -/
  | syncMessage (d : DieId) (frame : List Byte)
  /-- FOLLOW_UP (R435): A Follow_Up completes a two-step Sync. -/
  | followUp (d : DieId) (frame : List Byte)
  /-- PDELAY_REQ (R435): A received Pdelay_Req is answered. -/
  | pdelayReq (d : DieId) (frame : List Byte)
  /-- PDELAY_RESP (R435): A Pdelay_Resp feeds the peer delay measurement. -/
  | pdelayResp (d : DieId) (frame : List Byte)
  /-- PDELAY_RESP_FOLLOW_UP (R435): A Pdelay_Resp_Follow_Up completes the delay measurement. -/
  | pdelayRespFollowUp (d : DieId) (frame : List Byte)
  /-- SYNC_INTERVAL (R437): As MASTER a one-step Sync is sent each interval. -/
  | syncInterval (d : DieId)
  /-- PDELAY_INTERVAL (R435): A Pdelay_Req is sent each peer delay interval. -/
  | pdelayInterval (d : DieId)
  /-- SYNC_LOST (R439): No Sync for 3 intervals; F-2302. -/
  | syncLost (d : DieId)
  /-- TIME_SET (R438): Write stepping device time once. -/
  | timeSet (d : DieId) (path : DPath)
  /-- TIME_ADJ (R434): Write of ADJ, effective at the next count. -/
  | timeAdj (d : DieId) (path : DPath)
  /-- RESTEP (R438): Writing 0xA5 clears STEPPED. -/
  | restep (d : DieId) (path : DPath)
  /-- SECOND_ADVANCE (R440): Device time seconds advance; PPS_OUT rises and CORR latches. -/
  | secondAdvance (d : DieId)
  /-- PPS_OUT_FALL (R440): PPS_OUT falls after 10,000,000 counts high. -/
  | ppsOutFall (d : DieId)
  /-- LINK_UP (R445): MAC_PHY_LINK changes and LINK_UP follows. -/
  | linkUp (d : DieId) (up : Bool)
  /-- MONITOR_SAMPLE (R449): A histogram monitor sorts one sample into a bin. -/
  | monitorSample (d : DieId) (m : Fin 32) (v : W32)
  /-- SNAP_MASK (R451): HM_GCTL operation copying live banks to snapshot banks. -/
  | snapMask (role strb : Byte) (d : DieId) (v : W64)
  /-- CLEAR_MASK (R451): HM_GCTL operation clearing live banks. -/
  | clearMask (role strb : Byte) (d : DieId) (v : W64)
  /-- INTERRUPT_MESSAGE (R461): An interrupt message transfers when IM_READY is high. -/
  | interruptMessage (d : DieId)
  /-- BLK_RST_N_ASSERT (R465): Block reset asserted; every request ends without response. -/
  | blkRstNAssert (d : DieId)
  /-- BLK_RST_N_RELEASE (R465): Block reset released; straps latched and BOOT begins. -/
  | blkRstNRelease (d : DieId)
  /-- DBG_DATA (R470): Update-DR performs one debug access at DBG_ADDR. -/
  | dbgData (d : DieId) (addr : W32) (write : Bool) (v : W64)
  /-- DBG_TRST_N (R470): Debug reset ends the debug session. -/
  | dbgTrstN (d : DieId)
  /-- TABLE_BASE_WRITE (R490): Write of an object table base, refused while objects are not FREE. -/
  | tableBaseWrite (role strb : Byte) (off : BitVec 28) (v : W64)
  /-- RING_BASE_WRITE (R492): Write of an event ring base with alignment and enable checks. -/
  | ringBaseWrite (role strb : Byte) (p : Fin 16) (r : Byte) (v : W64)
  /-- RING_CFG_WRITE (R492): Write of ring configuration; ENABLE zeroes WR and RD. -/
  | ringCfgWrite (role strb : Byte) (p : Fin 16) (r : Byte) (v : W64)
  /-- RING_RD_WRITE (R492): Write of records consumed, checked against WR. -/
  | ringRdWrite (role strb : Byte) (p : Fin 16) (r : Byte) (v : W64)
  /-- OVF_CTL_FREE (R495): FREE write frees the oldest overflow log entry. -/
  | ovfCtlFree (role strb : Byte) (d : DieId) (v : W64)
  /-- REGISTER_WRITE (R459): Crown write to a register with no behaviour of its own, under access codes. -/
  | registerWrite (d : DieId) (role strb : Byte) (off : BitVec 28) (v : W64)
  /-- TIMEBASE_RISING_EDGE (R37): On each rising edge of the timebase, or of the ring oscillator while it is lost, the time counter advances by one and device time adds 10 ns plus ADJ. -/
  | timebaseRisingEdge (d : DieId)
  /-- REGISTER_READ (R9): A Crown or debug read of a register with RC fields returns their values and resets them, such as RATE_MIN, DB_IGNORED, MERGED, LATE, REALIGNS, STRAY or CE_COUNT. -/
  | registerRead (d : DieId) (role : Byte) (off : BitVec 28)
  /-- RX_DROP (R432): A received Ethernet frame that is not accepted is dropped and counted in RX_DROP. -/
  | rxDrop (d : DieId) (frame : List Byte)
  /-- POOL1_RESULT (R186): The pool 1 result message from die 0 reaches the calling die and completes its SYNC.ALLOC or SYNC.FREE. -/
  | pool1Result (m : Nat)
  /-- FENCE_SIGNAL_RESULT (R245): The fence signal result from the serving die reaches the signalling command processor, which then posts the FENCE event record and interrupt message. -/
  | fenceSignalResult (n : Nat)
  /-- REGION_READ (R364): A crash dump region read answers, its record is written, and the collection path goes on to the next region or, after the last, the reset of the ladder is asserted. -/
  | regionRead (d : DieId) (n path : Nat)
  deriving DecidableEq, Repr

end Sys2Proof
end

