-- ==== Sys2Proof/Decode.lean ====
section
/-!
DEFINITION. The command that a word spells by the bits of the table of operations and events.
-/
namespace Sys2Proof

/-- No row of the table gives bits, so no word spells a command. DEDUCED, log entry 72. -/
def decodeTableWord (_nbits _w : Nat) : Option Instr := none

end Sys2Proof
end

