-- ==== Sys2Proof/Config.lean ====
section
/-!
DEFINITION. What a part fixes and what the spec leaves open: fused values and keys, and the free values.
An opaque constant has no value that a proof could use; a statement that mentions one holds for every value of it.
-/
namespace Sys2Proof.Config

/-- Undefined bytes: the content of store `n` at an offset (R177, R181), for each clear of knowledge `n`; and other
bytes that the spec does not state, by the count of the machine's free-value counter. DESIGN CHOICE, log entry 7. -/
opaque freeByte : Nat → Nat → Byte

/-- A fresh undefined number, by the count of the machine's free-value counter. DESIGN CHOICE, log entry 7. -/
opaque freeNat : Nat → Nat

/-- A choice between two outcomes that a rule leaves open: the old byte or the new one of a read (R170), whether the steward
clears a latch (R182). DESIGN CHOICE, log entries 7, 77. -/
opaque freeNew : Nat → Nat → Bool

/-- Whether two boxes overlap where a corner of one overflows FP32: threshold field and the two records (R229, R230).
DESIGN CHOICE, log entry 67. -/
opaque freeOverlap : Nat → List Byte → List Byte → Bool

/-- Bytes of padding in a dump, by the dump's sequence number and the place in the padding (R365). -/
opaque padByte : Nat → Nat → Byte

/-- How far the port clock PT_CLK lies above 0.8 GHz, in MHz, modulo the width of its range (Table 25-2).
DESIGN CHOICE, log entry 68. -/
opaque portClock : Nat

/-- SERIAL of a die, fused at manufacture (Table 21-11). DESIGN CHOICE, log entry 8. -/
opaque serial : Nat → W64

/-- The public key in the steward ROM of a die, as the two coordinates of a point of P-256 (R397), and as the bytes that
ROM_KEY_HASH is taken over, whose form the spec does not state (Table 21-11). DESIGN CHOICE, log entry 8. -/
opaque romKey : Nat → Nat × Nat
opaque romKeyBytes : Nat → List Byte

/-- The minimum security version fused at manufacture (R397). DESIGN CHOICE, log entry 8. -/
opaque minSvn : Nat → W16

/-- MAC_ADDR of a die, fused at manufacture (Table 23-4). -/
opaque macAddr : Nat → BitVec 48

/-- The device-unique key that wraps the DAP keys in the journal (R410), whose length the spec does not state.
DESIGN CHOICE, log entry 9. -/
opaque deviceKey : Nat → BitVec 128

/-- Whether a part is a development part, by its lifecycle fuse (R470). -/
opaque development : Nat → Bool

/-- HPA_BASE of a die: where the integrator maps its memory for the host (Table 12-10). -/
opaque hpaBase : Nat → W64

end Sys2Proof.Config
end

