-- ==== Sys2Proof/Machine/Bits.lean ====
section
/-!
DEFINITION. Bit fields, sign extension and the little-endian byte order of R7.
-/
namespace Sys2Proof.Machine

/-- Bits `hi` down to `lo` of a natural number, as a number. -/
def field (w hi lo : Nat) : Nat := (w >>> lo) % 2 ^ (hi + 1 - lo)

/-- Bit `i` of a natural number. -/
def bitAt (w i : Nat) : Bool := w.testBit i

/-- `w` with bits `hi` down to `lo` replaced by `v`. -/
def setField (w hi lo v : Nat) : Nat :=
  w - (field w hi lo) * 2 ^ lo + (v % 2 ^ (hi + 1 - lo)) * 2 ^ lo

/-- A field put at its place in a word that is being assembled. -/
def place (v lo : Nat) : Nat := v * 2 ^ lo

/-- A Boolean as the bit it stands for. -/
def bit (b : Bool) : Nat := if b then 1 else 0

/-- An `n`-bit pattern read as a two's-complement number. -/
def signed (n w : Nat) : Int :=
  if w % 2 ^ n < 2 ^ (n - 1) then (w % 2 ^ n : Nat) else (w % 2 ^ n : Nat) - (2 ^ n : Nat)

/-- An `n`-bit field extended by its sign to 64 bits (R100). -/
def sext (n w : Nat) : W64 := BitVec.ofInt 64 (signed n w)

/-- An integer as the `n`-bit two's-complement pattern that is equal to it modulo 2^n. -/
def wrap (n : Nat) (x : Int) : Nat := (x % (2 ^ n : Nat)).toNat

/-- The `n` bytes of a value, lowest first (R7). -/
def bytesLE (n v : Nat) : List Byte :=
  (List.range n).map fun i => BitVec.ofNat 8 (v >>> (8 * i))

/-- The value of a string of bytes, lowest first (R7). -/
def ofBytesLE : List Byte → Nat
  | [] => 0
  | b :: bs => b.toNat + 256 * ofBytesLE bs

/-- Number of set bits among the low `n` bits. -/
def popcount (n w : Nat) : Nat := (List.range n).countP fun i => w.testBit i

/-- Division rounding up; 0 for a divisor of 0. -/
def ceilDiv (a b : Nat) : Nat := (a + b - 1) / b

/-- The least multiple of `b` that is not below `a`. -/
def roundUp (a b : Nat) : Nat := ceilDiv a b * b

/-- A counter that stays at its largest value. -/
def satAdd (w : Nat) (a b : Nat) : Nat := min (a + b) (2 ^ w - 1)

end Sys2Proof.Machine
end

