-- ==== Sys2Proof/Machine/Units/Store.lean ====
section
/-!
DEFINITION. A core store or map store as data: its bytes, the error marks of its words and its error register
(R174, R178 to R181, Table 08-3).
-/
namespace Sys2Proof.Machine

/-- A store of a core or a cluster. A byte that is not listed reads 0 when `base` is `none` (R181), and the
free value `Config.freeByte` of `base` when the content is undefined (R177, R181). -/
structure Store where
  /-- The bytes written since the last clear or launch, by offset. -/
  bytes : SMap Byte := {}
  /-- none: unlisted bytes are 0. some n: unlisted bytes are undefined, drawn from free value n. -/
  base : Option Nat := none
  /-- Words (offset / 16) that hold a single-bit error (R178). -/
  single : List Nat := []
  /-- Words (offset / 16) that are uncorrectable (R178). -/
  bad : List Nat := []
  /-- Table 08-3 LAST_WORD. -/
  lastWord : BitVec 23 := 0
  /-- Table 08-3 CE_COUNT. -/
  ceCount : W16 := 0
  /-- Table 08-3 SCRUB_UE. -/
  scrubUE : Bool := false
  /-- Table 08-3 UE. -/
  ue : Bool := false
  /-- Table 08-3 CE. -/
  ce : Bool := false
  /-- A clear of the store is required before its next user (R181). -/
  clearDue : Bool := false
  deriving DecidableEq, Repr

end Sys2Proof.Machine
end

