-- ==== Sys2Proof/Machine/Units/Core.lean ====
section
/-!
DEFINITION. The state of a core: its twin sequencers, tokens, engines and arrays (R67, R82, R94 to R96, R106,
R116, R118 to R124, R160, R192).
-/
namespace Sys2Proof.Machine

/-- The architectural registers of one sequencer (R94, R95). -/
structure SeqRegs where
  /-- s1 to s31; a register that is not listed holds 0, and s0 is never listed. -/
  s : SMap W64 := {}
  /-- p1 to p7 in bits 7:1; bit 0 is not used. -/
  p : Byte := 0
  /-- Index of the current instruction. -/
  pc : W64 := 0
  /-- Return indices, the oldest first. -/
  stack : List W64 := []
  deriving DecidableEq, Repr

/-- PHASE of SEQ_STATUS (R17, Table 05-3). -/
inductive Phase where
  | load | compute | store
  deriving DecidableEq, Repr

/-- Token states (R122). -/
inductive TokState where
  | empty | filling | present
  deriving DecidableEq, Repr

/-- A window binding: the generator, and its copy of the geometry block (R148, R214). -/
structure Binding where
  gen : Nat
  geom : List Byte
  deriving DecidableEq, Repr

/-- An operand token: descriptor words, state and kind (Table 06-3, R122). -/
structure Token where
  region : W64 := 0
  shape : W64 := 0
  st : TokState := .empty
  window : Option Binding := none
  deriving DecidableEq, Repr

/-- An engine instruction that a core has dispatched and that has not completed (R116). -/
structure EInstr where
  /-- Its place in the core's order of dispatch. -/
  ord : Nat
  /-- The index of the instruction. -/
  pc : W64
  /-- The instruction word. -/
  word : W32
  /-- The values of the scalar registers it names (R116 step 1). -/
  x1 : W64 := 0
  x2 : W64 := 0
  /-- Tokens it claims for reading and for writing (R123). -/
  reads : List Nat := []
  writes : List Nat := []
  /-- The number that the sequencer's next store had when it was dispatched: earlier stores have lower numbers. -/
  stores : Nat := 0
  /-- The window binding of the stationary token of an array instruction, as it stood at issue (R216). -/
  win : Option Binding := none
  deriving DecidableEq, Repr

/-- What a running sequencer is waiting for (R105, R116). -/
inductive Stall where
  /-- Nothing: it takes its next instruction. -/
  | none
  /-- A load from device memory: register, size, sign, virtual address, and the data once returned (R102). -/
  | load (rt size : Nat) (sgn : Bool) (va : W64) (data : Option (List Byte))
  /-- A store that meets a translation fault is replayed (R102). -/
  | store (size : Nat) (va data : W64)
  /-- A blocking engine instruction, by its place in the order of dispatch (R116). -/
  | engine (ord : Nat)
  /-- FENCE (R102). -/
  | fence
  /-- YIELD in its steps 1 and 2 (R109). -/
  | yield
  /-- END in its steps 1 and 2 (R111). -/
  | done
  deriving DecidableEq, Repr

/-- Where a core stands with the launch it was given (R93, R109, R111, R113, R183). -/
inductive CoreRun where
  /-- No launch. -/
  | idle
  /-- Given to a launch; the start waits for the launch count (R15, R348). -/
  | waiting
  /-- The image header is being fetched and checked (R93). -/
  | header
  /-- The program runs. -/
  | running
  /-- The program stopped on a fault or a stop (R113, R274). -/
  | stopped
  /-- Out of service for a reset (R352, R353). -/
  | reset
  deriving DecidableEq, Repr

/-- The state of a stream engine's channel of work for one instruction (R157 to R164, R171). -/
structure StreamRun where
  ins : EInstr
  /-- The descriptor entries it took: DIDX and, for a pair, DIDX + 1 (R156). -/
  d0 : List Byte := []
  d1 : List Byte := []
  /-- Footprints in device memory and in map store: space, low, high, written (R163). -/
  mem : List (Nat × Nat × Bool) := []
  map : List (Nat × Nat × Bool) := []
  /-- Tile and virtual granule address of each request still to be made, in the order of the pattern. A tile is a row
  of a pattern or a segment of a window expansion (R213, R293). -/
  todo : List (Nat × Nat) := []
  /-- All of them, in that order, and how often each tile has been replayed (R293). -/
  order : List (Nat × Nat) := []
  passes : SMap Nat := {}
  /-- Requests made and not answered. -/
  out : List (Nat × Nat) := []
  /-- Bytes read so far, and bytes to write, by tile × 2^64 + virtual address. -/
  buf : SMap Byte := {}
  wr : SMap Byte := {}
  /-- Element bytes that a writing instruction sends, in the order of R154, and the address of the first (R328, R373). -/
  data : List Byte := []
  first : W64 := 0
  /-- An access of it waits for translation service (R293). -/
  held : Bool := false
  /-- Die tick of its issue, or of its last request or response (R358). -/
  startAt : Nat := 0
  deriving DecidableEq, Repr

/-- Array controller states (Table 04-2). -/
inductive ArrMode where
  | quiet | ramp | busy | fill | fillDown
  deriving DecidableEq, Repr

/-- The stationary registers of the cells of an array, one value for each cell, cell (r, c) at 16 × r + c: its q elements,
the first in the low bits; and the B scale of each column for the MX class (R63, R68). -/
structure Stationary where
  cells : List Nat := List.replicate 256 0
  scales : List Nat := List.replicate 16 0
  deriving DecidableEq, Repr

/-- An entry of an accumulator bank: the X96 value, the W88 or I64 value, and the special state (R57, R65). -/
structure AccEntry where
  x96 : BitVec 96 := 0
  value : BitVec 88 := 0
  special : BitVec 2 := 0
  deriving DecidableEq, Repr

/-- A matrix array (R47, R61, R67, R68, R76 to R85). -/
structure Arr where
  enabled : Bool := true
  /-- ARR_FMT (Table 03-3). -/
  fmt : W32 := 0
  /-- ARR_CFG (Table 04-1). -/
  cfg : W32 := 0
  /-- ARR_AST (Table 03-7). -/
  ast : W32 := 0
  /-- The queue of four (R67). -/
  queue : List EInstr := []
  /-- Members of the open gather group, in the order they joined (R78). -/
  group : List EInstr := []
  /-- Die ticks at which the open group opened (R79). -/
  groupAt : Nat := 0
  /-- Instructions of the issued operation; none when the array is idle. -/
  run : List EInstr := []
  /-- ARR_FMT and ARR_CFG in force for the issued operation (R48, R76). -/
  runFmt : W32 := 0
  runCfg : W32 := 0
  /-- Die tick of its issue (R358). -/
  startAt : Nat := 0
  /-- The active and the shadow copies of the stationary registers, as the last instruction left them (R68, R69). -/
  active : Stationary := {}
  shadow : Stationary := {}
  /-- The two accumulator banks of 64 entries of each of the 16 columns (R65), between instructions: all 0, or what a free
  value gives. -/
  banks : Option Nat := none
  /-- The filler operand latches of the 256 cells (R81), in the same manner. -/
  latches : Option Nat := none
  /-- Controller state, its entry tick, the level at entry, and the density level (R82, R83). -/
  mode : ArrMode := .quiet
  modeAt : Nat := 0
  entryLevel : Nat := 0
  density : Nat := 0
  /-- Die tick of the last change of density (R83). -/
  densityAt : Nat := 0
  /-- State, entry tick and level at entry that the expiry of the idle timer has replaced (R82). -/
  before : Option (ArrMode × Nat × Nat) := none
  /-- Die tick at which the array last became idle (R82). -/
  idleAt : Nat := 0
  /-- Next filler pattern, 0 to 31 (R84). -/
  pattern : Nat := 0
  /-- ARR_STAT FPASS, FILLER_FAIL and FAIL_PAT (Table 04-4). -/
  fpass : Byte := 0
  fillerFail : Bool := false
  failPat : Nat := 0
  deriving DecidableEq, Repr

/-- An image of a store on its way, in blocks of 2,056 bytes: its generation, the blocks written or read so far, and the blocks
of a save with their trailers, or the data that a restore has read (R183 to R185, R293, R333). -/
structure ImageJob where
  gen : Nat
  done : Nat := 0
  blks : List (List Byte) := []
  deriving DecidableEq, Repr

/-- A core (R94 to R114, R116 to R152, R183, R192, R211, R328, R373). Reset values that no rule gives: DESIGN CHOICE, log entry 66. -/
structure Core where
  enabled : Bool := true
  run : CoreRun := .idle
  /-- The launch part the core works for: its key in the table of launch parts. -/
  part : Option Nat := none
  /-- The sequencer and its twin (R106). -/
  seq : SeqRegs := {}
  twin : SeqRegs := {}
  stall : Stall := .none
  /-- SEQ_STATUS fields (Table 05-3). -/
  phase : Phase := .compute
  ypend : Bool := false
  /-- Semaphore identifiers held, one entry for each unit (R108, R146). -/
  sems : List Nat := []
  /-- Logical indices of the core within the launch (Table 05-2). -/
  lcore : Nat := 0
  lcluster : Nat := 0
  ldie : Nat := 0
  ncores : Nat := 0
  /-- The image: header address, CODE_OFF, CODE_WORDS and CS_BYTES (R90). -/
  image : W64 := 0
  codeOff : Nat := 0
  codeWords : Nat := 0
  csBytes : Nat := 0
  /-- Blocks in the instruction buffer, the oldest first, and their words by index (R92). -/
  blocks : List Nat := []
  code : SMap W32 := {}
  /-- Stores of the sequencer that are not complete: number in the order of stores, index and word (R102). -/
  stores : List (Nat × W64 × W32) := []
  storeNext : Nat := 0
  /-- Next place in the order of dispatch. -/
  ordNext : Nat := 0
  /-- Queues of eight: stream engine, vector unit, synchronisation logic (R116). -/
  strQ : List EInstr := []
  vecQ : List EInstr := []
  syncQ : List EInstr := []
  /-- Stream instructions in flight, at most four, in order of issue (R163). -/
  strRun : List StreamRun := []
  /-- The stream engine has met a fault and makes no further request (R171). -/
  strAbort : Option (Nat × Nat × Nat × Nat) := none
  /-- Vector instructions issued and not completed, in order (R136). -/
  vecRun : List EInstr := []
  /-- Die tick at which the oldest of them became the oldest (R358). -/
  vecAt : Nat := 0
  /-- Matrix arrays, by physical number. -/
  arrs : SMap Arr := {}
  /-- Operand tokens t0 to t63. -/
  tokens : SMap Token := {}
  /-- Vector registers, by register × 64 + lane; a lane that is not listed holds 0 (R192). -/
  v : SMap W32 := {}
  /-- The core store. -/
  store : Store := {}
  /-- Bytes of core store that two instructions write through different tokens: place in the order of the one that has
  still to complete, first byte and length (R119). -/
  clash : List (Nat × Nat × Nat) := []
  /-- WPAD: count of elements made by padding, where the geometry names taps only in padding (R211). -/
  wpad : W32 := 0
  /-- Running check values of channels 0 and 1 (R328). -/
  cv0 : W32 := 0
  cv1 : W32 := 0
  /-- Signatures of a paired run (R373). -/
  psStr : W32 := 0
  psSeq : W32 := 0
  /-- Run B of a paired run, and the tick at which it reached the comparison point where it waits (R371, R374). -/
  runB : Bool := false
  pairPoint : Option Nat := none
  /-- The comparison at the point has found the runs equal, and the run has not gone on yet (R374). -/
  pairPassed : Bool := false
  /-- A load grant request of SYNC.PHASE is waiting, and the core gave the grant up while it waits on a halo
  counter or barrier (R18). -/
  grantReq : Bool := false
  /-- Barrier arrival: the barrier the core has arrived at and waits for (R144). -/
  atBarrier : Option Nat := none
  /-- A semaphore request or pool 1 call of the core is on its way or waits (R146, R186). -/
  remoteWait : Bool := false
  /-- SYNC.HWAIT has found its counter short and waits (R145). -/
  haloWaiting : Bool := false
  /-- Run B: results of run A's semaphore and pool 1 instructions that run B has not taken, the oldest first
  (R372). -/
  fromA : List W64 := []
  /-- The core has been told to stop, and has acknowledged the stop (R274). -/
  stopAsked : Bool := false
  stopAcked : Bool := false
  /-- Die tick at which a reset of the core, of one of its engines or of a unit around it was last asserted (R357). -/
  resetAt : Option Nat := none
  /-- Die tick at which its sequencer last made progress, or a defined wait of it ended (R358). -/
  progAt : Nat := 0
  /-- The partition whose data the core store last held, and the launch and the context that last had the core (R181). -/
  lastPartition : Option Nat := none
  lastLaunch : Option Nat := none
  lastCtx : Option Nat := none
  /-- The image of the core that is being saved or restored (R183). -/
  img : Option ImageJob := none
  deriving DecidableEq, Repr

end Sys2Proof.Machine
end

