-- ==== Sys2Proof/Machine/Operands.lean ====
section
/-!
DEFINITION. Operand forms of the 32-bit instruction word: the scalar formats (R97, Table 05-5), the engine formats
(R115, Table 06-1), their reserved bits, and reads and writes of scalar registers (R94).
-/
namespace Sys2Proof.Machine

/-- The unit field U (R97). -/
def unitOf (w : W32) : Nat := field w.toNat 27 25

/-- The scalar opcode OP (R97). -/
def opField (w : W32) : Nat := field w.toNat 24 19

/-- The engine opcode EOP (R115). -/
def eopField (w : W32) : Nat := field w.toNat 24 20

/-- GN and GP of the guard (R97). -/
def guardNeg (w : W32) : Bool := bitAt w.toNat 31
def guardPred (w : W32) : Nat := field w.toNat 30 28

/-- Fields of the scalar formats (Table 05-5). -/
def fRd (w : W32) : Nat := field w.toNat 18 14
def fRs1 (w : W32) : Nat := field w.toNat 13 9
def fRs2 (w : W32) : Nat := field w.toNat 8 4
def fImm9 (w : W32) : W64 := sext 9 (field w.toNat 8 0)
def fCreg (w : W32) : Nat := field w.toNat 8 0
def fImm14 (w : W32) : Nat := field w.toNat 13 0
def fOff19 (w : W32) : W64 := sext 19 (field w.toNat 18 0)
def fPd (w : W32) : Nat := field w.toNat 18 16
def fPRs1 (w : W32) : Nat := field w.toNat 15 11
def fPRs2 (w : W32) : Nat := field w.toNat 10 6
def fPCC (w : W32) : Nat := field w.toNat 5 2
def fPICC (w : W32) : Nat := field w.toNat 10 7
def fImm7 (w : W32) : W64 := sext 7 (field w.toNat 6 0)
def fPa (w : W32) : Nat := field w.toNat 15 13
def fPb (w : W32) : Nat := field w.toNat 12 10
def fLop (w : W32) : Nat := field w.toNat 9 6

/-- Fields of the engine formats (Table 06-1). -/
def fLA (w : W32) : Nat := field w.toNat 19 18
def fTA (w : W32) : Nat := field w.toNat 17 12
def fTB (w : W32) : Nat := field w.toNat 11 6
def fTC (w : W32) : Nat := field w.toNat 5 0
def fArRd (w : W32) : Nat := field w.toNat 17 13
def fArRs1 (w : W32) : Nat := field w.toNat 12 8
def fSdT (w : W32) : Nat := field w.toNat 19 14
def fSdRs1 (w : W32) : Nat := field w.toNat 13 9
def fDidx (w : W32) : Nat := field w.toNat 8 0
def fScRd (w : W32) : Nat := field w.toNat 19 15
def fScRs1 (w : W32) : Nat := field w.toNat 14 10
def fCh (w : W32) : Nat := field w.toNat 9 7
def fVd (w : W32) : Nat := field w.toNat 19 15
def fVtT (w : W32) : Nat := field w.toNat 14 9
def fVtRs1 (w : W32) : Nat := field w.toNat 8 4
def fVf (w : W32) : Nat := field w.toNat 3 1
def fVl (w : W32) : Bool := bitAt w.toNat 0
def fVa (w : W32) : Nat := field w.toNat 14 10
def fVb (w : W32) : Nat := field w.toNat 9 5
def fFn (w : W32) : Nat := field w.toNat 4 0
def fLane (w : W32) : Nat := field w.toNat 9 4
def fTs (w : W32) : Nat := field w.toNat 19 14
def fTd (w : W32) : Nat := field w.toNat 13 8
def fVxRs1 (w : W32) : Nat := field w.toNat 7 3
def fMode (w : W32) : Nat := field w.toNat 2 0
def fYT (w : W32) : Nat := field w.toNat 19 14
def fYtRs1 (w : W32) : Nat := field w.toNat 13 9
def fYtRs2 (w : W32) : Nat := field w.toNat 8 4
def fYrRd (w : W32) : Nat := field w.toNat 19 15
def fYrRs1 (w : W32) : Nat := field w.toNat 14 10
def fIdx (w : W32) : Nat := field w.toNat 9 4
def fYrPd (w : W32) : Nat := field w.toNat 3 1

/-- Bits `hi` to `lo` of the word are 0. -/
def zeroBits (w : W32) (hi lo : Nat) : Bool := decide (field w.toNat hi lo = 0)

/-- Reserved and unused fields of a scalar word of each format (R99 step 1). -/
def encR (w : W32) : Bool := zeroBits w 3 0
def encRd (w : W32) : Bool := zeroBits w 13 0
def encRs1 (w : W32) : Bool := zeroBits w 18 14 && zeroBits w 8 0
def encI (_ : W32) : Bool := true
def encShift (w : W32) : Bool := zeroBits w 8 6
def encAny (_ : W32) : Bool := true
def encCallr (w : W32) : Bool := zeroBits w 18 14
def encCrd (w : W32) : Bool := zeroBits w 13 9
def encCwr (w : W32) : Bool := zeroBits w 18 14
def encTrap (w : W32) : Bool := zeroBits w 18 14
def encN (w : W32) : Bool := zeroBits w 18 0
def encP (w : W32) : Bool := zeroBits w 1 0 && decide (fPCC w < 0xD)
def encPI (w : W32) : Bool := decide (fPICC w < 0xD)
def encPL (w : W32) : Bool := zeroBits w 5 0

/-- Reserved and unused fields of an engine word (R115, Tables 06-5 to 06-10, R133). -/
def encAT (_ : W32) : Bool := true
def encArW (w : W32) : Bool := zeroBits w 17 13 && zeroBits w 7 0
def encArR (w : W32) : Bool := zeroBits w 12 8 && zeroBits w 7 0
def encSD (_ : W32) : Bool := true
def encSDpair (w : W32) : Bool := zeroBits w 19 14
def encCvrd (w : W32) : Bool := zeroBits w 14 10 && zeroBits w 6 0 && decide (fCh w < 2)
def encCvwr (w : W32) : Bool := zeroBits w 19 15 && zeroBits w 6 0 && decide (fCh w < 2)
def encVld (w : W32) : Bool := zeroBits w 0 0
def encVst (_ : W32) : Bool := true
def encVopf (w : W32) : Bool :=
  decide (fFn w ≤ 0x0A) && (!(decide (fFn w = 6) || decide (fFn w = 7)) || zeroBits w 9 5)
def encVopi (w : W32) : Bool := decide (fFn w ≤ 0x0D)
def encVsfu (w : W32) : Bool := decide (fFn w ≤ 0x0D) && zeroBits w 9 5
def encVred (w : W32) : Bool := decide (fFn w ≤ 4) && zeroBits w 9 5
def encVcvt (w : W32) : Bool := decide (fFn w ≤ 3) && zeroBits w 9 5
def encVbcst (w : W32) : Bool := zeroBits w 9 0
def encVmovs (w : W32) : Bool := zeroBits w 3 0
def encVsort (w : W32) : Bool := decide (field w.toNat 2 1 ≠ 3)
def encVnms (w : W32) : Bool := decide (fMode w % 4 ≤ 1)
def encYT (w : W32) : Bool := zeroBits w 3 0
/-- YR words: which of RD, RS1 and PD are used, and the width of the index in IDX (R140). -/
def encYR (rd rs1 pd : Bool) (bits : Nat) (w : W32) : Bool :=
  (rd || zeroBits w 19 15) && (rs1 || zeroBits w 14 10) && (pd || zeroBits w 3 1) && zeroBits w 0 0 &&
    decide (fIdx w < 2 ^ bits)

/-- Whether a scalar opcode is listed in Table 05-6. -/
def scalarListed (op : Nat) : Bool := decide (op ≤ 0x38) && decide (op ≠ 0x2F)

/-- Whether an engine opcode is listed for its unit in chapter 6. -/
def engineListed (u eop : Nat) : Bool :=
  match u with
  | 2 => decide (eop ≤ 0x05)
  | 3 => decide (eop ≤ 0x09) && decide (eop ≠ 0x07)
  | 4 => decide (eop ≤ 0x0C)
  | 5 => decide (eop ≤ 0x0F)
  | _ => false

/-- The unit and opcode of a word whose U and OP or EOP are listed; none for a reserved one (R99 step 1, R115). -/
def opOf (w : W32) : Option (Nat × Nat) :=
  if unitOf w = 0 then
    if scalarListed (opField w) then some (0, opField w) else none
  else if engineListed (unitOf w) (eopField w) then some (unitOf w, eopField w) else none

/-- s[n]: s0 reads 0 (R94). -/
def SeqRegs.read (r : SeqRegs) (n : Nat) : W64 := if n = 0 then 0 else r.s.get 0 n

/-- Writing s[n]: a write to s0 is discarded (R94). -/
def SeqRegs.write (r : SeqRegs) (n : Nat) (v : W64) : SeqRegs :=
  if n = 0 then r else { r with s := r.s.setD 0 n v }

end Sys2Proof.Machine
end

