-- ==== Sys2Proof/Machine/Flags.lean ====
section
/-!
DEFINITION. Predicates and conditions: p0 to p7 (R94), the guard (R98), the compare conditions (R101), the
condition-code comparison of commands on 32 and 64 bits (R261), and the wrap-aware comparison (R244).
-/
namespace Sys2Proof.Machine

/-- p[n]: p0 reads 1 (R94). -/
def SeqRegs.pred (r : SeqRegs) (n : Nat) : Bool := decide (n = 0) || bitAt r.p.toNat n

/-- p7 to p0 in bits 7:0, with p0 as 1 (PRD, R100). -/
def SeqRegs.preds (r : SeqRegs) : Nat := setField r.p.toNat 0 0 1

/-- The predicate byte with p[n] written: a write to p0 is discarded (R94). -/
def SeqRegs.predPut (r : SeqRegs) (n : Nat) (b : Bool) : Byte :=
  if n = 0 then r.p else BitVec.ofNat 8 (setField r.p.toNat n n (bit b))

/-- Whether the guard of a word is true (R98). -/
def SeqRegs.guard (r : SeqRegs) (w : W32) : Bool := r.pred (guardPred w) != guardNeg w

/-- WGE on `n`-bit values: (a - b) mod 2^n, read as a signed number, is not negative (R101, R244, R261). -/
def wge (n a b : Nat) : Bool := decide (0 ≤ signed n (wrap n ((a : Int) - b)))

/-- The conditions of Table 05-7 on `n`-bit values. -/
def condOf (n cc a b : Nat) : Bool :=
  match cc with
  | 0x0 => decide (a = b)
  | 0x1 => decide (a ≠ b)
  | 0x2 => decide (signed n a < signed n b)
  | 0x3 => decide (signed n b ≤ signed n a)
  | 0x4 => decide (a < b)
  | 0x5 => decide (b ≤ a)
  | 0x6 => decide (signed n b < signed n a)
  | 0x7 => decide (signed n a ≤ signed n b)
  | 0x8 => decide (b < a)
  | 0x9 => decide (a ≤ b)
  | 0xA => decide (a &&& b ≠ 0)
  | 0xB => decide (a &&& b = 0)
  | _ => wge n a b

/-- The comparison of CMP and CMPI (R101). -/
def cmp (cc : Nat) (a b : W64) : Bool := condOf 64 cc a.toNat b.toNat

/-- The truth table of PLOG: bit 2·p[pa] + p[pb] of LOP (R100). -/
def plog (lop : Nat) (a b : Bool) : Bool := bitAt lop (2 * bit a + bit b)

end Sys2Proof.Machine
end

