-- ==== Sys2Proof/Machine/Units/Cluster.lean ====
section
/-!
DEFINITION. The state of a cluster: map store, window generators, halo counters, barrier counts, load grant and
pool 0 allocator (R18, R144, R145, R148, R176, R186, R214).
-/
namespace Sys2Proof.Machine

/-- A token bound to a window generator: logical core, token number, geometry block (R148, R214). -/
structure GenBinding where
  lcore : Nat
  token : Nat
  geom : List Byte
  deriving DecidableEq, Repr

/-- A window generator: the logical cluster that claims it (launch key, logical die, logical cluster) and its
bindings (R148). -/
structure WinGen where
  claim : Option (Nat × Nat × Nat) := none
  bindings : List GenBinding := []
  deriving DecidableEq, Repr

/-- A cluster. Reset values that no rule gives: DESIGN CHOICE, log entry 66. -/
structure Cluster where
  enabled : Bool := true
  /-- The logical cluster placed here: launch key, logical die, logical cluster (R143). -/
  occupant : Option (Nat × Nat × Nat) := none
  /-- The map store. -/
  map : Store := {}
  /-- The four window generators. -/
  gens : SMap WinGen := {}
  /-- The 64 halo token counters; a counter that is not listed is 0 (R145). -/
  halo : SMap W32 := {}
  /-- Barrier arrivals, by barrier × 4 + logical core within the cluster (R144). -/
  arrivals : SMap Nat := {}
  /-- The core that holds the load grant (R18). -/
  holder : Option (Fin 4) := none
  /-- MS_STATIC of the placed launch (R176). -/
  msStatic : Nat := 0
  /-- Live pool 0 allocations: first granule and number of granules, by rising granule (R186, R187). -/
  allocs : List (Nat × Nat) := []
  /-- The partition whose data the map store last held, and the launch and the context that last had the cluster (R181). -/
  lastPartition : Option Nat := none
  lastLaunch : Option Nat := none
  lastCtx : Option Nat := none
  /-- The image of the map store that is being saved or restored (R184). -/
  img : Option ImageJob := none
  deriving DecidableEq, Repr

end Sys2Proof.Machine
end

