-- ==== Sys2Proof/Machine/Units/Host.lean ====
section
/-!
DEFINITION. The objects of the driver and the commands in flight: contexts, queues, memory objects, semaphores,
launches, fence signals, object requests (R232 to R275).
-/
namespace Sys2Proof.Machine

/-- A program fault record (Table 05-10). -/
structure FaultRec where
  code : Nat := 0
  fcount : Nat := 0
  src : Nat := 0
  lcore : Nat := 0
  ldie : Nat := 0
  pc : Nat := 0
  insn : Nat := 0
  addr : Nat := 0
  info : Nat := 0
  /-- It is the fault of a program, not one outside a program (R114, R235). -/
  prog : Bool := false
  /-- It is the fault of run B of a pair (R375). -/
  runB : Bool := false
  deriving DecidableEq, Repr

/-- Context states (Table 12-3). -/
inductive CtxState where
  | free | ready | resident | lost
  deriving DecidableEq, Repr

/-- A context as the block holds it (Table 12-3). -/
structure Ctx where
  st : CtxState := .free
  partition : Nat := 0
  evring : Nat := 0
  heap : Nat := 0xFFFFFFFF
  saveBase : W64 := 0
  saveSize : W64 := 0
  lossStatus : W32 := 0
  drops : W32 := 0
  lossRecord : FaultRec := {}
  /-- The loss procedure has been asked for and has not finished: status class 1 LOST or 2 ABORTED (R247). -/
  losing : Option Nat := none
  /-- The LOST event record has been posted. -/
  posted : Bool := false
  /-- Save generation (R333). -/
  saveGen : W16 := 0
  deriving DecidableEq, Repr

/-- Queue states (Table 12-5). -/
inductive QState where
  | free | opened | destroying
  deriving DecidableEq, Repr

/-- ACT of the queue state register (Table 13-5). -/
inductive QAct where
  | idle | ready | waiting | running | stopping
  deriving DecidableEq, Repr

/-- A ring command accepted and not completed: where it lies in the ring, its bytes, the buffers its calls read
(by address), and the objects it holds references on (R240, R260). -/
structure Accepted where
  pos : Nat
  bytes : List Byte
  bufs : List (Nat × List Byte) := []
  refs : List Nat := []
  /-- Stream descriptor tables read at acceptance, by address (R158). -/
  sdts : List (Nat × List Byte) := []
  deriving DecidableEq, Repr

/-- A called buffer being executed: its bytes, the offset of the next command, iterations left after this one
(R261, R262). -/
structure Frame where
  bytes : List Byte
  off : Nat
  left : Nat
  deriving DecidableEq, Repr

/-- What the executing command of a queue waits for. -/
inductive QWait where
  /-- Nothing: the next command can start. -/
  | none
  /-- WAIT on a memory condition (R263). -/
  | cond
  /-- A launch (R264). -/
  | launch
  /-- The result of a fence signal (R245). -/
  | fence
  /-- INVAL, with the dies that have not acknowledged (R296). -/
  | inval (dies : List Nat)
  /-- A translation fault of a command-processor access (R289). -/
  | fault (va : W64)
  deriving DecidableEq, Repr

/-- A hardware queue (Tables 12-5 and 13-5). -/
structure Queue where
  st : QState := .free
  ctx : Nat := 0
  ringLog2 : Nat := 12
  /-- Requests that its launches may have outstanding (R162). -/
  outLimit : Nat := 32768
  ringBase : W64 := 0
  timeout : W32 := 0
  accptr : W64 := 0
  doneptr : W64 := 0
  /-- The fill mark, which is the last WRPTR accepted (R255). -/
  fill : W64 := 0
  /-- The doorbell writes that have moved the fill mark past commands not completed, each with its mark and tick, the oldest
  first (R447). -/
  bells : List (W64 × Nat) := []
  /-- Condition flags cf1 to cf7 in bits 7:1 (R258). -/
  cf : Byte := 0
  /-- The stack of called buffers, the innermost first (R262). -/
  frames : List Frame := []
  /-- Accepted ring commands not completed, the oldest first (R260). -/
  accepted : List Accepted := []
  wait : QWait := .none
  /-- The executing command's bytes, when it is in its `wait`. -/
  cmd : List Byte := []
  /-- Start of the per-command timer, in ticks spent while it was not paused (R266). -/
  timer : Nat := 0
  timerAt : Nat := 0
  timed : Bool := false
  /-- The tick of the last read of a WAIT, and a fence write that asks for a re-read (R263). -/
  readAt : Nat := 0
  reread : Bool := false
  /-- STOPPING, with the tick of its start; the drain has ended (R266, R274). -/
  stopping : Option Nat := none
  drained : Bool := false
  /-- Units that have not acknowledged the stop: core keys, and whether the command processor has (R274). -/
  stopWait : List Nat := []
  /-- The queue stops because of Q_DESTROY, with the TAG of the request (R274). -/
  destroyTag : Option Nat := none
  /-- The walk of R247 and R248 at the command at DONEPTR: fence signals of it already made, and the virtual
  addresses of its accesses that were answered with FAIL. -/
  walkSkip : Nat := 0
  walkFail : List Nat := []
  /-- The ring byte count that the walk has come to. -/
  walkPos : Nat := 0
  deriving DecidableEq, Repr

/-- Memory object states (Table 12-6). -/
inductive MoState where
  | free | live | retiring
  deriving DecidableEq, Repr

/-- A memory object as the block holds it (Table 12-6); its DEV_REFS counts by die. -/
structure MemObj where
  st : MoState := .free
  partition : Nat := 0
  isFence : Bool := false
  isHeap : Bool := false
  base : W64 := 0
  length : W64 := 0
  refs : SMap W32 := {}
  deriving DecidableEq, Repr

/-- A semaphore of die 0's synchronisation unit (R250): units in all, holders and waiters by core key. -/
structure Sema where
  used : Bool := false
  gen : W16 := 0
  partition : Nat := 0
  units : Nat := 0
  holders : List Nat := []
  waiters : List Nat := []
  deriving DecidableEq, Repr

/-- Where a launch part on one die stands (R321, R322, R348). -/
inductive PartState where
  /-- Waits for its record or for placement. -/
  | pending
  /-- Placed; waits for the launch count. -/
  | placed
  | started
  | ended
  | failed
  deriving DecidableEq, Repr

/-- A logical cluster of a launch (R143, R269): where it is placed, where it was last, and whether its map store
image lies in the save area (R184). -/
structure LogCluster where
  ldie : Nat
  lcl : Nat
  at? : Option ClusterId := none
  last : Option ClusterId := none
  saved : Bool := false
  /-- Generation of its saved image, and its blocks (R333). -/
  gen : Nat := 0
  blocks : Nat := 0
  runB : Bool := false
  deriving DecidableEq, Repr

/-- A logical core of a launch while it is preempted or runs (R109, R110, R183). -/
structure LogCore where
  lcore : Nat
  ldie : Nat
  lcl : Nat
  runB : Bool := false
  /-- The physical core it runs on. -/
  at? : Option CoreId := none
  /-- The physical core that still holds its store, tokens and state (R183). -/
  keptAt : Option CoreId := none
  /-- Preempted and not resumed. -/
  preempted : Bool := false
  /-- A core image lies in the save area (R183). -/
  saved : Bool := false
  ended : Bool := false
  /-- Comparison points that this run of the logical core has reached (R374). -/
  points : Nat := 0
  /-- Generation of its saved image (R333), and the fields of the image header that the program runs under (R90). -/
  gen : Nat := 0
  codeOff : Nat := 0
  codeWords : Nat := 0
  csBytes : Nat := 0
  deriving DecidableEq, Repr

/-- A launch in progress, one for each queue that executes one (R264, R321, R322). Its key is the key of its queue. -/
structure Launch where
  ctx : Nat
  partition : Nat
  /-- The LAUNCH command's first 64 bytes, and its ring byte count. -/
  cmd : List Byte
  pos : Nat
  /-- The stream descriptor table as read (R158). -/
  sdt : List Byte := []
  /-- Physical die of each logical die (Table 15-7 DIEMAP). -/
  dies : List Nat := []
  /-- The launch count, once chosen (R347). -/
  count : Option W64 := none
  /-- State of each part, by logical die. -/
  parts : SMap PartState := {}
  clusters : List LogCluster := []
  cores : List LogCore := []
  /-- Reserved part of the save area: offset and size (R237). -/
  saveOff : Nat := 0
  saveLen : Nat := 0
  saveHeld : Bool := false
  /-- The tick at which each part was placed or resumed, by logical die (R271). -/
  placedAt : SMap Nat := {}
  /-- Fault of the launch: its record, and the time counter at the detection (R114). -/
  fault : Option FaultRec := none
  faultAt : W64 := 0
  fcount : Nat := 0
  /-- The release of its cores has given its monitor sample (R447). -/
  sampled : Bool := false
  deriving DecidableEq, Repr

/-- A fence signal on its way to the serving die's fence unit, or its result on the way back (R245). -/
structure FenceSig where
  va : W64
  value : W64
  status : W32
  ctx : Nat
  queue : Nat
  /-- The die whose command processor signals. -/
  src : Nat
  /-- The physical address, once translated by the signalling die (R302). -/
  pa : Option Nat := none
  /-- The range entry that has translated it (R296). -/
  range : Nat := 0
  /-- The fence unit has acted: some true APPLIED with its COOKIE, some false DROPPED or undeliverable. -/
  result : Option Bool := none
  /-- The signal could not be made: it is an undeliverable completion (R245, R275). -/
  bad : Bool := false
  cookie : W32 := 0
  /-- The time counter at the write. -/
  time : W64 := 0
  /-- The signal belongs to the executing command of its queue, not to a walk of R247 or R248. -/
  exec : Bool := true
  /-- Of a walk: the ring byte count of its command, and the number of signals of it that went before. -/
  place : Nat × Nat := (0, 0)
  /-- The tick of the signalling die at which it was sent (R245). -/
  sentAt : Nat := 0
  /-- The number of its event record, where that waits to be written (R261). -/
  ev : Option Nat := none
  deriving DecidableEq, Repr

/-- An object request held by the block (R234). -/
structure ObjReq where
  op : Nat
  tag : Nat
  index : Nat
  arg0 : W64
  /-- The reserved bytes of its block were 0. -/
  rsvOk : Bool := true
  /-- It has not started: it waits for an earlier request on its object, or for the loss of its context (R234, R236). -/
  waits : Bool := false
  deriving DecidableEq, Repr

/-- An event record (Table 12-9), as it is written to a ring or to the overflow log. -/
structure EventRec where
  type : Nat
  ctx : Nat
  queue : Nat
  fence : W64 := 0
  value : W64 := 0
  status : W32 := 0
  cookie : W32 := 0
  detail : List Byte := []
  deriving DecidableEq, Repr

/-- A resident slot: its context, and the tick at which it last ran here (R268). -/
structure Slot where
  ctx : Nat
  lastRun : Nat
  /-- The Kindling segment block held in the slot (R299). -/
  segs : List Byte := []
  deriving DecidableEq, Repr

end Sys2Proof.Machine
end

