-- ==== Sys2Proof/Machine/Units/Mem.lean ====
section
/-!
DEFINITION. Requests to memory and translation as data: outstanding requests, range entries, walks, fault records
(R160, R281 to R304, R455 to R458).
-/
namespace Sys2Proof.Machine

/-- The unit an access belongs to (Table 14-4 SE_MASK, SQ_MASK, OTHER). -/
inductive Owner where
  /-- The stream engine of a core, for the instruction with a place in the order of dispatch. -/
  | stream (core ord : Nat)
  /-- A load of a core's sequencer. -/
  | seqLoad (core : Nat)
  /-- A store of a core's sequencer, by its number. -/
  | seqStore (core num : Nat)
  /-- A code fetch of a core's sequencer: a header or a code block. -/
  | fetch (core : Nat)
  /-- An access of the command processor for the executing command of a queue. -/
  | command (queue : Nat)
  /-- An access of the command processor for the acceptance, or the walk of R247, of a queue. -/
  | accept (queue : Nat)
  /-- The fence unit, for a signal. -/
  | fence (sig : Nat)
  /-- The pool 1 allocator, for a call of a core. -/
  | pool1 (core : Nat)
  /-- An event record of a command processor that waits to be written, by its number (R251). -/
  | event (n : Nat)
  /-- A request of another die that this die serves: the asking die and its TAG (R302, R315). -/
  | remote (src tag : Nat)
  /-- The walker of a die, for the walk of a 4 KiB page of a partition (R282). -/
  | walk (partition page : Nat)
  /-- The pre-translation of what the next command of a queue names (R158, R260). -/
  | pin (queue : Nat)
  /-- The read of a context's segment block: for its resident slot, or for an invalidation, by one more than the number of the
  message (R268, R299). -/
  | segs (ctx why : Nat)
  deriving DecidableEq, Repr

/-- Where a request stands on its way (R160, R455, R457, R458). -/
inductive ReqState where
  /-- Translated and not yet sent. -/
  | waiting
  /-- Held by a Peat port of a die with a tag. -/
  | port (die port tag : Nat)
  /-- On the Mitten links with a credit of a first link (R315). -/
  | remote (link credit : Nat)
  deriving DecidableEq, Repr

/-- A request of at most 64 bytes within one granule (R160). -/
structure Req where
  owner : Owner
  die : DieId
  partition : Nat
  ctx : Nat
  queue : Nat
  va : Nat
  pa : Nat
  write : Bool
  /-- Offset in the granule and byte, of each byte written. -/
  data : List (Nat × Byte) := []
  /-- Bytes read, for a read: offset in the granule and count. -/
  st : ReqState := .waiting
  /-- It has been sent, and the tick of that (R172). -/
  sent : Bool := false
  sentAt : Nat := 0
  /-- The request is one that no Cuff holds back (R167). -/
  ahead : Bool := false
  /-- For a write that arrived at a serving die over the links, and for a read: the die that asked (R302). -/
  fromDie : Option Nat := none
  /-- The range entry that translated it: its VA_START (R296 step 3). -/
  range : Nat := 0
  /-- For a read that a Peat port holds: the 64 bytes of its granule when it transferred (R458). -/
  snap : List Byte := []
  /-- The tile of the instruction that it belongs to, and how often the tile had been replayed (R293). -/
  tile : Nat := 0
  pass : Nat := 0
  /-- Its unit was reset and has its slot back; the request itself goes on (R355). -/
  gone : Bool := false
  /-- The place of its transfer among the transfers at the ports of its serving die (R458). -/
  sentNo : Nat := 0
  deriving DecidableEq, Repr

/-- What comes back for a request (R457). -/
inductive Answer where
  | data (bs : List Byte)
  | accepted
  | error
  deriving DecidableEq, Repr

/-- An access of a unit that makes no use of its data before all of it has come: its requests are made granule by granule, and
it stays until the unit has taken the result (R455 to R458). -/
structure BusAcc where
  owner : Owner
  /-- The virtual address, where it has one. -/
  va : Nat := 0
  pa : Nat
  n : Nat
  write : Bool
  /-- The bytes of a write. -/
  data : List Byte := []
  /-- Its requests that have been made, in the order of the granules: number, and the answer. -/
  reqs : List (Nat × Option Answer) := []
  deriving DecidableEq, Repr

/-- A range entry as held after a walk, or a Kindling segment (Table 14-2, Table 14-7). -/
structure RangeEnt where
  partition : Nat
  va : Nat
  len : Nat
  pa : Nat
  r : Bool
  w : Bool
  x : Bool
  cnt : Bool
  /-- Commands that pin the entry: queue and ring position (R285). -/
  pins : List (Nat × Nat) := []
  /-- Least recently used order (R284, R285). -/
  used : Nat := 0
  /-- Remote counter, and whether it posted in this period (R303, R304). -/
  hot : Nat := 0
  hotPosted : Bool := false
  /-- Held from a Kindling segment of a context (R299). -/
  seg : Option Nat := none
  deriving DecidableEq, Repr

/-- A walk in progress (R282, R286). -/
structure Walk where
  partition : Nat
  va : Nat
  /-- Accesses waiting on it: the unit, the virtual address, and bits 0 read, 1 write, 2 fetch. -/
  waiters : List (Owner × Nat × Nat × Nat) := []
  /-- PART_ROOT in force when the walk started (R279). -/
  tablePa : Nat
  count : Nat
  /-- Spans that invalidations have removed since it started: first address and length (R286). -/
  spans : List (Nat × Nat) := []
  deriving DecidableEq, Repr

/-- Fault causes (Table 14-4). -/
inductive FaultCause where
  | unmapped | readDenied | writeDenied | fetchDenied | badDie | badEntry | walkError
  deriving DecidableEq, Repr

/-- A record of the fault queue (Table 14-4), HOT records included. -/
structure FqRec where
  hot : Bool := false
  cause : FaultCause := .unmapped
  access : Nat := 0
  partition : Nat := 0
  ctx : Nat := 0
  seq : W16 := 0
  va : Nat := 0
  /-- The stalled accesses: unit, virtual address, access bits, context. -/
  accs : List (Owner × Nat × Nat × Nat) := []
  count : Nat := 0
  time : W64 := 0
  range : Nat := 0
  deriving DecidableEq, Repr

/-- A fault that waits for a free slot (R291). -/
structure FqWait where
  cause : FaultCause
  partition : Nat
  range : Nat
  owner : Owner
  va : Nat
  access : Nat
  ctx : Nat
  deriving DecidableEq, Repr

end Sys2Proof.Machine
end

