-- ==== Sys2Proof/Machine/Units/Die.lean ====
section
/-!
DEFINITION. The state of a die outside its clusters and links: timebase and counter, supply, translation, fault
queue, command processor, Peat ports, dumps, start-up (R33, R37, R267 to R304, R324, R343 to R346, R366, R477).
-/
namespace Sys2Proof.Machine

/-- Start-up stages (Table 26-1); `held` while BLK_RST_N is low. -/
inductive Stage where
  | held | boot | replay | plan | selftest | links | hostInit | ready
  deriving DecidableEq, Repr

/-- One exchange of the counter alignment: a, b and c of R343. -/
structure Exchange where
  a : W64
  b : W64
  c : W64
  deriving DecidableEq, Repr

/-- A die. Reset values that no rule gives: DESIGN CHOICE, log entry 66. -/
structure Die where
  /-- The die number latched from the strap (R12). -/
  number : Nat := 0
  /-- LINK_USE, LINK_RATE of the links (one that is not listed has 0b101) and MAC_MODE, latched when BLK_RST_N is released
  (R464). -/
  linkUse : BitVec 4 := 0xF
  linkRate : SMap Nat := {}
  macMode : Nat := 0
  /-- Timebase edges seen since BLK_RST_N was released: the base of every timeout (R38). -/
  ticks : Nat := 0
  /-- The time counter (R37). -/
  count : W64 := 0
  /-- The timebase is lost and the ring oscillator advances the counter (R39); tick of the last resumption. -/
  onRing : Bool := false
  resumeAt : Nat := 0
  /-- Die rate register (Table 02-3): RATE_MIN, RATE, BELOW_FLOOR, TB_LOST, and the start of the window. -/
  rateMin : W16 := 0xFFFF
  rate : W16 := 0
  belowFloor : Bool := false
  tbLostFlag : Bool := false
  windowAt : Nat := 0
  /-- The compute part is in reset; reasons: supply (R31), ladder (R359), steward restart in start-up (R485). -/
  computeReset : Bool := true
  heldSupply : Bool := false
  heldLadder : Bool := false
  /-- The compute part left reset and the steward has not yet written plan and values (R11, R353, R402). -/
  awaitPlan : Bool := false
  /-- Codes held when a DIE reset was asserted, by region (R392). -/
  savedCodes : SMap Nat := {}
  /-- RSVD_WRITE (Table 27-6). -/
  rsvdWrite : Bool := false
  /-- Alignment (R343 to R346): exchanges made, next index, tick of the last request, whether it is periodic. -/
  aligned : Bool := false
  aligning : Bool := false
  /-- An alignment is due and waits for a route to die 0. -/
  alignDue : Bool := false
  /-- The die is ALIGNED when the hold of its counter ends. -/
  alignAfter : Bool := false
  alignPeriodic : Bool := false
  alignNext : Nat := 0
  alignAt : Nat := 0
  exchanges : List Exchange := []
  periodAt : Nat := 0
  /-- One more than the counts for which the counter still holds (R343 step 5); 0: it advances. -/
  holding : Nat := 0
  alignedOnce : Bool := false
  lastOffset : W32 := 0
  realigns : W16 := 0
  skewErr : Bool := false
  gcCap : W64 := 0
  /-- Masks of HM_GCTL written, which act at the next count, and those of the present count (R451). -/
  hmSnap : W32 := 0
  hmClear : W32 := 0
  hmSnapNow : W32 := 0
  hmClearNow : W32 := 0
  /-- Committed copies of the partition roots (R279), by partition. -/
  roots : SMap (BitVec 128) := {}
  /-- Shared second level (R285) and range buffers by unit (R284). -/
  l2 : List RangeEnt := []
  bufs : SMap (List RangeEnt) := {}
  useNext : Nat := 0
  walks : List Walk := []
  /-- Misses that wait for one of the sixteen walks to end, the oldest first: unit, partition, virtual address, access
  bits and context (R286). -/
  walkWait : List (Owner × Nat × Nat × Nat × Nat) := []
  /-- Accesses of the die's units that are under way, whose result has not been taken (R302, R455, R456). -/
  bus : List BusAcc := []
  /-- What the pre-translation of a queue's next command has found unmapped: queue, virtual address, and the start of the next
  entry of the table above it (R158, R260). -/
  pinMiss : List (Nat × Nat × Nat) := []
  /-- Fault queue (R290, Table 14-5), by slot, and faults that wait for a slot (R291). -/
  fq : SMap FqRec := {}
  fqSeq : W16 := 0
  merged : W16 := 0
  hotSkip : Bool := false
  fqFull : Bool := false
  ownViol : Bool := false
  fqWait : List FqWait := []
  /-- Accesses that an answer has released and that have not replayed (R292, R293). -/
  replays : List (Owner × Nat × Nat × Nat) := []
  /-- TR_CTL (Table 14-8), and the start of the HOT period (R303). -/
  hotThresh : W16 := 0
  hotPeriod : W16 := 0x03E8
  hotAt : Nat := 0
  /-- Invalidations that wait for their requests: queue, partition, numbers of the requests and of the fence signals (R296). -/
  invals : List (Nat × Nat × List Nat × List Nat) := []
  /-- Cuff counters in sixteenths, by path × 16 + partition, and the partition served last by path (R273). -/
  cuff : SMap Int := {}
  cuffLast : SMap Nat := {}
  /-- The tick of the last slot taken at a Cuff, by path (R273). -/
  cuffAt : SMap Nat := {}
  /-- The number that the next request of the machine had when the last request of a Peat path transferred: the path's next
  OFFER was raised then, or by the first request after it (R455). -/
  offerFrom : SMap Nat := {}
  /-- The requester of a partition served last at a Cuff, by path × 16 + partition (R167). -/
  cuffReq : SMap Nat := {}
  /-- Requests whose unit was reset, by request number, with the tick of the reset (R355). -/
  orphans : List Orphan := []
  /-- Resident slots (R268) and contexts that wait for one, the oldest first. -/
  slots : List Slot := []
  slotWait : List Nat := []
  /-- The tick at which each context last ran here, also one that holds no slot (R268). -/
  lastRan : SMap Nat := {}
  /-- CP_STAT counts (Table 13-8) and the overflow log (R275, R495). -/
  dbIgnored : W16 := 0
  ovfLost : Byte := 0
  ovf : List EventRec := []
  ovfHead : Nat := 0
  /-- Event records whose write waits: number, partition, ring, record (R251, R289). -/
  evWait : List (Nat × Nat × Nat × EventRec) := []
  evNext : Nat := 0
  /-- The partition served last in the rotation of R270, and the queue served last by partition. -/
  placeLast : Nat := 0
  placeLastQ : SMap Nat := {}
  /-- The launch for which the cores that became free while it waited are held (R269). -/
  placeFor : Option Nat := none
  /-- Routes by destination die (R319), far dies announced by each die with the number of the announcement (R318), MD_STAT
  LATE. -/
  routes : SMap Nat := {}
  topology : SMap (List Nat) := {}
  topologyNo : SMap Nat := {}
  late : W16 := 0
  /-- Requests that were under way to a destination when the route to it changed (R320). -/
  draining : SMap (List Nat) := {}
  /-- The mask of dies not reached that was last reported with F-1503 (R319). -/
  unreached : Nat := 0
  /-- First halves of distribution records whose second half is on its way, by sender (Table 15-3). -/
  distHalf : SMap (List Byte) := {}
  linkConflict : Bool := false
  /-- Part list (R352). -/
  parts : List PartEntry := []
  /-- Reset ladder (R359) and dumps (R365, Table 18-7). -/
  escalations : List Escalation := []
  dumps : List Dump := []
  dumpSeq : Nat := 0
  /-- Offset in the dump store of the oldest dump, or of the next one where none is held (R365, DUMP_OLD). -/
  dumpBase : Nat := 0
  dumpLost : Byte := 0
  stray : W16 := 0
  /-- A DIE reset is in progress (R379). -/
  dieReset : Bool := false
  /-- Start-up (Table 26-2). -/
  stage : Stage := .held
  failCode : W16 := 0
  startRestarts : Byte := 0
  entered : BitVec 24 := 0
  hostErr : Bool := false
  degraded : Bool := false
  stopped : Bool := false
  stageAt : Nat := 0
  selftested : Bool := false
  /-- Stage report sent (R482), and readiness of the die (READY pin, R484). -/
  reported : Bool := false
  readyPin : Bool := false
  deriving DecidableEq, Repr

/-- What die 0 knows of a die from its stage report (Table 12-10). -/
structure CapDie where
  clusters : Nat := 0
  cores : Nat := 0
  arrays : Nat := 0
  links : W32 := 0
  deriving DecidableEq, Repr

/-- An event ring (Table 27-3). -/
structure Ring where
  base : W64 := 0
  irqEn : Bool := false
  enable : Bool := false
  log2 : Nat := 6
  wr : W64 := 0
  rd : W64 := 0
  deriving DecidableEq, Repr

/-- The roles of the Crown port (R459, R488). -/
inductive Role where
  | driver
  | safety
  | partition (p : Fin 16)
  deriving DecidableEq, Repr

/-- A response of the Crown port: error and read data (R459). -/
structure CrownResp where
  err : Bool
  data : W64
  deriving DecidableEq, Repr

end Sys2Proof.Machine
end

