-- ==== Sys2Proof/Machine/Units/Link.lean ====
section
/-!
DEFINITION. Mitten links as data: flits, control messages, training and retry state (R311 to R324).
-/
namespace Sys2Proof.Machine

/-- A control message (Table 15-3), as what it says. -/
inductive Msg where
  /-- 0x01 doorbell forward: queue and WRPTR (R14). -/
  | doorbell (queue : Nat) (wr : W64)
  /-- 0x02, 0x03 distribution record: its 128 bytes (Table 15-7). -/
  | dist (rec : List Byte)
  /-- Its first and its second half, as two flits carry them. -/
  | distA (half : List Byte)
  | distB (half : List Byte)
  /-- 0x04 part ended, or part failed with its record and the time counter at the detection: launch and logical die
  (R114, R322). -/
  | partEnded (launch ldie : Nat) (fault : Option (FaultRec × W64))
  /-- 0x05 stop of the part of a launch on a die, and a unit's acknowledgement (R113, R274). -/
  | stop (launch : Nat)
  | stopAck (launch core : Nat)
  /-- 0x06 invalidation of a span for a partition, and the acknowledgement of a die (R296). -/
  | inval (queue partition base len : Nat)
  | invalAck (queue die : Nat)
  /-- 0x07 semaphore request of a core (0 acquire, 1 try, 2 release) and its answer (R250). -/
  | semReq (core : Nat) (kind : Nat) (sem : W64)
  | semAns (core : Nat) (granted : Bool)
  /-- 0x08 pool 1 call of a core (free or allocate) and its result (R186). -/
  | pool1 (core : Nat) (free : Bool) (arg : W64)
  | pool1Res (core : Nat) (free : Bool) (value : W64) (ok : Bool)
  /-- 0x09 fence signal and its result, by the signal's number (R245). -/
  | fence (sig : Nat)
  | fenceRes (sig : Nat)
  /-- 0x0A topology announcement: the announcing die, the number of its announcement, and the far die of each of its links,
  0xFF where the link is not ACTIVE (R318). -/
  | topology (die no : Nat) (far : List Nat)
  /-- 0x0B launch to die 0 (R15). -/
  | launch (queue : Nat)
  /-- 0x0C alignment request and answer (Table 15-13). -/
  | alignReq (index : Nat) (a : W64)
  | alignAns (index : Nat) (a b : W64)
  /-- 0x0D stage report (Table 15-13). -/
  | stage (clusters cores arrays : Nat) (links : W32) (fail : W16) (degraded : Bool)
  /-- 0x0E readiness report (Table 15-13). -/
  | readiness (t : W64)
  deriving DecidableEq, Repr

/-- What a flit carries (Table 15-2 TYPE). -/
inductive FlitBody where
  | idle
  | rd
  | wr (data : List Byte)
  | wrm (mask : W64)
  | wrd (data : List Byte)
  | rdr (data : List Byte)
  | wra
  | err
  | ctl (m : Msg)
  deriving DecidableEq, Repr

/-- A flit (Table 15-2). -/
structure Flit where
  body : FlitBody
  dst : Nat
  src : Nat
  level : Nat := 1
  seq : Nat := 0
  tag : Nat := 0
  ctx : Nat := 0
  partition : Nat := 0
  addr : Nat := 0
  /-- A request of the command processor, fence unit or walker, which no Cuff holds back (R167). -/
  ahead : Bool := false
  /-- ACK with ACKV, and NAK (R313). -/
  ack : Option Nat := none
  nak : Option Nat := none
  /-- Buffers freed, by REQ 1 to 3, RSP 1 to 3 and CTL (R314). -/
  cret : List Nat := []
  /-- For a flit that a die forwards: the link it came over, and the receive buffer that it occupies until it goes on. -/
  via : Option (Nat × Nat) := none
  deriving DecidableEq, Repr

/-- Link states (Table 15-4). -/
inductive LinkState where
  | down | unused | ident | report | align | active | retrain | failed
  deriving DecidableEq, Repr

/-- The step of a training or retraining: IDENT, REPORT or ALIGN. -/
inductive TrainStep where
  | ident | report | align
  deriving DecidableEq, Repr

/-- One Mitten link as one die holds it (R313 to R317, R324). -/
structure Link where
  st : LinkState := .down
  step : TrainStep := .ident
  /-- Tick at which the training phase, and the training, started. -/
  phaseAt : Nat := 0
  trainAt : Nat := 0
  restarts : Nat := 0
  /-- The far end, as heard in REPORT. -/
  farDie : Nat := 0
  farLink : Nat := 0
  heard : Bool := false
  /-- The link is enabled by start-up (R482), and its LINK_TRAIN timer's start. -/
  enabled : Bool := false
  phyReady : Bool := false
  /-- Verdicts of IDENT: retired far transmit lanes, own transmit lanes the far side retired. -/
  retired : BitVec 48 := 0
  /-- The lanes that were retired when the present RETRAIN began (F-1501). -/
  before : BitVec 48 := 0
  farRetired : BitVec 48 := 0
  inverted : BitVec 48 := 0
  remapped : Bool := false
  /-- Logical lanes 0 to 45 in order, as the transmit lanes of the far side and of this side that carry them: 0 to 31 are
  the data lanes, 32 to 45 the control lanes (R310, R317). -/
  rxLanes : List Nat := []
  txLanes : List Nat := []
  /-- Transmit: next SEQ, held flits with the tick of their sending and their replays, credits by buffer. -/
  txSeq : Nat := 0
  held : List (Flit × Nat × Nat) := []
  waiting : List Flit := []
  credits : List Nat := [256, 128, 128, 256, 128, 128, 32]
  /-- Flits on the wire towards this die's receiver, the next first. -/
  wire : List Flit := []
  /-- Receive: next SEQ expected, whether a NAK is due, buffers to return. -/
  rxSeq : Nat := 0
  nakDue : Bool := false
  free : List Nat := [0, 0, 0, 0, 0, 0, 0]
  /-- A WRM whose WRD has not come (R311). -/
  mask : Option Flit := none
  /-- Ticks of recent replays (R316). -/
  replayAt : List Nat := []
  /-- Replays in the present window of 1,000 counts, and the tick it began at (R447). -/
  hmReplays : Nat := 0
  hmAt : Nat := 0
  /-- End-to-end credits in use: credit index and request (R315). -/
  e2e : SMap Nat := {}
  /-- LINK_STAT counts (Table 15-9). -/
  retrains : Byte := 0
  replays : W16 := 0
  crcErrors : W16 := 0
  deriving DecidableEq, Repr

end Sys2Proof.Machine
end

