-- ==== Sys2Proof/Machine/Units/Net.lean ====
section
/-!
DEFINITION. Network time, histogram monitors and the debug port as data (R431 to R454, R470).
-/
namespace Sys2Proof.Machine

/-- A frame sent by the MAC: its kind and its bytes. -/
structure TxFrame where
  kind : Nat
  bytes : List Byte
  deriving DecidableEq, Repr

/-- A gPTP Sync waiting for its Follow_Up (R435). -/
structure SyncWait where
  seqId : Nat
  tr : Int
  corr : Int
  /-- The edge of the time unit at its ingress (R438). -/
  at' : Nat := 0
  deriving DecidableEq, Repr

/-- Network time of a die (R433 to R446). -/
structure NetTime where
  /-- Device time in units of 2^-32 ns: seconds, nanoseconds and the 32 fraction bits held (R433). -/
  secs : Nat := 0
  nsFrac : Nat := 0
  /-- ADJ (R433), signed, in units of 2^-32 of 10 ns per count. -/
  adj : W32 := 0
  adjNext : Option W32 := none
  /-- A step that takes effect at the next count (R434, R438): to a time, or by an amount in 2^-32 ns. -/
  stepTo : Option (BitVec 96) := none
  stepBy : Option Int := none
  /-- NT_STAT (Table 23-6). -/
  rxDrop : W16 := 0
  syncRx : W16 := 0
  tsLost : W16 := 0
  locked : Bool := false
  stepped : Bool := false
  syncLost : Bool := false
  unlock : Bool := false
  linkUp : Bool := false
  /-- Servo: the integral term f in units of 2^-24 ppb, exact, and the run lengths of R439. -/
  f : Int := 0
  inLimit : Nat := 0
  outLimit : Nat := 0
  /-- Tick of the last accepted Sync, and whether its loss has been reported (R439). -/
  syncAt : Nat := 0
  syncDown : Bool := false
  /-- Mean link delay measured, in units of 2^-17 ns, and the exchange in progress (R435). -/
  delay : Int := 0
  delayKnown : Bool := false
  pdelaySeq : Nat := 0
  pdelayT1 : Option Int := none
  pdelayT2 : Option Int := none
  pdelayT3 : Option Int := none
  pdelayT4 : Option Int := none
  syncSeq : Nat := 0
  waiting : Option SyncWait := none
  /-- Ingress timestamps queued for the steward with their frames, at most eight: the edge of the time unit, the timestamp, the
  frame (R436). -/
  tsQueue : List (Nat × Int × List Byte) := []
  /-- Edges that the time unit has taken, and the one at which the last step takes effect (R434, R438). -/
  edges : Nat := 0
  stepEdge : Nat := 0
  /-- The upper halves of TIME and CORR as the last reads of their lower halves latched them (R37, R434). -/
  timeHigh : Option Nat := none
  corrHigh : Option Nat := none
  /-- Ticks of the last Sync and Pdelay_Req sent (R435, R437). -/
  sentSyncAt : Nat := 0
  sentPdelayAt : Nat := 0
  /-- PPS_OUT, the tick of its rise, and the last second pulsed (R440). -/
  pps : Bool := false
  ppsAt : Nat := 0
  ppsLast : Nat := 0
  /-- The seconds field has advanced: the time counter and the seconds at that count (R440, R442). -/
  secDue : Option (W64 × Nat) := none
  /-- PPS_IN (R441), CORR (R442). -/
  ppsIn : BitVec 96 := 0
  corrCount : W64 := 0
  corrSecs : Nat := 0
  /-- The counter and device time at the last two counts (R441), the newest first. -/
  history : List (W64 × BitVec 96) := []
  /-- The frames of the last command that sent any. -/
  tx : List TxFrame := []
  deriving DecidableEq, Repr

/-- A bank of a histogram monitor (Table 24-3). -/
structure HmBank where
  lost : Nat := 0
  sat : Bool := false
  total : Nat := 0
  under : W32 := 0
  above : W32 := 0
  max : W32 := 0x80000000
  min : W32 := 0x7FFFFFFF
  /-- Counts by bin. -/
  bins : SMap Nat := {}
  deriving DecidableEq, Repr

/-- A histogram monitor (R448 to R451). -/
structure Monitor where
  cfg : W64 := 0
  /-- A configuration that takes effect at the next count (R450). -/
  cfgNext : Option W64 := none
  live : HmBank := {}
  snap : HmBank := {}
  snapt : W64 := 0
  /-- Events of the source since the configuration took effect, and the tick of the last one that was not lost (R448). -/
  events : Nat := 0
  lastAt : Option Nat := none
  deriving DecidableEq, Repr

/-- States of the test access port, as IEEE 1149.1 defines them. -/
inductive TapState where
  | reset | idle | selectDr | captureDr | shiftDr | exit1Dr | pauseDr | exit2Dr | updateDr
  | selectIr | captureIr | shiftIr | exit1Ir | pauseIr | exit2Ir | updateIr
  deriving DecidableEq, Repr

/-- The debug port of a die (R470): the state of the test access port, the instruction register (Table 25-9) and DBG_ADDR; the
last access's data, WRITE and ERR; and whether the session has written. -/
structure Debug where
  tap : TapState := .reset
  ir : BitVec 4 := 0x1
  addr : W32 := 0
  write : Bool := false
  data : W64 := 0
  err : Bool := false
  wrote : Bool := false
  deriving DecidableEq, Repr

end Sys2Proof.Machine
end

