-- ==== Sys2Proof/Machine/Units/Steward.lean ====
section
/-!
DEFINITION. The steward of a die as data: margin regions, the object dictionary, mailboxes, the Dictionary Access
Protocol, the journal and its flash, safety outputs (R376 to R428).
-/
namespace Sys2Proof.Machine

/-- The plans of R391 and R392, in the order of their codes in a PLAN record (Table 22-5). -/
inductive PlanKind where
  | startup | periodic | shift | hard | dieReset
  deriving DecidableEq, Repr

/-- A margin region (R386, Table 20-2) with its one or two monitors. -/
structure Region where
  code : Nat := 0x20
  slackMin : Byte := 0x7F
  slack : Byte := 0x80
  ref : Byte := 0x80
  first : Nat := 0x20
  firstSet : Bool := false
  start : Nat := 0x20
  raises : Nat := 0
  monFail : Bool := false
  hard : Bool := false
  /-- Latest readings of the monitors, signed, in units of 0.5 % (R387), by monitor 0 or 1. -/
  readings : SMap Int := {}
  /-- Tick at which each monitor's present measurement began: its last one, or a change of its code or interval (R387,
  R388). -/
  readAt : SMap Nat := {}
  /-- Latest readings at the present code, by monitor (R388). -/
  atCode : SMap Int := {}
  /-- The latest readings taken after the last code change, the oldest first, at most four (R391). -/
  fresh : List Int := []
  /-- Consecutive readings of each monitor at least SHIFT_DELTA below REF, and below 8 % (R390). -/
  below : SMap Nat := {}
  low : SMap Nat := {}
  /-- A plan of the region is requested, and the plan of it that runs (R390, R391). -/
  asked : Option PlanKind := none
  plan : Option PlanKind := none
  /-- The start-up plan is in its loop that lowers the code. -/
  down : Bool := false
  /-- The plan that runs has changed the code (R393, R394). -/
  moved : Bool := false
  /-- Lowest reading of the present hour (R394). -/
  hourMin : Byte := 0x7F
  deriving DecidableEq, Repr

/-- A mailbox of the Crown port (R406): request and response blocks and MB_CTL. -/
structure Mailbox where
  req : List Byte := List.replicate 32 0
  resp : List Byte := List.replicate 32 0
  doneCount : W16 := 0
  ovr : Bool := false
  irqEn : Bool := false
  busy : Bool := false
  /-- The request the steward has taken, when GO was accepted. -/
  taken : List Byte := []
  /-- The request was in progress when the steward restarted (R399). -/
  restarted : Bool := false
  deriving DecidableEq, Repr

/-- A rate bucket (R412): tokens in units of 1 / 100,000,000 of a request, and the tick they were counted at. -/
structure Bucket where
  tokens : Nat
  at' : Nat := 0
  deriving DecidableEq, Repr

/-- A staging session (R407): its path, the staged values by object key, the tick of its last request. -/
structure Session where
  path : DPath
  staged : SMap (BitVec 128) := {}
  at' : Nat
  deriving DecidableEq, Repr

/-- State of a DAP key (R411). -/
structure DapKey where
  rxHigh : W64 := 0
  rxRes : W64 := 0
  txSeq : W64 := 0
  txRes : W64 := 0
  /-- Queued requests (R412): the request block and the address to answer. -/
  queue : List (List Byte × List Byte) := []
  /-- Frames that wait for a reservation of the key to be journaled: SEQ, request block and source address (R411). -/
  held : List (W64 × List Byte × List Byte) := []
  deriving DecidableEq, Repr

/-- What runs on the steward (Table 21-2 MODE). -/
inductive StwMode where
  | checking | carori | rom
  deriving DecidableEq, Repr

/-- What waits for a journal record (R408, R410, R411, R423). -/
inductive JrnAfter where
  | none
  /-- New values take effect, the session of the group ends, and the path is answered; the WRITE had a 1 in a reserved bit
  (R8). -/
  | commit (path : DPath) (vals : List (Nat × BitVec 128)) (group : Nat) (rsvd : Bool)
  /-- A value journaled again after a restart (R399). -/
  | again
  /-- A DAP key takes effect with its counters at 0, and the path is answered. -/
  | key (path : DPath) (key : Fin 2) (value : BitVec 128)
  /-- A receive limit: the frame with this SEQ is accepted, with its request block and source address. -/
  | rx (key : Fin 2) (seq limit : W64) (block addr : List Byte)
  /-- A transmit limit: the response block goes to the address. -/
  | tx (key : Fin 2) (limit : W64) (resp addr : List Byte)
  deriving DecidableEq, Repr

/-- A record waiting to be written to the journal: kind and payload bytes (R422). -/
structure JrnRec where
  kind : Nat
  payload : List Byte
  after : JrnAfter := .none
  /-- Programming attempts made (R422). -/
  tries : Nat := 0
  deriving DecidableEq, Repr

/-- Why flash sectors are being erased (R404, R424, R425, R428). -/
inductive EraseJob where
  | compact | empty | clear
  | image (path : DPath)
  deriving DecidableEq, Repr

/-- The journal and its flash (R417 to R428). A flash byte that is not listed reads 0xFF (erased). -/
structure Journal where
  flash : SMap Byte := {}
  /-- The active bank, its GEN, the append point (byte offset in the bank) and the next SEQ. -/
  bank : Nat := 0
  gen : Nat := 0
  append : Nat := 0
  next : W64 := 1
  replayed : Bool := false
  /-- Budget: records in units of 1 / 100,000,000, and the tick they were counted at (R423). -/
  tokens : Nat := 25600000000
  tokensAt : Nat := 0
  /-- Records to write, the oldest first. -/
  queue : List JrnRec := []
  /-- Sectors to erase, by job; the first sector of the first job is being erased. -/
  jobs : List (EraseJob × List Nat) := []
  /-- The other bank is erased for the compaction in progress. -/
  erased : Bool := false
  /-- The flash is not used, since the last check of it found it unusable (R416). -/
  unusable : Bool := false
  /-- The codes of the last valid PLAN record, by region (R391, R394). -/
  planCodes : SMap Nat := {}
  /-- JRN_STAT fields (Table 22-7). -/
  torn : W16 := 0
  refused : Byte := 0
  verifyFail : Bool := false
  readOnly : Bool := false
  empty : Bool := false
  deriving DecidableEq, Repr

/-- SAFE_STAT (Table 19-2) and the safety output pins (R376 to R380). -/
structure Safety where
  firstCode : W16 := 0
  events : W16 := 0
  ssrLatch : Bool := true
  /-- CAUSE bits at their places: bit 1 LOSS to bit 12 OTHER. -/
  causes : BitVec 13 := 0
  /-- SAFE_HB, and the tick of its last toggle (R378). -/
  hb : Bool := false
  hbAt : Nat := 0
  /-- Tick of the last change of the state that the error pair is driven to (R377). -/
  errAt : Nat := 0
  /-- F-0201 is reported and the steward has not cleared it (R39). -/
  f0201 : Bool := false
  deriving DecidableEq, Repr

/-- The steward of a die. -/
structure Steward where
  mode : StwMode := .checking
  vfail : Byte := 0
  svn : W16 := 0
  restarts : W16 := 0
  fwVersion : W32 := 0
  forceRom : Bool := false
  /-- Tick of the last supervision cycle (R399), and whether the firmware that runs has completed one (R413). -/
  supAt : Nat := 0
  supDone : Bool := false
  /-- Committed dictionary values, by object key; an object that is not listed holds its default (R402). -/
  dict : SMap (BitVec 128) := {}
  /-- The dictionary store has been filled since power-up (R402). -/
  filled : Bool := false
  sessions : SMap Session := {}
  /-- The path whose request waits for its journal record or flash erase, and the place in the rotation of the path
  served last (R403, R412). -/
  serving : Option DPath := none
  lastPath : Nat := 0
  /-- The 18 mailboxes: driver 0, safety 1, partition p at 2 + p. -/
  mailboxes : SMap Mailbox := {}
  buckets : SMap Bucket := {}
  dap : SMap DapKey := {}
  /-- DICT_STAT (Table 21-10). -/
  authFail : W16 := 0
  dapDrop : W16 := 0
  rateRefused : W16 := 0
  stale : W16 := 0
  /-- Margin regions, by region number. -/
  regions : SMap Region := {}
  /-- Current voltage request code, its target, and the tick of its last step (R393). -/
  vreq : Nat := 0x64
  vtarget : Nat := 0x64
  vreqAt : Nat := 0
  /-- VREQ_BASE as the last start-up plan took it (Table 20-4). -/
  vbase : Nat := 0x64
  /-- START_MAX of the last start-up plan (R391). -/
  startMax : Nat := 0x20
  /-- The plans over every region that are in progress and have changed a code, and the plans whose records wait for VREQ to
  reach its target (R393, R394). -/
  planChanged : List PlanKind := []
  planDue : List PlanKind := []
  /-- Ticks of the last periodic plan and of the last hourly record (R390, R394). -/
  periodicAt : Nat := 0
  hourAt : Nat := 0
  safety : Safety := {}
  /-- Tick at which an EVENT record of a fault code was last queued, and repeats counted since (Table 22-5). -/
  eventAt : SMap Nat := {}
  eventRepeats : SMap Nat := {}
  /-- Arrays recorded as failed, by array key (R381, the UNIT record of Table 22-5). -/
  failedArrays : List Nat := []
  journal : Journal := {}
  deriving DecidableEq, Repr

end Sys2Proof.Machine
end

