-- ==== Sys2Proof/Machine/State.lean ====
section
/-!
DEFINITION. The state of the block: every unit of every die of the package, the device memory behind the Peat ports,
and the queue of the commands that wait. Plain data.
-/
namespace Sys2Proof.Machine

/-- Why a command stops the machine. -/
inductive Fault where
  /-- The command names a die, cluster, core, array or link that the build of the package does not have (R2).
  Raised by every command that names a unit. Safe: no unit of the machine is left in a wrong state. -/
  | noSuchUnit
  deriving DecidableEq, Repr

/-- Why a command has no meaning in the model. -/
inductive Refusal where
  /-- The command of this mnemonic is not modelled. Safe: nothing can be concluded from a refused command. -/
  | notModelled (mnemonic : String)
  deriving DecidableEq, Repr

/-- The build parameters (R2, Table 00-1). DESIGN CHOICE, log entry 5. -/
structure Build where
  dies : Nat := 8
  clusters : Nat := 16
  cores : Nat := 4
  arrays : Nat := 4
  deriving DecidableEq, Repr

/-- The straps of a die, as its pins hold them (Table 25-6); the die latches them (R12, R464). DESIGN CHOICE, log entry 5. -/
structure Straps where
  /-- DIE_ID; none: the die's own number. -/
  dieId : Option Nat := none
  linkUse : BitVec 4 := 0xF
  /-- LINK_RATE of a link; a link that is not listed has 0b101. -/
  linkRate : SMap Nat := {}
  macMode : Nat := 0
  deriving DecidableEq, Repr

/-- The state of the machine. A unit that a table does not list is in its reset state. -/
structure State where
  /-- Commands that wait, the first to run at the front. -/
  pending : List Instr
  /-- The package as generated, and the straps of its dies. -/
  build : Build
  straps : SMap Straps
  /-- Dies, by die number. -/
  dies : SMap Die
  /-- Clusters, by ClusterId.key. -/
  clusters : SMap Cluster
  /-- Cores, by CoreId.key. -/
  cores : SMap Core
  /-- Mitten links, by LinkId.key. -/
  links : SMap Link
  /-- Stewards, network time and debug port, by die number. -/
  stewards : SMap Steward
  nets : SMap NetTime
  debugs : SMap Debug
  /-- Histogram monitors, by die × 32 + monitor. -/
  monitors : SMap Monitor
  /-- Contexts, queues (QueueId.key), memory objects (handle) and semaphores (index). -/
  ctxs : SMap Ctx
  queues : SMap Queue
  mos : SMap MemObj
  sems : SMap Sema
  /-- Launches in progress, by the key of their queue. -/
  launches : SMap Launch
  /-- Fence signals on their way, by number, and the next number. -/
  fences : SMap FenceSig
  fenceNext : Nat
  /-- Control messages on their way to a die: destination, source, message; by number of arrival. -/
  msgs : SMap (Nat × Nat × Msg)
  msgNext : Nat
  /-- Requests of the engines and sequencers to memory, by number, and the next number. -/
  reqs : SMap Req
  reqNext : Nat
  /-- Crown port of die 0: table bases (Table 27-2), object request block and held requests, OBJ_OVF. -/
  ctxTbl : W64
  moTbl : W64
  qTbl : SMap W64
  objReq : List Byte
  objHeld : List ObjReq
  objOvf : Bool
  /-- PART_ROOT as last written, by partition (R279), and whether an INVAL of the whole space has completed after
  the last commit (R484). -/
  partRoot : SMap (BitVec 128)
  rootInval : SMap Bool
  /-- Event rings, by partition × 256 + ring (Table 27-3). -/
  rings : SMap Ring
  /-- Capability entries of the dies (Table 12-10) and whether the table is fixed (R252). -/
  caps : SMap CapDie
  capFixed : Bool
  /-- The last response of the Crown port (R459). -/
  crown : CrownResp
  /-- CR_ID of the request that the Crown port serves or has served last: the response carries it as CR_RSP_ID (R459). -/
  crId : Byte
  /-- Interrupt messages posted at each die, the oldest first: vector and COOKIE; the block holds the first 64, and the sources of
  the others wait (R461). And the last one sent. -/
  im : SMap (List (W16 × W32))
  imSent : Option (W16 × W32)
  /-- Device memory, by device physical address; a byte that is not listed reads 0. -/
  mem : SMap Byte
  /-- The model's counter of free values drawn so far. -/
  freeNext : Nat
  deriving DecidableEq, Repr

/-- The machine while BLK_RST_N is low, which is where every register has its reset value (R465): no command waits,
no unit is listed, and memory lists nothing. DESIGN CHOICE, log entry 5; DEDUCED, log entry 72. -/
def State.reset : State where
  pending := []
  build := {}
  straps := {}
  dies := {}
  clusters := {}
  cores := {}
  links := {}
  stewards := {}
  nets := {}
  debugs := {}
  monitors := {}
  ctxs := {}
  queues := {}
  mos := {}
  sems := {}
  launches := {}
  fences := {}
  fenceNext := 0
  msgs := {}
  msgNext := 0
  reqs := {}
  reqNext := 0
  ctxTbl := 0
  moTbl := 0
  qTbl := {}
  objReq := List.replicate 32 0
  objHeld := []
  objOvf := false
  partRoot := {}
  rootInval := {}
  rings := {}
  caps := {}
  capFixed := false
  crown := ⟨false, 0⟩
  crId := 0
  im := {}
  imSent := none
  mem := {}
  freeNext := 0

end Sys2Proof.Machine
end

