-- ==== Sys2Proof/Machine/Ops.lean ====
section
/-!
DEFINITION. The named operations over the state: reading and writing a unit's record, device memory, free values,
interrupt messages.
-/
namespace Sys2Proof.Machine

namespace State

/-- Whether the build has a die, cluster, core, array or link (R2). -/
def hasDie (s : State) (d : DieId) : Bool := decide (d.val < s.build.dies)
def hasCluster (s : State) (k : ClusterId) : Bool := s.hasDie k.die && decide (k.cl.val < s.build.clusters)
def hasCore (s : State) (c : CoreId) : Bool := s.hasCluster c.cluster && decide (c.core.val < s.build.cores)
def hasArray (s : State) (a : ArrayId) : Bool := s.hasCore a.core && decide (a.arr.val < s.build.arrays)

/-- The record of a unit; a unit that is not listed is in its reset state. -/
def die (s : State) (d : DieId) : Die := s.dies.get {} d.val
def cluster (s : State) (k : ClusterId) : Cluster := s.clusters.get {} k.key
def core (s : State) (c : CoreId) : Core := s.cores.get {} c.key
def link (s : State) (l : LinkId) : Link := s.links.get {} l.key
def steward (s : State) (d : DieId) : Steward := s.stewards.get {} d.val
def net (s : State) (d : DieId) : NetTime := s.nets.get {} d.val
def debug (s : State) (d : DieId) : Debug := s.debugs.get {} d.val
def monitor (s : State) (d : DieId) (m : Nat) : Monitor := s.monitors.get {} (d.val * 32 + m)
def ctx (s : State) (n : Nat) : Ctx := s.ctxs.get {} n
def queue (s : State) (q : QueueId) : Queue := s.queues.get {} q.key
def mo (s : State) (h : Nat) : MemObj := s.mos.get {} h
def sema (s : State) (n : Nat) : Sema := s.sems.get {} n
def ring (s : State) (p r : Nat) : Ring := s.rings.get {} (p * 256 + r)
def strap (s : State) (d : DieId) : Straps := s.straps.get {} d.val

/-- The state with the record of a unit replaced. -/
def setDie (s : State) (d : DieId) (v : Die) : State := { s with dies := s.dies.put d.val v }
def setCluster (s : State) (k : ClusterId) (v : Cluster) : State := { s with clusters := s.clusters.put k.key v }
def setCore (s : State) (c : CoreId) (v : Core) : State := { s with cores := s.cores.put c.key v }
def setLink (s : State) (l : LinkId) (v : Link) : State := { s with links := s.links.put l.key v }
def setSteward (s : State) (d : DieId) (v : Steward) : State := { s with stewards := s.stewards.put d.val v }
def setNet (s : State) (d : DieId) (v : NetTime) : State := { s with nets := s.nets.put d.val v }
def setDebug (s : State) (d : DieId) (v : Debug) : State := { s with debugs := s.debugs.put d.val v }
def setMonitor (s : State) (d : DieId) (m : Nat) (v : Monitor) : State :=
  { s with monitors := s.monitors.put (d.val * 32 + m) v }
def setCtx (s : State) (n : Nat) (v : Ctx) : State := { s with ctxs := s.ctxs.put n v }
def setQueue (s : State) (q : QueueId) (v : Queue) : State := { s with queues := s.queues.put q.key v }
def setMo (s : State) (h : Nat) (v : MemObj) : State := { s with mos := s.mos.put h v }
def setSema (s : State) (n : Nat) (v : Sema) : State := { s with sems := s.sems.put n v }
def setRing (s : State) (p r : Nat) (v : Ring) : State := { s with rings := s.rings.put (p * 256 + r) v }
def setLaunch (s : State) (q : Nat) (v : Launch) : State := { s with launches := s.launches.put q v }

/-- The die whose number is 0 (R13). -/
def die0 : DieId := 0

/-- Every core, cluster and die of the build, in ascending order. -/
def allDies (s : State) : List DieId := (List.range s.build.dies).map dieOf
def allClusters (s : State) (d : DieId) : List ClusterId :=
  (List.range s.build.clusters).map fun i => ⟨d, Fin.ofNat 16 i⟩
def clusterCores (s : State) (k : ClusterId) : List CoreId :=
  (List.range s.build.cores).map fun i => ⟨k.die, k.cl, Fin.ofNat 4 i⟩
def dieCores (s : State) (d : DieId) : List CoreId := (s.allClusters d).flatMap s.clusterCores
def allCores (s : State) : List CoreId := s.allDies.flatMap s.dieCores

/-- An array of a core, by its physical number. -/
def arr (s : State) (a : ArrayId) : Arr := (s.core a.core).arrs.get {} a.arr.val
def setArr (s : State) (a : ArrayId) (v : Arr) : State :=
  let k := s.core a.core
  s.setCore a.core { k with arrs := k.arrs.put a.arr.val v }

/-- A byte of device memory (R7). A byte that nothing has written reads 0 (log entry 3). -/
def readByte (s : State) (pa : Nat) : Byte := s.mem.get 0 pa

/-- A byte of device memory written. -/
def writeByte (s : State) (pa : Nat) (b : Byte) : State := { s with mem := s.mem.setD 0 pa b }

/-- `n` bytes of device memory from an address. -/
def readBytes (s : State) (pa n : Nat) : List Byte := (List.range n).map fun i => s.readByte (pa + i)

/-- Bytes of device memory written from an address on. -/
def writeBytes (s : State) (pa : Nat) : List Byte → State
  | [] => s
  | b :: bs => (s.writeByte pa b).writeBytes (pa + 1) bs

/-- Draw a free value: the number of the draw, and the state that has drawn it. -/
def draw (s : State) : Nat × State := (s.freeNext, { s with freeNext := s.freeNext + 1 })

/-- Post an interrupt message of a die: vector and COOKIE (R461, R496). -/
def postIm (s : State) (d : DieId) (vec : Nat) (cookie : W32) : State :=
  { s with im := s.im.put d.val (s.im.get [] d.val ++ [(BitVec.ofNat 16 vec, cookie)]) }

/-- Ticks of a die's timebase since a moment (R38). DESIGN CHOICE, log entry 62. -/
def since (s : State) (d : DieId) (t : Nat) : Nat := (s.die d).ticks - t

end State

/-- A counter field of a register that stays at its largest value. -/
def satInc {n : Nat} (x : BitVec n) : BitVec n := if x = BitVec.allOnes n then x else x + 1

/-- A command on a unit that the build has: its effect; otherwise the machine stops (R2).
DESIGN CHOICE, log entry 4. -/
def onDie (s : State) (d : DieId) (t : State) : Host.Outcome State Fault Refusal :=
  if s.hasDie d then .next t else .fault .noSuchUnit
def onCluster (s : State) (k : ClusterId) (t : State) : Host.Outcome State Fault Refusal :=
  if s.hasCluster k then .next t else .fault .noSuchUnit
def onCore (s : State) (c : CoreId) (t : State) : Host.Outcome State Fault Refusal :=
  if s.hasCore c then .next t else .fault .noSuchUnit
def onArray (s : State) (a : ArrayId) (t : State) : Host.Outcome State Fault Refusal :=
  if s.hasArray a then .next t else .fault .noSuchUnit

end Sys2Proof.Machine
end

