-- ==== Sys2Proof/Machine/HmOps.lean ====
section
/-!
DEFINITION. Histogram monitors as the sources feed them: the sorting of a sample, and the events that a source gives to every
monitor configured for it (R447 to R449).
-/
namespace Sys2Proof.Machine

/-- A 48-bit count after one more; it stays at its largest value (R449). -/
def count48 (n : Nat) : Nat := min (n + 1) (2 ^ 48 - 1)

/-- The bin of a scaled sample, and whether it lies under bin 0 or over the range of bin 63 (R449). -/
def binOf (log : Bool) (d : Int) : Nat × Bool × Bool :=
  if d < 0 then (0, true, false)
  else
    let n := d.toNat
    if !log then (min n 63, false, decide (63 < n))
    else if n = 0 then (0, false, false)
    else
      let e := n.log2
      let b := 1 + 4 * e + (4 * n / 2 ^ e - 4)
      (min b 63, false, decide (63 < b))

/-- One sample in the live bank (R449). DEDUCED, log entry 56. -/
def HmBank.sample (b : HmBank) (cfg : Nat) (v : W32) : HmBank :=
  let x := signed 32 v.toNat
  let d := (x - signed 32 (field cfg 63 32)) / ((2 ^ field cfg 15 11 : Nat) : Int)
  let r := binOf (bitAt cfg 0) d
  let n := count48 (b.bins.get 0 r.1)
  let t := count48 b.total
  { b with
    bins := b.bins.put r.1 n
    total := t
    sat := b.sat || decide (n = 2 ^ 48 - 1) || decide (t = 2 ^ 48 - 1)
    under := if r.2.1 then satInc b.under else b.under
    above := if r.2.2 then satInc b.above else b.above
    min := if x < signed 32 b.min.toNat then v else b.min
    max := if signed 32 b.max.toNat < x then v else b.max }

/-- SRC, SEL and DIV of a monitor (Table 24-2). -/
def Monitor.src (m : Monitor) : Nat := field m.cfg.toNat 31 24
def Monitor.sel (m : Monitor) : Nat := field m.cfg.toNat 23 16
def Monitor.div (m : Monitor) : Nat := field m.cfg.toNat 10 8

/-- A duration or a count as a sample; one that a signed 32-bit value cannot hold is the largest. DESIGN CHOICE, log
entry 56. -/
def sampleOf (n : Nat) : W32 := BitVec.ofNat 32 (min n 0x7FFFFFFF)

namespace State

/-- An event of a monitor's source with a value. One event in every 2^DIV is taken, the first one included; with DIV 0 a Peat
latency may find the monitor still sorting a sample of the same count or the one before, and is then counted in LOST (R448).
DEDUCED, log entry 56. -/
def hmTake (s : State) (d : DieId) (i : Nat) (v : W32) : State :=
  let m := s.monitor d i
  let now := (s.die d).ticks
  let takes := decide (m.events % 2 ^ m.div = 0)
  let sorting : Bool := match m.lastAt with
    | some t => decide (now ≤ t + 1)
    | none => false
  let m' : Monitor := { m with events := m.events + 1 }
  if !takes then s.setMonitor d i { m' with lastAt := some now }
  else
    let f := s.draw
    let kept : Monitor := { m' with live := m.live.sample m.cfg.toNat v, lastAt := some now }
    if m.src = 3 ∧ m.div = 0 ∧ sorting then
      if Config.freeNew f.1 0 then f.2.setMonitor d i kept
      else f.2.setMonitor d i { m' with live := { m.live with lost := min (m.live.lost + 1) 32767 } }
    else s.setMonitor d i kept

/-- An event of a source of a die reaches every monitor whose SRC names the source and whose SEL admits it (R447). -/
def hmEvent (s : State) (d : DieId) (src : Nat) (sel : Nat → Bool) (v : W32) : State :=
  (List.range 32).foldl (fun s i =>
    let m := s.monitor d i
    if m.src = src ∧ sel m.sel then s.hmTake d i v else s) s

end State

end Sys2Proof.Machine
end

