-- ==== Sys2Proof/Machine/Crc.lean ====
section
/-!
DEFINITION. Check values: CRC-32C as a running value (R326), guarded blocks and their trailers and tags
(R331, R332, R334).
-/
namespace Sys2Proof.Machine

/-- One of the eight steps of a byte (R326). -/
def crcBit (c : Nat) : Nat := if c % 2 = 1 then (c / 2) ^^^ 0x82F63B78 else c / 2

/-- The register after one byte. -/
def crcByte (c : Nat) (x : Byte) : Nat :=
  crcBit (crcBit (crcBit (crcBit (crcBit (crcBit (crcBit (crcBit (c ^^^ x.toNat))))))))

/-- fold(V, bytes) (R326). -/
def crcFold (v : W32) (bs : List Byte) : W32 :=
  BitVec.ofNat 32 ((bs.foldl crcByte (v.toNat ^^^ 0xFFFFFFFF)) ^^^ 0xFFFFFFFF)

/-- The check value of a byte string. -/
def crc32c (bs : List Byte) : W32 := crcFold 0 bs

/-- The address tag of a block (R332). -/
def addrTag (a : Nat) : W32 := BitVec.ofNat 32 (a / 8)

/-- The sequence tag of block `j` of an image of generation `gen` (R332). -/
def seqTag (gen j : Nat) : W32 := BitVec.ofNat 32 (gen * 65536 + j)

/-- The trailer of a block (Table 16-3). -/
def trailer (data : List Byte) (tag : W32) : List Byte :=
  let t := bytesLE 4 tag.toNat
  bytesLE 4 (crc32c (data ++ t)).toNat ++ t

/-- The check of a block of 2,048 bytes and its trailer (R334): none when it passes; otherwise INFO of F-1601
(Table 16-6). -/
def blockCheck (blk : List Byte) (expected : W32) : Option Nat :=
  let data := blk.take 2048
  let chk := ofBytesLE ((blk.drop 2048).take 4)
  let t := (blk.drop 2052).take 4
  let tag := ofBytesLE t
  if (crc32c (data ++ t)).toNat ≠ chk then some (place tag 32)
  else if tag ≠ expected.toNat then some (place tag 32 + 1)
  else none

end Sys2Proof.Machine
end

