-- ==== Sys2Proof/Machine/Num.lean ====
section
/-!
DEFINITION. Exact dyadic values, one rounding to a target precision, and the float formats of Table 03-1
(R42, R51, R58 to R60).
-/
namespace Sys2Proof.Machine

/-- An exact value: (-1)^neg * m * 2^e, an infinity or a NaN. -/
inductive FVal where
  | fin (neg : Bool) (m : Nat) (e : Int)
  | inf (neg : Bool)
  | nan
  deriving DecidableEq, Repr

/-- How a float format spends its highest exponent field. -/
inductive FSpecial where
  | ieee       -- infinities and NaNs
  | e4m3       -- one NaN and no infinity
  | plain      -- neither
  deriving DecidableEq, Repr

/-- A float format: its exponent and mantissa widths, bias and special encodings. -/
structure FFmt where
  eb : Nat
  mb : Nat
  bias : Nat
  special : FSpecial
  deriving DecidableEq, Repr

/-- FP32 (Table 03-1). -/
def fp32 : FFmt := ⟨8, 23, 127, .ieee⟩
/-- BF16 (Table 03-1). -/
def bf16 : FFmt := ⟨8, 7, 127, .ieee⟩
/-- FP16 (Table 03-1). -/
def fp16 : FFmt := ⟨5, 10, 15, .ieee⟩
/-- FP8 E4M3 (Table 03-1). -/
def e4m3 : FFmt := ⟨4, 3, 7, .e4m3⟩
/-- FP8 E5M2 (Table 03-1). -/
def e5m2 : FFmt := ⟨5, 2, 15, .ieee⟩

/-- The exponent of the format's smallest nonzero magnitude. -/
def FFmt.emin (f : FFmt) : Int := 1 - (f.bias : Int) - f.mb

/-- The encoding of the format's largest finite magnitude. -/
def FFmt.maxEnc (f : FFmt) : Nat :=
  match f.special with
  | .ieee => (2 ^ f.eb - 1) * 2 ^ f.mb - 1
  | .e4m3 => 2 ^ (f.eb + f.mb) - 2
  | .plain => 2 ^ (f.eb + f.mb) - 1

/-- The encoding of the format's positive infinity. -/
def FFmt.infEnc (f : FFmt) : Nat := (2 ^ f.eb - 1) * 2 ^ f.mb

/-- The canonical NaN of the format (R60). -/
def FFmt.nanEnc (f : FFmt) : Nat :=
  match f.special with
  | .e4m3 => 2 ^ (f.eb + f.mb) - 1
  | _ => (2 ^ f.eb - 1) * 2 ^ f.mb + 2 ^ (f.mb - 1)

/-- The sign bit at its place. -/
def FFmt.signBit (f : FFmt) (neg : Bool) : Nat := bit neg * 2 ^ (f.eb + f.mb)

/-- The value an encoding stands for; subnormals are kept (R42). -/
def FFmt.decode (f : FFmt) (w : Nat) : FVal :=
  let m := w % 2 ^ f.mb
  let x := (w >>> f.mb) % 2 ^ f.eb
  let s := bitAt w (f.eb + f.mb)
  let top := decide (x = 2 ^ f.eb - 1)
  match f.special with
  | .ieee => if top then (if m = 0 then .inf s else .nan) else finite s m x
  | .e4m3 => if top && decide (m = 2 ^ f.mb - 1) then .nan else finite s m x
  | .plain => finite s m x
where
  /-- A finite encoding with mantissa field `m` and exponent field `x`. -/
  finite (s : Bool) (m x : Nat) : FVal :=
    if x = 0 then .fin s m f.emin else .fin s (2 ^ f.mb + m) (f.emin + x - 1)

/-- Whether a discarded remainder rounds the magnitude up: RND 0 nearest-even, 1 toward zero,
2 toward +infinity, 3 toward -infinity (Table 03-3). `rem` is below `2 ^ d`. -/
def roundsUp (rnd : Nat) (neg : Bool) (odd : Bool) (rem d : Nat) : Bool :=
  match rnd with
  | 0 => decide (2 ^ d < 2 * rem) || (decide (2 * rem = 2 ^ d) && odd)
  | 1 => false
  | 2 => decide (rem ≠ 0) && !neg
  | _ => decide (rem ≠ 0) && neg

/-- `m * 2^e` brought to the exponent `q` by one rounding: the integer significand. -/
def roundAt (rnd : Nat) (neg : Bool) (m : Nat) (e q : Int) : Nat :=
  if q ≤ e then m <<< (e - q).toNat
  else
    let d := (q - e).toNat
    let t := m >>> d
    let r := m % 2 ^ d
    if roundsUp rnd neg (bitAt t 0) r d then t + 1 else t

/-- The exponent of the last place kept of `m * 2^e` at `p` significant bits, not below `emin`. -/
def lastPlace (m : Nat) (e : Int) (p : Nat) (emin : Int) : Int :=
  max (e + (m.log2 + 1 : Nat) - p) emin

/-- The magnitude encoding of a nonzero `m * 2^e` rounded once in the format's precision at its
magnitude, its subnormal range included, with an unbounded exponent (R58, R59). -/
def FFmt.roundEnc (f : FFmt) (rnd : Nat) (neg : Bool) (m : Nat) (e : Int) : Nat :=
  let q := lastPlace m e (f.mb + 1) f.emin
  roundAt rnd neg m e q + (q - f.emin).toNat * 2 ^ f.mb

/-- An exact finite value as a signed integer significand and exponent. -/
def FVal.toInt (neg : Bool) (m : Nat) : Int := if neg then -(m : Int) else m

/-- The exact sum of two finite values: significand and exponent. -/
def addExact (a : Int) (ea : Int) (b : Int) (eb : Int) : Int × Int :=
  let e := min ea eb
  (a * (2 ^ (ea - e).toNat : Nat) + b * (2 ^ (eb - e).toNat : Nat), e)

/-- IEEE rounding of an exact value to nearest-even in a format, overflow to infinity, NaN canonical.
A zero keeps the sign it is given. -/
def FFmt.rne (f : FFmt) (v : FVal) : Nat :=
  match v with
  | .nan => f.nanEnc
  | .inf s => f.signBit s + f.infEnc
  | .fin s m e =>
    if m = 0 then f.signBit s
    else
      let x := f.roundEnc 0 s m e
      f.signBit s + (if f.maxEnc < x then f.infEnc else x)

end Sys2Proof.Machine
end

