-- ==== Sys2Proof/Machine/Formats.lean ====
section
/-!
DEFINITION. Element formats (R42, R43), the operand classes (R45), ARR_FMT and ARR_CFG (R47, R76), the exact
accumulation of one output element (R53 to R57) and its output conversion (R58 to R60).
-/
namespace Sys2Proof.Machine

/-- The width in bits of a format code of Table 03-1; none for a reserved code. -/
def fmtBits : Nat → Option Nat
  | 0x00 => some 8 | 0x01 => some 8 | 0x02 => some 4
  | 0x04 => some 8 | 0x05 => some 8
  | 0x08 => some 8 | 0x09 => some 8 | 0x0A => some 6 | 0x0B => some 6 | 0x0C => some 4 | 0x0D => some 8
  | 0x10 => some 16 | 0x11 => some 16 | 0x12 => some 32
  | 0x13 => some 16 | 0x14 => some 32 | 0x15 => some 128 | 0x16 => some 64
  | _ => none

/-- The float layout of a format code, where it has one (Table 03-1). -/
def fmtFloat : Nat → Option FFmt
  | 0x04 => some e4m3 | 0x05 => some e5m2 | 0x08 => some e4m3 | 0x09 => some e5m2
  | 0x0A => some ⟨2, 3, 1, .plain⟩ | 0x0B => some ⟨3, 2, 3, .plain⟩ | 0x0C => some ⟨2, 1, 1, .plain⟩
  | 0x10 => some fp16 | 0x11 => some bf16 | 0x12 => some fp32
  | _ => none

/-- Whether a format code is an MX element format. -/
def fmtIsMX (c : Nat) : Bool := decide (0x08 ≤ c) && decide (c ≤ 0x0D)

/-- The value of an element of a format (Table 03-1). -/
def elemVal (code w : Nat) : FVal :=
  match fmtFloat code with
  | some f => f.decode w
  | none =>
    let n := (fmtBits code).getD 8
    let x : Int := if code = 0x01 then (w % 256 : Nat) else signed n w
    .fin (decide (x < 0)) x.natAbs (if code = 0x0D then -6 else 0)

/-- Bytes that `n` elements of a format occupy in a row (R43). -/
def rowBytes (code n : Nat) : Nat := ceilDiv (n * (fmtBits code).getD 8) 8

/-- The bits of element `i` of a row whose bytes a function reads (R43, R7). A 6-bit row that holds no multiple of four elements
runs as packed: R43 names no fault. DESIGN CHOICE, log entry 79. -/
def elemBits (code : Nat) (rd : Nat → Byte) (i : Nat) : Nat :=
  match (fmtBits code).getD 8 with
  | 4 => field (rd (i / 2)).toNat (4 * (i % 2) + 3) (4 * (i % 2))
  | 6 =>
    let b := 3 * (i / 4)
    field (ofBytesLE [rd b, rd (b + 1), rd (b + 2)]) (6 * (i % 4) + 5) (6 * (i % 4))
  | n => ofBytesLE ((List.range (n / 8)).map fun j => rd (i * (n / 8) + j))

/-- The bytes of a row of elements given by their bits (R43). -/
def packRow (code : Nat) (xs : List Nat) : List Byte :=
  let n := (fmtBits code).getD 8
  bytesLE (rowBytes code xs.length) (xs.foldr (fun x acc => x % 2 ^ n + acc * 2 ^ n) 0)

/-- The operand class of an array instruction (Table 03-2). -/
inductive OpClass where
  | integer | fp8 | mx | half
  deriving DecidableEq, Repr

/-- The class of two input codes; none for a pair Table 03-2 does not allow. -/
def opClass (a b : Nat) : Option OpClass :=
  let int := fun c : Nat => decide (c ≤ 0x02)
  let f8 := fun c : Nat => decide (c = 0x04) || decide (c = 0x05)
  if int a && int b then some .integer
  else if f8 a && f8 b then some .fp8
  else if fmtIsMX a && fmtIsMX b then some .mx
  else if (decide (a = 0x10) && decide (b = 0x10)) || (decide (a = 0x11) && decide (b = 0x11)) then some .half
  else none

/-- The K-block length of a class (Table 03-2). -/
def OpClass.blockLen : OpClass → Nat
  | .integer => 64 | .fp8 => 64 | .mx => 32 | .half => 1

/-- The output codes a class allows (Table 03-2). -/
def OpClass.outOk (c : OpClass) (o : Nat) : Bool :=
  match c with
  | .integer => [0x00, 0x01, 0x02, 0x13, 0x14, 0x16].contains o
  | _ => [0x04, 0x05, 0x10, 0x11, 0x12, 0x15].contains o

/-- The fields of ARR_FMT (Table 03-3). -/
structure ArrFmt where
  shift : Int
  rnd : Nat
  sat : Bool
  accIn : Bool
  outFmt : Nat
  bFmt : Nat
  aFmt : Nat
  deriving DecidableEq, Repr

/-- ARR_FMT read field by field (Table 03-3). -/
def ArrFmt.ofWord (w : W32) : ArrFmt :=
  let n := w.toNat
  { shift := signed 8 (field n 31 24), rnd := field n 23 22, sat := bitAt n 21, accIn := bitAt n 20,
    outFmt := field n 19 15, bFmt := field n 14 10, aFmt := field n 9 5 }

/-- The fields of ARR_CFG (Table 04-1), the gather window cut at 2,000 counts. -/
structure ArrCfg where
  delay : Nat
  chain : Nat
  mode : Nat
  gwin : Nat
  deriving DecidableEq, Repr

/-- ARR_CFG read field by field (Table 04-1). -/
def ArrCfg.ofWord (w : W32) : ArrCfg :=
  let n := w.toNat
  { delay := field n 23 18 + 1, chain := field n 17 14 + 1, mode := field n 13 12,
    gwin := min (field n 11 0) 2000 }

/-- Stationary elements per cell (R63). -/
def qOf (a b : Nat) : Nat :=
  if (decide (a = 0x02) && decide (b = 0x02)) || (decide (a = 0x0C) && decide (b = 0x0C)) then 2 else 1

/-- Whether the format combination of ARR_FMT is legal: F-0301 otherwise (R46, R58). -/
def ArrFmt.legal (f : ArrFmt) : Bool :=
  match opClass f.aFmt f.bFmt with
  | none => false
  | some c => c.outOk f.outFmt && !(decide (f.outFmt = 0x16) && decide (f.shift ≠ 0))

/-- The format of the partial results of a class (Table 03-2). -/
def OpClass.container : OpClass → Nat
  | .integer => 0x16
  | _ => 0x15

/-- ARR_AST flag bits (Table 03-7). -/
def astNAN : Nat := 0x01
def astOVERFLOW : Nat := 0x02
def astSATURATED : Nat := 0x04
def astUNDERFLOW : Nat := 0x08
def astW88OVF : Nat := 0x10
def astI64WRAP : Nat := 0x20

/-- The special state of a cell (R57). -/
inductive Spec where
  | none | inf (neg : Bool) | nan
  deriving DecidableEq, Repr

/-- Merging a special event into the special state (Table 03-5). -/
def Spec.merge : Spec → Spec → Spec
  | .none, y => y
  | x, .none => x
  | .inf a, .inf b => if a = b then .inf a else .nan
  | _, _ => .nan

/-- The special event of one product (Table 03-5). -/
def specialOf : FVal → FVal → Spec
  | .nan, _ => .nan
  | _, .nan => .nan
  | .inf a, .inf b => .inf (a != b)
  | .inf a, .fin s m _ => if m = 0 then .nan else .inf (a != s)
  | .fin s m _, .inf b => if m = 0 then .nan else .inf (s != b)
  | .fin _ _ _, .fin _ _ _ => .none

/-- The finite product of two elements: significand and exponent; 0 where one is special. -/
def prodOf : FVal → FVal → Int × Int
  | .fin s m e, .fin t n f => (FVal.toInt (s != t) (m * n), e + f)
  | _, _ => (0, 0)

/-- The exact sum rounded once to nearest-even at 72 significant bits (R52); the second component
is W88_OVF. An exact sum of zero gives +0. -/
def roundW88 (x : Int) (e : Int) : FVal × Bool :=
  if x = 0 then (.fin false 0 0, false)
  else
    let neg := decide (x < 0)
    let m := x.natAbs
    let q := e + (m.log2 + 1 : Nat) - 72
    let q' := max q e
    let r := roundAt 0 neg m e q'
    if 16384 ≤ q' + (r.log2 : Nat) then (.inf neg, true) else (.fin neg r q', false)

/-- One carry-stage addition (R52): an infinity already reached stays. -/
def addW88 (acc : FVal) (x : Int) (e : Int) : FVal × Bool :=
  match acc with
  | .fin s m f =>
    let r := addExact (FVal.toInt s m) f x e
    roundW88 r.1 r.2
  | a => (a, false)

/-- A W88 container read as a partial result (R51). -/
def readW88 (w : Nat) : FVal :=
  let s := bitAt w 87
  let e := field w 86 72
  let m := field w 71 0
  if e = 0 then .fin false 0 0
  else if e = 0x7FFF then (if m = 0 then .inf s else .nan)
  else if m = 0 then .fin false 0 0
  else .fin s m ((e : Int) - 16383 - 71)

/-- The W88 encoding of the parts of a normalised value (Table 03-4). -/
def packW88 (s : Bool) (e m : Nat) : Nat := bit s * 2 ^ 87 + e * 2 ^ 72 + m

/-- The state of one output element while its reduction runs (R65). -/
structure Cell where
  accI : Int := 0
  accF : FVal := .fin false 0 0
  spec : Spec := .none
  flags : Nat := 0
  deriving DecidableEq, Repr

/-- The state of an output element before its first K-block: zero, or its partial result (R53, R57). -/
def Cell.start (c : OpClass) (partialBits : Option Nat) : Cell :=
  match partialBits with
  | none => {}
  | some w =>
    match c with
    | .integer => { accI := signed 64 w }
    | _ =>
      match readW88 w with
      | .nan => { spec := .nan }
      | .inf s => { spec := .inf s }
      | v => { accF := v }

/-- Add a scaled K-block sum to the carry stage (R52, R56). -/
def Cell.carry (c : Cell) (cls : OpClass) (x : Int) (e : Int) : Cell :=
  match cls with
  | .integer =>
    let y := c.accI + x / (2 ^ (-e).toNat : Nat)
    let w := signed 64 (wrap 64 y)
    { c with accI := w, flags := if w = y then c.flags else c.flags ||| astI64WRAP }
  | _ =>
    let r := addW88 c.accF x e
    { c with accF := r.1, flags := if r.2 then c.flags ||| astW88OVF else c.flags }

/-- The sum of one K-block in X96, in units of 2^-48 (R49, R50), and the special state. An absent
element (a gated position, R64, R71) gives no product and no event. -/
def kBlock (a b : Nat → Option FVal) (spec : Spec) (ks : List Nat) : Int × Spec :=
  ks.foldl (init := (0, spec)) fun acc k =>
    match a k, b k with
    | some x, some y =>
      let p := prodOf x y
      (acc.1 + p.1 * (2 ^ (p.2 + 48).toNat : Nat), acc.2.merge (specialOf x y))
    | _, _ => acc

/-- One K-block of R53 for one output element. `sa` and `sb` are the scale bytes of the block. -/
def Cell.block (cls : OpClass) (kLen : Nat) (a b : Nat → Option FVal) (sa sb : Nat → Nat)
    (c : Cell) (kb : Nat) : Cell :=
  match cls with
  | .half =>
    match a kb, b kb with
    | some x, some y =>
      let p := prodOf x y
      { c.carry .half p.1 p.2 with spec := c.spec.merge (specialOf x y) }
    | _, _ => c
  | _ =>
    let l := cls.blockLen
    let r := kBlock a b c.spec ((List.range (min l (kLen - kb * l))).map (kb * l + ·))
    match cls with
    | .mx =>
      let sp := if decide (sa kb = 0xFF) || decide (sb kb = 0xFF) then r.2.merge .nan else r.2
      { c.carry .mx r.1 ((sa kb : Int) + sb kb - 254 - 48) with spec := sp }
    | cls => { c.carry cls r.1 (-48) with spec := r.2 }

/-- The reduction of one output element (R53), K-blocks ascending. -/
def Cell.reduce (cls : OpClass) (kLen : Nat) (a b : Nat → Option FVal) (sa sb : Nat → Nat)
    (c : Cell) : Cell :=
  (List.range (ceilDiv kLen cls.blockLen)).foldl (Cell.block cls kLen a b sa sb) c

/-- The final W88 value of a cell (R57). -/
def Cell.value (c : Cell) : FVal :=
  match c.spec with
  | .none => c.accF
  | .inf s => .inf s
  | .nan => .nan

/-- A W88 value as output conversion takes it: a zero of either sign converts to +0 (R58). -/
def FVal.plusZero : FVal → FVal
  | .fin s m e => .fin (s && decide (m ≠ 0)) m e
  | v => v

/-- Conversion of a value to a float format (R58 to R60): the output bits and the flags. DEDUCED, log entry 11. -/
def convFloat (f : FFmt) (rnd : Nat) (sat : Bool) (shift : Int) (v : FVal) : Nat × Nat :=
  let big := fun s : Bool => (f.signBit s + f.maxEnc, astSATURATED)
  match v with
  | .nan => (f.nanEnc, astNAN)
  | .inf s =>
    if sat then big s
    else match f.special with
      | .ieee => (f.signBit s + f.infEnc, 0)
      | _ => (f.nanEnc, astNAN)
  | .fin s m e =>
    if m = 0 then (f.signBit s, 0)
    else
      let x := f.roundEnc rnd s m (e + shift)
      if f.maxEnc < x then
        let toInf := decide (rnd = 0) || (decide (rnd = 2) && !s) || (decide (rnd = 3) && s)
        if sat || !toInf then big s
        else match f.special with
          | .ieee => (f.signBit s + f.infEnc, astOVERFLOW)
          | _ => (f.nanEnc, astOVERFLOW ||| astNAN)
      else (f.signBit s + x, if x = 0 then astUNDERFLOW else 0)

/-- A W88 container output (R58). -/
def convW88 (shift : Int) (v : FVal) : Nat × Nat :=
  match v with
  | .nan => (packW88 false 0x7FFF (2 ^ 71), astNAN)
  | .inf s => (packW88 s 0x7FFF 0, 0)
  | .fin s m e =>
    if m = 0 then (0, 0)
    else
      let x := e + shift + (m.log2 : Nat)
      if 16384 ≤ x then (packW88 s 0x7FFF 0, astOVERFLOW)
      else if x < -16382 then (0, astUNDERFLOW)
      else (packW88 s (x + 16383).toNat (roundAt 0 s m 0 ((m.log2 : Int) - 71)), 0)

/-- The least and greatest value of an integer output format (Table 03-1). -/
def intRange (code : Nat) : Int × Int :=
  match code with
  | 0x01 => (0, 255)
  | 0x02 => (-8, 7)
  | 0x13 => (-32768, 32767)
  | 0x14 => (-2147483648, 2147483647)
  | _ => (-128, 127)

/-- Conversion of an I64 value to an integer format (R58, Table 03-6). A value clamped to the limit 0 of UINT8 sets SATURATED
and not UNDERFLOW: R61 does not say which of the two, and the value that rounding gives is not zero. DESIGN CHOICE, log entry 74. -/
def convInt (code rnd : Nat) (shift : Int) (v : Int) : Nat × Nat :=
  let r := FVal.toInt (decide (v < 0)) (roundAt rnd (decide (v < 0)) v.natAbs shift 0)
  let lim := intRange code
  let y := max lim.1 (min lim.2 r)
  (wrap ((fmtBits code).getD 8) y,
    (if y = r then 0 else astSATURATED) ||| (if decide (r = 0) && decide (v ≠ 0) then astUNDERFLOW else 0))

/-- The output element and the ARR_AST flags of a finished cell (R57 to R61). -/
def Cell.output (cls : OpClass) (f : ArrFmt) (c : Cell) : Nat × Nat :=
  let r :=
    match cls with
    | .integer => if f.outFmt = 0x16 then (wrap 64 c.accI, 0) else convInt f.outFmt f.rnd f.shift c.accI
    | _ =>
      match fmtFloat f.outFmt with
      | some g => convFloat g f.rnd f.sat f.shift c.value.plusZero
      | none => convW88 f.shift c.value
  (r.1, r.2 ||| c.flags)

/-- One output element of an array instruction: its bits and flags (R53, R62). -/
def mmElem (cls : OpClass) (f : ArrFmt) (kLen : Nat) (a b : Nat → Option FVal) (sa sb : Nat → Nat)
    (partialBits : Option Nat) : Nat × Nat :=
  ((Cell.start cls partialBits).reduce cls kLen a b sa sb).output cls f

end Sys2Proof.Machine
end

