-- ==== Sys2Proof/Machine/Window.lean ====
section
/-!
DEFINITION. Window geometry: the matrix X, its ranges and consistency, its footprint and its pad-only taps
(R205 to R210, Table 10-1).
-/
namespace Sys2Proof.Machine

/-- A window geometry (Table 10-1). -/
structure Geom where
  inW : Nat
  inH : Nat
  cin : Nat
  kw : Nat
  kh : Nat
  sx : Nat
  sy : Nat
  dx : Nat
  dy : Nat
  padL : Nat
  padR : Nat
  padT : Nat
  padB : Nat
  padVal : Nat
  outX0 : Nat
  outY0 : Nat
  outW : Nat
  outH : Nat
  rowPitch : Nat
  planePitch : Nat
  deriving DecidableEq, Repr

/-- The value of `n` bytes of a block at an offset. -/
def fieldAt (blk : List Byte) (off n : Nat) : Nat := ofBytesLE ((blk.drop off).take n)

/-- The geometry in bytes 0x0C to 0x47 of a descriptor or geometry block. -/
def Geom.ofBytes (b : List Byte) : Geom :=
  { inW := fieldAt b 0x0C 4, inH := fieldAt b 0x10 4, cin := fieldAt b 0x14 4, kw := fieldAt b 0x18 1,
    kh := fieldAt b 0x19 1, sx := fieldAt b 0x1A 1, sy := fieldAt b 0x1B 1, dx := fieldAt b 0x1C 2,
    dy := fieldAt b 0x1E 2, padL := fieldAt b 0x20 2, padR := fieldAt b 0x22 2, padT := fieldAt b 0x24 2,
    padB := fieldAt b 0x26 2, padVal := fieldAt b 0x28 4, outX0 := fieldAt b 0x2C 4, outY0 := fieldAt b 0x30 4,
    outW := fieldAt b 0x34 4, outH := fieldAt b 0x38 4, rowPitch := fieldAt b 0x3C 4,
    planePitch := fieldAt b 0x40 8 }

/-- A field lies in a range. -/
def inRange (x lo hi : Nat) : Bool := decide (lo ≤ x) && decide (x ≤ hi)

namespace Geom

/-- The ranges of Table 10-1, for a format of `w` bits. -/
def rangesOk (g : Geom) (w : Nat) : Bool :=
  inRange g.inW 1 65536 && inRange g.inH 1 65536 && inRange g.cin 1 65536 && inRange g.kw 1 16 &&
    inRange g.kh 1 16 && inRange g.sx 1 64 && inRange g.sy 1 64 && inRange g.dx 1 65535 && inRange g.dy 1 65535 &&
    decide (g.padVal < 2 ^ w) && inRange g.outX0 0 16777215 && inRange g.outY0 0 16777215 &&
    inRange g.outW 1 16777216 && inRange g.outH 1 16777216 && inRange g.rowPitch 1 4294967295 &&
    inRange g.planePitch 0 (2 ^ 52 - 1)

/-- K and N (R206). -/
def k (g : Geom) : Nat := g.cin * g.kh * g.kw
def n (g : Geom) : Nat := g.outW * g.outH

/-- Whether the outputs of one axis lie in the map: OUT0 + OUT ≤ O (R208). -/
def axisOk (pad0 len pad1 d kk st out0 out : Nat) : Bool :=
  let span := pad0 + len + pad1
  let need := d * (kk - 1) + 1
  decide (need ≤ span) && decide (out0 + out ≤ (span - need) / st + 1)

/-- A consistent geometry for a format and a start address (R208). -/
def consistent (g : Geom) (fmt start : Nat) : Bool :=
  let w := (fmtBits fmt).getD 8
  [0x00, 0x01, 0x02, 0x04, 0x05, 0x10, 0x11].contains fmt &&
    decide (ceilDiv (g.inW * w) 8 ≤ g.rowPitch) &&
    (decide (w ≠ 16) || (decide (g.rowPitch % 2 = 0) && decide (g.planePitch % 2 = 0) && decide (start % 2 = 0))) &&
    axisOk g.padL g.inW g.padR g.dx g.kw g.sx g.outX0 g.outW &&
    axisOk g.padT g.inH g.padB g.dy g.kh g.sy g.outY0 g.outH &&
    decide (g.k ≤ 16777216) && decide (g.n ≤ 16777216)

/-- The source position of X[k][n]: channel, row and column; none at a padding position (R206). -/
def source (g : Geom) (kk nn : Nat) : Option (Nat × Nat × Nat) :=
  let c := kk / (g.kh * g.kw)
  let ky := kk / g.kw % g.kh
  let kx := kk % g.kw
  let iy : Int := ((g.outY0 + nn / g.outW) * g.sy + ky * g.dy : Nat) - (g.padT : Int)
  let ix : Int := ((g.outX0 + nn % g.outW) * g.sx + kx * g.dx : Nat) - (g.padL : Int)
  if 0 ≤ iy ∧ iy < g.inH ∧ 0 ≤ ix ∧ ix < g.inW then some (c, iy.toNat, ix.toNat) else none

/-- The byte offset, from the start address, of a source element, and its first bit in that byte (R205). -/
def place (g : Geom) (w : Nat) (p : Nat × Nat × Nat) : Nat × Nat :=
  let b := p.2.2 * w
  (p.1 * g.planePitch + p.2.1 * g.rowPitch + b / 8, b % 8)

/-- Lowest and highest input position of one tap over the outputs of a region, where one lies in the map. -/
def tapSpan (out0 out st len pad tap : Nat) : Option (Nat × Nat) :=
  let at' := fun r : Nat => (((out0 + r) * st + tap : Nat) : Int) - pad
  let r0 := ceilDiv (pad - (out0 * st + tap)) st
  let top := len - 1 + pad
  if top < tap + out0 * st then none
  else
    let r1 := min (out - 1) ((top - tap - out0 * st) / st)
    if r0 ≤ r1 then some ((at' r0).toNat, (at' r1).toNat) else none

/-- The span of tap rows `ky` and of tap columns `kx`. -/
def spanY (g : Geom) (ky : Nat) : Option (Nat × Nat) := tapSpan g.outY0 g.outH g.sy g.inH g.padT (ky * g.dy)
def spanX (g : Geom) (kx : Nat) : Option (Nat × Nat) := tapSpan g.outX0 g.outW g.sx g.inW g.padL (kx * g.dx)

/-- The union of spans. -/
def hull (l : List (Nat × Nat)) : Option (Nat × Nat) :=
  match l with
  | [] => none
  | x :: xs => some (xs.foldl (fun a b => (min a.1 b.1, max a.2 b.2)) x)

/-- The footprint, as lowest and highest byte offset from the start address; none when every source position is
padding (R208). -/
def footprint (g : Geom) (w : Nat) : Option (Nat × Nat) :=
  match hull ((List.range g.kh).filterMap g.spanY), hull ((List.range g.kw).filterMap g.spanX) with
  | some y, some x =>
    some ((g.place w (0, y.1, x.1)).1, (g.place w (g.cin - 1, y.2, x.2)).1 + (w / 8 - 1))
  | _, _ => none

/-- The number of pad-only taps (R210). -/
def padTaps (g : Geom) : Nat :=
  g.kh * g.kw - ((List.range g.kh).filterMap g.spanY).length * ((List.range g.kw).filterMap g.spanX).length

end Geom

/-- The checks of a window generator's geometry block (R214). -/
def geomBlockOk (b : List Byte) : Bool :=
  let start := fieldAt b 0 8
  let fmt := fieldAt b 8 1
  let w := (fmtBits fmt).getD 8
  let g := Geom.ofBytes b
  decide (start < 2 ^ 23) && decide (fieldAt b 9 3 = 0) && decide (fieldAt b 0x48 8 = 0) && g.rangesOk w &&
    g.consistent fmt start &&
    (match g.footprint w with | none => true | some f => decide (start + f.2 < 6291456)) &&
    decide (g.n ≤ 65536)

end Sys2Proof.Machine
end

