-- ==== Sys2Proof/Machine/Flits.lean ====
section
/-!
DEFINITION. The 92 bytes of a flit: payload and control field as the transmitter forms them, with their CRC, and as the
receiver checks and reads them; the payloads of the control messages that the spec lays out (R311, R312, R336).
-/
namespace Sys2Proof.Machine

/-- The code of a control message (Table 15-3). -/
def Msg.code : Msg → Nat
  | .doorbell _ _ => 0x01
  | .dist _ | .distA _ => 0x02
  | .distB _ => 0x03
  | .partEnded _ _ _ => 0x04
  | .stop _ | .stopAck _ _ => 0x05
  | .inval _ _ _ _ | .invalAck _ _ => 0x06
  | .semReq _ _ _ | .semAns _ _ => 0x07
  | .pool1 _ _ _ | .pool1Res _ _ _ _ => 0x08
  | .fence _ | .fenceRes _ => 0x09
  | .topology _ _ _ => 0x0A
  | .launch _ => 0x0B
  | .alignReq _ _ | .alignAns _ _ _ => 0x0C
  | .stage _ _ _ _ _ _ => 0x0D
  | .readiness _ => 0x0E

/-- Bytes filled up with zeros to the 64 of a payload. -/
def pad64 (bs : List Byte) : List Byte := bs.take 64 ++ List.replicate (64 - bs.length) 0

/-- The payload of a control message: Table 15-13 lays out 0x0C to 0x0E, and the halves of a distribution record are its
bytes (Table 15-7). The spec lays out no other: those payloads are free values. DESIGN CHOICE, log entry 35. -/
def Msg.payload (m : Msg) : List Byte :=
  match m with
  | .distA bs | .distB bs => pad64 bs
  | .alignReq i a => pad64 (bytesLE 1 0 ++ bytesLE 1 i ++ bytesLE 6 0 ++ bytesLE 8 a.toNat)
  | .alignAns i a b => pad64 (bytesLE 1 1 ++ bytesLE 1 i ++ bytesLE 6 0 ++ bytesLE 8 a.toNat ++ bytesLE 8 b.toNat)
  | .stage cl co ar ls fail deg =>
    pad64 (bytesLE 4 cl ++ bytesLE 4 co ++ bytesLE 4 ar ++ bytesLE 4 ls.toNat ++ bytesLE 2 fail.toNat ++ bytesLE 1 (bit deg))
  | .readiness t => pad64 (bytesLE 8 t.toNat)
  | m => (List.range 64).map (Config.freeByte (2 ^ 128 + m.code))

/-- TYPE of a flit, and its payload: bytes that a TYPE does not use are 0 (Table 15-2). -/
def FlitBody.type : FlitBody → Nat
  | .idle => 0 | .rd => 1 | .wr _ => 2 | .wrm _ => 3 | .wrd _ => 4 | .rdr _ => 5 | .wra => 6 | .err => 7 | .ctl _ => 8
def FlitBody.payload : FlitBody → List Byte
  | .wr bs | .wrd bs | .rdr bs => pad64 bs
  | .wrm m => pad64 (bytesLE 8 m.toNat)
  | .ctl m => m.payload
  | _ => pad64 []

/-- The control field of a flit but for its CRC (Table 15-2). -/
def Flit.control (f : Flit) : List Byte :=
  let cret := (List.range 7).foldl (fun v i => v + place (f.cret.getD i 0 % 16) (4 * i)) 0
  let ack := place (f.ack.getD 0 % 1024) 0 + place (bit f.ack.isSome) 14 + place (bit f.nak.isSome) 15
  let addr := match f.body with
    | .ctl m => m.code
    | _ => f.addr / 64 % 2 ^ 46
  bytesLE 1 f.body.type ++ bytesLE 1 (place (f.dst % 8) 5 + place (f.src % 8) 2 + f.level % 4) ++ bytesLE 2 (f.seq % 1024) ++
    bytesLE 2 ack ++ bytesLE 4 cret ++ bytesLE 2 (f.tag % 8192) ++ bytesLE 2 (f.ctx % 16384) ++
    bytesLE 2 (f.partition % 16) ++ bytesLE 8 addr

/-- The 92 bytes that the transmitter sends: payload, control field, and CRC over both (R311, R336). -/
def Flit.raw (f : Flit) : List Byte :=
  let bs := f.body.payload ++ f.control
  bs ++ bytesLE 4 (crc32c bs).toNat

/-- A flit received as 64 payload bytes and 28 control bytes is bad: its CRC fails, or its TYPE or ROUTE is reserved
(Table 15-2). DESIGN CHOICE, log entry 35. -/
def flitBad (raw : List Byte) : Bool :=
  let type := fieldAt raw 64 1
  let level := fieldAt raw 65 1 % 4
  decide (raw.length ≠ 92) || decide ((crc32c (raw.take 88)).toNat ≠ fieldAt raw 88 4) || decide (8 < type) ||
    (decide (type = 0) != decide (level = 0))

/-- What the receiver reads from the bytes of a good flit. What a control message says is taken from the flit `f` that was
sent, where that is one. DESIGN CHOICE, log entry 35. -/
def Flit.ofRaw (f : Flit) (raw : List Byte) : Flit :=
  let data := raw.take 64
  let route := fieldAt raw 65 1
  let ack := fieldAt raw 68 2
  { f with
    body := match fieldAt raw 64 1 with
      | 1 => .rd
      | 2 => .wr data
      | 3 => .wrm (BitVec.ofNat 64 (fieldAt raw 0 8))
      | 4 => .wrd data
      | 5 => .rdr data
      | 6 => .wra
      | 7 => .err
      | 8 => match f.body with
        | .ctl m => .ctl m
        | _ => .idle
      | _ => .idle
    dst := field route 7 5
    src := field route 4 2
    level := field route 1 0
    seq := field (fieldAt raw 66 2) 9 0
    ack := if bitAt ack 14 then some (field ack 9 0) else none
    nak := if bitAt ack 15 then some (field ack 9 0) else none
    cret := (List.range 7).map fun i => field (fieldAt raw 70 4) (4 * i + 3) (4 * i)
    tag := field (fieldAt raw 74 2) 12 0
    ctx := field (fieldAt raw 76 2) 13 0
    partition := field (fieldAt raw 78 2) 3 0
    addr := 64 * field (fieldAt raw 80 8) 45 0 }

end Sys2Proof.Machine
end

