-- ==== Sys2Proof/Machine/Crypto.lean ====
section
/-!
DEFINITION. The cryptography that the spec names by its standards, computed: SHA-256 and ECDSA P-256 (R397), AES-128 with
CMAC (R409) and the key wrap of RFC 3394 (R410). DEDUCED, log entry 9.
-/
namespace Sys2Proof.Machine

/-- A number as big-endian bytes, and the number of a string of big-endian bytes. -/
def bytesBE (n v : Nat) : List Byte := (bytesLE n v).reverse
def ofBytesBE (bs : List Byte) : Nat := ofBytesLE bs.reverse

/-- The round constants of SHA-256. -/
def shaK : List W32 :=
  [0x428A2F98, 0x71374491, 0xB5C0FBCF, 0xE9B5DBA5, 0x3956C25B, 0x59F111F1, 0x923F82A4, 0xAB1C5ED5,
   0xD807AA98, 0x12835B01, 0x243185BE, 0x550C7DC3, 0x72BE5D74, 0x80DEB1FE, 0x9BDC06A7, 0xC19BF174] ++
  [0xE49B69C1, 0xEFBE4786, 0x0FC19DC6, 0x240CA1CC, 0x2DE92C6F, 0x4A7484AA, 0x5CB0A9DC, 0x76F988DA,
   0x983E5152, 0xA831C66D, 0xB00327C8, 0xBF597FC7, 0xC6E00BF3, 0xD5A79147, 0x06CA6351, 0x14292967] ++
  [0x27B70A85, 0x2E1B2138, 0x4D2C6DFC, 0x53380D13, 0x650A7354, 0x766A0ABB, 0x81C2C92E, 0x92722C85,
   0xA2BFE8A1, 0xA81A664B, 0xC24B8B70, 0xC76C51A3, 0xD192E819, 0xD6990624, 0xF40E3585, 0x106AA070] ++
  [0x19A4C116, 0x1E376C08, 0x2748774C, 0x34B0BCB5, 0x391C0CB3, 0x4ED8AA4A, 0x5B9CCA4F, 0x682E6FF3,
   0x748F82EE, 0x78A5636F, 0x84C87814, 0x8CC70208, 0x90BEFFFA, 0xA4506CEB, 0xBEF9A3F7, 0xC67178F2]

/-- The initial digest of SHA-256. -/
def shaH : List W32 :=
  [0x6A09E667, 0xBB67AE85, 0x3C6EF372, 0xA54FF53A, 0x510E527F, 0x9B05688C, 0x1F83D9AB, 0x5BE0CD19]

/-- The next word of the message schedule; the words so far stand newest first. -/
def shaSched (w : List W32) : W32 :=
  let a := w.getD 14 0
  let b := w.getD 1 0
  w.getD 15 0 + (a.rotateRight 7 ^^^ a.rotateRight 18 ^^^ a >>> 3) + w.getD 6 0 +
    (b.rotateRight 17 ^^^ b.rotateRight 19 ^^^ b >>> 10)

/-- The sixteen words of a block and the schedule that follows them, newest first. -/
def shaWords : Nat → List W32 → List W32
  | 0, w => w
  | n + 1, w => shaWords n (shaSched w :: w)

/-- One round of SHA-256 on the eight working words. -/
def shaRound (v : List W32) (kw : W32 × W32) : List W32 :=
  match v with
  | [a, b, c, d, e, f, g, h] =>
    let t1 := h + (e.rotateRight 6 ^^^ e.rotateRight 11 ^^^ e.rotateRight 25) + ((e &&& f) ^^^ (~~~e &&& g)) + kw.1 + kw.2
    let t2 := (a.rotateRight 2 ^^^ a.rotateRight 13 ^^^ a.rotateRight 22) + ((a &&& b) ^^^ (a &&& c) ^^^ (b &&& c))
    [t1 + t2, a, b, c, d + t1, e, f, g]
  | _ => v

/-- One block of 64 bytes. -/
def shaBlock (h : List W32) (block : List Byte) : List W32 :=
  let w0 := (List.range 16).map fun i => BitVec.ofNat 32 (ofBytesBE ((block.drop (4 * i)).take 4))
  let w := (shaWords 48 w0.reverse).reverse
  List.zipWith (· + ·) h ((shaK.zip w).foldl shaRound h)

/-- SHA-256 of a string of bytes, as its 32 bytes (R397). -/
def sha256 (bs : List Byte) : List Byte :=
  let n := bs.length
  let m := bs ++ [0x80] ++ List.replicate ((119 - n % 64) % 64) 0 ++ bytesBE 8 (8 * n)
  ((List.range (m.length / 64)).foldl (fun h i => shaBlock h ((m.drop (64 * i)).take 64)) shaH).flatMap fun x =>
    bytesBE 4 x.toNat

/-- The field prime, the order and the coefficient b of P-256. -/
def p256P : Nat := 0xFFFFFFFF00000001000000000000000000000000FFFFFFFFFFFFFFFFFFFFFFFF
def p256N : Nat := 0xFFFFFFFF00000000FFFFFFFFFFFFFFFFBCE6FAADA7179E84F3B9CAC2FC632551
def p256B : Nat := 0x5AC635D8AA3A93E7B3EBBD55769886BC651D06B0CC53B0F63BCE3C3E27D2604B

/-- The base point of P-256. -/
def p256G : Nat × Nat :=
  (0x6B17D1F2E12C4247F8BCE6E563A440F277037D812DEB33A0F4A13945D898C296,
   0x4FE342E2FE1A7F9B8EE7EB4A7C0F9E162BCE33576B315ECECBB6406837BF51F5)

/-- A power modulo a number, by the 256 bits of the exponent, the highest first. -/
def powMod (m b e : Nat) : Nat :=
  (List.range 256).foldl (fun r i => if e.testBit (255 - i) then r * r % m * b % m else r * r % m) 1

/-- An inverse modulo a prime. -/
def invMod (m a : Nat) : Nat := powMod m (a % m) (m - 2)

/-- A point is on the curve, with coordinates in the field. -/
def p256On (q : Nat × Nat) : Bool :=
  decide (q.1 < p256P) && decide (q.2 < p256P) &&
    decide (q.2 * q.2 % p256P = (q.1 * q.1 * q.1 + (p256P - 3) * q.1 + p256B) % p256P)

/-- The sum of two points; none is the point at infinity. -/
def p256Add : Option (Nat × Nat) → Option (Nat × Nat) → Option (Nat × Nat)
  | none, q => q
  | q, none => q
  | some a, some b =>
    let sum := fun (k : Nat) =>
      let x := (k * k + 2 * p256P - a.1 - b.1) % p256P
      some (x, (k * (a.1 + p256P - x) + p256P - a.2) % p256P)
    if a.1 ≠ b.1 then sum ((b.2 + p256P - a.2) * invMod p256P (b.1 + p256P - a.1) % p256P)
    else if a.2 = b.2 ∧ a.2 ≠ 0 then sum ((3 * a.1 * a.1 + p256P - 3) * invMod p256P (2 * a.2) % p256P)
    else none

/-- A multiple of a point. -/
def p256Mul (k : Nat) (q : Nat × Nat) : Option (Nat × Nat) :=
  (List.range 256).foldl (fun r i =>
    let r := p256Add r r
    if k.testBit (255 - i) then p256Add r (some q) else r) none

/-- ECDSA P-256: the signature r, then s, is good over a digest under a public key (R397, Table 21-1). -/
def ecdsaOk (q : Nat × Nat) (digest sig : List Byte) : Bool :=
  let r := ofBytesBE (sig.take 32)
  let t := ofBytesBE ((sig.drop 32).take 32)
  let w := invMod p256N t
  p256On q && decide (0 < r) && decide (r < p256N) && decide (0 < t) && decide (t < p256N) &&
    match p256Add (p256Mul (ofBytesBE digest * w % p256N) p256G) (p256Mul (r * w % p256N) q) with
    | some x => decide (x.1 % p256N = r)
    | none => false

/-- A byte times x, and the product of two bytes, in the field of AES. -/
def aesDouble (b : Byte) : Byte := (b <<< 1) ^^^ (if b.msb then 0x1B else 0)
def aesTimes (a b : Byte) : Byte :=
  ((List.range 8).foldl (fun (acc : Byte × Byte) i =>
    (if b.getLsbD i then acc.1 ^^^ acc.2 else acc.1, aesDouble acc.2)) (0, a)).1

/-- The substitution table of AES, 32 bytes a row, the lowest first: the inverse of a byte in the field (0 for 0), then the affine
map. -/
def aesSbox : List Nat :=
  [0xC072A49CAFA2D4ADF04759FA7DC982CA76ABD7FE2B670130C56F6BF27B777C63,
   0x75B227EBE28012079A059618C323C7041531D871F1E5A534CCF73F362693FDB7,
   0xCF584C4A39BECB6A5BB1FC20ED00D153842FE329B3D63B52A05A6E1B1A2C8309,
   0xD2F3FF1021DAB6BCF5389D928F40A351A89F3C507F02F94585334D43FBAAEFD0,
   0xDB0B5EDE14B8EE4688902A22DC4F816073195D643D7EA7C41744975FEC130CCD,
   0x08AE7A65EAF4566CA94ED58D6D37C8E779E4959162ACD3C25C2406490A3A32E0,
   0x9E1DC186B95735610EF6034866B53E708A8BBD4B1F74DDE8C6B4A61C2E2578BA,
   0x16BB54B00F2D99416842E6BF0D89A18CDF2855CEE9871E9B948ED9691198F8E1]
/-- The inverse of the table. -/
def aesSboxInv : List Nat :=
  [0xCBE9DEC444438E3487FF2F9B8239E37CFBD7F3819EA340BF38A53630D56A0952,
   0x25D18B6D49A25B76B224D92866A12E084EC3FA420B954CEE3D23C2A632947B54,
   0x849D8DA75746155EDAB9EDFD5048706C92B6655DCC5CA4D41698688664F6F872,
   0x6B8A130103BDAFC1020F3FCA8F1E2CD00645B3B80558E4F70AD3BC8C00ABD890,
   0x6EDF751CE837F9E28535ADE72274AC9673E6B4F0CECFF297EADC674F4111913A,
   0xF45ACD78FEC0DB9A2079D2C64B3E56FC1BBE18AA0E62B76F89C5291D711AF147,
   0xEF9CC9939F7AE52D0D4AB519A97F51605FEC8027591012B131C7078833A8DD1F,
   0x7D0C2155631469E126D677BA7E042B17619953833CBBEBC8B0F52AAE4D3BE0A0]

/-- SubBytes of a byte, and its inverse. -/
def byteOf (table : List Nat) (b : Byte) : Byte :=
  BitVec.ofNat 8 (table.getD (b.toNat / 32) 0 >>> (8 * (b.toNat % 32)))
def aesSub (b : Byte) : Byte := byteOf aesSbox b
def aesUnsub (b : Byte) : Byte := byteOf aesSboxInv b

/-- ShiftRows by a number of columns for each row. -/
def aesShift (n : Nat) (b : List Byte) : List Byte :=
  (List.range 16).map fun i => b.getD ((i + 4 * (n * (i % 4))) % 16) 0

/-- MixColumns with the first row of a matrix whose rows rotate. -/
def aesMix (m : List Byte) (b : List Byte) : List Byte :=
  (List.range 16).map fun i => (List.range 4).foldl (fun acc k =>
    acc ^^^ aesTimes (m.getD ((k + 4 - i % 4) % 4) 0) (b.getD (i / 4 * 4 + k) 0)) 0

/-- Two strings of bytes added. -/
def xorBytes (a b : List Byte) : List Byte := List.zipWith (· ^^^ ·) a b

/-- The next round key of AES-128. -/
def aesNextKey (rcon : Byte) (k : List Byte) : List Byte :=
  let t := xorBytes ([13, 14, 15, 12].map fun i => aesSub (k.getD i 0)) [rcon, 0, 0, 0]
  let w0 := xorBytes (k.take 4) t
  let w1 := xorBytes ((k.drop 4).take 4) w0
  let w2 := xorBytes ((k.drop 8).take 4) w1
  w0 ++ w1 ++ w2 ++ xorBytes (k.drop 12) w2

/-- The round keys of AES-128, the key first. -/
def aesKeys : Nat → Byte → List Byte → List (List Byte)
  | 0, _, k => [k]
  | n + 1, rcon, k => k :: aesKeys n (aesDouble rcon) (aesNextKey rcon k)

/-- AES-128 of a block of 16 bytes, and its inverse. -/
def aesEncrypt (key b : List Byte) : List Byte :=
  let ks := aesKeys 10 1 key
  let b := ((ks.drop 1).take 9).foldl (fun b k => xorBytes (aesMix [2, 3, 1, 1] (aesShift 1 (b.map aesSub))) k)
    (xorBytes b key)
  xorBytes (aesShift 1 (b.map aesSub)) (ks.getD 10 [])
def aesDecrypt (key b : List Byte) : List Byte :=
  let ks := (aesKeys 10 1 key).reverse
  let b := (aesShift 3 (xorBytes b (ks.getD 0 []))).map aesUnsub
  let b := ((ks.drop 1).take 9).foldl (fun b k => (aesShift 3 (aesMix [14, 11, 13, 9] (xorBytes b k))).map aesUnsub) b
  xorBytes b key

/-- A subkey of CMAC from the block before it. -/
def cmacDouble (b : List Byte) : List Byte :=
  let v := ofBytesBE b
  bytesBE 16 ((2 * v % 2 ^ 128) ^^^ (if 2 ^ 127 ≤ v then 0x87 else 0))

/-- AES-CMAC with a full tag (R409, Table 21-8). -/
def aesCmac (key msg : List Byte) : List Byte :=
  let k1 := cmacDouble (aesEncrypt key (List.replicate 16 0))
  let n := (msg.length - 1) / 16
  let rest := msg.drop (16 * n)
  let last := if rest.length = 16 then xorBytes rest k1
    else xorBytes (rest ++ [0x80] ++ List.replicate (15 - rest.length) 0) (cmacDouble k1)
  let x := (List.range n).foldl (fun x i => aesEncrypt key (xorBytes x ((msg.drop (16 * i)).take 16))) (List.replicate 16 0)
  aesEncrypt key (xorBytes x last)

/-- Step `t` of a key wrap on the register A and the two halves, in its turn (RFC 3394). -/
def wrapStep (kek : List Byte) (x : List Byte × List Byte × List Byte) (t : Nat) : List Byte × List Byte × List Byte :=
  let b := aesEncrypt kek (x.1 ++ x.2.1)
  (xorBytes (b.take 8) (bytesBE 8 t), x.2.2, b.drop 8)
def unwrapStep (kek : List Byte) (x : List Byte × List Byte × List Byte) (t : Nat) : List Byte × List Byte × List Byte :=
  let b := aesDecrypt kek (xorBytes x.1 (bytesBE 8 t) ++ x.2.2)
  (b.take 8, b.drop 8, x.2.1)

/-- AES key wrap of a key of 16 bytes (R410). -/
def keyWrap (kek key : List Byte) : List Byte :=
  let r := (List.range 12).foldl (fun x i => wrapStep kek x (i + 1)) (List.replicate 8 0xA6, key.take 8, key.drop 8)
  r.1 ++ r.2.1 ++ r.2.2

/-- AES key unwrap; none where the integrity check fails (R410). -/
def keyUnwrap (kek w : List Byte) : Option (List Byte) :=
  let r := (List.range 12).foldl (fun x i => unwrapStep kek x (12 - i)) (w.take 8, (w.drop 8).take 8, w.drop 16)
  if r.1 = List.replicate 8 0xA6 then some (r.2.1 ++ r.2.2) else none

end Sys2Proof.Machine
end

