-- ==== Sys2Proof/Machine/DictOps.lean ====
section
/-!
DEFINITION. The object dictionary as a table: every object's type, rights, default, persistence and group
(R400, Tables 21-11, 23-4, 24-5, 22-8), its committed value, and the fields of PART_CFG and OWN_WIN.
-/
namespace Sys2Proof.Machine

/-- Attributes of a dictionary object (R400): width in bits, type code, rights of driver, partition, network and
safety manager (0 none, 1 read, 2 write, 3 both), default, persistent, group. -/
structure ObjAttr where
  bits : Nat
  type : Nat
  rd : Nat
  rp : Nat
  rn : Nat
  rs : Nat
  dflt : Nat
  persistent : Bool
  group : Nat
  deriving DecidableEq, Repr

/-- The key of object 0xIIII.SS. -/
def objKey (index sub : Nat) : Nat := index * 256 + sub

/-- PART_CFG of partition 0 by default (Table 13-6): SLICE 0xC350, shares of 16, ENABLE. -/
def partCfg0 : Nat :=
  place 0xC350 32 + place 16 27 + place 16 22 + place 16 17 + place 16 12 + 1

/-- Window 0 of die `d` by default (Table 14-3). -/
def ownWin0 (d : Nat) : Nat :=
  place (d * 0x10000000 + 0x0FFFFFFF) 66 + place (d * 0x10000000) 33 + place 1 32 + place 0xFFFF 16 + 0xFFFF

/-- The other windows by default: CTX 0xFFFF. -/
def ownWinRest : Nat := place 0xFFFF 16

/-- The attributes of an object of die `die` in a package of `dies` dies; none where no table lists the object
(R414, R444, R453). -/
def objAttr (dies die index sub : Nat) : Option ObjAttr :=
  let u8 := fun rd rp rn rs dflt pe g => some (ObjAttr.mk 8 1 rd rp rn rs dflt pe g)
  let u16 := fun rd rp rn rs dflt pe g => some (ObjAttr.mk 16 2 rd rp rn rs dflt pe g)
  let u32 := fun rd rp rn rs dflt pe g => some (ObjAttr.mk 32 3 rd rp rn rs dflt pe g)
  let u64 := fun rd rp rn rs dflt pe g => some (ObjAttr.mk 64 4 rd rp rn rs dflt pe g)
  let u128 := fun rd rp rn rs dflt pe g => some (ObjAttr.mk 128 5 rd rp rn rs dflt pe g)
  if 0x2B00 ≤ index ∧ index ≤ 0x2B0F then
    if sub = 1 then u64 3 1 0 3 (if index = 0x2B00 then partCfg0 else 0) false (0x10 + (index - 0x2B00)) else none
  else if 0x2C00 ≤ index ∧ index ≤ 0x2C07 then
    if index - 0x2C00 < dies ∧ 1 ≤ sub ∧ sub ≤ 64 then
      u128 3 0 0 3 (if sub = 1 then ownWin0 (index - 0x2C00) else ownWinRest) false (0x20 + (index - 0x2C00))
    else none
  else if 0x2E20 ≤ index ∧ index ≤ 0x2E3F then
    if sub = 1 then u64 3 0 1 3 0 true 0
    else if sub = 2 ∨ sub = 3 ∨ sub = 4 ∨ sub = 5 ∨ (0x10 ≤ sub ∧ sub ≤ 0x4F) then
      u64 1 0 1 1 (if sub = 4 then 0x800000007FFFFFFF else 0) false 0
    else none
  else
    match objKey index sub with
    | 0x100000 => u32 1 1 1 1 0x00030001 false 0
    | 0x100100 => u32 1 1 1 1 0 false 0
    | 0x100200 => u8 1 1 1 1 die false 0
    | 0x100300 => u64 1 0 1 1 (Config.serial die).toNat false 0
    | 0x100401 => u128 1 0 1 1 (ofBytesLE ((sha256 (Config.romKeyBytes die)).take 16)) false 0
    | 0x100402 => u128 1 0 1 1 (ofBytesLE ((sha256 (Config.romKeyBytes die)).drop 16)) false 0
    | 0x101000 => u64 1 1 1 1 0 false 0
    | 0x101100 => u64 1 0 1 1 0 false 0
    | 0x101200 => u8 2 0 0 2 0 false 0
    | 0x1E0000 => some ⟨128, 6, 0, 0, 0, 2, 0, true, 0⟩
    | 0x1E0100 => some ⟨128, 6, 0, 0, 0, 2, 0, true, 0⟩
    | 0x2A1000 => u8 1 1 1 3 2 true 0
    | 0x2A2000 => u16 3 1 1 3 150 true 0
    | 0x2A3000 => u16 1 0 1 3 500 true 0
    | 0x2A4000 => u64 1 1 1 3 0x000000000000E000 false 0
    | 0x2A4100 => u32 1 0 1 3 100000 true 0
    | 0x2A5000 => u8 3 0 1 3 0x64 true 1
    | 0x2A5100 => u8 1 0 1 3 0xA0 true 1
    | 0x2A5200 => u8 3 0 1 3 4 true 0
    | 0x2D0000 => u64 1 1 1 3 0 false 0
    | 0x2D0100 => u32 3 0 1 3 0x00FD0001 true 0x30
    | 0x2D0200 => u64 3 0 1 3 (Config.macAddr die).toNat true 0x30
    | 0x2D0300 => u32 3 0 1 3 0 true 0x30
    | 0x2D0400 => u32 3 0 1 3 0 true 0x30
    | 0x2D0500 => u128 2 0 0 2 0 false 0
    | 0x2D0600 => u32 3 1 1 3 0 false 0
    | 0x2D0700 => u8 0 0 0 2 0 false 0
    | 0x2D0800 => u128 1 1 1 1 0 false 0
    | 0x2D0900 => u128 1 1 1 1 0 false 0
    | 0x2D0A00 => u128 1 1 1 1 0 false 0
    | 0x2D0B00 => u32 3 0 1 3 1000 true 0
    | 0x2E0000 => u64 2 0 0 2 0 false 0
    | 0x2F0000 => u64 1 0 1 3 0 false 0
    | 0x2F0100 => u64 1 0 1 1 0 false 0
    | 0x2F0200 => u8 0 0 0 2 0 false 0
    | _ => none

namespace State

/-- The committed value of an object in a die's dictionary store; the default where none is stored (R402). -/
def objVal (s : State) (d : DieId) (index sub : Nat) : Nat :=
  match (s.steward d).dict.find? (objKey index sub) with
  | some v => v.toNat
  | none =>
    match objAttr s.build.dies d.val index sub with
    | some a => a.dflt
    | none => 0

/-- PART_CFG of a partition. The objects of partitions and windows name the whole package, so every die uses the
committed values of die 0's dictionary (log entry 6). -/
def partCfg (s : State) (p : Nat) : Nat := s.objVal die0 (0x2B00 + p) 1

/-- Fields of PART_CFG (Table 13-6). -/
def partEnabled (s : State) (p : Nat) : Bool := decide (p < 16) && bitAt (s.partCfg p) 0
def partSafety (s : State) (p : Nat) : Bool := s.partEnabled p && bitAt (s.partCfg p) 1
def slotMin (s : State) (p : Nat) : Nat := field (s.partCfg p) 11 8
def readShare (s : State) (p : Nat) : Nat := field (s.partCfg p) 16 12
def writeShare (s : State) (p : Nat) : Nat := field (s.partCfg p) 21 17
def remoteShare (s : State) (p : Nat) : Nat := field (s.partCfg p) 26 22
def coreShare (s : State) (p : Nat) : Nat := field (s.partCfg p) 31 27
def sliceOf (s : State) (p : Nat) : Nat := field (s.partCfg p) 55 32

/-- Whether a window value admits a granule for a partition and a context (R287). -/
def winAdmits (v pa partition ctx : Nat) : Bool :=
  let g := pa / 64 * 64
  bitAt v 32 && decide (field v 63 33 * 2 ^ 21 ≤ g) && decide (g + 63 < (field v 96 66 + 1) * 2 ^ 21) &&
    bitAt (field v 15 0) partition && (decide (field v 31 16 = 0xFFFF) || decide (field v 31 16 = ctx))

/-- Whether some ownership window of the serving die admits a request (R287). DEDUCED, log entry 6. -/
def ownAdmits (s : State) (serving : DieId) (pa partition ctx : Nat) : Bool :=
  (List.range 64).any fun k => winAdmits (s.objVal die0 (0x2C00 + serving.val) (k + 1)) pa partition ctx

end State

end Sys2Proof.Machine
end

