-- ==== Sys2Proof/Machine/SafetyOps.lean ====
section
/-!
DEFINITION. Fault reports to the steward: causes of SAFE_STAT, SSR_LATCH, EVENT records, and the safety outputs
(R376, R377, R379 to R381, Table 19-3).
-/
namespace Sys2Proof.Machine

/-- The CAUSE bit of SAFE_STAT that a fault code sets, and whether the code sets SSR_LATCH (Tables 19-2, 19-3,
21-12, 22-8, 25-13). -/
def causeOf (code : Nat) : Option Nat × Bool :=
  match code with
  | 0x0201 => (some 5, false)
  | 0x0202 => (some 4, false)
  | 0x0203 => (some 3, true)
  | 0x0410 => (some 9, false)
  | 0x0540 => (some 10, false)
  | 0x0541 => (some 10, false)
  | 0x1402 => (some 6, false)
  | 0x1502 => (some 7, false)
  | 0x1503 => (some 7, false)
  | 0x1505 => (some 7, true)
  | 0x1701 => (some 5, false)
  | 0x1702 => (some 5, false)
  | 0x1802 => (some 10, false)
  | 0x1804 => (some 2, true)
  | 0x1901 => (some 11, false)
  | 0x1902 => (some 11, false)
  | 0x1903 => (some 12, true)
  | 0x2002 => (some 4, false)
  | 0x2003 => (some 12, false)
  | 0x2101 => (some 12, false)
  | 0x2102 => (some 12, true)
  | 0x2201 => (some 12, true)
  | 0x2202 => (some 12, false)
  | 0x2502 => (some 12, true)
  | _ => (none, false)

/-- The cause that a loss of a safety-class context through a fault sets: the cause of its code, CAUSE_STORE for a
store or image error, else CAUSE_LOSS (R381). -/
def lossCause (code : Nat) : Nat :=
  if code = 0x0810 ∨ code = 0x0811 ∨ code = 0x0813 then 8 else (causeOf code).1.getD 1

namespace State

/-- Whether the error pair is driven to ERROR (R377). -/
def errDriven (s : State) (d : DieId) : Bool :=
  let f := (s.steward d).safety
  decide (f.causes ≠ 0) || f.ssrLatch || !(s.die d).readyPin

/-- The error pair has been driven to its state since the present count, where that is not what it was (R377). -/
def noteErr (s : State) (d : DieId) (was : Bool) : State :=
  if s.errDriven d = was then s
  else
    let k := s.steward d
    s.setSteward d { k with safety := { k.safety with errAt := (s.die d).ticks } }

/-- Set a CAUSE bit: FIRST_CODE takes the code when no cause was set, and EVENTS counts the setting (R380). -/
def setCause (s : State) (d : DieId) (bitNo code : Nat) (ssr : Bool) : State :=
  let k := s.steward d
  let f := k.safety
  s.setSteward d { k with safety := { f with
    firstCode := if f.causes = 0 then BitVec.ofNat 16 code else f.firstCode
    events := satInc f.events
    causes := f.causes ||| BitVec.ofNat 13 (2 ^ bitNo)
    ssrLatch := f.ssrLatch || ssr
    errAt := if s.errDriven d then f.errAt else (s.die d).ticks } }

/-- Queue a record for the journal (R421). -/
def journal (s : State) (d : DieId) (kind : Nat) (payload : List Byte) (after : JrnAfter := .none) : State :=
  let k := s.steward d
  s.setSteward d { k with journal := { k.journal with
    queue := k.journal.queue ++ [{ kind := kind, payload := payload, after := after }] } }

/-- Record an event in the journal; a repeat of a code within 100,000,000 counts is counted, not written
(Table 22-5). -/
def eventRecord (s : State) (d : DieId) (code info : Nat) : State :=
  let k := s.steward d
  match k.eventAt.find? code with
  | some t =>
    if s.since d t < 100000000 then
      s.setSteward d { k with eventRepeats := k.eventRepeats.put code (k.eventRepeats.get 0 code + 1) }
    else fresh k
  | none => fresh k
where
  /-- The first event of a code in 100,000,000 counts. -/
  fresh (k : Steward) : State :=
    (s.setSteward d { k with eventAt := k.eventAt.put code (s.die d).ticks }).journal d 0x05
      (bytesLE 2 code ++ bytesLE 6 0 ++ bytesLE 8 info ++ bytesLE 8 (s.die d).count.toNat)

/-- The codes whose events the journal records: those of Table 19-3, and F-2001 to F-2003 (Table 22-5). -/
def journaled : List Nat :=
  [0x0201, 0x0202, 0x0203, 0x0410, 0x0540, 0x0541, 0x0812, 0x1402, 0x1501, 0x1502, 0x1503, 0x1505, 0x1701, 0x1702, 0x1802,
    0x1804, 0x1901, 0x1902, 0x1903, 0x2001, 0x2002, 0x2003]

/-- Report a fault to the steward of a die: its cause, and its EVENT record where the journal has one of it (R381, R421). -/
def report (s : State) (d : DieId) (code info : Nat) : State :=
  let c := causeOf code
  let s := match c.1 with
    | some b => s.setCause d b code c.2
    | none => s
  if journaled.contains code then s.eventRecord d code info else s

/-- Report a fault whose INFO the spec does not state: a free value. DESIGN CHOICE, log entry 13. -/
def reportFree (s : State) (d : DieId) (code : Nat) : State :=
  let f := s.draw
  f.2.report d code (Config.freeNat f.1)

/-- Whether a die reaches another over its routes (R319). -/
def reaches (s : State) (d : DieId) (e : Nat) : Bool :=
  decide (e = d.val) || ((s.die d).routes.find? e).isSome

/-- READY: high from the readiness report, and low while the compute part is held in reset under R31 or R359 (Tables 25-8,
25-11). -/
def readyHigh (s : State) (d : DieId) : Bool :=
  let k := s.die d
  k.readyPin && !k.heldSupply && !k.heldLadder

/-- Whether SAFE_SSR is asserted (R379). -/
def ssrAsserted (s : State) (d : DieId) : Bool :=
  let f := (s.steward d).safety
  let k := s.die d
  !k.readyPin || k.heldSupply || k.heldLadder || f.f0201 || (decide (d = die0) && k.dieReset) ||
    !s.reaches d 0 || f.ssrLatch

/-- SAFE_STAT (Table 19-2). -/
def safeStat (s : State) (d : DieId) : Nat :=
  let f := (s.steward d).safety
  place f.firstCode.toNat 48 + place f.events.toNat 32 + place (bit (s.ssrAsserted d)) 15 +
    place (bit (s.errDriven d)) 14 + place (bit f.ssrLatch) 13 + f.causes.toNat

end State

end Sys2Proof.Machine
end

