-- ==== Sys2Proof/Machine/Cuff.lean ====
section
/-!
DEFINITION. The Cuff regulators of the Peat paths and the Mitten directions: the choice of a partition for a slot, and
the requests that are sent ahead of it (R167, R273, R456).
-/
namespace Sys2Proof.Machine

/-- The Peat port that serves a physical address (R456). -/
def portOf (pa : Nat) : Nat := (field pa 10 8) ^^^ (field pa 13 11)

/-- The path number of a Peat port's reads or writes, and of a link's direction out of a die. -/
def peatPath (port : Nat) (write : Bool) : Nat := port * 2 + bit write
def linkPath (link : Nat) : Nat := 16 + link

/-- The next of a list in rotation after the one served last. -/
def nextAfter (last : Nat) (l : List Nat) : Option Nat :=
  match (l.filter (last < ·)).min? with
  | some x => some x
  | none => l.min?

namespace State

/-- The share of a partition on a kind of path, in sixteenths (Table 13-6). -/
def cuffShare (s : State) (path p : Nat) : Nat :=
  if 16 ≤ path then s.remoteShare p else if path % 2 = 0 then s.readShare p else s.writeShare p

/-- B[p] of a Cuff, in sixteenths. -/
def cuffB (s : State) (d : DieId) (path p : Nat) : Int := (s.die d).cuff.get 0 (path * 16 + p)

/-- B[p] changed. -/
def setCuffB (s : State) (d : DieId) (path p : Nat) (v : Int) : State :=
  s.setDie d { s.die d with cuff := (s.die d).cuff.setD 0 (path * 16 + p) v }

/-- The cycles of a path in a number of timebase counts of 10 ns: of the port clock, or of the PHY interface clock of a link,
which is its lane rate over 16 (R273, R310, R455). -/
def cuffCycles (s : State) (d : DieId) (path counts : Nat) : Nat :=
  if 16 ≤ path then
    counts * 10 * [4, 8, 12, 16, 24, 32].getD ((s.die d).linkRate.get 5 (path - 16)) 4 / 16
  else (800 + Config.portClock % 1201) * counts / 100

/-- The slots of a path from the end of its last one to the end of the present one: those that no request took count too
(R273). DEDUCED, log entry 68. -/
def cuffSlots (s : State) (d : DieId) (path : Nat) : Nat :=
  max 1 (s.cuffCycles d path ((s.die d).ticks - (s.die d).cuffAt.get 0 path))

/-- `n` slots start: every enabled partition gains its share for each, up to 64 (R273). -/
def cuffRefill (s : State) (d : DieId) (path n : Nat) : State :=
  let s := s.setDie d { s.die d with cuffAt := (s.die d).cuffAt.setD 0 path (s.die d).ticks }
  (List.range 16).foldl (fun s p =>
    if s.partEnabled p then s.setCuffB d path p (min (s.cuffB d path p + s.cuffShare path p * n) 1024) else s) s

/-- The partition that takes a slot among those with a request waiting, and the state after the slot (R273).
DEDUCED, log entry 68. -/
def cuffSlot (s : State) (d : DieId) (path : Nat) (ready : List Nat) : State × Option Nat :=
  let s := s.cuffRefill d path (s.cuffSlots d path)
  let due := ready.filter fun p => decide (16 ≤ s.cuffB d path p)
  let last := (s.die d).cuffLast.get 0 path
  let serve := fun (t : State) p => t.setDie d { t.die d with cuffLast := (t.die d).cuffLast.put path p }
  match due.find? s.partSafety, nextAfter last due with
  | some p, _ => (serve (s.setCuffB d path p (s.cuffB d path p - 16)) p, some p)
  | none, some p => (serve (s.setCuffB d path p (s.cuffB d path p - 16)) p, some p)
  | none, none =>
    match nextAfter last ready with
    | some p => (serve s p, some p)
    | none => (s, none)

/-- B[p] after `n` slots that its partition takes one after another: sent without waiting, B may fall as low as -64; else a
slot taken below 1 is a spare one (R273). -/
def takeB (share : Nat) (ahead : Bool) : Nat → Int → Int
  | 0, b => b
  | n + 1, b =>
    let c := min (b + share) 1024
    takeB share ahead n (if ahead then max (c - 16) (-1024) else if 16 ≤ c then c - 16 else c)

/-- Requests of one partition take `n` slots of a path, one after another: of a unit that no Cuff holds back, or of one that
waits its turn (R167, R273). DEDUCED, log entry 68. -/
def cuffTake (s : State) (d : DieId) (path p n : Nat) (ahead : Bool) : State :=
  if n = 0 then s
  else
    let s := s.cuffRefill d path (s.cuffSlots d path - 1)
    let share := if s.partEnabled p then s.cuffShare path p else 0
    let b := takeB share ahead n (s.cuffB d path p)
    let s := (s.cuffRefill d path n).setCuffB d path p b
    if ahead then s else s.setDie d { s.die d with cuffLast := (s.die d).cuffLast.put path p }

/-- The slots that have passed at every Cuff gain the shares that were in force: changed ones take effect from the next slot
(R272). -/
def settleCuffs (s : State) : State :=
  s.allDies.foldl (fun s d => (List.range 20).foldl (fun s path =>
    let n := s.cuffCycles d path ((s.die d).ticks - (s.die d).cuffAt.get 0 path)
    if n = 0 then s else s.cuffRefill d path n) s) s

end State

end Sys2Proof.Machine
end

