-- ==== Sys2Proof/Machine/Bus.lean ====
section
/-!
DEFINITION. Routes, records of the fault queue, the counting of remote requests, and refusals by an ownership window
(R287, R290, R303, R304, R319, R320).
-/
namespace Sys2Proof.Machine

namespace State

/-- The far end of a link that has been trained. -/
def farEnd (s : State) (l : LinkId) : LinkId :=
  let k := s.link l
  ⟨dieOf k.farDie, Fin.ofNat 4 k.farLink⟩

/-- The first link of the route from a die to another (R319). -/
def routeOf (s : State) (d : DieId) (e : Nat) : Option LinkId :=
  match (s.die d).routes.find? e with
  | some l => if l < 4 then some ⟨d, Fin.ofNat 4 l⟩ else none
  | none => none

/-- The mask of the dies of the package that a die does not reach (Table 15-12). -/
def unreachMask (s : State) (d : DieId) : Nat :=
  ((List.range s.build.dies).filter fun e => !s.reaches d e).foldl (fun m e => m + 2 ^ e) 0

/-- The lowest slot of a fault queue that is free (R290). -/
def freeSlot (s : State) (d : DieId) : Option Nat :=
  (List.range 1024).find? fun i => ((s.die d).fq.find? i).isNone

/-- Write a record into a free slot and send the interrupt message (R290). -/
def postRecord (s : State) (d : DieId) (slot : Nat) (r : FqRec) : State :=
  let k := s.die d
  (s.setDie d { k with fq := k.fq.put slot { r with seq := k.fqSeq, time := k.count }, fqSeq := k.fqSeq + 1 }).postIm d
    (0x1100 + d.val) 0

/-- A number of remote requests that one range entry has translated are counted on it one after another, and a HOT record is
posted with the count that reaches the threshold (R303, R304). -/
def hotCount (s : State) (d : DieId) (partition ctx range n : Nat) : State :=
  let k := s.die d
  let mine := fun e : RangeEnt => e.cnt && decide (e.partition = partition) && decide (e.va = range)
  if k.hotThresh = 0 then s
  else
    match k.l2.find? mine with
    | none => s
    | some e =>
      let at' := min (max k.hotThresh.toNat (e.hot + 1)) 0xFFFF
      let n := min (e.hot + n) 0xFFFF
      let fire := decide (k.hotThresh.toNat ≤ n) && !e.hotPosted
      let s := s.setDie d { k with
        l2 := k.l2.map fun x => if mine x then { x with hot := n, hotPosted := x.hotPosted || fire } else x }
      if !fire then s
      else if k.fq.entries.length + 64 ≤ 1024 then
        match s.freeSlot d with
        | some i => s.postRecord d i { hot := true, partition := partition, ctx := ctx, va := range, count := at',
                                       range := range }
        | none => s
      else s.setDie d { s.die d with hotSkip := true }

/-- A refusal by the ownership windows of a serving die (R287). -/
def ownRefuse (s : State) (d : DieId) (pa : Nat) : State :=
  (s.setDie d { s.die d with ownViol := true }).report d 0x1402 pa

/-- Earlier requests that a route since changed carries to a destination are outstanding (R320). -/
def drains (s : State) (d : DieId) (e : Nat) : Bool :=
  ((s.die d).draining.get [] e).any fun n => (s.reqs.find? n).isSome

end State

end Sys2Proof.Machine
end

