-- ==== Sys2Proof/Machine/Trans.lean ====
section
/-!
DEFINITION. Translation and access to device memory: the partition root, range buffers and second level, the walk,
Kindling segments, permissions, ownership at memory, fault records and merging (R278 to R301).
-/
namespace Sys2Proof.Machine

/-- The kind of an access (R283): read, write, or code fetch. -/
inductive Access where
  | read | write | fetch
  deriving DecidableEq, Repr

/-- The ACCESS bit of Table 14-4. -/
def Access.bits : Access → Nat
  | .read => 1 | .write => 2 | .fetch => 4

/-- The access that ACCESS bits name. -/
def Access.ofBits (n : Nat) : Access := if n = 2 then .write else if n = 4 then .fetch else .read

/-- Whether an entry carries the permission of an access (R283). -/
def RangeEnt.allows (e : RangeEnt) : Access → Bool
  | .read => e.r | .write => e.w | .fetch => e.x

/-- The cause of a missing permission (R283). -/
def Access.denied : Access → FaultCause
  | .read => .readDenied | .write => .writeDenied | .fetch => .fetchDenied

/-- Whether an entry covers a virtual address. -/
def RangeEnt.covers (e : RangeEnt) (va : Nat) : Bool := decide (e.va ≤ va) && decide (va < e.va + e.len)

/-- Whether an entry overlaps a span. -/
def RangeEnt.overlaps (e : RangeEnt) (base len : Nat) : Bool :=
  decide (e.va < base + len) && decide (base < e.va + e.len)

/-- Fields of PART_ROOT (Table 14-1). -/
def rootMode (v : BitVec 128) : Nat := field v.toNat 63 62
def rootCount (v : BitVec 128) : Nat := field v.toNat 116 96
def rootTable (v : BitVec 128) : Nat := field v.toNat 51 12 * 4096

/-- The unit's range buffer, by key: stream engine and sequencer of a core, command processor, fence unit, pool 1
allocator (R284); and as the requester of a Cuff's rotation, the arriving remote traffic and the walker (R167). -/
def Owner.bufKey : Owner → Nat
  | .stream c _ => c * 2
  | .seqLoad c => c * 2 + 1
  | .seqStore c _ => c * 2 + 1
  | .fetch c => c * 2 + 1
  | .command _ => 2000
  | .accept _ => 2000
  | .fence _ => 2001
  | .pool1 _ => 2002
  | .event _ => 2000
  | .remote _ _ => 2003
  | .walk _ _ => 2004
  | .pin _ => 2000
  | .segs _ _ => 2004

/-- A pre-translation, which is no access (R158). -/
def Owner.isPin : Owner → Bool
  | .pin _ => true
  | _ => false

/-- What a translation finds. -/
inductive Xlate where
  /-- The physical address, and VA_START of the range entry. -/
  | hit (pa range : Nat)
  | miss
  | fault (cause : FaultCause) (range : Nat)
  /-- The segment block of a context without a slot cannot be used: the code and INFO with which it becomes LOST (R300). -/
  | lost (code info : Nat)
  deriving DecidableEq, Repr

/-- A range table entry as read from memory (Table 14-2). -/
structure RawEnt where
  va : Nat
  len : Nat
  pa : Nat
  flags : Nat
  deriving DecidableEq, Repr

/-- A 32-byte entry read field by field. -/
def RawEnt.ofBytes (bs : List Byte) : RawEnt :=
  { va := ofBytesLE (bs.take 8), len := ofBytesLE ((bs.drop 8).take 8), pa := ofBytesLE ((bs.drop 16).take 8),
    flags := ofBytesLE ((bs.drop 24).take 4) }

/-- The entry checks of R281. -/
def RawEnt.ok (e : RawEnt) : Bool :=
  decide (e.va % 4096 = 0) && decide (e.len % 4096 = 0) && decide (e.pa % 4096 = 0) && decide (e.pa < 2 ^ 52) &&
    decide (4096 ≤ e.len) && decide (e.va + e.len ≤ 2 ^ 56) &&
    decide (e.pa / 2 ^ 49 = (e.pa + e.len - 1) / 2 ^ 49) && decide (e.flags / 32 = 0)

/-- The entry as the second level holds it. -/
def RawEnt.toRange (e : RawEnt) (partition : Nat) : RangeEnt :=
  { partition := partition, va := e.va, len := e.len, pa := e.pa, r := bitAt e.flags 1, w := bitAt e.flags 2,
    x := bitAt e.flags 3, cnt := bitAt e.flags 4 }

/-- The result of a walk (R282). -/
inductive WalkRes where
  | found (e : RangeEnt)
  | fault (cause : FaultCause)
  /-- A read of it has not been answered. -/
  | wait
  deriving DecidableEq, Repr

/-- The search of a walk between `lo` and `hi` (R282), with at most `fuel` probes. `rd` reads an entry. -/
def walkSearch (rd : Nat → Option RawEnt) (va : Nat) : Nat → Nat → Nat → Option Nat
  | 0, lo, _ => some lo
  | fuel + 1, lo, hi =>
    if hi - lo ≤ 1 then some lo
    else
      let mid := (lo + hi) / 2
      match rd mid with
      | none => none
      | some e => if e.va ≤ va then walkSearch rd va fuel mid hi else walkSearch rd va fuel lo mid

/-- The entries that a walk reads, in order: the last one is entry `lo`, read unless already read (R282). -/
def walkProbes (rd : Nat → Option RawEnt) (va : Nat) : Nat → Nat → Nat → List Nat
  | 0, _, _ => []
  | fuel + 1, lo, hi =>
    if hi = 0 then []
    else if hi - lo ≤ 1 then (if lo = 0 then [0] else [])
    else
      let mid := (lo + hi) / 2
      match rd mid with
      | none => [mid]
      | some e => mid :: (if e.va ≤ va then walkProbes rd va fuel mid hi else walkProbes rd va fuel lo mid)

/-- A walk of a table of `n` entries (R282). -/
def walkTable (rd : Nat → Option RawEnt) (partition n va : Nat) : WalkRes :=
  if n = 0 then .fault .unmapped
  else
    match walkSearch rd va 21 0 n with
    | none => .fault .walkError
    | some lo =>
      match rd lo with
      | none => .fault .walkError
      | some e =>
        if !bitAt e.flags 0 || decide (va < e.va) || decide (e.va + e.len ≤ va) then .fault .unmapped
        else if !e.ok then .fault .badEntry
        else .found (e.toRange partition)

/-- A Kindling segment read from its block (Table 14-7); none where it is unused. -/
def segEnt (partition ctx : Nat) (blk : List Byte) (i : Nat) : Option RangeEnt :=
  let e := RawEnt.ofBytes ((blk.drop (32 * i)).take 32)
  if e.len = 0 then none
  else some { partition := partition, va := e.va, len := e.len, pa := e.pa, r := bitAt e.flags 1,
              w := bitAt e.flags 2, x := bitAt e.flags 3, cnt := false, seg := some ctx }

/-- Whether a Kindling segment meets Table 14-7. -/
def segOk (blk : List Byte) (i : Nat) : Bool :=
  let e := RawEnt.ofBytes ((blk.drop (32 * i)).take 32)
  let rsv := ofBytesLE ((blk.drop (32 * i + 28)).take 4)
  decide (e.va % 1048576 = 0) && decide (e.len % 1048576 = 0) && decide (e.pa % 1048576 = 0) &&
    decide (e.va < 2 ^ 56) && decide (e.va + e.len ≤ 2 ^ 56) &&
    decide (e.flags &&& (2 ^ 32 - 1 - 0xE) = 0) && decide (rsv = 0) &&
    (decide (e.len = 0) || (decide (e.pa + e.len ≤ 2 ^ 52) && decide (e.pa / 2 ^ 49 = (e.pa + e.len - 1) / 2 ^ 49)))

/-- The index of the first segment of a block that breaks Table 14-7 (R300). -/
def segBad (blk : List Byte) : Option Nat := (List.range 8).find? fun i => !segOk blk i

namespace State

/-- The resident slot of a context on a die. -/
def slotOf (s : State) (d : DieId) (ctx : Nat) : Option Slot := (s.die d).slots.find? fun x => decide (x.ctx = ctx)

/-- Put an entry into a range buffer of 16, the least recently used entry replaced (R284). -/
def bufInsert (buf : List RangeEnt) (e : RangeEnt) (stamp : Nat) : List RangeEnt :=
  let rest := buf.filter fun x => !(decide (x.partition = e.partition) && decide (x.va = e.va) && decide (x.seg = e.seg))
  let rest := if rest.length < 16 then rest
    else
      let old := rest.foldl (fun m x => min m x.used) (rest.headD e).used
      rest.erase ((rest.find? fun x => decide (x.used = old)).getD e)
  { e with used := stamp } :: rest

/-- Install a walk's result in the second level, the least recently used unpinned entry replaced (R285). -/
def l2Insert (l2 : List RangeEnt) (e : RangeEnt) (stamp : Nat) : List RangeEnt :=
  let same := l2.find? fun x => decide (x.partition = e.partition) && decide (x.va = e.va)
  let rest := l2.filter fun x => !(decide (x.partition = e.partition) && decide (x.va = e.va))
  let pins := (same.map (·.pins)).getD [] ++ e.pins
  let rest := if rest.length < 32768 then rest
    else
      let free := rest.filter fun x => x.pins.isEmpty
      match free with
      | [] => rest
      | f :: _ =>
        let old := free.foldl (fun m x => min m x.used) f.used
        rest.erase ((free.find? fun x => decide (x.used = old)).getD f)
  if rest.length < 32768 then { e with used := stamp, pins := pins } :: rest else rest

/-- Install an entry for a unit: in its range buffer, and in the second level unless it is a segment (R285, R299); of a
pre-translation in the second level only (R158). -/
def install (s : State) (d : DieId) (o : Owner) (e : RangeEnt) : State :=
  let k := s.die d
  s.setDie d { k with
    bufs := match o with
      | .pin _ => k.bufs
      | _ => k.bufs.put o.bufKey (bufInsert (k.bufs.get [] o.bufKey) e k.useNext)
    l2 := if e.seg.isSome then k.l2 else l2Insert k.l2 e k.useNext
    useNext := k.useNext + 1 }

/-- The entry that a die already holds for an address, and whether it comes from the unit's range buffer (0), from the
second level (1), or from the Kindling segments of the context's slot (2): these stay, whatever MODE has become, until
an INVAL. Of the segments the lowest-numbered one that covers the address translates it, also where the range buffer holds
another (R284, R285, R299, R301). -/
def heldAt (s : State) (d : DieId) (key partition ctx va : Nat) : Option (RangeEnt × Nat) :=
  let k := s.die d
  let fits := fun e : RangeEnt => decide (e.partition = partition) && e.covers va &&
    (match e.seg with | none => true | some c => decide (c = ctx))
  let seg := (s.slotOf d ctx).bind fun sl =>
    (((List.range 8).filterMap (segEnt partition ctx sl.segs)).find? fun e => e.covers va).map fun e => (e, 2)
  match (k.bufs.get [] key).find? fits with
  | some e => if e.seg.isSome then seg else some (e, 0)
  | none =>
    match k.l2.find? fits with
    | some e => some (e, 1)
    | none => seg

/-- The entry that a die already holds for an address. -/
def heldEntry (s : State) (d : DieId) (key partition ctx va : Nat) : Option RangeEnt :=
  (s.heldAt d key partition ctx va).map (·.1)

/-- A hit is a use of the entry: the unit's range buffer takes it from the second level or from the slot, and it is the most
recently used where it was found (R158, R284, R285, R299). -/
def touch (s : State) (d : DieId) (key partition ctx va : Nat) : State :=
  match s.heldAt d key partition ctx va with
  | none => s
  | some (e, from') =>
    let k := s.die d
    let same := fun x : RangeEnt => decide (x.partition = e.partition) && decide (x.va = e.va)
    s.setDie d { k with
      bufs := k.bufs.put key (bufInsert (k.bufs.get [] key) e k.useNext)
      l2 := if from' = 1 then k.l2.map fun x => if same x then { x with used := k.useNext } else x else k.l2
      useNext := k.useNext + 1 }

/-- A translation that needs no walk: a hit, a fault, or a miss (R278, R283, R16). -/
def xlate (s : State) (d : DieId) (key partition ctx va : Nat) (acc : Access) : Xlate :=
  if 2 ^ 56 ≤ va then .fault .unmapped 0
  else
    match s.heldEntry d key partition ctx va with
    | some e =>
      if !e.allows acc then .fault acc.denied e.va
      else
        let pa := e.pa + (va - e.va)
        if s.build.dies ≤ pa / 2 ^ 49 then .fault .badDie 0 else .hit pa e.va
    | none =>
      match rootMode ((s.die d).roots.get 0 partition) with
      | 1 => .miss
      | _ => .fault .unmapped 0

/-- The page causes of R289: their fault key is the partition and the 4 KiB page. -/
def FaultCause.isPage : FaultCause → Bool
  | .unmapped | .badEntry | .walkError | .badDie => true
  | _ => false

/-- The pending record that a fault of a cause merges into (R289). -/
def mergeSlot (s : State) (d : DieId) (cause : FaultCause) (partition va range : Nat) : Option Nat :=
  ((s.die d).fq.entries.find? fun e =>
    !e.2.hot && decide (e.2.partition = partition) &&
      (if FaultCause.isPage cause then FaultCause.isPage e.2.cause && decide (e.2.va / 4096 = va / 4096)
       else decide (e.2.cause = cause) && decide (e.2.range = range))).map (·.1)

/-- The pending record of a page key that an access merges into before it walks (R289). -/
def pageSlot (s : State) (d : DieId) (partition va : Nat) : Option Nat := s.mergeSlot d .unmapped partition va 0

/-- A walk of a page for a partition is in progress on a die (R286). -/
def walking (s : State) (d : DieId) (partition va : Nat) : Bool :=
  (s.die d).walks.any fun x => decide (x.partition = partition) && decide (x.va / 4096 = va / 4096)

/-- Merge a stalled access into a record, in place and with no interrupt (R290). A further granule of a tile that the
record already holds is the same access, and it is not counted again (R293, Table 14-10). DEDUCED, log entry 65. -/
def mergeInto (s : State) (d : DieId) (slot : Nat) (o : Owner) (va acc ctx : Nat) : State :=
  let k := s.die d
  let r := k.fq.get {} slot
  let known := r.accs.any fun a => decide (a.1 = o)
  let again := r.accs.any fun a => decide (a.1 = o) && decide (a.2.1 = va)
  s.setDie d { k with
    fq := k.fq.put slot { r with
      access := r.access ||| acc
      va := min r.va va
      accs := if again then r.accs else r.accs ++ [(o, va, acc, ctx)]
      count := if known then r.count else satAdd 16 r.count 1 }
    merged := if known then k.merged else satInc k.merged }

/-- A new record of a fault is posted in a slot, its interrupt message with it (R290). -/
def postFault (s : State) (d : DieId) (slot : Nat) (w : FqWait) : State :=
  s.postRecord d slot
    { cause := w.cause, access := w.access, partition := w.partition, ctx := w.ctx, va := w.va,
      accs := [(w.owner, w.va, w.access, w.ctx)], count := 1, range := if FaultCause.isPage w.cause then 0 else w.range }

/-- A translation fault of an access: it merges, is posted, or waits for a free slot, and for the faults detected before it
that wait for one (R289 to R291). -/
def faultAccess (s : State) (d : DieId) (cause : FaultCause) (range : Nat) (o : Owner) (partition ctx va : Nat)
    (acc : Access) : State :=
  let w : FqWait := { cause := cause, partition := partition, range := range, owner := o, va := va, access := acc.bits,
                      ctx := ctx }
  match s.mergeSlot d cause partition va range with
  | some i => s.mergeInto d i o va acc.bits ctx
  | none =>
    let k := s.die d
    match (if k.fqWait.isEmpty then s.freeSlot d else none) with
    | some i => s.postFault d i w
    | none => s.setDie d { k with fqFull := true, fqWait := k.fqWait ++ [w] }

/-- A miss: the access joins a walk of its page, starts one where fewer than 16 run, or waits until one ends (R286). -/
def startWalk (s : State) (d : DieId) (o : Owner) (partition ctx va : Nat) (acc : Access) : State :=
  let k := s.die d
  let w := (o, va, acc.bits, ctx)
  let mine := fun x : Walk => decide (x.partition = partition) && decide (x.va / 4096 = va / 4096)
  if k.walks.any mine then
    s.setDie d { k with
      walks := k.walks.map fun x => if mine x then { x with waiters := x.waiters ++ [w] } else x }
  else if 16 ≤ k.walks.length then
    s.setDie d { k with walkWait := k.walkWait ++ [(o, partition, va, acc.bits, ctx)] }
  else
    let root := k.roots.get 0 partition
    let n : Walk :=
      { partition := partition, va := va, waiters := [w], tablePa := rootTable root, count := rootCount root }
    s.setDie d { k with
      walks := k.walks ++ [n]
      bus := k.bus.filter fun b => decide (b.owner ≠ .walk partition (va / 4096)) }

/-- Some access of a unit waits for translation service. -/
def transHeld (s : State) (d : DieId) (o : Owner) : Bool :=
  let k := s.die d
  let is := fun a : Owner × Nat × Nat × Nat => decide (a.1 = o)
  k.walks.any (fun w => w.waiters.any is) || k.walkWait.any (fun w => decide (w.1 = o)) || k.fq.entries.any (fun e => e.2.accs.any is) ||
    k.fqWait.any (fun w => decide (w.owner = o)) || k.replays.any is

/-- Withdraw the stalled accesses of units that satisfy a test: their mask bits are cleared, and a record whose masks
become empty is freed (R295); what their accesses under way bring is not taken. -/
def withdraw (s : State) (d : DieId) (p : Owner → Bool) : State :=
  let k := s.die d
  s.setDie d { k with
    fq := (k.fq.mapVals fun r => if r.hot then r else { r with accs := r.accs.filter fun a => !p a.1 }).filter
      fun _ r => r.hot || !r.accs.isEmpty
    fqWait := k.fqWait.filter fun w => !p w.owner
    walks := (k.walks.map fun w => { w with waiters := w.waiters.filter fun a => !p a.1 }).filter
      fun w => !w.waiters.isEmpty
    walkWait := k.walkWait.filter fun w => !p w.1
    replays := k.replays.filter fun a => !p a.1
    bus := k.bus.filter fun b => !p b.owner
    pinMiss := k.pinMiss.filter fun x => !p (.pin x.1) }

end State

end Sys2Proof.Machine
end

