-- ==== Sys2Proof/Machine/LinkOps.lean ====
section
/-!
DEFINITION. Sending over the Mitten links: buffer classes and credits, the transmitter's pump, and control messages
(R311 to R315, R319).
-/
namespace Sys2Proof.Machine

/-- The receive buffer a flit targets: REQ levels 1 to 3 are 0 to 2, RSP levels 1 to 3 are 3 to 5, CTL is 6; none for
IDLE (R314). DEDUCED, log entry 36. -/
def Flit.buffer (f : Flit) : Option Nat :=
  match f.body with
  | .idle => none
  | .rd | .wr _ | .wrm _ | .wrd _ => some (f.level - 1)
  | .rdr _ | .wra | .err => some (3 + (f.level - 1))
  | .ctl _ => some 6

/-- An alignment answer goes ahead of any other CTL message waiting for its route (R312). -/
def Flit.isAnswer (f : Flit) : Bool :=
  match f.body with
  | .ctl (.alignAns _ _ _) => true
  | _ => false

/-- Requests, the data flit and the mask flit of a partial write (R311). -/
def Flit.isReq (f : Flit) : Bool :=
  match f.body with
  | .rd | .wr _ | .wrm _ | .wrd _ => true
  | _ => false
def Flit.isData (f : Flit) : Bool :=
  match f.body with
  | .wrd _ => true
  | _ => false
def Flit.isMask (f : Flit) : Bool :=
  match f.body with
  | .wrm _ => true
  | _ => false

/-- A full write or the mask flit of a partial one (R311). -/
def Flit.isWrite (f : Flit) : Bool :=
  match f.body with
  | .wr _ | .wrm _ => true
  | _ => false

/-- Add to an element of a list of counts. -/
def bump (l : List Nat) (i : Nat) (n : Int) : List Nat :=
  l.mapIdx fun j (x : Nat) => if j = i then ((x : Int) + n).toNat else x

/-- A partial write whose mask flit is one flit and whose data flit is the other (R311). -/
def Flit.sameWrite (f g : Flit) : Bool := decide (f.tag = g.tag) && decide (f.src = g.src)

/-- Whether a transmitter may send a flit now: it holds a credit for the buffer (R314). A mask flit goes only where its data
flit can follow at once: that one waits too, and there is a credit and room in the retry buffer for both (R311). -/
def Link.mayHold (k : Link) (f : Flit) : Bool :=
  match f.buffer with
  | none => true
  | some b =>
    if f.isMask then
      decide (2 ≤ k.credits.getD b 0) && decide (k.held.length < 511) && k.waiting.any fun g => g.isData && f.sameWrite g
    else decide (0 < k.credits.getD b 0)

/-- A data flit whose mask flit has gone: it is the next flit that a link sends. -/
def Link.dataDue (k : Link) : Option Flit :=
  k.waiting.find? fun f => f.isData && !k.waiting.any fun m => m.isMask && m.sameWrite f

namespace State

/-- The requester of a request flit at the Cuff of a link: the unit of this die that made it, or the arriving remote traffic
(R167). -/
def flitRequester (s : State) (d : DieId) (f : Flit) : Nat :=
  if f.src ≠ d.val then (Owner.remote 0 0).bufKey
  else
    match ((s.link ⟨d, Fin.ofNat 4 (f.tag / 2048)⟩).e2e.find? (f.tag % 2048)).bind s.reqs.find? with
    | some r => r.owner.bufKey
    | none => (Owner.remote 0 0).bufKey

/-- An earlier write of a flit's requester to the same granule still waits at the link: the later one does not overtake it
(R164). -/
def overtakes (s : State) (d : DieId) (waiting : List Flit) (f : Flit) : Bool :=
  f.isWrite && (waiting.takeWhile (· ≠ f)).any fun g =>
    g.isWrite && decide (g.addr = f.addr) && decide (g.src = f.src) &&
      decide (s.flitRequester d g = s.flitRequester d f)

/-- The request of a partition that a direction of a link sends next: that of the requester after the one served last, in
rotation (R167). -/
def nextRequest (s : State) (l : LinkId) (p : Nat) (reqs : List Flit) : State × Option Flit :=
  let mine := reqs.filter fun f => decide (f.partition = p)
  let key := linkPath l.link.val * 16 + p
  match nextAfter ((s.die l.die).cuffReq.get 0 key) (mine.map (s.flitRequester l.die)) with
  | none => (s, none)
  | some q =>
    (s.setDie l.die { s.die l.die with cuffReq := (s.die l.die).cuffReq.put key q },
      mine.find? fun f => decide (s.flitRequester l.die f = q))

/-- The waiting flit that a transmitter sends next, of those for which it holds a credit: the data flit of a partial
write whose mask flit has gone, in a Cuff slot of its own; else the first response or control message; else a request that
no Cuff holds back; else one of the partition that the Cuff of the direction chooses, and of that partition's next requester;
writes of one requester to one granule go in order (R164, R167, R273, R311). DESIGN CHOICE, log entry 35. -/
def nextFlit (s : State) (l : LinkId) : State × Option Flit :=
  let k := s.link l
  let path := linkPath l.link.val
  match k.dataDue with
  | some f => if k.mayHold f then (s.cuffTake l.die path f.partition 1 f.ahead, some f) else (s, none)
  | none =>
    let ok := k.waiting.filter fun f => k.mayHold f && !s.overtakes l.die k.waiting f
    match ok.find? fun f => !f.isReq with
    | some f => (s, some f)
    | none =>
      let reqs := ok.filter fun f => !f.isData
      match reqs.find? (·.ahead) with
      | some f => (s.cuffTake l.die path f.partition 1 true, some f)
      | none =>
        if reqs.isEmpty then (s, none)
        else
          match s.cuffSlot l.die path ((reqs.map (·.partition)).eraseDups) with
          | (t, some p) => t.nextRequest l p reqs
          | (t, none) => (t, none)

/-- What a flit carries back: the buffers freed, at most 15 of each kind (Table 15-2 CRET); the others stay owed. -/
def cretOf (free : List Nat) : List Nat := free.map (min 15)
def cretLeft (free : List Nat) : List Nat := free.map fun n => n - min 15 n

/-- A link that owes its far end an acknowledgement or credits and has no flit to send sends an IDLE flit (R313). -/
def sendIdle (s : State) (l : LinkId) : State :=
  let k := s.link l
  if k.st ≠ .active then s
  else
    let last := (k.rxSeq + 1023) % 1024
    let f : Flit := { body := .idle, dst := 0, src := l.die.val, level := 0, ack := some last,
                      nak := if k.nakDue then some last else none, cret := cretOf k.free }
    let s := s.setLink l { k with nakDue := false, free := cretLeft k.free }
    let e := s.farEnd l
    let r := s.link e
    s.setLink e { r with wire := r.wire ++ [f] }

/-- A forwarded flit has gone on: the receive buffer that it occupied is free, and the credit goes back over the link that it
came by (R314). -/
def freeVia (s : State) (d : DieId) (f : Flit) : State :=
  match f.via with
  | none => s
  | some (i, b) =>
    let l : LinkId := ⟨d, Fin.ofNat 4 i⟩
    (s.setLink l { s.link l with free := bump (s.link l).free b 1 }).sendIdle l

/-- The request of this die that a flit carries counts its 1,000 counts from here (R172). -/
def stampSent (s : State) (d : DieId) (f : Flit) : State :=
  if f.src ≠ d.val ∨ !f.isReq then s
  else
    match (s.link ⟨d, Fin.ofNat 4 (f.tag / 2048)⟩).e2e.find? (f.tag % 2048) with
    | none => s
    | some n =>
      match s.reqs.find? n with
      | some r => { s with reqs := s.reqs.put n { r with sent := true, sentAt := (s.die d).ticks } }
      | none => s

/-- Send the next waiting flit, if the link is ACTIVE and its retry buffer of 512 has room (R313, R314). -/
def pumpOne (s : State) (l : LinkId) : State :=
  let k := s.link l
  if k.st ≠ .active ∨ 512 ≤ k.held.length then s
  else
    match s.nextFlit l with
    | (s, none) => s
    | (s, some f) =>
      let g := { f with seq := k.txSeq, ack := some ((k.rxSeq + 1023) % 1024),
                        nak := if k.nakDue then some ((k.rxSeq + 1023) % 1024) else none, cret := cretOf k.free, via := none }
      let credits := match f.buffer with
        | some b => bump k.credits b (-1)
        | none => k.credits
      let s := s.setLink l { k with
        txSeq := (k.txSeq + 1) % 1024
        held := k.held ++ [(g, (s.die l.die).ticks, 0)]
        waiting := k.waiting.erase f
        credits := credits
        nakDue := false
        free := cretLeft k.free }
      let e := s.farEnd l
      let r := s.link e
      ((s.setLink e { r with wire := r.wire ++ [g] }).stampSent l.die f).freeVia l.die f

/-- Send every waiting flit that may go. -/
def pumpN (s : State) (l : LinkId) : Nat → State
  | 0 => s
  | n + 1 => (s.pumpOne l).pumpN l n

/-- The transmitter of a link sends what it can. -/
def pump (s : State) (l : LinkId) : State := s.pumpN l (s.link l).waiting.length

/-- Hand a flit to the transmitter of a link. -/
def enqueueFlit (s : State) (l : LinkId) (f : Flit) : State :=
  let k := s.link l
  let w := if f.isAnswer then
      (k.waiting.filter fun x => x.isAnswer || (match x.body with | .ctl _ => false | _ => true)) ++ [f] ++
        k.waiting.filter fun x => !(x.isAnswer || (match x.body with | .ctl _ => false | _ => true))
    else k.waiting ++ [f]
  (s.setLink l { k with waiting := w }).pump l

/-- A control message arrives at its die. -/
def deliverMsg (s : State) (src dst : Nat) (m : Msg) : State :=
  { s with msgs := s.msgs.put s.msgNext (dst, src, m), msgNext := s.msgNext + 1 }

/-- Send a control message (Table 15-3): within a die it arrives at once; to another die it goes out on the route, a
distribution record as two flits; to an unreachable die it is not sent, and F-1503 is reported (R308, R311, R319).
DESIGN CHOICE, log entry 61. -/
def sendMsg (s : State) (src dst : DieId) (m : Msg) : State :=
  if src = dst then s.deliverMsg src.val dst.val m
  else
    match s.routeOf src dst.val with
    | none => s.report src 0x1503 (s.unreachMask src)
    | some l =>
      let ms : List Msg := match m with
        | .dist rec => [.distA (rec.take 64), .distB (rec.drop 64)]
        | m => [m]
      ms.foldl (fun s m => s.enqueueFlit l { body := .ctl m, dst := dst.val, src := src.val }) s

/-- A control message that has arrived at a die, by its number. -/
def msgAt (s : State) (n : Nat) : Option (Nat × Nat × Msg) := s.msgs.find? n

/-- A control message taken by the die it has arrived at. -/
def takeMsg (s : State) (n : Nat) : State := { s with msgs := s.msgs.erase n }

end State

end Sys2Proof.Machine
end

