-- ==== Sys2Proof/Machine/Access.lean ====
section
/-!
DEFINITION. Requests to memory: local ones wait at their Peat port, remote ones take an end-to-end credit and go out as
flits (R160, R302, R303, R311, R315, R319). The accesses of units that use their data only when all of it has come: command
processor, fence unit, walker, code fetch, images, pool 1; each of their requests goes the same way (R16, R167, R273, R280,
R455, R456). The reads of a walk, and translation for such an access (R282, R286, R289, R299).
-/
namespace Sys2Proof.Machine

/-- What became of an attempt to send a request. -/
inductive SendRes where
  | sent | noCredit | unreachable
  deriving DecidableEq, Repr

/-- The bytes of a granule with the written ones in place, and the byte enables (R160, R311). -/
def granuleData (data : List (Nat × Byte)) : List Byte :=
  (List.range 64).map fun i => ((data.reverse.find? fun b => decide (b.1 = i)).map (·.2)).getD 0
def granuleMask (data : List (Nat × Byte)) : W64 :=
  BitVec.ofNat 64 (((List.range 64).filter fun i => data.any fun b => decide (b.1 = i)).foldl (fun m i => m + 2 ^ i) 0)

/-- The written bytes of a granule from its data and byte enables. -/
def maskedData (data : List Byte) (mask : W64) : List (Nat × Byte) :=
  ((List.range 64).filter fun i => bitAt mask.toNat i).map fun i => (i, data.getD i 0)

/-- The flits of a request (R311). -/
def Req.flits (r : Req) (src tag : Nat) (ahead : Bool) : List Flit :=
  let f := fun b : FlitBody =>
    ({ body := b, dst := r.pa / 2 ^ 49, src := src, tag := tag, ctx := r.ctx, partition := r.partition,
       addr := r.pa / 64 * 64, ahead := ahead } : Flit)
  if !r.write then [f .rd]
  else
    let m := granuleMask r.data
    if m = BitVec.allOnes 64 then [f (.wr (granuleData r.data))]
    else [f (.wrm m), f (.wrd (granuleData r.data))]

namespace State

/-- Give a request its number. -/
def addReq (s : State) (r : Req) : State := { s with reqs := s.reqs.put s.reqNext r, reqNext := s.reqNext + 1 }

/-- Send a request of die `d`: to a Peat port of the die, where it waits for its transfer, or over the links with a
credit of the first link of its route (R16, R315, R319). Requests that an earlier route carries to the destination
are waited for, and so is the next computation of the routes where that link has failed (R319, R320). -/
def sendReq (s : State) (d : DieId) (r : Req) : State × SendRes :=
  if r.pa / 2 ^ 49 = d.val then (s.addReq r, .sent)
  else if s.drains d (r.pa / 2 ^ 49) then (s, .noCredit)
  else
    match s.routeOf d (r.pa / 2 ^ 49) with
    | none => (s.report d 0x1503 (s.unreachMask d), .unreachable)
    | some l =>
      let k := s.link l
      if k.st ≠ .active ∧ k.st ≠ .retrain then (s, .noCredit)
      else
      match (List.range 2048).find? fun i => (k.e2e.find? i).isNone with
      | none => (s, .noCredit)
      | some i =>
        let n := s.reqNext
        let s := (s.hotCount d r.partition r.ctx r.range 1).setLink l { k with e2e := k.e2e.put i n }
        let s := s.addReq { r with st := .remote l.link.val i }
        ((r.flits d.val (l.link.val * 2048 + i) r.ahead).foldl (fun s f => s.enqueueFlit l f) s, .sent)

end State

/-- The access made again and again until its result is taken: of one unit, at one place, with the same bytes. -/
def BusAcc.same (b c : BusAcc) : Bool :=
  decide (b.owner = c.owner) && decide (b.pa = c.pa) && decide (b.n = c.n) && (b.write == c.write) && decide (b.data = c.data)

/-- The number of 64-byte granules that it touches, and the bytes that it writes in the i-th, by offset. -/
def BusAcc.granules (b : BusAcc) : Nat := (b.pa % 64 + b.n + 63) / 64
def BusAcc.part (b : BusAcc) (i : Nat) : List (Nat × Byte) :=
  ((b.data.mapIdx fun j x => (b.pa % 64 + j, x)).filter fun x => decide (x.1 / 64 = i)).map fun x => (x.1 % 64, x.2)

/-- What came of an access. -/
inductive BusRes where
  /-- It was answered: the bytes read; none for a write. -/
  | ok (bs : List Byte)
  /-- An error response, or no response within 1,000 counts, and how far into the access the first such granule lies
  (R160, R263). DEDUCED, log entry 65. -/
  | error (off : Nat)
  /-- A request of it has not been answered, or cannot be sent yet (R315, R320). -/
  | wait
  deriving DecidableEq, Repr

/-- The result of an access, when every request of it has been answered. -/
def BusAcc.result (b : BusAcc) : BusRes :=
  if b.reqs.length < b.granules || b.reqs.any fun x => x.2.isNone then .wait
  else
    match b.reqs.findIdx? fun x => decide (x.2 = some .error) with
    | some i => .error (64 * i - min (64 * i) (b.pa % 64))
    | none =>
      if b.write then .ok []
      else .ok (((b.reqs.flatMap fun x => match x.2 with | some (.data bs) => bs | _ => []).drop (b.pa % 64)).take b.n)

/-- The VA_START of an access that no range entry has translated: it is counted on none (R303). -/
def noRange : Nat := 2 ^ 64

namespace State

/-- The i-th request of an access. -/
def busReq (s : State) (d : DieId) (b : BusAcc) (partition ctx range : Nat) (ahead : Bool) (i : Nat) : Req :=
  { owner := b.owner, die := d, partition := partition, ctx := ctx
    queue := (match b.owner with | .stream k _ => (s.core (coreOf k)).part.getD 0 | _ => 0)
    va := if i = 0 then b.va else b.va + (64 * i - b.pa % 64), pa := if i = 0 then b.pa else b.pa / 64 * 64 + 64 * i
    write := b.write
    data := b.part i, ahead := ahead, range := range }

/-- The access as far as it is known, whether or not it has been begun. -/
def busAt (s : State) (d : DieId) (b : BusAcc) : BusAcc := ((s.die d).bus.find? b.same).getD b

/-- An access of device memory by a unit of die `d`: the requests of it that have not been made yet are made, in the order of its
granules, up to one that cannot be sent; of one that no route leads to, and of those after it, the answer is an error. It
is made again until every request has been answered, and then has a result. A physical address that names no die of the
package is an error at once. `range` is the range entry that translated it, on which remote requests are counted;
`ahead` is an access that no Cuff holds back (R16, R167, R273, R287, R302, R303, R315, R319, R455). -/
def busAccess (s : State) (d : DieId) (partition ctx range : Nat) (ahead : Bool) (b : BusAcc) : State × BusRes :=
  if s.build.dies ≤ b.pa / 2 ^ 49 then (s, .error 0)
  else
    let old := s.busAt d b
    let r := (List.range b.granules).foldl (init := (s, old.reqs)) fun (acc : State × List (Nat × Option Answer)) i =>
      if acc.2.length ≠ i then acc
      else
        match acc.1.sendReq d (acc.1.busReq d b partition ctx range ahead i) with
        | (t, .sent) => (t, acc.2 ++ [(acc.1.reqNext, none)])
        | (_, .noCredit) => acc
        | (t, .unreachable) =>
          ({ t with reqNext := t.reqNext + 1 }, acc.2 ++ List.replicate (b.granules - i) (t.reqNext, some .error))
    let b := { b with reqs := r.2 }
    let k := r.1.die d
    (r.1.setDie d { k with bus := b :: k.bus.filter fun x => !b.same x }, b.result)

/-- A read and a write of device memory in that manner. -/
def busRead (s : State) (d : DieId) (o : Owner) (partition ctx va pa n range : Nat) (ahead : Bool) : State × BusRes :=
  s.busAccess d partition ctx range ahead { owner := o, va := va, pa := pa, n := n, write := false }
def busWrite (s : State) (d : DieId) (o : Owner) (partition ctx va pa : Nat) (bs : List Byte) (range : Nat) (ahead : Bool) :
    State × BusRes :=
  s.busAccess d partition ctx range ahead { owner := o, va := va, pa := pa, n := bs.length, write := true, data := bs }

/-- What a read that has been begun has brought. -/
def busSeen (s : State) (d : DieId) (o : Owner) (pa n : Nat) : BusRes :=
  (s.busAt d { owner := o, pa := pa, n := n, write := false }).result

/-- A unit has taken what it needs: its accesses are over. -/
def busDone (s : State) (d : DieId) (o : Owner) : State :=
  s.setDie d { s.die d with bus := (s.die d).bus.filter fun b => decide (b.owner ≠ o) }

/-- A unit has an access under way on a die. -/
def busHas (s : State) (d : DieId) (o : Owner) : Bool := (s.die d).bus.any fun b => decide (b.owner = o)

/-- A request belongs to an access of its die that is under way. -/
def busOwns (s : State) (d : DieId) (n : Nat) : Bool := (s.die d).bus.any fun b => b.reqs.any fun x => decide (x.1 = n)

/-- The answer to a request of an access. -/
def busTake (s : State) (d : DieId) (n : Nat) (a : Answer) : State :=
  s.setDie d { s.die d with bus := (s.die d).bus.map fun b =>
    { b with reqs := b.reqs.map fun x => if x.1 = n then (n, some a) else x } }

/-- A walk of a partition's table by a unit of a die: each of its reads is one 32-byte read, sent without waiting at each Cuff,
and the next one is made when the one before is answered (R280, R282). -/
def tableWalk (s : State) (d : DieId) (o : Owner) (partition tablePa count va : Nat) : State × WalkRes :=
  let rd := fun i => match s.busSeen d o (tablePa + 32 * i) 32 with
    | .ok bs => some (RawEnt.ofBytes bs)
    | _ => none
  match (walkProbes rd va 22 0 count).getLast? with
  | none => (s, walkTable rd partition count va)
  | some i =>
    match s.busRead d o partition 0xFFFF va (tablePa + 32 * i) 32 noRange true with
    | (t, .wait) => (t, .wait)
    | (t, _) => (t, walkTable rd partition count va)

/-- The segment block of a context that holds no slot is read, and translates (R299, R300). -/
def xlateSegs (s : State) (d : DieId) (o : Owner) (partition ctx va : Nat) (acc : Access) : State × Xlate :=
  let a := rootTable ((s.die d).roots.get 0 partition) + 256 * ctx
  match s.busRead d o partition ctx va a 256 noRange true with
  | (t, .wait) => (t, .miss)
  | (t, .error _) => (t, .lost 0x1307 a)
  | (t, .ok blk) =>
    match segBad blk with
    | some i => (t, .lost 0x1403 i)
    | none =>
      match ((List.range 8).filterMap (segEnt partition ctx blk)).find? fun e => e.covers va with
      | none => (t, .fault .unmapped 0)
      | some e =>
        if !e.allows acc then (t, .fault acc.denied e.va)
        else if s.build.dies ≤ (e.pa + (va - e.va)) / 2 ^ 49 then (t, .fault .badDie 0)
        else (t, .hit (e.pa + (va - e.va)) e.va)

/-- Translation for such an access: a miss takes the cause of a pending record of its page, under which it merges (R289), or
joins or starts a walk, and the access waits for it (R286), as does one that waits already. In KINDLING mode the segment
block of a context that holds no slot is read first (R299). -/
def xlateNow (s : State) (d : DieId) (o : Owner) (partition ctx va : Nat) (acc : Access) : State × Xlate :=
  if s.transHeld d o then (s, .miss)
  else
    match s.xlate d o.bufKey partition ctx va acc with
    | .miss =>
      match s.pageSlot d partition va with
      | some i => (s, .fault ((s.die d).fq.get {} i).cause 0)
      | none => (s.startWalk d o partition ctx va acc, .miss)
    | .fault c r =>
      if rootMode ((s.die d).roots.get 0 partition) = 2 ∧ (s.slotOf d ctx).isNone ∧ va < 2 ^ 56 ∧ c = .unmapped then
        s.xlateSegs d o partition ctx va acc
      else (s, .fault c r)
    | .hit pa r => (s.touch d o.bufKey partition ctx va, .hit pa r)
    | x => (s, x)

end State

end Sys2Proof.Machine
end

