-- ==== Sys2Proof/Machine/HostOps.lean ====
section
/-!
DEFINITION. What the command processors do for every command and every loss: the block's fields of the tables in
memory, event records, undeliverable completions, references, the loss of a context, and the stop of a launch
(R113, R114, R235 to R248, R251, R275, R295, R322).
-/
namespace Sys2Proof.Machine

/-- The bytes of a program fault record (Table 05-10). -/
def FaultRec.bytes (r : FaultRec) : List Byte :=
  bytesLE 2 r.code ++ bytesLE 1 r.fcount ++ bytesLE 1 r.src ++ bytesLE 2 r.lcore ++ bytesLE 1 r.ldie ++ bytesLE 1 0 ++
    bytesLE 4 r.pc ++ bytesLE 4 r.insn ++ bytesLE 8 r.addr ++ bytesLE 8 r.info

/-- The record of a loss through a fault outside a program: FCODE and INFO (Table 12-3 LOSS_RECORD).
DESIGN CHOICE, log entry 28. -/
def FaultRec.outside (code info : Nat) : FaultRec := { code := code, info := info }

/-- The 64 bytes of an event record (Table 12-9). -/
def EventRec.bytes (r : EventRec) : List Byte :=
  let d := r.detail ++ List.replicate (32 - r.detail.length) 0
  bytesLE 1 r.type ++ bytesLE 1 0 ++ bytesLE 2 r.ctx ++ bytesLE 4 r.queue ++ bytesLE 8 r.fence.toNat ++
    bytesLE 8 r.value.toNat ++ bytesLE 4 r.status.toNat ++ bytesLE 4 r.cookie.toNat ++ d.take 32

/-- The STATE codes of Tables 12-3, 12-5 and 12-6. -/
def CtxState.code : CtxState → Nat
  | .free => 0 | .ready => 1 | .resident => 2 | .lost => 3
def QState.code : QState → Nat
  | .free => 0 | .opened => 1 | .destroying => 2
def MoState.code : MoState → Nat
  | .free => 0 | .live => 1 | .retiring => 2

namespace State

/-- Physical addresses of the entries of the driver's tables (R232). -/
def ctxEntry (s : State) (n : Nat) : Nat := s.ctxTbl.toNat + 128 * n
def queueEntry (s : State) (q : QueueId) : Nat := (s.qTbl.get 0 q.die.val).toNat + 64 * q.q.toNat
def moEntry (s : State) (h : Nat) : Nat := s.moTbl.toNat + 64 * h

/-- The block's fields of a context table entry, written from the block's copy (Table 12-3). -/
def syncCtx (s : State) (n : Nat) : State :=
  let c := s.ctx n
  ((s.writeBytes (s.ctxEntry n + 2) (bytesLE 1 c.st.code)).writeBytes (s.ctxEntry n + 0x18)
    (bytesLE 4 c.lossStatus.toNat ++ bytesLE 4 c.drops.toNat)).writeBytes (s.ctxEntry n + 0x20) c.lossRecord.bytes

/-- The block's fields of a queue table entry (Table 12-5). -/
def syncQueue (s : State) (q : QueueId) : State :=
  let k := s.queue q
  (s.writeBytes (s.queueEntry q + 2) (bytesLE 1 k.st.code)).writeBytes (s.queueEntry q + 0x18)
    (bytesLE 8 k.accptr.toNat ++ bytesLE 8 k.doneptr.toNat)

/-- The block's fields of a memory object entry (Table 12-6). -/
def syncMo (s : State) (h : Nat) : State :=
  let m := s.mo h
  (s.writeBytes (s.moEntry h + 7) (bytesLE 1 m.st.code)).writeBytes (s.moEntry h + 0x20)
    ((List.range 8).flatMap fun d => bytesLE 4 (m.refs.get 0 d).toNat)

/-- A context changed, with its table entry. -/
def putCtx (s : State) (n : Nat) (c : Ctx) : State := (s.setCtx n c).syncCtx n
/-- A queue changed, with its table entry. -/
def putQueue (s : State) (q : QueueId) (k : Queue) : State := (s.setQueue q k).syncQueue q
/-- A memory object changed, with its table entry. -/
def putMo (s : State) (h : Nat) (m : MemObj) : State := (s.setMo h m).syncMo h

/-- Take and give back a reference of a die on each object of a list (R240). -/
def addRefs (s : State) (d : DieId) : List Nat → State
  | [] => s
  | h :: hs =>
    let m := s.mo h
    (s.putMo h { m with refs := m.refs.setD 0 d.val (m.refs.get 0 d.val + 1) }).addRefs d hs
def dropRefs (s : State) (d : DieId) : List Nat → State
  | [] => s
  | h :: hs =>
    let m := s.mo h
    (s.putMo h { m with refs := m.refs.setD 0 d.val (m.refs.get 0 d.val - 1) }).dropRefs d hs

/-- Store a record in a die's overflow log of 64 entries, with its interrupt message; a record that finds the log full
is counted (R275, R495). -/
def logOverflow (s : State) (d : DieId) (r : EventRec) : State :=
  let k := s.die d
  if k.ovf.length < 64 then (s.setDie d { k with ovf := k.ovf ++ [r] }).postIm d (0x1300 + d.val) 0
  else s.setDie d { k with ovfLost := satInc k.ovfLost }

/-- What became of the write of an event record; for one that cannot be delivered, the code and INFO with which its context
becomes LOST. -/
inductive PostRes where
  | written | waits | undeliverable (code info : Nat)
  deriving DecidableEq, Repr

/-- Write an event record to a ring of a partition, from a die's command processor: it waits until its write is accepted
(R251, R492). `n` is the number of the record among those that wait. DEDUCED, log entry 27. -/
def writeEvent (s : State) (d : DieId) (p r : Nat) (rec : EventRec) (n : Nat) : State × PostRes :=
  let g := s.ring p r
  let va := g.base.toNat + 64 * (g.wr.toNat % 2 ^ g.log2)
  if !g.enable || decide (g.wr - g.rd = BitVec.ofNat 64 (2 ^ g.log2)) then (s, .undeliverable 0x1305 va)
  else
    match s.xlateNow d (.event n) p rec.ctx va .write with
    | (t, .hit pa range) =>
      match t.busWrite d (.event n) p rec.ctx va pa rec.bytes range true with
      | (u, .ok _) =>
        let u := (u.busDone d (.event n)).setRing p r { g with wr := g.wr + 1 }
        (if g.irqEn then u.postIm d (0x100 * p + r) rec.cookie else u, .written)
      | (u, .error _) => (u.busDone d (.event n), .undeliverable 0x1305 va)
      | (u, .wait) => (u, .waits)
    | (t, .fault c range) => (t.faultAccess d c range (.event n) p rec.ctx va .write, .waits)
    | (t, .miss) => (t, .waits)
    | (t, .lost code info) => (t.busDone d (.event n), .undeliverable code info)

/-- The number of the next event record that waits, on any die. -/
def eventNext (s : State) : Nat := (s.die die0).evNext

/-- An event record of a ring waits on some die: a later one of the ring waits behind it (R251). -/
def ringWaits (s : State) (p r : Nat) : Bool :=
  s.allDies.any fun d => (s.die d).evWait.any fun e => decide (e.2.1 = p) && decide (e.2.2.1 = r)

/-- An event record waits on a die under a number. -/
def waitEvent (s : State) (d : DieId) (n p r : Nat) (rec : EventRec) : State :=
  let k := s.die d
  let s := s.setDie d { k with evWait := k.evWait ++ [(n, p, r, rec)] }
  s.setDie die0 { s.die die0 with evNext := n + 1 }

/-- Post an event record: it is written, or waits; the code and INFO of one that can do neither (R251).
DEDUCED, log entry 27. -/
def tryEvent (s : State) (d : DieId) (p r : Nat) (rec : EventRec) : State × Option (Nat × Nat) :=
  let n := s.eventNext
  if s.ringWaits p r then (s.waitEvent d n p r rec, none)
  else
    match s.writeEvent d p r rec n with
    | (t, .written) => (t, none)
    | (t, .waits) => (t.waitEvent d n p r rec, none)
    | (t, .undeliverable code info) => (t, some (code, info))

/-- A record that cannot be written is logged, and is reported by an UNDELIVERABLE record in ring 0 of the partition;
where that write is itself undeliverable, only the log entry is kept (R275 steps 1 to 3). DEDUCED, log entry 27. -/
def logUndeliverable (s : State) (d : DieId) (p : Nat) (rec : EventRec) : State :=
  ((s.logOverflow d rec).tryEvent d p 0 { type := 4, ctx := rec.ctx, queue := rec.queue }).1

/-- Whether a launch belongs to a context. -/
def launchesOf (s : State) (ctx : Nat) : List Nat := (s.launches.entries.filter fun e => decide (e.2.ctx = ctx)).map (·.1)

/-- The places in the order of dispatch under which a stream engine's image accesses of a core, and of a cluster's map
store, wait for translation. -/
def imageOrd : Nat := 2 ^ 64
def mapImageOrd : Nat := 2 ^ 64 + 1

/-- The core whose stream engine carries a block of a store's image: the core itself; the enabled cores of the cluster in turn
for a map store (R185). -/
def imageEngine (s : State) (st : StoreId) (n : Nat) : CoreId :=
  match st with
  | .core c => c
  | .map k =>
    let on := (s.clusterCores k).filter fun c => (s.core c).enabled
    on.getD (n % max 1 on.length) ⟨k.die, k.cl, 0⟩

/-- The unit that makes the accesses of an image's block. -/
def imageOwner (s : State) (st : StoreId) (n : Nat) : Owner :=
  .stream (s.imageEngine st n).key (match st with | .core _ => imageOrd | .map _ => mapImageOrd)

/-- The image of a store that is on its way. -/
def imgOf (s : State) : StoreId → Option ImageJob
  | .core c => (s.core c).img
  | .map k => (s.cluster k).img
def setImg (s : State) (st : StoreId) (j : Option ImageJob) : State :=
  match st with
  | .core c => s.setCore c { s.core c with img := j }
  | .map k => s.setCluster k { s.cluster k with img := j }

/-- The save of an image that is no longer wanted ends, with its access that waits for translation (R183). -/
def dropImage (s : State) (st : StoreId) : State :=
  match s.imgOf st with
  | none => s
  | some j => (s.setImg st none).withdraw (s.imageEngine st 0).die fun o => decide (o = s.imageOwner st j.done)

/-- The unit is the core itself, working for the launch it holds (R295). -/
def ownerIsCore (c : CoreId) : Owner → Bool
  | .stream k ord => decide (k = c.key) && decide (ord ≠ mapImageOrd)
  | .seqLoad k => decide (k = c.key)
  | .seqStore k _ => decide (k = c.key)
  | .fetch k => decide (k = c.key)
  | .pool1 k => decide (k = c.key)
  | _ => false

/-- Tokens whose writing instruction is discarded become EMPTY (Table 06-4): those an undispatched write has left
FILLING and no instruction in flight writes. -/
def dropFilling (k : Core) : Core :=
  let kept := (k.strRun.map (·.ins)) ++ k.vecRun ++ k.arrs.values.flatMap (·.run)
  let busy := kept.flatMap (·.writes)
  { k with tokens := k.tokens.mapKV fun t v =>
      if decide (v.st = .filling) && !busy.contains t then { v with st := .empty } else v }

/-- A core stops: its sequencer executes no later instruction, the engine instructions queued are discarded, those in
flight stay, and its stalled accesses are withdrawn, with the stream instructions they belong to (R113, R295). R113
names the instructions queued behind the one that faults; the model discards every queued one, dispatched before or after
it, and those of the launch's other cores. DESIGN CHOICE, log entry 75. -/
def stopCore (s : State) (c : CoreId) : State :=
  let k := s.core c
  let k := { k with
    run := if k.run = .idle ∨ k.run = .reset then k.run else .stopped
    stall := .none
    strQ := []
    strRun := k.strRun.filter fun r => !r.held
    vecQ := []
    syncQ := []
    arrs := k.arrs.mapVals fun a => { a with queue := [], group := [] }
    atBarrier := none
    grantReq := false
    pairPoint := none
    pairPassed := false }
  (s.setCore c (dropFilling k)).withdraw c.die (ownerIsCore c)

/-- The cores of a die that work for a launch. -/
def launchCores (s : State) (q : Nat) (d : DieId) : List CoreId :=
  (s.dieCores d).filter fun c => decide ((s.core c).part = some q)

/-- The images of a launch on a die whose accesses wait for translation, of its cores and of their map stores, are
withdrawn (R295). -/
def withdrawImages (s : State) (q : Nat) (d : DieId) : State :=
  let maps := ((s.allClusters d).filter fun k => ((s.cluster k).occupant.map (·.1)) == some q).flatMap fun k =>
    (s.clusterCores k).map fun c => Owner.stream c.key mapImageOrd
  let cores := (s.launchCores q d).map fun c => Owner.stream c.key imageOrd
  s.withdraw d fun o => maps.contains o || cores.contains o

/-- The part of a launch on a die stops: its cores, and its images that wait for translation (R113, R295). -/
def stopPart (s : State) (q : Nat) (d : DieId) : State :=
  ((s.launchCores q d).foldl (fun s c => s.stopCore c) s).withdrawImages q d

/-- Every part of a launch stops: the home die's at once, the others by a message (R322). -/
def stopLaunch (s : State) (q : Nat) : State :=
  let home := (queueOf q).die
  let l := s.launches.get { ctx := 0, partition := 0, cmd := [], pos := 0 } q
  let s := s.stopPart q home
  (l.dies.filter fun d => decide (d ≠ home.val)).foldl (fun s d => s.sendMsg home (dieOf d) (.stop q)) s

/-- The writes of event records of a die that satisfy a test and are stalled on a translation fault are withdrawn: the records
are not written, and nothing is logged of them (R295). DESIGN CHOICE, log entry 27. -/
def dropEvents (s : State) (d : DieId) (p : Nat × Nat × Nat × EventRec → Bool) : State :=
  let gone := ((s.die d).evWait.filter fun x => p x && s.transHeld d (.event x.1)).map (·.1)
  let s := s.withdraw d fun o =>
    match o with
    | .event n => gone.contains n
    | _ => false
  s.setDie d { s.die d with evWait := (s.die d).evWait.filter fun x => !gone.contains x.1 }

/-- The event record of a signal that has been made is not waited for any more. -/
def eventGone (s : State) (f : FenceSig) : Bool :=
  f.ev.any fun e => !s.allDies.any fun d => (s.die d).evWait.any fun x => decide (x.1 = e)

/-- The stalled accesses of a context's queues, fence signals, event records and pool 1 calls are withdrawn when it becomes
LOST; a signal withdrawn so is not made, and one that has been made and whose event record is withdrawn is over (R295). -/
def withdrawCtx (s : State) (n : Nat) : State :=
  let qs := (s.queues.entries.filter fun e => decide (e.2.ctx = n)).map (·.1)
  let ls := s.launchesOf n
  let mine := fun o : Owner =>
    match o with
    | .command q => qs.contains q
    | .accept q => qs.contains q
    | .pin q => qs.contains q
    | .segs c _ => decide (c = n)
    | .fence f => ((s.fences.find? f).map (·.ctx)) == some n
    | .pool1 k => ((s.core (coreOf k)).part.map ls.contains).getD false
    | _ => false
  let s := s.allDies.foldl (fun s d => s.dropEvents d (fun x => decide (x.2.2.2.ctx = n))) s
  let s := s.allDies.foldl (fun s d => s.withdraw d mine) s
  { s with fences := s.fences.filter fun _ f => !(decide (f.ctx = n) && ((f.pa.isNone && f.result.isNone) || s.eventGone f)) }

/-- The queues of a context, in ascending order (R247). -/
def ctxQueues (s : State) (ctx : Nat) : List QueueId :=
  (s.queues.entries.filter fun e => decide (e.2.st ≠ .free) && decide (e.2.ctx = ctx)).map fun e => queueOf e.1

/-- The die whose command processor reports for a context: the home die of its lowest queue. -/
def ctxHome (s : State) (ctx : Nat) : DieId := ((s.ctxQueues ctx).head?.map (·.die)).getD die0

/-- The LOST event record, with the count of further faults of the launch whose program failed (R114, R247, R251). The
context is LOST already, so that an undeliverable record causes no further loss (R275). -/
def postLost (s : State) (n : Nat) : State :=
  let c := s.ctx n
  if c.posted then s
  else
    let more := (s.launches.values.find? fun l => decide (l.ctx = n) && decide (l.fault = some c.lossRecord)).map (·.fcount)
    let r := if c.lossRecord.prog then { c.lossRecord with fcount := more.getD c.lossRecord.fcount } else c.lossRecord
    let s := s.putCtx n { c with posted := true, lossRecord := r }
    let d := s.ctxHome n
    let e : EventRec := { type := 2, ctx := n, queue := 0xFFFFFFFF, status := c.lossStatus, detail := r.bytes }
    match s.tryEvent d c.partition c.evring e with
    | (t, none) => t
    | (t, some _) => t.logUndeliverable d c.partition e

/-- A message tells of a fault in a part of a launch of a context, and has not been taken. -/
def tellsFault (s : State) (n : Nat) : Msg → Bool
  | .partEnded q _ (some _) => ((s.launches.find? q).map (·.ctx)) == some n
  | _ => false

/-- The record of a program fault waits for its FCOUNT: a core of the launch has not stopped, or the message of a fault that
another die has detected is on its way (R114). -/
def faultsOpen (s : State) (n : Nat) : Bool :=
  let tells := fun f : Flit =>
    match f.body with
    | .ctl m => s.tellsFault n m
    | _ => false
  (s.ctx n).lossRecord.prog &&
    ((s.cores.values.any fun k =>
      match k.part.bind s.launches.find? with
      | some l => decide (l.ctx = n) && !(decide (k.run = .stopped) || decide (k.run = .idle) || decide (k.run = .reset))
      | none => false) ||
    (s.msgs.values.any fun m => s.tellsFault n m.2.2) ||
    s.links.values.any fun l => l.waiting.any tells || l.wire.any tells || l.held.any fun e => tells e.1)

/-- The stores that a context was the last to use are cleared before their next use, also those of launches that are over
(R181). -/
def dirtyStores (s : State) (n : Nat) : State :=
  let dirty := fun (c : Option Nat) (x : Store) => if c = some n then { x with clearDue := true } else x
  { s with
    cores := s.cores.mapVals fun k => { k with store := dirty k.lastCtx k.store }
    clusters := s.clusters.mapVals fun k => { k with map := dirty k.lastCtx k.map } }

/-- The context has run on a die: its last launch part there has ended, or its last command there has completed (R268). -/
def ranOn (s : State) (d : DieId) (ctx : Nat) : State :=
  let k := s.die d
  s.setDie d { k with
    lastRan := k.lastRan.put ctx k.ticks
    slots := k.slots.map fun x => if x.ctx = ctx then { x with lastRun := k.ticks } else x }

/-- A context becomes LOST: its state, LOSS_STATUS and LOSS_RECORD, the cause for the safety class, the LOST event record, and
the stop of its launches; the rest of the loss procedure follows (R247, R381). The record of a program fault is posted when
the launch's cores have stopped, which ends its FCOUNT (R114). The EVENT record of the safety class is written here, of a loss
by CTX_ABORT with code 0 and the context as INFO; a code with a cause of its own set it, and had its record, where the
fault was detected. A LOST context stays as it is, and asks for no resident slot (R236, R268). DESIGN CHOICE, log
entries 73 and 85. -/
def lose (s : State) (home : DieId) (n code cls : Nat) (rec : FaultRec) : State :=
  let c := s.ctx n
  if c.st = .free ∨ c.st = .lost then s
  else
    let s := s.putCtx n { c with st := .lost, lossStatus := BitVec.ofNat 32 (code * 65536 + cls), lossRecord := rec,
                                 losing := some cls }
    let s := if s.partSafety c.partition && (causeOf code).1.isNone then
        (if cls = 1 then s.setCause home (lossCause code) code false else s).eventRecord home code (if cls = 1 then rec.info else n)
      else s
    let s := s.allDies.foldl (fun s d =>
      let k := s.die d
      s.setDie d { k with slotWait := k.slotWait.filter (· ≠ n) }) s
    let s := if rec.prog then s else s.postLost n
    (s.launchesOf n).foldl (fun s q => s.stopLaunch q) ((s.dirtyStores n).withdrawCtx n)

/-- A record that cannot be delivered: it is logged and reported, and its context becomes LOST unless it is LOST already; of an
UNDELIVERABLE record nothing more is kept (R275). -/
def eventFailed (s : State) (d : DieId) (p : Nat) (rec : EventRec) (code info : Nat) : State :=
  if rec.type = 4 then s else (s.logUndeliverable d p rec).lose d rec.ctx code 1 (.outside code info)

/-- Post an event record for a context: it is written, waits for translation service, or is undeliverable, which
loses the context with F-1305 unless it is LOST already (R251, R275). DEDUCED, log entry 27. -/
def postEvent (s : State) (d : DieId) (p r : Nat) (rec : EventRec) : State :=
  match s.tryEvent d p r rec with
  | (t, none) => t
  | (t, some (code, info)) => t.eventFailed d p rec code info

/-- A launch fails at its home die with a fault detected at a count: the record is that of the first count, and among those of
one count that of the lowest logical core, a record of run A of a pair before one of run B; further faults are counted, the
context is lost and every part stops (R113, R114, R322, R375). DESIGN CHOICE, log entry 73. -/
def failLaunch (s : State) (q : Nat) (rec : FaultRec) (count : W64) : State :=
  match s.launches.find? q with
  | none => s
  | some l =>
    let home := (queueOf q).die
    let first := match l.fault with
      | none => true
      | some old => old.prog && rec.prog && ((old.runB && !rec.runB) || (old.runB == rec.runB) &&
          (decide (count < l.faultAt) || (decide (count = l.faultAt) && decide (rec.lcore < old.lcore))))
    let s := s.setLaunch q { l with
      fault := if first then some rec else l.fault
      faultAt := if first then count else l.faultAt
      fcount := if l.fault.isNone then l.fcount else satAdd 8 l.fcount 1 }
    let c := s.ctx l.ctx
    let s := if first && decide (c.losing = some 1) && !c.posted && decide (l.fault = some c.lossRecord) then
        s.putCtx l.ctx { c with lossStatus := BitVec.ofNat 32 (rec.code * 65536 + 1), lossRecord := rec }
      else s
    (s.lose home l.ctx rec.code 1 rec).stopLaunch q

/-- A fault outside a program that a die detects in the part of a launch that it runs: the launch fails at the home die, which a
part on another die tells by message (R20, R322). The entry of the part list goes with the message (R352). -/
def partFault (s : State) (d : DieId) (q ldie : Nat) (rec : FaultRec) : State :=
  let k := s.die d
  let s := s.setDie d { k with parts := k.parts.filter fun x => decide (x.queue ≠ q) }
  let count := k.count
  if (queueOf q).die = d then s.failLaunch q rec count
  else s.sendMsg d (queueOf q).die (.partEnded q ldie (some (rec, count)))

/-- A program fault of a core (R112 to R114): the core and the other cores of its part stop; the launch fails at the
home die, which a part on another die tells by message. -/
def progFault (s : State) (c : CoreId) (src code addr info pc insn : Nat) : State :=
  let k := s.core c
  let rec' : FaultRec := { code := code, src := src, lcore := k.lcore, ldie := k.ldie, pc := pc, insn := insn,
                           addr := addr, info := info, prog := true, runB := k.runB }
  match k.part with
  | none => s.stopCore c
  | some q =>
    ((s.stopCore c).stopPart q c.die).partFault c.die q k.ldie rec'

/-- A program fault detected at the instruction a core is executing. -/
def seqFault (s : State) (c : CoreId) (src code addr info : Nat) (w : W32) : State :=
  s.progFault c src code addr info (s.core c).seq.pc.toNat w.toNat

/-- A program fault raised by an engine for an instruction it was given (R112, R152). -/
def engFault (s : State) (c : CoreId) (src code addr info : Nat) (i : EInstr) : State :=
  s.progFault c src code addr info i.pc.toNat i.word.toNat

end State

end Sys2Proof.Machine
end

