-- ==== Sys2Proof/Machine/ResetOps.lean ====
section
/-!
DEFINITION. Reset units: which contains which, UNIT numbers, the regions a dump collects, and the start of the reset
ladder (R351, R358 to R365, Tables 18-1, 18-3, 18-5, 18-6).
-/
namespace Sys2Proof.Machine

/-- The level of a reset unit (Table 18-1). -/
def ResetUnit.level : ResetUnit → ResetLevel
  | .array _ | .vector _ | .stream _ | .gen _ _ => .engine
  | .core _ => .core
  | .cluster _ => .cluster
  | .die _ => .die

/-- LEVEL of Table 18-6. -/
def ResetLevel.num : ResetLevel → Nat
  | .engine => 1 | .core => 2 | .cluster => 3 | .die => 4

/-- The deadline of a level, in counts from detection (Table 18-1). -/
def ResetLevel.deadline : ResetLevel → Nat
  | .engine => 2000 | .core => 6000 | .cluster => 15000 | .die => 40000

/-- The next level up. -/
def ResetLevel.next : ResetLevel → Option ResetLevel
  | .engine => some .core | .core => some .cluster | .cluster => some .die | .die => none

/-- Collection at a level stops when 40 % of its span has passed, in counts (R364). -/
def ResetLevel.collect : ResetLevel → Nat
  | .engine => 800 | .core => 1600 | .cluster => 3600 | .die => 10000

/-- The die of a reset unit. -/
def ResetUnit.dieId : ResetUnit → DieId
  | .array a => a.core.die
  | .vector c => c.die
  | .stream c => c.die
  | .gen k _ => k.die
  | .core c => c.die
  | .cluster k => k.die
  | .die d => d

/-- The core that contains a reset unit, where one does. -/
def ResetUnit.coreOf? : ResetUnit → Option CoreId
  | .array a => some a.core
  | .vector c => some c
  | .stream c => some c
  | .core c => some c
  | _ => none

/-- The cluster that contains a reset unit, where one does. -/
def ResetUnit.clusterOf? : ResetUnit → Option ClusterId
  | .gen k _ => some k
  | .cluster k => some k
  | .die _ => none
  | u => u.coreOf?.map CoreId.cluster

/-- The reset unit of a level that contains a unit (R359). A window generator lies in no core, so its next level is
its cluster. -/
def ResetUnit.atLevel (u : ResetUnit) (l : ResetLevel) : ResetUnit :=
  match l with
  | .engine => u
  | .core =>
    match u.coreOf? with
    | some c => .core c
    | none => match u.clusterOf? with
      | some k => .cluster k
      | none => .die u.dieId
  | .cluster =>
    match u.clusterOf? with
    | some k => .cluster k
    | none => .die u.dieId
  | .die => .die u.dieId

/-- Whether a reset unit contains another, or is it. -/
def ResetUnit.contains (big small : ResetUnit) : Bool :=
  match big with
  | .die d => decide (small.dieId = d)
  | .cluster k => decide (small.clusterOf? = some k)
  | .core c => decide (small.coreOf? = some c)
  | u => decide (u = small)

/-- UNIT of Table 18-6. -/
def ResetUnit.num (u : ResetUnit) : Nat :=
  let lvl := place u.level.num 12
  let cl := place ((u.clusterOf?.map fun k => k.cl.val).getD 0) 8
  let co := place ((u.coreOf?.map fun c => c.core.val).getD 0) 6
  match u with
  | .array a => lvl + cl + co + place 0 3 + a.arr.val
  | .vector _ => lvl + cl + co + place 1 3
  | .stream _ => lvl + cl + co + place 2 3
  | .gen _ g => lvl + cl + place 3 3 + g.val
  | _ => lvl + cl + co + place 7 3

/-- The bytes of a token entry (Table 08-7). -/
def Token.bytes (t : Token) : List Byte :=
  let st := match t.st with | .empty => 0 | .filling => 1 | .present => 2
  let g := (t.window.map (·.gen)).getD 0
  bytesLE 8 t.region.toNat ++
    bytesLE 8 (setField t.shape.toNat 31 25 (place st 0 + place (bit t.window.isSome) 2 + place g 3))

/-- The store error register (Table 08-3). -/
def Store.errReg (x : Store) : Nat :=
  place x.lastWord.toNat 41 + place x.ceCount.toNat 16 + place (bit x.scrubUE) 2 + place (bit x.ue) 1 + bit x.ce

/-- Fault causes (Table 14-4). -/
def FaultCause.code : FaultCause → Nat
  | .unmapped => 1 | .readDenied => 2 | .writeDenied => 3 | .fetchDenied => 4 | .badDie => 5 | .badEntry => 6
  | .walkError => 7

/-- The mask of the cores of a die whose accesses a record holds (Table 14-4 SE_MASK, SQ_MASK). Bit c is the core with
physical number c of the die: core j of cluster i of a build with n cores in a cluster counts as n i + j (DEDUCED).
DEDUCED, log entry 64. -/
def FqRec.mask (r : FqRec) (n : Nat) (stream : Bool) : Nat :=
  r.accs.foldl (fun m a =>
    let bitOf := fun k : Nat => m ||| 2 ^ (k % 64 / 4 * n + k % 4)
    match a.1 with
    | .stream k _ => if stream then bitOf k else m
    | .seqLoad k => if stream then m else bitOf k
    | .seqStore k _ => if stream then m else bitOf k
    | .fetch k => if stream then m else bitOf k
    | _ => m) 0

/-- OTHER of Table 14-4. -/
def FqRec.other (r : FqRec) : Nat :=
  r.accs.foldl (fun m a =>
    match a.1 with
    | .command _ => m ||| 1
    | .accept _ => m ||| 1
    | .event _ => m ||| 1
    | .fence _ => m ||| 2
    | .pool1 _ => m ||| 4
    | _ => m) 0

/-- The 64 bytes of a fault queue slot (Table 14-4). -/
def FqRec.bytes (r : FqRec) (n : Nat) : List Byte :=
  bytesLE 1 (if r.hot then 2 else 1) ++ bytesLE 1 (if r.hot then 0 else r.cause.code) ++ bytesLE 1 r.access ++
    bytesLE 1 r.partition ++ bytesLE 2 r.ctx ++ bytesLE 2 r.seq.toNat ++ bytesLE 8 r.va ++ bytesLE 8 (r.mask n true) ++
    bytesLE 8 (r.mask n false) ++ bytesLE 1 r.other ++ bytesLE 1 0 ++ bytesLE 2 r.count ++ bytesLE 4 0 ++
    bytesLE 8 r.time.toNat ++ bytesLE 8 r.range ++ bytesLE 8 0

namespace State

/-- Contexts with a core in a reset unit. -/
def ctxsIn (s : State) (u : ResetUnit) : List Nat :=
  (((s.dieCores u.dieId).filter fun c => u.contains (.core c)).filterMap fun c =>
    ((s.core c).part.bind s.launches.find?).map (·.ctx)).eraseDups

/-- The regions of a vector unit and of a stream engine, which Table 18-5 gives for their core. -/
def vectorRegion (c : CoreId) : RegionTodo := { path := c.cl.val, id := 0x04, unit := (ResetUnit.core c).num, len := 128, key := c.key }
def streamRegion (c : CoreId) : RegionTodo := { path := c.cl.val, id := 0x05, unit := (ResetUnit.core c).num, len := 256, key := c.key }

/-- The region of a window generator. -/
def genRegion (k : ClusterId) (g : Fin 4) : RegionTodo :=
  { path := k.cl.val, id := 0x11, unit := (ResetUnit.gen k g).num, len := 320, key := k.key, idx := g.val }

/-- The regions of a core (Table 18-5). -/
def coreRegions (s : State) (c : CoreId) : List RegionTodo :=
  let u := (ResetUnit.core c).num
  let r := fun id len => ({ path := c.cl.val, id := id, unit := u, len := len, key := c.key } : RegionTodo)
  let arrs := (List.range s.build.arrays).map fun i =>
    ({ path := c.cl.val, id := 0x03, unit := (ResetUnit.array ⟨c, Fin.ofNat 4 i⟩).num, len := 64, key := c.key,
       idx := i } : RegionTodo)
  [r 0x01 320, r 0x02 1024] ++ arrs ++ [vectorRegion c, streamRegion c, r 0x06 16]

/-- The regions of a cluster without its cores (Table 18-5). -/
def clusterRegions (k : ClusterId) : List RegionTodo :=
  let u := (ResetUnit.cluster k).num
  let r := fun id len => ({ path := k.cl.val, id := id, unit := u, len := len, key := k.key } : RegionTodo)
  [r 0x10 512, genRegion k 0, genRegion k 1, genRegion k 2, genRegion k 3, r 0x12 16]

/-- The queue and semaphore regions of the contexts with a core in a unit, at most 256 queue regions. -/
def ctxRegions (s : State) (u : ResetUnit) : List RegionTodo :=
  let cs := s.ctxsIn u
  let qs := ((s.queues.entries.filter fun e => decide (e.2.st ≠ .free) && cs.contains e.2.ctx).map (·.1)).take 256
  let ls := (s.launches.entries.filter fun e => cs.contains e.2.ctx).map (·.1)
  let mine := fun k : Nat => ((s.core (coreOf k)).part.map ls.contains).getD false
  let ms := (s.sems.entries.filter fun e => e.2.holders.any mine || e.2.waiters.any mine).map (·.1)
  (qs.map fun q => ({ path := 16, id := 0x20, unit := q % 65536, len := 64, key := q } : RegionTodo)) ++
    ms.map fun m => ({ path := 16, id := 0x21, unit := m, len := 32, key := m } : RegionTodo)

/-- The regions of a reset unit, in the order of Table 18-5 on each path (R364). -/
def regionsOf (s : State) (u : ResetUnit) : List RegionTodo :=
  let sorted := fun l : List RegionTodo => l.mergeSort fun a b => decide (a.id ≤ b.id)
  match u with
  | .array a =>
    [{ path := a.core.cl.val, id := 0x03, unit := u.num, len := 64, key := a.core.key, idx := a.arr.val }]
  | .vector c => [vectorRegion c]
  | .stream c => [streamRegion c]
  | .gen k g => [genRegion k g]
  | .core c => s.coreRegions c ++ s.ctxRegions u
  | .cluster k => sorted ((s.clusterCores k).flatMap s.coreRegions ++ clusterRegions k) ++ s.ctxRegions u
  | .die d =>
    sorted ((s.dieCores d).flatMap s.coreRegions ++ (s.allClusters d).flatMap clusterRegions) ++ s.ctxRegions u ++
      ((s.die d).fq.keys.map fun i => ({ path := 16, id := 0x22, unit := i, len := 64, key := i } : RegionTodo)) ++
      [{ path := 16, id := 0x23, unit := d.val, len := 32, key := d.val }]

/-- The regions of a unit that a dump has not collected (R359). -/
def regionsLeft (s : State) (u : ResetUnit) (x : Dump) : List RegionTodo :=
  (s.regionsOf u).filter fun r => !x.regions.any fun y => decide (y.id = r.id) && decide (y.key = r.key) && decide (y.idx = r.idx)

/-- Bytes of a region record, and of a dump (R365). -/
def regionBytes (len : Nat) : Nat := 16 + roundUp len 16
def dumpBytes (x : Dump) : Nat := 64 + (x.regions.map fun r => regionBytes r.data.length).sum

/-- Bytes of a die's dump store in use, by the dumps held and those being made (R365). -/
def dumpUsed (s : State) (d : DieId) : Nat :=
  let k := s.die d
  (k.dumps.map dumpBytes).sum + ((k.escalations.filter (·.kept)).map fun e => dumpBytes e.dump).sum

/-- Bytes of the dump store that other dumps than that of an escalation use. -/
def dumpOthers (s : State) (d : DieId) (seqno : Nat) : Nat :=
  let k := s.die d
  (k.dumps.map dumpBytes).sum +
    ((k.escalations.filter fun e => e.kept && decide (e.dump.seqno ≠ seqno)).map fun e => dumpBytes e.dump).sum

/-- A core, or one of its engines, or a unit around it is in reset (R353). -/
def coreInReset (s : State) (c : CoreId) : Bool :=
  (s.die c.die).escalations.any fun e =>
    let u := e.unit.atLevel e.level
    e.resetAt.isSome && (u.contains (.core c) || decide (u.coreOf? = some c))

/-- Begin the collection of a level: the regions still to be read, each path starting now. -/
def beginLevel (s : State) (d : DieId) (e : Escalation) (l : ResetLevel) : Escalation :=
  let todo := s.regionsLeft (e.unit.atLevel l) e.dump
  let now := (s.die d).ticks
  { e with
    level := l
    todo := todo
    resetAt := none
    pathAt := (List.range 17).foldl (fun m p => m.put p now) {}
    dump := { e.dump with level := l.num } }

/-- An escalation in progress covers a unit (R360). -/
def covered (s : State) (u : ResetUnit) : Bool :=
  (s.die u.dieId).escalations.any fun e => (e.unit.atLevel e.level).contains u

/-- The compute part of a unit's die is held in reset, by its supply or after the last level of the ladder (R31, R359). -/
def outOfService (s : State) (u : ResetUnit) : Bool := (s.die u.dieId).computeReset && !s.covered u

/-- Escalations that lie inside the unit of another one, which has come to cover them, end there: what they have collected is
held as it is. DESIGN CHOICE, log entry 48. -/
def absorb (s : State) (d : DieId) (e : Escalation) : State :=
  let k := s.die d
  let u := e.unit.atLevel e.level
  let inside := fun x : Escalation => u.contains (x.unit.atLevel x.level) && decide (x.dump.seqno ≠ e.dump.seqno)
  let gone := (k.escalations.filter inside).filter (·.kept)
  let s := s.setDie d { k with
    escalations := k.escalations.filter fun x => !inside x
    dumps := k.dumps ++ gone.map (·.dump) }
  gone.foldl (fun s _ => s.postIm d (0x1200 + d.val) 0) s

/-- A starting event of the reset ladder in a unit (R358 to R360): it joins an escalation that covers the unit; or the oldest
escalation whose unit it contains moves to its level, with the time and the start it had, and absorbs the others; or it
starts an escalation of its own with its dump. A unit that is held in reset without one starts none. -/
def startLadder (s : State) (u : ResetUnit) (code : Nat) : State :=
  let d := u.dieId
  let k := s.die d
  if s.outOfService u then s else
  let join := fun e : Escalation => { e with dump := { e.dump with joined := satAdd 16 e.dump.joined 1 } }
  if s.covered u then
    s.setDie d { k with
      escalations := k.escalations.map fun e => if (e.unit.atLevel e.level).contains u then join e else e }
  else
    match k.escalations.find? fun e => u.contains e.unit with
    | some e =>
      let m := join (s.beginLevel d { e with unit := u, from' := k.ticks } u.level)
      (s.setDie d { k with
        escalations := k.escalations.map fun x => if x.dump.seqno = e.dump.seqno then m else x }).absorb d m
    | none =>
      let x : Dump := { level := u.level.num, die := d.val, unit := u.num, cause := code, t0 := k.count, seqno := k.dumpSeq }
      let fits := decide (s.dumpUsed d + 64 ≤ 524288)
      let e : Escalation := { unit := u, start := u, code := code, level := u.level, t0 := k.ticks, from' := k.ticks,
                              kept := fits, dump := x }
      s.setDie d { k with
        escalations := k.escalations ++ [s.beginLevel d e u.level]
        dumpSeq := k.dumpSeq + 1
        dumpLost := if fits then k.dumpLost else satInc k.dumpLost }

/-- A fault that starts the ladder in a unit in service: its own effects, unless an escalation covers the unit already and its code is
only recorded in the dump (R360); and the ladder. -/
def startEvent (s : State) (u : ResetUnit) (code : Nat) (act : State → State) : State :=
  if s.outOfService u then s else (if s.covered u then s else act s).startLadder u code

end State

end Sys2Proof.Machine
end

