-- ==== Sys2Proof/Machine/StoreOps.lean ====
section
/-!
DEFINITION. Reads and writes of a core store or map store with its error protection (R174, R177 to R181).
-/
namespace Sys2Proof.Machine

/-- Bytes of a core store and of a map store (Table 08-1). -/
def coreStoreSize : Nat := 1048576
def mapStoreSize : Nat := 6291456

namespace Store

/-- The content of a byte. -/
def byteAt (x : Store) (off : Nat) : Byte :=
  match x.bytes.find? off with
  | some b => b
  | none =>
    match x.base with
    | none => 0
    | some n => Config.freeByte n off

/-- A byte given a value. -/
def putByte (x : Store) (off : Nat) (b : Byte) : Store :=
  { x with bytes := if x.base.isNone then x.bytes.setD 0 off b else x.bytes.put off b }

/-- The words that `n` bytes at an offset touch. -/
def wordsOf (off n : Nat) : List Nat :=
  if n = 0 then [] else (List.range ((off + n - 1) / 16 + 1 - off / 16)).map (off / 16 + ·)

/-- A corrected single-bit error of a word (R178). -/
def correct (x : Store) (w : Nat) : Store :=
  { x with single := x.single.filter (· != w), ce := true, ceCount := satInc x.ceCount,
           lastWord := BitVec.ofNat 23 w }

/-- An uncorrectable read of a word (R179). -/
def uncorrectable (x : Store) (w : Nat) : Store := { x with ue := true, lastWord := BitVec.ofNat 23 w }

/-- A word is read: corrected, or uncorrectable (false). -/
def touch (x : Store) (w : Nat) : Store × Bool :=
  if x.bad.contains w then (x.uncorrectable w, false)
  else if x.single.contains w then (x.correct w, true)
  else (x, true)

/-- The words of a list are read in order, up to the first that is uncorrectable. -/
def touchAll (x : Store) : List Nat → Store × Option Nat
  | [] => (x, none)
  | w :: ws =>
    match x.touch w with
    | (y, true) => y.touchAll ws
    | (y, false) => (y, some (16 * w))

/-- A read of `n` bytes: the data, or the byte offset of an uncorrectable word (R178, R179). -/
def read (x : Store) (off n : Nat) : Store × List Byte × Option Nat :=
  match x.touchAll (wordsOf off n) with
  | (y, some w) => (y, [], some w)
  | (y, none) => (y, (List.range n).map fun i => y.byteAt (off + i), none)

/-- A word written in full or in part (R178): true unless a part write finds it uncorrectable. -/
def wordPut (x : Store) (w : Nat) (bs : List (Nat × Byte)) : Store × Bool :=
  if bs.length = 16 then
    (bs.foldl (fun x b => x.putByte b.1 b.2)
      { x with single := x.single.filter (· != w), bad := x.bad.filter (· != w) }, true)
  else
    match x.touch w with
    | (y, false) => (y, false)
    | (y, true) => (bs.foldl (fun x b => x.putByte b.1 b.2) y, true)

/-- Write bytes at their offsets, word by word; the offset of the first word that could not be written. -/
def writeAll (x : Store) (bs : List (Nat × Byte)) : List Nat → Store × Option Nat
  | [] => (x, none)
  | w :: ws =>
    match x.wordPut w (bs.filter fun b => decide (b.1 / 16 = w)) with
    | (y, true) => y.writeAll bs ws
    | (y, false) =>
      let z := y.writeAll bs ws
      (z.1, some (16 * w))

/-- Write a string of bytes from an offset on. -/
def write (x : Store) (off : Nat) (bs : List Byte) : Store × Option Nat :=
  x.writeAll ((List.range bs.length).zip bs |>.map fun b => (off + b.1, b.2)) (wordsOf off bs.length)

/-- Every word becomes zero with correct check bits (R181). -/
def clear (x : Store) : Store := { x with bytes := {}, base := none, single := [], bad := [], clearDue := false }

/-- The content becomes undefined, by free value `n` (R177). DEDUCED, log entry 15. -/
def forget (x : Store) (n : Nat) : Store := { x with bytes := {}, base := some n }

/-- The bytes of a region that have been written become undefined, by free value `f`; the others keep the zeros that a
clear guarantees, or are undefined already (R181, R187). DESIGN CHOICE, log entry 73. -/
def unsettle (x : Store) (off n f : Nat) : Store :=
  x.bytes.keys.foldl (fun y a => if off ≤ a ∧ a < off + n then y.putByte a (Config.freeByte f a) else y) x

end Store

end Sys2Proof.Machine
end

