-- ==== Sys2Proof/Machine/CoreOps.lean ====
section
/-!
DEFINITION. What the rows of a core share: its launch, its arrays by logical number, tokens and claims, halo counters,
check values, and the load grant (R18, R66, R118 to R124, R371).
-/
namespace Sys2Proof.Machine

/-- Fields of a token's descriptor (Table 06-3). -/
def Token.base (t : Token) : Nat := field t.region.toNat 19 0
def Token.len (t : Token) : Nat := field t.region.toNat 40 20
def Token.pitch (t : Token) : Nat := 16 * field t.region.toNat 56 41
def Token.rows (t : Token) : Nat := field t.shape.toNat 24 0
def Token.cols (t : Token) : Nat := field t.shape.toNat 56 32

/-- Whether a role of `m` rows and `n` columns of a format fits a token (R120). -/
def Token.fits (t : Token) (fmt m n : Nat) : Bool :=
  decide (rowBytes fmt n ≤ t.pitch) && decide (m * t.pitch ≤ t.len)

/-- The check of SYNC.TDEF (R119). -/
def Token.descOk (region shape : W64) (csBytes : Nat) : Bool :=
  let t : Token := { region := region, shape := shape }
  decide (field region.toNat 63 57 = 0) && decide (field shape.toNat 63 57 = 0) &&
    decide (field shape.toNat 31 25 = 0) && decide (1 ≤ field region.toNat 56 41) &&
    inRange t.len 16 1048576 && decide (t.len % 16 = 0) && decide (t.base % 16 = 0) &&
    inRange t.rows 1 16777216 && inRange t.cols 1 16777216 && decide (t.base + t.len ≤ csBytes) &&
    decide (t.rows * t.pitch ≤ t.len)

/-- A check that an instruction makes of its tokens once they are free of earlier claims (R498): the tokens it concerns,
and SRC, code and INFO where it fails. -/
abbrev TokenCheck := List Nat × Option (Nat × Nat × Nat)

/-- The code of a phase (Table 05-3) and of a token state (R140). -/
def Phase.code : Phase → Nat
  | .load => 0 | .compute => 1 | .store => 2
def TokState.code : TokState → Nat
  | .empty => 0 | .filling => 1 | .present => 2

/-- The code of an array controller state (Table 04-4). -/
def ArrMode.code : ArrMode → Nat
  | .quiet => 0 | .ramp => 1 | .busy => 2 | .fill => 3 | .fillDown => 4

namespace Core

/-- Engine instructions dispatched and not completed: of the arrays, the stream engine, the vector unit and all. -/
def arrList (k : Core) : List EInstr := k.arrs.values.flatMap fun a => a.queue ++ a.group ++ a.run
def strList (k : Core) : List EInstr := k.strQ ++ k.strRun.map (·.ins)
def vecList (k : Core) : List EInstr := k.vecQ ++ k.vecRun
def allList (k : Core) : List EInstr := k.arrList ++ k.strList ++ k.vecList ++ k.syncQ

/-- Some instruction of a list was dispatched before a place in the order. -/
def anyBefore (l : List EInstr) (ord : Nat) : Bool := l.any fun i => decide (i.ord < ord)

/-- A token. -/
def tok (k : Core) (t : Nat) : Token := k.tokens.get {} t

/-- A token given a value. -/
def setTok (k : Core) (t : Nat) (v : Token) : Core := { k with tokens := k.tokens.setD {} t v }

/-- A token given a state. -/
def setTokState (k : Core) (t : Nat) (st : TokState) : Core := k.setTok t { k.tok t with st := st }

/-- A write claim, or any claim, taken earlier on a token is outstanding (R123). -/
def writeBefore (k : Core) (ord t : Nat) : Bool :=
  k.allList.any fun i => decide (i.ord < ord) && i.writes.contains t
def claimBefore (k : Core) (ord t : Nat) : Bool :=
  k.allList.any fun i => decide (i.ord < ord) && (i.writes.contains t || i.reads.contains t)

/-- Every read claim of an instruction is satisfied (R123). -/
def readsOk (k : Core) (i : EInstr) : Bool :=
  i.reads.all fun t => !k.writeBefore i.ord t && decide ((k.tok t).st = .present)

/-- Every write claim of an instruction is satisfied, its tokens being in one of some states (R123). -/
def writesOk (k : Core) (i : EInstr) (sts : List TokState) : Bool :=
  i.writes.all fun t => !k.claimBefore i.ord t && sts.contains (k.tok t).st

/-- Every claim that earlier instructions took on some tokens has been released (R498), or on all that an instruction
names. -/
def freedOf (k : Core) (ord : Nat) (ts : List Nat) : Bool := ts.all fun t => !k.claimBefore ord t
def freed (k : Core) (i : EInstr) : Bool := k.freedOf i.ord (i.reads ++ i.writes)

/-- The first of an instruction's token checks that fails, each made when the tokens it concerns are free (R498). -/
def failedCheck (k : Core) (i : EInstr) (cs : List TokenCheck) : Option (Nat × Nat × Nat) :=
  cs.findSome? fun x => if k.freedOf i.ord x.1 then x.2 else none

/-- Stores of the sequencer that were made before an engine instruction was dispatched are complete (R144, R146,
R188). -/
def storesDone (k : Core) (i : EInstr) : Bool := k.stores.all fun e => decide (i.stores ≤ e.1)

/-- A vector register's lane, and a lane given a value (R192). -/
def lane (k : Core) (v l : Nat) : W32 := k.v.get 0 (v * 64 + l)
def setLane (k : Core) (v l : Nat) (x : W32) : Core := { k with v := k.v.setD 0 (v * 64 + l) x }

/-- All 64 lanes of a register, and a register given its lanes. -/
def lanes (k : Core) (v : Nat) : List W32 := (List.range 64).map (k.lane v)
def setLanes (k : Core) (v : Nat) (xs : List W32) : Core :=
  ((List.range 64).zip xs).foldl (fun k e => k.setLane v e.1 e.2) k

/-- SEQ_STATUS but for GRANT and LCRED, which the cluster and the requests give (Table 05-3). -/
def seqStatus (k : Core) (grant : Bool) (lcred : Nat) : Nat :=
  place k.phase.code 30 + place k.seq.stack.length 25 + place k.sems.length 22 + place (bit k.ypend) 21 +
    place (bit grant) 20 + place (min lcred 255) 12

/-- ARR_STAT (Table 04-4). -/
def groupRows (k : Core) (a : Arr) : Nat := (a.group.map fun i => (k.tok (fTA i.word)).rows).foldl (· + ·) 0
def arrStat (k : Core) (a : Arr) : Nat :=
  place a.fpass.toNat 24 + place a.mode.code 21 + place a.density 17 + place (bit a.fillerFail) 16 +
    place a.failPat 11 + place a.queue.length 6 + k.groupRows a

end Core

/-- The timer of a LAUNCH runs from a tick on, or pauses (R266). -/
def Queue.timerRun (k : Queue) (now : Nat) : Queue := if k.timed then k else { k with timed := true, timerAt := now }
def Queue.timerPause (k : Queue) (now : Nat) : Queue :=
  if k.timed then { k with timed := false, timer := k.timer + (now - k.timerAt) } else k

/-- A logical cluster none of whose cores is on a core any more has left its physical cluster (R143, R269). -/
def Launch.vacate (l : Launch) (lcl : Nat) (runB : Bool) : Launch :=
  let mine := fun x : LogCore => decide (x.lcl = lcl) && (x.runB == runB)
  if (l.cores.filter mine).all fun x => x.at?.isNone then
    { l with clusters := l.clusters.map fun x => if x.lcl = lcl ∧ x.runB = runB then { x with at? := none } else x }
  else l

/-- The reserved bits of ARR_FMT, ARR_CFG and ARR_AST (Tables 03-3, 03-7, 04-1). -/
def fmtRsv : W32 := 0x0000001F
def cfgRsv : W32 := 0xFF000000
def astRsv : W32 := 0xFFFFFFC0

namespace State

/-- The ones that a write puts into reserved bits of a 32-bit register set RSVD_WRITE of the die (R8). -/
def noteRsvd (s : State) (d : DieId) (ones : W32) : State :=
  if ones = 0 then s else s.setDie d { s.die d with rsvdWrite := true }

/-- The launch a core works for. -/
def coreLaunch (s : State) (c : CoreId) : Option Launch := (s.core c).part.bind s.launches.find?

/-- Its partition, context and queue. -/
def corePartition (s : State) (c : CoreId) : Nat := ((s.coreLaunch c).map (·.partition)).getD 0
def coreCtx (s : State) (c : CoreId) : Nat := ((s.coreLaunch c).map (·.ctx)).getD 0
def coreQueue (s : State) (c : CoreId) : Nat := ((s.core c).part).getD 0

/-- The core of the other run of a paired launch (R371). -/
def partner (s : State) (c : CoreId) : Option CoreId :=
  let k := s.core c
  match s.coreLaunch c with
  | none => none
  | some l =>
    (l.cores.find? fun x => decide (x.lcore = k.lcore) && decide (x.ldie = k.ldie) && (x.runB != k.runB)).bind (·.at?)

/-- A launch is paired: it has a run B. -/
def isPaired (s : State) (c : CoreId) : Bool := ((s.coreLaunch c).map fun l => l.cores.any (·.runB)).getD false

/-- The enabled arrays of a core, in ascending physical order (R66). DEDUCED, log entry 70. -/
def enabledArrays (s : State) (c : CoreId) : List Nat :=
  (List.range s.build.arrays).filter fun i => ((s.core c).arrs.get {} i).enabled

/-- The physical array of a logical number: R66, and the rotation of R371 in run B. DEDUCED, log entry 70. -/
def physArray (s : State) (c : CoreId) (la : Nat) : Option ArrayId :=
  let l := s.enabledArrays c
  match l with
  | [] => none
  | _ => some ⟨c, Fin.ofNat 4 (l.getD ((la + bit (s.core c).runB) % l.length) 0)⟩

/-- The core holds its cluster's load grant (R18). -/
def holdsGrant (s : State) (c : CoreId) : Bool := decide ((s.cluster c.cluster).holder = some c.core)

/-- The core gives its cluster's load grant up. -/
def releaseGrant (s : State) (c : CoreId) : State :=
  if s.holdsGrant c then s.setCluster c.cluster { s.cluster c.cluster with holder := none } else s

/-- LCRED: requests of a core's stream engine that hold a Mitten credit (R161). -/
def lcred (s : State) (c : CoreId) : Nat :=
  s.reqs.entries.countP fun e =>
    match e.2.owner, e.2.st with
    | .stream k _, .remote _ _ => decide (k = c.key)
    | _, _ => false

/-- The cores of a launch on one logical cluster, run by run, with the lowest logical core first. -/
def clusterPeers (s : State) (c : CoreId) : List LogCore :=
  let k := s.core c
  match s.coreLaunch c with
  | none => []
  | some l => (l.cores.filter fun x => decide (x.ldie = k.ldie) && decide (x.lcl = k.lcluster) && (x.runB == k.runB))

/-- The number of a logical core within its logical cluster: cores with a lower logical index come first. -/
def lcoreInCluster (s : State) (c : CoreId) : Nat :=
  (s.clusterPeers c).countP fun x => decide (x.lcore < (s.core c).lcore)

/-- A halo counter of the core's cluster (R145). -/
def halo (s : State) (c : CoreId) (i : Nat) : W32 := (s.cluster c.cluster).halo.get 0 i

/-- A core's record changed by a function. -/
def updCore (s : State) (c : CoreId) (f : Core → Core) : State := s.setCore c (f (s.core c))

/-- A core's sequencer has made progress, or a defined wait of it has ended: its watchdog counts from here (R358). -/
def moved (s : State) (c : CoreId) : State := s.updCore c fun k => { k with progAt := (s.die c.die).ticks }

/-- An array's record changed by a function. -/
def updArr (s : State) (a : ArrayId) (f : Arr → Arr) : State := s.setArr a (f (s.arr a))

/-- A read of a core store made for a unit of its core: the data, or a program fault F-0810 (R178, R179). -/
def csRead (s : State) (c : CoreId) (off n : Nat) : State × List Byte × Option Nat :=
  let r := (s.core c).store.read off n
  (s.updCore c fun k => { k with store := r.1 }, r.2.1, r.2.2)

/-- A write of a core store. -/
def csWrite (s : State) (c : CoreId) (off : Nat) (bs : List Byte) : State × Option Nat :=
  let r := (s.core c).store.write off bs
  (s.updCore c fun k => { k with store := r.1 }, r.2)

/-- A read and a write of the map store of a core's cluster. -/
def msRead (s : State) (k : ClusterId) (off n : Nat) : State × List Byte × Option Nat :=
  let x := s.cluster k
  let r := x.map.read off n
  (s.setCluster k { x with map := r.1 }, r.2.1, r.2.2)
def msWrite (s : State) (k : ClusterId) (off : Nat) (bs : List Byte) : State × Option Nat :=
  let x := s.cluster k
  let r := x.map.write off bs
  (s.setCluster k { x with map := r.1 }, r.2)

/-- The rows of X of a completed instruction that padding alone has filled are counted in WPAD (R210). -/
def addWpad (s : State) (c : CoreId) (g : Geom) : State :=
  s.updCore c fun k => { k with wpad := BitVec.ofNat 32 (satAdd 32 k.wpad.toNat (g.cin * g.padTaps)) }

end State

end Sys2Proof.Machine
end

