-- ==== Sys2Proof/Machine/MmOps.lean ====
section
/-!
DEFINITION. Matrix instructions of an array: shapes and legality, issue, gather groups, the product and its outputs,
and the array controller (R45 to R89, R121, R125 to R128, R206, R210).
-/
namespace Sys2Proof.Machine

/-- EOP of the array instructions (Table 06-5). -/
def isMM (w : W32) : Bool := decide (eopField w = 0)
def isMMG (w : W32) : Bool := decide (eopField w = 1)

/-- Chains of an ARR_CFG value (R71). -/
def ArrCfg.chains (c : ArrCfg) : Nat := 16 / c.chain

/-- The shape an array instruction implies (R127): rows of C, reduction length and columns. -/
structure MmShape where
  m : Int
  k : Nat
  n : Nat
  /-- Rows of the streaming token, and its columns. -/
  rowsA : Nat
  colsA : Nat
  deriving DecidableEq, Repr

namespace Core

/-- The window geometry a token is bound to. -/
def tokGeom (k : Core) (t : Nat) : Option Geom := (k.tok t).window.map fun b => Geom.ofBytes b.geom

/-- The shape of an array instruction under ARR_CFG and the window geometry of its stationary token (R127). -/
def mmShapeOf (k : Core) (cfg : ArrCfg) (geom : Option Geom) (w : W32) : MmShape :=
  let a := k.tok (fTA w)
  let b := k.tok (fTB w)
  match geom with
  | some g => { m := a.rows, k := g.k, n := g.n, rowsA := a.rows, colsA := g.k }
  | none =>
    if cfg.mode = 1 then
      { m := (a.rows : Int) - ((cfg.chain - 1) * cfg.delay : Nat), k := 16 * a.cols / cfg.chains, n := b.cols,
        rowsA := a.rows, colsA := a.cols }
    else { m := a.rows, k := a.cols, n := b.cols, rowsA := a.rows, colsA := a.cols }

/-- The shape of an array instruction whose stationary token is bound as it stands now. -/
def mmShape (k : Core) (cfg : ArrCfg) (w : W32) : MmShape := k.mmShapeOf cfg (k.tokGeom (fTB w)) w

/-- The tokens of the scales of an MX instruction (R121). -/
def mmTokens (f : ArrFmt) (w : W32) : List Nat :=
  if opClass f.aFmt f.bFmt = some .mx then
    [fTA w, fTB w] ++ [fTA w + 1, fTB w + 1].filter (· < 64)
  else [fTA w, fTB w]

/-- F-0401: the checks of kind and fit of an array instruction's tokens, each with the tokens that it concerns (R120, R121,
R127, R498). Nothing fits, or fails to fit, a reserved code (R46). -/
def mmChecks (k : Core) (f : ArrFmt) (cfg : ArrCfg) (w : W32) : List (List Nat × Bool) :=
  let a := k.tok (fTA w)
  let b := k.tok (fTB w)
  let c := k.tok (fTC w)
  let sa := k.tok (fTA w + 1)
  let sb := k.tok (fTB w + 1)
  let sh := k.mmShape cfg w
  let m := sh.m.toNat
  match opClass f.aFmt f.bFmt with
  | none => []
  | some cls =>
    let win := b.window.isSome
    let winFmt := (b.window.map fun x => fieldAt x.geom 8 1).getD 0
    let ab := [fTA w, fTB w]
    [([fTA w], !a.window.isSome), ([fTC w], !c.window.isSome && !(mmTokens f w).contains (fTC w)),
      ([fTB w], !win || (isMM w && decide (cfg.mode = 0) && decide (winFmt = f.bFmt))),
      (ab, a.fits f.aFmt sh.rowsA sh.colsA), (ab, win || b.fits f.bFmt sh.k sh.n),
      (fTC w :: ab, ((fmtBits f.outFmt).isNone || c.fits f.outFmt m sh.n) && (!f.accIn || c.fits cls.container m sh.n))] ++
    if cls = .mx then
      [([fTA w], decide (fTA w % 2 = 0)), ([fTB w], decide (fTB w % 2 = 0)), ([fTA w + 1], !sa.window.isSome),
        ([fTB w + 1], !sb.window.isSome), ((fTA w + 1) :: ab, sa.fits 0 m (sh.k / 32)),
        ((fTB w + 1) :: ab, sb.fits 0 (sh.k / 32) sh.n)]
    else []

/-- Whether every token of an array instruction is of a kind and size that its role allows. -/
def mmFits (k : Core) (f : ArrFmt) (cfg : ArrCfg) (w : W32) : Bool := (k.mmChecks f cfg w).all (·.2)

/-- The fault of an array instruction under the ARR_FMT and ARR_CFG it will use (Table 04-6); none when it is legal.
R89 gives no order among several causes; the model takes them in the order F-0301, F-0302, F-0402, F-0403, F-0404,
F-0401. DESIGN CHOICE, log entry 78. -/
def mmFault (k : Core) (fmt cfg : W32) (w : W32) : Option Nat :=
  let f := ArrFmt.ofWord fmt
  let c := ArrCfg.ofWord cfg
  let sh := k.mmShape c w
  let chain := decide (c.mode = 1)
  if !f.legal then some 0x0301
  else if !inRange sh.k 1 16777216 || (decide (opClass f.aFmt f.bFmt = some .mx) && decide (sh.k % 32 ≠ 0)) then
    some 0x0302
  else if decide (2 ≤ c.mode) || (chain && (decide (qOf f.aFmt f.bFmt = 2) || isMMG w ||
      decide ((k.tok (fTA w)).cols % c.chains ≠ 0))) then some 0x0402
  else if isMMG w && !inRange (k.tok (fTA w)).rows 1 16 then some 0x0403
  else if decide (sh.m < 1) || decide (16777216 < sh.m) || !inRange sh.n 1 65536 then some 0x0404
  else if !k.mmFits f c w then some 0x0401
  else none

/-- An array instruction with the window binding of its stationary token at issue (R216). -/
def latch (k : Core) (i : EInstr) : EInstr := { i with win := (k.tok (fTB i.word)).window }

/-- The instruction's claims are satisfied and its tokens are in the states it needs (R73, R123). -/
def mmReady (k : Core) (fmt : W32) (i : EInstr) : Bool :=
  k.readsOk i && k.writesOk i [if (ArrFmt.ofWord fmt).accIn then .present else .empty]

end Core

/-- An expiry of the idle timer in this same count gives way to an issue (R82). -/
def Arr.unexpire (a : Arr) (now : Nat) : Arr :=
  match a.before with
  | some b =>
    if a.mode = .fillDown ∧ a.modeAt = now then
      { a with mode := b.1, modeAt := b.2.1, entryLevel := b.2.2, before := none }
    else { a with before := none }
  | none => a

/-- The array controller at the issue of an instruction (Table 04-3). The density level that Table 04-2 gives at the entry
to RAMP is set at once, also less than 12 counts after the last change, on which R82 and R83 leave the choice; a level of
8 at the entry is the move to BUSY. DESIGN CHOICE, log entry 74. -/
def Arr.onIssue (x : Arr) (now : Nat) : Arr :=
  let a := x.unexpire now
  match a.mode with
  | .quiet => { a with mode := .ramp, modeAt := now, entryLevel := 1, density := 1, densityAt := now }
  | .fill => { a with mode := .busy, modeAt := now }
  | .fillDown =>
    let d := max 1 a.density
    if 8 ≤ d then { a with mode := .busy, modeAt := now }
    else { a with mode := .ramp, modeAt := now, entryLevel := d, density := d }
  | _ => a

/-- The array controller at the completion of an instruction, when no other has issued (Table 04-3). -/
def Arr.onComplete (a : Arr) (now : Nat) : Arr :=
  match a.mode with
  | .busy => { a with mode := .fill, modeAt := now, idleAt := now }
  | _ => { a with idleAt := now }

/-- Instructions leave the queue or the group and run (R48, R73, R80). -/
def Arr.start (a : Arr) (is : List EInstr) (now : Nat) : Arr :=
  { a.onIssue now with run := is, runFmt := a.fmt, runCfg := a.cfg, startAt := now }

/-- The operands of a product as their elements: A by row of C, B by reduction index, scales, partials. -/
structure MmOperands where
  a : Array (Array (Option FVal))
  b : Array (Array (Option FVal))
  sa : Array (Array Nat)
  sb : Array (Array Nat)
  parts : Array (Array Nat)

/-- The elements of a row read from its bytes. -/
def rowBits (fmt n : Nat) (bs : List Byte) : Array Nat :=
  ((List.range n).map (elemBits fmt fun j => bs.getD j 0)).toArray
def rowVals (fmt n : Nat) (bs : List Byte) : Array FVal :=
  ((List.range n).map fun i => elemVal fmt (elemBits fmt (fun j => bs.getD j 0) i)).toArray

namespace State

/-- Read rows of a token from core store: `n` bytes of each of `m` rows, or the offset of an uncorrectable word. -/
def readRows (s : State) (c : CoreId) (t : Token) (m n : Nat) : State × List (List Byte) × Option Nat :=
  (List.range m).foldl (init := (s, [], none)) fun acc r =>
    match acc.2.2 with
    | some _ => acc
    | none =>
      let x := acc.1.csRead c (t.base + r * t.pitch) n
      (x.1, acc.2.1 ++ [x.2.1], x.2.2)

/-- Write rows of a token to core store; the offset of a word that a part write found uncorrectable. -/
def writeRows (s : State) (c : CoreId) (t : Token) (rows : List (List Byte)) : State × Option Nat :=
  ((List.range rows.length).zip rows).foldl (init := (s, none)) fun acc e =>
    let x := acc.1.csWrite c (t.base + e.1 * t.pitch) e.2
    (x.1, acc.2.orElse fun _ => x.2)

/-- One element of X as a generator reads it from the map store (R206, R209, R216). -/
def windowElem (s : State) (kid : ClusterId) (blk : List Byte) (kk nn : Nat) : State × Nat × Option Nat :=
  let g := Geom.ofBytes blk
  let fmt := fieldAt blk 8 1
  let w := (fmtBits fmt).getD 8
  match g.source kk nn with
  | none => (s, g.padVal, none)
  | some p =>
    let b := g.place w p
    let r := s.msRead kid (fieldAt blk 0 8 + b.1) (max 1 (w / 8))
    (r.1, ofBytesLE r.2.1 / 2 ^ b.2 % 2 ^ w, r.2.2)

/-- The rows of X of a window, K rows of N elements. -/
def windowRows (s : State) (kid : ClusterId) (blk : List Byte) : State × List (List Nat) × Option Nat :=
  let g := Geom.ofBytes blk
  (List.range g.k).foldl (init := (s, [], none)) fun acc kk =>
    let row := (List.range g.n).foldl (init := (acc.1, ([] : List Nat), acc.2.2)) fun a2 nn =>
      match a2.2.2 with
      | some _ => a2
      | none =>
        let e := a2.1.windowElem kid blk kk nn
        (e.1, a2.2.1 ++ [e.2.1], e.2.2)
    (row.1, acc.2.1 ++ [row.2.1], row.2.2)

/-- The result of running one member of an issued operation: its flags and the last tile of B in the stationary registers,
a gated position holding a free value; or a fault. -/
inductive MmRes where
  | done (flags : Nat) (tile : Stationary)
  | bad (code off : Nat)
  deriving DecidableEq, Repr

/-- One output row of a product, as its elements and flags (R53, R62). -/
def mmRow (cls : OpClass) (f : ArrFmt) (k n : Nat) (o : MmOperands) (m : Nat) : List (Nat × Nat) :=
  let ar := o.a.getD m #[]
  let sar := o.sa.getD m #[]
  (List.range n).map fun col =>
    mmElem cls f k (fun i => ar.getD i none) (fun i => (o.b.getD i #[]).getD col none) (fun j => sar.getD j 0)
      (fun j => (o.sb.getD j #[]).getD col 0)
      (if f.accIn then some ((o.parts.getD m #[]).getD col 0) else none)

/-- The rows of the effective A operand from the rows of the streaming token (R71). -/
def effectiveA (cfg : ArrCfg) (m k : Nat) (rows : Array (Array FVal)) : Array (Array (Option FVal)) :=
  if cfg.mode = 1 then
    let g := cfg.chains
    ((List.range m).map fun r =>
      ((List.range k).map fun i =>
        let row := i % 16
        if row < g * cfg.chain then
          some ((rows.getD (r + row % cfg.chain * cfg.delay) #[]).getD (g * (i / 16) + row / cfg.chain) FVal.nan)
        else none).toArray).toArray
  else rows.map fun r => r.map some

/-- The last tile of B of an instruction in the cells, and the B scales of its last K-block: of the last N-pass, and of the
highest k0 (R63 to R65). A gated position holds a value the spec does not state, here taken from the free number `u`.
DESIGN CHOICE, log entry 74. -/
def lastTile (f : ArrFmt) (k n : Nat) (b : Array (Array Nat)) (sb : Array (Array Nat)) (u : Nat) : Stationary :=
  let q := qOf f.aFmt f.bFmt
  let w := (fmtBits f.bFmt).getD 8
  let k0 := (k - 1) / (16 * q) * (16 * q)
  let n0 := (n - 1) / 16 * 16
  let free := fun i w => u / 2 ^ (32 * i) % 2 ^ w
  { cells := (List.range 256).map fun i =>
      (List.range q).foldl (fun v j =>
        let kk := k0 + q * (i / 16) + j
        let nn := n0 + i % 16
        v + (if kk < k ∧ nn < n then (b.getD kk #[]).getD nn 0 else free i w) * 2 ^ (w * j)) 0
    scales := (List.range 16).map fun c =>
      if n0 + c < n ∧ !sb.isEmpty then (sb.getD (sb.size - 1) #[]).getD (n0 + c) 0 else free (256 + c) 8 }

/-- Run one array instruction of core `c`: read its operands, compute every output element, write its output
(R53 to R65, R120, R121, R127). -/
def mmRun (s : State) (c : CoreId) (fmt cfgw : W32) (i : EInstr) : State × MmRes :=
  let f := ArrFmt.ofWord fmt
  let cfg := ArrCfg.ofWord cfgw
  let k := s.core c
  let ta := k.tok (fTA i.word)
  let tb := k.tok (fTB i.word)
  let tc := k.tok (fTC i.word)
  let sh := k.mmShapeOf cfg (i.win.map fun b => Geom.ofBytes b.geom) i.word
  let m := sh.m.toNat
  match opClass f.aFmt f.bFmt with
  | none => (s, .done 0 {})
  | some cls =>
    match s.readRows c ta sh.rowsA (rowBytes f.aFmt sh.colsA) with
    | (s, _, some off) => (s, .bad 0x0810 off)
    | (s, arows, none) =>
      let bres : State × List (List Nat) × Option Nat × Nat :=
        match i.win with
        | some b =>
          let r := s.windowRows c.cluster b.geom
          (r.1, r.2.1, r.2.2, 0x0811)
        | none =>
          let r := s.readRows c tb sh.k (rowBytes f.bFmt sh.n)
          (r.1, r.2.1.map fun bs => (rowBits f.bFmt sh.n bs).toList, r.2.2, 0x0810)
      match bres with
      | (s, _, some off, code) => (s, .bad code off)
      | (s, brows, none, _) =>
        let mx := decide (cls = .mx)
        match s.readRows c (k.tok (fTA i.word + 1)) (if mx then m else 0) (sh.k / 32) with
        | (s, _, some off) => (s, .bad 0x0810 off)
        | (s, sarows, none) =>
          match s.readRows c (k.tok (fTB i.word + 1)) (if mx then sh.k / 32 else 0) sh.n with
          | (s, _, some off) => (s, .bad 0x0810 off)
          | (s, sbrows, none) =>
            match s.readRows c tc (if f.accIn then m else 0) (rowBytes cls.container sh.n) with
            | (s, _, some off) => (s, .bad 0x0810 off)
            | (s, prows, none) =>
              let o : MmOperands := {
                a := effectiveA cfg m sh.k (arows.map (rowVals f.aFmt sh.colsA)).toArray
                b := (brows.map fun r => (r.map fun x => some (elemVal f.bFmt x)).toArray).toArray
                sa := (sarows.map (rowBits 0 (sh.k / 32))).toArray
                sb := (sbrows.map (rowBits 0 sh.n)).toArray
                parts := (prows.map (rowBits cls.container sh.n)).toArray }
              let out := (List.range m).map (mmRow cls f sh.k sh.n o)
              let flags := out.foldl (fun a r => r.foldl (fun a e => a ||| e.2) a) 0
              match s.writeRows c tc (out.map fun r => packRow f.outFmt (r.map (·.1))) with
              | (s, some off) => (s, .bad 0x0810 off)
              | (s, none) =>
                let d := s.draw
                (d.2, .done flags (lastTile f sh.k sh.n (brows.map (·.toArray)).toArray
                  (sbrows.map (rowBits 0 sh.n)).toArray (Config.freeNat d.1)))

/-- Run every member of an issued operation in the order in which it joined (R80). The shadow copies and the accumulator entries
that it leaves are free values: R69 keeps no copy from one instruction to the next, and R65 gives an entry no value after its
output. DESIGN CHOICE, log entry 74. -/
def mmRunAll (s : State) (a : ArrayId) (fmt cfg : W32) : List EInstr → State × Option (EInstr × Nat × Nat)
  | [] => (s, none)
  | i :: is =>
    match s.mmRun a.core fmt cfg i with
    | (t, .bad code off) => (t, some (i, code, off))
    | (t, .done flags tile) =>
      let d := t.draw
      let u := Config.freeNat d.1
      let t := d.2.updArr a fun x => { x with
        ast := x.ast ||| BitVec.ofNat 32 flags
        active := tile
        banks := some d.1
        shadow := { cells := (List.range 256).map fun i => u / 2 ^ (32 * i) % 2 ^ 32
                    scales := (List.range 16).map fun i => u / 2 ^ (32 * (256 + i)) % 2 ^ 8 } }
      let t := match i.win with
        | some b => t.addWpad a.core (Geom.ofBytes b.geom)
        | none => t
      t.mmRunAll a fmt cfg is

/-- An open gather group issues as one operation, its output tokens FILLING (R79, R80). -/
def groupIssue (s : State) (a : ArrayId) : State :=
  let x := s.arr a
  if x.group.isEmpty || !x.run.isEmpty then s
  else
    let s := s.setArr a { (x.start (x.group.map (s.core a.core).latch) (s.die a.core.die).ticks) with group := [] }
    s.updCore a.core fun k => x.group.foldl (fun k i => k.setTokState (fTC i.word) .filling) k

end State

end Sys2Proof.Machine
end

