-- ==== Sys2Proof/Machine/Desc.lean ====
section
/-!
DEFINITION. Stream descriptors: fields, range checks, the pattern of places, legality and footprints
(R153 to R156, R169, Tables 07-1 to 07-3).
-/
namespace Sys2Proof.Machine

/-- A stream descriptor, its 96 bytes read field by field (Table 07-1). -/
structure Desc where
  raw : List Byte
  start : Nat
  kind : Nat
  fmt : Nat
  flags : Nat
  c0 : Nat
  c1 : Nat
  c2 : Nat
  c3 : Nat
  c4 : Nat
  s0 : Int
  s1 : Int
  s2 : Int
  s3 : Int
  s4 : Int
  omin : Int
  omax : Int
  deriving DecidableEq, Repr

/-- Entry `i` of a descriptor table. -/
def descBytes (sdt : List Byte) (i : Nat) : List Byte := (sdt.drop (96 * i)).take 96

/-- A descriptor from its bytes. -/
def Desc.ofBytes (b : List Byte) : Desc :=
  let sg := fun off => signed 64 (fieldAt b off 8)
  { raw := b, start := fieldAt b 0 8, kind := fieldAt b 8 1, fmt := fieldAt b 9 1, flags := fieldAt b 0xA 2,
    c0 := fieldAt b 0xC 4, c1 := fieldAt b 0x10 4, c2 := fieldAt b 0x14 4, c3 := fieldAt b 0x18 4,
    c4 := fieldAt b 0x1C 4, s0 := sg 0x20, s1 := sg 0x28, s2 := sg 0x30, s3 := sg 0x38, s4 := sg 0x40,
    omin := sg 0x48, omax := sg 0x50 }

namespace Desc

/-- SPACE, GUARD and CV (Table 07-2). -/
def space (d : Desc) : Nat := field d.flags 0 0
def guarded (d : Desc) : Bool := bitAt d.flags 1
def cv (d : Desc) : Bool := bitAt d.flags 2

/-- The element width. -/
def w (d : Desc) : Nat := (fmtBits d.fmt).getD 8

/-- The window geometry of a KIND 0x01 descriptor. -/
def geom (d : Desc) : Geom := Geom.ofBytes d.raw

/-- The DCRC check (R153). -/
def crcOk (d : Desc) : Bool := decide ((crc32c (d.raw.take 0x5C)).toNat = fieldAt d.raw 0x5C 4)

/-- The reserved fields and ranges of Tables 07-1, 07-2 and 10-1 (R158, R207). -/
def rangesOk (d : Desc) : Bool :=
  decide (d.kind ≤ 1) && (fmtBits d.fmt).isSome && decide (d.flags < 8) && decide (fieldAt d.raw 0x58 4 = 0) &&
    decide (d.omin ≤ d.omax) &&
    (if d.kind = 0 then
      inRange d.c0 1 16777216 && inRange d.c1 1 65536 && inRange d.c2 1 65536 && inRange d.c3 1 65536 &&
        inRange d.c4 1 65536
     else d.geom.rangesOk d.w)

/-- Rows of the transfer, and elements in all. -/
def rows (d : Desc) : Nat := d.c1 * d.c2 * d.c3 * d.c4
def total (d : Desc) : Nat := d.c0 * d.rows

/-- The start R of row `r`, in bytes (R154). -/
def rowStart (d : Desc) (off : Int) (r : Nat) : Int :=
  let i1 := r % d.c1
  let i2 := r / d.c1 % d.c2
  let i3 := r / d.c1 / d.c2 % d.c3
  let i4 := r / d.c1 / d.c2 / d.c3
  off + i1 * d.s1 + i2 * d.s2 + i3 * d.s3 + i4 * d.s4

/-- The logical bytes of row `r` in the order of the packed row (R154, R155). -/
def rowPlaces (d : Desc) (off : Int) (r : Nat) : List Int :=
  let b := d.rowStart off r
  if d.s0 = 0 then (List.range (rowBytes d.fmt d.c0)).map fun i : Nat => b + (i : Int)
  else
    let m := d.w / 8
    (List.range (d.c0 * m)).map fun i : Nat => b + ((i / m : Nat) : Int) * d.s0 + ((i % m : Nat) : Int)

/-- The address, in its space, of a logical byte (R154). -/
def addr (d : Desc) (b : Int) : Nat :=
  let x := if d.guarded then b + 8 * (b / 2048) else b
  wrap 64 ((d.start : Int) + x)

/-- The lowest and highest logical byte the pattern reaches (R155). -/
def span (d : Desc) (off : Int) : Int × Int :=
  let ext := fun (c : Nat) (st : Int) => ((c : Int) - 1) * st
  let outer := [ext d.c1 d.s1, ext d.c2 d.s2, ext d.c3 d.s3, ext d.c4 d.s4]
  let lo := off + (outer.map (min 0)).foldl (· + ·) 0
  let hi := off + (outer.map (max 0)).foldl (· + ·) 0
  if d.s0 = 0 then (lo, hi + ((rowBytes d.fmt d.c0 : Nat) : Int) - 1)
  else (lo + min 0 (ext d.c0 d.s0), hi + max 0 (ext d.c0 d.s0) + ((d.w / 8 : Nat) : Int) - 1)

/-- The footprint in the descriptor's space: lowest and highest byte address as integers; none when it reads nothing
(R155, R208). A guarded read covers whole blocks with their trailers (R168). -/
def footprint (d : Desc) (off : Int) (whole : Bool) : Option (Int × Int) :=
  if d.kind = 1 then
    (d.geom.footprint d.w).map fun f => ((d.start : Int) + off + f.1, (d.start : Int) + off + f.2)
  else
    let p := d.span off
    if d.guarded then
      if whole then
        some ((d.start : Int) + 2056 * (p.1 / 2048), (d.start : Int) + 2056 * (p.2 / 2048) + 2055)
      else some ((d.start : Int) + p.1 + 8 * (p.1 / 2048), (d.start : Int) + p.2 + 8 * (p.2 / 2048))
    else some ((d.start : Int) + p.1, (d.start : Int) + p.2)

/-- The legality rules of a pattern descriptor (R155), with those of a guarded buffer (Table 07-2, R168). -/
def legal (d : Desc) (off : Int) : Bool :=
  let m := ((d.w / 8 : Nat) : Int)
  let mult := fun x : Int => decide (d.w < 8) || decide (x % m = 0)
  mult (d.start + off) && mult d.s0 && mult d.s1 && mult d.s2 && mult d.s3 && mult d.s4 &&
    (decide (d.s0 = 0) || decide (8 ≤ d.w)) && (decide (d.w ≠ 6) || decide (d.c0 % 4 = 0)) &&
    (!d.guarded || (decide (d.space = 0) && decide (d.start % 8 = 0) && decide (0 ≤ (d.span off).1)))

/-- The pattern visits the bytes of its span in ascending order, each once: every level is as long as the level within
it says (R169). -/
def ascending (d : Desc) : Bool :=
  let z0 : Int := ((rowBytes d.fmt d.c0 : Nat) : Int)
  let z1 := (d.c1 : Int) * z0
  let z2 := (d.c2 : Int) * z1
  let z3 := (d.c3 : Int) * z2
  (decide (d.s0 = 0) || decide (d.s0 = ((d.w / 8 : Nat) : Int)) || decide (d.c0 = 1)) &&
    (decide (d.c1 = 1) || decide (d.s1 = z0)) && (decide (d.c2 = 1) || decide (d.s2 = z1)) &&
    (decide (d.c3 = 1) || decide (d.s3 = z2)) && (decide (d.c4 = 1) || decide (d.s4 = z3))

/-- The conditions of a guarded write (R169). -/
def guardWriteOk (d : Desc) (off : Int) : Bool :=
  let p := d.span off
  decide (p.1 % 2048 = 0) && decide ((p.2 + 1) % 2048 = 0) && d.ascending

/-- The 64-byte granules that a list of addresses touches, in order of their first touch. -/
def granules (as : List Nat) : List Nat :=
  (as.foldl (fun (acc : List Nat) a => if acc.contains (a / 64 * 64) then acc else (a / 64 * 64) :: acc) []).reverse

/-- The addresses of a transfer in the order of the pattern. -/
def places (d : Desc) (off : Int) : List Nat :=
  (List.range d.rows).flatMap fun r => (d.rowPlaces off r).map d.addr

/-- The blocks of a guarded buffer that the pattern touches. -/
def blocks (d : Desc) (off : Int) : List Nat :=
  let p := d.span off
  let lo := (p.1 / 2048).toNat
  (List.range ((p.2 / 2048).toNat + 1 - lo)).map (lo + ·)

/-- The blocks of a guarded buffer that row `r` touches, and the row with which a block is read: the first that touches it; of a
block within the footprint that none touches, the first that reaches beyond it (R168, R293). -/
def rowBlocks (d : Desc) (off : Int) (r : Nat) : List Nat := ((d.rowPlaces off r).map fun b => (b / 2048).toNat).eraseDups
def blockRow (d : Desc) (off : Int) (j : Nat) : Nat :=
  let rows := List.range d.rows
  ((rows.find? fun r => (d.rowBlocks off r).contains j).orElse fun _ =>
    rows.find? fun r => (d.rowBlocks off r).any (j < ·)).getD 0

/-- The address of block `j` of a guarded buffer (R332). -/
def blockAddr (d : Desc) (j : Nat) : Nat := wrap 64 (d.start + 2056 * (j : Int))

/-- The elements of a row from the bytes of its places; unused bits are ignored (R155). -/
def rowElems (d : Desc) (bs : List Byte) : List Nat :=
  (List.range d.c0).map fun i => elemBits d.fmt (fun j => bs.getD j 0) i

/-- Cut a list into pieces of a length. -/
def chunks {α : Type} (n : Nat) : Nat → List α → List (List α)
  | 0, _ => []
  | k + 1, l => l.take n :: chunks n k (l.drop n)

end Desc

end Sys2Proof.Machine
end

