-- ==== Sys2Proof/Machine/ReqOps.lean ====
section
/-!
DEFINITION. The requests of the stream engines: what an instruction asks for, and the slots it holds (R160 to R162, R171).
-/
namespace Sys2Proof.Machine

/-- What the stream instruction of a word is, by EOP (Table 06-6). -/
def streamLoads (w : W32) : Bool := [0x00, 0x02, 0x04, 0x05].contains (eopField w)
def streamPair (w : W32) : Bool := [0x05, 0x06].contains (eopField w)
def streamWritesMem (w : W32) : Bool := [0x01, 0x06].contains (eopField w)

namespace State

/-- Requests of a core's stream engine that hold a slot, by kind (Table 07-4): those in flight, and one for each instruction
whose next request waits for translation service (R171, R289). Which port serves that one is not known, and it counts as
local. DEDUCED, log entry 65. -/
def streamSlots (s : State) (c : CoreId) (remote write : Bool) : Nat :=
  (if remote then 0 else (s.core c).strRun.countP fun r => r.held && (streamWritesMem r.ins.word == write)) +
  s.reqs.entries.countP fun e =>
    match e.2.owner with
    | .stream k _ => decide (k = c.key) && !e.2.gone && (if remote then decide (e.2.pa / 2 ^ 49 ≠ c.die.val)
        else decide (e.2.pa / 2 ^ 49 = c.die.val) && (e.2.write == write))
    | _ => false

/-- The request slots of a stream engine, by kind (Table 07-4). -/
def streamCap (remote write : Bool) : Nat := if remote || write then 128 else 256

/-- Requests in flight from the stream engines of a die that run a launch of a queue (R162). -/
def queueSlots (s : State) (d : DieId) (q : Nat) : Nat :=
  s.reqs.entries.countP fun e =>
    match e.2.owner with
    | .stream _ _ => decide (e.2.die = d) && decide (e.2.queue = q) && !e.2.gone
    | _ => false

/-- A stream engine has slots for the `n` requests of an access, whichever die serves it, or has begun it (R160, R162). -/
def streamRoom (s : State) (c : CoreId) (o : Owner) (q n : Nat) (write : Bool) : Bool :=
  s.busHas c.die o ||
    (decide (s.streamSlots c false write + n ≤ streamCap false write) && decide (s.streamSlots c true write + n ≤ streamCap true write) &&
      decide (s.queueSlots c.die q + n ≤ (s.queue (queueOf q)).outLimit))

end State

end Sys2Proof.Machine
end

