-- ==== Sys2Proof/Machine/StreamOps.lean ====
section
/-!
DEFINITION. Stream instructions: the checks at issue, tiles and requests, the data they move, check-value folds and
aborts (R129 to R132, R153 to R172, R206 to R213, R328, R329, R334, R372, R373).
-/
namespace Sys2Proof.Machine

/-- The key of a byte of a tile in the buffers of a transfer. DEDUCED, log entry 63. -/
def tileKey (tile va : Nat) : Nat := tile * 2 ^ 64 + va

/-- Segments of a row of X, and their length (R213). -/
def segLen (w : Nat) : Nat := 512 / w
def segsOf (d : Desc) : Nat := ceilDiv d.geom.n (segLen d.w)

namespace Desc

/-- The address of a source element's first byte in the space of a window expansion. -/
def winAddr (d : Desc) (off : Int) (p : Nat × Nat × Nat) : Nat :=
  wrap 64 ((d.start : Int) + off + ((d.geom.place d.w p).1 : Int))

/-- The bytes of one element that a window expansion reads. -/
def winBytes (d : Desc) (off : Int) (p : Nat × Nat × Nat) : List Nat :=
  (List.range (max 1 (d.w / 8))).map (d.winAddr off p + ·)

/-- The tiles of the memory side of a read: rows or segments, each with its granules; of a guarded buffer a row has the whole
blocks that are read with it (R160, R168, R213, R293). -/
def readTiles (d : Desc) (off : Int) : List (Nat × List Nat) :=
  if d.kind = 1 then
    let g := d.geom
    let n := segsOf d
    (List.range (g.k * n)).map fun t =>
      let els := (List.range (segLen d.w)).filterMap fun i =>
        let col := t % n * segLen d.w + i
        if col < g.n then g.source (t / n) col else none
      (t, granules (els.flatMap (d.winBytes off)))
  else if d.guarded then
    (List.range d.rows).map fun r =>
      (r, granules (((d.blocks off).filter fun j => decide (d.blockRow off j = r)).flatMap fun j =>
        (List.range 2056).map (d.blockAddr j + ·)))
  else (List.range d.rows).map fun r => (r, granules ((d.rowPlaces off r).map d.addr))

/-- The bytes that a write sends, by tile, from the rows of its element bytes; the trailer of a guarded block goes with the row
that holds the block's last byte (R154, R164, R169, R293). -/
def writeTiles (d : Desc) (off : Int) (rows : List (List Byte)) : List (Nat × List (Nat × Byte)) :=
  if d.guarded then
    let flat := rows.flatten
    let lo := (d.blocks off).headD 0
    rows.mapIdx fun r row =>
      let ps := d.rowPlaces off r
      (r, (ps.map d.addr).zip row ++ (ps.filter fun b => decide (b % 2048 = 2047)).flatMap fun b =>
        let j := (b / 2048).toNat
        let data := (flat.drop (2048 * (j - lo))).take 2048
        (trailer data (addrTag (d.blockAddr j))).mapIdx fun n x => (d.blockAddr j + 2048 + n, x))
  else
    ((List.range rows.length).zip rows).map fun e => (e.1, ((d.rowPlaces off e.1).map d.addr).zip e.2)

/-- Whether a descriptor suits its place in a stream instruction (Table 07-3, R155, R156, R208). -/
def suits (w : W32) (d0 d1 : Desc) (off : Int) : Bool :=
  match eopField w with
  | 0x00 | 0x01 => decide (d0.kind = 0) && decide (d0.space = 0) && d0.legal off
  | 0x02 | 0x03 => decide (d0.kind = 0) && decide (d0.space = 1) && d0.legal off
  | 0x04 => decide (d0.kind = 1) && !d0.guarded && d0.geom.consistent d0.fmt (wrap 64 ((d0.start : Int) + off))
  | _ =>
    decide (d0.kind = 0) && decide (d0.space = 0) && d0.legal off && decide (d1.kind = 0) && decide (d1.space = 1) &&
      !d1.guarded && d1.legal 0 && decide (d1.omin = 0) && decide (d1.omax = 0) && decide (d0.fmt = d1.fmt) &&
      decide (d0.total = d1.total)

/-- A map store footprint lies in the map store (R157). -/
def inMap (d : Desc) (off : Int) : Bool :=
  match d.footprint off false with
  | none => true
  | some f => decide (0 ≤ f.1) && decide (f.2 < 6291456)

end Desc

/-- The descriptors an instruction takes from its launch's table. -/
def descOf (sdt : List Byte) (i : Nat) : Desc := Desc.ofBytes (descBytes sdt i)

/-- The offset of a stream instruction: s[rs1], signed. -/
def EInstr.off (i : EInstr) : Int := i.x1.toInt

/-- The fault of a stream instruction at issue but for its token (R130, R157, Table 07-6): code and INFO.
DEDUCED, log entry 12; DEDUCED, log entry 63. -/
def streamFault (sdt : List Byte) (i : EInstr) : Option (Nat × Nat) :=
  let n := sdt.length / 96
  let x := fDidx i.word
  let d0 := descOf sdt x
  let d1 := descOf sdt (x + 1)
  let pair := streamPair i.word
  let off := i.off
  let op := eopField i.word
  if n ≤ x ∨ (pair ∧ n ≤ x + 1) then some (0x0604, x)
  else if !(d0.crcOk && d0.rangesOk) then some (0x0701, x)
  else if pair && !(d1.crcOk && d1.rangesOk) then some (0x0701, x + 1)
  else if !Desc.suits i.word d0 d1 off then some (0x0702, x)
  else if off < d0.omin ∨ d0.omax < off then some (0x0604, x)
  else if streamWritesMem i.word && d0.guarded && !d0.guardWriteOk off then some (0x0703, x)
  else if (decide (op = 2) || decide (op = 3) || (decide (op = 4) && decide (d0.space = 1))) && !d0.inMap off then
    some (0x0706, x)
  else if pair && !d1.inMap 0 then some (0x0706, x)
  else none

/-- F-0602: whether the token of a stream instruction is PLAIN and holds its transfer (R130, R212); what it must hold is known
only where DIDX names a descriptor whose checks pass. -/
def streamChecks (k : Core) (sdt : List Byte) (i : EInstr) : List TokenCheck :=
  if streamPair i.word then []
  else
    let x := fDidx i.word
    let d := descOf sdt x
    let t := k.tok (fSdT i.word)
    let known := decide (x < sdt.length / 96) && d.crcOk && d.rangesOk
    let fits := if d.kind = 1 then t.fits d.fmt d.geom.k d.geom.n else t.fits d.fmt d.rows d.c0
    [([fSdT i.word], if t.window.isSome || (known && !fits) then some (3, 0x0602, fSdT i.word) else none)]

/-- The footprints of an instruction: in device memory and in map store, as lowest and highest address and whether it
writes there (R163). -/
def streamPrints (i : EInstr) (d0 d1 : Desc) : List (Nat × Nat × Bool) × List (Nat × Nat × Bool) :=
  let foot := fun (d : Desc) (off : Int) (wr : Bool) =>
    match d.footprint off (d.guarded && !wr) with
    | none => []
    | some f => [(wrap 64 f.1, wrap 64 f.2, wr)]
  let op := eopField i.word
  let off := i.off
  if op = 5 then (foot d0 off false, foot d1 0 true)
  else if op = 6 then (foot d0 off true, foot d1 0 false)
  else if d0.space = 1 then ([], foot d0 off (decide (op = 3)))
  else (foot d0 off (decide (op = 1)), [])

/-- Two lists of footprints meet with a write (R163). -/
def printsMeet (a b : List (Nat × Nat × Bool)) : Bool :=
  a.any fun x => b.any fun y => decide (x.1 ≤ y.2.1) && decide (y.1 ≤ x.2.1) && (x.2.2 || y.2.2)

/-- The row bytes as they are moved: unused bits of the last byte are 0 (R155). -/
def cleanRow (d : Desc) (bs : List Byte) : List Byte := if 8 ≤ d.w then bs else packRow d.fmt (d.rowElems bs)

/-- Elements of rows of one shape packed into rows of another (R156). -/
def reshape (d0 d1 : Desc) (rows : List (List Byte)) : List (List Byte) :=
  let els := rows.flatMap d0.rowElems
  (Desc.chunks d1.c0 d1.rows els).map (packRow d1.fmt)

namespace StreamRun

/-- The data byte of a tile at an address. -/
def byteAt (r : StreamRun) (tile va : Nat) : Byte := r.buf.get 0 (tileKey tile va)

/-- A run with its requests, none of them made yet. -/
def withOrder (r : StreamRun) (l : List (Nat × Nat)) : StreamRun := { r with todo := l, order := l }

/-- The rows of a pattern read from memory, trailers left out. -/
def patternRows (r : StreamRun) (d : Desc) (off : Int) : List (List Byte) :=
  (List.range d.rows).map fun row =>
    cleanRow d ((d.rowPlaces off row).map fun b =>
      r.byteAt (if d.guarded then d.blockRow off (b / 2048).toNat else row) (d.addr b))

/-- The rows of X of an expansion from memory. -/
def windowRows (r : StreamRun) (d : Desc) (off : Int) : List (List Byte) :=
  let g := d.geom
  (List.range g.k).map fun kk =>
    packRow d.fmt ((List.range g.n).map fun col =>
      match g.source kk col with
      | none => g.padVal
      | some p =>
        let t := kk * segsOf d + col / segLen d.w
        ofBytesLE ((d.winBytes off p).map (r.byteAt t)) / 2 ^ (g.place d.w p).2 % 2 ^ d.w)

end StreamRun

namespace State

/-- The descriptor table of a core's launch as its command carried it at acceptance, and the table's address. -/
def sdtAddr (s : State) (c : CoreId) : Nat := ((s.coreLaunch c).map fun l => fieldAt l.cmd 0x18 8).getD 0
def sdtOf (s : State) (c : CoreId) : List Byte := ((s.coreLaunch c).map (·.sdt)).getD []

/-- A stream instruction in flight, by its place in the order, changed by a function. -/
def updRun (s : State) (c : CoreId) (ord : Nat) (f : StreamRun → StreamRun) : State :=
  s.updCore c fun k => { k with strRun := k.strRun.map fun r => if r.ins.ord = ord then f r else r }

/-- Responses of a core's stream engine are outstanding; one whose unit was reset, or that was given up as unanswered,
is not waited for (R172, R355). -/
def streamBusy (s : State) (c : CoreId) : Bool :=
  s.reqs.entries.any fun e => match e.2.owner with
    | .stream k _ => decide (k = c.key) && !e.2.gone && !(s.die c.die).orphans.any fun o => decide (o.req = e.1)
    | _ => false

/-- The check-value channels and signatures an instruction folds into: bit 0, bit 1, and bit 2 for PS_STR (R328,
R373). -/
def foldsInto (s : State) (c : CoreId) (r : StreamRun) : Nat :=
  let d0 := Desc.ofBytes r.d0
  let loads := streamLoads r.ins.word
  (if d0.cv then (if loads then 1 else 2) else 0) + (if !loads && s.isPaired c then 4 else 0)

/-- The value of the channel of an instruction that aborts is undefined: a free value (R329). DESIGN CHOICE, log entry 7. -/
def undefCv (s : State) (c : CoreId) (r : StreamRun) : State :=
  let n := s.foldsInto c r % 4
  if n = 0 then s
  else
    let f := s.draw
    let v := BitVec.ofNat 32 (Config.freeNat f.1)
    f.2.updCore c fun k => if n = 1 then { k with cv0 := v } else { k with cv1 := v }

/-- Steps 3 and 4 of an abort: when no response is outstanding, the tokens being written become EMPTY and the fault is
reported with SRC 3 (R171). DEDUCED, log entry 65. -/
def abortReport (s : State) (c : CoreId) : State :=
  let k := s.core c
  match k.strAbort with
  | none => s
  | some (code, addr, info, ord) =>
    match k.strRun.find? fun r => decide (r.ins.ord = ord) with
    | none => s
    | some r =>
      if s.streamBusy c then s
      else
        let s := s.undefCv c r
        let s := s.updCore c fun k =>
          let k := (k.strRun.flatMap (·.ins.writes)).foldl (fun k t => k.setTokState t .empty) k
          { k with strRun := [] }
        s.engFault c 3 code addr info r.ins

/-- Steps 1 and 2 of an abort: the stream engine makes no further request for any instruction, and waits for its
outstanding responses (R171). -/
def streamAbort (s : State) (c : CoreId) (x : StreamRun) (code addr info : Nat) : State :=
  let k := s.core c
  if k.strAbort.isSome then s
  else
    let runs := if k.strRun.any fun r => decide (r.ins.ord = x.ins.ord) then k.strRun else k.strRun ++ [x]
    (s.setCore c { k with
      strAbort := some (code, addr, info, x.ins.ord)
      strRun := runs.map fun r => { r with todo := [], held := false } }).abortReport c

/-- Rows of a pattern read from the map store. -/
def mapRows (s : State) (kid : ClusterId) (d : Desc) (off : Int) : State × List (List Byte) × Option Nat :=
  let m := d.w / 8
  (List.range d.rows).foldl (init := (s, [], none)) fun acc r =>
    match acc.2.2 with
    | some _ => acc
    | none =>
      let ps := (d.rowPlaces off r).map d.addr
      if d.s0 = 0 then
        let x := acc.1.msRead kid (ps.headD 0) ps.length
        (x.1, acc.2.1 ++ [cleanRow d x.2.1], x.2.2)
      else
        let x := (List.range d.c0).foldl (init := (acc.1, ([] : List Byte), (none : Option Nat))) fun a i =>
          let y := a.1.msRead kid (ps.getD (i * m) 0) m
          (y.1, a.2.1 ++ y.2.1, a.2.2.orElse fun _ => y.2.2)
        (x.1, acc.2.1 ++ [x.2.1], x.2.2)

/-- Rows written to the map store. -/
def mapPut (s : State) (kid : ClusterId) (d : Desc) (off : Int) (rows : List (List Byte)) : State × Option Nat :=
  let m := d.w / 8
  ((List.range rows.length).zip rows).foldl (init := (s, none)) fun acc e =>
    let ps := (d.rowPlaces off e.1).map d.addr
    if d.s0 = 0 then
      let x := acc.1.msWrite kid (ps.headD 0) e.2
      (x.1, acc.2.orElse fun _ => x.2)
    else
      (List.range d.c0).foldl (init := acc) fun a i =>
        let x := a.1.msWrite kid (ps.getD (i * m) 0) ((e.2.drop (i * m)).take m)
        (x.1, a.2.orElse fun _ => x.2)

/-- Rows of X of an expansion from the map store. -/
def mapWindow (s : State) (kid : ClusterId) (d : Desc) (off : Int) : State × List (List Byte) × Option Nat :=
  let g := d.geom
  (List.range g.k).foldl (init := (s, [], none)) fun acc kk =>
    let row := (List.range g.n).foldl (init := (acc.1, ([] : List Nat), acc.2.2)) fun a nn =>
      match g.source kk nn with
      | none => (a.1, a.2.1 ++ [g.padVal], a.2.2)
      | some p =>
        let x := a.1.msRead kid (d.winAddr off p) (max 1 (d.w / 8))
        (x.1, a.2.1 ++ [ofBytesLE x.2.1 / 2 ^ (g.place d.w p).2 % 2 ^ d.w], a.2.2.orElse fun _ => x.2.2)
    (row.1, acc.2.1 ++ [packRow d.fmt row.2.1], row.2.2)

/-- Rows of a token as a write stream reads them from core store. -/
def tokenRows (s : State) (c : CoreId) (d : Desc) (t : Token) : State × List (List Byte) × Option Nat :=
  let n := rowBytes d.fmt d.c0
  (List.range d.rows).foldl (init := (s, [], none)) fun acc r =>
    match acc.2.2 with
    | some _ => acc
    | none =>
      let x := acc.1.csRead c (t.base + r * t.pitch) n
      (x.1, acc.2.1 ++ [cleanRow d x.2.1], x.2.2)

/-- Rows written to a token in core store. -/
def tokenPut (s : State) (c : CoreId) (t : Token) (rows : List (List Byte)) : State × Option Nat :=
  ((List.range rows.length).zip rows).foldl (init := (s, none)) fun acc e =>
    let x := acc.1.csWrite c (t.base + e.1 * t.pitch) e.2
    (x.1, acc.2.orElse fun _ => x.2)

/-- The request of one granule of a run: its partition and context are those of the launch. -/
def streamReq (s : State) (c : CoreId) (r : StreamRun) (tile va pa range : Nat) (write : Bool) : Req :=
  { owner := .stream c.key r.ins.ord, die := c.die, partition := s.corePartition c, ctx := s.coreCtx c,
    queue := s.coreQueue c, va := va, pa := pa, write := write, range := range, tile := tile,
    pass := r.passes.get 0 tile,
    data := if write then ((List.range 64).filterMap fun i => (r.wr.find? (tileKey tile (va + i))).map fun b => (i, b))
      else [] }

/-- Make the requests of one instruction in the order of its pattern. A kind of request with no free slot or a limit that
is reached holds back only requests of that kind, and a missing credit only requests to that die (R315); a miss or a fault of
translation holds back the rest of the instruction (R160 to R162, R171, R293, R319). -/
def pumpRun (s : State) (c : CoreId) (ord : Nat) (write : Bool) (noLocal noRemote : Bool) (noRoute : List Nat) :
    List (Nat × Nat) → State
  | [] => s
  | e :: es =>
    let k := s.core c
    match k.strRun.find? fun r => decide (r.ins.ord = ord) with
    | none => s
    | some r =>
      if noLocal && noRemote then s
      else
        let acc : Access := if write then .write else .read
        let p := s.corePartition c
        match s.xlate c.die (c.key * 2) p (s.coreCtx c) e.2 acc with
        | .miss =>
          let s := s.updRun c ord fun r => { r with held := true }
          match s.pageSlot c.die p e.2 with
          | some i => s.mergeInto c.die i (.stream c.key ord) e.2 acc.bits (s.coreCtx c)
          | none => s.startWalk c.die (.stream c.key ord) p (s.coreCtx c) e.2 acc
        | .fault cause range =>
          (s.updRun c ord fun r => { r with held := true }).faultAccess c.die cause range (.stream c.key ord) p
            (s.coreCtx c) e.2 acc
        | .lost _ _ => s
        | .hit pa range =>
          let remote := decide (pa / 2 ^ 49 ≠ c.die.val)
          let cap := streamCap remote write
          let lim := (s.queue (queueOf (s.coreQueue c))).outLimit
          if (remote && (noRemote || noRoute.contains (pa / 2 ^ 49))) || (!remote && noLocal) then
            s.pumpRun c ord write noLocal noRemote noRoute es
          else if cap ≤ s.streamSlots c remote write ∨ lim ≤ s.queueSlots c.die (s.coreQueue c) then
            s.pumpRun c ord write (noLocal || !remote) (noRemote || remote) noRoute es
          else
            match (s.touch c.die (c.key * 2) p (s.coreCtx c) e.2).sendReq c.die (s.streamReq c r e.1 e.2 pa range write) with
            | (t, .sent) =>
              let t := t.updRun c ord fun r =>
                { r with todo := r.todo.erase e, out := r.out ++ [e], startAt := (t.die c.die).ticks }
              t.pumpRun c ord write noLocal noRemote noRoute es
            | (t, .noCredit) => t.pumpRun c ord write noLocal noRemote (pa / 2 ^ 49 :: noRoute) es
            | (t, .unreachable) => t.streamAbort c r 0x0704 e.2 e.2

/-- The stream engine makes what requests it can, its instructions in the order of issue. -/
def pumpStream (s : State) (c : CoreId) : State :=
  (s.core c).strRun.foldl (fun s r =>
    if r.held || (s.core c).strAbort.isSome then s
    else s.pumpRun c r.ins.ord (streamWritesMem r.ins.word) false false [] r.todo) s

/-- The result of preparing an instruction for its run. -/
inductive StreamPrep where
  | ok (r : StreamRun)
  | bad (code off : Nat)
  deriving DecidableEq, Repr

/-- A stream instruction at issue: what it will read or write. Data that leaves a store is read now, under the token's
read claim. -/
def streamPrep (s : State) (c : CoreId) (i : EInstr) (sdt : List Byte) : State × StreamPrep :=
  let d0 := descOf sdt (fDidx i.word)
  let d1 := descOf sdt (fDidx i.word + 1)
  let off := i.off
  let fp := streamPrints i d0 d1
  let r : StreamRun := { ins := i, d0 := d0.raw, d1 := if streamPair i.word then d1.raw else [], mem := fp.1, map := fp.2 }
  let reads := fun (d : Desc) => (d.readTiles off).flatMap fun t => t.2.map fun g => (t.1, g)
  let send := fun (s : State) (rows : List (List Byte)) =>
    let tiles := d0.writeTiles off rows
    let wr := tiles.foldl (fun m t => t.2.foldl (fun m b => m.put (tileKey t.1 b.1) b.2) m) r.wr
    let todo := tiles.flatMap fun t => (Desc.granules (t.2.map (·.1))).map fun g => (t.1, g)
    let first := BitVec.ofNat 64 (((d0.rowPlaces off 0).map d0.addr).headD 0)
    let r := { r with wr := wr, data := rows.flatten, first := first }
    (s, StreamPrep.ok (if (s.core c).runB then r else r.withOrder todo))
  match eopField i.word with
  | 0x00 => (s, .ok (r.withOrder (reads d0)))
  | 0x01 =>
    match s.tokenRows c d0 ((s.core c).tok (fSdT i.word)) with
    | (s, _, some x) => (s, .bad 0x0810 x)
    | (s, rows, none) => send s rows
  | 0x04 => (s, .ok (if d0.space = 0 then r.withOrder (reads d0) else r))
  | 0x05 => (s, .ok (r.withOrder (reads d0)))
  | 0x06 =>
    match s.mapRows c.cluster d1 0 with
    | (s, _, some x) => (s, .bad 0x0811 x)
    | (s, rows, none) => send s (reshape d1 d0 rows)
  | 0x03 =>
    let first := BitVec.ofNat 64 (((d0.rowPlaces off 0).map d0.addr).headD 0)
    (s, .ok { r with first := first })
  | _ => (s, .ok r)

/-- Fold bytes into a check-value channel (R328). -/
def foldCv (s : State) (c : CoreId) (ch : Nat) (bs : List Byte) : State :=
  s.updCore c fun k => if ch = 0 then { k with cv0 := crcFold k.cv0 bs } else { k with cv1 := crcFold k.cv1 bs }

/-- Fold a write into PS_STR of a paired run (R373). DEDUCED, log entry 18. -/
def foldStr (s : State) (c : CoreId) (first : W64) (bs : List Byte) : State :=
  if s.isPaired c then
    s.updCore c fun k => { k with psStr := crcFold (crcFold k.psStr (bytesLE 8 first.toNat)) bs }
  else s

/-- The data effect of a completed instruction, or the code and offset of a store error (R131, R154, R179, R212, R328,
R373). What it reads of a map store is one picture of it, taken now, which no rule asks for. DEDUCED, log entry 18;
DESIGN CHOICE, log entry 84. -/
def streamFinish (s : State) (c : CoreId) (r : StreamRun) : State × Option (Nat × Nat) :=
  let i := r.ins
  let d0 := Desc.ofBytes r.d0
  let d1 := Desc.ofBytes r.d1
  let off := i.off
  let t := (s.core c).tok (fSdT i.word)
  let cvIf := fun (s : State) (ch : Nat) (rows : List (List Byte)) => if d0.cv then s.foldCv c ch rows.flatten else s
  let toToken := fun (s : State) (rows : List (List Byte)) =>
    match s.tokenPut c t rows with
    | (s, some x) => (s, some (0x0810, x))
    | (s, none) => ((cvIf s 0 rows).updCore c fun k => k.setTokState (fSdT i.word) .present, none)
  match eopField i.word with
  | 0x00 => toToken s (r.patternRows d0 off)
  | 0x01 => (((if d0.cv then s.foldCv c 1 r.data else s).foldStr c r.first r.data), none)
  | 0x02 =>
    match s.mapRows c.cluster d0 off with
    | (s, _, some x) => (s, some (0x0811, x))
    | (s, rows, none) => toToken s rows
  | 0x03 =>
    match s.tokenRows c d0 t with
    | (s, _, some x) => (s, some (0x0810, x))
    | (s, rows, none) =>
      match s.mapPut c.cluster d0 off rows with
      | (s, some x) => (s, some (0x0811, x))
      | (s, none) => ((cvIf s 1 rows).foldStr c r.first rows.flatten, none)
  | 0x04 =>
    let wpad := fun p : State × Option (Nat × Nat) =>
      match p.2 with
      | none => (p.1.addWpad c d0.geom, none)
      | some e => (p.1, some e)
    if d0.space = 0 then wpad (toToken s (r.windowRows d0 off))
    else
      match s.mapWindow c.cluster d0 off with
      | (s, _, some x) => (s, some (0x0811, x))
      | (s, rows, none) => wpad (toToken s rows)
  | 0x05 =>
    let rows := r.patternRows d0 off
    match s.mapPut c.cluster d1 0 (reshape d0 d1 rows) with
    | (s, some x) => (s, some (0x0811, x))
    | (s, none) => (cvIf s 0 rows, none)
  | _ => (((if d0.cv then s.foldCv c 1 r.data else s).foldStr c r.first r.data), none)

/-- The first instruction in flight that can complete: all its requests are answered, and every earlier one in flight
that folds into the same value has completed (R329). -/
def streamReady (s : State) (c : CoreId) : Option StreamRun :=
  let l := (s.core c).strRun
  if (s.core c).strAbort.isSome then none
  else l.find? fun r => r.todo.isEmpty && r.out.isEmpty && !r.held &&
    !l.any fun q => decide (q.ins.ord < r.ins.ord) && decide (s.foldsInto c q &&& s.foldsInto c r ≠ 0)

/-- A granule of read data reaches its instruction; the last granule of a row of a guarded buffer has its blocks checked
(R168, R334). Data of a request made before the last replay of its tile is not taken: the replay delivers it (R293). -/
def streamData (s : State) (c : CoreId) (ord tile pass va : Nat) (bs : List Byte) : State :=
  if (s.core c).strAbort.isSome then s.abortReport c
  else
  let s := s.updRun c ord fun r =>
    if pass ≠ r.passes.get 0 tile then { r with out := r.out.erase (tile, va), startAt := (s.die c.die).ticks }
    else { r with
             startAt := (s.die c.die).ticks
             out := r.out.erase (tile, va)
             buf := (bs.mapIdx fun i b => (i, b)).foldl (fun m e => m.put (tileKey tile (va + e.1)) e.2) r.buf }
  match (s.core c).strRun.find? fun r => decide (r.ins.ord = ord) with
  | none => s
  | some r =>
    let d0 := Desc.ofBytes r.d0
    if d0.guarded && !(r.out ++ r.todo).any (fun e => decide (e.1 = tile)) then
      let bad := fun j =>
        let a := d0.blockAddr j
        (blockCheck ((List.range 2056).map fun i => r.byteAt tile (a + i)) (addrTag a)).map fun info => (a, info)
      match ((d0.blocks r.ins.off).filter fun j => decide (d0.blockRow r.ins.off j = tile)).findSome? bad with
      | some (a, info) => s.streamAbort c r 0x1601 a info
      | none => s
    else s

/-- A tile of an instruction replays: every request of the tile is made again, in the order of the pattern, and so is every
later write already made that reaches a byte the tile writes (R293). -/
def replayTile (s : State) (c : CoreId) (ord va : Nat) : State :=
  s.updRun c ord fun r =>
    match r.todo.find? fun e => decide (e.2 = va) with
    | none => { r with held := false }
    | some e =>
      let mine := r.order.filter fun x => decide (x.1 = e.1)
      let rest := r.todo.filter fun x => decide (x.1 ≠ e.1)
      let later := if streamWritesMem r.ins.word then
          r.order.filter fun x => decide (e.1 < x.1) && !rest.contains x && (List.range 64).any fun j =>
            (r.wr.find? (tileKey x.1 (x.2 + j))).isSome && (r.wr.find? (tileKey e.1 (x.2 + j))).isSome
        else []
      { r with held := false, todo := mine ++ later ++ rest, passes := r.passes.setD 0 e.1 (r.passes.get 0 e.1 + 1) }

end State

end Sys2Proof.Machine
end

