-- ==== Sys2Proof/Machine/Turn.lean ====
section
/-!
DEFINITION. The turn of a launch: what each partition holds of a die's cores, the launches that wait for cores, the one that is
placed next, and the cores that are held for it (R269, R270).
-/
namespace Sys2Proof.Machine

/-- The logical die of a launch that a physical die is. -/
def Launch.ldieOf (l : Launch) (d : DieId) : Option Nat := l.dies.findIdx? (· = d.val)

/-- A logical cluster of a launch, as generators and clusters name it: launch, logical die, logical cluster with its run
(R143, R148, R371). -/
def clusterKey (q ldie lcl : Nat) (runB : Bool) : Nat × Nat × Nat := (q, ldie, lcl + 65536 * bit runB)

namespace State

/-- A launch waits for cores of a die: its part is not placed, or cores of it wait to resume (R269, R270).
DEDUCED, log entry 26. -/
def waitsOn (s : State) (d : DieId) (q : Nat) (l : Launch) : Bool :=
  match l.ldieOf d with
  | none => false
  | some i =>
    l.fault.isNone && l.saveHeld && decide ((s.ctx l.ctx).st = .resident) && (s.queue (queueOf q)).stopping.isNone &&
      (decide (l.parts.find? i = some .pending) ||
        l.cores.any fun x => decide (x.ldie = i) && x.preempted && x.at?.isNone)

/-- The launches that wait for cores of a die. -/
def waitingOn (s : State) (d : DieId) : List (Nat × Launch) := s.launches.entries.filter fun e => s.waitsOn d e.1 e.2

/-- Cores of a die that the launches of a partition hold, and the die's enabled cores. DEDUCED, log entry 26. -/
def coresHeld (s : State) (d : DieId) (p : Nat) : Nat :=
  (s.dieCores d).countP fun c => decide ((s.core c).run ≠ .idle) && decide ((s.coreLaunch c).map (·.partition) = some p)
def coresEnabled (s : State) (d : DieId) : Nat :=
  (s.dieCores d).countP fun c => (s.core c).enabled && (s.cluster c.cluster).enabled

/-- Whether a partition holds less, or more, than its share of a die's cores (R270). -/
def underShare (s : State) (d : DieId) (p : Nat) : Bool := decide (16 * s.coresHeld d p < s.coreShare p * s.coresEnabled d)
def overShare (s : State) (d : DieId) (p : Nat) : Bool := decide (s.coreShare p * s.coresEnabled d < 16 * s.coresHeld d p)

/-- The partition whose launch is placed next on a die, and whether it is of class 1 or 2 (R270).
DESIGN CHOICE, log entry 25. -/
def turnPart (s : State) (d : DieId) : Option (Nat × Bool) :=
  let ps := ((s.waitingOn d).map (·.2.partition)).eraseDups
  match ps.find? s.partSafety with
  | some p => some (p, true)
  | none =>
    let under := (List.range 16).filter fun p => ps.contains p && s.underShare d p
    let pick := fun (best : Option Nat) p =>
      match best with
      | none => some p
      | some b => if s.coresHeld d p * s.coreShare b < s.coresHeld d b * s.coreShare p then some p else some b
    match under.foldl pick none with
    | some p => some (p, true)
    | none => (nextAfter (s.die d).placeLast ps).map fun p => (p, false)

/-- The queue whose launch R270 places next on a die. -/
def nextTurn (s : State) (d : DieId) : Option (Nat × Bool) :=
  match s.turnPart d with
  | none => none
  | some (p, high) =>
    let qs := ((s.waitingOn d).filter fun e => decide (e.2.partition = p)).map (·.1)
    (nextAfter ((s.die d).placeLastQ.get 0 p) qs).map fun q => (q, high)

/-- The launch for which freed cores of a die are held, while it waits (R269). -/
def heldFor (s : State) (d : DieId) : Option (Nat × Launch) :=
  (s.die d).placeFor.bind fun q => (s.waitingOn d).find? fun e => decide (e.1 = q)

/-- The queue whose launch is placed next on a die, and whether it is of class 1 or 2: the one for which freed cores are held,
else the one of R270 (R269, R270). DESIGN CHOICE, log entry 25. -/
def turn (s : State) (d : DieId) : Option (Nat × Bool) :=
  match s.heldFor d with
  | some (q, l) => some (q, s.partSafety l.partition || s.underShare d l.partition)
  | none => s.nextTurn d

/-- Cores of a die have become free: they are held for the launch that is placed next, while it waits, and for no later one
(R269). -/
def holdCores (s : State) (d : DieId) : State :=
  match s.heldFor d with
  | some _ => s
  | none => s.setDie d { s.die d with placeFor := (s.nextTurn d).map (·.1) }

/-- The launch has been served in the rotations of R270; cores are held for it while it waits for more (R269). -/
def served (s : State) (d : DieId) (q p : Nat) : State :=
  let k := s.die d
  let keep := decide (k.placeFor = some q) && (s.heldFor d).isNone
  s.setDie d { k with
    placeLast := p
    placeLastQ := k.placeLastQ.put p q
    placeFor := if keep then none else k.placeFor }

end State

end Sys2Proof.Machine
end

