-- ==== Sys2Proof/Machine/Sfu.lean ====
section
/-!
DEFINITION. The special functions of the vector unit, correctly rounded in FP32 (R198, Table 09-1).

A function is enclosed in an interval of integers times a power of two, by fixed-point series; the result is taken when
both ends round to the same FP32 value, and otherwise the precision is raised.
-/
namespace Sys2Proof.Machine

/-- An enclosure: lowest and highest integer, times 2 to an exponent. -/
structure Enc where
  lo : Int
  hi : Int
  e : Int

/-- A fixed-point number with `p` fraction bits and an error of some units, as an enclosure. -/
def Enc.around (x : Int) (err : Nat) (p : Nat) : Enc := ⟨x - err, x + err, -(p : Int)⟩

/-- The FP32 value of an exact integer times a power of two. -/
def rneInt (x : Int) (e : Int) : Nat := fp32.rne (.fin (decide (x < 0)) x.natAbs e)

/-- The rounding of an enclosed value: the precisions are tried in order. -/
def settleEnc (f : Nat → Enc) : List Nat → Nat
  | [] => 0
  | p :: ps =>
    let e := f p
    let a := rneInt e.lo e.e
    if ps.isEmpty || decide (a = rneInt e.hi e.e) then a else settleEnc f ps

/-- The precisions tried, in fraction bits. -/
def precisions : List Nat := [192, 384, 768]

/-- Σ of 2^p / ((2i + 1) n^(2i + 1)), each term with a sign. -/
def inverseSeries (n p : Nat) (alt : Bool) : Int :=
  ((List.range (p / 2)).foldl (init := ((0 : Int), (2 : Int) ^ p / n)) fun acc i =>
    let t := acc.2 / ((2 * i + 1 : Nat) : Int)
    (if alt && decide (i % 2 = 1) then acc.1 - t else acc.1 + t, acc.2 / ((n * n : Nat) : Int))).1

/-- ln 2 and π with `p` fraction bits. -/
def ln2Fix (p : Nat) : Int :=
  18 * inverseSeries 26 p false - 2 * inverseSeries 4801 p false + 8 * inverseSeries 8749 p false
def piFix (p : Nat) : Int := 16 * inverseSeries 5 p true - 4 * inverseSeries 239 p true

/-- m × 2^e with `p` fraction bits, rounded down. -/
def fixOf (m : Int) (e : Int) (p : Nat) : Int :=
  let k := e + p
  if 0 ≤ k then m * 2 ^ k.toNat else m / 2 ^ (-k).toNat

/-- e^r for |r| below 1, with `p` fraction bits. -/
def expFix (r : Int) (p : Nat) : Int :=
  (List.range (p / 4 + 16)).foldr (init := (2 : Int) ^ p) fun i acc =>
    (2 : Int) ^ p + r * acc / 2 ^ p / ((i + 1 : Nat) : Int)

/-- e^x for x with `p` fraction bits: a number with `p` fraction bits and the exponent it is scaled by. -/
def expScaled (x : Int) (p : Nat) : Int × Int :=
  let l := ln2Fix p
  let k := x / l
  (expFix (x - k * l) p, k)

/-- ln y for y = m × 2^e > 0, with `p` fraction bits. -/
def lnFix (m : Nat) (e : Int) (p : Nat) : Int :=
  let b := m.log2
  let y := fixOf m (-(b : Int)) p
  let one := (2 : Int) ^ p
  let z := (y - one) * one / (y + one)
  let z2 := z * z / one
  let s := ((List.range (p / 3 + 8)).foldl (init := ((0 : Int), z)) fun acc i =>
    (acc.1 + acc.2 / ((2 * i + 1 : Nat) : Int), acc.2 * z2 / one)).1
  2 * s + (e + b) * ln2Fix p

/-- Σ (-1)^i z^i / ((2i + 1) i!), for z with `p` fraction bits: erf(x) is 2x/√π times it, with z = x². -/
def erfSeries (z : Int) (p n : Nat) : Int :=
  let one := (2 : Int) ^ p
  ((List.range n).foldl (init := ((0 : Int), one)) fun acc i =>
    let t := acc.2 / ((2 * i + 1 : Nat) : Int)
    (acc.1 + t, -(acc.2 * z / one) / ((i + 1 : Nat) : Int))).1

/-- The integer square root, bit by bit from bit `n`. -/
def isqrtAux (x : Nat) : Nat → Nat → Nat
  | 0, r => r
  | n + 1, r =>
    let t := r + 2 ^ n
    isqrtAux x n (if t * t ≤ x then t else r)
def isqrt (x : Nat) : Nat := isqrtAux x (x.log2 / 2 + 1) 0

/-- √π with `p` fraction bits. -/
def sqrtPi (p : Nat) : Int := (isqrt ((piFix p).toNat * 2 ^ p) : Nat)

/-- sin or cos of a fixed-point r by its series, with `p` fraction bits. -/
def sinFix (r : Int) (p : Nat) : Int :=
  let one := (2 : Int) ^ p
  let r2 := r * r / one
  ((List.range (p / 6 + 16)).foldl (init := ((0 : Int), r)) fun acc i =>
    (acc.1 + acc.2, -(acc.2 * r2 / one) / (((2 * i + 2) * (2 * i + 3) : Nat) : Int))).1
def cosFix (r : Int) (p : Nat) : Int :=
  let one := (2 : Int) ^ p
  let r2 := r * r / one
  ((List.range (p / 6 + 16)).foldl (init := ((0 : Int), one)) fun acc i =>
    (acc.1 + acc.2, -(acc.2 * r2 / one) / (((2 * i + 1) * (2 * i + 2) : Nat) : Int))).1

/-- The quadrant of m × 2^e, and what is left of it, with `p` fraction bits; π is taken with 160 bits more, which covers
every FP32 value. -/
def reduceQuadrant (m : Int) (e : Int) (p : Nat) : Nat × Int :=
  let q := p + 160
  let x := fixOf m e q
  let h := piFix (q + 160) / 2 ^ 161
  let k := (2 * x + h) / (2 * h)
  let fine := piFix (q + 160) / 2
  let r := (x * 2 ^ 160 - k * fine) / 2 ^ 320
  ((k % 4).toNat, r)

/-- A quotient of positive numbers with a sticky last bit, `p` bits after the point: the exact side of every rounding. -/
def stickyDiv (a b p : Nat) : Nat :=
  let q := a * 2 ^ p / b
  2 * q + (if q * b = a * 2 ^ p then 0 else 1)

/-- A square root with a sticky last bit. -/
def stickySqrt (x : Nat) : Nat :=
  let r := isqrt x
  2 * r + (if r * r = x then 0 else 1)

/-- The canonical NaN, infinities, zeros and one of FP32. -/
def f32NaN : Nat := 0x7FC00000
def f32Inf (s : Bool) : Nat := bit s * 2 ^ 31 + 0x7F800000
def f32Zero (s : Bool) : Nat := bit s * 2 ^ 31
def f32One (s : Bool) : Nat := bit s * 2 ^ 31 + 0x3F800000

/-- Whether |m × 2^e| is at least a whole number. -/
def atLeast (m : Nat) (e : Int) (n : Nat) : Bool :=
  if 0 ≤ e then decide (n ≤ m * 2 ^ e.toNat) else decide (n * 2 ^ (-e).toNat ≤ m)

/-- |m × 2^e| is below 2^-13. -/
def tiny (m : Nat) (e : Int) : Bool := decide (e + (m.log2 : Int) < -14)

/-- An enclosed product: x = m × 2^e times a positive factor with `p` fraction bits. -/
def timesEnc (x : Int) (e : Int) (g : Int) (err : Nat) (p : Nat) : Enc :=
  let a := x * (g - err)
  let b := x * (g + err)
  ⟨min a b, max a b, e - p⟩

/-- Φ(x) with `p` fraction bits. -/
def phiFix (x : Int) (e : Int) (p : Nat) : Int :=
  let q := p + 256
  let one := (2 : Int) ^ q
  let v := fixOf x e q
  let z := v * v / one / 2
  let s := erfSeries z q (p + 400)
  let root := (isqrt (2 * (piFix q).toNat * 2 ^ q) : Nat)
  (one / 2 + v * s / root) / 2 ^ 256

/-- EXP2 of a finite nonzero value. -/
def sfuExp2 (s : Bool) (m : Nat) (e : Int) : Nat :=
  if !s && atLeast m e 128 then f32Inf false
  else if s && atLeast m e 151 then f32Zero false
  else
    let x := FVal.toInt s m
    if 0 ≤ e then fp32.rne (.fin false 1 (x * 2 ^ e.toNat))
    else
      let k := x / 2 ^ (-e).toNat
      let r := x - k * 2 ^ (-e).toNat
      if r = 0 then fp32.rne (.fin false 1 k)
      else settleEnc (fun p =>
        let v := expFix (fixOf r e p * ln2Fix p / 2 ^ p) p
        ⟨v - 256, v + 256, k - p⟩) precisions

/-- EXP of a finite nonzero value. -/
def sfuExp (s : Bool) (m : Nat) (e : Int) : Nat :=
  if !s && atLeast m e 89 then f32Inf false
  else if s && atLeast m e 105 then f32Zero false
  else settleEnc (fun p =>
    let v := expScaled (fixOf (FVal.toInt s m) e p) p
    ⟨v.1 - 4096, v.1 + 4096, v.2 - p⟩) precisions

/-- SIGMOID with `p` fraction bits and a scale, as numerator and exponent. -/
def sigmoidFix (s : Bool) (m : Nat) (e : Int) (p : Nat) : Int × Int :=
  let one := (2 : Int) ^ p
  let v := expScaled (fixOf (-(m : Int)) e p) p
  let small := v.1 / 2 ^ (-v.2).toNat
  if s then (v.1 * one / (one + small), v.2) else (one * one / (one + small), 0)

/-- A special function of an FP32 value (R198). -/
def sfu (fn x : Nat) : Nat :=
  match fp32.decode x with
  | .nan => f32NaN
  | .inf s =>
    match fn with
    | 0x00 | 0x01 => if s then f32Zero false else f32Inf false
    | 0x02 | 0x03 | 0x06 => if s then f32NaN else f32Inf false
    | 0x04 => f32Zero s
    | 0x05 => if s then f32NaN else f32Zero false
    | 0x07 | 0x0B => f32One s
    | 0x08 => if s then f32Zero false else f32One false
    | 0x09 | 0x0A => if s then f32Zero true else f32Inf false
    | _ => f32NaN
  | .fin s m e =>
    if m = 0 then
      match fn with
      | 0x00 | 0x01 | 0x0D => f32One false
      | 0x02 | 0x03 => f32Inf true
      | 0x04 | 0x05 => f32Inf s
      | 0x08 => 0x3F000000
      | _ => f32Zero s
    else
      let v := FVal.toInt s m
      match fn with
      | 0x00 => sfuExp2 s m e
      | 0x01 => sfuExp s m e
      | 0x02 =>
        if s then f32NaN
        else if m = 2 ^ m.log2 then rneInt (e + (m.log2 : Int)) 0
        else settleEnc (fun p => Enc.around (lnFix m e p * 2 ^ p / ln2Fix p) 65536 p) precisions
      | 0x03 =>
        if s then f32NaN
        else if m = 2 ^ m.log2 ∧ e + (m.log2 : Int) = 0 then 0
        else settleEnc (fun p => Enc.around (lnFix m e p) 65536 p) precisions
      | 0x04 => fp32.rne (.fin s (stickyDiv 1 m 64) (-e - 65))
      | 0x05 =>
        if s then f32NaN
        else
          let m' := if e % 2 = 0 then m else 2 * m
          let e' := if e % 2 = 0 then e else e - 1
          let t := isqrt (2 ^ 160 / m')
          let odd := if t * t * m' = 2 ^ 160 then 0 else 1
          fp32.rne (.fin false (2 * t + odd) (-81 - e' / 2))
      | 0x06 =>
        if s then f32NaN
        else
          let m' := if e % 2 = 0 then m else 2 * m
          let e' := if e % 2 = 0 then e else e - 1
          fp32.rne (.fin false (stickySqrt (m' * 2 ^ 64)) (e' / 2 - 33))
      | 0x07 =>
        if tiny m e then x
        else if atLeast m e 16 then f32One s
        else settleEnc (fun p =>
          let w := expScaled (fixOf (2 * v) e p) p
          let y := if 0 ≤ w.2 then w.1 * 2 ^ w.2.toNat else w.1 / 2 ^ (-w.2).toNat
          let one := (2 : Int) ^ p
          Enc.around ((y - one) * one / (y + one)) 65536 p) precisions
      | 0x08 =>
        if s && atLeast m e 105 then f32Zero false
        else if !s && atLeast m e 32 then f32One false
        else settleEnc (fun p =>
          let g := sigmoidFix s m e p
          ⟨g.1 - 65536, g.1 + 65536, g.2 - p⟩) precisions
      | 0x09 =>
        if s && atLeast m e 16 then f32Zero true
        else if !s && atLeast m e 8 then x
        else settleEnc (fun p => timesEnc v e (phiFix v e p) 65536 p) precisions
      | 0x0A =>
        if s && atLeast m e 128 then f32Zero true
        else if !s && atLeast m e 32 then x
        else settleEnc (fun p =>
          let g := sigmoidFix s m e p
          timesEnc v (e + g.2) g.1 65536 p) precisions
      | 0x0B =>
        if atLeast m e 4 then f32One s
        else settleEnc (fun p =>
          let q := p + 64
          let a := fixOf v e q
          let g := 2 * erfSeries (a * a / 2 ^ q) q (p + 64) * 2 ^ q / sqrtPi q / 2 ^ 64
          timesEnc v e g 65536 p) precisions
      | 0x0C =>
        if tiny m e then x
        else settleEnc (fun p =>
          let r := reduceQuadrant v e p
          let y := if r.1 % 2 = 0 then sinFix r.2 p else cosFix r.2 p
          Enc.around (if r.1 < 2 then y else -y) 65536 p) precisions
      | _ =>
        settleEnc (fun p =>
          let r := reduceQuadrant v e p
          let y := if r.1 % 2 = 0 then cosFix r.2 p else sinFix r.2 p
          Enc.around (if r.1 = 0 ∨ r.1 = 3 then y else -y) 65536 p) precisions

end Sys2Proof.Machine
end

