-- ==== Sys2Proof/Machine/VecNum.lean ====
section
/-!
DEFINITION. Lane arithmetic of the vector unit: FP32, BF16 and INT32 operations, reductions, conversions and the order
of sort keys (R134 to R137, R193 to R200).
-/
namespace Sys2Proof.Machine

/-- The sum of two values as IEEE 754 defines it before rounding: an exact sum of zero is +0, except -0 + -0 (R194). -/
def fAdd (a b : FVal) : FVal :=
  match a, b with
  | .nan, _ => .nan
  | _, .nan => .nan
  | .inf s, .inf t => if s = t then .inf s else .nan
  | .inf s, _ => .inf s
  | _, .inf t => .inf t
  | .fin s m e, .fin t n f =>
    let r := addExact (FVal.toInt s m) e (FVal.toInt t n) f
    if r.1 = 0 then .fin (decide (m = 0) && decide (n = 0) && s && t) 0 0
    else .fin (decide (r.1 < 0)) r.1.natAbs r.2

/-- The negation of a value. -/
def fNeg : FVal → FVal
  | .nan => .nan
  | .inf s => .inf !s
  | .fin s m e => .fin (!s) m e

/-- The exact product (R194). -/
def fMul (a b : FVal) : FVal :=
  match a, b with
  | .nan, _ => .nan
  | _, .nan => .nan
  | .inf s, .inf t => .inf (s != t)
  | .inf s, .fin t n _ => if n = 0 then .nan else .inf (s != t)
  | .fin s m _, .inf t => if m = 0 then .nan else .inf (s != t)
  | .fin s m e, .fin t n f => .fin (s != t) (m * n) (e + f)

/-- The key of an FP32 pattern in the total order of R137. -/
def fpKey (x : Nat) : Nat := if bitAt x 31 then 2 ^ 32 - 1 - x % 2 ^ 32 else x % 2 ^ 32 + 2 ^ 31

/-- Whether an FP32 pattern is a NaN. -/
def isNaN32 (x : Nat) : Bool := decide (fp32.decode x = .nan)

/-- Numeric comparison: a < b, with -0 = +0 and false for a NaN (R194). -/
def fLt (a b : FVal) : Bool :=
  match fAdd a (fNeg b) with
  | .fin s m _ => s && decide (m ≠ 0)
  | .inf s => s
  | .nan =>
    match a, b with
    | .inf s, .inf t => s && !t
    | _, _ => false

/-- Numeric equality (R194). -/
def fEq (a b : FVal) : Bool :=
  match a, b with
  | .nan, _ => false
  | _, .nan => false
  | .inf s, .inf t => s == t
  | .fin s m e, .fin t n f => decide ((addExact (FVal.toInt s m) e (-(FVal.toInt t n)) f).1 = 0)
  | _, _ => false

/-- An FP32 result: one rounding, every NaN canonical (R194). -/
def toF32 (v : FVal) : Nat := fp32.rne v

/-- A BF16 result held as FP32 bits (R195). -/
def toB16 (v : FVal) : Nat := bf16.rne v * 65536

/-- Minimum and maximum of FP32 patterns (R194). -/
def fMin (a b : Nat) : Nat := if isNaN32 a || isNaN32 b then f32NaN else if fpKey b < fpKey a then b else a
def fMax (a b : Nat) : Nat := if isNaN32 a || isNaN32 b then f32NaN else if fpKey a < fpKey b then b else a

/-- A truth value as a lane. -/
def laneBool (b : Bool) : Nat := if b then 0xFFFFFFFF else 0

/-- A lane operation of VOPF or VOPB: `rd` gives the rounding of an exact result (R134, R194, R195). -/
def vopFloat (round : FVal → Nat) (fn a b d : Nat) : Nat :=
  let x := fp32.decode a
  let y := fp32.decode b
  match fn with
  | 0x00 => round (fAdd x y)
  | 0x01 => round (fAdd x (fNeg y))
  | 0x02 => round (fMul x y)
  | 0x03 => round (fAdd (fMul x y) (fp32.decode d))
  | 0x04 => round (fp32.decode (fMin a b))
  | 0x05 => round (fp32.decode (fMax a b))
  | 0x06 => round (fp32.decode (a % 2 ^ 31))
  | 0x07 => round (fNeg x)
  | 0x08 => laneBool (fLt x y)
  | 0x09 => laneBool (fEq x y)
  | _ => if d = 0 then b else a

/-- A lane operation of VOPI (R134, R196). -/
def vopInt (fn a b d : Nat) : Nat :=
  let x := signed 32 a
  let y := signed 32 b
  match fn with
  | 0x00 => wrap 32 (x + y)
  | 0x01 => wrap 32 (x - y)
  | 0x02 => wrap 32 (x * y)
  | 0x03 => if y < x then b else a
  | 0x04 => if x < y then b else a
  | 0x05 => a &&& b
  | 0x06 => a ||| b
  | 0x07 => a ^^^ b
  | 0x08 => wrap 32 (x * (2 ^ (b % 32) : Nat))
  | 0x09 => a / 2 ^ (b % 32)
  | 0x0A => wrap 32 (x / (2 ^ (b % 32) : Nat))
  | 0x0B => laneBool (decide (x < y))
  | 0x0C => laneBool (decide (a = b))
  | _ => if d = 0 then b else a

/-- F2I (R200). -/
def f2i (a : Nat) : Nat :=
  match fp32.decode a with
  | .nan => 0
  | .inf s => if s then 0x80000000 else 0x7FFFFFFF
  | .fin s m e =>
    let r := FVal.toInt s (roundAt 0 s m e 0)
    wrap 32 (max (-2147483648) (min 2147483647 r))

/-- I2F (R200). -/
def i2f (a : Nat) : Nat :=
  let x := signed 32 a
  toF32 (.fin (decide (x < 0)) x.natAbs 0)

/-- A conversion of VCVT (R134, R200). DEDUCED, log entry 11. -/
def vcvt (fn a : Nat) : Nat :=
  match fn with
  | 0x00 => f2i a
  | 0x01 => i2f a
  | 0x02 => toB16 (fp32.decode a)
  | _ =>
    let v := fp32.decode a
    if v = .nan then f32NaN else toF32 (fp16.decode (convFloat fp16 0 true 0 v).1)

/-- One level of VRED SUM on a list of lanes of even length (R199). -/
def redLevel (xs : List Nat) : List Nat :=
  let h := xs.length / 2
  ((xs.take h).zip (xs.drop h)).map fun p => toF32 (fAdd (fp32.decode p.1) (fp32.decode p.2))

/-- VRED over 64 lanes (R199). -/
def vred (fn : Nat) (xs : List Nat) : Nat :=
  let firstNaN := xs.findIdx? isNaN32
  let best := fun pick : Nat → Nat → Nat => (xs.drop 1).foldl pick (xs.headD 0)
  let at' := fun m : Nat => (xs.findIdx? fun x => decide (x = m)).getD 0
  match fn with
  | 0x00 => (redLevel (redLevel (redLevel (redLevel (redLevel (redLevel xs)))))).headD 0
  | 0x01 => if firstNaN.isSome then f32NaN else best fMax
  | 0x02 => if firstNaN.isSome then f32NaN else best fMin
  | 0x03 => firstNaN.getD (at' (best fMax))
  | _ => firstNaN.getD (at' (best fMin))

/-- The format code of a VF (Table 06-9): its code of Table 03-1, INT32 as 0x14. -/
def vfFormat : Nat → Nat
  | 0 => 0x12 | 1 => 0x11 | 2 => 0x10 | 3 => 0x04 | 4 => 0x05 | 5 => 0x14 | 6 => 0x00 | _ => 0x01

/-- A loaded element as a lane (R135, R193). -/
def vfLoad (vf bits : Nat) : Nat :=
  match fmtFloat (vfFormat vf) with
  | some f => toF32 (f.decode bits)
  | none =>
    match vf with
    | 5 => bits
    | 6 => wrap 32 (signed 8 bits)
    | _ => bits % 256

/-- A lane as a stored element (R135). DEDUCED, log entry 11. -/
def vfStore (vf lane : Nat) : Nat :=
  match fmtFloat (vfFormat vf) with
  | some f => (convFloat f 0 true 0 (fp32.decode lane)).1
  | none => (convInt (vfFormat vf) 0 0 (signed 32 lane)).1

/-- The sort key of VSORT by key type (R137). -/
def sortKey (kt k : Nat) : Nat :=
  match kt with
  | 0 => k
  | 1 => (k + 2 ^ 31) % 2 ^ 32
  | _ => fpKey k

/-- A record put behind every record whose key comes no later: insertion that keeps equal keys in input order. -/
def insertStable {α : Type} (le : α → α → Bool) (x : α) : List α → List α
  | [] => [x]
  | y :: ys => if le y x then y :: insertStable le x ys else x :: y :: ys

/-- A stable sort. -/
def sortStable {α : Type} (le : α → α → Bool) (l : List α) : List α := l.foldl (fun acc x => insertStable le x acc) []

/-- The order of records of VSORT: ascending or descending by key (R137). -/
def sortRecords (kt : Nat) (desc : Bool) (rs : List (Nat × Nat)) : List (Nat × Nat) :=
  sortStable (fun a b => if desc then decide (sortKey kt b.1 ≤ sortKey kt a.1)
    else decide (sortKey kt a.1 ≤ sortKey kt b.1)) rs

end Sys2Proof.Machine
end

