-- ==== Sys2Proof/Machine/BoxOps.lean ====
section
/-!
DEFINITION. Box decoding and suppression: records, decode formulas, exact overlap and the selection of survivors
(R224 to R230).
-/
namespace Sys2Proof.Machine

/-- FP32 operations by name (R226). -/
def add32 (a b : Nat) : Nat := vopFloat toF32 0 a b 0
def sub32 (a b : Nat) : Nat := vopFloat toF32 1 a b 0
def mul32 (a b : Nat) : Nat := vopFloat toF32 2 a b 0
def fma32 (a b c : Nat) : Nat := vopFloat toF32 3 a b c
def neg32 (a : Nat) : Nat := vopFloat toF32 7 a 0 0

/-- L(r) and WRAP(v) (R226). -/
def boxL (dclamp r : Nat) : Nat := sfu 0x01 (fMin r dclamp)
def boxWrap (v : Nat) : Nat := fma32 (neg32 (i2f (f2i (mul32 v 0x3E22F983)))) 0x40C90FDB v

/-- s ≥ SMIN, false for a NaN (R226, R228). -/
def scoreOk (s smin : Nat) : Bool :=
  let a := fp32.decode s
  let b := fp32.decode smin
  !isNaN32 s && !isNaN32 smin && !fLt a b

/-- The box record of one input record (R224 to R226). -/
def boxDecode (mode dclamp smin : Nat) (rec : List Byte) : List Byte :=
  let r := fun i => fieldAt rec (4 * i) 4
  let p := fun i => fieldAt rec (0x20 + 4 * i) 4
  let raw := fieldAt rec 0x1C 4
  let s := if bitAt mode 2 then sfu 0x08 raw else raw
  let score := if scoreOk s smin then s else 0xFF800000
  let l := boxL dclamp
  let d := sfu 0x06 (fma32 (p 3) (p 3) (mul32 (p 4) (p 4)))
  let f : List Nat :=
    match mode % 4 with
    | 0 => [fma32 (r 0) (p 2) (p 0), fma32 (r 1) (p 3) (p 1), mul32 (p 2) (l (r 2)), mul32 (p 3) (l (r 3)), 0, 0, 0]
    | 1 => [mul32 (add32 (p 0) (r 0)) (p 2), mul32 (add32 (p 1) (r 1)) (p 2), mul32 (l (r 2)) (p 2),
            mul32 (l (r 3)) (p 2), 0, 0, 0]
    | 2 => [fma32 (r 0) d (p 0), fma32 (r 1) d (p 1), mul32 (p 3) (l (r 3)), mul32 (p 4) (l (r 4)),
            boxWrap (add32 (p 6) (r 6)), fma32 (r 2) (p 5) (p 2), mul32 (p 5) (l (r 5))]
    | _ => [mul32 (add32 (p 0) (r 0)) (p 2), mul32 (add32 (p 1) (r 1)) (p 2), l (r 3), l (r 4), boxWrap (r 6), r 2,
            l (r 5)]
  bytesLE 4 score ++ (rec.drop 0x3C).take 4 ++ f.flatMap (bytesLE 4) ++ bytesLE 12 0

/-- An exact rational with a positive denominator. -/
structure Frac where
  n : Int
  d : Nat
  deriving DecidableEq, Repr

namespace Frac

/-- In lowest terms. -/
def mk' (n : Int) (d : Nat) : Frac :=
  let g := Nat.gcd n.natAbs d
  if g = 0 then ⟨n, d⟩ else ⟨n / (g : Int), d / g⟩

/-- Sum, difference, product and quotient. -/
def add (a b : Frac) : Frac := mk' (a.n * b.d + b.n * a.d) (a.d * b.d)
def sub (a b : Frac) : Frac := mk' (a.n * b.d - b.n * a.d) (a.d * b.d)
def mul (a b : Frac) : Frac := mk' (a.n * b.n) (a.d * b.d)
def div (a b : Frac) : Frac :=
  if b.n < 0 then mk' (-(a.n * b.d)) (a.d * b.n.natAbs) else mk' (a.n * b.d) (a.d * b.n.natAbs)

/-- Order and magnitude. -/
def lt (a b : Frac) : Bool := decide (a.n * b.d < b.n * a.d)
def abs (a : Frac) : Frac := ⟨a.n.natAbs, a.d⟩

/-- The exact value of a finite FP32 pattern. -/
def of32 (x : Nat) : Frac :=
  match fp32.decode x with
  | .fin s m e => if 0 ≤ e then ⟨FVal.toInt s m * 2 ^ e.toNat, 1⟩ else mk' (FVal.toInt s m) (2 ^ (-e).toNat)
  | _ => ⟨0, 1⟩

end Frac

/-- A point of the plane. -/
abbrev Pt := Frac × Frac

/-- Twice the signed area of the triangle of three points; positive when they turn to the left. -/
def turn (a b c : Pt) : Frac :=
  ((b.1.sub a.1).mul (c.2.sub a.2)).sub ((b.2.sub a.2).mul (c.1.sub a.1))

/-- Twice the signed area of a polygon. -/
def area2 : List Pt → Frac
  | a :: rest => ((rest.zip (rest.drop 1)).map fun e => turn a e.1 e.2).foldl Frac.add ⟨0, 1⟩
  | [] => ⟨0, 1⟩

/-- Where the line from `p` to `q` meets the line through `a` and `b`, with the turns of `p` and `q` given. -/
def crossing (p q : Pt) (tp tq : Frac) : Pt :=
  let f := tp.div (tp.sub tq)
  (p.1.add (f.mul (q.1.sub p.1)), p.2.add (f.mul (q.2.sub p.2)))

/-- The part of a polygon on the left of the line from `a` to `b`. -/
def clipLeft (a b : Pt) (poly : List Pt) : List Pt :=
  (poly.zip (poly.drop 1 ++ poly.take 1)).flatMap fun e =>
    let tp := turn a b e.1
    let tq := turn a b e.2
    let inP := decide (0 ≤ tp.n)
    let inQ := decide (0 ≤ tq.n)
    (if inP then [e.1] else []) ++ (if inP != inQ then [crossing e.1 e.2 tp tq] else [])

/-- Twice the area of the intersection of two triangles that turn to the left. -/
def triMeet (t u : Pt × Pt × Pt) : Frac :=
  area2 (clipLeft u.2.2 u.1 (clipLeft u.2.1 u.2.2 (clipLeft u.1 u.2.1 [t.1, t.2.1, t.2.2])))

/-- The triangles of a quadrilateral, each turning to the left with the sign it counts with. -/
def fan (q : List Pt) : List (Bool × Pt × Pt × Pt) :=
  match q with
  | [a, b, c, d] =>
    [(b, c), (c, d)].map fun e =>
      if (turn a e.1 e.2).n < 0 then (true, a, e.2, e.1) else (false, a, e.1, e.2)
  | _ => []

/-- Twice the area of the intersection of two quadrilaterals. -/
def meet2 (p q : List Pt) : Frac :=
  (((fan p).flatMap fun t => (fan q).map fun u =>
    let m := triMeet t.2 u.2
    if t.1 != u.1 then (⟨0, 1⟩ : Frac).sub m else m).foldl Frac.add ⟨0, 1⟩).abs

/-- What a box is reduced to (R229). -/
inductive BoxShape where
  /-- It overlaps nothing. -/
  | degenerate
  | poly (pts : List Pt)
  /-- A corner overflows FP32: the spec states no area for it, so its overlaps are free values. -/
  | unstated
  deriving DecidableEq, Repr

/-- A box with its polygon (R229). -/
def boxPoly (rotated : Bool) (rec : List Byte) : BoxShape :=
  let cx := fieldAt rec 8 4
  let cy := fieldAt rec 0xC 4
  let sx := fieldAt rec 0x10 4
  let sy := fieldAt rec 0x14 4
  let yaw := fieldAt rec 0x18 4
  let finite := fun x => match fp32.decode x with | .fin _ _ _ => true | _ => false
  let pos := fun x => match fp32.decode x with | .fin s m _ => !s && decide (m ≠ 0) | _ => false
  if !([cx, cy, sx, sy, yaw].all finite && pos sx && pos sy) then .degenerate
  else
    let hx := mul32 sx 0x3F000000
    let hy := mul32 sy 0x3F000000
    let pts : List (Nat × Nat) :=
      if rotated then
        let c := sfu 0x0D yaw
        let s := sfu 0x0C yaw
        let ex := mul32 hx c
        let ey := mul32 hx s
        let fx := mul32 hy s
        let fy := mul32 hy c
        let gx := sub32 ex fx
        let kx := add32 ex fx
        let gy := add32 ey fy
        let ky := sub32 ey fy
        [(add32 cx gx, add32 cy gy), (sub32 cx kx, sub32 cy ky), (sub32 cx gx, sub32 cy gy), (add32 cx kx, add32 cy ky)]
      else
        let x0 := sub32 cx hx
        let x1 := add32 cx hx
        let y0 := sub32 cy hy
        let y1 := add32 cy hy
        [(x0, y0), (x1, y0), (x1, y1), (x0, y1)]
    if !pts.all fun p => finite p.1 && finite p.2 then .unstated
    else
      let poly := pts.map fun p => (Frac.of32 p.1, Frac.of32 p.2)
      if (area2 poly).n = 0 then .degenerate else .poly poly

/-- Whether two polygons overlap above the threshold T (R230). -/
def polyOverlap (t : Nat) (a b : List Pt) : Bool :=
  let i := meet2 a b
  let u := ((area2 a).abs.add (area2 b).abs).sub i
  decide (0 < u.n) && (match fp32.decode t with
    | .nan => false
    | .inf s => s
    | .fin _ _ _ => ((Frac.of32 t).mul u).lt i)

/-- A candidate of the selection: class, record and shape. -/
structure Cand where
  cls : Nat
  bytes : List Byte
  shape : BoxShape
  deriving DecidableEq, Repr

/-- Whether two boxes overlap (R229, R230); at a threshold that is a NaN, or 1.0 or more, no two do (R228).
DESIGN CHOICE, log entry 67. -/
def overlaps (t : Nat) (k c : Cand) : Bool :=
  if t % 2 ^ 31 > 0x7F800000 ∨ (t < 2 ^ 31 ∧ 0x3F800000 ≤ t) then false
  else match k.shape, c.shape with
  | .degenerate, _ => false
  | _, .degenerate => false
  | .poly a, .poly b => polyOverlap t a b
  | _, _ => Config.freeOverlap t k.bytes c.bytes

/-- The state of the selection: boxes kept, and the number suppressed and examined (R228). -/
structure Nms where
  kept : List Cand := []
  supp : Nat := 0
  seen : Nat := 0

/-- One candidate of the selection (R228). -/
def Nms.step (keep t : Nat) (classAware : Bool) (st : Nms) (c : Cand) : Nms :=
  if keep ≤ st.kept.length then st
  else if st.kept.any fun k => (!classAware || decide (k.cls = c.cls)) && overlaps t k c then
    { st with supp := st.supp + 1, seen := st.seen + 1 }
  else { st with kept := st.kept ++ [c], seen := st.seen + 1 }

/-- The header and survivors of VEC.VNMS (R227, R228, Table 11-3): the records of the boxes kept are unchanged but for
their reserved bytes, which the block writes as 0 (Table 11-2). -/
def nmsRun (keep t smin mode : Nat) (recs : List (List Byte)) : List Byte :=
  let valid := recs.filter fun r => decide (fieldAt r 0 4 ≠ 0xFF800000) && scoreOk (fieldAt r 0 4) smin
  let order := sortStable (fun a b : List Byte => decide (fpKey (fieldAt b 0 4) ≤ fpKey (fieldAt a 0 4))) valid
  let cands := order.map fun r => Cand.mk (fieldAt r 6 2) r (boxPoly (decide (mode % 4 = 1)) r)
  let st := cands.foldl (Nms.step keep t (bitAt mode 2)) {}
  bytesLE 4 st.kept.length ++ bytesLE 4 valid.length ++ bytesLE 4 st.supp ++
    bytesLE 4 (valid.length - st.kept.length - st.supp) ++ st.kept.flatMap fun c => c.bytes.take 0x24 ++ List.replicate 12 0

end Sys2Proof.Machine
end

