-- ==== Sys2Proof/Machine/VecOps.lean ====
section
/-!
DEFINITION. Vector instructions on the state: checks, register use, and the effect at completion
(R135 to R139, R192 to R200, R224 to R228, R498).
-/
namespace Sys2Proof.Machine

/-- The registers a vector instruction reads and writes (Tables 06-7, 06-8): only FMA and SEL read vd, and ABS and NEG do
not read vb. -/
def vecSources (w : W32) : List Nat :=
  match eopField w with
  | 0x01 => [fVd w]
  | 0x02 | 0x03 =>
    match fFn w with
    | 0x03 | 0x0A => [fVa w, fVb w, fVd w]
    | 0x06 | 0x07 => [fVa w]
    | _ => [fVa w, fVb w]
  | 0x04 => if fFn w = 0x0D then [fVa w, fVb w, fVd w] else [fVa w, fVb w]
  | 0x05 | 0x06 | 0x07 | 0x09 => [fVa w]
  | _ => []
def vecDest (w : W32) : Option Nat :=
  match eopField w with
  | 0x00 | 0x02 | 0x03 | 0x04 | 0x05 | 0x06 | 0x07 | 0x08 => some (fVd w)
  | _ => none

/-- VSORT, VBOX and VNMS: while one runs, no other vector instruction issues (R204, R231). -/
def isLong (w : W32) : Bool := decide (0x0A ≤ eopField w)

/-- Column and row of VLD and VST (R135). -/
def vecCol (x : W64) : Nat := field x.toNat 24 0
def vecRow (x : W64) : Nat := field x.toNat 56 32

/-- Byte offset of the first of 64 elements in core store, and their bytes. -/
def vecWidth (vf : Nat) : Nat := (fmtBits (vfFormat vf)).getD 8 / 8
def vecOffset (t : Token) (x : W64) (vf : Nat) : Nat := t.base + vecRow x * t.pitch + vecCol x * vecWidth vf

/-- F-0605: a position outside the token (R135). -/
def vecPosOk (t : Token) (x : W64) (vf : Nat) : Bool :=
  decide (field x.toNat 31 25 = 0) && decide (field x.toNat 63 57 = 0) && decide (vecRow x < t.rows) &&
    decide (vecCol x + 63 < t.cols) &&
    decide (vecRow x * t.pitch + (vecCol x + 64) * vecWidth vf ≤ t.len)

/-- Fields of s[rs1] of VSORT, VBOX and VNMS (R137, R225, R227). -/
def vecN (x : W64) : Nat := field x.toNat 12 0
def sortKeep (x : W64) : Nat := field x.toNat 44 32
def nmsKeep (x : W64) : Nat := field x.toNat 25 16

/-- F-0606: the counts and the bits that must be 0. -/
def vecCountOk (w : W32) (x : W64) : Bool :=
  match eopField w with
  | 0x0A => inRange (vecN x) 1 4096 && inRange (sortKeep x) 1 (vecN x) && decide (field x.toNat 31 13 = 0) &&
      decide (field x.toNat 63 45 = 0)
  | 0x0B => inRange (vecN x) 1 4096 && decide (field x.toNat 15 13 = 0) && decide (field x.toNat 47 32 = 0)
  | 0x0C => inRange (vecN x) 1 4096 && inRange (nmsKeep x) 1 512 && decide (field x.toNat 15 13 = 0) &&
      decide (field x.toNat 31 26 = 0)
  | _ => true

/-- Bytes that TS and TD of a long instruction must hold. -/
def vecNeeds (w : W32) (x : W64) : Nat × Nat :=
  match eopField w with
  | 0x0A => (vecN x * 8, sortKeep x * 8)
  | 0x0B => (vecN x * 64, vecN x * 48)
  | _ => (vecN x * 48, 16 + nmsKeep x * 48)

/-- The checks of a vector instruction's tokens (R135, R137, R138, R498): each of TS and TD of a long instruction stands
for itself. -/
def vecChecks (k : Core) (i : EInstr) : List TokenCheck :=
  let w := i.word
  let t := k.tok (fVtT w)
  let pos : Option (Nat × Nat × Nat) := if !vecPosOk t i.x1 (fVf w) then some (4, 0x0605, fVtT w) else none
  let holds := fun (n t : Nat) =>
    ([t], if (k.tok t).window.isSome ∨ (k.tok t).len < n then some (4, 0x0602, t) else none)
  match eopField w with
  | 0x00 => [([fVtT w], if t.window.isSome then some (4, 0x0602, fVtT w) else pos)]
  | 0x01 => [([fVtT w], if t.window.isSome ∨ t.st = .present then some (4, 0x0602, fVtT w) else pos)]
  | 0x0A | 0x0B | 0x0C => [holds (vecNeeds w i.x1).1 (fTs w), holds (vecNeeds w i.x1).2 (fTd w)]
  | _ => []

/-- The token states a vector instruction's write needs (R135, Table 06-4). -/
def vecStates (w : W32) : List TokState := if eopField w = 0x01 then [.empty, .filling] else [.empty]

/-- Whether a vector instruction can issue (R123, R203, R204). -/
def vecReady (k : Core) (i : EInstr) : Bool :=
  k.readsOk i && k.writesOk i (vecStates i.word) && !k.vecRun.any (fun r => isLong r.word) &&
    !k.vecRun.any fun r => match vecDest r.word with
      | some d => (vecSources i.word).contains d
      | none => false

/-- The lanes that an arithmetic instruction writes (R134, R194 to R200). -/
def vecLanes (k : Core) (i : EInstr) : List W32 :=
  let w := i.word
  let a := (k.lanes (fVa w)).map (·.toNat)
  let b := (k.lanes (fVb w)).map (·.toNat)
  let d := (k.lanes (fVd w)).map (·.toNat)
  let zip3 := fun f : Nat → Nat → Nat → Nat =>
    (a.zip (b.zip d)).map fun e => BitVec.ofNat 32 (f e.1 e.2.1 e.2.2)
  match eopField w with
  | 0x02 => zip3 (vopFloat toF32 (fFn w))
  | 0x03 => zip3 (vopFloat toB16 (fFn w))
  | 0x04 => zip3 (vopInt (fFn w))
  | 0x05 => a.map fun x => BitVec.ofNat 32 (sfu (fFn w) x)
  | 0x06 => BitVec.ofNat 32 (vred (fFn w) a) :: List.replicate 63 0
  | 0x07 => a.map fun x => BitVec.ofNat 32 (vcvt (fFn w) x)
  | _ => List.replicate 64 (i.x1.truncate 32)

namespace State

/-- The effect of a completing vector instruction, or the offset of an uncorrectable core store word. -/
def vecFinish (s : State) (c : CoreId) (i : EInstr) : State × Option Nat :=
  let k := s.core c
  let w := i.word
  let present := fun (p : State × Option Nat) (t : Nat) =>
    match p.2 with
    | some x => (p.1, some x)
    | none => (p.1.updCore c fun k => k.setTokState t .present, none)
  match eopField w with
  | 0x00 =>
    let vf := fVf w
    let n := vecWidth vf
    match s.csRead c (vecOffset (k.tok (fVtT w)) i.x1 vf) (64 * n) with
    | (s, _, some x) => (s, some x)
    | (s, bs, none) =>
      (s.updCore c fun k => k.setLanes (fVd w) ((List.range 64).map fun j =>
        BitVec.ofNat 32 (vfLoad vf (ofBytesLE ((bs.drop (j * n)).take n)))), none)
  | 0x01 =>
    let vf := fVf w
    let n := vecWidth vf
    let bs := (k.lanes (fVd w)).flatMap fun l => bytesLE n (vfStore vf l.toNat)
    let r := s.csWrite c (vecOffset (k.tok (fVtT w)) i.x1 vf) bs
    if fVl w then present r (fVtT w) else r
  | 0x09 => (s, none)
  | 0x0A =>
    let n := vecN i.x1
    match s.csRead c (k.tok (fTs w)).base (8 * n) with
    | (s, _, some x) => (s, some x)
    | (s, bs, none) =>
      let rs := (List.range n).map fun j => (fieldAt bs (8 * j) 4, fieldAt bs (8 * j + 4) 4)
      let out := (sortRecords (fMode w / 2) (bitAt (fMode w) 0) rs).take (sortKeep i.x1)
      present (s.csWrite c (k.tok (fTd w)).base (out.flatMap fun r => bytesLE 4 r.1 ++ bytesLE 4 r.2)) (fTd w)
  | 0x0B =>
    let n := vecN i.x1
    match s.csRead c (k.tok (fTs w)).base (64 * n) with
    | (s, _, some x) => (s, some x)
    | (s, bs, none) =>
      let out := (List.range n).flatMap fun j =>
        boxDecode (fMode w) (field i.x1.toNat 31 16 * 65536) (field i.x1.toNat 63 48 * 65536)
          ((bs.drop (64 * j)).take 64)
      present (s.csWrite c (k.tok (fTd w)).base out) (fTd w)
  | 0x0C =>
    let n := vecN i.x1
    match s.csRead c (k.tok (fTs w)).base (48 * n) with
    | (s, _, some x) => (s, some x)
    | (s, bs, none) =>
      let out := nmsRun (nmsKeep i.x1) (field i.x1.toNat 47 32 * 65536) (field i.x1.toNat 63 48 * 65536) (fMode w)
        ((List.range n).map fun j => (bs.drop (48 * j)).take 48)
      present (s.csWrite c (k.tok (fTd w)).base out) (fTd w)
  | _ => (s.updCore c fun k => k.setLanes (fVd w) (vecLanes k i), none)

end State

end Sys2Proof.Machine
end

