-- ==== Sys2Proof/Machine/Sync.lean ====
section
/-!
DEFINITION. What a core does by itself as soon as it can: fit checks of queued instructions, register entries of the
array queues, check-value instructions, the synchronisation queue, and the waits of FENCE, YIELD and END
(R79, R109, R111, R119, R122, R128, R132, R140 to R148, R186 to R188, R214, R215, R218, R498).
-/
namespace Sys2Proof.Machine

/-- The ARR_FMT and ARR_CFG that an instruction with a place in the order will use: the last write queued before it,
or the value in force (R126). -/
def Arr.inForce (a : Arr) (ord : Nat) : W32 × W32 :=
  a.queue.foldl (fun v i =>
    if ord ≤ i.ord then v
    else if eopField i.word = 2 then (i.x1.truncate 32 &&& ~~~fmtRsv, v.2)
    else if eopField i.word = 3 then (v.1, i.x1.truncate 32 &&& ~~~cfgRsv) else v) (a.fmt, a.cfg)

/-- First granule of the lowest run of `g` free granules between `lo` and `hi`, given the allocations in rising order
(R187). -/
def firstFit (g hi : Nat) : Nat → List (Nat × Nat) → Option Nat
  | lo, [] => if lo + g ≤ hi then some lo else none
  | lo, a :: as => if lo + g ≤ a.1 then some lo else firstFit g hi (max lo (a.1 + a.2)) as

/-- An allocation put in its place in the list. -/
def insertAlloc (a : Nat × Nat) : List (Nat × Nat) → List (Nat × Nat)
  | [] => [a]
  | b :: bs => if a.1 < b.1 then a :: b :: bs else b :: insertAlloc a bs

namespace Core

/-- The queued instructions of a core, in the order of dispatch. -/
def queuedList (k : Core) : List EInstr :=
  ((k.arrs.values.flatMap (·.queue)) ++ k.strQ ++ k.vecQ).mergeSort fun a b => decide (a.ord ≤ b.ord)

/-- Earlier engine instructions of the arrays, the vector unit and the stream engine are complete. -/
def enginesDone (k : Core) (ord : Nat) : Bool := !anyBefore (k.arrList ++ k.strList ++ k.vecList) ord

/-- A phase change out of COMPUTE is requested, or a YIELD or END is executed (R79). -/
def leavesCompute (k : Core) : Bool :=
  (match k.syncQ with
   | i :: _ => decide (eopField i.word = 3) && decide (fIdx i.word % 4 ≠ 1) && decide (k.phase = .compute)
   | [] => false) || decide (k.stall = .yield) || decide (k.stall = .done)

/-- The array queue whose head is an instruction of the configuration, by physical array. -/
def cfgHead (k : Core) : Option (Nat × EInstr) :=
  k.arrs.entries.findSome? fun e =>
    match e.2.queue with
    | i :: _ => if decide (2 ≤ eopField i.word) && e.2.run.isEmpty && e.2.group.isEmpty then some (e.1, i) else none
    | [] => none

/-- An open gather group that issues now (R79), by physical array. -/
def dueGroup (k : Core) : Option Nat :=
  k.arrs.entries.findSome? fun e =>
    let a := e.2
    let other := match a.queue with
      | i :: _ => !isMMG i.word
      | [] => false
    if !a.group.isEmpty && a.run.isEmpty &&
        (other || decide (16 ≤ k.groupRows a) || decide (field a.cfg.toNat 11 0 = 0) || k.leavesCompute) then
      some e.1
    else none

end Core

namespace State

/-- The F-0401, F-0602 or F-0605 of a queued instruction, each check made when the tokens it concerns are free of earlier
claims, whatever other fault the instruction has: SRC, code, INFO (R498). -/
def fitFault (s : State) (c : CoreId) (i : EInstr) : Option (Nat × Nat × Nat) :=
  let k := s.core c
  match unitOf i.word with
  | 2 =>
    match k.arrs.entries.find? fun e => e.2.queue.any fun q => decide (q.ord = i.ord) with
    | none => none
    | some e =>
      if !isMM i.word && !isMMG i.word then none
      else
        let v := e.2.inForce i.ord
        k.failedCheck i ((k.mmChecks (ArrFmt.ofWord v.1) (ArrCfg.ofWord v.2) i.word).map fun x =>
          (x.1, if x.2 then none else some (2, 0x0401, 0)))
  | 3 => if 7 ≤ eopField i.word then none else k.failedCheck i (streamChecks k (s.sdtOf c) i)
  | _ => k.failedCheck i (vecChecks k i)

/-- A blocking instruction completes: its result goes into both sequencers, and the core goes on (R106, R116). -/
def retire (s : State) (c : CoreId) (i : EInstr) (f : SeqRegs → SeqRegs) : State :=
  let s := if (s.core c).stall = .engine i.ord then s.moved c else s
  s.updCore c fun k =>
    if k.stall = .engine i.ord then { k with stall := .none, seq := f k.seq, twin := f k.twin } else k

/-- A synchronisation instruction at the head of its queue completes. -/
def syncDone (s : State) (c : CoreId) (i : EInstr) (f : SeqRegs → SeqRegs) : State :=
  (s.updCore c fun k => { k with syncQ := k.syncQ.filter fun q => decide (q.ord ≠ i.ord), remoteWait := false,
                                 haloWaiting := false }).retire c i f

/-- Run A tells run B the result of a semaphore or pool 1 instruction (R372). -/
def tellB (s : State) (c : CoreId) (v : W64) : State :=
  if (s.core c).runB then s
  else
    match s.partner c with
    | some b => s.updCore b fun k => { k with fromA := k.fromA ++ [v] }
    | none => s

/-- A unit of a semaphore is granted or refused to the core: SACQ and STRY complete (R146). -/
def semResult (s : State) (c : CoreId) (granted : Bool) : State :=
  match (s.core c).syncQ with
  | [] => s
  | i :: _ =>
    let s := s.tellB c (BitVec.ofNat 64 (bit granted))
    let s := if granted then s.updCore c fun k => { k with sems := k.sems ++ [i.x1.toNat] } else s
    s.syncDone c i fun r => if eopField i.word = 9 then { r with p := r.predPut (fYrPd i.word) granted } else r

/-- The core's logical cluster, as generators and clusters name it (R143, R148). -/
def logClusterKey (s : State) (c : CoreId) : Nat × Nat × Nat :=
  let k := s.core c
  clusterKey (k.part.getD 0) k.ldie k.lcluster k.runB

/-- The generator that a SYNC.WGCLM returns (R148, R218). DEDUCED, log entry 19. -/
def claimable (s : State) (c : CoreId) : Option Nat :=
  let x := s.cluster c.cluster
  let free := (List.range 4).filter fun g => (x.gens.get {} g).claim.isNone
  let safe := (List.range 16).any s.partSafety
  let rsv := if safe then min 4 (s.objVal c.die 0x2A10 0) else 0
  let open' := free.find? (· < 4 - rsv)
  if s.partSafety (s.corePartition c) then (free.find? (4 - rsv ≤ ·)).orElse fun _ => open' else open'

/-- A token of a core is bound to no generator any more. DEDUCED, log entry 69. -/
def unbind (s : State) (c : CoreId) (t : Nat) : State :=
  let x := s.cluster c.cluster
  let l := (s.core c).lcore
  let own := s.logClusterKey c
  s.setCluster c.cluster { x with
    gens := x.gens.mapVals fun g =>
      if g.claim = some own then { g with bindings := g.bindings.filter fun b => !(decide (b.lcore = l) && decide (b.token = t)) }
      else g }

/-- SYNC.WGBIND (R148, R214, R215). Of several faults the first of F-0609, F-0601, F-0810, F-1001 and F-1002 is raised, the
whole block lies within CS_BYTES, and a token that another generator serves leaves it. DESIGN CHOICE, log entry 80;
DEDUCED, log entry 19. -/
def wgBind (s : State) (c : CoreId) (i : EInstr) : State :=
  let g := i.x1.toNat
  let t := fYT i.word
  let k := s.core c
  let x := s.cluster c.cluster
  let gen := x.gens.get {} g
  let a := i.x2.toNat
  if 4 ≤ g ∨ gen.claim ≠ some (s.logClusterKey c) then s.engFault c 5 0x0609 0 g i
  else if a % 16 ≠ 0 ∨ k.csBytes < a + 80 then s.engFault c 5 0x0601 0 t i
  else
    match s.csRead c a 80 with
    | (s, _, some off) => s.engFault c 5 0x0810 off off i
    | (s, blk, none) =>
      let mine := fun b : GenBinding => decide (b.lcore = k.lcore) && decide (b.token = t)
      if !geomBlockOk blk then s.engFault c 5 0x1001 0 t i
      else if 4 ≤ gen.bindings.length ∧ !gen.bindings.any mine then s.engFault c 5 0x1002 0 g i
      else
        let s := s.unbind c t
        let x := s.cluster c.cluster
        let gen := x.gens.get {} g
        let s := s.setCluster c.cluster { x with
          gens := x.gens.put g { gen with bindings := gen.bindings ++ [{ lcore := k.lcore, token := t, geom := blk }] } }
        let s := s.updCore c fun k =>
          k.setTok t { k.tok t with st := .present, window := some { gen := g, geom := blk } }
        s.syncDone c i id

/-- SYNC.WGREL: the generator is free, and every token bound to it becomes EMPTY and PLAIN with descriptor 0 (R148).
DEDUCED, log entry 19. -/
def wgRel (s : State) (c : CoreId) (i : EInstr) : State :=
  let g := i.x1.toNat
  let x := s.cluster c.cluster
  if 4 ≤ g ∨ (x.gens.get {} g).claim ≠ some (s.logClusterKey c) then s.engFault c 5 0x0609 0 g i
  else
    let bs := (x.gens.get {} g).bindings
    let peers := s.clusterPeers c
    let s := s.setCluster c.cluster { x with gens := x.gens.erase g }
    let s := bs.foldl (fun s b =>
      match (peers.find? fun p => decide (p.lcore = b.lcore)).bind fun p => p.at?.orElse fun _ => p.keptAt with
      | some d => s.updCore d fun k => k.setTok b.token {}
      | none => s) s
    s.syncDone c i id

/-- SYNC.ALLOC from pool 0: the map store byte offset, or 0; the content of the region is undefined, but for the zeros of a
clear (R187). -/
def alloc0 (s : State) (c : CoreId) (n : Nat) : State × Nat :=
  let x := s.cluster c.cluster
  let g := ceilDiv n 2048
  if n = 0 ∨ 6291456 - x.msStatic < n then (s, 0)
  else
    match firstFit g 3072 (x.msStatic / 2048) x.allocs with
    | none => (s, 0)
    | some a =>
      let f := s.draw
      (f.2.setCluster c.cluster
        { x with allocs := insertAlloc (a, g) x.allocs, map := x.map.unsettle (2048 * a) (2048 * g) f.1 }, a * 2048)

/-- A SYNC.FREE of pool 0 (R188): none when the address is the start of no live allocation. -/
def free0 (s : State) (c : CoreId) (a : Nat) : Option State :=
  let x := s.cluster c.cluster
  if a = 0 then some s
  else if a % 2048 = 0 ∧ x.allocs.any fun e => decide (e.1 = a / 2048) then
    some (s.setCluster c.cluster { x with allocs := x.allocs.filter fun e => decide (e.1 ≠ a / 2048) })
  else none

/-- The result of a pool 1 call reaches the core: SYNC.ALLOC writes rd, and SYNC.FREE of no allocation raises F-0801
(R186 to R188). -/
def poolResult (s : State) (c : CoreId) (value : W64) (ok : Bool) : State :=
  match (s.core c).syncQ with
  | [] => s
  | i :: _ =>
    if !ok then s.engFault c 5 0x0801 0 i.x1.toNat i
    else
      let s := s.tellB c value
      s.syncDone c i fun r => if eopField i.word = 0x0B then r.write (fYrRd i.word) value else r

/-- The barrier count of the core's logical cluster, by barrier and core (R144). -/
def arrivalKey (s : State) (c : CoreId) (b : Nat) : Nat := b * 4 + s.lcoreInCluster c

/-- A core in LOAD gives the grant up while it waits on a halo counter or the barrier (R18, R144, R145). -/
def waitAway (s : State) (c : CoreId) : State :=
  if (s.core c).phase = .load then (s.releaseGrant c).updCore c fun k => { k with grantReq := false } else s

/-- When such a wait ends, a core in LOAD requests the grant again (R18). The core goes on before it holds the grant: its next
loads wait for it at issue, and loads in flight continue. DESIGN CHOICE, log entry 75. -/
def waitOver (s : State) (c : CoreId) : State :=
  if (s.core c).phase = .load && !s.holdsGrant c then s.updCore c fun k => { k with grantReq := true } else s

/-- SYNC.PHASE (R141): one step of it, or none while it waits. -/
def phaseStep (s : State) (c : CoreId) (i : EInstr) : Option State :=
  let k := s.core c
  let target := match fIdx i.word % 4 with | 0 => Phase.load | 1 => Phase.compute | _ => Phase.store
  if target = k.phase then some (s.syncDone c i id)
  else
    let ready := match k.phase with
      | .compute => !Core.anyBefore (k.arrList ++ k.vecList) i.ord
      | _ => !Core.anyBefore k.strList i.ord
    if !ready then none
    else if target = .load then
      if s.holdsGrant c then
        some ((s.updCore c fun k => { k with phase := .load, grantReq := false }).syncDone c i id)
      else if k.grantReq then none
      else some (s.updCore c fun k => { k with grantReq := true })
    else
      let s := if k.phase = .load then (s.releaseGrant c).updCore c fun k => { k with grantReq := false } else s
      some ((s.updCore c fun k => { k with phase := target }).syncDone c i id)

/-- A message of the core to die 0's synchronisation unit or allocator; the core waits for the answer. -/
def askDie0 (s : State) (c : CoreId) (m : Msg) : State :=
  (s.updCore c fun k => { k with remoteWait := true }).sendMsg c.die die0 m

/-- The next result of run A that run B takes (R372). -/
def takeFromA (s : State) (c : CoreId) : State := s.updCore c fun k => { k with fromA := k.fromA.drop 1 }

/-- One step of the instruction at the head of the synchronisation queue, or none while it waits. -/
def syncStep (s : State) (c : CoreId) (i : EInstr) : Option State :=
  let k := s.core c
  let x := fIdx i.word
  let drained := k.enginesDone i.ord && k.storesDone i
  match eopField i.word with
  | 0x00 =>
    let t := fYT i.word
    if k.claimBefore i.ord t then none
    else if !Token.descOk i.x1 i.x2 k.csBytes then some (s.engFault c 5 0x0601 0 t i)
    else some (((s.unbind c t).updCore c fun k => k.setTok t { region := i.x1, shape := i.x2 }).syncDone c i id)
  | 0x01 =>
    if k.claimBefore i.ord x then none
    else some ((s.updCore c fun k => k.setTokState x .empty).syncDone c i id)
  | 0x02 =>
    let t := k.tok x
    let n := fun f : EInstr → List Nat => (k.allList.countP fun q => (f q).contains x) % 256
    let v := t.st.code + place (bit t.window.isSome) 2 + place (n (·.reads)) 8 + place (n (·.writes)) 16
    some (s.syncDone c i fun r => r.write (fYrRd i.word) (BitVec.ofNat 64 v))
  | 0x03 => s.phaseStep c i
  | 0x04 =>
    let busy := (bitAt x 0 && Core.anyBefore k.arrList i.ord) || (bitAt x 1 && Core.anyBefore k.vecList i.ord) ||
      (bitAt x 2 && Core.anyBefore k.strList i.ord)
    if busy then none else some (s.syncDone c i id)
  | 0x05 =>
    if k.atBarrier.isSome || !drained then none
    else
      let s := s.waitAway c
      let cl := s.cluster c.cluster
      let key := s.arrivalKey c x
      let s := s.setCluster c.cluster { cl with arrivals := cl.arrivals.put key (cl.arrivals.get 0 key + 1) }
      some (s.updCore c fun k => { k with atBarrier := some x })
  | 0x06 =>
    if Core.anyBefore k.strList i.ord then none
    else
      let cl := s.cluster c.cluster
      some ((s.setCluster c.cluster { cl with halo := cl.halo.setD 0 x (s.halo c x + i.x1.truncate 32) }).syncDone c i id)
  | 0x07 =>
    if k.haloWaiting then none
    else if wge 32 (s.halo c x).toNat (i.x1.toNat % 2 ^ 32) then some (s.syncDone c i id)
    else some ((s.waitAway c).updCore c fun k => { k with haloWaiting := true })
  | 0x08 | 0x09 =>
    if k.runB then
      match k.fromA with
      | [] => none
      | v :: _ => some ((s.takeFromA c).semResult c (decide (v ≠ 0)))
    else if k.remoteWait then none
    else some (s.askDie0 c (.semReq c.key (if eopField i.word = 8 then 0 else 1) i.x1))
  | 0x0A =>
    if !drained then none
    else if k.runB then
      if k.fromA.isEmpty then none else some ((s.takeFromA c).syncDone c i id)
    else some (((s.sendMsg c.die die0 (.semReq c.key 2 i.x1)).tellB c 0).syncDone c i id)
  | 0x0B =>
    if bitAt x 0 then
      if k.runB then
        match k.fromA with
        | [] => none
        | v :: _ => some ((s.takeFromA c).poolResult c v true)
      else if k.remoteWait then none
      else some (s.askDie0 c (.pool1 c.key false i.x1))
    else
      let r := s.alloc0 c i.x1.toNat
      some (r.1.syncDone c i fun q => q.write (fYrRd i.word) (BitVec.ofNat 64 r.2))
  | 0x0C =>
    if !drained then none
    else if bitAt x 0 then
      if k.runB then
        if k.fromA.isEmpty then none else some ((s.takeFromA c).poolResult c 0 true)
      else if k.remoteWait then none
      else some (s.askDie0 c (.pool1 c.key true i.x1))
    else
      match s.free0 c i.x1.toNat with
      | some t => some (t.syncDone c i id)
      | none => some (s.engFault c 5 0x0801 0 i.x1.toNat i)
  | 0x0D =>
    match s.claimable c with
    | none => some (s.syncDone c i fun r => r.write (fYrRd i.word) (BitVec.allOnes 64))
    | some g =>
      let cl := s.cluster c.cluster
      let s := s.setCluster c.cluster { cl with gens := cl.gens.put g { claim := some (s.logClusterKey c) } }
      some (s.syncDone c i fun r => r.write (fYrRd i.word) (BitVec.ofNat 64 g))
  | 0x0E =>
    if k.claimBefore i.ord (fYT i.word) then none else some (s.wgBind c i)
  | _ => if k.enginesDone i.ord then some (s.wgRel c i) else none

/-- The block returns the semaphore units that a core holds, by a release for each (R111). -/
def releaseSems (s : State) (c : CoreId) : State :=
  let k := s.core c
  let s := s.updCore c fun k => { k with sems := [] }
  if k.runB then s
  else k.sems.foldl (fun s id => s.sendMsg c.die die0 (.semReq c.key 2 (BitVec.ofNat 64 id))) s

/-- No engine of a core has work in flight, and no response to it is outstanding; of a unit that was reset the responses are
waited for until their slots are given back, 1,000 counts after the reset (R247, R274, R355, R357). -/
def quiet (s : State) (c : CoreId) : Bool :=
  let k := s.core c
  k.arrs.values.all (fun a => a.run.isEmpty) && k.vecRun.isEmpty && k.strRun.isEmpty &&
    !s.reqs.entries.any fun e => ownerIsCore c e.2.owner && !e.2.gone

/-- A core that has been told to stop acknowledges once it is quiet, no reset of it or of an engine of it is in progress, and it
has given its semaphore units back (R274, R363); a paired run B holds none of its own. -/
def quietCheck (s : State) (c : CoreId) : State :=
  let k := s.core c
  match k.part with
  | none => s
  | some q =>
    if k.stopAsked && !k.stopAcked && s.quiet c && !s.coreInReset c then
      ((s.releaseSems c).updCore c fun k => { k with stopAcked := true }).sendMsg c.die (queueOf q).die
        (.stopAck q c.key)
    else s

/-- The part of a launch on a logical die has ended: the home die records it (R322). DEDUCED, log entry 10. -/
def partOver (s : State) (q ldie : Nat) : State :=
  match s.launches.find? q with
  | none => s
  | some l => s.setLaunch q { l with parts := l.parts.put ldie .ended }

/-- The timer of a LAUNCH pauses while it holds no core (R266). -/
def pauseTimer (s : State) (q : Nat) (l : Launch) : State :=
  if l.cores.all fun x => x.at?.isNone then
    s.setQueue (queueOf q) ((s.queue (queueOf q)).timerPause (s.die (queueOf q).die).ticks)
  else s

/-- A core has ended its part (R111): it is free. Its physical cluster keeps the logical cluster, with its map store and its
pool 0 allocations, until the launch ends (R177). When every core of the part on the die has ended, in both runs of a pair,
the part has ended, which another die tells the home die by message; the entry of the part list goes with it (R269, R271,
R322, R352, R372). DEDUCED, log entry 10. -/
def coreEnded (s : State) (c : CoreId) : State :=
  let k := s.core c
  match k.part with
  | none => s
  | some q =>
    match s.launches.find? q with
    | none => s
    | some l =>
      let me := fun x : LogCore => decide (x.lcore = k.lcore) && decide (x.ldie = k.ldie) && (x.runB == k.runB)
      let l : Launch := { l with cores := l.cores.map fun x => if me x then { x with ended := true, at? := none } else x }
      let l := l.vacate k.lcluster k.runB
      let s := (s.setLaunch q l).releaseGrant c
      let s := s.updCore c fun k => { k with
        run := .idle
        part := none
        stall := .none
        ypend := false
        pairPassed := false
        runB := false
        grantReq := false }
      let s := (s.pauseTimer q l).holdCores c.die
      if (l.cores.filter fun x => decide (x.ldie = k.ldie)).all (·.ended) then
        let d := s.die c.die
        let s := (s.setDie c.die { d with parts := d.parts.filter fun x => decide (x.queue ≠ q) }).ranOn c.die l.ctx
        if (queueOf q).die = c.die then s.partOver q k.ldie
        else s.sendMsg c.die (queueOf q).die (.partEnded q k.ldie none)
      else s

/-- A run of a paired launch reaches a comparison point (R374). -/
def reachPoint (s : State) (c : CoreId) : State :=
  let k := s.core c
  let s := s.updCore c fun k => { k with pairPoint := some (s.die c.die).ticks }
  match k.part.bind fun q => (s.launches.find? q).map fun l => (q, l) with
  | none => s
  | some (q, l) =>
    s.setLaunch q { l with cores := l.cores.map fun x =>
      if x.lcore = k.lcore ∧ x.ldie = k.ldie ∧ x.runB = k.runB then { x with points := x.points + 1 } else x }

/-- Steps 1 and 2 of R109 are done. -/
def quiesced (s : State) (c : CoreId) : Bool := (s.core c).allList.isEmpty && decide (s.lcred c = 0)

/-- A paired run that has not passed the comparison of its point waits for it (R374). -/
def pairGate (s : State) (c : CoreId) (go : State → Option State) : Option State :=
  let k := s.core c
  if s.isPaired c && !k.pairPassed then
    if k.pairPoint.isSome then none else some (s.reachPoint c)
  else go s

/-- The next instruction of both sequencers. -/
def advance (s : State) (c : CoreId) : State :=
  (s.moved c).updCore c fun k => { k with
    stall := .none
    pairPassed := false
    seq := { k.seq with pc := k.seq.pc + 1 }
    twin := { k.twin with pc := k.twin.pc + 1 } }

/-- One step of the wait of FENCE, YIELD or END, or none while it waits (R102, R109, R111).
DEDUCED, log entry 63. -/
def stallStep (s : State) (c : CoreId) : Option State :=
  let k := s.core c
  match k.stall with
  | .fence => if k.stores.isEmpty then some (s.advance c) else none
  | .yield =>
    if !s.quiesced c then none
    else s.pairGate c fun s =>
      if k.ypend then
        if k.v.entries.isEmpty then none else some (s.updCore c fun k => { k with v := {} })
      else some ((s.updCore c fun k => { k with v := {} }).advance c)
  | .done =>
    if !s.quiesced c || !k.stores.isEmpty then none
    else s.pairGate c fun s =>
      if k.sems.length ≠ 0 then
        some ((s.seqFault c 0 0x0508 0 k.sems.length ((k.code.get 0 k.seq.pc.toNat))).releaseSems c)
      else some (s.coreEnded c)
  | _ => none

/-- A configuration instruction at the head of an array's queue executes (R128); reserved bits of the value are not stored
and a 1 in one sets RSVD_WRITE of the die (R8). -/
def cfgStep (s : State) (c : CoreId) (p : Nat) (i : EInstr) : State :=
  let a := (s.core c).arrs.get {} p
  let v : W32 := i.x1.truncate 32
  let a' := { a with
    queue := a.queue.drop 1
    fmt := if eopField i.word = 2 then v &&& ~~~fmtRsv else a.fmt
    cfg := if eopField i.word = 3 then v &&& ~~~cfgRsv else a.cfg }
  let rsv : W32 := if eopField i.word = 2 then fmtRsv else if eopField i.word = 3 then cfgRsv else 0
  let s := (s.updCore c fun k => { k with arrs := k.arrs.put p a' }).noteRsvd c.die (v &&& rsv)
  s.retire c i fun r =>
    if eopField i.word = 4 then r.write (fArRd i.word) (a.fmt.setWidth 64)
    else if eopField i.word = 5 then r.write (fArRd i.word) (a.cfg.setWidth 64) else r

/-- A check-value instruction at the head of the stream queue executes (R132). -/
def cvStep (s : State) (c : CoreId) (i : EInstr) : State :=
  let ch := fCh i.word
  let k := s.core c
  let v : W32 := i.x1.truncate 32
  let s := s.updCore c fun k => { k with
    strQ := k.strQ.drop 1
    cv0 := if eopField i.word = 9 ∧ ch = 0 then v else k.cv0
    cv1 := if eopField i.word = 9 ∧ ch = 1 then v else k.cv1 }
  s.retire c i fun r =>
    if eopField i.word = 8 then r.write (fScRd i.word) ((if ch = 0 then k.cv0 else k.cv1).setWidth 64) else r

/-- One thing that a running core does by itself; none when nothing is left to do. -/
def settleOne (s : State) (c : CoreId) : Option State :=
  let k := s.core c
  if k.run ≠ .running then none
  else
    match k.queuedList.findSome? fun i => (s.fitFault c i).map fun e => (i, e) with
    | some (i, e) =>
      if e.2.1 = 0x0401 then
        let d := s.draw
        some (d.2.engFault c 2 0x0401 0 (Config.freeNat d.1 % 2 ^ 64) i)
      else some (s.engFault c e.1 e.2.1 0 e.2.2 i)
    | none =>
      match k.dueGroup with
      | some p => some (s.groupIssue ⟨c, Fin.ofNat 4 p⟩)
      | none =>
        match k.cfgHead with
        | some (p, i) => some (s.cfgStep c p i)
        | none =>
          match (match k.strQ with
                 | i :: _ => if decide (8 ≤ eopField i.word) && k.strRun.isEmpty then some i else none
                 | [] => none) with
          | some i => some (s.cvStep c i)
          | none =>
            match k.syncQ.head?.bind (s.syncStep c) with
            | some t => some t
            | none => s.stallStep c

/-- Everything that a core does by itself, at most `fuel` things. -/
def settleN (s : State) (c : CoreId) : Nat → State
  | 0 => s
  | fuel + 1 =>
    match s.settleOne c with
    | none => s
    | some t => t.settleN c fuel

/-- A core does everything it can by itself, and so does the core of the other run of a pair (R372). More than 64
things never follow one another: the queues hold at most 40 instructions. -/
def settle (s : State) (c : CoreId) : State :=
  let t := s.settleN c 64
  match t.partner c with
  | none => t
  | some b => if t.isPaired c then t.settleN b 64 else t

end State

end Sys2Proof.Machine
end

