-- ==== Sys2Proof/Machine/Seq.lean ====
section
/-!
DEFINITION. The sequencer and its twin: fetch, encoding check, guard, comparison of effects, loads and stores, control
registers, and the dispatch of engine instructions (R92, R96 to R106, R113, R116, R117, R123, R146, R211, R372, R373).
-/
namespace Sys2Proof.Machine

/-- What leaves a sequencer at an instruction, or what it waits for. -/
inductive SeqReq where
  | none
  | load (rt size : Nat) (sgn : Bool) (va : W64)
  | store (size : Nat) (va data : W64)
  | loadCs (rt off : Nat)
  | storeCs (off : Nat) (data : W64)
  | fence
  | yield
  | done
  | cread (creg : Nat)
  | cwrite (creg : Nat) (v : W64)
  | engine (x1 x2 : W64)
  deriving DecidableEq, Repr

/-- The change that an instruction makes to the return stack (R95). -/
inductive StackOp where
  | keep
  | push (index : W64)
  | pop
  deriving DecidableEq, Repr

/-- A return stack after a change. -/
def StackOp.apply (o : StackOp) (l : List W64) : List W64 :=
  match o with
  | .keep => l
  | .push i => l ++ [i]
  | .pop => l.dropLast

/-- What the twin comparator compares at the completion of an instruction (R106): destination register, predicate
byte, next PC, the change to the return stack, request; or the fault the instruction raises: code, ADDR and INFO. -/
structure Eff where
  rd : Option (Nat × W64) := none
  p : Byte
  pc : W64
  stack : StackOp := .keep
  req : SeqReq := .none
  trap : Option (Nat × Nat × Nat) := none
  deriving DecidableEq, Repr

/-- The effect of an instruction that only goes on to the next one. -/
def SeqRegs.goOn (r : SeqRegs) : Eff := { p := r.p, pc := r.pc + 1 }

/-- The registers of a sequencer after an effect. -/
def Eff.apply (e : Eff) (r : SeqRegs) : SeqRegs :=
  let r := match e.rd with
    | some (n, v) => r.write n v
    | none => r
  { r with p := e.p, pc := e.pc, stack := e.stack.apply r.stack }

/-- The inputs that both sequencers of a core receive: the time counter and the value of the control register that
CRD names (R106). -/
structure SeqIn where
  time : W64
  creg : Option W64
  deriving DecidableEq, Repr

namespace State

/-- The value of a control register; none for a number that is not listed (R96, R211). -/
def cregValue (s : State) (c : CoreId) (n : Nat) : Option W64 :=
  let k := s.core c
  let arr := fun l (f : Arr → Nat) => (s.physArray c l).map fun a => BitVec.ofNat 64 (f (s.arr a))
  if n = 0x000 then some (BitVec.ofNat 64 (k.seqStatus (s.holdsGrant c) (s.lcred c)))
  else if 0x010 ≤ n ∧ n ≤ 0x013 then arr (n - 0x010) fun a => a.ast.toNat
  else if 0x018 ≤ n ∧ n ≤ 0x01B then arr (n - 0x018) fun a => k.arrStat a
  else if n = 0x020 then some (k.wpad.setWidth 64)
  else none

/-- A write of a control register: ARR_AST is write-1-to-clear, every other one ignores it (R96, R211); a 1 in a reserved
bit of ARR_AST sets RSVD_WRITE of the die (R8). -/
def cregWrite (s : State) (c : CoreId) (n : Nat) (v : W64) : State :=
  if 0x010 ≤ n ∧ n ≤ 0x013 then
    match s.physArray c (n - 0x010) with
    | some a =>
      (s.updArr a fun x => { x with ast := x.ast &&& ~~~(v.setWidth 32) }).noteRsvd c.die (v.setWidth 32 &&& astRsv)
    | none => s
  else s

/-- The request of a sequencer load, or of a store with its number. -/
def seqReqOf (s : State) (c : CoreId) (o : Owner) (va pa range : Nat) (write : Bool) (data : List Byte) : Req :=
  { owner := o, die := c.die, partition := s.corePartition c, ctx := s.coreCtx c, queue := s.coreQueue c, va := va,
    pa := pa, write := write, range := range, data := data.mapIdx fun i b => (pa % 64 + i, b) }

/-- A request of the core's sequencer is under way. -/
def seqOut (s : State) (c : CoreId) : Bool :=
  s.reqs.entries.any fun e =>
    match e.2.owner with
    | .seqLoad k => decide (k = c.key) && !e.2.gone
    | .seqStore k _ => decide (k = c.key) && !e.2.gone
    | _ => false

/-- The load or store that a sequencer waits with is translated and sent; a store that has been sent no longer holds
the sequencer. One for another die is sent when the earlier ones are answered, so that they are performed in program
order (R102, R373). DEDUCED, log entry 18. -/
def seqAccess (s : State) (c : CoreId) : State :=
  let k := s.core c
  let p := s.corePartition c
  let x := s.coreCtx c
  let key := c.key * 2 + 1
  let go := fun (o : Owner) (va : Nat) (acc : Access) (data : List Byte) (sent : State → State) =>
    match s.xlate c.die key p x va acc with
    | .miss =>
      match s.pageSlot c.die p va with
      | some i => s.mergeInto c.die i o va acc.bits x
      | none => s.startWalk c.die o p x va acc
    | .fault cause range => s.faultAccess c.die cause range o p x va acc
    | .lost _ _ => s
    | .hit pa range =>
      if pa / 2 ^ 49 ≠ c.die.val && s.seqOut c then s
      else
        match (s.touch c.die key p x va).sendReq c.die (s.seqReqOf c o va pa range (decide (acc = .write)) data) with
        | (t, .sent) => sent t
        | (_, .noCredit) => s
        | (t, .unreachable) => t.seqFault c 0 0x0704 va va (k.code.get 0 k.seq.pc.toNat)
  match k.stall with
  | .load _ _ _ va none => go (.seqLoad c.key) va.toNat .read [] fun t => t.moved c
  | .store size va data =>
    let bs := bytesLE size data.toNat
    go (.seqStore c.key k.storeNext) va.toNat .write bs fun t =>
      let t := t.updCore c fun k => { k with
        stores := k.stores ++ [(k.storeNext, k.seq.pc, k.code.get 0 k.seq.pc.toNat)]
        storeNext := k.storeNext + 1
        psSeq := if s.isPaired c then crcFold (crcFold k.psSeq (bytesLE 8 va.toNat)) bs else k.psSeq }
      t.advance c
  | _ => s

/-- A sequencer whose load or store has met no miss or fault, and has no request out, tries it again: a credit may have
come back. -/
def pumpSeq (s : State) (c : CoreId) : State :=
  let k := s.core c
  match k.stall with
  | .load _ _ _ _ none =>
    if s.transHeld c.die (.seqLoad c.key) || s.reqs.entries.any (fun e => decide (e.2.owner = .seqLoad c.key) && !e.2.gone) then s
    else s.seqAccess c
  | .store _ _ _ => if s.transHeld c.die (.seqStore c.key k.storeNext) then s else s.seqAccess c
  | _ => s

/-- A twin mismatch (R106, R112, R113, R358): the request is withheld, the core stops, the launch fails, and the core is
reset. -/
def twinMismatch (s : State) (c : CoreId) (w : W32) : State :=
  (s.startEvent (.core c) 0x0540 fun s => (s.seqFault c 1 0x0540 0 0 w).report c.die 0x0540 0).stopCore c

/-- Both sequencers take the effect, which is progress (R358). -/
def commit (s : State) (c : CoreId) (a b : Eff) : State :=
  s.updCore c fun k => { k with seq := a.apply k.seq, twin := b.apply k.twin, progAt := (s.die c.die).ticks }

/-- What a scalar instruction does outside its sequencer, its effect having compared equal. -/
def act (s : State) (c : CoreId) (w : W32) : SeqReq → State
  | .none => s
  | .load rt size sgn va => (s.updCore c fun k => { k with stall := .load rt size sgn va none }).seqAccess c
  | .store size va data =>
    if (s.core c).runB then
      (s.updCore c fun k => { k with
        psSeq := crcFold (crcFold k.psSeq (bytesLE 8 va.toNat)) (bytesLE size data.toNat) }).advance c
    else (s.updCore c fun k => { k with stall := .store size va data }).seqAccess c
  | .loadCs rt off =>
    match s.csRead c off 8 with
    | (t, _, some x) => t.seqFault c 0 0x0810 x x w
    | (t, bs, none) =>
      let v := BitVec.ofNat 64 (ofBytesLE bs)
      (t.updCore c fun k => { k with seq := k.seq.write rt v, twin := k.twin.write rt v }).advance c
  | .storeCs off v =>
    match s.csWrite c off (bytesLE 8 v.toNat) with
    | (t, some x) => t.seqFault c 0 0x0810 x x w
    | (t, none) => t.advance c
  | .fence => (s.updCore c fun k => { k with stall := .fence }).settle c
  | .yield => if (s.core c).sems.isEmpty then (s.updCore c fun k => { k with stall := .yield }).settle c else s.advance c
  | .done => (s.updCore c fun k => { k with stall := .done }).settle c
  | .cread n => if n = 0x020 then s.updCore c fun k => { k with wpad := 0 } else s
  | .cwrite n v => s.cregWrite c n v
  | .engine _ _ => s

/-- Whether a running core can take its next instruction. -/
def canTake (s : State) (c : CoreId) : Bool :=
  decide ((s.core c).run = .running) && decide ((s.core c).stall = .none)

/-- The full register files, predicates and return stacks of the pair agree (R106). -/
def twinsAgree (s : State) (c : CoreId) : Bool := decide ((s.core c).seq = (s.core c).twin)

/-- The core executes the instruction `w` at its PC, which has unit and opcode `u` and `op` and encoding check `enc`.
`eff` is its effect on one sequencer; `after` is what follows when the effects of the pair are equal (R98, R99,
R104, R106). A word that is not the one at PC, or not of this opcode, is no event of the core. F-0502 carries SRC 0, where
Table 05-10 offers the sequencer and the code fetch. DESIGN CHOICE, log entry 75. -/
def seqRow (s : State) (c : CoreId) (w : W32) (u op : Nat) (enc : W32 → Bool) (eff : SeqIn → SeqRegs → Eff)
    (after : State → Eff → Eff → State) : State :=
  let k := s.core c
  let pc := k.seq.pc.toNat
  if !s.canTake c then s
  else if k.codeWords ≤ pc then s.seqFault c 0 0x0502 0 pc 0
  else if k.code.find? pc ≠ some w then s
  else
    match opOf w with
    | none => s.seqFault c 0 0x0501 0 0 w
    | some o =>
      if o ≠ (u, op) then s
      else if !enc w then s.seqFault c 0 0x0501 0 0 w
      else
        let inp : SeqIn := { time := (s.die c.die).count, creg := s.cregValue c (fCreg w) }
        let run := fun r : SeqRegs => if r.guard w then eff inp r else r.goOn
        let a := run k.seq
        let b := run k.twin
        if a ≠ b || (decide (a.req = .yield ∨ a.req = .done) && !s.twinsAgree c) then s.twinMismatch c w
        else
          match a.trap with
          | some t => s.seqFault c 0 t.1 t.2.1 t.2.2 w
          | none => after s a b

/-- A scalar instruction. -/
def scalar (s : State) (c : CoreId) (w : W32) (op : Nat) (enc : W32 → Bool) (eff : SeqIn → SeqRegs → Eff) : State :=
  s.seqRow c w 0 op enc eff fun s a b => (s.commit c a b).act c w a.req

end State

/-- A result into rd. -/
def SeqRegs.result (r : SeqRegs) (rd : Nat) (v : W64) : Eff := { r.goOn with rd := some (rd, v) }

/-- R-form, and I-form arithmetic (R100). -/
def aluR (w : W32) (f : W64 → W64 → W64) (_ : SeqIn) (r : SeqRegs) : Eff :=
  r.result (fRd w) (f (r.read (fRs1 w)) (r.read (fRs2 w)))
def aluI (w : W32) (f : W64 → W64 → W64) (_ : SeqIn) (r : SeqRegs) : Eff :=
  r.result (fRd w) (f (r.read (fRs1 w)) (fImm9 w))

/-- The address of an M-form access (R100). -/
def memAddr (w : W32) (size : Nat) (r : SeqRegs) : W64 := r.read (fRs1 w) + fImm9 w * BitVec.ofNat 64 size

/-- A load from device memory: the sequencer stays at it until its data returns (R102). -/
def loadEff (w : W32) (size : Nat) (sgn : Bool) (_ : SeqIn) (r : SeqRegs) : Eff :=
  let a := memAddr w size r
  if a.toNat % size ≠ 0 then { r.goOn with trap := some (0x0503, a.toNat, 0) }
  else { r.goOn with pc := r.pc, req := .load (fRd w) size sgn a }

/-- A store to device memory; the sequencer goes on when its request has been sent (R102). -/
def storeEff (w : W32) (size : Nat) (_ : SeqIn) (r : SeqRegs) : Eff :=
  let a := memAddr w size r
  if a.toNat % size ≠ 0 then { r.goOn with trap := some (0x0503, a.toNat, 0) }
  else { r.goOn with pc := r.pc, req := .store size a (BitVec.ofNat 64 ((r.read (fRd w)).toNat % 2 ^ (8 * size))) }

/-- LDCD and STCD (R103). -/
def csEff (w : W32) (req : Nat → SeqReq) (_ : SeqIn) (r : SeqRegs) : Eff :=
  let a := (memAddr w 8 r).toNat
  if a % 8 ≠ 0 ∨ coreStoreSize ≤ a then { r.goOn with trap := some (0x0504, a, 0) }
  else { r.goOn with pc := r.pc, req := req a }

/-- An instruction that the sequencer stays at. -/
def stayEff (req : SeqReq) (_ : SeqIn) (r : SeqRegs) : Eff := { r.goOn with pc := r.pc, req := req }

/-- CALL and CALLR to a target (R95). -/
def callEff (target : SeqRegs → W64) (_ : SeqIn) (r : SeqRegs) : Eff :=
  if 16 ≤ r.stack.length then { r.goOn with trap := some (0x0506, 0, r.stack.length) }
  else { r.goOn with pc := target r, stack := .push (r.pc + 1) }

/-- What an engine instruction is: its registers, tokens claimed, whether it blocks, and its checks at dispatch. -/
structure EngineDef where
  unit : Nat
  op : Nat
  enc : W32 → Bool
  rs1 : W32 → Nat := fun _ => 0
  rs2 : W32 → Nat := fun _ => 0
  reads : W32 → List Nat := fun _ => []
  writes : W32 → List Nat := fun _ => []
  blocking : Bool := false
  /-- The phase in which it may be dispatched; none for any (Table 06-2). -/
  phase : Option Phase := none

namespace State

/-- The queue that an instruction enters is full (R116). -/
def queueFull (s : State) (c : CoreId) (w : W32) : Bool :=
  let k := s.core c
  match unitOf w with
  | 2 => match s.physArray c (fLA w) with
    | some a => decide (4 ≤ (s.arr a).queue.length)
    | none => true
  | 3 => decide (8 ≤ k.strQ.length)
  | 4 => decide (8 ≤ k.vecQ.length)
  | _ => decide (8 ≤ k.syncQ.length)

/-- An instruction placed in its engine's queue. -/
def enqueue (s : State) (c : CoreId) (i : EInstr) : State :=
  match unitOf i.word with
  | 2 => match s.physArray c (fLA i.word) with
    | some a => s.updArr a fun x => { x with queue := x.queue ++ [i] }
    | none => s
  | 3 => s.updCore c fun k => { k with strQ := k.strQ ++ [i] }
  | 4 => s.updCore c fun k => { k with vecQ := k.vecQ ++ [i] }
  | _ => s.updCore c fun k => { k with syncQ := k.syncQ ++ [i] }

/-- A semaphore identifier is valid for the context of a core (R250). DEDUCED, log entry 69. -/
def semValid (s : State) (c : CoreId) (x : W64) : Bool :=
  let n := x.toNat
  let e := s.sema (field n 11 0)
  decide (field n 63 32 = 0) && decide (field n 15 12 = s.corePartition c) && e.used &&
    decide (e.gen.toNat = field n 31 16) && decide (e.partition = field n 15 12)

/-- The fault of an instruction at dispatch: SRC, code and INFO (R108, R117, R146, R498). Of a SACQ or STRY that fails both, the
count of units held (F-0509) is checked before the identifier (F-0607). DESIGN CHOICE, log entry 69. -/
def dispatchFault (s : State) (c : CoreId) (w : W32) (d : EngineDef) (x1 : W64) : Option (Nat × Nat × Nat) :=
  let k := s.core c
  if d.phase.any (· ≠ k.phase) then some (d.unit, 0x0603, k.phase.code)
  else if d.unit = 4 ∧ 0x0A ≤ d.op ∧ fTs w = fTd w then some (4, 0x0602, fTs w)
  else if d.unit = 5 ∧ (d.op = 8 ∨ d.op = 9) ∧ 4 ≤ k.sems.length then some (0, 0x0509, x1.toNat)
  else if d.unit = 5 ∧ 8 ≤ d.op ∧ d.op ≤ 0x0A ∧ !s.semValid c x1 then some (5, 0x0607, x1.toNat)
  else if d.unit = 5 ∧ d.op = 0x0A ∧ !k.sems.contains x1.toNat then some (5, 0x0608, x1.toNat)
  else none

/-- The tokens an array instruction reads, with the scale tokens of the MX class of the ARR_FMT it will use
(R121, R126). -/
def mmClaims (s : State) (c : CoreId) (w : W32) : List Nat :=
  match s.physArray c (fLA w) with
  | none => []
  | some a => Core.mmTokens (ArrFmt.ofWord ((s.arr a).inForce ((s.core c).ordNext)).1) w

/-- Dispatch (R116): checks, claims, queue; the sequencer goes on, or waits for a blocking instruction. -/
def dispatch (s : State) (c : CoreId) (w : W32) (d : EngineDef) (a b : Eff) (x1 x2 : W64) : State :=
  match s.dispatchFault c w d x1 with
  | some f => s.seqFault c f.1 f.2.1 0 f.2.2 w
  | none =>
    if s.queueFull c w then s
    else
      let k := s.core c
      let i : EInstr := { ord := k.ordNext, pc := k.seq.pc, word := w, x1 := x1, x2 := x2,
                          reads := if d.unit = 2 ∧ d.op ≤ 1 then s.mmClaims c w else d.reads w, writes := d.writes w,
                          stores := k.storeNext }
      let s := s.commit c a b
      let s := s.updCore c fun k => { k with
        ordNext := k.ordNext + 1
        stall := if d.blocking then .engine i.ord else k.stall
        sems := if d.unit = 5 ∧ d.op = 0x0A then k.sems.erase x1.toNat else k.sems }
      (s.enqueue c i).settle c

/-- An engine instruction that the sequencer passes to its engine; with its guard false it only goes on. -/
def engine (s : State) (c : CoreId) (w : W32) (d : EngineDef) : State :=
  s.seqRow c w d.unit d.op d.enc
    (fun _ r => { r.goOn with req := .engine (r.read (d.rs1 w)) (r.read (d.rs2 w)) })
    fun s a b =>
      match a.req with
      | .engine x1 x2 => s.dispatch c w d a b x1 x2
      | _ => s.commit c a b

end State

end Sys2Proof.Machine
end

