-- ==== Sys2Proof/Machine/Dma.lean ====
section
/-!
DEFINITION. Accesses of units that use their data only when all of it has come: bytes at a device virtual address read or
written through translation and the memory ports, page by page (R278 to R289, R455 to R458); and the start of a program
(R93).
-/
namespace Sys2Proof.Machine

/-- What an access of this kind came to: data, a translation fault at an address, an error response at an address, or
nothing yet: it waits for a walk of its page, a link, a credit or an answer. -/
inductive DmaRes where
  | ok (bs : List Byte)
  | fault (cause : FaultCause) (range va : Nat)
  | err (va : Nat)
  | wait
  deriving DecidableEq, Repr

/-- `n` bytes at an address cut at the 4 KiB boundaries: address and length of each piece. -/
def pagePieces : Nat → Nat → Nat → List (Nat × Nat)
  | 0, _, _ => []
  | fuel + 1, va, n =>
    if n = 0 then []
    else
      let m := min n (4096 - va % 4096)
      (va, m) :: pagePieces fuel (va + m) (n - m)

namespace State

/-- The pieces of an access translated: virtual and physical address, length, and the range entry's VA_START. A context whose
segment block cannot be used becomes LOST (R300). -/
def xlatePieces (s : State) (d : DieId) (o : Owner) (p ctx : Nat) (acc : Access) :
    List (Nat × Nat) → State × (Except DmaRes (List (Nat × Nat × Nat × Nat)))
  | [] => (s, .ok [])
  | e :: es =>
    match s.xlateNow d o p ctx e.1 acc with
    | (s, .hit pa r) =>
      match s.xlatePieces d o p ctx acc es with
      | (s, .ok l) => (s, .ok ((e.1, pa, e.2, r) :: l))
      | (s, .error x) => (s, .error x)
    | (s, .fault c r) => (s, .error (.fault c r e.1))
    | (s, .miss) => (s, .error .wait)
    | (s, .lost code info) =>
      if (s.ctx ctx).st = .lost then (s, .error (.err e.1)) else (s.lose d ctx code 1 (.outside code info), .error .wait)

/-- Read `n` bytes at a virtual address; `ahead` where no Cuff holds the access back. The unit makes the access again until it has
a result, and then ends it with `busDone`. A piece of it is read when the one before has been answered. DESIGN CHOICE, log
entry 34. -/
def readVa (s : State) (d : DieId) (o : Owner) (p ctx va n : Nat) (acc : Access) (ahead : Bool) : State × DmaRes :=
  match s.xlatePieces d o p ctx acc (pagePieces (n / 4096 + 2) va n) with
  | (s, .error x) => (s, x)
  | (s, .ok l) =>
    l.foldl (init := (s, DmaRes.ok [])) fun acc e =>
      match acc.2 with
      | .ok bs =>
        match acc.1.busRead d o p ctx e.1 e.2.1 e.2.2.1 e.2.2.2 ahead with
        | (t, .ok x) => (t, .ok (bs ++ x))
        | (t, .error off) => (t, .err (e.1 + off))
        | (t, .wait) => (t, .wait)
      | _ => acc

/-- Write bytes at a virtual address in that manner; nothing is written when a piece does not translate. -/
def writeVa (s : State) (d : DieId) (o : Owner) (p ctx va : Nat) (bs : List Byte) (ahead : Bool) : State × DmaRes :=
  match s.xlatePieces d o p ctx .write (pagePieces (bs.length / 4096 + 2) va bs.length) with
  | (s, .error x) => (s, x)
  | (s, .ok l) =>
    l.foldl (init := (s, DmaRes.ok [])) fun acc e =>
      match acc.2 with
      | .ok _ =>
        match acc.1.busWrite d o p ctx e.1 e.2.1 ((bs.drop (e.1 - va)).take e.2.2.1) e.2.2.2 ahead with
        | (t, .ok _) => (t, .ok [])
        | (t, .error off) => (t, .err (e.1 + off))
        | (t, .wait) => (t, .wait)
      | _ => acc

/-- Event records that wait are written as far as they can be, those of one ring in the order in which they were posted, on
whatever die (R251). An UNDELIVERABLE record that fails then leaves only the entry that the log has of the record it
reports (R275). -/
def retryEvents (s : State) : State :=
  let todo := (s.allDies.flatMap fun d => (s.die d).evWait.map fun e => (d, e)).mergeSort fun a b => decide (a.2.1 ≤ b.2.1)
  (todo.foldl (init := (s, ([] : List (Nat × Nat)))) fun acc e =>
      let t := acc.1
      let d := e.1
      let p := e.2.2.1
      let r := e.2.2.2.1
      let rec' := e.2.2.2.2
      let done := fun (u : State) => u.setDie d { u.die d with evWait := (u.die d).evWait.filter fun x => decide (x.1 ≠ e.2.1) }
      if acc.2.contains (p, r) ∨ t.transHeld d (.event e.2.1) then (t, (p, r) :: acc.2)
      else
        match t.writeEvent d p r rec' e.2.1 with
        | (u, .written) => (done u, acc.2)
        | (u, .waits) => (u, (p, r) :: acc.2)
        | (u, .undeliverable code info) => ((done u).eventFailed d p rec' code info, acc.2)).1

end State

/-- The image header's fields (Table 05-1). -/
def hdrCodeOff (h : List Byte) : Nat := fieldAt h 8 4
def hdrWords (h : List Byte) : Nat := fieldAt h 0xC 4
def hdrEntry (h : List Byte) : Nat := fieldAt h 0x10 4
def hdrCsBytes (h : List Byte) : Nat := fieldAt h 0x14 4

/-- The lowest byte offset among the failing fields of a header; none when every check passes (R93). -/
def hdrBad (h : List Byte) : Option Nat :=
  let rsv := fun (off n : Nat) => (List.range n).filterMap fun i => if fieldAt h (off + i) 1 = 0 then none else some (off + i)
  let chk := fun (ok : Bool) (off : Nat) => if ok then [] else [off]
  (chk (decide (fieldAt h 0 4 = 0x5058424D)) 0 ++ chk (decide (fieldAt h 4 2 = 3)) 4 ++ rsv 6 2 ++
    chk (decide (hdrCodeOff h % 64 = 0) && decide (64 ≤ hdrCodeOff h)) 8 ++ chk (inRange (hdrWords h) 1 262144) 0xC ++
    chk (decide (hdrEntry h < hdrWords h)) 0x10 ++ chk (decide (hdrCsBytes h ≤ 1048576)) 0x14 ++ rsv 0x18 36 ++
    chk (decide ((crc32c (h.take 0x3C)).toNat = fieldAt h 0x3C 4)) 0x3C).head?

/-- The word at an index of a code block. -/
def blockWord (blk : List Byte) (i : Nat) : W32 := BitVec.ofNat 32 (fieldAt blk (4 * i) 4)

/-- A core at the start of its program (Tables 05-2, 05-3, R66,
R124, R192, R328, R373). `arg` is s1 and `count` is s6. -/
def Core.start (k : Core) (h : List Byte) (arg count : W64) : Core :=
  let regs : List (Nat × W64) := [(1, arg), (2, BitVec.ofNat 64 k.lcore), (3, BitVec.ofNat 64 k.ncores),
    (4, BitVec.ofNat 64 k.lcluster), (5, BitVec.ofNat 64 k.ldie), (6, count)]
  let r : SeqRegs := { regs.foldl (fun r e => r.write e.1 e.2) ({} : SeqRegs) with pc := BitVec.ofNat 64 (hdrEntry h) }
  { k with
    run := .running
    seq := r
    twin := r
    stall := .none
    phase := .compute
    ypend := false
    sems := []
    codeOff := hdrCodeOff h
    codeWords := hdrWords h
    csBytes := hdrCsBytes h
    blocks := []
    code := {}
    stores := []
    strQ := []
    vecQ := []
    syncQ := []
    strRun := []
    strAbort := none
    vecRun := []
    arrs := k.arrs.mapVals fun a => { a with queue := [], group := [], run := [], fmt := 0, cfg := 0, ast := 0 }
    tokens := {}
    v := {}
    wpad := 0
    cv0 := 0
    cv1 := 0
    psStr := 0
    psSeq := 0
    pairPoint := none
    pairPassed := false
    grantReq := false
    atBarrier := none
    remoteWait := false
    haloWaiting := false
    fromA := []
    stopAsked := false
    stopAcked := false }

end Sys2Proof.Machine
end

