-- ==== Sys2Proof/Machine/CrownOps.lean ====
section
/-!
DEFINITION. The Crown port of die 0: roles, byte strobes, responses, and what every write to a register shares
(R8 to R10, R459, R460, R478, R489).
-/
namespace Sys2Proof.Machine

/-- The role that CR_ROLE carries (R460). -/
def roleOf (b : Byte) : Option Role :=
  if h : b.toNat < 16 then some (.partition ⟨b.toNat, h⟩)
  else if b.toNat = 0x10 then some .driver
  else if b.toNat = 0x11 then some .safety
  else none

/-- The bits that CR_WSTRB covers; none for a value that is not allowed (R459). -/
def strobes (strb : Byte) : Option W64 :=
  if strb = 0xFF then some (BitVec.allOnes 64)
  else if strb = 0x0F then some 0xFFFFFFFF
  else if strb = 0xF0 then some 0xFFFFFFFF00000000
  else none

/-- A word after a write of the bytes that are covered. -/
def mergeW (old new mask : W64) : W64 := (old &&& ~~~mask) ||| (new &&& mask)

namespace State

/-- An error response with data 0 from the Crown port of a die (R13, R459). The port of a block in reset makes no response
(R473). -/
def portErr (s : State) (d : DieId) : State := if (s.die d).stage = .held then s else { s with crown := ⟨true, 0⟩ }

/-- An error response of die 0's port, and a response without error (R459). -/
def crownErr (s : State) : State := s.portErr die0
def crownOk (s : State) : State := { s with crown := ⟨false, 0⟩ }

/-- The Crown port serves every access: die 0 has reached HOST_INIT (R478). -/
def crownOpen (s : State) : Bool := decide ((s.die die0).stage = .hostInit) || decide ((s.die die0).stage = .ready)

/-- A Crown write of the host driver: the strobes are checked, then the role; the write acts on the bytes covered and
answers without error (R459, R460, R478). -/
def driverWrite (s : State) (role strb : Byte) (act : W64 → State) : State :=
  match strobes strb with
  | some m => if s.crownOpen && decide (roleOf role = some .driver) then (act m).crownOk else s.crownErr
  | none => s.crownErr

/-- A 1 written to a reserved field of a die's block sets its RSVD_WRITE (R8). DEDUCED, log entry 59. -/
def rsvdWrite (s : State) (d : DieId) (v m rsv : W64) : State :=
  if v &&& m &&& rsv = 0 then s else s.setDie d { s.die d with rsvdWrite := true }

end State

end Sys2Proof.Machine
end

