-- ==== Sys2Proof/Machine/Queue.lean ====
section
/-!
DEFINITION. The command processor: commands and their form, acceptance with pre-translation, the start and the end of a
command, resident slots, and the scheduler's reservation of save areas (R237, R256 to R264, R266 to R268, R285).
-/
namespace Sys2Proof.Machine

/-- The fields of a command header (Table 13-1). -/
def cmdOp (b : List Byte) : Nat := fieldAt b 0 1
def cmdLen (b : List Byte) : Nat := 32 * fieldAt b 1 1
def cmdHdr (b : List Byte) : Nat := fieldAt b 0 8
def cmdGf (b : List Byte) : Nat := field (cmdHdr b) 23 21
def cmdGn (b : List Byte) : Bool := bitAt (cmdHdr b) 24
def cmdCfd (b : List Byte) : Nat := field (cmdHdr b) 27 25
def cmdCc (b : List Byte) : Nat := field (cmdHdr b) 31 28
def cmdImm (b : List Byte) : Nat := field (cmdHdr b) 63 32
def cmdWide (b : List Byte) : Nat := if bitAt (cmdImm b) 0 then 4 else 8

/-- The fields of a LAUNCH command (Table 13-3). -/
def lcImage (b : List Byte) : Nat := fieldAt b 8 8
def lcArgs (b : List Byte) : Nat := fieldAt b 0x10 8
def lcSdt (b : List Byte) : Nat := fieldAt b 0x18 8
def lcSdtN (b : List Byte) : Nat := fieldAt b 0x20 2
def lcCores (b : List Byte) : Nat := fieldAt b 0x22 1
def lcDies (b : List Byte) : Nat := fieldAt b 0x23 1
def lcClusters (b : List Byte) : Nat := fieldAt b 0x24 1
def lcAffinity (b : List Byte) : Nat := fieldAt b 0x25 1
def lcNobj (b : List Byte) : Nat := fieldAt b 0x26 2
def lcStatic (b : List Byte) : Nat := fieldAt b 0x28 4
def lcPair (b : List Byte) : Bool := bitAt (fieldAt b 0x2C 4) 0
def lcHandles (b : List Byte) : List Nat := (List.range (lcNobj b)).map fun i => fieldAt b (0x40 + 4 * i) 4

/-- The bytes from an offset to the end of a command are 0. -/
def zeroFrom (b : List Byte) (off : Nat) : Bool := (b.drop off).all (· = 0)

/-- A value of the width of the command: aligned address, and no bit above the width (R261). -/
def widthOk (b : List Byte) (vals : List Nat) : Bool :=
  decide (cmdImm b < 2) && decide (fieldAt b 8 8 % cmdWide b = 0) &&
    vals.all fun off => decide (fieldAt b off 8 < 256 ^ cmdWide b)

/-- The checks of Tables 13-1 to 13-3 on a whole command (R176, R257, R260, R261). `safe`: the partition is the
safety-class one. DEDUCED, log entry 29. -/
def cmdFormOk (safe : Bool) (b : List Byte) : Bool :=
  let op := cmdOp b
  let one := decide (cmdLen b = 32)
  let imm0 := decide (cmdImm b = 0)
  decide (op ≤ 9) && decide (cmdLen b ≠ 0) && decide (field (cmdHdr b) 20 16 = 0) &&
    (if op = 3 ∨ op = 4 then decide (cmdCc b < 0xD) else decide (cmdCc b = 0)) &&
    (decide (op = 4) || decide (cmdCfd b = 0)) &&
    (match op with
     | 0 => imm0
     | 1 =>
       imm0 && decide (cmdLen b = 32 * (2 + ceilDiv (lcNobj b) 8)) && decide (lcNobj b ≤ 2024) &&
         (decide (lcSdtN b = 0) == decide (lcSdt b = 0)) && decide (lcSdtN b ≤ 512) && decide (lcSdt b % 32 = 0) &&
         inRange (lcCores b) 1 4 && inRange (lcDies b) 1 8 && inRange (lcClusters b) 1 16 &&
         (decide (lcDies b ≠ 1) || decide (lcAffinity b = 0)) && decide (lcStatic b % 2048 = 0) &&
         inRange (lcStatic b) 2048 6291456 && decide (fieldAt b 0x2C 4 < 2) && (safe || !lcPair b) &&
         decide (fieldAt b 0x30 16 = 0) && zeroFrom b (0x40 + 4 * lcNobj b)
     | 2 => one && imm0 && zeroFrom b 0x18
     | 3 | 4 => one && widthOk b [0x10, 0x18]
     | 5 => one && widthOk b [0x10] && zeroFrom b 0x18
     | 6 => one && imm0 && decide (fieldAt b 8 8 % 8 = 0) && zeroFrom b 0x10
     | 7 =>
       one && decide (fieldAt b 8 8 % 32 = 0) && inRange (fieldAt b 0x10 4) 32 65536 &&
         decide (fieldAt b 0x10 4 % 32 = 0) && inRange (cmdImm b) 1 65535 && zeroFrom b 0x14
     | 8 => one && imm0 && zeroFrom b 8
     | _ =>
       one && imm0 && decide (fieldAt b 8 8 % 4096 = 0) && decide (fieldAt b 0x10 8 % 4096 = 0) &&
         (decide (fieldAt b 0x10 8 ≠ 0) || decide (fieldAt b 8 8 = 0)) && zeroFrom b 0x18)

/-- The command at an offset of a string of commands. -/
def cmdAt (bs : List Byte) (off : Nat) : List Byte :=
  let b := bs.drop off
  b.take (cmdLen b)

/-- A buffer cut into its commands up to the first of LEN32 0 or running past its end, and whether all of it was cut. -/
def splitCmds : Nat → List Byte → List (List Byte) × Bool
  | 0, bs => ([], bs.isEmpty)
  | fuel + 1, bs =>
    let n := cmdLen bs
    if bs.isEmpty then ([], true)
    else if n = 0 ∨ bs.length < n then ([], false)
    else
      let r := splitCmds fuel (bs.drop n)
      (bs.take n :: r.1, r.2)

/-- The commands of a buffer. -/
def bufCmds (bs : List Byte) : List (List Byte) × Bool := splitCmds (bs.length / 32 + 1) bs

/-- The buffer that a CALL names: address and length. -/
def callBuf (b : List Byte) : Nat × Nat := (fieldAt b 8 8, fieldAt b 0x10 4)
def isCall (b : List Byte) : Bool := decide (cmdOp b = 7)

/-- A buffer or a descriptor table that acceptance has read, by address and length. -/
def readAs (l : List (Nat × List Byte)) (x : Nat × Nat) : List Byte :=
  ((l.find? fun e => decide (e.1 = x.1) && decide (e.2.length = x.2)).map (·.2)).getD []

/-- The address and extent of what acceptance translates for a command (R260). -/
def cmdExtents (b : List Byte) : List (Nat × Nat) :=
  match cmdOp b with
  | 1 => [(lcImage b, 2120), (lcArgs b / 4096 * 4096, 4096)]
  | 2 => [(fieldAt b 8 8, 8)]
  | 3 | 4 | 5 => [(fieldAt b 8 8, cmdWide b)]
  | 6 => [(fieldAt b 8 8, 8)]
  | 7 => [callBuf b]
  | _ => []

/-- The translation window of an entry of a descriptor table: the union of its footprints over its offsets (R158). -/
def descWindow (e : List Byte) : Option (Nat × Nat) :=
  let d := Desc.ofBytes e
  if d.space ≠ 0 then none
  else
    match d.footprint d.omin true, d.footprint d.omax true with
    | some a, some b =>
      let lo := (min a.1 b.1).toNat
      let hi := (max a.2 b.2).toNat
      some (lo, hi + 1 - lo)
    | _, _ => none

/-- The entries of a descriptor table. -/
def sdtEntries (t : List Byte) : List (List Byte) := (List.range (t.length / 96)).map (descBytes t)

/-- The index of the first entry of a table that fails its checks (R158). DEDUCED, log entry 29. -/
def sdtBad (t : List Byte) : Option Nat :=
  (List.range (t.length / 96)).find? fun i =>
    let d := Desc.ofBytes (descBytes t i)
    !(d.crcOk && d.rangesOk)

/-- Why an acceptance goes no further: the context is lost, an access faults, or an access is answered with an error. -/
inductive AccErr where
  | lost (code info : Nat)
  | fault (cause : FaultCause) (range va : Nat)
  /-- An access cannot be made yet. -/
  | wait
  deriving DecidableEq, Repr

/-- A condition flag of a queue (R258). -/
def Queue.flag (k : Queue) (n : Nat) : Bool := decide (n = 0) || bitAt k.cf.toNat n
def Queue.setFlag (k : Queue) (n : Nat) (b : Bool) : Queue :=
  if n = 0 then k else { k with cf := BitVec.ofNat 8 (setField k.cf.toNat n n (bit b)) }

/-- The guard of a command (R258). -/
def Queue.guardOk (k : Queue) (b : List Byte) : Bool := k.flag (cmdGf b) != cmdGn b

/-- The stack of called buffers after a command of a length has completed; none when the ring's command has completed
(R261, R262). -/
def advanceFrames : List Frame → Nat → Option (List Frame)
  | [], _ => none
  | f :: fs, len =>
    if f.off + len < f.bytes.length then some ({ f with off := f.off + len } :: fs)
    else if 0 < f.left then some ({ f with off := 0, left := f.left - 1 } :: fs)
    else advanceFrames fs 32

/-- The next command of a queue to execute: in the innermost called buffer, or the oldest accepted one. -/
def Queue.nextCmd (k : Queue) : Option (List Byte) :=
  match k.frames with
  | f :: _ => some (cmdAt f.bytes f.off)
  | [] => k.accepted.head?.map (·.bytes)

/-- The oldest accepted command has started and not completed. -/
def Queue.executing (k : Queue) : Bool := decide (k.wait ≠ .none) || !k.frames.isEmpty

/-- The activity of a queue (Table 13-5). -/
def Queue.act (k : Queue) : QAct :=
  if k.stopping.isSome then .stopping
  else if k.wait = .cond then .waiting
  else if k.wait ≠ .none then .running
  else if !k.frames.isEmpty || decide (k.doneptr ≠ k.fill) then .ready
  else .idle

/-- The queue state register (Table 13-5). -/
def Queue.stateReg (k : Queue) : Nat :=
  let act := match k.act with | .idle => 0 | .ready => 1 | .waiting => 2 | .running => 3 | .stopping => 4
  place (setField k.cf.toNat 0 0 1) 32 + place k.frames.length 29 + place act 26

namespace State

/-- The partition of a queue's context. -/
def queuePart (s : State) (q : QueueId) : Nat := (s.ctx (s.queue q).ctx).partition

/-- A queue's record changed by a function. -/
def updQueue (s : State) (q : QueueId) (f : Queue → Queue) : State := s.setQueue q (f (s.queue q))

/-- Pin a range entry for a command, unless 24,576 entries of the die are pinned already (R285).
DEDUCED, log entry 20. -/
def pinEntry (s : State) (d : DieId) (e : RangeEnt) (tag : Nat × Nat) : State :=
  let k := s.die d
  let old := (k.l2.find? fun x => decide (x.partition = e.partition) && decide (x.va = e.va)).map (·.pins)
  if (old.getD []).isEmpty && decide (24576 ≤ k.l2.countP fun x => !x.pins.isEmpty) then s
  else if (old.getD []).contains tag then s
  else s.setDie d { k with l2 := l2Insert k.l2 { e with pins := [tag] } k.useNext, useNext := k.useNext + 1 }

/-- The entry of the second level that covers an address for a pre-translation, or the end of what that has found unmapped above
it. -/
def pinAt (s : State) (d : DieId) (p q va : Nat) : Option RangeEnt × Option Nat :=
  ((s.die d).l2.find? fun e => decide (e.partition = p) && e.covers va,
    ((s.die d).pinMiss.find? fun x => decide (x.1 = q) && decide (x.2.1 = va)).map (·.2.2))

/-- The first address from `va` to below `hi` for which a pre-translation has to walk, with at most `fuel` entries met. -/
def pinGap (s : State) (d : DieId) (p q hi : Nat) : Nat → Nat → Option Nat
  | 0, _ => none
  | fuel + 1, va =>
    if hi ≤ va then none
    else
      match s.pinAt d p q va with
      | (some e, _) => s.pinGap d p q hi fuel (e.va + e.len)
      | (none, some x) => s.pinGap d p q hi fuel (max x (va + 1))
      | (none, none) => some va

/-- Pin what the second level holds of the addresses from `va` to below `hi`, in ascending order, and pass over what is unmapped
(R158, R260, R285). DEDUCED, log entry 20. -/
def pinFrom (s : State) (d : DieId) (p : Nat) (tag : Nat × Nat) (hi : Nat) : Nat → Nat → State
  | 0, _ => s
  | fuel + 1, va =>
    if hi ≤ va then s
    else
      match s.pinAt d p tag.1 va with
      | (some e, _) => (s.pinEntry d e tag).pinFrom d p tag hi fuel (e.va + e.len)
      | (none, some x) => s.pinFrom d p tag hi fuel (max x (va + 1))
      | (none, none) => s

/-- The entries and gaps that a window of a partition can meet. -/
def pinFuel (s : State) (d : DieId) (p : Nat) : Nat := 2 * rootCount ((s.die d).roots.get 0 p) + (s.die d).l2.length + 2

/-- Translate windows in advance for a queue: the walk that they need next, or none when each can be pinned (R158, R260, R286). -/
def pinNeed (s : State) (d : DieId) (p q : Nat) (ws : List (Nat × Nat)) : Option Nat :=
  if rootMode ((s.die d).roots.get 0 p) ≠ 1 then none
  else ws.findSome? fun w => s.pinGap d p q (w.1 + w.2) (s.pinFuel d p) w.1

/-- Windows of a command are pinned, and what its pre-translation has noted is dropped (R158, R260, R285). -/
def pinAll (s : State) (d : DieId) (p : Nat) (tag : Nat × Nat) (ws : List (Nat × Nat)) : State :=
  let s := if rootMode ((s.die d).roots.get 0 p) ≠ 1 then s
    else ws.foldl (fun s w => s.pinFrom d p tag (w.1 + w.2) (s.pinFuel d p) w.1) s
  s.setDie d { s.die d with pinMiss := (s.die d).pinMiss.filter fun x => decide (x.1 ≠ tag.1) }

/-- Release the pins of a command, on every die that holds some. DEDUCED, log entry 20. -/
def unpin (s : State) (tag : Nat × Nat) : State :=
  { s with dies := s.dies.mapVals fun k => { k with l2 := k.l2.map fun e => { e with pins := e.pins.filter (· ≠ tag) } } }

/-- A read of the command processor of a die for the acceptance of a queue. -/
def cpRead (s : State) (d : DieId) (q p ctx va n : Nat) : State × Except AccErr (List Byte) :=
  match s.readVa d (.accept q) p ctx va n .read true with
  | (t, .ok bs) => (t, .ok bs)
  | (t, .fault c r a) => (t, .error (.fault c r a))
  | (t, .err a) => (t, .error (.lost 0x1307 a))
  | (t, .wait) => (t, .error .wait)

/-- The tree of buffers that a list of commands calls, each read and checked, `levels` deep (R260, R262). -/
def readTree (s : State) (d : DieId) (q p ctx pos : Nat) (safe : Bool) :
    Nat → List (List Byte) → State × Except AccErr (List (Nat × List Byte))
  | 0, cs => (s, if cs.any isCall then .error (.lost 0x1304 pos) else .ok [])
  | n + 1, cs =>
    (cs.filter isCall).foldl (init := (s, .ok [])) fun acc b =>
      match acc.2 with
      | .error _ => acc
      | .ok l =>
        match acc.1.cpRead d q p ctx (callBuf b).1 (callBuf b).2 with
        | (t, .error e) => (t, .error e)
        | (t, .ok bs) =>
          let r := bufCmds bs
          if !r.2 || !r.1.all (cmdFormOk safe) then (t, .error (.lost 0x1302 pos))
          else
            match t.readTree d q p ctx pos safe n r.1 with
            | (u, .error e) => (u, .error e)
            | (u, .ok l') => (u, .ok (l ++ ((callBuf b).1, bs) :: l'))

/-- The stream descriptor tables of the launches of a list, each read and checked (R158). -/
def readSdts (s : State) (d : DieId) (q p ctx : Nat) :
    List (List Byte) → State × Except AccErr (List (Nat × List Byte))
  | [] => (s, .ok [])
  | b :: bs =>
    if cmdOp b ≠ 1 ∨ lcSdtN b = 0 then s.readSdts d q p ctx bs
    else
      match s.cpRead d q p ctx (lcSdt b) (96 * lcSdtN b) with
      | (t, .error e) => (t, .error e)
      | (t, .ok x) =>
        match sdtBad x with
        | some i => (t, .error (.lost 0x0701 i))
        | none =>
          match t.readSdts d q p ctx bs with
          | (u, .error e) => (u, .error e)
          | (u, .ok l) => (u, .ok ((lcSdt b, x) :: l))

/-- A cluster is enabled with at least `n` enabled cores. -/
def clusterFits (s : State) (n : Nat) (k : ClusterId) : Bool :=
  (s.cluster k).enabled && decide (n ≤ (s.clusterCores k).countP fun c => (s.core c).enabled)

/-- The per-die test of R264, with two clusters for each logical cluster of a pair (R371). -/
def dieFits (s : State) (b : List Byte) (d : DieId) : Bool :=
  decide ((if lcPair b then 2 else 1) * lcClusters b ≤ (s.allClusters d).countP (s.clusterFits (lcCores b)))

/-- The dies that a multi-die launch may use by AFFINITY. -/
def affineDies (s : State) (b : List Byte) : List DieId :=
  s.allDies.filter fun d => decide (lcAffinity b = 0) || bitAt (lcAffinity b) d.val

/-- Whether a launch can be placed (R264). -/
def placeable (s : State) (home : DieId) (b : List Byte) : Bool :=
  if lcDies b = 1 then s.dieFits b home
  else decide (lcDies b ≤ ((s.affineDies b).filter (s.dieFits b)).length)

/-- The first failing check of the commands of an acceptance that reads nothing: form, BREAK outside a CALL, handles,
placement (R240, R260 to R264). DEDUCED, log entry 29. -/
def acceptBad (s : State) (q : QueueId) (pos : Nat) (ring : List Byte) (cs : List (List Byte)) : Option AccErr :=
  let p := s.queuePart q
  if cmdOp ring = 8 then some (.lost 0x1304 pos)
  else
    let ls := cs.filter fun b => decide (cmdOp b = 1)
    match (ls.flatMap lcHandles).find? fun h => !(decide ((s.mo h).st = .live) && decide ((s.mo h).partition = p)) with
    | some h => some (.lost 0x1202 h)
    | none => if ls.all (s.placeable q.die) then none else some (.lost 0x1303 pos)

/-- Ring commands accepted and not completed of the queues homed on a die (Table 13-8). -/
def acceptedOn (s : State) (d : DieId) : Nat :=
  (s.queues.entries.map fun e => if (queueOf e.1).die = d then e.2.accepted.length else 0).foldl (· + ·) 0

/-- The command processor and the scheduler of a die are not in reset (R353, R362). -/
def cpRuns (s : State) (d : DieId) : Bool := !(s.die d).computeReset

/-- Whether acceptance of a queue may take its next ring command (R256, R260, R274). -/
def mayAccept (s : State) (q : QueueId) : Bool :=
  let k := s.queue q
  let c := s.ctx k.ctx
  s.cpRuns q.die && decide (k.st = .opened) && k.stopping.isNone && (decide (c.st = .ready) || decide (c.st = .resident)) &&
    (s.slotOf q.die k.ctx).isSome && !s.transHeld q.die (.accept q.key) && !s.transHeld q.die (.pin q.key) &&
    decide (k.accepted.length < 8 + bit k.executing) && decide (s.acceptedOn q.die < 4096) &&
    decide (k.accptr.toNat + 32 ≤ k.fill.toNat)

/-- What acceptance found: the command and all that it names, or why it stops; none while the command does not lie
below the fill mark. -/
def acceptRead (s : State) (q : QueueId) : State × Except AccErr (Option Accepted) :=
  let k := s.queue q
  let d := q.die
  let p := s.queuePart q
  let pos := k.accptr.toNat
  let off := pos % 2 ^ k.ringLog2
  let safe := s.partSafety p
  match s.cpRead d q.key p k.ctx (k.ringBase.toNat + off) 32 with
  | (t, .error e) => (t, .error e)
  | (t, .ok h) =>
    let n := cmdLen h
    if n = 0 ∨ 2 ^ k.ringLog2 < off + n then (t, .error (.lost 0x1302 pos))
    else if k.fill.toNat < pos + n then (t, .ok none)
    else
      match t.cpRead d q.key p k.ctx (k.ringBase.toNat + off) n with
      | (t, .error e) => (t, .error e)
      | (t, .ok b) =>
        if !cmdFormOk safe b then (t, .error (.lost 0x1302 pos))
        else
          match t.readTree d q.key p k.ctx pos safe 4 [b] with
          | (t, .error e) => (t, .error e)
          | (t, .ok bufs) =>
            let cs := b :: bufs.flatMap fun x => (bufCmds x.2).1
            match t.acceptBad q pos b cs with
            | some e => (t, .error e)
            | none =>
              match t.readSdts d q.key p k.ctx cs with
              | (t, .error e) => (t, .error e)
              | (t, .ok sdts) =>
                let refs := (cs.filter fun c => decide (cmdOp c = 1)).flatMap lcHandles
                (t, .ok (some { pos := pos, bytes := b, bufs := bufs, refs := refs, sdts := sdts }))

/-- COMMAND_ACCEPTANCE: a ring command is read and checked, its references are taken, its windows are translated, and
ACCPTR passes it; a failing check loses the context, and a fault stalls the acceptance. It goes on with each answer to its
reads, and with each walk that its windows need (R240, R260, R286). -/
def accept (s : State) (q : QueueId) : State :=
  let k := s.queue q
  let d := q.die
  let p := s.queuePart q
  let o : Owner := .accept q.key
  if !s.mayAccept q then s
  else
    match s.acceptRead q with
    | (t, .ok none) => t.busDone d o
    | (t, .error (.lost code info)) => (t.busDone d o).lose d k.ctx code 1 (.outside code info)
    | (t, .error (.fault c r va)) => t.faultAccess d c r o p k.ctx va .read
    | (t, .error .wait) => t
    | (t, .ok (some a)) =>
      let tag := (q.key, a.pos)
      let cs := a.bytes :: a.bufs.flatMap fun x => (bufCmds x.2).1
      let ws := cs.flatMap cmdExtents ++ a.sdts.flatMap fun x => (sdtEntries x.2).filterMap descWindow
      match t.pinNeed d p q.key ws with
      | some va => t.startWalk d (.pin q.key) p k.ctx va .read
      | none =>
        let t := ((t.busDone d o).addRefs d a.refs).pinAll d p tag ws
        let k := t.queue q
        t.putQueue q { k with accepted := k.accepted ++ [a], accptr := k.accptr + BitVec.ofNat 64 a.bytes.length }

/-- A context asks for a resident slot of a die, unless it holds one, has asked, is LOST, or the die's scheduler is in reset
(R236, R268, R362). DESIGN CHOICE, log entry 22. -/
def askSlot (s : State) (d : DieId) (ctx : Nat) : State :=
  let k := s.die d
  if !s.cpRuns d || decide ((s.ctx ctx).st = .lost) || (s.slotOf d ctx).isSome || k.slotWait.contains ctx then s
  else s.setDie d { k with slotWait := k.slotWait ++ [ctx] }

/-- The oldest accepted command of a queue is complete: its references and pins are released, and DONEPTR passes it
(R240, R285). -/
def ringDone (s : State) (q : QueueId) : State :=
  match (s.queue q).accepted with
  | [] => s
  | a :: rest =>
    let s := (s.dropRefs q.die a.refs).unpin (q.key, a.pos)
    let k := s.queue q
    s.putQueue q { k with accepted := rest, doneptr := BitVec.ofNat 64 (a.pos + a.bytes.length) }

/-- A command of a queue is complete (R259, R261, R266). -/
def cmdDone (s : State) (q : QueueId) (len : Nat) : State :=
  let k := s.queue q
  let r := advanceFrames k.frames len
  let s := s.setQueue q { k with frames := r.getD [], wait := .none, cmd := [], timer := 0, timed := false, reread := false }
  let s := if r.isNone then s.ringDone q else s
  let s := s.ranOn q.die k.ctx
  if (s.queue q).act = .idle then s else s.askSlot q.die k.ctx

/-- A queue may start, or go on with, a command of an opcode: it is open, not stopping, its context holds a slot on the
home die, and no access of the command is stalled (R259, R267, R289). DESIGN CHOICE, log entry 22. -/
def mayRun (s : State) (q : QueueId) (op : Nat) : Option (List Byte) :=
  let k := s.queue q
  let c := s.ctx k.ctx
  let go := match k.wait with
    | .none => true
    | .fault _ => true
    | _ => false
  match k.nextCmd with
  | none => none
  | some b =>
    if s.cpRuns q.die && decide (k.st = .opened) && k.stopping.isNone && decide (c.st = .resident) && (s.slotOf q.die k.ctx).isSome && go &&
        !s.transHeld q.die (.command q.key) && decide (cmdOp b = op) then some b
    else none

/-- The timer of a command starts (R266). -/
def startTimer (s : State) (q : QueueId) (b : List Byte) : State :=
  s.updQueue q fun k =>
    match k.wait with
    | .fault _ => { k with cmd := b }
    | _ => { k with cmd := b, timer := 0, timerAt := (s.die q.die).ticks, timed := true }

/-- A command of an opcode starts: a false guard completes it at once with no effect (R258). -/
def opRow (s : State) (q : QueueId) (op : Nat) (run : State → List Byte → State) : State :=
  match s.mayRun q op with
  | none => s
  | some b => if (s.queue q).guardOk b then run (s.startTimer q b) b else s.cmdDone q (cmdLen b)

/-- The executing command of a queue stalls on a translation fault (R263, R289). -/
def cmdStall (s : State) (q : QueueId) (c : FaultCause) (r va : Nat) (acc : Access) : State :=
  let k := s.queue q
  let s := if k.wait = .cond then s else s.updQueue q fun k => { k with wait := .fault (BitVec.ofNat 64 va) }
  s.faultAccess q.die c r (.command q.key) (s.queuePart q) k.ctx va acc

/-- The value that WAIT and TEST compare (R261). -/
def condHolds (b : List Byte) (x : Nat) : Bool :=
  condOf (8 * cmdWide b) (cmdCc b) (x &&& fieldAt b 0x18 8) (fieldAt b 0x10 8)

/-- The executing command's access has no result yet: the command goes on when it is next offered, with its timer running on. -/
def cmdWait (s : State) (q : QueueId) (va : Nat) : State :=
  s.updQueue q fun k => if k.wait = .none then { k with wait := .fault (BitVec.ofNat 64 va) } else k

/-- A read of the executing command: done with the data, or stalled, or the context is lost with F-1307 (R263). -/
def cmdRead (s : State) (q : QueueId) (va n : Nat) (go : State → List Byte → State) : State :=
  let k := s.queue q
  match s.readVa q.die (.command q.key) (s.queuePart q) k.ctx va n .read true with
  | (t, .ok bs) => go (t.busDone q.die (.command q.key)) bs
  | (t, .wait) => t.cmdWait q va
  | (t, .fault c r a) => t.cmdStall q c r a .read
  | (t, .err a) => (t.busDone q.die (.command q.key)).lose q.die k.ctx 0x1307 1 (.outside 0x1307 a)

/-- A write of the executing command. -/
def cmdWrite (s : State) (q : QueueId) (va : Nat) (bs : List Byte) (go : State → State) : State :=
  let k := s.queue q
  match s.writeVa q.die (.command q.key) (s.queuePart q) k.ctx va bs true with
  | (t, .ok _) => go (t.busDone q.die (.command q.key))
  | (t, .wait) => t.cmdWait q va
  | (t, .fault c r a) => t.cmdStall q c r a .write
  | (t, .err a) => (t.busDone q.die (.command q.key)).lose q.die k.ctx 0x1307 1 (.outside 0x1307 a)

/-- The read of a WAIT, and its completion when the condition holds; a fence write that comes while it is under way has the value
read again (R261, R263). -/
def waitRead (s : State) (q : QueueId) : State :=
  let k := s.queue q
  let s := if s.busHas q.die (.command q.key) then s
    else s.updQueue q fun k => { k with readAt := (s.die q.die).ticks, reread := false }
  s.cmdRead q (fieldAt k.cmd 8 8) (cmdWide k.cmd) fun t bs =>
    if condHolds k.cmd (ofBytesLE bs) then t.cmdDone q 32 else t

/-- The bytes of the save area that a launch takes (R237, R371). -/
def savePart (b : List Byte) : Nat :=
  let k := lcDies b * lcClusters b
  (if lcPair b then 2 else 1) * (1056768 * (k * lcCores b) + 6320128 * k)

/-- The lowest free place for a launch's part of its context's save area (R237). -/
def saveFit (s : State) (ctx need : Nat) : Option Nat :=
  let held := (s.launches.values.filter fun l => decide (l.ctx = ctx) && l.saveHeld).foldl
    (fun l x => insertAlloc (x.saveOff, x.saveLen) l) []
  firstFit need (s.ctx ctx).saveSize.toNat 0 held

/-- A launch takes its part of the save area, if it holds none and one is free (R237). -/
def saveTake (s : State) (q : Nat) : State :=
  match s.launches.find? q with
  | none => s
  | some l =>
    if l.saveHeld then s
    else
      match s.saveFit l.ctx l.saveLen with
      | none => s
      | some off => s.setLaunch q { l with saveOff := off, saveHeld := true }

/-- The logical clusters and cores of a launch, run by run (R143, R264, R371). DEDUCED, log entry 70. -/
def logClusters (b : List Byte) (runB : Bool) : List LogCluster :=
  (List.range (lcDies b * lcClusters b)).map fun k => { ldie := k / lcClusters b, lcl := k, runB := runB }
def logCores (b : List Byte) (runB : Bool) : List LogCore :=
  (List.range (lcDies b * lcClusters b * lcCores b)).map fun i =>
    { lcore := i, ldie := i / lcCores b / lcClusters b, lcl := i / lcCores b, runB := runB }

/-- LAUNCH: the launch takes its part of the save area and waits for placement, on the home die or, for several dies,
after die 0 has chosen them (R15, R237, R264). -/
def launchStart (s : State) (q : QueueId) (b : List Byte) : State :=
  let k := s.queue q
  let c := s.ctx k.ctx
  let need := savePart b
  let a := k.accepted.headD { pos := 0, bytes := [] }
  if c.saveSize.toNat < need then s.lose q.die k.ctx 0x1201 1 (.outside 0x1201 need)
  else
    let runs := if lcPair b then [false, true] else [false]
    let single := decide (lcDies b = 1)
    let l : Launch :=
      { ctx := k.ctx, partition := c.partition, cmd := b.take 64, pos := a.pos
        sdt := if lcSdtN b = 0 then [] else readAs a.sdts (lcSdt b, 96 * lcSdtN b)
        dies := if single then [q.die.val] else []
        parts := if single then ({} : SMap PartState).put 0 .pending else {}
        clusters := runs.flatMap (logClusters b), cores := runs.flatMap (logCores b), saveLen := need }
    let s := s.updQueue q fun k => { k with wait := .launch, timed := false }
    let s := (s.setLaunch q.key l).saveTake q.key
    if single then s.askSlot q.die k.ctx else s.sendMsg q.die die0 (.launch q.key)

end State

end Sys2Proof.Machine
end

