-- ==== Sys2Proof/Machine/Loss.lean ====
section
/-!
DEFINITION. Fence signals, the walk of a ring without execution, the loss of a context, the end and the stop of a
command (R113, R177, R181, R242 to R248, R266, R274, R275, R352).
-/
namespace Sys2Proof.Machine

/-- The fence and the value of a SIGNAL. -/
def cmdSignal (b : List Byte) : W64 × W64 := (BitVec.ofNat 64 (fieldAt b 8 8), BitVec.ofNat 64 (fieldAt b 0x10 8))

/-- What a step of a walk came to: it goes on with a value, meets something it cannot use, or stalls (R247). -/
inductive WalkGet (α : Type) where
  | ok (a : α)
  | bad
  | stall
  deriving DecidableEq, Repr

/-- The command processor's own place among the units that a stop waits for (R274). -/
def cpUnit : Nat := 0xFFFFFFFF

namespace State

/-- An OBJECT event record ends a held request: DONE 0, INVALID 1, BUSY 2, NO_ROOM 3 (R234). -/
def objEvent (s : State) (r : ObjReq) (p ctx queue result : Nat) (value : W64) : State :=
  let s := { s with objHeld := s.objHeld.erase r }
  s.postEvent die0 p 0 { type := 3, ctx := ctx, queue := queue, fence := BitVec.ofNat 64 (result * 65536 + r.tag),
                         value := value }

/-- A fence address lies, aligned, in a LIVE object of the partition with the FENCE flag (R243). -/
def fenceOk (s : State) (p va : Nat) : Bool :=
  decide (va % 16 = 0) && s.mos.values.any fun m =>
    decide (m.st = .live) && m.isFence && decide (m.partition = p) && decide (m.base.toNat ≤ va) &&
      decide (va + 16 ≤ m.base.toNat + m.length.toNat)

/-- The event record of a fence signal (Table 12-9). -/
def fenceRec (f : FenceSig) (cookie : W32) (detail : List Byte) : EventRec :=
  { type := 1, ctx := f.ctx, queue := f.queue, fence := f.va, value := f.value, status := f.status, cookie := cookie,
    detail := detail }

/-- A signal that cannot be made is an undeliverable completion, and its context is lost with a code
(R243, R245, R275). -/
def fenceLost (s : State) (f : FenceSig) (code : Nat) : State :=
  let d := dieOf f.src
  (s.logUndeliverable d (s.ctx f.ctx).partition (fenceRec f 0 [])).lose d f.ctx code 1 (.outside code f.va.toNat)

/-- The queues homed on a die whose WAIT watches a granule read their value again (R263). -/
def wakeWaits (s : State) (d : DieId) (pa : Nat) : State :=
  { s with queues := s.queues.mapKV fun n k =>
      if (queueOf n).die = d ∧ k.wait = .cond then
        match s.xlate d 2000 (s.ctx k.ctx).partition k.ctx (fieldAt k.cmd 8 8) .read with
        | .hit x _ => if x / 64 = pa / 64 then { k with reread := true } else k
        | _ => k
      else k }

/-- The fence unit of the serving die acts on a signal at a physical address: it reads the record, compares, and writes; none while
a request of it is on its way (R245). DEDUCED, log entry 31. -/
def fenceAct (s : State) (d : DieId) (n pa : Nat) (f : FenceSig) : State × Option FenceSig :=
  let p := (s.ctx f.ctx).partition
  let o : Owner := .fence n
  let bad := fun s : State => (s.busDone d o, some { f with result := some false, bad := true })
  match s.busRead d o p f.ctx f.va.toNat pa 16 noRange true with
  | (s, .wait) => (s, none)
  | (s, .error _) => bad s
  | (s, .ok cur) =>
    if signed 64 (f.value - BitVec.ofNat 64 (fieldAt cur 0 8)).toNat < 0 then
      let c := s.ctx f.ctx
      ((s.busDone d o).putCtx f.ctx { c with drops := satInc c.drops }, some { f with result := some false })
    else
      match s.busWrite d o p f.ctx f.va.toNat pa (bytesLE 8 f.value.toNat ++ bytesLE 4 f.status.toNat) noRange true with
      | (s, .wait) => (s, none)
      | (s, .error _) => bad s
      | (s, .ok _) =>
        ((s.busDone d o).wakeWaits d pa,
          some { f with result := some true, cookie := BitVec.ofNat 32 (fieldAt cur 12 4), time := (s.die d).count })

/-- The fence unit of a die is acting on another signal to the fence: signals to one fence are served one after another (R245). -/
def fenceBusy (s : State) (d : DieId) (n pa : Nat) : Bool :=
  (s.die d).bus.any fun b =>
    match b.owner with
    | .fence m => decide (m ≠ n) && decide (b.pa = pa)
    | _ => false

/-- The signalling command processor takes the result of a signal: the event record, or an undeliverable completion; and the
number of the record where that waits (R19, R245, R275). DEDUCED, log entry 31. -/
def fenceEnd (s : State) (f : FenceSig) : State × Option Nat :=
  let d := dieOf f.src
  let c := s.ctx f.ctx
  let n := s.eventNext
  if f.bad then (s.fenceLost f 0x1305, none)
  else if f.result = some true then
    let e := fenceRec f f.cookie (bytesLE 8 f.time.toNat)
    match s.tryEvent d c.partition c.evring e with
    | (t, none) => (t, if (t.die d).evWait.any fun x => decide (x.1 = n) then some n else none)
    | (t, some (code, info)) => (t.eventFailed d c.partition e code info, none)
  else (s, none)

/-- The signalling die's fence unit translates a signal for its read and its write. -/
def fenceXlate (s : State) (d : DieId) (n : Nat) (f : FenceSig) : State × Xlate :=
  let p := (s.ctx f.ctx).partition
  match s.xlateNow d (.fence n) p f.ctx f.va.toNat .read with
  | (s, .hit _ _) => s.xlateNow d (.fence n) p f.ctx f.va.toNat .write
  | x => x

/-- A signal is translated and goes to the fence unit of the serving die, or waits for translation service; a request to
another die is counted on its range entry. One whose segment block cannot be used loses its context with the code of that; for a
context that is LOST it is an undeliverable completion (R16, R245, R247, R300, R303). DEDUCED, log entry 31. -/
def fenceSend (s : State) (n : Nat) : State :=
  match s.fences.find? n with
  | none => s
  | some f =>
    let d := dieOf f.src
    let p := (s.ctx f.ctx).partition
    let bad := fun s : State =>
      ({ s with fences := s.fences.put n { f with result := some false, bad := true } }).sendMsg d d (.fenceRes n)
    match s.fenceXlate d n f with
    | (s, .hit pa range) =>
      let s := s.busDone d (.fence n)
      let e := dieOf (pa / 2 ^ 49)
      if s.reaches d (pa / 2 ^ 49) then
        let s := if e = d then s else s.hotCount d p f.ctx range 1
        ({ s with fences := s.fences.put n { f with pa := some pa, range := range, sentAt := (s.die d).ticks } }).sendMsg d e
          (.fence n)
      else bad (s.report d 0x1503 (s.unreachMask d))
    | (s, .fault c r) => s.faultAccess d c r (.fence n) p f.ctx f.va.toNat .write
    | (s, .miss) => s
    | (s, .lost code info) =>
      let s := s.busDone d (.fence n)
      if (s.ctx f.ctx).st = .lost then bad s else s.lose d f.ctx code 1 (.outside code info)

/-- A signal of a walk of a queue's commands goes to the fence unit, and the walk waits for its result; false where it is over at
once (R243, R247). -/
def walkSignal (s : State) (f : FenceSig) : State × Bool :=
  if !s.fenceOk (s.ctx f.ctx).partition f.va.toNat then (s.fenceLost f 0x1203, false)
  else
    let n := s.fenceNext
    (({ s with fences := s.fences.put n f, fenceNext := n + 1 }).fenceSend n, true)

/-- A signal of a queue's walk is on its way. -/
def walkFence (s : State) (q : QueueId) : Bool :=
  s.fences.values.any fun f => decide (f.queue = q.key) && !f.exec

/-- A read of the walk (R247). -/
def walkRead (s : State) (q : QueueId) (va n : Nat) : State × WalkGet (List Byte) :=
  let ctx := (s.queue q).ctx
  let p := s.queuePart q
  match s.readVa q.die (.accept q.key) p ctx va n .read true with
  | (s, .ok bs) => (s, .ok bs)
  | (s, .wait) => (s, .stall)
  | (s, .err _) => (s, .bad)
  | (s, .fault c r a) =>
    if (s.queue q).walkFail.contains a then (s, .bad) else (s.faultAccess q.die c r (.accept q.key) p ctx a .read, .stall)

/-- The fence signals that the commands of a called buffer, and of the buffers it calls, would make, each body taken once:
addresses and values, in order, and whether a read stalls. A command that cannot be used ends its buffer; a buffer that
acceptance has read is taken as it was read (R247, R262). -/
def walkBuf (s : State) (q : QueueId) (bufs : List (Nat × List Byte)) : Nat → Nat × Nat → State × List (W64 × W64) × Bool
  | 0, _ => (s, [], false)
  | depth + 1, (va, len) =>
    let kept := bufs.find? fun e => decide (e.1 = va) && decide (e.2.length = len)
    let rd := fun (s : State) (off n : Nat) =>
      match kept with
      | some e => (s, WalkGet.ok ((e.2.drop off).take n))
      | none => s.walkRead q (va + off) n
    let r := (List.range (len / 32)).foldl (init := (s, ([] : List (W64 × W64)), (WalkGet.ok 0 : WalkGet Nat))) fun acc _ =>
      match acc with
      | (s, l, .ok off) =>
        if len ≤ off then acc
        else
          match rd s off 32 with
          | (t, .stall) => (t, l, .stall)
          | (t, .bad) => (t, l, .bad)
          | (t, .ok h) =>
            if cmdLen h = 0 ∨ 9 < cmdOp h ∨ len < off + cmdLen h then (t, l, .bad)
            else
              match rd t off (cmdLen h) with
              | (t, .stall) => (t, l, .stall)
              | (t, .bad) => (t, l, .bad)
              | (t, .ok b) =>
                let next := WalkGet.ok (off + cmdLen h)
                if cmdOp b = 2 then (t, l ++ [cmdSignal b], next)
                else if isCall b then
                  match t.walkBuf q bufs depth (callBuf b) with
                  | (u, l', true) => (u, l ++ l', .stall)
                  | (u, l', false) => (u, l ++ l', next)
                else (t, l, next)
      | x => x
    (r.1, r.2.1, decide (r.2.2 = .stall))

/-- The fence signals of a command of the ring, and whether a read of a buffer stalls (R247). -/
def walkSignals (s : State) (q : QueueId) (a : Accepted) : State × List (W64 × W64) × Bool :=
  if cmdOp a.bytes = 2 then (s, [cmdSignal a.bytes], false)
  else if isCall a.bytes then s.walkBuf q a.bufs 4 (callBuf a.bytes)
  else (s, [], false)

/-- Make the signals of a list, one after another, after those made already; true where one is on its way. -/
def walkSend (s : State) (q : QueueId) (status : W32) : List (W64 × W64) → State × Bool
  | [] => (s, false)
  | x :: xs =>
    if s.walkFence q then (s, true)
    else
      let f : FenceSig := { va := x.1, value := x.2, status := status, ctx := (s.queue q).ctx, queue := q.key, src := q.die.val,
                            exec := false, place := ((s.queue q).walkPos, (s.queue q).walkSkip) }
      match s.walkSignal f with
      | (t, true) => (t, true)
      | (t, false) => (t.updQueue q fun k => { k with walkSkip := k.walkSkip + 1 }).walkSend q status xs

/-- The command at the place of the walk: as accepted, or read from the ring; bad where the walk ends, ok none where the
command does not lie below the fill mark (R247). DEDUCED, log entry 32. -/
def walkCmd (s : State) (q : QueueId) : State × WalkGet (Option Accepted) :=
  let k := s.queue q
  match k.accepted.find? fun a => decide (a.pos = k.walkPos) with
  | some a => (s, .ok (some a))
  | none =>
    let off := k.walkPos % 2 ^ k.ringLog2
    match s.walkRead q (k.ringBase.toNat + off) 32 with
    | (s, .stall) => (s, .stall)
    | (s, .bad) => (s, .bad)
    | (s, .ok h) =>
      if cmdLen h = 0 ∨ 9 < cmdOp h ∨ 2 ^ k.ringLog2 < off + cmdLen h then (s, .bad)
      else if k.fill.toNat < k.walkPos + cmdLen h then (s, .ok none)
      else
        match s.walkRead q (k.ringBase.toNat + off) (cmdLen h) with
        | (s, .stall) => (s, .stall)
        | (s, .bad) => (s, .bad)
        | (s, .ok b) => (s, .ok (some { pos := k.walkPos, bytes := b }))

/-- The walk passes to a ring byte count: with the executing command stopped, DONEPTR passes with it (R247).
DEDUCED, log entry 32. -/
def walkTo (s : State) (q : QueueId) (pos : Nat) : State :=
  let k := s.queue q
  (s.busDone q.die (.accept q.key)).putQueue q { k with
    walkPos := pos
    walkSkip := 0
    walkFail := []
    accepted := k.accepted.filter fun a => decide (a.pos ≠ k.walkPos)
    doneptr := if k.executing then k.doneptr else BitVec.ofNat 64 pos
    accptr := if k.accptr.toNat < pos then BitVec.ofNat 64 pos else k.accptr }

/-- The walk releases the references and pins that accepted commands of the ring hold, from a ring byte count up to another
(R240, R247). -/
def walkFree (s : State) (q : QueueId) (lo hi : Nat) : State :=
  let mine := fun a : Accepted => decide (lo ≤ a.pos) && decide (a.pos < hi)
  let s := ((s.queue q).accepted.filter mine).foldl (fun s a => (s.dropRefs q.die a.refs).unpin (q.key, a.pos)) s
  s.updQueue q fun k => { k with accepted := k.accepted.map fun a => if mine a then { a with refs := [] } else a }

/-- The walk of a queue's ring up to the fill mark: of each command the references are released, and then its signals are made
(R247, R248); true when it has finished. DEDUCED, log entry 32. -/
def walkRing (s : State) (q : QueueId) (status : W32) : Nat → State × Bool
  | 0 => (s, true)
  | fuel + 1 =>
    let k := s.queue q
    if k.fill.toNat ≤ k.walkPos then (s, true)
    else
      match s.walkCmd q with
      | (s, .stall) => (s, false)
      | (s, .bad) =>
        let s := s.walkFree q k.walkPos k.fill.toNat
        ((s.updQueue q fun k => { k with accepted := k.accepted.filter fun a => decide (a.pos < k.walkPos) }).walkTo q
          k.fill.toNat, true)
      | (s, .ok none) => (s.busDone q.die (.accept q.key), true)
      | (s, .ok (some a)) =>
        let s := s.walkFree q a.pos (a.pos + 1)
        match s.walkSignals q a with
        | (s, l, stalls) =>
          match s.walkSend q status (l.drop (s.queue q).walkSkip) with
          | (s, true) => (s, false)
          | (s, false) =>
            if stalls then (s, false)
            else (s.walkTo q (a.pos + a.bytes.length)).walkRing q status fuel

/-- Walk a queue of a LOST context from DONEPTR (R247, R248); true when the walk has finished. A command processor in reset
walks nothing (R353). -/
def walkLost (s : State) (q : QueueId) : State × Bool :=
  let k := s.queue q
  let same := decide (k.walkPos = k.doneptr.toNat)
  let s := s.setQueue q { k with
    frames := []
    wait := .none
    cmd := []
    timed := false
    walkPos := k.doneptr.toNat
    walkSkip := if same then k.walkSkip else 0
    walkFail := if same then k.walkFail else [] }
  if s.transHeld q.die (.accept q.key) || !s.cpRuns q.die then (s, false)
  else s.walkRing q (s.ctx k.ctx).lossStatus ((k.fill.toNat - k.doneptr.toNat) / 32 + 1)

/-- A launch is over: its cores and clusters are free, and held for a launch that waits for them; its image accesses are
withdrawn, its claims and allocations released, and its part of the save area returned; after a loss the stores are cleared before their next use (R148, R177, R181, R237, R269, R295, R352). -/
def endLaunch (s : State) (q : Nat) (lost : Bool) : State :=
  let mine := (s.cores.entries.filter fun e => decide (e.2.part = some q)).map (·.1)
  let core := fun k : Core => { k with
    part := none
    run := if k.run = .reset then .reset else .idle
    stall := .none
    ypend := false
    sems := []
    grantReq := false
    atBarrier := none
    remoteWait := false
    haloWaiting := false
    runB := false
    stopAsked := false
    stopAcked := false
    resetAt := none
    img := none }
  let dirty := fun (l : Option Nat) (x : Store) => if lost ∧ l = some q then { x with clearDue := true } else x
  let freed := s.allDies.filter fun d => (mine.any fun c => decide ((coreOf c).die = d)) ||
    (s.allClusters d).any fun k => decide (((s.cluster k).occupant.map (·.1)) = some q)
  let s := s.allDies.foldl (fun s d => s.withdrawImages q d) s
  let s := { s with
    launches := s.launches.erase q
    cores := s.cores.mapVals fun k =>
      let k := if k.part = some q then core k else k
      { k with store := dirty k.lastLaunch k.store }
    clusters := s.clusters.mapKV fun n k =>
      let k : Cluster := { k with
        gens := k.gens.filter fun _ g => decide ((g.claim.map (·.1)) ≠ some q)
        map := dirty k.lastLaunch k.map }
      let k : Cluster := if (k.occupant.map (·.1)) = some q then { k with occupant := none, allocs := [], img := none } else k
      { k with holder := k.holder.filter fun h => !mine.contains (n * 4 + h.val) }
    sems := s.sems.mapVals fun m => { m with
      holders := m.holders.filter fun c => !mine.contains c
      waiters := m.waiters.filter fun c => !mine.contains c }
    dies := s.dies.mapVals fun d => { d with
      parts := d.parts.filter fun x => decide (x.queue ≠ q)
      placeFor := d.placeFor.filter fun x => decide (x ≠ q) } }
  freed.foldl (fun s d => s.holdCores d) s

/-- A request of the command processor for the executing command of a queue is under way, and may yet be answered. -/
def cpOut (s : State) (q : Nat) : Bool :=
  s.reqs.entries.any fun e =>
    decide (e.2.owner = .command q) && !e.2.gone && !(s.die e.2.die).orphans.any fun o => decide (o.req = e.1)

/-- Every launch of a context issues no more, every response to it has returned, and no signal that one of its commands
has made is on its way, nor an access of one; of a unit that was reset the responses count as returned 1,000 counts after the
reset was asserted (R240, R247, R357). -/
def lossReady (s : State) (ctx : Nat) : Bool :=
  let ls := s.launchesOf ctx
  (s.cores.entries.all fun e =>
    match e.2.part with
    | some q => !ls.contains q ||
        ((e.2.resetAt.all fun t => decide (1000 ≤ s.since (coreOf e.1).die t)) &&
          (decide (e.2.run = .stopped) || decide (e.2.run = .idle) || decide (e.2.run = .reset)) &&
          s.quiet (coreOf e.1))
    | none => true) && (s.fences.values.all fun f => decide (f.ctx ≠ ctx) || !f.exec) &&
    s.queues.entries.all fun e => decide (e.2.ctx ≠ ctx) || !s.cpOut e.1

/-- Walk queues of a LOST context one after another, up to one that stalls; true when all have finished. -/
def walkAll (s : State) : List QueueId → State × Bool
  | [] => (s, true)
  | q :: qs =>
    match s.walkLost q with
    | (t, true) => t.walkAll qs
    | (t, false) => (t, false)

/-- The stop of a queue's command is complete: a queue being destroyed becomes FREE, and one whose command has timed out
loses its context with F-1306 (R266, R274). -/
def stopDone (s : State) (q : QueueId) : State :=
  let k := s.queue q
  let walked := k.destroyTag.isNone || decide (k.fill.toNat ≤ k.walkPos)
  if k.stopping.isNone || !k.stopWait.isEmpty || !walked then s
  else
    match k.destroyTag with
    | none =>
      let pos := (k.accepted.headD { pos := k.doneptr.toNat, bytes := [] }).pos
      let s := s.setQueue q { k with stopping := none, drained := false }
      (s.endLaunch q.key true).lose q.die k.ctx 0x1306 1 (.outside 0x1306 pos)
    | some tag =>
      let s := s.endLaunch q.key false
      let s := k.accepted.foldl (fun s a => (s.dropRefs q.die a.refs).unpin (q.key, a.pos)) s
      let p := s.queuePart q
      let s := (s.setQueue q { k with doneptr := k.fill, accptr := k.fill }).syncQueue q
      let s := (s.setQueue q {}).writeBytes (s.queueEntry q + 2) [0]
      match s.objHeld.find? fun r => decide (r.op = 5) && !r.waits && decide (r.tag = tag) && decide (r.index = q.key) with
      | some r => s.objEvent r p k.ctx q.key 0 0
      | none => s

/-- LOSS_PROCEDURE: the LOST event record of a program fault is posted when the launch's cores have stopped; after the launches
of the context have issued their last and every response is back, its units are released, and its queues are walked
(R114, R247). CTX_ABORT completes with it. -/
def lossStep (s : State) (n : Nat) : State :=
  if (s.ctx n).losing.isNone then s
  else
  let s := s.retryEvents
  let s := if s.faultsOpen n then s else s.postLost n
  if !s.lossReady n then s
  else
    let s := (s.launchesOf n).foldl (fun s q => s.endLaunch q true) s
    match s.walkAll (s.ctxQueues n) with
    | (s, false) => s
    | (s, true) =>
      let s := (s.ctxQueues n).foldl (fun s q =>
        if (s.queue q).stopping.isSome then (s.updQueue q fun k => { k with stopWait := [] }).stopDone q else s) s
      let s := s.setCtx n { s.ctx n with losing := none }
      (s.objHeld.filter fun r => decide (r.op = 2) && !r.waits && decide (r.index = n)).foldl
        (fun s r => s.objEvent r (s.ctx n).partition 0xFFFF 0xFFFFFFFF 0 0) s

/-- A unit acknowledges the stop of a queue's command (R274). -/
def stopAck (s : State) (q : QueueId) (unit : Nat) : State :=
  (s.updQueue q fun k => { k with stopWait := k.stopWait.filter (· ≠ unit) }).stopDone q

/-- An INVAL of a queue that has been stopped is waited for no more: its messages and what the dies note of it are dropped
(R297). -/
def dropInval (s : State) (q : QueueId) : State :=
  let mine := fun m : Msg =>
    match m with
    | .inval x _ _ _ => decide (x = q.key)
    | .invalAck x _ => decide (x = q.key)
    | _ => false
  { s with
    msgs := s.msgs.filter fun _ m => !mine m.2.2
    dies := s.dies.mapVals fun k => { k with invals := k.invals.filter fun e => decide (e.1 ≠ q.key) } }

/-- The executing command of a queue is stopped: a WAIT, an INVAL, an access that is stalled, a signal that has not been sent
and one whose event record is stalled end at once; every core of a launch that has not ended is told to stop; a signal on its
way, and the responses to the command processor, are waited for (R266, R274, R295, R297). A stop that has begun already goes
on as it is. DEDUCED, log entry 33. -/
def beginStop (s : State) (q : QueueId) : State :=
  let k := s.queue q
  if k.stopping.isSome then s.stopDone q
  else
    let cores := (s.cores.entries.filter fun e =>
      decide (e.2.part = some q.key) && decide (e.2.run ≠ .idle) && !e.2.stopAcked).map (·.1)
    let idle := fun f : FenceSig => decide (f.queue = q.key) && f.exec &&
      ((f.pa.isNone && f.result.isNone) || f.ev.any fun e => s.transHeld q.die (.event e))
    let gone := (s.fences.entries.filter fun e => idle e.2).map (·.1)
    let units := match k.wait with
      | .launch => cores
      | .fence => if gone.isEmpty then [cpUnit] else []
      | _ => if s.cpOut q.key then [cpUnit] else []
    let s := s.setQueue q { k with
      stopping := some (s.die q.die).ticks
      stopWait := units
      timed := false
      wait := (match k.wait with
        | .cond => .none
        | .fault _ => .none
        | .fence => if gone.isEmpty then .fence else .none
        | .inval _ => .none
        | w => w) }
    let s := s.withdraw q.die fun o =>
      match o with
      | .command x => decide (x = q.key)
      | .fence n => gone.contains n
      | _ => false
    let s := s.dropEvents q.die fun x => s.fences.entries.any fun e => gone.contains e.1 && decide (e.2.ev = some x.1)
    let s := { s with fences := s.fences.filter fun n _ => !gone.contains n }
    let s := (s.dropInval q).retryEvents
    let dies := if k.wait = .launch then ((s.launches.find? q.key).map (·.dies)).getD [] else []
    (dies.foldl (fun s d => s.sendMsg q.die (dieOf d) (.stop q.key)) s).stopDone q

/-- A request of the command processor has been answered: with its last one, it acknowledges a stop that waits for it (R274). -/
def cpAnswered (s : State) (q : QueueId) : State :=
  let k := s.queue q
  if k.stopping.isSome && k.stopWait.contains cpUnit && decide (k.wait ≠ .fence) && !s.cpOut q.key then s.stopAck q cpUnit else s

/-- A queue being destroyed walks its commands after the executing one, and then stops that one (R248, R274 steps 2 and 3). -/
def destroyWalk (s : State) (q : QueueId) : State :=
  let k := s.queue q
  let st : W32 := if (s.ctx k.ctx).st = .lost then (s.ctx k.ctx).lossStatus else 3
  if s.transHeld q.die (.accept q.key) || !s.cpRuns q.die then s
  else
  match s.walkRing q st ((k.fill.toNat - k.walkPos) / 32 + 1) with
  | (s, true) => (s.updQueue q fun k => { k with walkPos := k.fill.toNat }).beginStop q
  | (s, false) => s

end State

end Sys2Proof.Machine
end

