-- ==== Sys2Proof/Machine/Sched.lean ====
section
/-!
DEFINITION. The scheduler: resident slots, the turn of a launch, placement, YPEND, the start of parts, preemption and
resumption (R109, R110, R143, R148, R268 to R271, R299, R300, R347, R348, R352, R371).
-/
namespace Sys2Proof.Machine

/-- The element of a list with the least key; the first among equals. -/
def leastBy {α : Type} (key : α → Nat) : List α → Option α
  | [] => none
  | x :: xs =>
    match leastBy key xs with
    | some y => if key y < key x then some y else some x
    | none => some x

/-- The activity of a context on a die (R267). -/
inductive CtxAct where
  | idle | blocked | busy
  deriving DecidableEq, Repr

/-- Counts that the command of a queue has run (R266). -/
def Queue.elapsed (k : Queue) (now : Nat) : Nat := k.timer + (if k.timed then now - k.timerAt else 0)

namespace State

/-- The activity of a context on a die, by its queues homed there (R267). -/
def ctxAct (s : State) (d : DieId) (ctx : Nat) : CtxAct :=
  let acts := ((s.ctxQueues ctx).filter fun q => decide (q.die = d)).map fun q => (s.queue q).act
  if acts.any fun a => decide (a = .running) || decide (a = .ready) || decide (a = .stopping) then .busy
  else if acts.contains .waiting then .blocked else .idle

/-- Slots of a partition on a die. -/
def slotsHeld (s : State) (d : DieId) (p : Nat) : Nat := (s.die d).slots.countP fun x => decide ((s.ctx x.ctx).partition = p)

/-- A launch part of a context is placed on a die. -/
def partOn (s : State) (d : DieId) (ctx : Nat) : Bool := (s.die d).parts.any fun x => decide (x.ctx = ctx)

/-- The context whose request for a slot of a die is served next: the safety-class partition's, then that of the partition
furthest below SLOT_MIN, then the oldest (R268). -/
def slotTurn (s : State) (d : DieId) : Option Nat :=
  let w := (s.die d).slotWait
  match w.find? fun c => s.partSafety (s.ctx c).partition with
  | some c => some c
  | none =>
    leastBy (fun c => 48 - (s.slotMin (s.ctx c).partition - s.slotsHeld d (s.ctx c).partition)) w

/-- The slot that is given up for a context: among the contexts with no launch part on the die, IDLE before BLOCKED, the
least recently run first, with contexts of partitions at their SLOT_MIN set aside (R268). -/
def victim (s : State) (d : DieId) (ctx : Nat) : Option Slot :=
  let cands := (s.die d).slots.filter fun x => !s.partOn d x.ctx && decide (s.ctxAct d x.ctx ≠ .busy)
  let p := (s.ctx ctx).partition
  let open' := cands.filter fun x =>
    decide ((s.ctx x.ctx).partition = p) || decide (s.slotMin (s.ctx x.ctx).partition < s.slotsHeld d (s.ctx x.ctx).partition)
  let pool := if open'.isEmpty then cands else open'
  let key := fun x : Slot => x.lastRun * 16384 + x.ctx
  match leastBy key (pool.filter fun x => decide (s.ctxAct d x.ctx = .idle)) with
  | some x => some x
  | none => leastBy key pool

/-- A context gives up its slot on a die; with none left, a RESIDENT context is READY (R236, R268). -/
def dropSlot (s : State) (d : DieId) (ctx : Nat) : State :=
  let k := s.die d
  let s := s.setDie d { k with slots := k.slots.filter fun x => decide (x.ctx ≠ ctx) }
  let c := s.ctx ctx
  if c.st = .resident ∧ (s.allDies.all fun e => (s.slotOf e ctx).isNone) then s.putCtx ctx { c with st := .ready } else s

/-- The read of a context's segment block by a die, for its slot or for an invalidation; a load is sent without waiting at each
Cuff (R280, R299). -/
def readSegs (s : State) (d : DieId) (ctx why : Nat) : State × BusRes :=
  let p := (s.ctx ctx).partition
  let a := rootTable ((s.die d).roots.get 0 p) + 256 * ctx
  s.busRead d (.segs ctx why) p ctx a a 256 noRange true

/-- A context's segment block, where its partition has one, is read; true when it has been. -/
def segsRead (s : State) (d : DieId) (ctx why : Nat) : State × Bool :=
  if rootMode ((s.die d).roots.get 0 (s.ctx ctx).partition) ≠ 2 then (s, true)
  else
    match s.readSegs d ctx why with
    | (t, .wait) => (t, false)
    | (t, _) => (t, true)

/-- The Kindling segment block of a context that holds a slot on a die is read and checked; the range buffers keep no segment
of the block before (R299 to R301). -/
def loadSegs (s : State) (d : DieId) (ctx why : Nat) : State :=
  let root := (s.die d).roots.get 0 (s.ctx ctx).partition
  if rootMode root ≠ 2 ∨ (s.slotOf d ctx).isNone then s
  else
    match s.readSegs d ctx why with
    | (t, .wait) => t
    | (t, .error _) =>
      let a := rootTable root + 256 * ctx
      (t.busDone d (.segs ctx why)).lose d ctx 0x1307 1 (.outside 0x1307 a)
    | (t, .ok blk) =>
      let t := t.busDone d (.segs ctx why)
      match segBad blk with
      | some i => t.lose d ctx 0x1403 1 (.outside 0x1403 i)
      | none =>
        let k := t.die d
        t.setDie d { k with
          slots := k.slots.map fun x => if x.ctx = ctx then { x with segs := blk } else x
          bufs := k.bufs.mapVals fun l => l.filter fun e => decide (e.seg ≠ some ctx) }

/-- RESIDENT_SLOT_TAKE: the context whose turn it is takes a slot, a victim giving one up where none is free; its segment
block is read with it (R268, R299). The scheduler of a die in reset gives none (R362). DESIGN CHOICE, log entry 2. -/
def slotTake (s : State) (d : DieId) (ctx : Nat) : State :=
  let c := s.ctx ctx
  let take := fun s : State =>
    let k := s.die d
    let s := s.setDie d { k with
      slots := k.slots ++ [{ ctx := ctx, lastRun := k.lastRan.get 0 ctx }]
      slotWait := k.slotWait.filter (· ≠ ctx) }
    ((s.putCtx ctx { s.ctx ctx with st := .resident }).loadSegs d ctx 0)
  if !s.cpRuns d ∨ s.slotTurn d ≠ some ctx ∨ !(c.st = .ready ∨ c.st = .resident) then s
  else
    match s.segsRead d ctx 0 with
    | (t, false) => t
    | (t, true) =>
      if (t.die d).slots.length < 48 then take t
      else
        match t.victim d ctx with
        | none => t
        | some v => take (t.dropSlot d v.ctx)

/-- A store holds nothing of another partition and needs no clear (R181). DEDUCED, log entry 26. -/
def storeReady (x : Store) (last : Option Nat) (p : Nat) : Bool :=
  !x.clearDue && (last.isNone || decide (last = some p))

/-- A core that can be given to a launch of a partition: it and its engines are in service (R353). DEDUCED, log entry 10. -/
def coreFree (s : State) (p : Nat) (c : CoreId) : Bool :=
  let k := s.core c
  k.enabled && k.part.isNone && decide (k.run = .idle) && !s.coreInReset c && storeReady k.store k.lastPartition p

/-- The free cores of a cluster, in ascending physical order. -/
def freeCores (s : State) (p : Nat) (k : ClusterId) : List CoreId := (s.clusterCores k).filter (s.coreFree p)

/-- The cluster that a logical cluster of `n` cores takes on a die: of those that fit, the one left with the fewest free
cores, the lowest number among equals (R269). A cluster holds one logical cluster at a time, whose map store, counters and
arena it has (R143, R145, R177, R184). -/
def bestCluster (s : State) (d : DieId) (p n : Nat) : Option ClusterId :=
  let fit := (s.allClusters d).filter fun k =>
    let x := s.cluster k
    x.enabled && x.occupant.isNone && storeReady x.map x.lastPartition p && decide (n ≤ (s.freeCores p k).length)
  leastBy (fun k => (s.freeCores p k).length * 16 + k.cl.val) fit

/-- The range buffers of a core are emptied for a context of another partition (R284). -/
def emptyBufs (s : State) (c : CoreId) (p : Nat) : State :=
  if (s.core c).lastPartition = some p then s
  else
    let k := s.die c.die
    s.setDie c.die { k with bufs := (k.bufs.erase (c.key * 2)).erase (c.key * 2 + 1) }

/-- A core is given to a logical core of a launch; the CS_BYTES of one that starts are not known before its header is checked,
those of one that resumes are its own (R180). DEDUCED, log entry 15. -/
def giveCore (s : State) (q : Nat) (l : Launch) (x : LogCore) (run : CoreRun) (c : CoreId) : State :=
  (s.emptyBufs c l.partition).updCore c fun k => { k with
    part := some q
    run := run
    stall := .none
    lcore := x.lcore
    lcluster := x.lcl
    ldie := x.ldie
    ncores := lcDies l.cmd * lcClusters l.cmd * lcCores l.cmd
    image := BitVec.ofNat 64 (lcImage l.cmd)
    runB := x.runB
    csBytes := x.csBytes
    progAt := (s.die c.die).ticks
    ypend := false
    stopAsked := false
    stopAcked := false
    lastPartition := some l.partition
    lastLaunch := some q
    lastCtx := some l.ctx
    img := none }

/-- A physical cluster is given to a logical cluster at the start of a launch: its map store is undefined, or zero after
a clear, and its counters start anew (R144, R145, R177, R181). DEDUCED, log entry 15. -/
def giveCluster (s : State) (q : Nat) (l : Launch) (x : LogCluster) (k : ClusterId) : State :=
  let old := s.cluster k
  let f := s.draw
  let s := if old.lastPartition.isNone then s else f.2
  s.setCluster k { old with
    occupant := some (clusterKey q x.ldie x.lcl x.runB)
    map := if old.lastPartition.isNone then old.map else old.map.forget f.1
    halo := {}
    arrivals := {}
    holder := none
    allocs := []
    msStatic := lcStatic l.cmd
    lastPartition := some l.partition
    lastLaunch := some q
    lastCtx := some l.ctx
    img := none }

/-- Place the logical clusters of a part on a die, one after another; none when one does not fit (R143, R269, R371).
DESIGN CHOICE, log entry 22. -/
def placeClusters (s : State) (q : Nat) (l : Launch) (d : DieId) (run : CoreRun) : List LogCluster → Option (State × Launch)
  | [] => some (s, l)
  | x :: xs =>
    match s.bestCluster d l.partition (lcCores l.cmd) with
    | none => none
    | some k =>
      let free := s.freeCores l.partition k
      let mine := l.cores.filter fun y => decide (y.lcl = x.lcl) && (y.runB == x.runB)
      let pairs := mine.zip (if x.runB then free.reverse else free)
      let s := pairs.foldl (fun s e => s.giveCore q l e.1 run e.2) (s.giveCluster q l x k)
      let l := { l with
        clusters := l.clusters.map fun y => if y.lcl = x.lcl ∧ y.runB = x.runB then { y with at? := some k, last := some k } else y
        cores := l.cores.map fun y =>
          match pairs.find? fun e => decide (e.1 = y) with
          | some e => { y with at? := some e.2 }
          | none => y }
      s.placeClusters q l d run xs

/-- YPEND is set on every core of a launch on a die (R270, R271). DESIGN CHOICE, log entry 25. -/
def setYpend (s : State) (q : Nat) (d : DieId) : State :=
  (s.launchCores q d).foldl (fun s c => s.updCore c fun k => if k.run = .idle then k else { k with ypend := true }) s

/-- A class 1 or class 2 launch cannot be placed: YPEND is set on the launches of the partition that is most over its
share and has cores without YPEND (R270). DESIGN CHOICE, log entry 25. -/
def pressShares (s : State) (d : DieId) : State :=
  let lacks := fun q => (s.launchCores q d).any fun c => decide ((s.core c).run ≠ .idle) && !(s.core c).ypend
  let ls := fun x => (s.launches.entries.filter fun e => decide (e.2.partition = x) && lacks e.1).map (·.1)
  let excess := (List.range 16).filter fun x => s.overShare d x && !(ls x).isEmpty
  match leastBy (fun x => 1024 - (16 * s.coresHeld d x - s.coreShare x * s.coresEnabled d)) excess with
  | none => s
  | some x => (ls x).foldl (fun s q => s.setYpend q d) s

/-- The scheduler of a die accepts launches (R11, R308, R353, R476). -/
def schedOpen (s : State) (d : DieId) : Bool :=
  let k := s.die d
  !k.computeReset && !k.awaitPlan && s.reaches d 0 && (decide (k.stage = .hostInit) || decide (k.stage = .ready))

/-- The release of a launch's cores gives the home die a sample: the counts from the doorbell write that moved the fill mark past
the command (R447). Of a multi-die launch the first part that starts gives it. DEDUCED, log entry 56. -/
def startSample (s : State) (q : Nat) : State :=
  let d := (queueOf q).die
  match s.launches.find? q with
  | none => s
  | some l =>
    match (s.queue (queueOf q)).bells.find? fun b => decide (l.pos < b.1.toNat) with
    | some b =>
      if l.sampled then s
      else (s.setLaunch q { l with sampled := true }).hmEvent d 1 (fun n => decide (n = l.partition) || decide (n = 0x1F))
        (sampleOf (s.since d b.2))
    | none => s

/-- The placement of a whole part on a die, if it can be made (R269). -/
def tryPlace (s : State) (q : Nat) (d : DieId) : Option State :=
  match s.launches.find? q with
  | none => none
  | some l =>
    match l.ldieOf d with
    | none => none
    | some i =>
      let late := match l.count with
        | some n => decide (n < (s.die d).count)
        | none => false
      let now := l.count.isNone || late
      match s.placeClusters q l d (if now then .header else .waiting) (l.clusters.filter fun x => decide (x.ldie = i)) with
      | none => none
      | some (t, l) =>
        let t := t.setLaunch q { l with
          parts := l.parts.put i (if now then .started else .placed)
          placedAt := l.placedAt.put i (t.die d).ticks }
        let k := t.die d
        let e : PartEntry := { queue := q, home := (queueOf q).die.val, ctx := l.ctx, ldie := i,
                               clusters := ((l.clusters.filter fun x => decide (x.ldie = i)).filterMap (·.at?)).map (·.cl.val),
                               cores := ((l.cores.filter fun x => decide (x.ldie = i)).filterMap (·.at?)).map (·.key) }
        let t := t.setDie d { k with parts := k.parts ++ [e], late := if late then satInc k.late else k.late }
        let t := if now then t.startSample q else t
        some ((t.served d q l.partition).updQueue (queueOf q) fun x => x.timerRun (t.die (queueOf q).die).ticks)

/-- LAUNCH_COUNT_REACHED: the part's cores are released (R348). -/
def countReached (s : State) (q : Nat) (d : DieId) : State :=
  match s.launches.find? q with
  | none => s
  | some l =>
    match l.ldieOf d, l.count with
    | some i, some n =>
      if l.parts.find? i ≠ some .placed ∨ (s.die d).count < n then s
      else
        let s := (s.setLaunch q { l with parts := l.parts.put i .started }).startSample q
        (s.launchCores q d).foldl (fun s c => s.updCore c fun k =>
          if k.run = .waiting then { k with run := .header, progAt := (s.die d).ticks } else k) s
    | _, _ => s

/-- A core stands at a YIELD whose waits are over with YPEND set, and, in a paired run, has passed its comparison
(R109, R374). -/
def atPreemption (s : State) (c : CoreId) : Bool :=
  let k := s.core c
  decide (k.run = .running) && decide (k.stall = .yield) && k.ypend && s.quiesced c && (!s.isPaired c || k.pairPassed)

/-- A core is released at its preemption point: its state stays in the core until the image is written (R109, R183). -/
def release (s : State) (c : CoreId) : State :=
  let k := s.core c
  match k.part.bind fun q => (s.launches.find? q).map fun l => (q, l) with
  | none => s
  | some (q, l) =>
    let off := fun x : LogCore => { x with
      preempted := true
      at? := none
      keptAt := some c
      codeOff := k.codeOff
      codeWords := k.codeWords
      csBytes := k.csBytes }
    let l : Launch := { l with cores := l.cores.map fun x => if x.lcore = k.lcore ∧ x.runB = k.runB then off x else x }
    let l := l.vacate k.lcluster k.runB
    let s := (s.setLaunch q l).releaseGrant c
    let s := s.updCore c fun k => { k with
      run := .idle
      stall := .none
      ypend := false
      pairPassed := false
      v := {}
      seq := { k.seq with pc := k.seq.pc + 1 }
      twin := { k.twin with pc := k.twin.pc + 1 } }
    (s.pauseTimer q l).holdCores c.die

/-- PREEMPTION: a core, with the core of the other run of a pair (R109, R271, R371). DESIGN CHOICE, log entry 24. -/
def preempt (s : State) (c : CoreId) : State :=
  if !s.atPreemption c then s
  else
    match s.isPaired c, s.partner c with
    | true, some b => if s.atPreemption b then (s.release c).release b else s
    | _, _ => s.release c

/-- The clusters that a logical cluster whose cores are all preempted may take, in the order of R269: the one whose
generators hold its claims, and only that; else the one it left; else the best. -/
def homeCluster (s : State) (q : Nat) (l : Launch) (x : LogCluster) (d : DieId) : Option ClusterId :=
  let own := clusterKey q x.ldie x.lcl x.runB
  let n := lcCores l.cmd
  let kept := fun k : ClusterId => l.cores.countP fun y =>
    decide (y.lcl = x.lcl) && (y.runB == x.runB) && decide (y.keptAt.map CoreId.cluster = some k)
  let fits := fun k : ClusterId =>
    let c := s.cluster k
    c.enabled && (decide (c.occupant = some own) || (c.occupant.isNone && storeReady c.map c.lastPartition l.partition)) &&
      decide (n ≤ (s.freeCores l.partition k).length + kept k)
  match x.last.bind fun k => if (s.cluster k).gens.values.any (fun g => decide (g.claim = some own)) then some k else none with
  | some k => if fits k then some k else none
  | none =>
    match x.last.bind fun k => if fits k then some k else none with
    | some k => some k
    | none => s.bestCluster d l.partition n

/-- A preempted logical core is put on a physical core: at once when the core still holds its state and the cluster its
map store; otherwise it waits for its images (R110, R183, R184). -/
def resumeOn (s : State) (q : Nat) (l : Launch) (x : LogCore) (c : CoreId) : State :=
  let lc := (l.clusters.find? fun y => decide (y.lcl = x.lcl) && (y.runB == x.runB)).getD { ldie := x.ldie, lcl := x.lcl }
  let own := clusterKey q x.ldie x.lcl x.runB
  let s :=
    if (s.cluster c.cluster).occupant ≠ some own then s.giveCluster q l lc c.cluster
    else if lc.saved then s else s.dropImage (.map c.cluster)
  let keeps := decide (x.keptAt = some c)
  let s := if keeps then s.dropImage (.core c) else s.giveCore q l x .waiting c
  let ready := keeps && !lc.saved
  let now := (s.die c.die).ticks
  let l := { l with
    clusters := l.clusters.map fun y => if y.lcl = x.lcl ∧ y.runB = x.runB then { y with at? := some c.cluster, last := some c.cluster } else y
    cores := l.cores.map fun y => if y = x then { y with at? := some c, preempted := !ready, keptAt := none } else y
    placedAt := l.placedAt.put x.ldie now }
  let s := (s.setLaunch q l).updCore c fun k => { k with
    progAt := now
    run := if ready then .running else .waiting
    grantReq := decide (k.phase = .load) }
  s.updQueue (queueOf q) fun k => k.timerRun (s.die (queueOf q).die).ticks

/-- Where a preempted logical core may resume: the cluster of the rest of its logical cluster, or a new one (R269). -/
def resumeCluster (s : State) (q : Nat) (l : Launch) (x : LogCore) (d : DieId) : Option ClusterId :=
  match l.clusters.find? fun y => decide (y.lcl = x.lcl) && (y.runB == x.runB) with
  | none => none
  | some lc => lc.at?.orElse fun _ => s.homeCluster q l lc d

/-- A core can take a preempted logical core: it holds its state, or it is free and no core holds it (R183, R269).
DESIGN CHOICE, log entry 24. -/
def canTakeBack (s : State) (l : Launch) (x : LogCore) (c : CoreId) : Bool :=
  match x.keptAt with
  | some k => decide (k = c)
  | none => s.coreFree l.partition c

/-- A launch that waits for cores of a die can have some now: its part can be placed, or a core of it can resume; one that may
only return to the cluster of its claims counts as one that cannot be placed until that has room (R269). -/
def canGo (s : State) (q : Nat) (d : DieId) : Bool :=
  match s.launches.find? q with
  | none => false
  | some l =>
    match l.ldieOf d with
    | none => false
    | some i =>
      if l.parts.find? i = some .pending then (s.tryPlace q d).isSome
      else
        l.cores.any fun x => decide (x.ldie = i) && x.preempted && x.at?.isNone &&
          match s.resumeCluster q l x d with
          | none => false
          | some k => (s.clusterCores k).any fun c => s.canTakeBack l x c

/-- LAUNCH_PLACEMENT: a part that waits is placed when its turn has come. Where the launch at its turn, placed before or not,
is of class 1 or 2 and can have no cores, the partitions over their share are pressed (R269, R270). -/
def placeLaunch (s : State) (q : Nat) (d : DieId) : State :=
  let s := s.saveTake q
  match s.launches.find? q, s.turn d with
  | some l, some (q', high) =>
    if (s.slotOf d l.ctx).isNone then s.askSlot d l.ctx
    else if q' ≠ q ∨ !s.schedOpen d then s
    else if high && !s.canGo q d then s.pressShares d
    else if ((l.ldieOf d).bind l.parts.find?) ≠ some .pending then s
    else (s.tryPlace q d).getD s
  | _, _ => s

/-- SLICE_EXPIRY: a launch has held cores for its slice, and another queue of its partition has a launch that cannot be
placed, or cannot resume (R269, R271). -/
def sliceEnd (s : State) (q : Nat) (d : DieId) : State :=
  match s.launches.find? q with
  | none => s
  | some l =>
    match (l.ldieOf d).bind l.placedAt.find? with
    | none => s
    | some t =>
      let waits := (s.waitingOn d).any fun e => decide (e.2.partition = l.partition) && decide (e.1 ≠ q) && !s.canGo e.1 d
      if s.since d t < s.sliceOf l.partition ∨ !waits then s else s.setYpend q d

/-- CORE_RESUME: a preempted logical core resumes on a core, with the core of the other run of a pair (R110, R269, R371). -/
def resume (s : State) (c : CoreId) (q : Nat) (lcore : Nat) : State :=
  match s.launches.find? q with
  | none => s
  | some l =>
    let waits := fun b => l.cores.find? fun x => decide (x.lcore = lcore) && x.preempted && x.at?.isNone && (x.runB == b)
    match waits false with
    | none => s
    | some x =>
      let turnOk := match s.turn c.die with
        | some (q', _) => decide (q' = q)
        | none => false
      if !turnOk ∨ !s.schedOpen c.die ∨ (s.slotOf c.die l.ctx).isNone ∨ s.resumeCluster q l x c.die ≠ some c.cluster ∨
          !s.canTakeBack l x c then s
      else
        let t := (s.resumeOn q l x c).served c.die q l.partition
        match l.cores.any (·.runB), t.launches.find? q with
        | true, some l' =>
          match l'.cores.find? fun y => decide (y.lcore = lcore) && y.preempted && y.at?.isNone && y.runB with
          | none => s
          | some y =>
            match t.resumeCluster q l' y c.die with
            | none => s
            | some k =>
              match y.keptAt.orElse fun _ => (t.freeCores l'.partition k).reverse.head? with
              | some b => t.resumeOn q l' y b
              | none => s
        | _, _ => t

end State

/-- RESIDENT_SLOT_TAKE (R268). -/
def execResidentSlotTake (d : DieId) (ctx : BitVec 14) (s : State) : Host.Outcome State Fault Refusal :=
  onDie s d (s.slotTake d ctx.toNat)
/-- SEGMENT_BLOCK_LOAD (R299). -/
def execSegmentBlockLoad (d : DieId) (ctx : BitVec 14) (s : State) : Host.Outcome State Fault Refusal :=
  onDie s d (s.loadSegs d ctx.toNat 0)
/-- LAUNCH_PLACEMENT (R269). -/
def execLaunchPlacement (q : QueueId) (d : DieId) (s : State) : Host.Outcome State Fault Refusal :=
  onDie s d (s.placeLaunch q.key d)
/-- SLICE_EXPIRY (R271). -/
def execSliceExpiry (q : QueueId) (d : DieId) (s : State) : Host.Outcome State Fault Refusal :=
  onDie s d (s.sliceEnd q.key d)
/-- LAUNCH_COUNT_REACHED (R348). -/
def execLaunchCountReached (q : QueueId) (d : DieId) (s : State) : Host.Outcome State Fault Refusal :=
  onDie s d (s.countReached q.key d)
/-- PREEMPTION (R109). -/
def execPreemption (c : CoreId) (s : State) : Host.Outcome State Fault Refusal := onCore s c (s.preempt c)
/-- CORE_RESUME (R110). -/
def execCoreResume (c : CoreId) (q : QueueId) (lcore : Nat) (s : State) : Host.Outcome State Fault Refusal :=
  onCore s c (s.resume c q.key lcore)

end Sys2Proof.Machine
end

