-- ==== Sys2Proof/Machine/Objects.lean ====
section
/-!
DEFINITION. Object requests: contexts, queues, memory objects and semaphores (R232 to R242, R247 to R250, R274, R489).
-/
namespace Sys2Proof.Machine

/-- The bytes of a list with the covered bytes of a word put at an offset. -/
def putCovered (bs : List Byte) (off : Nat) (v mask : W64) : List Byte :=
  bs.mapIdx fun i (b : Byte) =>
    if off ≤ i ∧ i < off + 8 then
      let lo := 8 * (i - off)
      if bitAt mask.toNat lo then BitVec.ofNat 8 (v.toNat >>> lo) else b
    else b

/-- The request that the request block holds (Table 12-1). -/
def reqOfBlock (b : List Byte) : ObjReq :=
  { op := fieldAt b 0 1, tag := fieldAt b 2 2, index := fieldAt b 4 4, arg0 := BitVec.ofNat 64 (fieldAt b 8 8),
    rsvOk := decide (fieldAt b 1 1 = 0) && decide (fieldAt b 0x10 16 = 0) }

/-- The object that a request names: the kind of its table, and its index; SEM_CREATE names none (R234). -/
def ObjReq.names (r : ObjReq) : Option (Nat × Nat) :=
  if inRange r.op 1 3 then some (0, r.index)
  else if inRange r.op 4 5 then some (1, r.index)
  else if inRange r.op 6 7 then some (2, r.index)
  else if r.op = 9 then some (3, field r.arg0.toNat 11 0)
  else none

/-- Result codes of an OBJECT record (R234). -/
def objDone : Nat := 0
def objInvalid : Nat := 1
def objBusy : Nat := 2
def objNoRoom : Nat := 3

namespace State

/-- A request that ends at once: its record goes to a partition's ring 0, or to partition 0's where the partition is not
enabled (R234). -/
def objEnd (s : State) (r : ObjReq) (p ctx queue result : Nat) (v : W64 := 0) : State :=
  s.objEvent r (if s.partEnabled p then p else 0) ctx queue result v

/-- The partition of a context, a queue's context and a memory object, of one that is FREE from its table entry; 0 where it
cannot be read (R234). -/
def ctxPart (s : State) (n : Nat) : Nat :=
  if 16384 ≤ n then 0 else if (s.ctx n).st = .free then fieldAt (s.readBytes (s.ctxEntry n) 2) 0 2 else (s.ctx n).partition
def queueCtx (s : State) (q : QueueId) : Nat :=
  if (s.queue q).st = .free then fieldAt (s.readBytes (s.queueEntry q) 2) 0 2 else (s.queue q).ctx
def moPart (s : State) (h : Nat) : Nat :=
  if (s.mo h).st = .free then fieldAt (s.readBytes (s.moEntry h) 6) 4 2 else (s.mo h).partition

/-- CTX_CREATE (R235, R236, Table 12-2). -/
def ctxCreate (s : State) (r : ObjReq) : State :=
  let n := r.index
  if 16384 ≤ n then s.objEvent r 0 0xFFFF 0xFFFFFFFF objInvalid 0
  else
    let e := s.readBytes (s.ctxEntry n) 128
    let p := fieldAt e 0 2
    let heap := fieldAt e 4 4
    let fin := fun (t : State) res => t.objEnd r p 0xFFFF 0xFFFFFFFF res
    if (s.ctx n).st ≠ .free then s.objEnd r (s.ctx n).partition 0xFFFF 0xFFFFFFFF objBusy
    else if r.arg0 ≠ 0 ∨ !r.rsvOk ∨ !s.partEnabled p ∨ fieldAt e 8 8 % 2048 ≠ 0 ∨ fieldAt e 0x10 8 % 2048 ≠ 0 ∨
        fieldAt e 0x40 64 ≠ 0 then fin s objInvalid
    else if heap ≠ 0xFFFFFFFF ∧ !(decide ((s.mo heap).st = .live) && (s.mo heap).isHeap && decide ((s.mo heap).partition = p)) then
      fin s objInvalid
    else
      fin (s.putCtx n { st := .ready, partition := p, evring := fieldAt e 3 1, heap := heap,
                        saveBase := BitVec.ofNat 64 (fieldAt e 8 8), saveSize := BitVec.ofNat 64 (fieldAt e 0x10 8) }) objDone

/-- CTX_ABORT: the context becomes LOST with class 2, and the request ends with the loss procedure (R247). -/
def ctxAbort (s : State) (r : ObjReq) : State :=
  let n := r.index
  let c := s.ctx n
  if 16384 ≤ n then s.objEvent r 0 0xFFFF 0xFFFFFFFF objInvalid 0
  else
    let p := s.ctxPart n
    let fin := fun (t : State) res => t.objEnd r p 0xFFFF 0xFFFFFFFF res
    if c.st = .free then fin s objBusy
    else if r.arg0 ≠ 0 ∨ !r.rsvOk then fin s objInvalid
    else if c.st = .lost then fin s objDone
    else s.lose (s.ctxHome n) n 0 2 {}

/-- CTX_DESTROY: the context gives up its slots, the units it used are cleared, and it is FREE (R181, R236). -/
def ctxDestroy (s : State) (r : ObjReq) : State :=
  let n := r.index
  let c := s.ctx n
  if 16384 ≤ n then s.objEvent r 0 0xFFFF 0xFFFFFFFF objInvalid 0
  else
    let p := s.ctxPart n
    let fin := fun (t : State) res => t.objEnd r p 0xFFFF 0xFFFFFFFF res
    if c.st = .free ∨ !(s.ctxQueues n).isEmpty then fin s objBusy
    else if r.arg0 ≠ 0 ∨ !r.rsvOk then fin s objInvalid
    else
      let s := s.allDies.foldl (fun s d => s.dropSlot d n) s
      let mine := fun l : Option Nat => decide (l = some n)
      let s := { s with
        cores := s.cores.mapVals fun k =>
          if !mine k.lastCtx then k
          else if k.store.clearDue then { k with store := k.store.clear, lastPartition := none, lastCtx := none }
          else { k with lastCtx := none }
        clusters := s.clusters.mapVals fun k =>
          if !mine k.lastCtx then k
          else if k.map.clearDue then { k with map := k.map.clear, lastPartition := none, lastCtx := none }
          else { k with lastCtx := none }
        dies := s.dies.mapVals fun k => { k with
          slotWait := k.slotWait.filter (· ≠ n)
          bus := k.bus.filter fun b => (match b.owner with | .segs c _ => decide (c ≠ n) | _ => true)
          lastRan := k.lastRan.erase n } }
      fin (s.putCtx n {}) objDone

/-- Q_CREATE (R238, Table 12-2). -/
def qCreate (s : State) (r : ObjReq) : State :=
  let q := queueOf r.index
  if s.build.dies * 65536 ≤ r.index then s.objEvent r 0 0xFFFF r.index objInvalid 0
  else
    let e := s.readBytes (s.queueEntry q) 64
    let n := fieldAt e 0 2
    let c := s.ctx n
    let log2 := fieldAt e 3 1
    let p := s.ctxPart n
    let fin := fun (t : State) res => t.objEnd r p n r.index res
    if (s.queue q).st ≠ .free then s.objEnd r (s.queuePart q) (s.queue q).ctx r.index objBusy
    else if r.arg0 ≠ 0 ∨ !r.rsvOk ∨ 16384 ≤ n ∨ !(c.st = .ready ∨ c.st = .resident) then fin s objInvalid
    else if !inRange log2 12 24 ∨ 64 < fieldAt e 4 2 ∨ fieldAt e 6 2 ≠ 0 ∨ fieldAt e 8 8 % 2 ^ log2 ≠ 0 ∨ fieldAt e 0x14 4 ≠ 0 ∨
        fieldAt e 0x28 24 ≠ 0 then fin s objInvalid
    else
      fin (s.putQueue q { st := .opened, ctx := n, ringLog2 := log2,
                          outLimit := if fieldAt e 4 2 = 0 then 32768 else 512 * fieldAt e 4 2,
                          ringBase := BitVec.ofNat 64 (fieldAt e 8 8), timeout := BitVec.ofNat 32 (fieldAt e 0x10 4) }) objDone

/-- Q_DESTROY: the queue is DESTROYING, its commands after the executing one are walked, and the executing one is stopped
(R248, R274). -/
def qDestroy (s : State) (r : ObjReq) : State :=
  let q := queueOf r.index
  let k := s.queue q
  if s.build.dies * 65536 ≤ r.index then s.objEvent r 0 0xFFFF r.index objInvalid 0
  else
    let n := s.queueCtx q
    let p := s.ctxPart n
    let fin := fun (t : State) res => t.objEnd r p n r.index res
    if k.st = .free then fin s objBusy
    else if r.arg0 ≠ 0 ∨ !r.rsvOk then fin s objInvalid
    else if k.st = .destroying then fin s objBusy
    else
      let at' := if k.executing then (match k.accepted with | a :: _ => a.pos + a.bytes.length | [] => k.doneptr.toNat)
        else k.doneptr.toNat
      let s := s.withdraw q.die fun o => decide (o = .accept q.key ∨ o = .pin q.key)
      let s := s.putQueue q { k with st := .destroying, destroyTag := some r.tag, walkPos := at', walkSkip := 0 }
      s.destroyWalk q

/-- MO_REGISTER (R239, Table 12-2). -/
def moRegister (s : State) (r : ObjReq) : State :=
  let h := r.index
  if 1048576 ≤ h then s.objEvent r 0 0xFFFF 0xFFFFFFFF objInvalid 0
  else
    let e := s.readBytes (s.moEntry h) 64
    let p := fieldAt e 4 2
    let flags := fieldAt e 6 1
    let fin := fun (t : State) res => t.objEnd r p 0xFFFF 0xFFFFFFFF res
    if (s.mo h).st ≠ .free then s.objEnd r (s.mo h).partition 0xFFFF 0xFFFFFFFF objBusy
    else if r.arg0 ≠ 0 ∨ !r.rsvOk ∨ !s.partEnabled p ∨ 4 ≤ flags ∨ fieldAt e 8 8 % 16 ≠ 0 ∨
        fieldAt e 0x10 8 % 16 ≠ 0 ∨ !inRange (fieldAt e 0x10 8) 16 (2 ^ 48) ∨ fieldAt e 0x18 8 ≠ 0 then fin s objInvalid
    else
      fin (s.putMo h { st := .live, partition := p, isFence := bitAt flags 0, isHeap := bitAt flags 1,
                       base := BitVec.ofNat 64 (fieldAt e 8 8), length := BitVec.ofNat 64 (fieldAt e 0x10 8) }) objDone

/-- Every device reference of an object has been given back (R242). -/
def moUnused (s : State) (h : Nat) : Bool := (s.mo h).refs.entries.all fun e => decide (e.2 = 0)

/-- A RETIRING object with no device reference becomes FREE, and its MO_DESTROY completes (R242). -/
def moRetire (s : State) (h : Nat) : State :=
  let m := s.mo h
  if m.st ≠ .retiring ∨ !s.moUnused h then s
  else
    let s := s.putMo h {}
    match s.objHeld.find? fun r => decide (r.op = 7) && !r.waits && decide (r.index = h) with
    | some r => s.objEnd r m.partition 0xFFFF 0xFFFFFFFF objDone
    | none => s

/-- MO_DESTROY: a LIVE object without host references is RETIRING (R242). -/
def moDestroy (s : State) (r : ObjReq) : State :=
  let h := r.index
  let m := s.mo h
  if 1048576 ≤ h then s.objEvent r 0 0xFFFF 0xFFFFFFFF objInvalid 0
  else
    let p := s.moPart h
    let fin := fun (t : State) res => t.objEnd r p 0xFFFF 0xFFFFFFFF res
    if m.st ≠ .live ∨ fieldAt (s.readBytes (s.moEntry h) 4) 0 4 ≠ 0 then fin s objBusy
    else if r.arg0 ≠ 0 ∨ !r.rsvOk then fin s objInvalid
    else (s.putMo h { m with st := .retiring }).moRetire h

/-- SEM_CREATE: the lowest free index, with its next generation (R250). -/
def semCreate (s : State) (r : ObjReq) : State :=
  let x := r.arg0.toNat
  let p := field x 19 16
  let units := field x 15 0
  let fin := fun (t : State) res (v : W64) => t.objEnd r p 0xFFFF 0xFFFFFFFF res v
  if r.index ≠ 0 ∨ !r.rsvOk ∨ field x 63 20 ≠ 0 ∨ units = 0 ∨ !s.partEnabled p then fin s objInvalid 0
  else
    match (List.range 4096).find? fun i => !(s.sema i).used with
    | none => fin s objNoRoom 0
    | some i =>
      let gen := (s.sema i).gen + 1
      fin (s.setSema i { used := true, gen := gen, partition := p, units := units }) objDone
        (BitVec.ofNat 64 (place gen.toNat 16 + place p 12 + i))

/-- SEM_DESTROY (R250). -/
def semDestroy (s : State) (r : ObjReq) : State :=
  let x := r.arg0.toNat
  let i := field x 11 0
  let e := s.sema i
  let fin := fun (t : State) res => t.objEnd r (field x 15 12) 0xFFFF 0xFFFFFFFF res
  if r.index ≠ 0 ∨ !r.rsvOk ∨ field x 63 32 ≠ 0 ∨ !e.used ∨ e.gen.toNat ≠ field x 31 16 then fin s objInvalid
  else if !e.holders.isEmpty ∨ !e.waiters.isEmpty then fin s objBusy
  else fin (s.setSema i { gen := e.gen }) objDone

/-- A request with an OP that no operation has (R233, R234). -/
def objUnknown (s : State) (r : ObjReq) : State := s.objEvent r 0 0xFFFF 0xFFFFFFFF objInvalid 0

/-- A request of one operation is carried out. DESIGN CHOICE, log entry 61. -/
def objRun (s : State) (r : ObjReq) : State :=
  match r.op with
  | 1 => s.ctxCreate r
  | 2 => s.ctxAbort r
  | 3 => s.ctxDestroy r
  | 4 => s.qCreate r
  | 5 => s.qDestroy r
  | 6 => s.moRegister r
  | 7 => s.moDestroy r
  | 8 => s.semCreate r
  | 9 => s.semDestroy r
  | _ => s.objUnknown r

/-- The context whose loss a request meets: the one that it destroys, or that of the queue that it destroys (R236). -/
def lossOf (s : State) (r : ObjReq) : Option Nat :=
  if r.op = 3 then some r.index
  else if r.op = 5 ∧ r.index < s.build.dies * 65536 then some (s.queueCtx (queueOf r.index)) else none

/-- A held request may start: none on its object was submitted before it, and the loss of the context that it meets is over
(R234, R236). -/
def objReady (s : State) (before : List ObjReq) (r : ObjReq) : Bool :=
  !(r.names.isSome && before.any fun x => decide (x.names = r.names)) &&
    (s.lossOf r).all fun n => (s.ctx n).losing.isNone

/-- The losses of the contexts that waiting requests meet are taken on first (R236). -/
def objLosses (s : State) : State :=
  (s.objHeld.filter (·.waits)).foldl (fun s r => ((s.lossOf r).map s.lossStep).getD s) s

/-- The place of the first waiting request that may start. -/
def objFirst (s : State) : Option (Nat × ObjReq) :=
  (List.range s.objHeld.length).findSome? fun i =>
    match s.objHeld[i]? with
    | some r => if r.waits && s.objReady (s.objHeld.take i) r then some (i, r) else none
    | none => none

/-- Requests that wait start, the earliest first, at most `fuel` of them (R234). -/
def objNextN (s : State) : Nat → State
  | 0 => s
  | fuel + 1 =>
    let s := s.objLosses
    match s.objFirst with
    | none => s
    | some (i, r) =>
      let r := { r with waits := false }
      ({ s with objHeld := s.objHeld.set i r }.objRun r).objNextN fuel

/-- Requests that waited for others start; the block holds at most 64. DESIGN CHOICE, log entry 61. -/
def objNext (s : State) : State := if s.objHeld.any (·.waits) then s.objNextN 64 else s

/-- A walk of a queue's commands goes on, with an answer to a read of it, with the result of a signal, or after a stall (R247, R248,
R274). -/
def walkOn (s : State) (q : QueueId) : State :=
  let k := s.queue q
  let c := s.ctx k.ctx
  if k.st = .destroying then (s.destroyWalk q).objNext
  else if c.st = .lost then (if c.losing.isSome then (s.lossStep k.ctx).objNext else (s.walkLost q).1)
  else s

/-- A write of a word of the request block by the host driver: the covered bytes are stored; a write that covers byte 7
submits the request, of which 64 are held (R233, R234, R489). -/
def objWrite (s : State) (role strb : Byte) (off : Nat) (v : W64) : State :=
  s.driverWrite role strb fun m =>
    let s := { s with objReq := putCovered s.objReq off v m }
    if off ≠ 0 ∨ !bitAt m.toNat 63 then s
    else if 64 ≤ s.objHeld.length then { s with objOvf := true }
    else
      let r := reqOfBlock s.objReq
      { s with objHeld := s.objHeld ++ [{ r with waits := true }] }.objNext

/-- The row of an operation is offered the write of word 0 that submits it. DESIGN CHOICE, log entry 61. -/
def objRow (s : State) (op : Nat) (role strb : Byte) (v : W64) : State :=
  match strobes strb with
  | none => s.crownErr
  | some m =>
    let b := putCovered s.objReq 0 v m
    if bitAt m.toNat 63 && decide (fieldAt b 0 1 = op) then s.objWrite role strb 0 v else s

end State

/-- CTX_CREATE (R236). -/
def execCtxCreate (role strb : Byte) (v : W64) (s : State) : Host.Outcome State Fault Refusal := .next (s.objRow 1 role strb v)
/-- CTX_ABORT (R247). -/
def execCtxAbort (role strb : Byte) (v : W64) (s : State) : Host.Outcome State Fault Refusal := .next (s.objRow 2 role strb v)
/-- CTX_DESTROY (R236). -/
def execCtxDestroy (role strb : Byte) (v : W64) (s : State) : Host.Outcome State Fault Refusal := .next (s.objRow 3 role strb v)
/-- Q_CREATE (R238). -/
def execQCreate (role strb : Byte) (v : W64) (s : State) : Host.Outcome State Fault Refusal := .next (s.objRow 4 role strb v)
/-- Q_DESTROY (R274). -/
def execQDestroy (role strb : Byte) (v : W64) (s : State) : Host.Outcome State Fault Refusal := .next (s.objRow 5 role strb v)
/-- MO_REGISTER (R239). -/
def execMoRegister (role strb : Byte) (v : W64) (s : State) : Host.Outcome State Fault Refusal := .next (s.objRow 6 role strb v)
/-- MO_DESTROY (R242). -/
def execMoDestroy (role strb : Byte) (v : W64) (s : State) : Host.Outcome State Fault Refusal := .next (s.objRow 7 role strb v)
/-- MO_RETIRE_END (R242). -/
def execMoRetireEnd (handle : BitVec 20) (s : State) : Host.Outcome State Fault Refusal := .next (s.moRetire handle.toNat).objNext
/-- SEM_CREATE (R250). -/
def execSemCreate (role strb : Byte) (v : W64) (s : State) : Host.Outcome State Fault Refusal := .next (s.objRow 8 role strb v)
/-- SEM_DESTROY (R250). -/
def execSemDestroy (role strb : Byte) (v : W64) (s : State) : Host.Outcome State Fault Refusal := .next (s.objRow 9 role strb v)

end Sys2Proof.Machine
end

