-- ==== Sys2Proof/Machine/Commands.lean ====
section
/-!
DEFINITION. Doorbells, acceptance, the commands, the end of launches, multi-die launches, stops, and fence signals
(R14, R15, R19, R113, R245, R247, R255, R258 to R266, R274, R296, R321, R322, R347).
-/
namespace Sys2Proof.Machine

/-- The bytes of a distribution record without its CRC (Table 15-7). -/
def distHead (count : W64) (queue ctx ldie ldies : Nat) (dies : List Nat) (pos : Nat) (cmd : List Byte) : List Byte :=
  bytesLE 8 count.toNat ++ bytesLE 4 queue ++ bytesLE 2 ctx ++ bytesLE 1 ldie ++ bytesLE 1 ldies ++
    ((List.range 8).map fun i => BitVec.ofNat 8 (dies.getD i 0xFF)) ++ bytesLE 8 pos ++ cmd.take 64 ++ List.replicate 28 0

/-- A distribution record (Table 15-7). -/
def distRecord (count : W64) (queue ctx ldie ldies : Nat) (dies : List Nat) (pos : Nat) (cmd : List Byte) : List Byte :=
  let h := distHead count queue ctx ldie ldies dies pos cmd
  h ++ bytesLE 4 (crc32c h).toNat

namespace State

/-- A doorbell reaches the queue's home die (R248, R255, R268). -/
def doorbellAt (s : State) (q : QueueId) (wr : W64) : State :=
  let k := s.queue q
  let d := q.die
  if k.st ≠ .opened ∨ wr ≤ k.fill then s.setDie d { s.die d with dbIgnored := satInc (s.die d).dbIgnored }
  else if wr.toNat % 32 ≠ 0 ∨ k.doneptr.toNat + 2 ^ k.ringLog2 < wr.toNat then
    s.lose d k.ctx 0x1301 1 (.outside 0x1301 wr.toNat)
  else
    let s := s.setQueue q { k with
      fill := wr, bells := (k.bells.filter fun b => decide (k.doneptr < b.1)) ++ [(wr, (s.die d).ticks)] }
    let c := s.ctx k.ctx
    if c.st = .lost then (if c.losing.isSome then s else (s.walkLost q).1) else s.askSlot d k.ctx

/-- DOORBELL: a Crown write to the doorbell of a queue (R14, R255, R489, R493). -/
def doorbell (s : State) (role strb : Byte) (q : QueueId) (wr : W64) : State :=
  let k := s.queue q
  let allowed := match roleOf role with
    | some .driver => true
    | some (.partition p) => decide (k.st = .free) || decide (s.queuePart q = p.val)
    | _ => false
  if strb ≠ 0xFF ∨ !s.crownOpen ∨ !allowed ∨ !s.hasDie q.die then s.crownErr
  else if q.die = die0 then (s.doorbellAt q wr).crownOk
  else (s.sendMsg die0 q.die (.doorbell q.key wr)).crownOk

/-- DOORBELL_FORWARD: a forwarded doorbell reaches the home die (R14). -/
def doorbellForward (s : State) (m : Nat) : State :=
  match s.msgAt m with
  | some (_, _, .doorbell n wr) => (s.takeMsg m).doorbellAt (queueOf n) wr
  | _ => s

/-- SIGNAL: the home die's command processor checks the fence and has it signalled with STATUS 0 (R243, R245, R261). -/
def signalStart (s : State) (q : QueueId) (b : List Byte) : State :=
  let k := s.queue q
  let f : FenceSig := { va := BitVec.ofNat 64 (fieldAt b 8 8), value := BitVec.ofNat 64 (fieldAt b 0x10 8), status := 0,
                        ctx := k.ctx, queue := q.key, src := q.die.val }
  if !s.fenceOk (s.queuePart q) f.va.toNat then s.fenceLost f 0x1203
  else
    let n := s.fenceNext
    let s := s.updQueue q fun k => { k with wait := .fence }
    ({ s with fences := s.fences.put n f, fenceNext := n + 1 }).fenceSend n

/-- WAIT: the queue waits, and reads its value for the first time (R261, R263). -/
def waitStart (s : State) (q : QueueId) (_ : List Byte) : State := (s.updQueue q fun k => { k with wait := .cond }).waitRead q

/-- WAIT_REREAD: on the interval, or after a fence write (R263). -/
def waitAgain (s : State) (q : QueueId) : State :=
  let k := s.queue q
  let c := s.ctx k.ctx
  if !s.cpRuns q.die ∨ k.wait ≠ .cond ∨ k.stopping.isSome ∨ !(c.st = .ready ∨ c.st = .resident) ∨
      s.transHeld q.die (.command q.key) ∨ !(k.reread || s.busHas q.die (.command q.key) || decide (1 ≤ s.since q.die k.readAt)) then s
  else s.waitRead q

/-- TEST: the condition flag takes the comparison of one read (R261). -/
def testRun (s : State) (q : QueueId) (b : List Byte) : State :=
  s.cmdRead q (fieldAt b 8 8) (cmdWide b) fun t bs =>
    (t.updQueue q fun k => k.setFlag (cmdCfd b) (condHolds b (ofBytesLE bs))).cmdDone q 32

/-- WRITE and TIME, which writes the value that the counter has when its write is made (R261). -/
def writeRun (s : State) (q : QueueId) (b : List Byte) : State :=
  s.cmdWrite q (fieldAt b 8 8) (bytesLE (cmdWide b) (fieldAt b 0x10 8)) fun t => t.cmdDone q 32
def timeRun (s : State) (q : QueueId) (b : List Byte) : State :=
  let under := ((s.die q.die).bus.find? fun x => decide (x.owner = .command q.key)).map (·.data)
  s.cmdWrite q (fieldAt b 8 8) (under.getD (bytesLE 8 (s.die q.die).count.toNat)) fun t => t.cmdDone q 32

/-- CALL: the buffer, as acceptance read it, is executed from its first command, COUNT times (R261, R262). -/
def callRun (s : State) (q : QueueId) (b : List Byte) : State :=
  s.updQueue q fun k =>
    let bufs := (k.accepted.headD { pos := 0, bytes := [] }).bufs
    { k with frames := { bytes := readAs bufs (callBuf b), off := 0, left := cmdImm b - 1 } :: k.frames, cmd := [],
             timed := false }

/-- BREAK: the innermost CALL ends with its remaining iterations (R261). -/
def breakRun (s : State) (q : QueueId) (_ : List Byte) : State :=
  (s.updQueue q fun k => { k with frames := k.frames.drop 1 }).cmdDone q 32

/-- INVAL: the invalidation goes to every die of the package (R296). -/
def invalStart (s : State) (q : QueueId) (b : List Byte) : State :=
  let s := s.updQueue q fun k => { k with wait := .inval (s.allDies.map (·.val)) }
  s.allDies.foldl (fun s d => s.sendMsg q.die d (.inval q.key (s.queuePart q) (fieldAt b 8 8) (fieldAt b 0x10 8))) s

/-- COMMAND_TIMEOUT (R266). -/
def cmdTimeout (s : State) (q : QueueId) : State :=
  let k := s.queue q
  let running := decide (k.wait ≠ .none)
  if k.st ≠ .opened ∨ k.stopping.isSome ∨ k.timeout = 0 ∨ !running ∨ (s.ctx k.ctx).st = .lost ∨
      k.elapsed (s.die q.die).ticks < k.timeout.toNat then s
  else s.beginStop q

/-- The engines of a core that are busy. -/
def busyEngines (s : State) (c : CoreId) : List ResetUnit :=
  let k := s.core c
  ((k.arrs.entries.filter fun e => !e.2.run.isEmpty).map fun e => .array ⟨c, Fin.ofNat 4 e.1⟩) ++
    (if k.vecRun.isEmpty then [] else [.vector c]) ++ (if k.strRun.isEmpty then [] else [.stream c])

/-- DRAIN_EXPIRY: engines still busy 2,000 counts after the stop are reset; under Q_DESTROY that raises no fault, and the dump
has CAUSE 0 (R266, R274, R359, Table 18-3). DEDUCED, log entry 33. -/
def drainEnd (s : State) (q : QueueId) : State :=
  let k := s.queue q
  match k.stopping with
  | none => s
  | some t =>
    if k.drained ∨ s.since q.die t < 2000 then s
    else
      let s := s.setQueue q { k with drained := true }
      let cores := (s.cores.entries.filter fun e => decide (e.2.part = some q.key)).map fun e => coreOf e.1
      let code := if k.destroyTag.isSome then 0 else 0x1306
      (cores.flatMap s.busyEngines).foldl (fun s u => s.startLadder u code) s

/-- LAUNCH_COMPLETE: every part has ended, and the home die's command is complete (R19, R111, R261, R322). -/
def launchEnd (s : State) (q : QueueId) : State :=
  match s.launches.find? q.key with
  | none => s
  | some l =>
    let all := !l.dies.isEmpty && (List.range l.dies.length).all fun i => decide (l.parts.find? i = some .ended)
    if !all ∨ l.fault.isSome ∨ (s.queue q).stopping.isSome ∨ (s.ctx l.ctx).st = .lost then s
    else (s.endLaunch q.key false).cmdDone q (cmdLen l.cmd)

/-- A die may take part in a multi-die launch: die 0 reaches it, it is not held in reset, and it is ALIGNED, which die 0
always is (R321, R345, R359). -/
def dieQualifies (s : State) (d : DieId) : Bool :=
  s.reaches die0 d.val && s.cpRuns d && (decide (d = die0) || (s.die d).aligned)

/-- LAUNCH_TO_DIE_0: die 0 chooses the dies and the launch count, and sends a distribution record to each die
(R15, R321, R347). A command processor in reset takes no message (R362). -/
def chooseDies (s : State) (m : Nat) : State :=
  match s.msgAt m with
  | some (_, _, .launch q) =>
    if !s.cpRuns die0 then s
    else
    let s := s.takeMsg m
    match s.launches.find? q with
    | none => s
    | some l =>
      let ok := (s.affineDies l.cmd).filter fun d => s.dieQualifies d && s.dieFits l.cmd d
      let n := lcDies l.cmd
      if l.fault.isSome then s
      else if ok.length < n then s.failLaunch q (.outside 0x1303 l.pos) (s.die die0).count
      else
        let ds := (ok.take n).map (·.val)
        let count := (s.die die0).count + BitVec.ofNat 64 (s.objVal die0 0x2A20 0)
        let s := s.setLaunch q { l with dies := ds, count := some count }
        (List.range n).foldl (fun s i =>
          s.sendMsg die0 (dieOf (ds.getD i 0)) (.dist (distRecord count q l.ctx i n ds l.pos l.cmd))) s
  | _ => s

/-- DISTRIBUTION_RECORD: a die checks its record, translates the launch's windows, and its part waits for placement
(R158, R286, R321). -/
def takeRecord (s : State) (m : Nat) : State :=
  let old := s
  match s.msgAt m with
  | some (dst, _, .dist rec) =>
    let d := dieOf dst
    if !s.cpRuns d then s
    else
    let s := s.takeMsg m
    let q := fieldAt rec 8 4
    let i := fieldAt rec 0xE 1
    if (crc32c (rec.take 0x7C)).toNat ≠ fieldAt rec 0x7C 4 then
      s.sendMsg d (queueOf q).die (.partEnded q i (some (.outside 0x1504 d.val, (s.die d).count)))
    else
      match s.launches.find? q with
      | none => s
      | some l =>
        let ws := (sdtEntries l.sdt).filterMap descWindow
        match old.pinNeed d l.partition q ws with
        | some va => if old.transHeld d (.pin q) then old else old.startWalk d (.pin q) l.partition l.ctx va .read
        | none => ((s.setLaunch q { l with parts := l.parts.put i .pending }).pinAll d l.partition (q, l.pos) ws).askSlot d l.ctx
  | _ => s

/-- PART_ENDED: the home die records that a part has ended, or fails the launch (R20, R322). -/
def partEnded (s : State) (m : Nat) : State :=
  match s.msgAt m with
  | some (_, _, .partEnded q i none) => (s.takeMsg m).partOver q i
  | some (_, _, .partEnded q i (some (r, count))) =>
    let s := s.takeMsg m
    match s.launches.find? q with
    | none => s
    | some l => (s.setLaunch q { l with parts := l.parts.put i .failed }).failLaunch q r count
  | _ => s

/-- STOP: the cores of a launch on a die stop, and acknowledge once they are quiet; for one that has ended or left its core since
the command was stopped, the die acknowledges at once (R113, R266, R274, R363). DEDUCED, log entry 33. -/
def stopHere (s : State) (m : Nat) : State :=
  match s.msgAt m with
  | some (dst, _, .stop q) =>
    let s := s.takeMsg m
    let d := dieOf dst
    let works := fun c : CoreId => decide ((s.core c).part = some q) && decide ((s.core c).run ≠ .idle)
    let gone := (s.queue (queueOf q)).stopWait.filter fun c => decide (c ≠ cpUnit) && decide ((coreOf c).die = d) && !works (coreOf c)
    let s := gone.foldl (fun s c => s.sendMsg d (queueOf q).die (.stopAck q c)) s
    (s.launchCores q d).foldl (fun s c =>
      if (s.core c).run = .idle then s
      else ((s.stopCore c).updCore c fun k => { k with stopAsked := true }).quietCheck c) (s.withdrawImages q d)
  | _ => s

/-- STOP_ACKNOWLEDGEMENT (R274). DEDUCED, log entry 33. -/
def stopAcked (s : State) (m : Nat) : State :=
  match s.msgAt m with
  | some (_, _, .stopAck q c) => (s.takeMsg m).stopAck (queueOf q) c
  | _ => s

/-- A message that satisfies a test has arrived: its number, destination and source. -/
def msgFor (s : State) (m : Msg) : Option (Nat × Nat) :=
  (s.msgs.entries.find? fun e => decide (e.2.2.2 = m)).map fun e => (e.1, e.2.1)

/-- FENCE_SIGNAL: the serving die's fence unit acts on a signal, going on with each answer to its requests, and answers; one whose
fence signal is over is passed over, and a die in reset takes none (R245, R362). -/
def fenceSignal (s : State) (n : Nat) : State :=
  match s.msgFor (.fence n) with
  | none => s
  | some (m, dst) =>
    let d := dieOf dst
    if !s.cpRuns d then s
    else
      match (s.fences.find? n).bind fun f => f.pa.map fun pa => (f, pa) with
      | none => (s.busDone d (.fence n)).takeMsg m
      | some (f, pa) =>
        if s.fenceBusy d n pa then s
        else
          match s.fenceAct d n pa f with
          | (t, none) => t
          | (t, some g) => ({ t.takeMsg m with fences := t.fences.put n g }).sendMsg d (dieOf f.src) (.fenceRes n)

/-- A signal is over: once its event record has been written, the SIGNAL that it belongs to completes, or acknowledges its
stop, or the walk that has made it goes on (R19, R247, R261, R274). -/
def fenceClose (s : State) (n : Nat) (f : FenceSig) : State :=
  if f.ev.isSome && !s.eventGone f then s
  else
    let s := { s with fences := s.fences.erase n }
    let q := queueOf f.queue
    if !f.exec then
      (s.updQueue q fun k => if (k.walkPos, k.walkSkip) = f.place then { k with walkSkip := k.walkSkip + 1 } else k).walkOn q
    else if (s.queue q).wait ≠ .fence then s
    else if (s.queue q).stopping.isSome then s.stopAck q cpUnit
    else if f.bad then s
    else s.cmdDone q 32

/-- The result of a signal is taken: the event record and interrupt message follow, and it stays while that record waits
(R19, R245, R261). -/
def fenceOver (s : State) (n : Nat) (f : FenceSig) : State :=
  match s.fenceEnd f with
  | (t, none) => t.fenceClose n f
  | (t, some e) => { t with fences := t.fences.put n { f with ev := some e } }

/-- FENCE_SIGNAL_RESULT: the result of a signal reaches the signalling command processor. Without one, a signal that has not
been sent is tried again, one whose event record has been written since is over, and one that has had no answer within
1,000 counts is not applied (R19, R38, R245). A command processor in reset takes no result (R362). DEDUCED, log
entry 31. -/
def fenceResult (s : State) (n : Nat) : State :=
  match s.fences.find? n with
  | none =>
    match s.msgFor (.fenceRes n) with
    | some (m, _) => s.takeMsg m
    | none => s
  | some f =>
    let d := dieOf f.src
    if !s.cpRuns d then s
    else if f.ev.isSome then s.fenceClose n f
    else
      match s.msgFor (.fenceRes n) with
      | some (m, _) => (s.takeMsg m).fenceOver n f
      | none =>
        if f.pa.isNone ∧ f.result.isNone then (if s.transHeld d (.fence n) then s else s.fenceSend n)
        else if s.since d f.sentAt < 1000 then s
        else s.fenceOver n { f with result := some false, bad := true }

end State

/-- DOORBELL (R255). -/
def execDoorbell (role strb : Byte) (q : QueueId) (wr : W64) (s : State) : Host.Outcome State Fault Refusal :=
  .next (s.doorbell role strb q wr)
/-- DOORBELL_FORWARD (R14). -/
def execDoorbellForward (m : Nat) (s : State) : Host.Outcome State Fault Refusal := .next (s.doorbellForward m)
/-- COMMAND_ACCEPTANCE (R260). -/
def execCommandAcceptance (q : QueueId) (s : State) : Host.Outcome State Fault Refusal := .next (s.accept q)
/-- NOP (R261). -/
def execNop (q : QueueId) (s : State) : Host.Outcome State Fault Refusal :=
  .next (s.opRow q 0 fun t b => t.cmdDone q (cmdLen b))
/-- LAUNCH (R264). -/
def execLaunch (q : QueueId) (s : State) : Host.Outcome State Fault Refusal := .next (s.opRow q 1 fun t b => t.launchStart q b)
/-- SIGNAL (R261). -/
def execSignal (q : QueueId) (s : State) : Host.Outcome State Fault Refusal := .next (s.opRow q 2 fun t b => t.signalStart q b)
/-- WAIT (R263). -/
def execWait (q : QueueId) (s : State) : Host.Outcome State Fault Refusal := .next (s.opRow q 3 fun t b => t.waitStart q b)
/-- TEST (R261). -/
def execTest (q : QueueId) (s : State) : Host.Outcome State Fault Refusal := .next (s.opRow q 4 fun t b => t.testRun q b)
/-- WRITE (R261). -/
def execWriteCommand (q : QueueId) (s : State) : Host.Outcome State Fault Refusal := .next (s.opRow q 5 fun t b => t.writeRun q b)
/-- TIME (R261). -/
def execTimeCommand (q : QueueId) (s : State) : Host.Outcome State Fault Refusal := .next (s.opRow q 6 fun t b => t.timeRun q b)
/-- CALL (R262). -/
def execCallCommand (q : QueueId) (s : State) : Host.Outcome State Fault Refusal := .next (s.opRow q 7 fun t b => t.callRun q b)
/-- BREAK (R261). -/
def execBreakCall (q : QueueId) (s : State) : Host.Outcome State Fault Refusal := .next (s.opRow q 8 fun t b => t.breakRun q b)
/-- INVAL (R296). -/
def execInval (q : QueueId) (s : State) : Host.Outcome State Fault Refusal := .next (s.opRow q 9 fun t b => t.invalStart q b)
/-- WAIT_REREAD (R263). -/
def execWaitReread (q : QueueId) (s : State) : Host.Outcome State Fault Refusal := .next (s.waitAgain q)
/-- COMMAND_TIMEOUT (R266). -/
def execCommandTimeout (q : QueueId) (s : State) : Host.Outcome State Fault Refusal := .next (s.cmdTimeout q)
/-- DRAIN_EXPIRY (R266). -/
def execDrainExpiry (q : QueueId) (s : State) : Host.Outcome State Fault Refusal := .next (s.drainEnd q)
/-- LAUNCH_COMPLETE (R19). -/
def execLaunchComplete (q : QueueId) (s : State) : Host.Outcome State Fault Refusal := .next (s.launchEnd q)
/-- LOSS_PROCEDURE (R247). -/
def execLossProcedure (ctx : BitVec 14) (s : State) : Host.Outcome State Fault Refusal := .next (s.lossStep ctx.toNat).objNext
/-- LAUNCH_TO_DIE_0 (R15). -/
def execLaunchToDie0 (m : Nat) (s : State) : Host.Outcome State Fault Refusal := .next (s.chooseDies m)
/-- DISTRIBUTION_RECORD (R321). -/
def execDistributionRecord (m : Nat) (s : State) : Host.Outcome State Fault Refusal := .next (s.takeRecord m)
/-- PART_ENDED (R322). -/
def execPartEnded (m : Nat) (s : State) : Host.Outcome State Fault Refusal := .next (s.partEnded m)
/-- STOP (R274). -/
def execStop (m : Nat) (s : State) : Host.Outcome State Fault Refusal := .next (s.stopHere m)
/-- STOP_ACKNOWLEDGEMENT (R274). -/
def execStopAcknowledgement (m : Nat) (s : State) : Host.Outcome State Fault Refusal := .next (s.stopAcked m).objNext
/-- FENCE_SIGNAL (R245). -/
def execFenceSignal (n : Nat) (s : State) : Host.Outcome State Fault Refusal := .next (s.fenceSignal n)
/-- FENCE_SIGNAL_RESULT (R245). -/
def execFenceSignalResult (n : Nat) (s : State) : Host.Outcome State Fault Refusal := .next (s.fenceResult n).objNext

end Sys2Proof.Machine
end

