-- ==== Sys2Proof/Machine/Images.lean ====
section
/-!
DEFINITION. Store images across preemption, store clears and the scrubbers (R77, R178 to R185, R330, R333, R334).
-/
namespace Sys2Proof.Machine

/-- Bytes cut into blocks of 2,048, the last one filled with zeros. -/
def imageBlocks (bs : List Byte) : List (List Byte) :=
  (List.range (ceilDiv bs.length 2048)).map fun j =>
    let b := (bs.drop (2048 * j)).take 2048
    b ++ List.replicate (2048 - b.length) 0

/-- Blocks with their trailers, as an image of a generation is written (R331, R332). -/
def guarded (gen : Nat) (blocks : List (List Byte)) : List (List Byte) :=
  blocks.mapIdx fun j b => b ++ trailer b (seqTag gen j)

/-- A token from its entry in a state block (Table 08-7). A WINDOW token takes its geometry back from the binding of its
generator; where the generator has been released since, the token is EMPTY and PLAIN, with descriptor 0 (R148). Its state is the saved one,
EMPTY after a SYNC.TREL (R124). DEDUCED, log entry 80. -/
def tokenOf (b : List Byte) (geom : Nat → Option (List Byte)) : Token :=
  let shape := fieldAt b 8 8
  let st := match field shape 26 25 with | 0 => TokState.empty | 1 => .filling | _ => .present
  let g := field shape 29 28
  let plain : Token := { region := BitVec.ofNat 64 (fieldAt b 0 8), shape := BitVec.ofNat 64 (setField shape 31 25 0), st := st }
  if bitAt shape 27 then
    match geom g with
    | some x => { plain with window := some { gen := g, geom := x } }
    | none => {}
  else plain

namespace State

/-- The state block of a core (Table 08-6). -/
def stateBlock (s : State) (c : CoreId) : List Byte :=
  let k := s.core c
  let r := k.seq
  let arr := fun l => match s.physArray c l with
    | some a =>
      let x := s.arr a
      bytesLE 4 x.fmt.toNat ++ bytesLE 4 x.cfg.toNat ++ bytesLE 4 x.ast.toNat ++ bytesLE 4 0
    | none => bytesLE 16 0
  let stack := (List.range 16).flatMap fun i => bytesLE 4 (r.stack.getD i 0).toNat
  ((List.range 64).flatMap fun t => (k.tok t).bytes) ++ ((List.range 31).flatMap fun i => bytesLE 8 (r.read (i + 1)).toNat) ++
    bytesLE 4 r.pc.toNat ++ bytesLE 1 (setField r.p.toNat 0 0 0) ++ bytesLE 1 k.phase.code ++ bytesLE 1 r.stack.length ++
    bytesLE 1 0 ++ stack ++ ((List.range 4).flatMap arr) ++ bytesLE 4 k.wpad.toNat ++ bytesLE 4 0 ++
    bytesLE 4 k.cv0.toNat ++ bytesLE 4 k.cv1.toNat ++ bytesLE 4 k.psStr.toNat ++ bytesLE 4 k.psSeq.toNat

/-- A core takes the state of a state block; an array on which several logical ones fall takes ARR_FMT and ARR_CFG of the lowest
of them, and the OR of their ARR_AST (R77). A WINDOW token takes its binding back where its logical cluster still holds the
generator (R148). -/
def takeState (s : State) (c : CoreId) (b : List Byte) : State :=
  let k := s.core c
  let cl := s.cluster c.cluster
  let geom := fun t g =>
    let x := cl.gens.get {} g
    if x.claim ≠ some (s.logClusterKey c) then none
    else (x.bindings.find? fun y => decide (y.lcore = k.lcore) && decide (y.token = t)).map (·.geom)
  let n := fieldAt b 0x4FE 1
  let r : SeqRegs :=
    { (List.range 31).foldl (fun (r : SeqRegs) i => r.write (i + 1) (BitVec.ofNat 64 (fieldAt b (0x400 + 8 * i) 8))) {} with
      p := BitVec.ofNat 8 (fieldAt b 0x4FC 1)
      pc := BitVec.ofNat 64 (fieldAt b 0x4F8 4)
      stack := (List.range n).map fun i => BitVec.ofNat 64 (fieldAt b (0x500 + 4 * i) 4) }
  let w := fun off => BitVec.ofNat 32 (fieldAt b off 4)
  let s := s.updCore c fun k => { k with
    seq := r
    twin := r
    stall := .none
    phase := (match fieldAt b 0x4FD 1 with | 0 => .load | 1 => .compute | _ => .store)
    sems := []
    blocks := []
    code := {}
    stores := []
    strQ := []
    vecQ := []
    syncQ := []
    strRun := []
    strAbort := none
    vecRun := []
    arrs := k.arrs.mapVals fun a => { a with queue := [], group := [], run := [] }
    tokens := (List.range 64).foldl (fun m t => m.setD {} t (tokenOf ((b.drop (16 * t)).take 16) (geom t))) {}
    v := {}
    wpad := w 0x580
    cv0 := w 0x588
    cv1 := w 0x58C
    psStr := w 0x590
    psSeq := w 0x594 }
  (List.range 4).foldl (fun s p =>
    let a : ArrayId := ⟨c, Fin.ofNat 4 p⟩
    match (List.range 4).filter fun l => decide (s.physArray c l = some a) with
    | [] => s
    | l :: ls => s.updArr a fun x => { x with
        fmt := w (0x540 + 16 * l)
        cfg := w (0x544 + 16 * l)
        ast := (l :: ls).foldl (fun v j => v ||| w (0x548 + 16 * j)) 0 }) s

/-- The address of a core image and of a map store image in the save area of a launch's context (R237). -/
def imageBase (s : State) (l : Launch) (runB : Bool) : Nat :=
  let k := lcDies l.cmd * lcClusters l.cmd
  (s.ctx l.ctx).saveBase.toNat + l.saveOff + (if runB then 1056768 * (k * lcCores l.cmd) + 6320128 * k else 0)
def coreImageAt (s : State) (l : Launch) (x : LogCore) : Nat := s.imageBase l x.runB + 1056768 * x.lcore
def mapImageAt (s : State) (l : Launch) (x : LogCluster) : Nat :=
  s.imageBase l x.runB + 1056768 * (lcDies l.cmd * lcClusters l.cmd * lcCores l.cmd) + 6320128 * x.lcl

/-- The context takes its next save generation (R333). -/
def nextGen (s : State) (l : Launch) : Nat := ((s.ctx l.ctx).saveGen.toNat + 1) % 65536
def takeGen (s : State) (l : Launch) : State :=
  let c := s.ctx l.ctx
  s.setCtx l.ctx { c with saveGen := c.saveGen + 1 }

/-- What became of the blocks of an image: all are done; the next one waits, stalls on a translation fault, or fails with a
code and INFO. -/
inductive ImageRes where
  | done | wait | fault (cause : FaultCause) (range va : Nat) | fail (code info : Nat)
  deriving DecidableEq, Repr

/-- Write blocks of an image from the n-th on, in order, at an address: the number of the first one not written, and what became
of it. -/
def putBlocks (s : State) (st : StoreId) (q : Nat) (l : Launch) (va : Nat) : List (List Byte) → Nat → State × Nat × ImageRes
  | [], n => (s, n, .done)
  | b :: bs, n =>
    let c := s.imageEngine st n
    if s.transHeld c.die (s.imageOwner st n) || !s.streamRoom c (s.imageOwner st n) q 34 true then (s, n, .wait)
    else
      match s.writeVa c.die (s.imageOwner st n) l.partition l.ctx (va + 2056 * n) b false with
      | (t, .ok _) => (t.busDone c.die (s.imageOwner st n)).putBlocks st q l va bs (n + 1)
      | (t, .wait) => (t, n, .wait)
      | (t, .fault cause r a) => (t, n, .fault cause r a)
      | (t, .err a) => (t.busDone c.die (s.imageOwner st n), n, .fail 0x0704 a)

/-- Read `k` blocks of an image from the n-th on, and check each (R334): the data read. -/
def getBlocks (s : State) (st : StoreId) (q : Nat) (l : Launch) (va gen : Nat) : Nat → Nat → State × List (List Byte) × ImageRes
  | 0, _ => (s, [], .done)
  | k + 1, n =>
    let c := s.imageEngine st n
    if s.transHeld c.die (s.imageOwner st n) || !s.streamRoom c (s.imageOwner st n) q 34 false then (s, [], .wait)
    else
      match s.readVa c.die (s.imageOwner st n) l.partition l.ctx (va + 2056 * n) 2056 .read false with
      | (t, .ok bs) =>
        let t := t.busDone c.die (s.imageOwner st n)
        if (blockCheck bs (seqTag gen n)).isSome then (t, [], .fail 0x0813 n)
        else
          let r := t.getBlocks st q l va gen k (n + 1)
          (r.1, bs.take 2048 :: r.2.1, r.2.2)
      | (t, .wait) => (t, [], .wait)
      | (t, .fault cause r a) => (t, [], .fault cause r a)
      | (t, .err a) => (t.busDone c.die (s.imageOwner st n), [], .fail 0x0704 a)

/-- The save or restore of an image fails, and with it the launch: its part stops, and the home die fails the launch
(R185, R322). -/
def imageFail (s : State) (d : DieId) (q ldie : Nat) (code info : Nat) : State :=
  (s.stopPart q d).partFault d q ldie (.outside code info)

/-- The task of an image's stream engine aborts with a code: its part of the launch stops, and the home die fails the
launch with the record, SRC 3 (R171, R185, R294, R322). DESIGN CHOICE, log entry 24. -/
def imageAbort (s : State) (c : CoreId) (ofMap : Bool) (code va : Nat) : State :=
  let k := s.core c
  let part := if ofMap then (s.cluster c.cluster).occupant.map fun o => (o.1, o.2.1, decide (65536 ≤ o.2.2))
    else k.part.map fun q => (q, k.ldie, k.runB)
  match part with
  | none => s
  | some (q, ldie, b) =>
    (s.stopPart q c.die).partFault c.die q ldie
      { code := code, src := 3, lcore := k.lcore, ldie := ldie, addr := va, info := va, prog := true, runB := b }

/-- An image has come as far as the block `j.done`: it is complete, or keeps its place until the block can be made, alone, or
fails (R185, R293). -/
def imageEnd (s : State) (st : StoreId) (q ldie : Nat) (l : Launch) (acc : Access) (j : ImageJob) (go : State → State) :
    ImageRes → State
  | .done => go (s.setImg st none)
  | .wait => s.setImg st (some j)
  | .fault cause r a =>
    (s.setImg st (some j)).faultAccess (s.imageEngine st j.done).die cause r (s.imageOwner st j.done) l.partition l.ctx a acc
  | .fail code info => (s.setImg st none).imageFail (s.imageEngine st 0).die q ldie code info

/-- The job of saving an image: the one in progress, or a new one of the next generation, of the blocks with their trailers
(R333). -/
def saveJob (s : State) (st : StoreId) (l : Launch) (blks : List (List Byte)) : State × ImageJob :=
  match s.imgOf st with
  | some j => (s, j)
  | none =>
    let gen := s.nextGen l
    (s.takeGen l, { gen := gen, blks := guarded gen blks })

/-- An image is written on from where it stands (R185). -/
def imageSave (s : State) (st : StoreId) (q ldie : Nat) (l : Launch) (va : Nat) (j : ImageJob) (go : State → State) : State :=
  let r := s.putBlocks st q l va (j.blks.drop j.done) j.done
  r.1.imageEnd st q ldie l .write { j with done := r.2.1 } go r.2.2

/-- An image of `n` blocks is read on from where its restore stands; its data goes on when every block has passed its check
(R185, R334). -/
def imageLoad (s : State) (st : StoreId) (q ldie : Nat) (l : Launch) (va n gen : Nat) (go : State → List (List Byte) → State) :
    State :=
  let j := (s.imgOf st).getD { gen := gen }
  let r := s.getBlocks st q l va gen (n - j.done) j.done
  let blks := j.blks ++ r.2.1
  r.1.imageEnd st q ldie l .read { j with done := blks.length, blks := blks } (fun t => go t blks) r.2.2

/-- CORE_IMAGE_SAVE: the store and the state of a preempted core are written, and the core is free (R183, R185).
DESIGN CHOICE, log entry 24. -/
def coreSave (s : State) (c : CoreId) : State :=
  let k := s.core c
  match k.part.bind fun q => (s.launches.find? q).map fun l => (q, l) with
  | none => s
  | some (q, l) =>
    match l.cores.find? fun x => decide (x.keptAt = some c) && x.preempted && l.fault.isNone with
    | none => s
    | some x =>
      match (if k.img.isSome then (s, [], none) else s.csRead c 0 (roundUp k.csBytes 2048)) with
      | (t, _, some off) => t.imageFail c.die q x.ldie 0x0810 off
      | (t, bs, none) =>
        let r := t.saveJob (.core c) l (imageBlocks bs ++ imageBlocks (s.stateBlock c))
        r.1.imageSave (.core c) q x.ldie l (s.coreImageAt l x) r.2 fun t =>
          let t := t.setLaunch q { l with cores := l.cores.map fun y =>
            if y = x then { y with keptAt := none, saved := true, gen := r.2.gen } else y }
          t.updCore c fun k => { k with part := none }

/-- The state of a cluster that its image carries in one further block: halo counters, barrier arrivals, and the
allocated and start bits of the arena's granules (R184). -/
def clusterBlock (s : State) (k : ClusterId) : List Byte :=
  let x := s.cluster k
  let gran := fun g => x.allocs.foldl (fun n a =>
    if a.1 = g then n ||| 3 else if a.1 < g ∧ g < a.1 + a.2 then n ||| 1 else n) 0
  ((List.range 64).flatMap fun i => bytesLE 4 (x.halo.get 0 i).toNat) ++
    ((List.range 32).flatMap fun i => bytesLE 4 (x.arrivals.get 0 i)) ++
    (List.range 768).map fun i => BitVec.ofNat 8 ((List.range 4).foldl (fun n j => n + gran (4 * i + j) * 4 ^ j) 0)

/-- The offsets of the map store blocks that an image holds, in order (R184). -/
def mapOffsets (msStatic : Nat) (allocs : List (Nat × Nat)) : List Nat :=
  (List.range (msStatic / 2048)).map (2048 * ·) ++ allocs.flatMap fun a => (List.range a.2).map fun i => 2048 * (a.1 + i)

/-- Read blocks of a map store in order, up to an uncorrectable word. -/
def mapBlocks (s : State) (k : ClusterId) : List Nat → State × List (List Byte) × Option Nat
  | [] => (s, [], none)
  | o :: os =>
    match s.msRead k o 2048 with
    | (t, _, some off) => (t, [], some off)
    | (t, bs, none) =>
      let r := t.mapBlocks k os
      (r.1, bs :: r.2.1, r.2.2)

/-- MAP_STORE_IMAGE_SAVE: the map store of a logical cluster whose cores are all preempted is written, and the physical
cluster is free (R184, R185). -/
def mapSave (s : State) (k : ClusterId) : State :=
  let x := s.cluster k
  match x.occupant.bind fun o => (s.launches.find? o.1).map fun l => (o.1, l) with
  | none => s
  | some (q, l) =>
    match l.clusters.find? fun y => decide (y.last = some k) && y.at?.isNone && !y.saved && l.fault.isNone with
    | none => s
    | some y =>
      match (if x.img.isSome then (s, [], none) else s.mapBlocks k (mapOffsets x.msStatic x.allocs)) with
      | (t, _, some off) => t.imageFail k.die q y.ldie 0x0811 off
      | (t, bs, none) =>
        let r := t.saveJob (.map k) l (bs ++ imageBlocks (s.clusterBlock k))
        r.1.imageSave (.map k) q y.ldie l (s.mapImageAt l y) r.2 fun t =>
          let t := t.setLaunch q { l with clusters := l.clusters.map fun z =>
            if z = y then { z with saved := true, gen := r.2.gen, blocks := r.2.blks.length } else z }
          t.setCluster k { t.cluster k with occupant := none, allocs := [] }

/-- The allocations that the bits of a cluster's block name: first granule and number of granules. -/
def allocsOf (blk : List Byte) : List (Nat × Nat) :=
  let bits := fun g => field (fieldAt blk (0x180 + g / 4) 1) (2 * (g % 4) + 1) (2 * (g % 4))
  ((List.range 3072).foldl (fun l g =>
    match bits g, l with
    | 3, _ => (g, 1) :: l
    | 1, a :: as => (a.1, a.2 + 1) :: as
    | _, _ => l) []).reverse

/-- Logical cores put back on cores whose images, and whose cluster's image, are all in place run on (R110, R183, R184). -/
def wakeCluster (s : State) (q : Nat) : State :=
  match s.launches.find? q with
  | none => s
  | some l =>
    let ok := fun x : LogCore => x.preempted && x.at?.isSome && !x.saved &&
      !l.clusters.any fun y => decide (y.lcl = x.lcl) && (y.runB == x.runB) && y.saved
    let go := (l.cores.filter ok).filterMap (·.at?)
    let s := s.setLaunch q { l with cores := l.cores.map fun x => if ok x then { x with preempted := false } else x }
    go.foldl (fun s c => s.updCore c fun k => { k with
      run := .running
      progAt := (s.die c.die).ticks
      grantReq := decide (k.phase = .load) }) s

/-- IMAGE_RESTORE of a core: its store, tokens and state (R183, R185). -/
def coreRestore (s : State) (c : CoreId) : State :=
  let k := s.core c
  match k.part.bind fun q => (s.launches.find? q).map fun l => (q, l) with
  | none => s
  | some (q, l) =>
    match l.cores.find? fun x => decide (x.at? = some c) && x.preempted && x.saved && l.fault.isNone with
    | none => s
    | some x =>
      let n := ceilDiv x.csBytes 2048 + 1
      s.imageLoad (.core c) q x.ldie l (s.coreImageAt l x) n x.gen fun t blks =>
        let data := (blks.take (n - 1)).flatten
        let t := t.updCore c fun k => { k with
          store := (k.store.write 0 data).1
          codeOff := x.codeOff
          codeWords := x.codeWords
          csBytes := x.csBytes }
        let t := t.takeState c (blks.getD (n - 1) [])
        let t := t.setLaunch q { l with cores := l.cores.map fun y => if y = x then { y with saved := false } else y }
        t.wakeCluster q

/-- IMAGE_RESTORE of a cluster: its map store, counters and allocations (R184, R185). -/
def mapRestore (s : State) (k : ClusterId) : State :=
  let x := s.cluster k
  match x.occupant.bind fun o => (s.launches.find? o.1).map fun l => (o.1, l) with
  | none => s
  | some (q, l) =>
    match l.clusters.find? fun y => decide (y.at? = some k) && y.saved && l.fault.isNone with
    | none => s
    | some y =>
      s.imageLoad (.map k) q y.ldie l (s.mapImageAt l y) y.blocks y.gen fun t blks =>
        let st := blks.getLastD []
        let allocs := allocsOf st
        let offs := mapOffsets x.msStatic allocs
        let t := (offs.zip blks).foldl (fun t e => (t.msWrite k e.1 e.2).1) t
        let t := t.setCluster k { t.cluster k with
          allocs := allocs
          halo := (List.range 64).foldl (fun m i => m.setD 0 i (BitVec.ofNat 32 (fieldAt st (4 * i) 4))) {}
          arrivals := (List.range 32).foldl (fun m i => m.setD 0 i (fieldAt st (0x100 + 4 * i) 4)) {} }
        let t := t.setLaunch q { l with clusters := l.clusters.map fun z => if z = y then { z with saved := false } else z }
        t.wakeCluster q

/-- STORE_CLEAR: every word of a store whose user has gone becomes zero (R181). -/
def clearStore (s : State) (st : StoreId) : State :=
  match st with
  | .core c =>
    let k := s.core c
    if k.part.isSome ∨ !(k.store.clearDue || k.lastPartition.isSome) then s
    else s.setCore c { k with store := k.store.clear, lastPartition := none, lastCtx := none }
  | .map m =>
    let x := s.cluster m
    if x.occupant.isSome ∨ !(x.map.clearDue || x.lastPartition.isSome) then s
    else s.setCluster m { x with map := x.map.clear, lastPartition := none, lastCtx := none }

/-- The word that the scrubber writes with zero and correct check bits. -/
def zeroWord (x : Store) (w : Nat) : Store := (x.wordPut w ((List.range 16).map fun i => (16 * w + i, 0))).1

/-- SCRUB: the scrubber reads a word, corrects a single-bit error, and handles an uncorrectable one (R178, R180): the fault record
of a core store has SRC 0 and the current instruction, that of a map store lies outside a program.
DEDUCED, log entry 71; DESIGN CHOICE, log entry 83. -/
def scrub (s : State) (st : StoreId) (w : Nat) : State :=
  match st with
  | .core c =>
    let k := s.core c
    if coreStoreSize ≤ 16 * w then s
    else if k.store.bad.contains w then
      let s := s.updCore c fun k => { k with store := { k.store with scrubUE := true } }
      if k.part.isSome ∧ 16 * w < k.csBytes then
        s.progFault c 0 0x0810 (16 * w) (16 * w) k.seq.pc.toNat (k.code.get 0 k.seq.pc.toNat).toNat
      else (s.updCore c fun k => { k with store := zeroWord k.store w }).report c.die 0x0812 (16 * w)
    else if k.store.single.contains w then s.setCore c { k with store := k.store.correct w }
    else s
  | .map m =>
    let x := s.cluster m
    if mapStoreSize ≤ 16 * w then s
    else if x.map.bad.contains w then
      let s := s.setCluster m { x with map := { x.map with scrubUE := true } }
      match x.occupant with
      | some o => s.imageFail m.die o.1 o.2.1 0x0811 (16 * w)
      | none => (s.setCluster m { s.cluster m with map := zeroWord (s.cluster m).map w }).report m.die 0x0812 (16 * w)
    else if x.map.single.contains w then s.setCluster m { x with map := x.map.correct w }
    else s

/-- A command on a store that the build has. DESIGN CHOICE, log entry 4. -/
def onStore (s : State) (st : StoreId) (t : State) : Host.Outcome State Fault Refusal :=
  match st with
  | .core c => onCore s c t
  | .map k => onCluster s k t

end State

/-- CORE_IMAGE_SAVE (R183). -/
def execCoreImageSave (c : CoreId) (s : State) : Host.Outcome State Fault Refusal := onCore s c (s.coreSave c)
/-- MAP_STORE_IMAGE_SAVE (R184). -/
def execMapStoreImageSave (k : ClusterId) (s : State) : Host.Outcome State Fault Refusal := onCluster s k (s.mapSave k)
/-- IMAGE_RESTORE (R185). -/
def execImageRestore (st : StoreId) (s : State) : Host.Outcome State Fault Refusal :=
  s.onStore st (match st with | .core c => s.coreRestore c | .map k => s.mapRestore k)
/-- STORE_CLEAR (R181). -/
def execStoreClear (st : StoreId) (s : State) : Host.Outcome State Fault Refusal := s.onStore st (s.clearStore st)
/-- SCRUB (R180). -/
def execScrub (st : StoreId) (word : Nat) (s : State) : Host.Outcome State Fault Refusal := s.onStore st (s.scrub st word)

end Sys2Proof.Machine
end

