-- ==== Sys2Proof/Machine/CoreRows.lean ====
section
/-!
DEFINITION. Events of a core's units: header check, code blocks, loads, issue and completion on the arrays, the stream
engine and the vector unit, the array controller and its fillers, code violations, the load grant, barriers and halo
waits (R18, R73 to R89, R91 to R93, R102, R107, R131, R136, R144, R145, R157, R203).
-/
namespace Sys2Proof.Machine

/-- Equal rows of bytes in core store: where the first starts, their pitch, how many they are, and the bytes of each. -/
structure RowRun where
  base : Nat
  pitch : Nat
  rows : Nat
  len : Nat
  deriving DecidableEq, Repr

/-- The bytes that two runs of rows share, as first byte and length. -/
def RowRun.meet (x y : RowRun) : List (Nat × Nat) :=
  (List.range x.rows).flatMap fun r =>
    let lo := x.base + r * x.pitch
    let hi := lo + x.len
    let first := (lo - (y.base + y.len)) / y.pitch
    (List.range (min y.rows ((hi - y.base) / y.pitch + 1) - first)).filterMap fun j =>
      let b := y.base + (first + j) * y.pitch
      let l := max lo b
      let h := min hi (b + y.len)
      if l < h then some (l, h - l) else none

namespace Core

/-- The bytes of core store that an outstanding instruction of the arrays, the stream engine or the vector unit writes through
a token: the rows of its result (R120, R127, R130, R135, R137, R138, R212, R225, R227). A VEC.VNMS counts with all the
survivors that it may keep. DEDUCED, log entry 73. -/
def writeRun (k : Core) (sdt : List Byte) (i : EInstr) (t : Nat) : RowRun :=
  let x := k.tok t
  match unitOf i.word with
  | 2 =>
    match k.arrs.values.find? fun a => (a.queue ++ a.group ++ a.run).any fun q => decide (q.ord = i.ord) with
    | none => ⟨x.base, x.pitch, 0, 0⟩
    | some a =>
      let runs := a.run.any fun q => decide (q.ord = i.ord)
      let v := if runs then (a.runFmt, a.runCfg) else a.inForce i.ord
      let geom := if runs then i.win.map fun b => Geom.ofBytes b.geom else k.tokGeom (fTB i.word)
      let sh := k.mmShapeOf (ArrCfg.ofWord v.2) geom i.word
      ⟨x.base, x.pitch, sh.m.toNat, rowBytes (ArrFmt.ofWord v.1).outFmt sh.n⟩
  | 3 =>
    let d := descOf sdt (fDidx i.word)
    if d.kind = 1 then ⟨x.base, x.pitch, d.geom.k, rowBytes d.fmt d.geom.n⟩ else ⟨x.base, x.pitch, d.rows, rowBytes d.fmt d.c0⟩
  | _ =>
    if eopField i.word = 1 then ⟨vecOffset x i.x1 (fVf i.word), x.pitch, 1, 64 * vecWidth (fVf i.word)⟩
    else ⟨x.base, x.pitch, 1, (vecNeeds i.word i.x1).2⟩

/-- The bytes that an instruction of the arrays, the stream engine or the vector unit writes and that others that are
outstanding write through a different token: place of the other in the order, first byte and length (R119). -/
def clashOf (k : Core) (sdt : List Byte) (i : EInstr) : List (Nat × Nat × Nat) :=
  (k.arrList ++ k.strList ++ k.vecList).flatMap fun q =>
    if q.ord = i.ord then [] else
    i.writes.flatMap fun t => q.writes.flatMap fun u =>
      if t = u then [] else ((k.writeRun sdt i t).meet (k.writeRun sdt q u)).map fun e => (q.ord, e.1, e.2)

end Core

namespace State

/-- An instruction has completed while others wrote, or will write, the same bytes through other tokens: the data of those
bytes is undefined now, and again when the others complete (R119). DEDUCED, log entry 73. -/
def unorder (s : State) (c : CoreId) (i : EInstr) : State :=
  let k := s.core c
  let m := k.clashOf (s.sdtOf c) i
  let due := m ++ k.clash.filter fun e => decide (e.1 = i.ord)
  if due.isEmpty then s
  else
    let d := s.draw
    d.2.updCore c fun k => { k with
      clash := k.clash.filter (fun e => decide (e.1 ≠ i.ord)) ++ m
      store := due.foldl (fun st e => st.unsettle e.2.1 e.2.2 d.1) k.store }

/-- A fault of the header read and check, or of a code fetch: SRC 6 (R93). -/
def hdrFault (s : State) (c : CoreId) (code addr info : Nat) : State := s.progFault c 6 code addr info 0xFFFFFFFF 0

/-- A core given to a launch reads and checks the image header, and starts at ENTRY or faults (R93). -/
def headerCheck (s : State) (c : CoreId) : State :=
  let k := s.core c
  let a := k.image.toNat
  if k.run ≠ .header ∨ s.transHeld c.die (.fetch c.key) then s
  else if a % 64 ≠ 0 then s.hdrFault c 0x0510 a 0xFFFFFFFFFFFFFFFF
  else
    let o : Owner := .fetch c.key
    match s.readVa c.die o (s.corePartition c) (s.coreCtx c) a 64 .fetch false with
    | (t, .wait) => t
    | (t, .fault cause range va) =>
      t.faultAccess c.die cause range (.fetch c.key) (s.corePartition c) (s.coreCtx c) va .fetch
    | (t, .err va) => (t.busDone c.die o).hdrFault c 0x0704 va va
    | (t, .ok h) =>
      let t := t.busDone c.die o
      match hdrBad h with
      | some off => t.hdrFault c 0x0510 a off
      | none =>
        let l := (t.coreLaunch c).getD { ctx := 0, partition := 0, cmd := [], pos := 0 }
        let count := match l.count with
          | some n => n
          | none => (t.die c.die).count
        (t.moved c).updCore c fun k => k.start h (BitVec.ofNat 64 (fieldAt l.cmd 0x10 8)) count

/-- The block that the sequencer's next instruction lies in, when the buffer does not hold it (R92). -/
def wantedBlock (s : State) (c : CoreId) : Option Nat :=
  let k := s.core c
  let b := k.seq.pc.toNat / 512
  if s.canTake c && decide (k.seq.pc.toNat < k.codeWords) && !k.blocks.contains b then some b else none

/-- A fetched code block arrives, is checked, and takes the place of the oldest of eight blocks (R91, R92): R92
says neither which block leaves nor when one is fetched ahead, and the model drops the one fetched longest ago and fetches
only a block that the next instruction needs. DESIGN CHOICE, log entry 75. -/
def codeFetch (s : State) (c : CoreId) : State :=
  match s.wantedBlock c with
  | none => s
  | some b =>
    let k := s.core c
    let a := wrap 64 (k.image.toNat + k.codeOff + 2056 * b : Nat)
    let pc := k.seq.pc.toNat
    if s.transHeld c.die (.fetch c.key) then s
    else
      let o : Owner := .fetch c.key
      match s.readVa c.die o (s.corePartition c) (s.coreCtx c) a 2056 .fetch false with
      | (t, .wait) => t
      | (t, .fault cause range va) =>
        t.faultAccess c.die cause range (.fetch c.key) (s.corePartition c) (s.coreCtx c) va .fetch
      | (t, .err va) => (t.busDone c.die o).progFault c 6 0x0704 va va pc 0
      | (t, .ok blk) =>
        let t := t.busDone c.die o
        match blockCheck blk (addrTag a) with
        | some info => t.progFault c 6 0x1601 a info pc 0
        | none =>
          (t.moved c).updCore c fun k =>
            let keep := if k.blocks.length < 8 then k.blocks else k.blocks.drop 1
            let code := k.code.filter fun i _ => keep.contains (i / 512)
            { k with
              blocks := keep ++ [b]
              code := (List.range 512).foldl (fun m i => m.put (512 * b + i) (blockWord blk i)) code }

/-- The data of a load reaches both sequencers (R102, R106). -/
def loadReturn (s : State) (c : CoreId) : State :=
  let k := s.core c
  match k.stall with
  | .load rt size sgn _ (some bs) =>
    let x := ofBytesLE (bs.take size)
    let v := if sgn then sext (8 * size) x else BitVec.ofNat 64 x
    (s.updCore c fun k => { k with seq := k.seq.write rt v, twin := k.twin.write rt v }).advance c
  | _ => s

/-- The array instruction at the head of the queue issues, joins the open gather group, or is refused
(R67, R73, R78, R89): one that fails a legality check is refused, and raises its fault, as soon as no earlier claim can
change its tokens any more; only a legal one waits for the states of its tokens. -/
def arrayIssue (s : State) (a : ArrayId) : State :=
  let c := a.core
  let x := s.arr a
  let k := s.core c
  let now := (s.die c.die).ticks
  match x.queue with
  | [] => s
  | i :: rest =>
    if k.run ≠ .running ∨ !(isMM i.word || isMMG i.word) ∨ k.phase ≠ .compute ∨
        !(k.freed i || k.mmReady x.fmt i) then s
    else
      match k.mmFault x.fmt x.cfg i.word with
      | some code =>
        let d := s.draw
        d.2.engFault c 2 code 0 (Config.freeNat d.1 % 2 ^ 64) i
      | none =>
        if !k.mmReady x.fmt i then s
        else if isMM i.word then
          if !x.run.isEmpty || !x.group.isEmpty then s
          else
            ((s.setArr a { (x.start [k.latch i] now) with queue := rest }).updCore c fun k =>
              k.setTokState (fTC i.word) .filling).settle c
        else
          let cfg := ArrCfg.ofWord x.cfg
          let sh := k.mmShape cfg i.word
          let fits := match x.group with
            | [] => true
            | g :: _ =>
              let gs := k.mmShape cfg g.word
              decide (fTB g.word = fTB i.word) && decide (gs.k = sh.k) && decide (gs.n = sh.n) &&
                decide (k.groupRows x + (k.tok (fTA i.word)).rows ≤ 16)
          if fits then
            let x' := { x with
              queue := rest
              group := x.group ++ [i]
              groupAt := if x.group.isEmpty then now else x.groupAt }
            (s.setArr a x').settle c
          else if x.run.isEmpty then
            let t := s.groupIssue a
            let y := t.arr a
            (t.setArr a { y with queue := rest, group := [i], groupAt := now }).settle c
          else s

/-- GWIN counts have passed since the open group opened, and the group issues (R79). -/
def gatherExpiry (s : State) (a : ArrayId) : State :=
  let x := s.arr a
  let win := min 2000 (field x.cfg.toNat 11 0)
  if x.group.isEmpty ∨ s.since a.core.die x.groupAt < win then s else (s.groupIssue a).settle a.core

/-- The issued operation of an array completes: its outputs are written and its output tokens are PRESENT (R74, R80). -/
def arrayComplete (s : State) (a : ArrayId) : State :=
  let c := a.core
  let x := s.arr a
  if x.run.isEmpty then s
  else
    let now := (s.die c.die).ticks
    match s.mmRunAll a x.runFmt x.runCfg x.run with
    | (t, some (i, code, off)) =>
      let t := t.updCore c fun k => x.run.foldl (fun k i => k.setTokState (fTC i.word) .empty) k
      (t.updArr a fun y => { (y.onComplete now) with run := [] }).engFault c 2 code off off i
    | (t, none) =>
      let t := t.updCore c fun k => x.run.foldl (fun k i => k.setTokState (fTC i.word) .present) k
      let t := x.run.foldl (fun t i => t.unorder c i) t
      (t.updArr a fun y => { (y.onComplete now) with run := [] }).settle c

/-- The idle timer of an array reaches 200 counts, and the controller goes to FILL_DOWN, keeping what an issue in the same
count restores (R82). -/
def idleExpiry (s : State) (a : ArrayId) : State :=
  let x := s.arr a
  let d := a.core.die
  if x.run.isEmpty ∧ (x.mode = .ramp ∨ x.mode = .fill) ∧ 200 ≤ s.since d x.idleAt then
    s.setArr a { x with
      mode := .fillDown
      modeAt := (s.die d).ticks
      entryLevel := if x.mode = .fill then 8 else x.density
      before := some (x.mode, x.modeAt, x.entryLevel) }
  else s

/-- The density level that the state of the controller calls for after `t` counts in it (Table 04-2). -/
def densityDue (x : Arr) (t : Nat) : Nat :=
  match x.mode with
  | .quiet => 0
  | .ramp => min 8 (x.entryLevel + 7 * t / 100)
  | .fillDown => x.entryLevel - 8 * t / 100
  | _ => 8

/-- The density level moves by one, at least 12 counts after the last change, and at its end the state of the
controller moves with it (R82, R83). -/
def densityChange (s : State) (a : ArrayId) : State :=
  let x := s.arr a
  let d := a.core.die
  let now := (s.die d).ticks
  let due := densityDue x (s.since d x.modeAt)
  if s.since d x.densityAt < 12 ∨ due = x.density then s
  else
    let n := if x.density < due then x.density + 1 else x.density - 1
    let mode := match x.mode with
      | .ramp => if n = 8 then (if x.run.isEmpty then .fill else .busy) else .ramp
      | .fillDown => if n = 0 then .quiet else .fillDown
      | m => m
    s.setArr a { x with
      density := n
      densityAt := now
      mode := mode
      modeAt := if mode = x.mode then x.modeAt else now }

/-- The die-wide mask of arrays recorded as failed, as the UNIT record carries it (Table 22-5).
DEDUCED, log entry 47. -/
def unitMask (s : State) (d : DieId) : List Byte :=
  bytesLE 64 ((s.steward d).failedArrays.foldl (fun m k => m ||| 2 ^ (k % 256)) 0)

/-- A filler pattern completes and is checked (R84, R85): the operand latches of the cells hold its operands, which the spec
does not give. DESIGN CHOICE, log entry 74. -/
def fillerDone (s : State) (a : ArrayId) (ok : Bool) : State :=
  let x := s.arr a
  let d := a.core.die
  if !x.run.isEmpty ∨ !(x.mode = .ramp ∨ x.mode = .fill ∨ x.mode = .fillDown) then s
  else
    let s := s.setArr a { x with
      fpass := x.fpass + 1
      latches := some s.freeNext
      pattern := (x.pattern + 1) % 32
      fillerFail := x.fillerFail || !ok
      failPat := if !ok && !x.fillerFail then x.pattern else x.failPat }
    let s := s.draw.2
    if ok then s
    else
      let r := s.draw
      let s := r.2.report d 0x0410 (Config.freeNat r.1 % 2 ^ 64)
      let k := s.steward d
      if k.failedArrays.contains a.key then s
      else
        let s := s.setSteward d { k with failedArrays := k.failedArrays ++ [a.key] }
        s.journal d 0x08 (s.unitMask d)

/-- A stream instruction that can issue, its entries read: the checks of its descriptors and its token, the wait for overlapping
footprints, and the issue (R130, R157, R163). -/
def streamGo (s : State) (c : CoreId) (i : EInstr) (sdt : List Byte) : State :=
  let k := s.core c
  match (streamFault sdt i).orElse fun _ => ((streamChecks k sdt i).findSome? (·.2)).map (·.2) with
  | some e => s.engFault c 3 e.1 0 e.2 i
  | none =>
    let x := fDidx i.word
    let fp := streamPrints i (descOf sdt x) (descOf sdt (x + 1))
    if k.strRun.any fun r => printsMeet r.mem fp.1 || printsMeet r.map fp.2 then s
    else
      let s := s.updCore c fun k => { k with strQ := k.strQ.drop 1 }
      match s.streamPrep c i sdt with
      | (t, .bad code off) =>
        t.streamAbort c { ins := i, d0 := (descOf sdt x).raw, startAt := (t.die c.die).ticks } code off off
      | (t, .ok r) =>
        let t := t.updCore c fun k => i.writes.foldl (fun k t => k.setTokState t .filling) k
        (t.updCore c fun k => { k with strRun := k.strRun ++ [{ r with startAt := (t.die c.die).ticks }] }).pumpStream c

/-- The stream instruction at the head of the queue reads the entries it needs from the launch's table in device memory, and
issues or is refused (R157, R159, R163). The requests of the read are the engine's own: they are sent where slots are free for
them, and it issues with the last answer. -/
def streamIssue (s : State) (c : CoreId) : State :=
  let k := s.core c
  match k.strQ with
  | [] => s
  | i :: _ =>
    if k.run ≠ .running ∨ 4 ≤ k.strRun.length ∨ k.strAbort.isSome ∨ 8 ≤ eopField i.word ∨ !k.readsOk i ∨
        !k.writesOk i [.empty] ∨ (streamLoads i.word && !s.holdsGrant c) ∨
        s.transHeld c.die (.stream c.key i.ord) then s
    else
      let sdt := s.sdtOf c
      let x := fDidx i.word
      let n := if streamPair i.word then 192 else 96
      let va := wrap 64 (s.sdtAddr c + 96 * x : Nat)
      if sdt.length < 96 * x + n then s.streamGo c i sdt
      else if !s.streamRoom c (.stream c.key i.ord) (s.coreQueue c) 4 false then s
      else
        let o : Owner := .stream c.key i.ord
        match s.readVa c.die o (s.corePartition c) (s.coreCtx c) va n .read false with
        | (t, .wait) => t
        | (t, .fault cause range at') =>
          t.faultAccess c.die cause range (.stream c.key i.ord) (s.corePartition c) (s.coreCtx c) at' .read
        | (t, .err at') => (t.busDone c.die o).streamAbort c { ins := i } 0x0704 at' at'
        | (t, .ok bs) => (t.busDone c.die o).streamGo c i (sdt.take (96 * x) ++ bs ++ sdt.drop (96 * x + n))

/-- A stream instruction in flight completes (R131, R329). -/
def streamComplete (s : State) (c : CoreId) : State :=
  match s.streamReady c with
  | none => s
  | some r =>
    match s.streamFinish c r with
    | (t, some (code, off)) => t.streamAbort c r code off off
    | (t, none) =>
      let t := t.unorder c r.ins
      (t.updCore c fun k => { k with strRun := k.strRun.filter fun q => decide (q.ins.ord ≠ r.ins.ord) }).settle c

/-- The vector instruction at the head of the queue issues or is refused (R123, R203, R204).
DEDUCED, log entry 12. -/
def vectorIssue (s : State) (c : CoreId) : State :=
  let k := s.core c
  match k.vecQ with
  | [] => s
  | i :: rest =>
    if k.run ≠ .running ∨ k.phase ≠ .compute ∨ !vecReady k i then s
    else if !vecCountOk i.word i.x1 then s.engFault c 4 0x0606 0 i.x1.toNat i
    else
      match (vecChecks k i).findSome? (·.2) with
      | some e => s.engFault c 4 e.2.1 0 e.2.2 i
      | none =>
      s.updCore c fun k =>
        i.writes.foldl (fun k t => k.setTokState t .filling) { k with
          vecQ := rest
          vecRun := k.vecRun ++ [i]
          vecAt := if k.vecRun.isEmpty then (s.die c.die).ticks else k.vecAt }

/-- The oldest vector instruction in flight completes (R136, R139). -/
def vectorComplete (s : State) (c : CoreId) : State :=
  let k := s.core c
  match k.vecRun with
  | [] => s
  | i :: rest =>
    match s.vecFinish c i with
    | (t, some off) =>
      (t.updCore c fun k => i.writes.foldl (fun k t => k.setTokState t .empty) { k with vecRun := rest }).engFault c 4
        0x0810 off off i
    | (t, none) =>
      let t := (t.unorder c i).updCore c fun k => { k with vecRun := rest, vecAt := (s.die c.die).ticks }
      (t.retire c i fun r =>
        if eopField i.word = 9 then r.write (fVd i.word) ((k.lane (fVa i.word) (fLane i.word)).setWidth 64) else r).settle c

/-- A code violation in a unit: F-0541 in a core's sequencers, F-1802 elsewhere; it starts the reset ladder at the
level of the unit (R107, R358). DEDUCED, log entry 14. -/
def codeViolation (s : State) (u : ResetUnit) : State :=
  match u with
  | .core c =>
    let k := s.core c
    (s.startEvent u 0x0541 fun s =>
      (s.seqFault c 0 0x0541 0 0 (k.code.get 0 k.seq.pc.toNat)).report c.die 0x0541 0).stopCore c
  | _ =>
    s.startEvent u 0x1802 fun s =>
      let r := s.draw
      r.2.report u.dieId 0x1802 (Config.freeNat r.1 % 2 ^ 64)

/-- A core asks for the load grant of its cluster and does not wait on a halo counter or the barrier (R18). -/
def asksGrant (s : State) (c : CoreId) : Bool :=
  let k := s.core c
  k.grantReq && decide (k.run = .running) && !k.haloWaiting && k.atBarrier.isNone

/-- The load grant of a cluster passes to the requesting core with the lowest logical core number (R18); R18 orders only the
requests of one handshake, and the model takes those made earlier in the same way. DESIGN CHOICE, log entry 75. -/
def loadGrant (s : State) (k : ClusterId) : State :=
  let x := s.cluster k
  if x.holder.isSome then s
  else
    let asks := (s.clusterCores k).filter s.asksGrant
    match asks.foldl (fun (b : Option CoreId) c =>
        match b with
        | none => some c
        | some d => if s.lcoreInCluster c < s.lcoreInCluster d then some c else some d) none with
    | none => s
    | some c =>
      ((s.setCluster k { x with holder := some c.core }).updCore c fun k => { k with grantReq := false }).settle c

/-- Every participant has arrived at a cluster barrier the same number of times, and it completes for those that wait
(R144). -/
def barrierComplete (s : State) (k : ClusterId) (b : Nat) : State :=
  let x := s.cluster k
  let waits := (s.clusterCores k).filter fun c => decide ((s.core c).atBarrier = some b) && decide ((s.core c).run = .running)
  match waits with
  | [] => s
  | c :: _ =>
    let n := (s.clusterPeers c).length
    let counts := (List.range n).map fun i => x.arrivals.get 0 (b * 4 + i)
    if counts.all fun v => decide (v = counts.headD 0) then
      waits.foldl (fun s d =>
        match (s.core d).syncQ with
        | i :: _ => (((s.updCore d fun k => { k with atBarrier := none }).syncDone d i id).waitOver d).settle d
        | [] => s) s
    else s

/-- A halo counter has reached the threshold that a core waits for (R145). -/
def haloMet (s : State) (c : CoreId) : State :=
  let k := s.core c
  match k.syncQ with
  | i :: _ =>
    if k.haloWaiting && decide (k.run = .running) && wge 32 (s.halo c (fIdx i.word)).toNat (i.x1.toNat % 2 ^ 32) then
      ((s.syncDone c i id).waitOver c).settle c
    else s
  | [] => s

end State

/-- Whether the build has a reset unit (R2). -/
def State.hasUnit (s : State) : ResetUnit → Bool
  | .array a => s.hasArray a
  | .vector c => s.hasCore c
  | .stream c => s.hasCore c
  | .gen k _ => s.hasCluster k
  | .core c => s.hasCore c
  | .cluster k => s.hasCluster k
  | .die d => s.hasDie d

/-- A command on a reset unit that the build has. DESIGN CHOICE, log entry 4. -/
def onUnit (s : State) (u : ResetUnit) (t : State) : Host.Outcome State Fault Refusal :=
  if s.hasUnit u then .next t else .fault .noSuchUnit

/-- CODE_VIOLATION (R107). -/
def execCodeViolation (u : ResetUnit) (s : State) : Host.Outcome State Fault Refusal := onUnit s u (s.codeViolation u)
/-- LAUNCH_HEADER_CHECK (R93). -/
def execLaunchHeaderCheck (c : CoreId) (s : State) : Host.Outcome State Fault Refusal := onCore s c (s.headerCheck c)
/-- CODE_BLOCK_FETCH (R91). -/
def execCodeBlockFetch (c : CoreId) (s : State) : Host.Outcome State Fault Refusal := onCore s c (s.codeFetch c)
/-- SEQUENCER_LOAD_RETURN (R102). -/
def execSequencerLoadReturn (c : CoreId) (s : State) : Host.Outcome State Fault Refusal := onCore s c (s.loadReturn c)
/-- ARRAY_ISSUE (R73). -/
def execArrayIssue (a : ArrayId) (s : State) : Host.Outcome State Fault Refusal := onArray s a (s.arrayIssue a)
/-- GATHER_WINDOW_EXPIRY (R79). -/
def execGatherWindowExpiry (a : ArrayId) (s : State) : Host.Outcome State Fault Refusal := onArray s a (s.gatherExpiry a)
/-- ARRAY_COMPLETE (R74). -/
def execArrayComplete (a : ArrayId) (s : State) : Host.Outcome State Fault Refusal := onArray s a ((s.arrayComplete a).quietCheck a.core)
/-- IDLE_TIMER_EXPIRY (R82). -/
def execIdleTimerExpiry (a : ArrayId) (s : State) : Host.Outcome State Fault Refusal := onArray s a (s.idleExpiry a)
/-- DENSITY_CHANGE (R83). -/
def execDensityChange (a : ArrayId) (s : State) : Host.Outcome State Fault Refusal := onArray s a (s.densityChange a)
/-- FILLER_PATTERN (R84). -/
def execFillerPattern (a : ArrayId) (ok : Bool) (s : State) : Host.Outcome State Fault Refusal :=
  onArray s a (s.fillerDone a ok)
/-- STREAM_ISSUE (R157). -/
def execStreamIssue (c : CoreId) (s : State) : Host.Outcome State Fault Refusal := onCore s c (s.streamIssue c)
/-- STREAM_COMPLETE (R131). -/
def execStreamComplete (c : CoreId) (s : State) : Host.Outcome State Fault Refusal := onCore s c ((s.streamComplete c).quietCheck c)
/-- VECTOR_ISSUE (R203). -/
def execVectorIssue (c : CoreId) (s : State) : Host.Outcome State Fault Refusal := onCore s c (s.vectorIssue c)
/-- VECTOR_COMPLETE (R136). -/
def execVectorComplete (c : CoreId) (s : State) : Host.Outcome State Fault Refusal := onCore s c ((s.vectorComplete c).quietCheck c)
/-- LOAD_GRANT (R18). -/
def execLoadGrant (k : ClusterId) (s : State) : Host.Outcome State Fault Refusal := onCluster s k (s.loadGrant k)
/-- BARRIER_COMPLETE (R144). -/
def execBarrierComplete (k : ClusterId) (b : Fin 8) (s : State) : Host.Outcome State Fault Refusal :=
  onCluster s k (s.barrierComplete k b.val)
/-- HALO_WAIT_MET (R145). -/
def execHaloWaitMet (c : CoreId) (s : State) : Host.Outcome State Fault Refusal := onCore s c (s.haloMet c)

end Sys2Proof.Machine
end

