-- ==== Sys2Proof/Machine/Peat.lean ====
section
/-!
DEFINITION. The Peat ports: transfers, returned data, acceptances, unanswered requests, and what a response does for the
unit that asked (R102, R131, R164, R167, R170 to R172, R287, R302, R355, R455 to R458).
-/
namespace Sys2Proof.Machine

namespace State

/-- The stream engines and sequencers of a die make the requests that a freed slot or credit lets them make, and event
records that waited for one are written (R251). -/
def pumpDie (s : State) (d : DieId) : State := (s.dieCores d).foldl (fun s c => (s.pumpStream c).pumpSeq c) s.retryEvents

/-- The stream engines that run a launch of a queue on a die (R162). -/
def pumpQueue (s : State) (d : DieId) (q : Nat) : State := (s.launchCores q d).foldl (fun s c => s.pumpStream c) s

/-- A response for a unit that was reset, or that gave the request up: it is discarded, and counted in STRAY after the reset
(R355, R457). -/
def strayResponse (s : State) (n : Nat) (r : Req) : State :=
  let k := s.die r.die
  let s := { s with reqs := s.reqs.erase n }
  let early := k.orphans.any fun o => decide (o.req = n) && o.at'.isNone
  s.setDie r.die { k with
    orphans := k.orphans.filter fun o => decide (o.req ≠ n)
    stray := if early then k.stray else satInc k.stray }

/-- The answer to a stream engine's request (R131, R171). -/
def answerStream (s : State) (c : CoreId) (ord : Nat) (r : Req) (a : Answer) : State :=
  let va := r.va
  match (s.core c).strRun.find? fun q => decide (q.ins.ord = ord) with
  | none => s.abortReport c
  | some run =>
    if (s.core c).strAbort.isSome then s.abortReport c
    else
      match a with
      | .error => s.streamAbort c run 0x0704 va va
      | .data bs => (s.streamData c ord r.tile r.pass va bs).pumpQueue r.die r.queue
      | .accepted =>
        (s.updRun c ord fun q =>
          { q with out := q.out.erase (r.tile, va), startAt := (s.die c.die).ticks }).pumpQueue r.die r.queue

/-- The answer to a sequencer's store (R102). -/
def answerStore (s : State) (c : CoreId) (num : Nat) (r : Req) (a : Answer) : State :=
  let k := s.core c
  match k.stores.find? fun e => decide (e.1 = num) with
  | none => s
  | some e =>
    let s := (s.moved c).updCore c fun k => { k with stores := k.stores.filter fun e => decide (e.1 ≠ num) }
    match a with
    | .error => s.progFault c 0 0x0704 r.va r.va e.2.1.toNat e.2.2.toNat
    | _ => (s.settle c).pumpSeq c

/-- An answer to a request of an access that is made until all of it has come: a walk of a queue's commands, and an event record,
go on with it; the others when they are next offered (R247, R251). -/
def answerBus (s : State) (n : Nat) (r : Req) (a : Answer) : State :=
  let t := s.busTake r.die n a
  match r.owner with
  | .accept q => t.walkOn (queueOf q)
  | .event _ => t.retryEvents
  | _ => t

/-- The answer to a request reaches the unit that made it. -/
def respond (s : State) (n : Nat) (r : Req) (a : Answer) : State :=
  if r.gone || (s.die r.die).orphans.any fun o => decide (o.req = n) then s.strayResponse n r
  else
    let s := { s with reqs := s.reqs.erase n }
    if s.busOwns r.die n then s.answerBus n r a
    else
    match r.owner with
    | .stream k ord => s.answerStream (coreOf k) ord r a
    | .seqLoad k =>
      let c := coreOf k
      match (s.core c).stall, a with
      | .load rt size sgn va none, .data bs =>
        (s.moved c).updCore c fun x => { x with stall := .load rt size sgn va (some ((bs.drop (r.pa % 64)).take size)) }
      | .load _ _ _ _ none, _ => s.seqFault c 0 0x0704 r.va r.va ((s.core c).code.get 0 (s.core c).seq.pc.toNat)
      | _, _ => s
    | .seqStore k num => s.answerStore (coreOf k) num r a
    | .remote src tag =>
      match s.routeOf r.die src with
      | none => s
      | some l =>
        let body := match a with
          | .data bs => FlitBody.rdr bs
          | .accepted => .wra
          | .error => .err
        s.enqueueFlit l { body := body, dst := src, src := r.die.val, tag := tag, ctx := r.ctx, partition := r.partition,
                          addr := r.pa / 64 * 64 }
    | _ => s

/-- The answer to a request reaches its unit, which may be stopping (R274). -/
def answer (s : State) (n : Nat) (r : Req) (a : Answer) : State :=
  let t := s.respond n r a
  match r.owner with
  | .stream k _ => t.quietCheck (coreOf k)
  | .seqLoad k => t.quietCheck (coreOf k)
  | .seqStore k _ => t.quietCheck (coreOf k)
  | .fetch k => t.quietCheck (coreOf k)
  | .command q => t.cpAnswered (queueOf q)
  | _ => t

/-- The die and Peat port that serve a request (R456). -/
def servingPort (r : Req) : PortId := ⟨dieOf (r.pa / 2 ^ 49), Fin.ofNat 8 (portOf r.pa)⟩

/-- The requester of a request at a Cuff: the engines, the sequencers and the arriving remote traffic (R167). -/
def requester (r : Req) : Nat := r.owner.bufKey

/-- A request may transfer: the earlier requests of its sequencer are answered (R102), and the earlier writes of its
stream instruction to its granule have transferred, also where they came over the links: writes of one die to one granule
transfer in the order in which they arrived (R164). -/
def inTurn (s : State) (n : Nat) (r : Req) : Bool :=
  s.reqs.entries.all fun e =>
    if n ≤ e.1 ∨ e.2.gone then true
    else
      match r.owner, e.2.owner with
      | .seqLoad a, .seqStore b _ => decide (a ≠ b)
      | .seqStore a _, .seqStore b _ => decide (a ≠ b)
      | .seqStore a _, .seqLoad b => decide (a ≠ b)
      | .stream a i, .stream b j =>
        !(decide (a = b) && decide (i = j) && r.write && e.2.write && decide (e.2.st = .waiting) &&
          decide (e.2.pa / 64 = r.pa / 64))
      | .remote a _, .remote b _ =>
        !(decide (a = b) && r.write && e.2.write && decide (e.2.st = .waiting) && decide (e.2.die = r.die) &&
          decide (e.2.pa / 64 = r.pa / 64))
      | _, _ => true

/-- The requests that wait at the Cuff of a Peat path. -/
def waitingAt (s : State) (p : PortId) (write : Bool) : List (Nat × Req) :=
  s.reqs.entries.filter fun e =>
    decide (e.2.st = .waiting) && decide (servingPort e.2 = p) && (e.2.write == write) && s.inTurn e.1 e.2

/-- The lowest tag of a port and kind that no request holds (R457). DESIGN CHOICE, log entry 17. -/
def freeTag (s : State) (p : PortId) (write : Bool) : Option Nat :=
  let used := s.reqs.entries.filterMap fun e =>
    match e.2.st with
    | .port d q t => if d = p.die.val ∧ q = p.port.val ∧ e.2.write = write then some t else none
    | _ => none
  (List.range (if write then 512 else 1024)).find? fun t => !used.contains t

/-- The requests among which a Peat path has chosen its OFFER: those that waited when its last request transferred, or else the
first that has come since; an OFFER that is raised is held unchanged until it transfers (R455). -/
def offerFor (s : State) (p : PortId) (write : Bool) : List (Nat × Req) :=
  let l := (s.waitingAt p write).filter fun e => s.ownAdmits p.die e.2.pa e.2.partition e.2.ctx
  let old := l.filter fun e => decide (e.1 < (s.die p.die).offerFrom.get 0 (peatPath p.port.val write))
  if old.isEmpty then l.take 1 else old

/-- The OFFER of a Peat path: its request, its tag, and the state after its slot. A request that no Cuff holds back comes first;
else the Cuff chooses the partition, the rotation its requester, and of the requester's requests the oldest is offered
(R167, R273, R455). DESIGN CHOICE, log entry 17. -/
def offered (s : State) (p : PortId) (write : Bool) : Option (State × Nat × Req × Nat) :=
  let path := peatPath p.port.val write
  let l := s.offerFor p write
  match s.freeTag p write, l.find? fun e => e.2.ahead with
  | none, _ => none
  | some tag, some e => some (s.cuffTake p.die path e.2.partition 1 true, e.1, e.2, tag)
  | some tag, none =>
    match s.cuffSlot p.die path ((l.map (·.2.partition)).eraseDups) with
    | (t, some part) =>
      let mine := l.filter fun e => decide (e.2.partition = part)
      let who := nextAfter ((s.die p.die).cuffReq.get 0 (path * 16 + part)) (mine.map fun e => requester e.2)
      (mine.find? fun e => decide (who = some (requester e.2))).map fun e => (t, e.1, e.2, tag)
    | (_, none) => none

/-- A request transfers at its serving port when it is the one offered there; the ownership windows refuse it first (R287,
R455). -/
def transfer (s : State) (n : Nat) (write : Bool) : State :=
  match s.reqs.find? n with
  | none => s
  | some r =>
    let p := servingPort r
    if r.st ≠ .waiting ∨ r.write ≠ write ∨ !s.inTurn n r then s
    else if !s.ownAdmits p.die r.pa r.partition r.ctx then (s.ownRefuse p.die r.pa).answer n r .error
    else
      match s.offered p write with
      | none => s
      | some (t, m, _, tag) =>
        if m ≠ n then s
        else
          let path := peatPath p.port.val write
          let k := t.die p.die
          let t := t.setDie p.die { k with
            cuffReq := if r.ahead then k.cuffReq else k.cuffReq.put (path * 16 + r.partition) (requester r)
            offerFrom := k.offerFrom.put path t.reqNext
            useNext := k.useNext + 1 }
          { t with reqs := t.reqs.put n { r with
              st := .port p.die.val p.port.val tag
              sent := true
              sentAt := (t.die r.die).ticks
              snap := if write then [] else t.readBytes (r.pa / 64 * 64) 64
              sentNo := k.useNext } }

/-- The request that a response names (R457). -/
def byTag (s : State) (p : PortId) (tag : Nat) (write : Bool) : Option (Nat × Req) :=
  s.reqs.entries.find? fun e => decide (e.2.st = .port p.die.val p.port.val tag) && (e.2.write == write)

/-- A response whose tag has no request outstanding is dropped and reported (R457); a die in block reset has no one to report to
(R465). -/
def dropResponse (s : State) (p : PortId) (tag : Nat) (write : Bool) : State :=
  if (s.die p.die).stage = .held then s else s.report p.die 0x2501 (place p.port.val 16 + place (bit write) 15 + tag % 1024)

/-- The byte of a read's data at an offset of its granule: old, new, or that of a write on its way (R170, R458). -/
def readData (s : State) (r : Req) (i : Nat) : Byte :=
  let g := r.pa / 64
  let old := r.snap.getD i 0
  let sent := s.reqs.entries.filterMap fun e =>
    match e.2.st with
    | .port _ _ _ => if e.2.write ∧ e.2.pa / 64 = g then (e.2.data.find? fun b => decide (b.1 = i)).map (·.2) else none
    | _ => none
  let cands := (old :: s.readByte (g * 64 + i) :: sent).eraseDups
  cands.getD (Config.freeNat (64 * s.freeNext + i) % cands.length) old

/-- Read data returns (R455, R458). -/
def readReturn (s : State) (p : PortId) (tag : Nat) (fail : Bool) : State :=
  match s.byTag p tag false with
  | none => s.dropResponse p tag false
  | some (n, r) =>
    if fail then s.answer n r .error
    else
      let bs := (List.range 64).map (s.readData r)
      let s := s.draw.2
      s.answer n r (.data bs)

/-- A write is accepted: its bytes are in memory, in the order of the transfers (R164, R458). A failed one leaves
undefined bytes. DESIGN CHOICE, log entry 16. -/
def writeAccepted (s : State) (p : PortId) (tag : Nat) (fail : Bool) : State :=
  match s.byTag p tag true with
  | none => s.dropResponse p tag true
  | some (n, r) =>
    let g := r.pa / 64 * 64
    let f := s.draw
    let s := r.data.foldl (fun s b =>
      s.writeByte (g + b.1) (if fail then Config.freeByte f.1 b.1 else b.2)) (if fail then f.2 else s)
    let covered := fun b : Nat × Byte => r.data.any fun x => decide (x.1 = b.1)
    let s := { s with reqs := s.reqs.mapVals fun q =>
      match q.st with
      | .port _ _ _ =>
        if q.write ∧ q.pa / 64 = r.pa / 64 ∧ q.sentNo < r.sentNo then { q with data := q.data.filter fun b => !covered b } else q
      | _ => q }
    s.answer n r (if fail then .error else .accepted)

/-- A request has had no response for 1,000 counts: F-0705, and the reset ladder takes the engine, or the core of a
sequencer; of the command processor, the fence unit, the walker and the pool 1 allocator it counts as an error response
(R172, R263, R282, R358). For the pool 1 allocator, whose wait the spec does not bound, DESIGN CHOICE, log entry 82. -/
def unanswered (s : State) (n : Nat) : State :=
  match s.reqs.find? n with
  | none => s
  | some r =>
    let k := s.die r.die
    if r.gone ∨ !r.sent ∨ s.since r.die r.sentAt < 1000 ∨ k.orphans.any (fun o => decide (o.req = n)) then s
    else
      let lost := s.setDie r.die { k with orphans := k.orphans ++ [{ req := n, at' := none }] }
      match r.owner with
      | .stream x ord =>
        let c := coreOf x
        lost.startEvent (.stream c) 0x0705 fun lost =>
          if ord = imageOrd ∨ ord = mapImageOrd then lost.imageAbort c (ord = mapImageOrd) 0x0705 r.va
          else
            match (s.core c).strRun.find? fun q => decide (q.ins.ord = ord), (s.core c).strQ.find? fun i => decide (i.ord = ord) with
            | some run, _ => lost.streamAbort c run 0x0705 r.va r.va
            | none, some i => (lost.busDone c.die r.owner).streamAbort c { ins := i } 0x0705 r.va r.va
            | none, none => lost.abortReport c
      | .seqLoad x =>
        let c := coreOf x
        lost.startEvent (.core c) 0x0705 fun lost =>
          lost.seqFault c 0 0x0705 r.va r.va ((s.core c).code.get 0 (s.core c).seq.pc.toNat)
      | .seqStore x num =>
        let c := coreOf x
        let e := ((s.core c).stores.find? fun e => decide (e.1 = num)).getD (num, 0, 0)
        lost.startEvent (.core c) 0x0705 fun lost => lost.progFault c 0 0x0705 r.va r.va e.2.1.toNat e.2.2.toNat
      | .fetch x =>
        let c := coreOf x
        lost.startEvent (.core c) 0x0705 fun lost =>
          if (s.core c).run = .header then lost.hdrFault c 0x0705 r.va r.va
          else lost.progFault c 6 0x0705 r.va r.va (s.core c).seq.pc.toNat 0
      | .remote _ _ => s
      | .command q => (if lost.busOwns r.die n then lost.answerBus n r .error else lost).cpAnswered (queueOf q)
      | _ => if lost.busOwns r.die n then lost.answerBus n r .error else lost

end State

/-- PEAT_READ_REQUEST_TRANSFER (R455). -/
def execPeatReadRequestTransfer (r : Nat) (s : State) : Host.Outcome State Fault Refusal := .next (s.transfer r false)
/-- PEAT_WRITE_REQUEST_TRANSFER (R455). -/
def execPeatWriteRequestTransfer (r : Nat) (s : State) : Host.Outcome State Fault Refusal := .next (s.transfer r true)
/-- PEAT_READ_DATA (R455). -/
def execPeatReadData (p : PortId) (tag : Nat) (fail : Bool) (s : State) : Host.Outcome State Fault Refusal :=
  onDie s p.die (s.readReturn p tag fail)
/-- PEAT_WRITE_ACCEPTANCE (R458). -/
def execPeatWriteAcceptance (p : PortId) (tag : Nat) (fail : Bool) (s : State) : Host.Outcome State Fault Refusal :=
  onDie s p.die (s.writeAccepted p tag fail)
/-- UNANSWERED_REQUEST (R172). -/
def execUnansweredRequest (r : Nat) (s : State) : Host.Outcome State Fault Refusal := .next (s.unanswered r)

end Sys2Proof.Machine
end

