-- ==== Sys2Proof/Machine/Answers.lean ====
section
/-!
DEFINITION. Translation service: the end of a walk, posting, the driver's answers, replay, invalidation, partition roots
and the remote counters' period (R279, R282 to R286, R289 to R296, R299 to R303).
-/
namespace Sys2Proof.Machine

/-- FQ_RESP's fields (Table 14-6), and its reserved bits. -/
def fqAction (v : Nat) : Nat := field v 31 30
def fqSlot (v : Nat) : Nat := field v 25 16
def fqSeqOf (v : Nat) : Nat := field v 15 0
def fqRsv : W64 := 0xFFFFFFFF3C000000

/-- PART_ROOT's reserved bits, by word (Table 14-1). -/
def rootRsvLow : W64 := 0x3FF0000000000FFF
def rootRsvHigh : W64 := 0xFFE00000FFFFFFFF

namespace State

/-- An access that waited for translation goes on: at once, or when the event that makes it is next offered. -/
def goOn (s : State) : Owner → State
  | .stream k ord => (s.updRun (coreOf k) ord fun r => { r with held := false }).pumpStream (coreOf k)
  | .seqLoad k => s.pumpSeq (coreOf k)
  | .seqStore k _ => s.pumpSeq (coreOf k)
  | .accept q => s.walkOn (queueOf q)
  | .fence n => s.fenceSend n
  | .event _ => s.retryEvents
  | _ => s

/-- Misses that found sixteen walks running look again, in the order in which they came, while fewer run: each may hit by
now, merge into a record of its page, or walk (R286, R289). -/
def nextWalks (s : State) (d : DieId) : Nat → State
  | 0 => s
  | fuel + 1 =>
    let k := s.die d
    match k.walkWait with
    | [] => s
    | w :: rest =>
      if 16 ≤ k.walks.length then s
      else
        let s := s.setDie d { k with walkWait := rest }
        let acc := Access.ofBits w.2.2.2.1
        let va := w.2.2.1
        (match s.xlate d w.1.bufKey w.2.1 w.2.2.2.2 va acc, if w.1.isPin then none else s.pageSlot d w.2.1 va with
         | .miss, some i => s.faultAccess d ((s.die d).fq.get {} i).cause 0 w.1 w.2.1 w.2.2.2.2 va acc
         | .miss, none => s.startWalk d w.1 w.2.1 w.2.2.2.2 va acc
         | _, _ => s.goOn w.1).nextWalks d fuel

/-- The end of what a walk has found unmapped: the start of the next entry above, of those that it has read. -/
def walkAbove (s : State) (d : DieId) (w : Walk) : Nat :=
  let seen := (s.die d).bus.filterMap fun b =>
    if b.owner = .walk w.partition (w.va / 4096) then
      match b.result with
      | .ok bs => some (RawEnt.ofBytes bs).va
      | _ => none
    else none
  ((seen.filter fun x => decide (w.va < x)).min?).getD (2 ^ 64)

/-- The result of a walk for one access that waits on it: a fault, which a pre-translation only notes (R158, R289). -/
def walkFault (s : State) (d : DieId) (w : Walk) (above : Nat) (c : FaultCause) (a : Owner × Nat × Nat × Nat) : State :=
  match a.1 with
  | .pin q => s.setDie d { s.die d with pinMiss := (s.die d).pinMiss ++ [(q, a.2.1, above)] }
  | o => s.faultAccess d c 0 o w.partition a.2.2.2 a.2.1 (Access.ofBits a.2.2.1)

/-- WALK_END: the next read of a walk is made, or its result is installed for the units that missed, which go on, or is their
fault; where an invalidation has overlapped its entry, nothing is installed, and each unit translates anew, under the root
then in force (R282, R285, R286, R301). Misses that wait for a walk follow. -/
def walkEnd (s : State) (d : DieId) (n : Nat) : State :=
  match (s.die d).walks[n]? with
  | none => s
  | some w =>
    let o : Owner := .walk w.partition (w.va / 4096)
    match s.tableWalk d o w.partition w.tablePa w.count w.va with
    | (t, .wait) => t
    | (t, res) =>
      let above := t.walkAbove d w
      let t := t.busDone d o
      let k := t.die d
      let t := t.setDie d { k with walks := k.walks.eraseIdx n }
      let t : State := match res with
        | .fault c => w.waiters.foldl (fun t a => t.walkFault d w above c a) t
        | .found e =>
          let t := if w.spans.any fun x => e.overlaps x.1 x.2 then t else w.waiters.foldl (fun t a => t.install d a.1 e) t
          w.waiters.foldl (fun t a => t.goOn a.1) t
        | .wait => t
      t.nextWalks d ((t.die d).walkWait.length)

/-- DEFERRED_FAULT_POST: the fault that has waited longest is posted once a slot is free, or merges into a record posted
since (R289, R291). -/
def postDeferred (s : State) (d : DieId) : State :=
  let k := s.die d
  match k.fqWait with
  | [] => s
  | w :: rest =>
    match s.mergeSlot d w.cause w.partition w.va w.range with
    | some i => (s.setDie d { k with fqWait := rest }).mergeInto d i w.owner w.va w.access w.ctx
    | none =>
      match s.freeSlot d with
      | some i => (s.setDie d { k with fqWait := rest }).postFault d i w
      | none => s

/-- The outcome of a FAIL answer for one stalled access, of a unit as it stood when the answer came: the outcome of another access
of the answer takes nothing from it (R294). -/
def failAccess (old s : State) (d : DieId) (a : Owner × Nat × Nat × Nat) : State :=
  let va := a.2.1
  let ctx := a.2.2.2
  let lost := fun s : State => s.lose d ctx 0x1401 1 (.outside 0x1401 va)
  match a.1 with
  | .stream k ord =>
    let c := coreOf k
    if ord = imageOrd ∨ ord = mapImageOrd then s.imageAbort c (ord = mapImageOrd) 0x1401 va
    else
      match ((old.core c).strRun ++ ((old.core c).strQ.map fun i : EInstr => ({ ins := i } : StreamRun))).find? fun r => decide (r.ins.ord = ord) with
      | some r => s.streamAbort c r 0x1401 va va
      | none => s
  | .seqLoad k => s.seqFault (coreOf k) 0 0x1401 va va ((s.core (coreOf k)).code.get 0 (s.core (coreOf k)).seq.pc.toNat)
  | .seqStore k _ => s.seqFault (coreOf k) 0 0x1401 va va ((s.core (coreOf k)).code.get 0 (s.core (coreOf k)).seq.pc.toNat)
  | .fetch k =>
    if (old.core (coreOf k)).run = .header then s.hdrFault (coreOf k) 0x1401 va va
    else s.progFault (coreOf k) 6 0x1401 va va (s.core (coreOf k)).seq.pc.toNat 0
  | .fence n =>
    match s.fences.find? n with
    | some f => ({ s with fences := s.fences.put n { f with result := some false, bad := true } }).sendMsg d d (.fenceRes n)
    | none => s
  | .accept q =>
    let k := s.queue (queueOf q)
    if k.st = .destroying ∨ (s.ctx k.ctx).st = .lost then
      (s.updQueue (queueOf q) fun k => { k with walkFail := k.walkFail ++ [va] }).walkOn (queueOf q)
    else lost s
  | .event n =>
    match (s.die d).evWait.find? fun e => decide (e.1 = n) with
    | none => s
    | some e =>
      let k := s.die d
      let s := s.setDie d { k with evWait := k.evWait.filter fun x => decide (x.1 ≠ n) }
      (s.eventFailed d e.2.1 e.2.2.2 0x1305 va).retryEvents
  | _ => lost s

/-- The record that an answer names: the slot's, with its sequence number, of the type the action suits (R292). -/
def answered (s : State) (d : DieId) (v : Nat) : Option FqRec :=
  match (s.die d).fq.find? (fqSlot v) with
  | some r => if r.seq.toNat = fqSeqOf v ∧ r.hot = decide (fqAction v = 3) then some r else none
  | none => none

/-- The answer takes effect: the slot is freed; the accesses replay, fail, or a HOT record is gone (R292). -/
def fqAnswer (s : State) (d : DieId) (v : Nat) : State :=
  match s.answered d v with
  | none => s
  | some r =>
    let k := s.die d
    let s := s.setDie d { k with fq := k.fq.erase (fqSlot v) }
    let s := if r.hot then s else s.hmEvent d 2 (fun n => decide (n = 0)) (sampleOf (k.count - r.time).toNat)
    match fqAction v with
    | 1 => s.setDie d { s.die d with replays := (s.die d).replays ++ r.accs }
    | 2 => r.accs.foldl (fun t a => failAccess s t d a) s
    | _ => s

/-- A write of FQ_RESP whose covered ACTION is that of the row (R292, R489). -/
def fqRow (s : State) (action : Nat) (role strb : Byte) (d : DieId) (v : W64) : State :=
  if fqAction v.toNat ≠ action then s
  else if !s.hasDie d then s.crownErr
  else
    s.driverWrite role strb fun m =>
      let s := s.rsvdWrite d v m fqRsv
      if bitAt m.toNat 0 then s.fqAnswer d v.toNat else s

/-- REPLAY: an access that a RETRY has released is made again with the rest of its tile, translating afresh (R293). -/
def replay (s : State) (d : DieId) (n : Nat) : State :=
  match (s.die d).replays[n]? with
  | none => s
  | some a =>
    let k := s.die d
    let s := s.setDie d { k with replays := k.replays.eraseIdx n }
    match a.1 with
    | .stream c ord => (s.replayTile (coreOf c) ord a.2.1).pumpStream (coreOf c)
    | o => s.goOn o

/-- HOT_PERIOD_EXPIRY: the remote counters of the die are cleared (R303). -/
def hotPeriodEnd (s : State) (d : DieId) : State :=
  let k := s.die d
  if s.since d k.hotAt < 100 * max 1 k.hotPeriod.toNat then s
  else s.setDie d { k with l2 := k.l2.map fun e => { e with hot := 0, hotPosted := false }, hotAt := k.ticks }

/-- A write of a word of PART_ROOT: reserved bits read 0; the write that covers byte 7 commits the register to every die,
but for a MODE of 0b11, which is ignored as a whole (R8, R279, R489). DEDUCED, log entry 58. -/
def rootWrite (s : State) (role strb : Byte) (p : Fin 16) (high : Bool) (v : W64) : State :=
  s.driverWrite role strb fun m =>
    let old := s.partRoot.get 0 p.val
    let lo : W64 := BitVec.ofNat 64 old.toNat
    let hi : W64 := BitVec.ofNat 64 (old.toNat / 2 ^ 64)
    let new : BitVec 128 := if high then (mergeW hi (v &&& ~~~rootRsvHigh) m) ++ lo
      else hi ++ (mergeW lo (v &&& ~~~rootRsvLow) m)
    let commit := !high && bitAt m.toNat 63
    if commit && decide (rootMode new = 3) then s.setDie die0 { s.die die0 with rsvdWrite := true }
    else
      let s := s.rsvdWrite die0 v m (if high then rootRsvHigh else rootRsvLow)
      let s := { s with partRoot := s.partRoot.setD 0 p.val new }
      if commit then
        let s := { s with rootInval := s.rootInval.setD false p.val false }
        s.allDies.foldl (fun s d => s.setDie d { s.die d with roots := (s.die d).roots.setD 0 p.val new }) s
      else s

/-- The translations of a partition that a die holds and that overlap a span: range buffers, second level, and the Kindling
segments in the slots of its contexts (R296, R299). -/
def heldIn (s : State) (d : DieId) (p base n : Nat) : List RangeEnt :=
  let k := s.die d
  let segs := (k.slots.filter fun x => decide ((s.ctx x.ctx).partition = p)).flatMap fun x =>
    (List.range 8).filterMap (segEnt p x.ctx x.segs)
  (k.l2 ++ k.bufs.values.flatten ++ segs).filter fun e => decide (e.partition = p) && e.overlaps base n

/-- INVALIDATION: a die removes what it holds of a span, marks its walks, reloads the segment blocks of the partition's
contexts, and notes the requests and fence signals to wait for. A die in reset serves none (R353). Under another MODE the segments held stay, but for an invalidation of the
whole space (R286, R296, R299, R301). -/
def invalidate (s : State) (m : Nat) : State :=
  match s.msgAt m with
  | some (dst, _, .inval q p base len) =>
    let d := dieOf dst
    let mine := (s.die d).slots.filter fun x => decide ((s.ctx x.ctx).partition = p)
    let r := mine.foldl (init := (s, true)) fun (acc : State × Bool) x =>
      let y := acc.1.segsRead d x.ctx (m + 1)
      (y.1, acc.2 && y.2)
    if !s.cpRuns d then s
    else if !r.2 then r.1
    else
      let s := (r.1.takeMsg m).withdraw d fun o =>
        match o with
        | .segs c 0 => decide ((s.ctx c).partition = p)
        | _ => false
      let n := if len = 0 then 2 ^ 64 else len
      let gone := fun e : RangeEnt => decide (e.partition = p) && e.overlaps base n
      let k := s.die d
      let removed := s.heldIn d p base n
      let uses := fun (range ctx : Nat) => removed.any fun e => decide (e.va = range) && (e.seg.isNone || decide (e.seg = some ctx))
      let wait := (s.reqs.entries.filter fun e =>
        decide (e.2.die = d) && decide (e.2.partition = p) && uses e.2.range e.2.ctx).map (·.1)
      let sigs := (s.fences.entries.filter fun e =>
        decide (dieOf e.2.src = d) && decide ((s.ctx e.2.ctx).partition = p) && e.2.pa.isSome && e.2.result.isNone &&
          uses e.2.range e.2.ctx).map (·.1)
      let drop := decide (len = 0) && decide (rootMode (k.roots.get 0 p) ≠ 2)
      let s := s.setDie d { k with
        l2 := k.l2.filter fun e => !gone e
        bufs := k.bufs.mapVals fun l => l.filter fun e => !gone e
        slots := k.slots.map fun x => if drop && mine.contains x then { x with segs := [] } else x
        walks := k.walks.map fun w => if w.partition = p then { w with spans := w.spans ++ [(base, n)] } else w
        invals := k.invals ++ [(q, p, wait, sigs)] }
      mine.foldl (fun s x => s.loadSegs d x.ctx (m + 1)) s
  | _ => s

/-- A die's acknowledgement reaches the home die; the last one completes the INVAL (R296, R484). -/
def invalAck (s : State) (q : QueueId) (d : DieId) : State :=
  let k := s.queue q
  match k.wait with
  | .inval l =>
    let l := l.filter (· ≠ d.val)
    if !l.isEmpty then s.setQueue q { k with wait := .inval l }
    else
      let whole := decide (fieldAt k.cmd 0x10 8 = 0)
      let s := if whole then { s with rootInval := s.rootInval.setD false (s.queuePart q) true } else s
      if k.stopping.isSome then (s.setQueue q { k with wait := .none }).stopAck q cpUnit else s.cmdDone q 32
  | _ => s

/-- INVALIDATION_ACKNOWLEDGEMENT: a die whose requests and fence signals have all been answered acknowledges, or its
acknowledgement arrives at the home die; a die in reset does neither (R296, R353, R363). -/
def invalAckRow (s : State) (d : DieId) (q : QueueId) : State :=
  match s.msgFor (.invalAck q.key d.val) with
  | some (m, _) => if s.cpRuns q.die then (s.takeMsg m).invalAck q d else s
  | none =>
    let k := s.die d
    let flies := fun n => ((s.fences.find? n).map fun f => f.pa.isSome && f.result.isNone).getD false
    match k.invals.find? fun e => decide (e.1 = q.key) with
    | none => s
    | some e =>
      if !s.cpRuns d || (e.2.2.1.any fun n => (s.reqs.find? n).isSome) || e.2.2.2.any flies then s
      else
        let s := s.setDie d { k with invals := k.invals.erase e }
        if d = q.die then s.invalAck q d else s.sendMsg d q.die (.invalAck q.key d.val)

end State

/-- WALK_END (R282). -/
def execWalkEnd (d : DieId) (n : Nat) (s : State) : Host.Outcome State Fault Refusal := onDie s d (s.walkEnd d n)
/-- DEFERRED_FAULT_POST (R291). -/
def execDeferredFaultPost (d : DieId) (s : State) : Host.Outcome State Fault Refusal := onDie s d (s.postDeferred d)
/-- RETRY (R292). -/
def execRetry (role strb : Byte) (d : DieId) (v : W64) (s : State) : Host.Outcome State Fault Refusal := .next (s.fqRow 1 role strb d v)
/-- FAIL (R294). -/
def execFail (role strb : Byte) (d : DieId) (v : W64) (s : State) : Host.Outcome State Fault Refusal := .next (s.fqRow 2 role strb d v)
/-- ACK (R292). -/
def execAck (role strb : Byte) (d : DieId) (v : W64) (s : State) : Host.Outcome State Fault Refusal := .next (s.fqRow 3 role strb d v)
/-- REPLAY (R293). -/
def execReplay (d : DieId) (n : Nat) (s : State) : Host.Outcome State Fault Refusal := onDie s d (s.replay d n)
/-- HOT_PERIOD_EXPIRY (R303). -/
def execHotPeriodExpiry (d : DieId) (s : State) : Host.Outcome State Fault Refusal := onDie s d (s.hotPeriodEnd d)
/-- PART_ROOT_COMMIT (R279). -/
def execPartRootCommit (role strb : Byte) (p : Fin 16) (v : W64) (s : State) : Host.Outcome State Fault Refusal :=
  .next (s.rootWrite role strb p false v)
/-- INVALIDATION (R296). -/
def execInvalidation (m : Nat) (s : State) : Host.Outcome State Fault Refusal := .next (s.invalidate m)
/-- INVALIDATION_ACKNOWLEDGEMENT (R296). -/
def execInvalidationAcknowledgement (d : DieId) (q : QueueId) (s : State) : Host.Outcome State Fault Refusal :=
  onDie s d (s.invalAckRow d q).objNext

end Sys2Proof.Machine
end

