-- ==== Sys2Proof/Machine/Links.lean ====
section
/-!
DEFINITION. The Mitten links: reception, retry, credits, lane training, failure, and routes (R311 to R320, R343, R462,
R482).
-/
namespace Sys2Proof.Machine

/-- A count of receive buffers that is all zero. -/
def noFree : List Nat := [0, 0, 0, 0, 0, 0, 0]

/-- The transmit lane that an identity word names (R317). -/
def identLane (w : W16) : Option Nat :=
  let k := field w.toNat 11 6
  if field w.toNat 15 12 = 0b1010 ∧ field w.toNat 5 0 = 63 - k ∧ k < 48 then some k else none

/-- What a receive lane has shown: the transmit lane and whether it is inverted; none where no lane is credited
(Table 15-5). -/
def laneVerdict (x : LaneSeen) : Option (Nat × Bool) :=
  if !x.steady then none
  else
    match identLane x.word with
    | some k => some (k, false)
    | none => (identLane (~~~x.word)).map fun k => (k, true)

/-- The mask with the bits of a list set. -/
def maskOf (n : Nat) (l : List Nat) : BitVec n := BitVec.ofNat n (l.eraseDups.foldl (fun m i => m + 2 ^ i) 0)

/-- Whether a die reaches another over at most `n` hops of announced links (R319). -/
def within (topo : SMap (List Nat)) (dst : Nat) : Nat → Nat → Bool
  | 0, src => decide (src = dst)
  | n + 1, src => decide (src = dst) || (topo.get [] src).any fun f => decide (f < 8) && within topo dst n f

/-- The first link of a die's route to another: a path of fewest hops, and of those the lowest link (R319). -/
def firstLink (topo : SMap (List Nat)) (d dst : Nat) : Option Nat :=
  let far := topo.get [] d
  (List.range 3).findSome? fun h =>
    (List.range 4).find? fun l => decide (far.getD l 0xFF < 8) && within topo dst h (far.getD l 0xFF)

/-- The transmit lanes of logical lanes 0 to 45: those that are not retired, in ascending order (R317). -/
def logicalLanes (retired : BitVec 48) : List Nat := ((List.range 48).filter fun k => !bitAt retired.toNat k).take 46

/-- A link as it is when DOWN: what the port and the counts of Table 15-9 keep. -/
def Link.down (k : Link) : Link :=
  { st := .down, enabled := k.enabled, phyReady := k.phyReady, retrains := k.retrains, replays := k.replays,
    crcErrors := k.crcErrors, hmReplays := k.hmReplays, hmAt := k.hmAt }

/-- The states of a training or retraining. -/
def Link.training (k : Link) : Bool :=
  decide (k.st = .ident) || decide (k.st = .report) || decide (k.st = .align) || decide (k.st = .retrain)

/-- A training moves to a step (Table 15-4); RETRAIN keeps its state. -/
def Link.toStep (k : Link) (step : TrainStep) (now : Nat) : Link :=
  { k with
    step := step
    phaseAt := now
    st := if k.st = .retrain then .retrain else
      match step with
      | .ident => .ident
      | .report => .report
      | .align => .align }

namespace State

/-- F-1505 on a die: it sets STOPPED before READY (R318, R482). DEDUCED, log entry 37. -/
def topologyConflict (s : State) (d : DieId) (far : Nat) : State :=
  let s := s.report d 0x1505 far
  let k := s.die d
  s.setDie d { k with
    linkConflict := true
    stopped := k.stopped || decide (k.stage ≠ .ready)
    failCode := if k.failCode = 0 ∧ k.stage ≠ .ready then 0x1505 else k.failCode }

/-- A link becomes FAILED: every request that holds a credit of it on the die fails with F-0704 (R320), and the flits that wait
to be forwarded over it are lost and free the buffers that they occupy (R314). The far end that it has heard stays known
(Table 15-4). DEDUCED, log entry 37. -/
def failLink (s : State) (l : LinkId) : State :=
  let k := s.link l
  let s := s.setLink l { k.down with st := .failed, enabled := k.enabled, retired := k.retired, inverted := k.inverted,
                                     remapped := k.remapped, farDie := k.farDie, farLink := k.farLink, heard := k.heard }
  let s := k.waiting.foldl (fun s f => s.freeVia l.die f) s
  k.e2e.values.foldl (fun s n => match s.reqs.find? n with
    | some r => s.answer n r .error
    | none => s) s

/-- A link becomes FAILED with F-1502 (R316, R482). -/
def linkFailed (s : State) (l : LinkId) : State := (s.failLink l).report l.die 0x1502 l.link.val

/-- A link that is DOWN, enabled and ready at the PHY starts its training (Table 15-4). -/
def startTraining (s : State) (l : LinkId) : State :=
  let k := s.link l
  let now := (s.die l.die).ticks
  if k.st = .down && k.enabled && k.phyReady then
    s.setLink l { k.toStep .ident now with trainAt := now, restarts := 0 }
  else s

/-- A link that is not in the build of a package of one die, or not in the latched strap map (Table 15-4, R463). -/
def linkUnused (s : State) (l : LinkId) : Bool :=
  decide (s.build.dies = 1) || !bitAt (s.die l.die).linkUse.toNat l.link.val

/-- A link goes DOWN, and from there it is UNUSED, or trains again where start-up has enabled it (Table 15-4). -/
def linkDown (s : State) (l : LinkId) : State :=
  let k := (s.link l).down
  if s.linkUnused l then s.setLink l { k with st := .unused } else (s.setLink l k).startTraining l

/-- Start-up enables a link: an unused one becomes UNUSED, one with a reserved rate FAILED, and a fitted one raises
MT_TRAIN (R463, R482, Table 25-6). -/
def enableLink (s : State) (l : LinkId) : State :=
  let k := s.link l
  if k.st ≠ .down then s
  else if s.linkUnused l then s.setLink l { k with st := .unused }
  else if 5 < (s.die l.die).linkRate.get 5 l.link.val then s.linkFailed l
  else (s.setLink l { k with enabled := true }).startTraining l

/-- The four links of a die. -/
def dieLinks (d : DieId) : List LinkId := (List.range 4).map fun i => ⟨d, Fin.ofNat 4 i⟩

/-- The compute part of a die is reset: a FAILED link of the die, and one of another die that leads to it, goes DOWN
(Table 15-4). -/
def linksReset (s : State) (d : DieId) : State :=
  ((s.allDies.flatMap dieLinks).filter fun l =>
      let k := s.link l
      decide (k.st = .failed) && (decide (l.die = d) || (k.heard && decide (k.farDie = d.val)))).foldl linkDown s

/-- The compute part of a die leaves reset: its links go DOWN and train again (Table 15-4), but for those that are ACTIVE or in
RETRAIN, which run through any reset (R351, R485). DEDUCED, log entry 38. -/
def linksReleased (s : State) (d : DieId) : State :=
  ((dieLinks d).filter fun l => !(decide ((s.link l).st = .active) || decide ((s.link l).st = .retrain))).foldl linkDown s

/-- An ACTIVE link enters RETRAIN with its retry buffer and credits (R316); the credits that IDLE flits on their way carry are
not lost with them. DEDUCED, log entry 38. -/
def retrain (s : State) (l : LinkId) : State :=
  let k := s.link l
  let now := (s.die l.die).ticks
  let idle := k.wire.filter fun f => decide (f.body = .idle)
  s.setLink l { k with
    st := .retrain
    step := .ident
    phaseAt := now
    trainAt := now
    restarts := 0
    wire := []
    credits := idle.foldl (fun c f => c.mapIdx fun i n => n + f.cret.getD i 0) k.credits
    replayAt := []
    before := k.retired
    retrains := satInc k.retrains }

/-- The held flits go out again, in order. -/
def resend (s : State) (l : LinkId) (count : Nat) : State :=
  let k := s.link l
  let now := (s.die l.die).ticks
  let s := s.setLink l { k with held := k.held.map fun h => (h.1, now, h.2.2 + count) }
  let e := s.farEnd l
  let r := s.link e
  s.setLink e { r with wire := r.wire ++ k.held.map (·.1) }

/-- A replay from the oldest held flit: eight replays within 1,000 counts, or four of one flit, move the link to RETRAIN
(R313, R316). -/
def replayHeld (s : State) (l : LinkId) : State :=
  let k := s.link l
  if k.held.isEmpty then s
  else
    let now := (s.die l.die).ticks
    let recent := (k.replayAt.filter fun t => decide (now - t < 1000)) ++ [now]
    let s := s.setLink l { k with replayAt := recent, replays := satInc k.replays, hmReplays := k.hmReplays + 1 }
    let s := s.resend l 1
    if 8 ≤ recent.length ∨ (s.link l).held.any (fun h => decide (4 ≤ h.2.2)) then s.retrain l else s

/-- The transmitter takes an ACK and a NAK: acknowledged flits leave the retry buffer, and a NAK replays the rest
(R313). -/
def takeAck (s : State) (l : LinkId) (f : Flit) : State :=
  let k := s.link l
  let last := f.nak.getD (f.ack.getD 1024)
  let held := if k.held.any (fun h => decide (h.1.seq = last)) then
      (k.held.dropWhile fun h => decide (h.1.seq ≠ last)).drop 1
    else k.held
  let s := s.setLink l { k with held := held, credits := k.credits.mapIdx fun i n => n + f.cret.getD i 0 }
  if f.nak.isSome then s.replayHeld l else s

/-- What a received flit owes goes back with the next flit: one that waits, or an IDLE flit. -/
def reply (s : State) (l : LinkId) : State :=
  let sent := (s.link l).txSeq
  let s := s.pump l
  if (s.link l).txSeq = sent then s.sendIdle l else s

/-- A request from another die joins the requests of the die that serves it (R302). -/
def serveRemote (s : State) (d : DieId) (f : Flit) (write : Bool) (data : List (Nat × Byte)) : State :=
  s.addReq { owner := .remote f.src f.tag, die := d, partition := f.partition, ctx := f.ctx, queue := 0, va := f.addr,
             pa := f.addr, write := write, data := data, ahead := f.ahead, fromDie := some f.src }

/-- The request that a response answers, by its TAG (R315); its credit is returned. One whose credit has been given back after
a reset is discarded and counted in STRAY (R355). -/
def respFlit (s : State) (d : DieId) (f : Flit) (a : Answer) : State :=
  let l : LinkId := ⟨d, Fin.ofNat 4 (f.tag / 2048)⟩
  let k := s.link l
  match k.e2e.find? (f.tag % 2048) with
  | none => s.setDie d { s.die d with stray := satInc (s.die d).stray }
  | some n =>
    let s := s.setLink l { k with e2e := k.e2e.erase (f.tag % 2048) }
    match s.reqs.find? n with
    | some r => (s.answer n r a).pumpDie d
    | none => s

/-- A die other than die 0 with a route to it starts an alignment of its counter; without one it does so when it has one, and
while its counter holds when the hold is over (R343, R345). DEDUCED, log entry 51. -/
def startAlign (s : State) (d : DieId) (periodic : Bool) : State :=
  let k := s.die d
  if d = die0 then s
  else if !s.reaches d 0 ∨ k.holding ≠ 0 then
    s.setDie d { k with aligning := false, exchanges := [], alignDue := k.alignDue || !periodic }
  else s.setDie d { k with aligning := true, alignPeriodic := periodic, alignNext := 0, exchanges := [], alignDue := false }

/-- Every link of a die has been trained: ACTIVE, FAILED or UNUSED. -/
def linksTrained (s : State) (d : DieId) : Bool :=
  (dieLinks d).all fun l =>
    let st := (s.link l).st
    decide (st = .active) || decide (st = .failed) || decide (st = .unused)

/-- A route computation of a die reports the dies that it does not reach with F-1503: where one has just been lost, or where
every link has been trained and it has not reported them yet (R308, R319, R325). DEDUCED, log entry 37. -/
def reportUnreached (s : State) (d : DieId) (lost : Bool) : State :=
  let m := s.unreachMask d
  let k := s.die d
  if m = 0 then s.setDie d { k with unreached := 0 }
  else if lost || (s.linksTrained d && decide (k.unreached ≠ m)) then
    (s.setDie d { k with unreached := m }).report d 0x1503 m
  else s

/-- A die computes its routes again (R319). A destination whose route has changed takes no new request until the earlier
ones are answered (R320); dies that are not reached are reported with F-1503; and a counter that is not aligned is, once
die 0 is reached (R343). -/
def computeRoutes (s : State) (d : DieId) : State :=
  let k := s.die d
  let dests := (List.range s.build.dies).filter fun e => decide (e ≠ d.val)
  let routes := dests.foldl (fun (m : SMap Nat) e => match firstLink k.topology d.val e with
    | some l => m.put e l
    | none => m) {}
  let changed := dests.filter fun e => decide (k.routes.find? e ≠ none) && decide (k.routes.find? e ≠ routes.find? e)
  let out := fun e => (s.reqs.entries.filter fun r =>
    decide (r.2.die = d) && decide (r.2.pa / 2 ^ 49 = e) && (match r.2.st with | .remote _ _ => true | _ => false)).map (·.1)
  let lost := dests.any fun e => decide (k.routes.find? e ≠ none) && decide (routes.find? e = none)
  let s := s.setDie d { k with
    routes := routes
    draining := changed.foldl (fun m e => m.put e (m.get [] e ++ out e)) k.draining }
  let s := s.reportUnreached d lost
  let k := s.die d
  (if k.alignDue || !(k.aligned || k.aligning || k.alignAfter) then s.startAlign d false else s).pumpDie d

/-- The far dies of a die's ACTIVE links, 0xFF for any other link (R318). -/
def farDies (s : State) (d : DieId) : List Nat :=
  (dieLinks d).map fun l => if (s.link l).st = .active then (s.link l).farDie else 0xFF

/-- A die sends announcements that it holds to its neighbours over its ACTIVE links (R318). -/
def tellAll (s : State) (d : DieId) (known : List (Nat × List Nat)) : State :=
  ((dieLinks d).filter fun l => decide ((s.link l).st = .active)).foldl (fun s l =>
    known.foldl (fun s e =>
      s.enqueueFlit l { body := .ctl (.topology e.1 ((s.die d).topologyNo.get 0 e.1) e.2), dst := (s.link l).farDie,
                        src := d.val }) s) s

/-- TOPOLOGY_ANNOUNCEMENT: a die announces its ACTIVE links to every die, and computes its routes again (R318, R319): it sends
what it knows of every die over each of them. DESIGN CHOICE, log entry 36. -/
def announce (s : State) (d : DieId) : State :=
  let k := s.die d
  if k.stage = .held then s
  else
    let s := s.setDie d { k with
      topology := k.topology.put d.val (s.farDies d)
      topologyNo := k.topologyNo.put d.val (k.topologyNo.get 0 d.val + 1) }
    (s.tellAll d (s.die d).topology.entries).computeRoutes d

/-- An announcement reaches a die: one that is newer than what it holds goes on to its other neighbours, and it computes its
routes again. Its own comes back from before a reset with a number that it has yet to reach: it announces itself with a
higher one (R318, R319). DESIGN CHOICE, log entry 36. -/
def learn (s : State) (d : DieId) (die no : Nat) (far : List Nat) : State :=
  let k := s.die d
  let mine := k.topologyNo.get 0 die
  if die = d.val then
    if mine < no then (s.setDie d { k with topologyNo := k.topologyNo.put die no }).announce d else s
  else if no ≤ mine then s
  else
    let s := s.setDie d { k with topology := k.topology.put die far, topologyNo := k.topologyNo.put die no }
    (s.tellAll d [(die, far)]).computeRoutes d

/-- A control message is consumed at its destination: a semaphore answer goes to its core, a die learns an
announcement, and the second half of a distribution record completes the first (R311, R314, R318). DEDUCED, log entry 36. -/
def consumeMsg (s : State) (d : DieId) (src : Nat) (m : Msg) : State :=
  let k := s.die d
  match m with
  | .semAns core granted =>
    let c := coreOf core
    if (s.core c).remoteWait then (s.semResult c granted).settle c else s
  | .topology die no far => s.learn d die no far
  | .distA half => s.setDie d { k with distHalf := k.distHalf.put src half }
  | .distB half =>
    (s.setDie d { k with distHalf := k.distHalf.erase src }).deliverMsg src d.val (.dist (k.distHalf.get [] src ++ half))
  | m => s.deliverMsg src d.val m

/-- A flit is consumed at its destination (R311, R314). -/
def consume (s : State) (l : LinkId) (f : Flit) : State :=
  let d := l.die
  match f.body with
  | .idle => s
  | .rd => s.serveRemote d f false []
  | .wr bs => s.serveRemote d f true (maskedData bs (BitVec.allOnes 64))
  | .wrm _ => s.setLink l { s.link l with mask := some f }
  | .wrd bs =>
    match (s.link l).mask.map Flit.body with
    | some (FlitBody.wrm m) => (s.setLink l { s.link l with mask := none }).serveRemote d f true (maskedData bs m)
    | _ => s
  | .rdr bs => s.respFlit d f (.data bs)
  | .wra => s.respFlit d f .accepted
  | .err => s.respFlit d f .error
  | .ctl m => s.consumeMsg d f.src m

/-- The link on which a die sends a flit on: that of its route, at the next level; none where there is no route, its link has
failed, or the flit has made its three hops (R314, R319). DEDUCED, log entry 36. -/
def onward (s : State) (l : LinkId) (f : Flit) : Option LinkId :=
  if f.level < 3 then (s.routeOf l.die f.dst).filter fun o => decide ((s.link o).st = .active) || decide ((s.link o).st = .retrain)
  else none

/-- A good flit: an IDLE flit carries its ACK and credits; any other is taken in SEQ order, and one that is out of order
is discarded (R313). One that the die forwards occupies its receive buffer until it has gone on (R314). -/
def goodFlit (s : State) (l : LinkId) (f : Flit) : State :=
  if f.body = .idle then (s.takeAck l f).pump l
  else
    let k := s.link l
    if f.seq ≠ k.rxSeq then s.reply l
    else
      let b := f.buffer.getD 6
      let out := if f.dst = l.die.val then none else s.onward l f
      let s := s.setLink l { k with rxSeq := (k.rxSeq + 1) % 1024, free := if out.isSome then k.free else bump k.free b 1 }
      let s := s.takeAck l f
      (match out with
       | some o => s.enqueueFlit o { f with level := f.level + 1, ack := none, nak := none, cret := [], via := some (l.link.val, b) }
       | none => if f.dst = l.die.val then s.consume l f else s).reply l

/-- FLIT: the next flit on the wire arrives, as the bytes that were sent, or as the given bytes. A bad flit is counted,
discarded and answered with NAK; what a bad IDLE flit carries comes again with the next one. DESIGN CHOICE, log entry 35. -/
def flit (s : State) (l : LinkId) (raw : List Byte) : State :=
  let k := s.link l
  if k.st ≠ .active then s
  else if !raw.isEmpty && flitBad raw then
    let wire := match k.wire with
      | f :: rest => if f.body = .idle then k.wire else rest
      | [] => []
    (s.setLink l { k with wire := wire, nakDue := true, crcErrors := satInc k.crcErrors }).reply l
  else
    match k.wire with
    | [] => s
    | f :: rest => (s.setLink l { k with wire := rest }).goodFlit l (if raw.isEmpty then f else f.ofRaw raw)

/-- ACK_TIMEOUT: no ACK for the oldest held flit within 200 counts (R313). -/
def ackTimeout (s : State) (l : LinkId) : State :=
  let k := s.link l
  match k.held with
  | [] => s
  | h :: _ => if k.st = .active ∧ 200 ≤ s.since l.die h.2.1 then s.replayHeld l else s

/-- MT_PHY_READY. -/
def phyReady (s : State) (l : LinkId) : State :=
  (s.setLink l { s.link l with phyReady := true }).startTraining l

/-- MT_PHY_READY_FALL: an ACTIVE link enters RETRAIN (R462). -/
def phyFall (s : State) (l : LinkId) : State :=
  let s := s.setLink l { s.link l with phyReady := false }
  if (s.link l).st = .active then s.retrain l else s

/-- IDENT_COMPLETE: each of the 48 receive lanes is classified (R317, Table 15-5). -/
def identComplete (s : State) (l : LinkId) (lanes : List LaneSeen) : State :=
  let k := s.link l
  if !(k.training && decide (k.step = .ident) && k.phyReady && decide (lanes.length = 48)) then s
  else
    let seen := lanes.map laneVerdict
    let times := fun t : Nat => seen.countP fun v => decide (v.map (·.1) = some t)
    let kept := fun t : Nat => decide (times t = 1)
    let at' := fun (p : Nat → Nat × Bool → Bool) => (List.range 48).filter fun j =>
      match seen.getD j none with
      | some v => kept v.1 && p j v
      | none => false
    s.setLink l { k.toStep .report (s.die l.die).ticks with
      retired := maskOf 48 ((List.range 48).filter fun t => !kept t)
      inverted := maskOf 48 (at' fun _ v => v.2)
      remapped := !(at' fun j v => decide (v.1 ≠ j)).isEmpty }

/-- REPORT_COMPLETE: both sides hold each other's retired mask, die and link number, the far side's being those that the
majority of the identified lanes carry, of which the operands are the three values lane by lane; the logical lanes are given
out in order over the lanes that are not retired (R316 to R318). With no majority the phase does not finish. DEDUCED, log entry 37. -/
def reportComplete (s : State) (l : LinkId) (farRetired : List (BitVec 48)) (farDie : List (Fin 8)) (farLink : List (Fin 4)) :
    State :=
  let k := s.link l
  if !(k.training && decide (k.step = .report)) then s
  else
    let lanes := farRetired.zip (farDie.zip farLink)
    match lanes.find? fun x => decide (lanes.length < 2 * lanes.count x) with
    | none => s
    | some (farRetired, farDie, farLink) =>
      let s := s.setLink l { k with
        farRetired := farRetired
        farDie := farDie.val
        farLink := farLink.val
        heard := true
        rxLanes := logicalLanes k.retired
        txLanes := logicalLanes farRetired }
      if farDie.val = (s.die l.die).number then (s.failLink l).topologyConflict l.die farDie.val
      else if 2 < popcount 48 k.retired.toNat ∨ 2 < popcount 48 farRetired.toNat then s.linkFailed l
      else s.setLink l ((s.link l).toStep .align (s.die l.die).ticks)

/-- ALIGN_COMPLETE: the link is ACTIVE. After RETRAIN the replay resumes, and each lane that it has retired is reported
with F-1501. -/
def alignComplete (s : State) (l : LinkId) : State :=
  let k := s.link l
  if !(k.training && decide (k.step = .align)) then s
  else
    let again := decide (k.st = .retrain)
    let new := (List.range 48).filter fun t => again && bitAt k.retired.toNat t && !bitAt k.before.toNat t
    let s := s.setLink l { k with st := .active }
    let s := new.foldl (fun s t => s.report l.die 0x1501 (place l.link.val 8 + t)) s
    ((s.resend l 0).pump l).pumpDie l.die

/-- TRAINING_PHASE_TIMEOUT: a phase that has not finished within 20 counts restarts at IDENT; the third restart fails the
link (R316). -/
def phaseTimeout (s : State) (l : LinkId) : State :=
  let k := s.link l
  let now := (s.die l.die).ticks
  if !k.training ∨ now - k.phaseAt < 20 then s
  else if 2 ≤ k.restarts then s.linkFailed l
  else s.setLink l { k.toStep .ident now with restarts := k.restarts + 1 }

/-- LINK_TRAIN_TIMEOUT: a fitted link that is not ACTIVE within 50 ms of the entry to LINKS is FAILED (R482). -/
def trainTimeout (s : State) (l : LinkId) : State :=
  let k := s.link l
  let d := s.die l.die
  if d.stage = .links ∧ 5000000 ≤ s.since l.die d.stageAt ∧ k.st ≠ .active ∧ k.st ≠ .failed ∧ k.st ≠ .unused then
    s.linkFailed l
  else s

end State

/-- FLIT (R313). -/
def execFlit (l : LinkId) (raw : List Byte) (s : State) : Host.Outcome State Fault Refusal := onDie s l.die (s.flit l raw)
/-- ACK_TIMEOUT (R313). -/
def execAckTimeout (l : LinkId) (s : State) : Host.Outcome State Fault Refusal := onDie s l.die (s.ackTimeout l)
/-- MT_PHY_READY (R316). -/
def execMtPhyReady (l : LinkId) (s : State) : Host.Outcome State Fault Refusal := onDie s l.die (s.phyReady l)
/-- MT_PHY_READY_FALL (R462). -/
def execMtPhyReadyFall (l : LinkId) (s : State) : Host.Outcome State Fault Refusal := onDie s l.die (s.phyFall l)
/-- IDENT_COMPLETE (R317). -/
def execIdentComplete (l : LinkId) (lanes : List LaneSeen) (s : State) : Host.Outcome State Fault Refusal :=
  onDie s l.die (s.identComplete l lanes)
/-- REPORT_COMPLETE (R316). -/
def execReportComplete (l : LinkId) (farRetired : List (BitVec 48)) (farDie : List (Fin 8)) (farLink : List (Fin 4))
    (s : State) : Host.Outcome State Fault Refusal :=
  onDie s l.die (s.reportComplete l farRetired farDie farLink)
/-- ALIGN_COMPLETE (R316). -/
def execAlignComplete (l : LinkId) (s : State) : Host.Outcome State Fault Refusal := onDie s l.die (s.alignComplete l)
/-- TRAINING_PHASE_TIMEOUT (R316). -/
def execTrainingPhaseTimeout (l : LinkId) (s : State) : Host.Outcome State Fault Refusal := onDie s l.die (s.phaseTimeout l)
/-- LINK_TRAIN_TIMEOUT (R482). -/
def execLinkTrainTimeout (l : LinkId) (s : State) : Host.Outcome State Fault Refusal := onDie s l.die (s.trainTimeout l)
/-- TOPOLOGY_ANNOUNCEMENT (R318). -/
def execTopologyAnnouncement (d : DieId) (s : State) : Host.Outcome State Fault Refusal := onDie s d (s.announce d)

end Sys2Proof.Machine
end

