-- ==== Sys2Proof/Machine/Margin.lean ====
section
/-!
DEFINITION. Ember monitors and margin re-planning: regions, plans, the voltage request, and their records
(R386 to R396, R480).
-/
namespace Sys2Proof.Machine

/-- Number of a plan kind in a PLAN record (Table 22-5). -/
def PlanKind.num : PlanKind → Nat
  | .startup => 0 | .periodic => 1 | .shift => 2 | .hard => 3 | .dieReset => 4

/-- measure(r): the lowest of four readings, once there are four (R391). -/
def Region.measure (r : Region) : Option Int :=
  match r.fresh with
  | [a, b, c, e] => some (min (min a b) (min c e))
  | _ => none

/-- The measurements of a region's monitors begin anew: what was under way is discarded (R387). -/
def Region.remeasure (r : Region) (now : Nat) : Region := { r with readAt := (r.readAt.put 0 now).put 1 now }

/-- A region's code is set; a measurement across the change is discarded, and readings before it no longer count
(R387, R388, R391). -/
def Region.setCode (r : Region) (now c : Nat) : Region :=
  { r.remeasure now with
    code := c
    raises := if r.code < c then satAdd 8 r.raises 1 else r.raises
    fresh := []
    atCode := {} }

/-- The signed value of a slack byte. -/
def slackInt (b : Byte) : Int := signed 8 b.toNat

namespace State

/-- The region numbers of a die's build, and those of its enabled clusters (R386, Table 20-1). -/
def regionList (s : State) : List Nat := List.range (4 * s.build.clusters) ++ [64, 65, 66, 67]
def regionOn (s : State) (d : DieId) (r : Nat) : Bool :=
  decide (64 ≤ r) && decide (r < 68) || decide (r < 4 * s.build.clusters) && (s.cluster ⟨d, Fin.ofNat 16 (r / 4)⟩).enabled
def regionsOn (s : State) (d : DieId) : List Nat := s.regionList.filter (s.regionOn d)

/-- A region of a die, and the die with it replaced. -/
def region (s : State) (d : DieId) (r : Nat) : Region := (s.steward d).regions.get {} r
def setRegion (s : State) (d : DieId) (r : Nat) (v : Region) : State :=
  let k := s.steward d
  s.setSteward d { k with regions := k.regions.put r v }

/-- A region's units are in reset: those of a cluster in a reset of the cluster or of the die. The units of the die's own
regions lie outside every reset unit (R351, R392, Table 20-1). -/
def regionInReset (s : State) (d : DieId) (r : Nat) : Bool :=
  decide (r < 64) && ((s.die d).computeReset || (s.die d).escalations.any fun e =>
    e.resetAt.isSome && (e.unit.atLevel e.level).contains (.cluster ⟨d, Fin.ofNat 16 (r / 4)⟩))

/-- The highest code of the enabled ARRAY regions: MAX_CODE (R33). -/
def maxCode (s : State) (d : DieId) : Nat :=
  (((s.regionsOn d).filter fun r => decide (r < 64) && decide (r % 4 = 0)).map fun r => (s.region d r).code).foldl max 0

/-- The target of the voltage request after a plan that changes a code (R393). -/
def setTarget (s : State) (d : DieId) : State :=
  let k := s.steward d
  let vt : Int := (k.vbase : Int) + 4 * ((s.maxCode d : Int) - k.startMax)
  s.setSteward d { k with vtarget := min (s.objVal d 0x2A51 0) (max (0x3C : Int) vt).toNat }

/-- A PLAN record (Table 22-5). -/
def planRecord (s : State) (d : DieId) (kind : PlanKind) : State :=
  let rs := s.regionList.map (s.region d)
  s.journal d 0x02 ([BitVec.ofNat 8 kind.num, BitVec.ofNat 8 (s.steward d).vreq, BitVec.ofNat 8 rs.length, 0] ++
    bytesLE 8 (s.die d).count.toNat ++ rs.flatMap fun r => [BitVec.ofNat 8 r.code, r.ref])

/-- The PLAN records that wait are queued once VREQ stands at its target (R394, Table 20-6). -/
def planRecords (s : State) (d : DieId) : State :=
  let k := s.steward d
  if k.vreq ≠ k.vtarget then s
  else k.planDue.foldl (fun s kind => s.planRecord d kind) (s.setSteward d { k with planDue := [] })

/-- Before READY, a fault stops or degrades start-up (Table 26-2). -/
def startFault (s : State) (d : DieId) (code : Nat) (stop : Bool) : State :=
  let k := s.die d
  if k.stage = .ready then s
  else s.setDie d { k with
    failCode := if k.failCode = 0 then BitVec.ofNat 16 code else k.failCode
    stopped := k.stopped || stop
    degraded := k.degraded || !stop }

/-- A die enters a start-up stage (R476, R477). -/
def enterStage (s : State) (d : DieId) (st : Stage) : State :=
  let k := s.die d
  s.setDie d { k with stage := st, stageAt := k.ticks, entered := BitVec.ofNat 24 (min (k.count.toNat / 1000) 0xFFFFFF) }

/-- The steward runs Carori and has replayed its journal. -/
def caroriRuns (s : State) (d : DieId) : Bool :=
  let k := s.steward d
  decide (k.mode = .carori) && k.journal.replayed

/-- The start-up plan is over: START_MAX, FIRST of a region that has none in the journal, its record, and the end of the PLAN
stage (R391, R394, R476). -/
def startPlanOver (s : State) (d : DieId) : State :=
  let k := s.steward d
  let s := s.setSteward d { k with startMax := s.maxCode d, periodicAt := (s.die d).ticks }
  let s := s.planRecord d .startup
  let s := s.setDie d { s.die d with awaitPlan := false }
  let s := if (s.die d).stage = .plan then s.enterStage d .selftest else s
  if (s.regionsOn d).all fun r => (s.region d r).firstSet then s
  else
    let s := (s.regionsOn d).foldl (fun s r =>
      let x := s.region d r
      if x.firstSet then s else s.setRegion d r { x with first := x.code, firstSet := true }) s
    s.journal d 0x03 (s.regionList.map fun r => BitVec.ofNat 8 (s.region d r).first)

/-- A plan is over: a plan that has changed a code sets the target of VREQ, and its record follows once VREQ stands there (R393,
R394). A plan that followed a DIE reset in PLAN ends that stage. -/
def planOver (s : State) (d : DieId) (kind : PlanKind) (changed : Bool) : State :=
  if kind = .startup then s.startPlanOver d
  else
    let s := if kind = .dieReset ∧ (s.die d).stage = .plan then
        (s.setDie d { s.die d with awaitPlan := false }).enterStage d .selftest
      else s
    if !changed then s
    else
      let s := s.setTarget d
      let k := s.steward d
      (s.setSteward d { k with planDue := k.planDue ++ [kind] }).planRecords d

/-- A region's part of a plan has ended. A shift or hard limit plan has one region; any other is over once no region runs it
or waits for it (R391, R394). -/
def planEnd (s : State) (d : DieId) (kind : PlanKind) (changed : Bool) : State :=
  if kind = .shift ∨ kind = .hard then s.planOver d kind changed
  else
    let k := s.steward d
    let ks := if changed then (kind :: k.planChanged).eraseDups else k.planChanged
    if (s.regionsOn d).any fun r => decide ((s.region d r).plan = some kind) || decide ((s.region d r).asked = some kind) then
      s.setSteward d { k with planChanged := ks }
    else
      (s.setSteward d { k with planChanged := ks.filter fun x => decide (x ≠ kind) }).planOver d kind (ks.contains kind)

/-- A region has been planned at a slack (R391, R480). After a DIE reset only a region below 8 % runs raise_plan (R392). -/
def planDone (s : State) (d : DieId) (r : Nat) (kind : PlanKind) (slack : Int) : State :=
  let x := s.region d r
  let ran := decide (kind ≠ .dieReset) || decide (x.code ≠ (s.die d).savedCodes.get 0x20 r) || decide (slack < 16)
  let s := s.setRegion d r { x with
    plan := none
    down := false
    moved := false
    ref := if ran then BitVec.ofInt 8 slack else x.ref
    start := if kind = .startup then x.code else x.start
    below := {}
    low := {} }
  let s :=
    if !ran then s
    else if kind = .startup then
      if slack < 16 then
        let s := (s.report d 0x2602 r).startFault d 0x2602 (decide (64 ≤ r))
        if r < 64 then
          let c : ClusterId := ⟨d, Fin.ofNat 16 (r / 4)⟩
          s.setCluster c { s.cluster c with enabled := false }
        else s
      else s
    else
      let k := s.steward d
      let s := if slack < 16 then (s.setSteward d { k with safety := { k.safety with ssrLatch := true } }).noteErr d (s.errDriven d)
        else s
      if x.first + 8 < x.code then s.report d 0x2001 (place r 8 + x.code) else s
  s.planEnd d kind x.moved

/-- One decision of a region's plan, once its measurement is complete (R391). No plan runs while the steward does not run
Carori (R392). DESIGN CHOICE, log entry 39. -/
def planStep (s : State) (d : DieId) (r : Nat) : State :=
  let x := s.region d r
  let code := fun (c : Nat) (down : Bool) =>
    s.setRegion d r { x.setCode (s.die d).ticks c with down := down, moved := true }
  if !s.caroriRuns d then s
  else match x.plan, x.measure with
  | some .startup, some m =>
    if m < 16 ∧ x.code < 63 ∧ !x.down then code (x.code + 1) false
    else if 30 < m ∧ 0 < x.code then code (x.code - 1) true
    else s.planDone d r .startup m
  | some kind, some m =>
    if m < 16 ∧ x.code < 63 ∧ !x.monFail then code (x.code + 1) false else s.planDone d r kind m
  | _, _ => s

/-- A re-plan of a region is requested; a region whose plan is requested or runs already joins it (R390). A region with a
failed monitor keeps its code (R388). -/
def askPlan (s : State) (d : DieId) (kind : PlanKind) (r : Nat) : State :=
  let x := s.region d r
  if x.plan.isSome ∨ x.asked.isSome ∨ x.monFail then s else s.setRegion d r { x with asked := some kind }

/-- The steward begins the re-plan that a region has been asked for; its monitors change to the interval of a plan (R387).
DESIGN CHOICE, log entry 39. -/
def beginPlan (s : State) (d : DieId) (r : Nat) : State :=
  let x := s.region d r
  match x.asked with
  | none => s
  | some .startup => s
  | some kind =>
    (s.setRegion d r { x.remeasure (s.die d).ticks with asked := none, plan := some kind, moved := false }).planStep d r

/-- The interval of a region's monitors, in counts (R387). -/
def emberInterval (s : State) (d : DieId) (r : Nat) : Nat := if (s.region d r).plan.isSome then 1000 else 10000

/-- A monitor of a region that is in use. -/
def hasMonitor (s : State) (d : DieId) (r mon : Nat) : Bool :=
  s.regionOn d r && decide (mon < if 64 ≤ r then 2 else 1) && !s.regionInReset d r

/-- EMBER_MEASUREMENT: a monitor completes a reading (R387, R390). DESIGN CHOICE, log entry 39. -/
def ember (s : State) (d : DieId) (r mon : Nat) (reading : Byte) : State :=
  let x := s.region d r
  if !s.hasMonitor d r mon ∨ s.since d (x.readAt.get 0 mon) < s.emberInterval d r then s
  else
    let v := slackInt reading
    let readings := x.readings.put mon v
    let slack := if r < 64 then v else min (readings.get v 0) (readings.get v 1)
    let lower := fun (a : Byte) => if v < slackInt a then reading else a
    let delta : Int := s.objVal d 0x2A52 0
    let below := if x.ref ≠ 0x80 ∧ v ≤ slackInt x.ref - delta then x.below.get 0 mon + 1 else 0
    let low := if v < 16 then x.low.get 0 mon + 1 else 0
    let s := s.setRegion d r { x with
      readings := readings
      readAt := x.readAt.put mon (s.die d).ticks
      atCode := x.atCode.put mon v
      slack := BitVec.ofInt 8 slack
      slackMin := lower x.slackMin
      hourMin := lower x.hourMin
      fresh := (x.fresh ++ [v]).drop (x.fresh.length - 3)
      below := x.below.put mon below
      low := x.low.put mon low
      hard := x.hard || decide (v < 8) }
    let s := s.hmEvent d 8 (fun n => decide (n = r)) (BitVec.ofInt 32 v)
    let s := if v < 8 then (s.report d 0x2002 (place r 8 + reading.toNat)).askPlan d .hard r else s
    let s := if 16 ≤ below ∨ 4 ≤ low then s.askPlan d .shift r else s
    s.planStep d r

/-- MONITOR_FAILURE: a monitor has missed two intervals, reads outside −20 % to +60 %, or differs from the other monitor
of its region by more than 3 % at one code; the code rises by 8 and stays (R388). The ROM base firmware leaves the code as it
is (R392). -/
def monitorFailed (s : State) (d : DieId) (r mon : Nat) : State :=
  let x := s.region d r
  let late := decide (2 * s.emberInterval d r ≤ s.since d (x.readAt.get 0 mon))
  let wild := match x.readings.find? mon with
    | some v => decide (v < -40) || decide (120 < v)
    | none => false
  let apart := match x.atCode.find? 0, x.atCode.find? 1 with
    | some a, some b => decide (64 ≤ r) && decide (6 < (a - b).natAbs)
    | _, _ => false
  if !s.hasMonitor d r mon ∨ x.monFail ∨ !(late || wild || apart) then s
  else
    let y := if s.caroriRuns d then x.setCode (s.die d).ticks (min 63 (x.code + 8)) else x
    let s := s.setRegion d r { y with
      monFail := true
      asked := none
      plan := none
      moved := false
      start := if x.plan = some .startup then y.code else y.start }
    let s := s.report d 0x2003 (place r 8 + mon)
    match x.plan with
    | some k => s.planEnd d k x.moved
    | none => s

/-- PERIODIC_REPLAN: ten minutes have passed since the last periodic or start-up plan; a request that is pending is served by
it (R390). -/
def periodicPlan (s : State) (d : DieId) : State :=
  let k := s.steward d
  if !s.caroriRuns d ∨ (s.die d).computeReset ∨ (s.die d).awaitPlan ∨ s.since d k.periodicAt < 60000000000 then s
  else
    let s := s.setSteward d { k with periodicAt := (s.die d).ticks }
    let s := (s.regionsOn d).foldl (fun s r =>
      let x := s.region d r
      if x.plan.isSome ∨ x.monFail then s else s.setRegion d r { x with asked := some .periodic }) s
    (s.regionsOn d).foldl (fun s r => s.beginPlan d r) s

/-- The start-up plan of every region that waits for it begins, with the supply at VREQ_BASE, from the journaled code where that
is at most 0x20 (R391, R394). -/
def startPlans (s : State) (d : DieId) : State :=
  let k := s.steward d
  if k.vreq ≠ k.vtarget then s
  else
    (s.regionsOn d).foldl (fun s r =>
      let x := s.region d r
      let j := k.journal.planCodes.get 0x20 r
      if x.asked = some .startup then
        s.setRegion d r { x.remeasure (s.die d).ticks with
          code := if j ≤ 0x20 then j else 0x20
          fresh := []
          atCode := {}
          asked := none
          plan := some .startup }
      else s) s

/-- VREQ_STEP: the voltage request moves one code toward its target, at most every 100 counts (R393). At the target the start-up
plan begins, and the records of plans follow (R391, R394). -/
def vreqStep (s : State) (d : DieId) : State :=
  let k := s.steward d
  if k.vreq = k.vtarget ∨ s.since d k.vreqAt < 100 then s
  else
    let s := s.setSteward d { k with
      vreq := if k.vreq < k.vtarget then k.vreq + 1 else k.vreq - 1
      vreqAt := (s.die d).ticks }
    (s.startPlans d).planRecords d

/-- SLACK_RECORD: once an hour, the lowest reading of every region in that hour is journaled (R394). -/
def slackHour (s : State) (d : DieId) : State :=
  let k := s.steward d
  if !s.caroriRuns d ∨ s.since d k.hourAt < 360000000000 then s
  else
    let bytes := s.regionList.map fun r => (s.region d r).hourMin
    let s := s.setSteward d { k with
      hourAt := (s.die d).ticks
      regions := k.regions.mapVals fun x => { x with hourMin := 0x7F } }
    s.journal d 0x04 (bytesLE 8 (s.die d).count.toNat ++ bytes)

/-- A start-up plan is due: VREQ moves to VREQ_BASE, and every region waits for it (R391, R393, Table 26-1). -/
def beginStartPlan (s : State) (d : DieId) : State :=
  let base := s.objVal d 0x2A50 0
  let k := s.steward d
  let s := s.setSteward d { k with vbase := base, vtarget := base, planChanged := [], planDue := [] }
  let s := (s.regionsOn d).foldl (fun s r =>
    let x := s.region d r
    s.setRegion d r { x.remeasure (s.die d).ticks with
      monFail := false
      readings := {}
      atCode := {}
      fresh := []
      below := {}
      low := {}
      asked := some .startup
      plan := none
      down := false
      moved := false }) s
  s.startPlans d

/-- A DIE reset: codes are 0x20, those of disabled clusters with them, and every plan is abandoned (R24, R392). The codes held
are kept for the plan that follows. -/
def codesReset (s : State) (d : DieId) : State :=
  let k := s.die d
  let saved := if k.computeReset ∨ (k.awaitPlan ∧ k.stage ≠ .plan) then k.savedCodes
    else (s.regionsOn d).foldl (fun (m : SMap Nat) r => m.put r (s.region d r).code) {}
  let s := s.setDie d { k with savedCodes := saved }
  s.regionList.foldl (fun s r =>
    let x := s.region d r
    s.setRegion d r { x with
      code := 0x20, asked := none, plan := none, moved := false, fresh := [], atCode := {}, below := {}, low := {} }) s

/-- No plan of PLAN runs or waits: its start-up plan met a DIE reset, and is replaced by the plan of R392. -/
def planGone (s : State) (d : DieId) : Bool :=
  !((s.regionsOn d).any fun r => decide ((s.region d r).asked = some .startup) || (s.region d r).plan.isSome)

/-- DIE_RESET_REPLAN: the steward writes into every region the code it held when the reset was asserted, with the
committed dictionary values; the die's scheduler then accepts launches, and each region is measured (R353, R392). -/
def dieReplan (s : State) (d : DieId) : State :=
  let k := s.die d
  let due := (decide (k.stage = .plan) && s.planGone d) || decide (k.stage = .selftest) || decide (k.stage = .links) ||
    decide (k.stage = .hostInit) || decide (k.stage = .ready)
  if !s.caroriRuns d ∨ !k.awaitPlan ∨ k.computeReset ∨ !due then s
  else
    let s := s.setDie d { k with awaitPlan := decide (k.stage = .plan) }
    let s := (s.regionsOn d).foldl (fun s r =>
      let x := s.region d r
      s.setRegion d r { x.remeasure k.ticks with
        code := k.savedCodes.get 0x20 r
        fresh := []
        atCode := {}
        plan := if x.monFail then none else some .dieReset }) s
    if k.stage = .plan ∧ s.planGone d then s.planOver d .dieReset false else s

/-- A cluster is back from its reset: its monitors measure anew (R392). -/
def monitorsBack (s : State) (k : ClusterId) : State :=
  (List.range 4).foldl (fun s i =>
    let r := 4 * k.cl.val + i
    s.setRegion k.die r ((s.region k.die r).remeasure (s.die k.die).ticks)) s

end State

/-- EMBER_MEASUREMENT (R387). -/
def execEmberMeasurement (d : DieId) (region mon : Nat) (reading : Byte) (s : State) : Host.Outcome State Fault Refusal :=
  onDie s d (s.ember d region mon reading)
/-- MONITOR_FAILURE (R388). -/
def execMonitorFailure (d : DieId) (region mon : Nat) (s : State) : Host.Outcome State Fault Refusal :=
  onDie s d (s.monitorFailed d region mon)
/-- PERIODIC_REPLAN (R390). -/
def execPeriodicReplan (d : DieId) (s : State) : Host.Outcome State Fault Refusal := onDie s d (s.periodicPlan d)
/-- VREQ_STEP (R393). -/
def execVreqStep (d : DieId) (s : State) : Host.Outcome State Fault Refusal := onDie s d (s.vreqStep d)
/-- SLACK_RECORD (R394). -/
def execSlackRecord (d : DieId) (s : State) : Host.Outcome State Fault Refusal := onDie s d (s.slackHour d)
/-- DIE_RESET_REPLAN (R392). -/
def execDieResetReplan (d : DieId) (s : State) : Host.Outcome State Fault Refusal := onDie s d (s.dieReplan d)

end Sys2Proof.Machine
end

