-- ==== Sys2Proof/Machine/ResetEff.lean ====
section
/-!
DEFINITION. What a reset does to a unit, to the requests it has sent and to the launches that run on it, and the effects of
a reset of a die's compute part (R353, R355, R361 to R363).
-/
namespace Sys2Proof.Machine

/-- A core while it is reset and after: its registers and stores at their reset values; what the scheduler knows of it is
kept until the launch is over (R353). -/
def Core.afterReset (k : Core) (run : CoreRun) : Core :=
  { enabled := k.enabled, run := run, part := k.part, lcore := k.lcore, lcluster := k.lcluster, ldie := k.ldie,
    ncores := k.ncores, runB := k.runB, stopAsked := k.stopAsked, stopAcked := k.stopAcked,
    resetAt := k.resetAt, lastLaunch := k.lastLaunch,
    lastCtx := k.lastCtx, arrs := k.arrs.mapVals fun a => { enabled := a.enabled } }

/-- A cluster after its reset, the same way. -/
def Cluster.afterReset (k : Cluster) : Cluster :=
  { enabled := k.enabled, occupant := k.occupant, lastLaunch := k.lastLaunch, lastCtx := k.lastCtx }

/-- The memory space that a unit's requests belong to: whose requests a reset unit has sent (R355). -/
def ResetUnit.owns (u : ResetUnit) (o : Owner) : Bool :=
  let core := match o with
    | .stream k _ => some k
    | .seqLoad k => some k
    | .seqStore k _ => some k
    | .fetch k => some k
    | .pool1 k => some k
    | _ => none
  match u with
  | .stream c => (match o with | .stream k _ => decide (k = c.key) | _ => false)
  | .array _ => false
  | .vector _ => false
  | .gen _ _ => false
  | _ => (core.map fun k => u.contains (.core (coreOf k))).getD false

/-- A request of a die is one of a reset unit: of a core its own, of a die all that its units make (R355). -/
def ResetUnit.makes (u : ResetUnit) (o : Owner) : Bool :=
  match u, o with
  | .die _, .remote _ _ => false
  | .die _, _ => true
  | _, .pool1 _ => false
  | _, _ => u.owns o

namespace State

/-- An escalation of a die, and the die with it replaced or removed. -/
def esc (s : State) (d : DieId) (n : Nat) : Option Escalation := (s.die d).escalations[n]?
def setEsc (s : State) (d : DieId) (n : Nat) (e : Escalation) : State :=
  let k := s.die d
  s.setDie d { k with escalations := k.escalations.set n e }

/-- A request has been formed and not been sent: its transfer, or its first flit, is still to come (R355). -/
def unsent (r : Req) : Bool :=
  match r.st with
  | .waiting => true
  | .remote _ _ => !r.sent
  | _ => false

/-- A request that has not been sent is lost; one for another die gives back its credit, and its flits do not go out (R355). -/
def dropReq (s : State) (n : Nat) (r : Req) : State :=
  let s := { s with reqs := s.reqs.erase n }
  match r.st with
  | .remote link credit =>
    let l : LinkId := ⟨r.die, Fin.ofNat 4 link⟩
    let k := s.link l
    s.setLink l { k with
      e2e := k.e2e.erase credit
      waiting := k.waiting.filter fun f => !(f.isReq && decide (f.src = r.die.val) && decide (f.tag = link * 2048 + credit)) }
  | _ => s

/-- Requests of a reset unit: those not sent are lost, the others wait for their response or for 1,000 counts (R355).
DESIGN CHOICE, log entry 48. -/
def orphanReqs (s : State) (d : DieId) (u : ResetUnit) : State :=
  let mine := s.reqs.entries.filter fun e => decide (e.2.die = d) && u.makes e.2.owner && !e.2.gone
  let k := s.die d
  let sent := (mine.filter fun e => !unsent e.2).map (·.1)
  let new := sent.filter fun n => !k.orphans.any fun o => decide (o.req = n)
  let old := k.orphans.map fun o : Orphan => if sent.contains o.req ∧ o.at'.isNone then { o with at' := some k.ticks } else o
  let s := s.setDie d { k with orphans := old ++ new.map fun n => { req := n, at' := some k.ticks } }
  (mine.filter fun e => unsent e.2).foldl (fun s e => s.dropReq e.1 e.2) s

/-- A unit's registers, state machines and stores return to their reset values (R353).
DESIGN CHOICE, log entry 48. -/
def clearUnit (s : State) : ResetUnit → State
  | .array a => s.setArr a { enabled := (s.arr a).enabled }
  | .vector c => s.updCore c fun k => { k with vecQ := [], vecRun := [], v := {} }
  | .stream c => s.updCore c fun k =>
      { k with strQ := [], strRun := [], strAbort := none, cv0 := 0, cv1 := 0, wpad := 0, img := none }
  | .gen k g => s.setCluster k { s.cluster k with gens := (s.cluster k).gens.erase g.val }
  | .core c => (s.releaseGrant c).setCore c ((s.core c).afterReset .reset)
  | .cluster k =>
      let s := (s.clusterCores k).foldl (fun s c => s.setCore c ((s.core c).afterReset .reset)) s
      s.setCluster k (s.cluster k).afterReset
  | .die d =>
      let s := (s.dieCores d).foldl (fun s c => s.setCore c ((s.core c).afterReset .reset)) s
      (s.allClusters d).foldl (fun s k => s.setCluster k (s.cluster k).afterReset) s

/-- The launches with a core in a reset unit (R361). A window generator's are those of its claim. -/
def launchesIn (s : State) (u : ResetUnit) : List Nat :=
  match u with
  | .gen k g => (((s.cluster k).gens.get {} g.val).claim.map (·.1)).toList
  | _ =>
    ((s.dieCores u.dieId).filterMap fun c =>
      if u.contains (.core c) || (match u.coreOf? with | some x => decide (x = c) | none => false) then (s.core c).part
      else none).eraseDups

/-- The part of a launch on a die fails because of a reset; a launch that has failed already only stops (R361, R363). -/
def failPart (s : State) (d : DieId) (q code info : Nat) : State :=
  match s.launches.find? q with
  | none => s
  | some l =>
    let s := s.stopPart q d
    if l.fault.isSome ∨ (s.ctx l.ctx).st = .lost then s.stopLaunch q
    else s.partFault d q ((l.ldieOf d).getD 0) (.outside code info)

/-- A launch of the starting unit fails with the starting event's code (R361). An engine that was still busy after a drain is no
fault of its own: the stop of the command goes on, and its end is what R266 and R274 make of it. -/
def failStart (s : State) (d : DieId) (start : ResetUnit) (code q : Nat) : State :=
  if (code = 0 ∨ code = 0x1306) ∧ (s.queue (queueOf q)).stopping.isSome then s.stopPart q d else s.failPart d q code start.num

/-- Every launch with a core in the unit fails: those of the unit whose event started the escalation with its code, the others
with F-1803 (R361). DESIGN CHOICE, log entry 48. -/
def failUnits (s : State) (d : DieId) (u start : ResetUnit) (code : Nat) : State :=
  let first := match start with
    | .die _ => []
    | x => s.launchesIn x
  let s := first.foldl (fun s q => s.failStart d start code q) s
  ((s.launchesIn u).filter fun q => !first.contains q).foldl (fun s q =>
    s.failPart d q 0x1803 (place u.level.num 56 + u.num)) s

/-- A part in the part list of a die whose compute part is reset: its home die is told that it has failed; of one that has
failed at this home die, the outcome is recorded already (R352, R362). -/
def failEntry (s : State) (d : DieId) (info : Nat) (x : PartEntry) : State :=
  let known := decide (x.home = d.val) && ((s.launches.find? x.queue).map (·.fault.isSome)).getD true
  if known then s else s.partFault d x.queue x.ldie (.outside 0x1803 info)

/-- The effects of a reset of the compute part of a die on its own units and on the work of the package (R362,
Table 18-4). -/
def resetCompute (s : State) (d : DieId) : State :=
  let info := place 4 56 + (ResetUnit.die d).num
  let s := (s.die d).parts.foldl (fun s x => s.failEntry d info x) s
  let homed := (s.queues.entries.filter fun e => decide ((queueOf e.1).die = d)).map (·.1)
  let s := homed.foldl (fun s n =>
    let q := queueOf n
    let k := s.queue q
    let s := if k.act = .running ∨ k.act = .stopping then s.lose d k.ctx 0x1803 1 (.outside 0x1803 info) else s
    s.updQueue q fun k => { k with reread := k.reread || decide (k.wait = .cond) }) s
  let pool := if d = die0 then s.msgs.entries.filter fun e => match e.2.2.2 with | .pool1 _ _ _ => true | _ => false else []
  let s := pool.foldl (fun s e =>
    match e.2.2.2 with
    | .pool1 core _ _ =>
      let ctx := ((s.core (coreOf core)).part.bind s.launches.find?).map (·.ctx)
      let s := s.takeMsg e.1
      match ctx with
      | some c => s.lose d c 0x1803 1 (.outside 0x1803 info)
      | none => s
    | _ => s) s
  let s := s.codesReset d
  let s := (s.die d).slots.foldl (fun s x =>
    let c := s.ctx x.ctx
    let other := s.allDies.any fun e => decide (e ≠ d) && (s.slotOf e x.ctx).isSome
    if c.st = .resident ∧ !other then s.putCtx x.ctx { c with st := .ready } else s) s
  let s := (s.orphanReqs d (.die d)).clearUnit (.die d)
  let k := s.die d
  s.setDie d { k with
    computeReset := true
    slots := []
    slotWait := []
    l2 := []
    bufs := {}
    walks := []
    walkWait := []
    fq := {}
    fqSeq := 0
    merged := 0
    hotSkip := false
    fqFull := false
    ownViol := false
    fqWait := []
    replays := []
    bus := []
    pinMiss := []
    hotThresh := 0
    hotPeriod := 0x03E8
    hotAt := k.ticks
    dbIgnored := 0
    evWait := []
    placeLast := 0
    placeLastQ := {}
    placeFor := none
    lastRan := {}
    parts := [] }

end State

end Sys2Proof.Machine
end

