-- ==== Sys2Proof/Machine/StwOps.lean ====
section
/-!
DEFINITION. The steward's answers and values: roles and budgets of the request paths, responses through mailboxes and DAP
frames, values taking effect, the flash, and the restart of the steward (R399, R401, R403, R404, R406, R409 to R412).
-/
namespace Sys2Proof.Machine

/-- The roles of a dictionary request, in the order of Table 21-4. -/
inductive DRole where
  | driver | partition | network | safety
  deriving DecidableEq, Repr

/-- The role of a path (R401). -/
def DPath.role : DPath → DRole
  | .driver => .driver
  | .safety => .safety
  | .partition _ => .partition
  | .dap k => if k = 0 then .network else .safety

/-- The mailbox of a path (R406). -/
def DPath.mailbox : DPath → Option Nat
  | .driver => some 0
  | .safety => some 1
  | .partition p => some (2 + p.val)
  | .dap _ => none

/-- The bucket of a path, its rate in requests per second, and its burst (R412, Table 21-9). -/
def DPath.bucket : DPath → Nat × Nat × Nat
  | .safety => (0, 500, 16)
  | .driver => (1, 2000, 64)
  | .dap k => if k = 0 then (2, 1000, 32) else (0, 500, 16)
  | .partition p => (3 + p.val, 100, 8)

/-- The place of a path in the rotation (R412). -/
def DPath.turn : DPath → Nat
  | .driver => 0
  | .dap k => 1 + k.val
  | .safety => 3
  | .partition p => 4 + p.val

/-- Every path. -/
def allPaths : List DPath :=
  [.driver, .dap 0, .dap 1, .safety] ++ (List.range 16).map fun p => .partition (Fin.ofNat 16 p)

/-- A response block (Table 21-4). -/
structure DResp where
  result : Nat
  retry : Nat := 0
  info : Nat := 0
  value : Nat := 0

/-- The 32 bytes of a response to a request block. -/
def DResp.bytes (r : DResp) (req : List Byte) : List Byte :=
  bytesLE 1 r.result ++ (req.drop 1).take 1 ++ (req.drop 2).take 2 ++ (req.drop 4).take 2 ++ bytesLE 2 r.retry ++
    bytesLE 8 r.info ++ bytesLE 16 r.value

/-- One bit of the frame check sequence of IEEE 802.3, and the FCS of a frame as its four bytes. -/
def fcsBit (c : Nat) : Nat := if c % 2 = 1 then (c / 2) ^^^ 0xEDB88320 else c / 2
def fcs (bs : List Byte) : List Byte :=
  bytesLE 4 ((bs.foldl (fun c x => fcsBit (fcsBit (fcsBit (fcsBit (fcsBit (fcsBit (fcsBit (fcsBit (c ^^^ x.toNat)))))))))
    0xFFFFFFFF) ^^^ 0xFFFFFFFF)

/-- A frame with its padding to the least length and its FCS (R431). -/
def etherFrame (bs : List Byte) : List Byte :=
  let p := bs ++ List.replicate (60 - bs.length) 0
  p ++ fcs p

/-- MAC over a DAP frame's addresses, EtherType and payload bytes 0x00 to 0x2F (Table 21-8). -/
def dapMac (key : BitVec 128) (dst src payload : List Byte) : List Byte :=
  aesCmac (bytesLE 16 key.toNat) (dst ++ src ++ [0x88, 0xB5] ++ payload.take 0x30)

/-- Whether a sector of the flash holds a byte address. -/
def inSector (n a : Nat) : Bool := decide (a / 4096 = n)

namespace Journal

/-- A byte of the flash (R417). -/
def byte (j : Journal) (a : Nat) : Byte := j.flash.get 0xFF a
def bytesAt (j : Journal) (a n : Nat) : List Byte := (List.range n).map fun i => j.byte (a + i)

/-- Bytes programmed: programming only turns ones into zeros. PRESUMED, log entry 43. -/
def program (j : Journal) (a : Nat) (bs : List Byte) : Journal :=
  { j with flash := (bs.mapIdx fun i b => (i, b)).foldl (fun m e =>
      m.setD 0xFF (a + e.1) (m.get 0xFF (a + e.1) &&& e.2)) j.flash }

/-- The start of a bank (Table 22-3). -/
def bankBase (b : Nat) : Nat := 0x200000 + b * 0x200000

end Journal

namespace State

/-- MAC_ADDR of a die, as the bytes of a frame (R432). -/
def macBytes (s : State) (d : DieId) : List Byte := bytesBE 6 (s.objVal d 0x2D02 0 % 2 ^ 48)

/-- Send a DAP response with the next TX_SEQ (R409, R411). -/
def dapSend (s : State) (d : DieId) (key : Fin 2) (resp addr : List Byte) : State :=
  let k := s.steward d
  let x := k.dap.get {} key.val
  let seq := x.txSeq + 1
  let body := bytesLE 1 1 ++ bytesLE 1 2 ++ bytesLE 1 key.val ++ [0] ++ bytesLE 8 seq.toNat ++ List.replicate 4 0 ++ resp
  let mac := dapMac (BitVec.ofNat 128 (s.objVal d (0x1E00 + key.val) 0)) addr (s.macBytes d) body
  let frame := etherFrame (addr ++ s.macBytes d ++ [0x88, 0xB5] ++ body ++ mac)
  let s := s.setSteward d { k with dap := k.dap.put key.val { x with txSeq := seq } }
  s.setNet d { s.net d with tx := [{ kind := 0x88B5, bytes := frame }] }

/-- A SEQRES record (Table 22-5). -/
def seqRes (s : State) (d : DieId) (key : Fin 2) (dir : Nat) (limit : W64) (after : JrnAfter) : State :=
  s.journal d 0x06 (bytesLE 1 key.val ++ bytesLE 1 dir ++ bytesLE 6 0 ++ bytesLE 8 limit.toNat) after

/-- Answer a DAP request: the transmit limit is reserved in the journal first where that is due (R411). -/
def dapRespond (s : State) (d : DieId) (key : Fin 2) (resp addr : List Byte) : State :=
  let x := (s.steward d).dap.get {} key.val
  let seq := x.txSeq + 1
  if x.txRes < seq + 2048 then s.seqRes d key 1 (seq + 65536) (.tx key (seq + 65536) resp addr)
  else s.dapSend d key resp addr

/-- The request block that a path has waiting: a mailbox of die 0 with BUSY, or the oldest queued DAP request. -/
def waitingReq (s : State) (d : DieId) (p : DPath) : Option (List Byte) :=
  let k := s.steward d
  match p with
  | .dap key => (k.dap.get {} key.val).queue.head?.map (·.1)
  | _ =>
    match p.mailbox with
    | some i => let m := k.mailboxes.get {} i
                if d = die0 ∧ m.busy then some (if m.taken.isEmpty then m.req else m.taken) else none
    | none => none

/-- The steward answers the request of a path (R404, R406). -/
def answerPath (s : State) (d : DieId) (p : DPath) (r : DResp) : State :=
  match s.waitingReq d p with
  | none => s
  | some req =>
    let k := s.steward d
    let k := { k with serving := if k.serving = some p then none else k.serving
                      rateRefused := if r.result = 4 then satInc k.rateRefused else k.rateRefused }
    match p with
    | .dap key =>
      let x := k.dap.get {} key.val
      let addr := (x.queue.head?.map (·.2)).getD []
      (s.setSteward d { k with dap := k.dap.put key.val { x with queue := x.queue.drop 1 } }).dapRespond d key (r.bytes req) addr
    | _ =>
      let i := p.mailbox.getD 0
      let m := k.mailboxes.get {} i
      let s := s.setSteward d { k with mailboxes := k.mailboxes.put i { m with
        resp := r.bytes req, doneCount := m.doneCount + 1, busy := false, taken := [], restarted := false } }
      if m.irqEn then s.postIm d (0x1000 + i) 0 else s

/-- Committed values take effect: the dictionary store, and the registers that have a place of their own (R403, R450). -/
def putVals (s : State) (d : DieId) : List (Nat × BitVec 128) → State
  | [] => s
  | (key, v) :: rest =>
    let k := s.steward d
    let s := s.setSteward d { k with dict := k.dict.put key v }
    let m := key / 256 - 0x2E20
    let s := if 0x2E20 ≤ key / 256 ∧ key / 256 ≤ 0x2E3F ∧ key % 256 = 1 then
        s.setMonitor d m { s.monitor d m with cfgNext := some (v.truncate 64) }
      else s
    s.putVals d rest

/-- A bucket as it stands now (R412). -/
def bucketNow (s : State) (d : DieId) (p : DPath) : Nat :=
  let b := p.bucket
  match (s.steward d).buckets.find? b.1 with
  | none => b.2.2 * 100000000
  | some x => min (b.2.2 * 100000000) (x.tokens + b.2.1 * s.since d x.at')

/-- Take a token of a path's bucket, where it holds one. -/
def takeToken (s : State) (d : DieId) (p : DPath) : State :=
  let k := s.steward d
  s.setSteward d { k with
    buckets := k.buckets.put p.bucket.1 { tokens := s.bucketNow d p - 100000000, at' := (s.die d).ticks } }

/-- A reservation of a key's receive limit waits for its record (R411). -/
def reserving (s : State) (d : DieId) (key : Fin 2) : Bool :=
  (s.steward d).journal.queue.any fun r =>
    match r.after with
    | .rx k _ _ _ _ => decide (k = key)
    | _ => false

/-- Take a token where the bucket of the path holds one: a request that is answered costs it (R412). -/
def takeIfAny (s : State) (d : DieId) (p : DPath) : State :=
  if 100000000 ≤ s.bucketNow d p then s.takeToken d p else s

/-- A frame with a valid MAC, once the frames of its key before it are handled (R405, R411). The operations of the ROM base
firmware are not offered, which is checked before SEQ is. -/
def dapHandle (s : State) (d : DieId) (key : Fin 2) (seq : W64) (block src : List Byte) : State :=
  let k := s.steward d
  let x := k.dap.get {} key.val
  if seq ≤ x.rxHigh then
    let op := fieldAt block 0 1
    if op = 0x10 ∨ op = 0x11 ∨ op = 0x12 then
      (s.takeIfAny d (.dap key)).dapRespond d key (({ result := 6 } : DResp).bytes block) src
    else
      (s.setSteward d { k with stale := satInc k.stale }).dapRespond d key
        (({ result := 7, info := x.rxHigh.toNat } : DResp).bytes block) src
  else if x.rxRes.toNat < seq.toNat + 2048 then
    s.seqRes d key 0 (seq + 65536) (.rx key seq (seq + 65536) block src)
  else s.setSteward d { k with dap := k.dap.put key.val { x with rxHigh := seq, queue := x.queue ++ [(block, src)] } }

/-- The frames that have waited for a reservation, in their order, up to one that needs another. -/
def dapGo (s : State) (d : DieId) (key : Fin 2) : List (W64 × List Byte × List Byte) → State
  | [] => s
  | (seq, block, src) :: rest =>
    let s := s.dapHandle d key seq block src
    if s.reserving d key then
      let k := s.steward d
      s.setSteward d { k with dap := k.dap.put key.val { k.dap.get {} key.val with held := rest } }
    else s.dapGo d key rest
def dapNext (s : State) (d : DieId) (key : Fin 2) : State :=
  let k := s.steward d
  let x := k.dap.get {} key.val
  (s.setSteward d { k with dap := k.dap.put key.val { x with held := [] } }).dapGo d key x.held

/-- The steward restarts: its sessions, queued requests and queued records are gone, and a mailbox request in progress is
marked (R399). Before READY the compute part is held in reset and the die returns to BOOT (R485). -/
def restartSteward (s : State) (d : DieId) : State :=
  let k := s.steward d
  let x := s.die d
  let s := s.setSteward d { k with
    mode := .checking
    supDone := false
    sessions := {}
    serving := none
    buckets := {}
    mailboxes := k.mailboxes.mapVals fun m => { m with restarted := m.restarted || (m.busy && !m.taken.isEmpty) }
    dap := k.dap.mapVals fun q => { q with queue := [], held := [] }
    journal := { k.journal with replayed := false, queue := [], jobs := [], erased := false } }
  if x.stage = .ready ∨ x.stage = .held then s
  else
    let s := if x.computeReset then s else s.resetCompute d
    (s.setDie d { s.die d with
      awaitPlan := false
      reported := false
      startRestarts := satInc x.startRestarts }).enterStage d .boot

end State

end Sys2Proof.Machine
end

