-- ==== Sys2Proof/Machine/Jrn.lean ====
section
/-!
DEFINITION. The persistent journal: records, appending, replay, compaction and erases (R416 to R430).
-/
namespace Sys2Proof.Machine

/-- The bytes of a record (Table 22-4). -/
def recBytes (gen : Nat) (seq : W64) (kind : Nat) (payload : List Byte) : List Byte :=
  let len := max 32 (roundUp (payload.length + 20) 16)
  let b := bytesLE 2 0x4A52 ++ bytesLE 1 kind ++ bytesLE 1 (len / 16) ++ bytesLE 4 gen ++ bytesLE 8 seq.toNat ++
    payload ++ List.replicate (len - 20 - payload.length) 0
  b ++ bytesLE 4 (crc32c b).toNat

/-- A record read from a bank: its kind, SEQ and payload. -/
structure JrnRead where
  kind : Nat
  seq : Nat
  payload : List Byte
  deriving DecidableEq, Repr

/-- What a replay of a bank finds: its records in order, the append point, and whether a record was discarded (R424). -/
structure JrnLog where
  recs : List JrnRead
  append : Nat
  torn : Bool
  deriving DecidableEq, Repr

/-- The record at an offset of a bank; none where it is bad or of another generation (R424). -/
def readRec (rd : Nat → Byte) (gen a : Nat) : Option (Nat × JrnRead) :=
  let h := (List.range 16).map fun i => rd (a + i)
  let len := 16 * fieldAt h 3 1
  let bs := (List.range len).map fun i => rd (a + i)
  if fieldAt h 0 2 ≠ 0x4A52 ∨ len < 32 ∨ 256 < len ∨ 256 < a % 256 + len then none
  else if (crc32c (bs.take (len - 4))).toNat ≠ fieldAt bs (len - 4) 4 ∨ fieldAt h 4 4 ≠ gen then none
  else some (len, { kind := fieldAt h 2 1, seq := fieldAt h 8 8, payload := (bs.drop 16).take (len - 20) })

/-- The next page boundary after an offset. -/
def nextPage (a : Nat) : Nat := (a / 256 + 1) * 256

/-- replay() from an offset (R424). A record that did not fit in the rest of its page starts at the next one (R420), so an
erased rest of a page ends the log only where the next page is erased too. A bad record ends a replay; compaction, which has
every record that was written, reads the `whole` bank past it (R425). DEDUCED, log entry 45. -/
def readLog (rd : Nat → Byte) (gen : Nat) (whole : Bool) : Nat → Nat → Option Nat → List JrnRead → JrnLog
  | 0, a, _, acc => ⟨acc.reverse, a, false⟩
  | fuel + 1, a, last, acc =>
    let bad := fun (_ : Unit) =>
      if whole then readLog rd gen whole fuel (nextPage a) last acc else ⟨acc.reverse, nextPage a, true⟩
    let erased := fun x : Nat => rd x = 0xFF && rd (x + 1) = 0xFF
    if 0x200000 ≤ a then ⟨acc.reverse, a, false⟩
    else if erased a then
      if a % 256 = 0 ∨ 0x200000 ≤ nextPage a ∨ erased (nextPage a) then ⟨acc.reverse, a, false⟩
      else readLog rd gen whole fuel (nextPage a) last acc
    else
      match readRec rd gen a with
      | none => bad ()
      | some (len, r) =>
        if (match last with | some l => decide (r.seq ≤ l) | none => false) then bad ()
        else readLog rd gen whole fuel (a + len) (some r.seq) (r :: acc)

namespace Journal

/-- The generation of a bank, where it is valid (R419). -/
def bankGen (j : Journal) (b : Nat) : Option Nat :=
  let h := j.bytesAt (bankBase b) 16
  if fieldAt h 0 4 = 0x4B4E4142 ∧ fieldAt h 8 4 = 0 ∧ fieldAt h 12 4 = (crc32c (h.take 8)).toNat then some (fieldAt h 4 4)
  else none

/-- The active bank and its generation (R419). -/
def active (j : Journal) : Option (Nat × Nat) :=
  match j.bankGen 0, j.bankGen 1 with
  | some g, some h => some (if h ≤ g then (0, g) else (1, h))
  | some g, none => some (0, g)
  | none, some h => some (1, h)
  | none, none => none

/-- The log of a bank as a replay finds it, and whole. -/
def log (j : Journal) (b gen : Nat) (whole : Bool := false) : JrnLog :=
  readLog (fun i => j.byte (bankBase b + i)) gen whole 131072 0x1000 none []

/-- A bank header, sealed or not (R419). -/
def header (gen : Nat) : List Byte :=
  let h := bytesLE 4 0x4B4E4142 ++ bytesLE 4 gen
  h ++ bytesLE 4 0xFFFFFFFF ++ bytesLE 4 (crc32c h).toNat

/-- The sectors of a bank, its header sector first. -/
def bankSectors (b : Nat) : List Nat := (List.range 512).map fun i => bankBase b / 4096 + i

/-- Where a record of a length goes (R420). -/
def recordAt (j : Journal) (len : Nat) : Nat := if 256 < j.append % 256 + len then nextPage j.append else j.append

/-- A record written at the append point of a bank. -/
def append1 (j : Journal) (bs : List Byte) : Journal :=
  let a := j.recordAt bs.length
  { j.program (bankBase j.bank + a) bs with append := a + bs.length }

/-- Tokens of the journal budget (R423). -/
def budget (j : Journal) (now : Nat) : Nat := min 25600000000 (j.tokens + 4 * (now - j.tokensAt))

end Journal

/-- The last elements of a list. -/
def lastN {α : Type} (n : Nat) (l : List α) : List α := l.drop (l.length - n)

/-- The entries of an OBJ record: object key and value (Table 22-5). -/
def objEntries : Nat → List Byte → List (Nat × BitVec 128)
  | 0, _ => []
  | fuel + 1, bs =>
    let w := fieldAt bs 3 1
    if bs.length < 4 ∨ w = 0 ∨ 16 < w then []
    else (objKey (fieldAt bs 0 2) (fieldAt bs 2 1), BitVec.ofNat 128 (fieldAt bs 4 w)) :: objEntries fuel (bs.drop (4 + w))

/-- The entry of an object in an OBJ record. -/
def objEntry (key bits : Nat) (v : BitVec 128) : List Byte :=
  bytesLE 2 (key / 256) ++ bytesLE 1 (key % 256) ++ bytesLE 1 (bits / 8) ++ bytesLE (bits / 8) v.toNat

/-- The records that compaction keeps (R426). -/
def liveRecs (l : List JrnRead) : List JrnRead :=
  let indexed := l.mapIdx fun i r => (i, r)
  let lastOf := fun (p : JrnRead → Bool) => ((indexed.filter fun e => p e.2).getLast?.map (·.1)).toList
  let objKeys := (l.filter fun r => decide (r.kind = 1)).flatMap fun r => (objEntries 64 r.payload).map (·.1)
  let objs := objKeys.eraseDups.flatMap fun k =>
    lastOf fun r => decide (r.kind = 1) && ((objEntries 64 r.payload).map (·.1)).contains k
  let keyed := fun (k : Nat) => lastOf fun r => decide (r.kind = 7) && decide (fieldAt r.payload 0 1 = k)
  let after := fun (k dir : Nat) =>
    (lastOf fun r => decide (r.kind = 6) && decide (fieldAt r.payload 0 1 = k) && decide (fieldAt r.payload 1 1 = dir)).filter
      fun i => (keyed k).all fun j => decide (j < i)
  let lasts := fun (n kind : Nat) => lastN n ((indexed.filter fun e => decide (e.2.kind = kind)).map (·.1))
  let keep := objs ++ keyed 0 ++ keyed 1 ++ after 0 0 ++ after 0 1 ++ after 1 0 ++ after 1 1 ++ lasts 1 2 ++ lasts 1 3 ++
    lasts 1 8 ++ lasts 720 4 ++ lasts 1024 5
  (indexed.filter fun e => keep.contains e.1).map (·.2)

namespace State

/-- A record could not be written: its request gets JOURNAL and changes nothing (R405, R411, R422).
DEDUCED, log entry 44. -/
def recFailed (s : State) (d : DieId) : JrnAfter → State
  | .none => s
  | .again => s
  | .commit path _ _ _ => s.answerPath d path { result := 8 }
  | .key path _ _ => s.answerPath d path { result := 8 }
  | .rx key _ _ block addr =>
    ((s.takeIfAny d (.dap key)).dapRespond d key (({ result := 8 } : DResp).bytes block) addr).dapNext d key
  | .tx _ _ _ _ => s

/-- A record has been written: what waited for it happens (R403, R408, R411). -/
def recWritten (s : State) (d : DieId) (seq : W64) : JrnAfter → State
  | .none => s
  | .again => s
  | .commit path vals group rsvd =>
    let s := s.putVals d vals
    let s := if rsvd then s.setDie d { s.die d with rsvdWrite := true } else s
    let k := s.steward d
    let s := if group = 0 then s else s.setSteward d { k with sessions := k.sessions.erase group }
    s.answerPath d path { result := 0, info := seq.toNat }
  | .key path key v =>
    let k := s.steward d
    let x := k.dap.get {} key.val
    let s := s.setSteward d { k with
      dict := k.dict.put (objKey (0x1E00 + key.val) 0) v
      dap := k.dap.put key.val { queue := x.queue } }
    s.answerPath d path { result := 0, info := seq.toNat }
  | .rx key sq limit block addr =>
    let k := s.steward d
    let x := k.dap.get {} key.val
    (s.setSteward d { k with dap := k.dap.put key.val { x with
      rxRes := limit, rxHigh := sq, queue := x.queue ++ [(block, addr)] } }).dapNext d key
  | .tx key limit resp addr =>
    let k := s.steward d
    let x := k.dap.get {} key.val
    (s.setSteward d { k with dap := k.dap.put key.val { x with txRes := limit } }).dapSend d key resp addr

/-- Whether a record belongs to a safety-manager request (R422). -/
def recSafety (r : JrnRec) : Bool :=
  match r.after with
  | .commit p _ _ _ => decide (p.role = .safety)
  | .key p _ _ => decide (p.role = .safety)
  | .rx k _ _ _ _ => decide (k = 1)
  | .tx k _ _ _ => decide (k = 1)
  | .none => false
  | .again => false

/-- A record whose failure is a JOURNAL result that REFUSED counts: one that carries a request (R423, Table 22-7). -/
def recRequest (r : JrnRec) : Bool :=
  match r.after with
  | .commit _ _ _ _ | .key _ _ _ | .rx _ _ _ _ _ => true
  | .tx _ _ _ _ | .none | .again => false

/-- The record that the steward writes next. -/
def nextRec (j : Journal) : Option JrnRec := match j.queue.find? recSafety with
  | some r => some r
  | none => j.queue.head?

/-- Begin the erase of the other bank once the append point has reached 75 %, but for a read-only journal (R422, R425). -/
def compactDue (j : Journal) : Journal :=
  if 0x180000 ≤ j.append ∧ !j.erased ∧ !j.readOnly ∧ !(j.jobs.any fun x => decide (x.1 = .compact)) then
    { j with jobs := j.jobs ++ [(.compact, Journal.bankSectors (1 - j.bank))] }
  else j

/-- The codes of a PLAN record, by region (R394, Table 22-5). -/
def planCodesOf (rs : List Nat) (p : List Byte) : SMap Nat :=
  if fieldAt p 2 1 = rs.length then
    (rs.mapIdx fun i r => (r, fieldAt p (12 + 2 * i) 1)).foldl (fun m e => m.put e.1 e.2) {}
  else {}

/-- JOURNAL_RECORD_WRITE: the next record is programmed and read back; `ok` is the comparison (R420, R422).
PRESUMED, log entry 43; DEDUCED, log entry 44. -/
def recordWrite (s : State) (d : DieId) (ok : Bool) : State :=
  let k := s.steward d
  let j := k.journal
  match nextRec j with
  | none => s
  | some r =>
    let bs := recBytes j.gen j.next r.kind r.payload
    let a := j.recordAt bs.length
    let rest := j.queue.erase r
    if k.mode = .checking ∨ !j.replayed then s
    else if j.readOnly ∨ j.unusable then
      let n := if recRequest r then satInc j.refused else j.refused
      (s.setSteward d { k with journal := { j with queue := rest, refused := n } }).recFailed d r.after
    else if j.gen = 0 then s
    else if 0x200000 < a + bs.length then
      (s.setSteward d { k with journal := { j with queue := rest } }).recFailed d r.after
    else if ok then
      let codes := if r.kind = 2 then planCodesOf s.regionList r.payload else j.planCodes
      let j' := compactDue { j.append1 bs with next := j.next + 1, queue := rest, planCodes := codes }
      (s.setSteward d { k with journal := j' }).recWritten d j.next r.after
    else
      let f := s.draw
      let addr := Journal.bankBase j.bank + a
      let bad := (List.range bs.length).map fun i => Config.freeByte f.1 i
      let j' := { j.program addr bad with append := nextPage a, verifyFail := true }
      if r.tries < 2 then
        let q := j.queue.map fun x => if x = r then { x with tries := x.tries + 1 } else x
        f.2.setSteward d { k with journal := { j' with queue := q } }
      else
        let s := f.2.setSteward d { k with journal := { j' with queue := rest, readOnly := true } }
        (s.report d 0x2202 addr).recFailed d r.after

/-- Block reset falls while a record may be being programmed: any number of its first bytes may have been (R424, R465). -/
def tear (s : State) (d : DieId) : State × Journal :=
  let j := (s.steward d).journal
  match nextRec j with
  | none => (s, { flash := j.flash })
  | some r =>
    let bs := recBytes j.gen j.next r.kind r.payload
    if !j.replayed ∨ j.gen = 0 ∨ j.readOnly ∨ j.unusable ∨ 0x200000 < j.recordAt bs.length + bs.length then
      (s, { flash := j.flash })
    else
      let f := s.draw
      let n := Config.freeNat f.1 % (bs.length + 1)
      (f.2, { flash := (j.program (Journal.bankBase j.bank + j.recordAt bs.length) (bs.take n)).flash })

/-- The values that a log holds, the last of each object (R402). -/
def logVals (l : List JrnRead) : SMap (BitVec 128) :=
  (l.filter fun r => decide (r.kind = 1)).foldl (fun m r =>
    (objEntries 64 r.payload).foldl (fun m e => m.put e.1 e.2) m) {}

/-- What a log leaves of a DAP key: its value and the two limits (R410, R411). -/
def logKey (d : DieId) (l : List JrnRead) (key : Nat) : Option (BitVec 128) × Nat × Nat :=
  l.foldl (fun acc r =>
    if fieldAt r.payload 0 1 ≠ key then acc
    else if r.kind = 7 then
      ((keyUnwrap (bytesLE 16 (Config.deviceKey d.val).toNat) ((r.payload.drop 8).take 24)).map fun b =>
        BitVec.ofNat 128 (ofBytesLE b), 0, 0)
    else if r.kind = 6 then
      if fieldAt r.payload 1 1 = 0 then (acc.1, fieldAt r.payload 8 8, acc.2.2) else (acc.1, acc.2.1, fieldAt r.payload 8 8)
    else acc) (none, 0, 0)

/-- The last record of a kind. -/
def lastRec (l : List JrnRead) (kind : Nat) : Option (List Byte) :=
  ((l.filter fun r => decide (r.kind = kind)).getLast?).map (·.payload)

/-- The payload of a KEY record (R410, Table 22-5). -/
def keyPayload (d : DieId) (key : Nat) (v : BitVec 128) : List Byte :=
  bytesLE 1 key ++ bytesLE 7 0 ++ keyWrap (bytesLE 16 (Config.deviceKey d.val).toNat) (bytesLE 16 v.toNat)

/-- FIRST of every region as the log has it (R391, R394). -/
def applyFirst (s : State) (d : DieId) (l : List JrnRead) : State :=
  let rs := s.regionList
  match lastRec l 3 with
  | some p => (rs.mapIdx fun i r => (i, r)).foldl (fun s e =>
      s.setRegion d e.2 { s.region d e.2 with first := fieldAt p e.1 1, firstSet := true }) s
  | none => rs.foldl (fun s r => s.setRegion d r { s.region d r with firstSet := false }) s

/-- No valid bank: every persistent object takes its default, both keys with them, and the journal holds no FIRST and no UNIT
(R424, R428). -/
def takeDefaults (s : State) (d : DieId) : State :=
  let vals := (s.steward d).dict.entries.filterMap fun e =>
    match objAttr s.build.dies d.val (e.1 / 256) (e.1 % 256) with
    | some a => if a.persistent then some (e.1, BitVec.ofNat 128 a.dflt) else none
    | none => none
  let s := (s.putVals d vals).applyFirst d []
  s.setSteward d { s.steward d with failedArrays := [] }

/-- The values of a log take effect at power-up: persistent objects, keys, arrays recorded as failed, and the
configurations of the monitors (R394, R402, R421, R453). -/
def applyLog (s : State) (d : DieId) (l : List JrnRead) : State :=
  let vals := (logVals l).entries.filter fun e =>
    match objAttr s.build.dies d.val (e.1 / 256) (e.1 % 256) with
    | some a => a.persistent
    | none => false
  let keys := (List.range 2).filterMap fun i => (logKey d l i).1.map fun v => (objKey (0x1E00 + i) 0, v)
  let s := s.putVals d (vals ++ keys)
  match lastRec l 8 with
  | some p =>
    let k := s.steward d
    s.setSteward d { k with failedArrays :=
      ((List.range 256).filter fun i => bitAt (fieldAt p 0 32) i).map fun i => d.val * 256 + i }
  | none => s

/-- The records of the persistent objects, keys among them, whose value in the dictionary store differs from the replayed one,
which is the default where the journal has none (R399). -/
def unjournaled (s : State) (d : DieId) (l : List JrnRead) : List (Nat × List Byte) :=
  let have' := logVals l
  (s.steward d).dict.entries.filterMap fun e =>
    match objAttr s.build.dies d.val (e.1 / 256) (e.1 % 256) with
    | some a =>
      if !a.persistent then none
      else if a.type = 6 then
        let key := e.1 / 256 - 0x1E00
        if (logKey d l key).1.getD 0 ≠ e.2 then some (7, keyPayload d key e.2) else none
      else if (have'.find? e.1).getD (BitVec.ofNat 128 a.dflt) ≠ e.2 then some (1, objEntry e.1 a.bits e.2)
      else none
    | none => none

/-- After a replay: the limits of the DAP keys are those of the journal (R411), and a die in REPLAY goes on to PLAN
(R476). -/
def replayOver (s : State) (d : DieId) (l : List JrnRead) : State :=
  let k := s.steward d
  let dap := (List.range 2).foldl (fun (m : SMap DapKey) i =>
    let x := logKey d l i
    m.put i { rxHigh := BitVec.ofNat 64 x.2.1, rxRes := BitVec.ofNat 64 x.2.1, txSeq := BitVec.ofNat 64 x.2.2,
              txRes := BitVec.ofNat 64 x.2.2 }) {}
  let s := s.setSteward d { k with dap := dap, filled := true }
  if (s.die d).stage = .replay then s.enterStage d .plan else s

/-- JOURNAL_REPLAY: the active bank is replayed at power-up and at a restart (R399, R424); of a flash that is not used nothing
is read (R416). DEDUCED, log entry 45. -/
def journalReplay (s : State) (d : DieId) : State :=
  let k := s.steward d
  let j := k.journal
  if k.mode = .checking ∨ j.replayed then s
  else if j.unusable then
    (s.setSteward d { k with journal := { j with replayed := true, gen := 0 } }).replayOver d []
  else
    match j.active with
    | none =>
      let s := s.setSteward d { k with journal := { j with
        replayed := true, gen := 0, next := 1, empty := true, planCodes := {}, jobs := [(.empty, Journal.bankSectors 0)] } }
      ((s.report d 0x2201 1).takeDefaults d).replayOver d []
    | some (b, g) =>
      let x := j.log b g
      let next := match x.recs.getLast? with
        | some r => BitVec.ofNat 64 (r.seq + 1)
        | none => 1
      let s := s.setSteward d { k with journal := compactDue { j with
        replayed := true, bank := b, gen := g, append := x.append, next := next
        planCodes := (lastRec x.recs 2).elim {} (planCodesOf s.regionList)
        torn := if x.torn then satInc j.torn else j.torn } }
      let s := if k.filled then (s.unjournaled d x.recs).foldl (fun s e => s.journal d e.1 e.2 .again) s
        else s.applyLog d x.recs
      (s.applyFirst d x.recs).replayOver d x.recs

/-- COMPACTION: the erased bank takes its header, the live records, and the seal (R425); a read-only journal has none (R422). -/
def compaction (s : State) (d : DieId) : State :=
  let k := s.steward d
  let j := k.journal
  if !j.erased ∨ !j.replayed ∨ j.gen = 0 ∨ j.readOnly then s
  else
    let live := liveRecs (j.log j.bank j.gen true).recs
    let b := 1 - j.bank
    let start : Journal := { j.program (Journal.bankBase b) (Journal.header (j.gen + 1)) with
      bank := b, gen := j.gen + 1, append := 0x1000, erased := false }
    let full := live.foldl (fun (x : Journal) r => x.append1 (recBytes (j.gen + 1) (BitVec.ofNat 64 r.seq) r.kind r.payload)) start
    s.setSteward d { k with journal := full.program (Journal.bankBase b + 8) [0, 0, 0, 0] }

/-- SECTOR_ERASE: the erase of a sector completes; the last one of a job finishes it (R404, R424, R425, R428). -/
def sectorErase (s : State) (d : DieId) : State :=
  let k := s.steward d
  let j := k.journal
  match j.jobs with
  | (job, n :: rest) :: more =>
    if job = .compact ∧ j.readOnly then s.setSteward d { k with journal := { j with jobs := more } } else
    let j := { j with flash := j.flash.filter fun a _ => !inSector n a }
    if !rest.isEmpty then s.setSteward d { k with journal := { j with jobs := (job, rest) :: more } }
    else
      let j := { j with jobs := more }
      match job with
      | .compact => s.setSteward d { k with journal := { j with erased := true } }
      | .empty =>
        let j := (j.program 0x200000 (Journal.header 1)).program 0x200008 [0, 0, 0, 0]
        s.setSteward d { k with journal := { j with bank := 0, gen := 1, append := 0x1000 } }
      | .image p => (s.setSteward d { k with journal := j }).answerPath d p { result := 0 }
      | .clear => (s.setSteward d { k with journal := { j with gen := 0 } }).restartSteward d
  | (_, []) :: more => s.setSteward d { k with journal := { j with jobs := more } }
  | [] => s

end State

/-- JOURNAL_RECORD_WRITE (R422). -/
def execJournalRecordWrite (d : DieId) (ok : Bool) (s : State) : Host.Outcome State Fault Refusal :=
  onDie s d (s.recordWrite d ok)
/-- JOURNAL_REPLAY (R424). -/
def execJournalReplay (d : DieId) (s : State) : Host.Outcome State Fault Refusal := onDie s d (s.journalReplay d)
/-- COMPACTION (R425). -/
def execCompaction (d : DieId) (s : State) : Host.Outcome State Fault Refusal := onDie s d (s.compaction d)
/-- SECTOR_ERASE (R425). -/
def execSectorErase (d : DieId) (s : State) : Host.Outcome State Fault Refusal := onDie s d (s.sectorErase d)

end Sys2Proof.Machine
end

