-- ==== Sys2Proof/Machine/Dict.lean ====
section
/-!
DEFINITION. The object dictionary: reads and writes of objects, checks and results, staging and commits, the recovery
operations, and DAP frames (R398 to R415, R428, R434, R438, R444 to R453).
-/
namespace Sys2Proof.Machine

/-- Fields of a request block (Table 21-3). -/
def dOp (r : List Byte) : Nat := fieldAt r 0 1
def dSub (r : List Byte) : Nat := fieldAt r 1 1
def dIndex (r : List Byte) : Nat := fieldAt r 2 2
def dGroup (r : List Byte) : Nat := fieldAt r 6 1
def dOffset (r : List Byte) : Nat := fieldAt r 8 8
def dValue (r : List Byte) : Nat := fieldAt r 16 16
def dKey (r : List Byte) : Nat := objKey (dIndex r) (dSub r)

/-- The kinds of request, as the table of operations divides them: one for each OP, and one for each of the objects whose
WRITE has a row of its own. A request with an unknown OP falls to READ. -/
inductive DKind where
  | read | write | commit | abort | describe | imgErase | imgWrite | boot
  | timeSet | timeAdj | restep | recover | jrnClear
  deriving DecidableEq, Repr

/-- The kind of a request. DEDUCED, log entry 41. -/
def dKind (r : List Byte) : DKind :=
  match dOp r with
  | 2 =>
    match dKey r with
    | 0x2D0500 => .timeSet
    | 0x2D0600 => .timeAdj
    | 0x2D0700 => .restep
    | 0x101200 => .recover
    | 0x2F0200 => .jrnClear
    | _ => .write
  | 3 => .commit
  | 4 => .abort
  | 5 => .describe
  | 0x10 => .imgErase
  | 0x11 => .imgWrite
  | 0x12 => .boot
  | _ => .read

/-- The right of a role on an object: 0 none, 1 read, 2 write, 3 both (R400). -/
def ObjAttr.right (a : ObjAttr) : DRole → Nat
  | .driver => a.rd
  | .partition => a.rp
  | .network => a.rn
  | .safety => a.rs

/-- The reserved bits of an object's field map (R8, R400). -/
def objRsv (index sub : Nat) : Nat :=
  if 0x2B00 ≤ index ∧ index ≤ 0x2B0F then 0xFF000000000000FC
  else if 0x2C00 ≤ index ∧ index ≤ 0x2C07 then 0xFFFFFFFE000000030000000000000000
  else if 0x2E20 ≤ index ∧ index ≤ 0x2E3F then 0xFE
  else
    match objKey index sub with
    | 0x2D0100 => 0xFF0000F8
    | 0x2D0200 => 0xFFFF000000000000
    | 0x2A4000 => 0xFFFF0001
    | 0x2D0000 => 0xFFE0
    | 0x2F0000 => 0xF0
    | _ => 0

/-- A value without its reserved bits. -/
def noRsv (index sub v : Nat) : Nat := v - (v &&& objRsv index sub)

/-- Whether SEL is in the range of its source (R447, Table 24-1). -/
def selOk (src sel : Nat) : Bool :=
  match src with
  | 1 => decide (sel < 16) || decide (sel = 0x1F)
  | 3 => decide (sel < 8)
  | 4 => decide (sel < 4)
  | 7 => decide (sel ≤ 16)
  | 8 => decide (sel ≤ 67)
  | _ => decide (sel = 0)

/-- Whether a value is in its object's range (R405), its reserved bits left out. DEDUCED, log entry 47. -/
def valueOk (index sub v : Nat) : Bool :=
  if 0x2B00 ≤ index ∧ index ≤ 0x2B0F then
    let slice := field v 55 32
    decide (field v 31 27 ≤ 16) && decide (field v 26 22 ≤ 16) && decide (field v 21 17 ≤ 16) &&
      decide (field v 16 12 ≤ 16) &&
      (decide (1000 ≤ slice) && decide (slice ≤ 10000000) || (decide (slice = 0) && !bitAt v 0))
  else if 0x2E20 ≤ index ∧ index ≤ 0x2E3F then
    decide (field v 31 24 ≤ 8) && selOk (field v 31 24) (field v 23 16)
  else
    match objKey index sub with
    | 0x2A1000 => decide (v ≤ 4)
    | 0x2A2000 => decide (20 ≤ v) && decide (v ≤ 10000)
    | 0x2A3000 => decide (100 ≤ v) && decide (v ≤ 1000)
    | 0x2A4100 => decide (1000 ≤ v) && decide (v ≤ 100000)
    | 0x2A5000 => decide (0x3C ≤ v) && decide (v ≤ 0xA0)
    | 0x2A5100 => decide (0x3C ≤ v) && decide (v ≤ 0xA0)
    | 0x2A5200 => decide (2 ≤ v) && decide (v ≤ 20)
    | 0x2D0100 =>
      decide (-5 ≤ signed 8 (field v 23 16)) && decide (signed 8 (field v 23 16) ≤ 0) &&
        decide (-3 ≤ signed 8 (field v 15 8)) && decide (signed 8 (field v 15 8) ≤ 3) && decide (field v 1 0 ≠ 3)
    | 0x2D0500 => decide (v < 2 ^ 96) && decide (field v 47 16 < 1000000000)
    | 0x2D0B00 => decide (100 ≤ v) && decide (v ≤ 10000000)
    | 0x101200 => decide (v = 0x5A)
    | 0x2D0700 => decide (v = 0xA5)
    | 0x2F0200 => decide (v = 0xC3)
    | _ => true

/-- The objects of a commit group (R400). -/
def groupObjs (g : Nat) : List (Nat × Nat) :=
  if g = 1 then [(0x2A50, 0), (0x2A51, 0)]
  else if 0x10 ≤ g ∧ g ≤ 0x1F then [(0x2B00 + (g - 0x10), 1)]
  else if 0x20 ≤ g ∧ g ≤ 0x27 then (List.range 64).map fun k => (0x2C00 + (g - 0x20), k + 1)
  else if g = 0x30 then [(0x2D01, 0), (0x2D02, 0), (0x2D03, 0), (0x2D04, 0)]
  else []

/-- Device time as its 96 visible bits (R433). -/
def NetTime.bits (n : NetTime) : Nat := n.secs % 2 ^ 48 * 2 ^ 48 + n.nsFrac / 2 ^ 16

/-- The registers of a monitor's snapshot bank, by subindex 2 to 5 and 0x10 on (Table 24-3, Table 24-5). -/
def Monitor.reg (m : Monitor) (sub : Nat) : Nat :=
  let b := m.snap
  if sub = 1 then m.cfg.toNat
  else if sub = 2 then place b.lost 49 + place (bit b.sat) 48 + b.total
  else if sub = 3 then place b.under.toNat 32 + b.above.toNat
  else if sub = 4 then place b.max.toNat 32 + b.min.toNat
  else if sub = 5 then m.snapt.toNat
  else b.bins.get 0 (sub - 0x10)

/-- JRN_STAT (Table 22-7). -/
def Journal.stat (j : Journal) : Nat :=
  place (min j.gen 0xFFFFFF) 40 + place (j.append * 100 / 0x200000) 32 + place j.torn.toNat 16 + place j.refused.toNat 8 +
    place (bit j.verifyFail) 3 + place (bit j.readOnly) 2 + place j.bank 1 + bit j.empty

/-- NT_STAT (Table 23-6). -/
def NetTime.stat (n : NetTime) : Nat :=
  place n.rxDrop.toNat 48 + place n.syncRx.toNat 32 + place n.tsLost.toNat 16 + place (bit n.locked) 4 +
    place (bit n.stepped) 3 + place (bit n.syncLost) 2 + place (bit n.unlock) 1 + bit n.linkUp

/-- STW_STAT (Table 21-2). -/
def Steward.stat (k : Steward) : Nat :=
  place k.restarts.toNat 48 + place k.vfail.toNat 40 + place k.svn.toNat 16 +
    (match k.mode with | .checking => 0 | .carori => 1 | .rom => 2)

/-- DICT_STAT (Table 21-10). -/
def Steward.dictStat (k : Steward) : Nat :=
  place k.authFail.toNat 48 + place k.dapDrop.toNat 32 + place k.rateRefused.toNat 16 + k.stale.toNat

/-- ADJ clamped to ±1,000 ppm (R433). -/
def clampAdj (x : Int) : Int := max (-42949673) (min 42949673 x)

/-- The EtherType of a frame after at most two VLAN tags, the number of tags, and the offset of its payload (R432). -/
def etherType (f : List Byte) : Nat × Nat × Nat :=
  let at' := fun o => ofBytesBE ((f.drop o).take 2)
  let vlan := fun t : Nat => decide (t = 0x8100) || decide (t = 0x88A8)
  if vlan (at' 12) then (if vlan (at' 16) then (at' 20, 2, 22) else (at' 16, 1, 18)) else (at' 12, 0, 14)

namespace State

/-- A received frame is accepted (R431, R432). -/
def macAccepts (s : State) (d : DieId) (f : List Byte) : Bool :=
  let e := etherType f
  let dst := f.take 6
  let n := f.length
  decide ((s.die d).macMode < 2) && decide (64 ≤ n) && decide (n ≤ 1522 + 4 * (e.2.1 - 1)) &&
    decide (f.drop (n - 4) = fcs (f.take (n - 4))) &&
    (decide (dst = s.macBytes d) || (decide (dst = [0x01, 0x80, 0xC2, 0x00, 0x00, 0x0E]) && decide (e.1 = 0x88F7))) &&
    (decide (e.1 = 0x88B5) || (decide (e.1 = 0x88F7) && decide (e.2.1 = 0)))

/-- The present value of an object (R402, R403). -/
def objNow (s : State) (d : DieId) (index sub : Nat) : Nat :=
  let k := s.steward d
  let n := s.net d
  if 0x2E20 ≤ index ∧ index ≤ 0x2E3F ∧ sub ≠ 1 then (s.monitor d (index - 0x2E20)).reg sub
  else
    match objKey index sub with
    | 0x100100 => k.fwVersion.toNat
    | 0x100200 => (s.die d).number
    | 0x101000 => k.stat
    | 0x101100 => k.dictStat
    | 0x2A4000 => s.safeStat d
    | 0x2D0000 => n.stat
    | 0x2D0600 => n.adj.toNat
    | 0x2D0800 => n.bits
    | 0x2D0900 => n.ppsIn.toNat
    | 0x2D0A00 => place n.corrCount.toNat 64 + n.corrSecs
    | 0x2F0000 => k.journal.stat
    | 0x2F0100 => (k.journal.next - 1).toNat
    | _ => s.objVal d index sub

/-- What reading an object resets: its RC fields (R9). DEDUCED, log entry 40. -/
def objReadDone (s : State) (d : DieId) (index sub : Nat) : State :=
  let k := s.steward d
  match objKey index sub with
  | 0x101100 => s.setSteward d { k with authFail := 0, dapDrop := 0, rateRefused := 0, stale := 0 }
  | 0x2A4000 => s.setSteward d { k with safety := { k.safety with events := 0 } }
  | 0x2D0000 => s.setNet d { s.net d with rxDrop := 0, syncRx := 0, tsLost := 0 }
  | 0x2F0000 => s.setSteward d { k with journal := { k.journal with torn := 0, refused := 0 } }
  | _ => s

/-- The masks of a write of HM_GCTL join those that act at the next count (R451). -/
def hmWrite (s : State) (d : DieId) (v : W64) : State :=
  let k := s.die d
  s.setDie d { k with hmSnap := k.hmSnap ||| v.truncate 32, hmClear := k.hmClear ||| (v >>> 32).truncate 32 }

/-- A write to an unstaged object that is not persistent takes effect (R9, R403). -/
def objWriteNow (s : State) (d : DieId) (index sub v : Nat) : State :=
  let k := s.steward d
  let n := s.net d
  match objKey index sub with
  | 0x2A4000 =>
    let f := k.safety
    (s.setSteward d { k with safety := { f with
      causes := f.causes &&& ~~~(BitVec.ofNat 13 v)
      ssrLatch := f.ssrLatch && !bitAt v 13 } }).noteErr d (s.errDriven d)
  | 0x2D0000 => s.setNet d { n with syncLost := n.syncLost && !bitAt v 2, unlock := n.unlock && !bitAt v 1 }
  | 0x2D0500 =>
    s.setNet d { n with stepTo := some (BitVec.ofNat 96 v), stepBy := none, stepped := true, stepEdge := n.edges + 1 }
  | 0x2D0600 => s.setNet d { n with adjNext := some (BitVec.ofInt 32 (clampAdj (signed 32 v))) }
  | 0x2D0700 => s.setNet d { n with stepped := false }
  | 0x2E0000 => s.hmWrite d (BitVec.ofNat 64 v)
  | 0x2F0000 =>
    let j := k.journal
    s.setSteward d { k with journal := { j with
      verifyFail := j.verifyFail && !bitAt v 3, empty := j.empty && !bitAt v 0 } }
  | _ => s

/-- A WRITE that the state of its object refuses (R444). -/
def writeRefused (s : State) (d : DieId) (key : Nat) : Bool :=
  (decide (key = 0x2D0500) && (s.net d).stepped) || (decide (key = 0x2D0600) && decide (field (s.objVal d 0x2D01 0) 1 0 = 1))

/-- The value of an object of a group as a session would commit it. -/
def stagedVal (s : State) (d : DieId) (x : Session) (o : Nat × Nat) : Nat :=
  match x.staged.find? (objKey o.1 o.2) with
  | some v => v.toNat
  | none => s.objVal d o.1 o.2

/-- The commit checks of R272 on a new value of PART_CFG of a partition. -/
def partCommitOk (s : State) (d : DieId) (p new : Nat) (role : DRole) : Bool :=
  let old := s.objVal d (0x2B00 + p) 1
  let cfg := fun q => if q = p then new else s.objVal d (0x2B00 + q) 1
  let on := (List.range 16).filter fun q => bitAt (cfg q) 0
  let total := fun hi lo => (on.map fun q => field (cfg q) hi lo).sum
  let live := s.ctxs.values.any fun c => decide (c.st ≠ .free) && decide (c.partition = p)
  decide (total 16 12 ≤ 16) && decide (total 21 17 ≤ 16) && decide (total 26 22 ≤ 16) && decide (total 31 27 ≤ 16) &&
    decide (total 11 8 ≤ 48) && decide ((on.filter fun q => bitAt (cfg q) 1).length ≤ 1) &&
    (decide (role = .safety) || (bitAt old 1 == bitAt new 1)) &&
    !(live && bitAt old 0 && (bitAt old 1 != bitAt new 1 || !bitAt new 0))

/-- The commit check of R288 on a new value of an ownership window. -/
def windowCommitOk (s : State) (d : DieId) (index sub new : Nat) (role : DRole) : Bool :=
  let old := s.objVal d index sub
  let safe := (List.range 16).filter fun p => bitAt (s.objVal d (0x2B00 + p) 1) 0 && bitAt (s.objVal d (0x2B00 + p) 1) 1
  let touches := safe.any fun p => bitAt old p || bitAt new p
  let b := field new 63 33
  let l := field new 96 66
  decide (b / 2 ^ 28 = index - 0x2C00) && decide (l / 2 ^ 28 = index - 0x2C00) && decide (b ≤ l) &&
    (decide (role = .safety) || !touches)

/-- The commit checks of a group (R408). -/
def commitOk (s : State) (d : DieId) (g : Nat) (x : Session) (role : DRole) : Bool :=
  ((groupObjs g).all fun o =>
    if (x.staged.find? (objKey o.1 o.2)).isNone then true
    else
      (match objAttr s.build.dies d.val o.1 o.2 with
        | some a => decide (2 ≤ a.right role)
        | none => false) &&
      (if 0x20 ≤ g ∧ g ≤ 0x27 then s.windowCommitOk d o.1 o.2 (s.stagedVal d x o) role
       else if 0x10 ≤ g ∧ g ≤ 0x1F then s.partCommitOk d (g - 0x10) (s.stagedVal d x o) role
       else true)) &&
  (decide (g ≠ 1) || decide (s.stagedVal d x (0x2A50, 0) ≤ s.stagedVal d x (0x2A51, 0)))

/-- Whether a role may not name an object's instance (R401). -/
def otherPartition (p : DPath) (index : Nat) : Bool :=
  match p with
  | .partition q => decide (0x2B00 ≤ index) && decide (index ≤ 0x2B0F) && decide (index - 0x2B00 ≠ q.val)
  | _ => false

/-- The first failing check of R405 from INVALID to REFUSED; 0 where none fails. DEDUCED, log entry 41. -/
def dictCheck (s : State) (d : DieId) (p : DPath) (r : List Byte) : Nat :=
  let op := dOp r
  let o := objAttr s.build.dies d.val (dIndex r) (dSub r)
  let named := decide (op = 1) || decide (op = 2) || decide (op = 5)
  let v := dValue r
  let unknownOp := !(named || decide (op = 3) || decide (op = 4) || decide (op = 0x10) || decide (op = 0x11) || decide (op = 0x12))
  let rsv := decide (fieldAt r 7 1 ≠ 0) || (decide (op ≠ 0x11) && decide (dOffset r ≠ 0)) ||
    (decide (op ≠ 2) && decide (op ≠ 0x11) && decide (v ≠ 0)) ||
    (decide (op ≠ 3) && decide (op ≠ 4) && decide (dGroup r ≠ 0)) ||
    ((decide (op = 3) || decide (op = 4)) && (decide (dIndex r ≠ 0) || decide (dSub r ≠ 0)))
  let range := match o with
    | none => named
    | some a => decide (op = 2) && (decide (2 ^ a.bits ≤ v) || !valueOk (dIndex r) (dSub r) (noRsv (dIndex r) (dSub r) v))
  let image := decide (op = 0x11) && (decide (dOffset r % 16 ≠ 0) || decide (1048832 ≤ dOffset r))
  let right := match o with
    | none => 0
    | some a => a.right p.role
  let g := if op = 3 ∨ op = 4 then dGroup r else if op = 2 then (o.map (·.group)).getD 0 else 0
  let held := match (s.steward d).sessions.find? g with
    | some x => decide (g ≠ 0) && decide (x.path ≠ p)
    | none => false
  if unknownOp || rsv || range || image then 1
  else if (named && otherPartition p (dIndex r)) || (decide (op = 1) && decide (right % 2 = 0)) ||
      (decide (op = 2) && decide (right < 2)) then 2
  else if held then 3
  else if op = 2 && s.writeRefused d (dKey r) then 5
  else 0

/-- Queue the record of a dictionary request, when the journal takes it (R422, R423). -/
def chargeRecord (s : State) (d : DieId) (p : DPath) (kind : Nat) (payload : List Byte) (after : JrnAfter) : State :=
  let k := s.steward d
  let j := k.journal
  let now := (s.die d).ticks
  let t := j.budget now
  if j.readOnly ∨ j.unusable ∨ t < 100000000 then
    (s.setSteward d { k with journal := { j with refused := satInc j.refused } }).answerPath d p { result := 8 }
  else
    let s := s.setSteward d { k with serving := some p, journal := { j with tokens := t - 100000000, tokensAt := now } }
    s.journal d kind payload after

/-- WRITE of an object (R403, R407, R410, R423). -/
def dictWriteObj (s : State) (d : DieId) (p : DPath) (r : List Byte) (a : ObjAttr) : State :=
  let index := dIndex r
  let sub := dSub r
  let v := noRsv index sub (dValue r)
  let rsvd := decide (dValue r ≠ v)
  let noted := if rsvd then s.setDie d { s.die d with rsvdWrite := true } else s
  let k := s.steward d
  if a.type = 6 then
    let key : Fin 2 := Fin.ofNat 2 index
    let kv := BitVec.ofNat 128 v
    s.chargeRecord d p 0x07 (keyPayload d key.val kv) (.key p key kv)
  else if a.group ≠ 0 then
    let s := noted
    let old := (k.sessions.find? a.group).getD { path := p, at' := 0 }
    let s := s.setSteward d { k with sessions := k.sessions.put a.group { old with
      staged := old.staged.put (dKey r) (BitVec.ofNat 128 v), at' := (s.die d).ticks } }
    s.answerPath d p { result := 0 }
  else if a.persistent then
    s.chargeRecord d p 0x01 (objEntry (dKey r) a.bits (BitVec.ofNat 128 v))
      (.commit p [(dKey r, BitVec.ofNat 128 v)] 0 rsvd)
  else
    let s := (noted.objWriteNow d index sub v).answerPath d p { result := 0 }
    let k := s.steward d
    match dKind r with
    | .recover => (s.setSteward d { k with forceRom := true }).restartSteward d
    | .jrnClear =>
      s.setSteward d { k with journal := { k.journal with
        gen := 0, queue := [], erased := false
        jobs := [(.clear, Journal.bankSectors 0 ++ Journal.bankSectors 1)] } }
    | _ => s

/-- COMMIT of a group (R408). -/
def dictCommitGroup (s : State) (d : DieId) (p : DPath) (g : Nat) : State :=
  let k := s.steward d
  match k.sessions.find? g with
  | none => s.answerPath d p { result := 0 }
  | some x =>
    if !s.commitOk d g x p.role then s.answerPath d p { result := 5 }
    else
      let vals := x.staged.entries
      let kept := (groupObjs g).filterMap fun o =>
        match objAttr s.build.dies d.val o.1 o.2 with
        | some a => if a.persistent then some (objEntry (objKey o.1 o.2) a.bits (BitVec.ofNat 128 (s.stagedVal d x o))) else none
        | none => none
      if kept.isEmpty then
        let s := (if 0x10 ≤ g ∧ g ≤ 0x1F then s.settleCuffs else s).putVals d vals
        let k := s.steward d
        (s.setSteward d { k with sessions := k.sessions.erase g }).answerPath d p { result := 0 }
      else s.chargeRecord d p 0x01 kept.flatten (.commit p vals g false)

/-- The commit group that a request is in: that of its object, or the one it names (R407). -/
def reqGroup (s : State) (d : DieId) (r : List Byte) : Nat :=
  if dOp r = 3 ∨ dOp r = 4 then dGroup r
  else if dOp r = 1 ∨ dOp r = 2 ∨ dOp r = 5 then ((objAttr s.build.dies d.val (dIndex r) (dSub r)).map (·.group)).getD 0
  else 0

/-- A default that a table names in words: the image's version, the strap, the device time, the last record's SEQ (Tables 21-11,
22-6, 23-4). -/
def objDflt (s : State) (d : DieId) (index sub : Nat) (a : ObjAttr) : Nat :=
  if [0x100100, 0x100200, 0x2D0800, 0x2F0100].contains (objKey index sub) then s.objNow d index sub else a.dflt

/-- A request of a path in a session's group keeps the session, whatever its result (R407). -/
def touchSession (s : State) (d : DieId) (p : DPath) (g : Nat) : State :=
  let k := s.steward d
  match k.sessions.find? g with
  | some x => if x.path = p then s.setSteward d { k with sessions := k.sessions.put g { x with at' := (s.die d).ticks } } else s
  | none => s

/-- The effect and answer of a request that has passed its checks. -/
def dictDo (s : State) (d : DieId) (p : DPath) (r : List Byte) : State :=
  let index := dIndex r
  let sub := dSub r
  let k := s.steward d
  match dOp r, objAttr s.build.dies d.val index sub with
  | 1, some _ =>
    let v := s.objNow d index sub
    (s.objReadDone d index sub).answerPath d p { result := 0, value := v }
  | 2, some a => s.dictWriteObj d p r a
  | 5, some a =>
    let info := a.type + place (a.rd + place a.rp 2 + place a.rn 4 + place a.rs 6) 8 +
      place (bit a.persistent + place (bit (decide (a.group ≠ 0))) 1) 16 + place a.group 24
    s.answerPath d p { result := 0, info := info, value := s.objDflt d index sub a }
  | 3, _ => s.dictCommitGroup d p (dGroup r)
  | 4, _ => (s.setSteward d { k with sessions := k.sessions.erase (dGroup r) }).answerPath d p { result := 0 }
  | 0x10, _ =>
    s.setSteward d { k with serving := some p, journal := { k.journal with
      jobs := k.journal.jobs ++ [(.image p, List.range 512)] } }
  | 0x11, _ =>
    (s.setSteward d { k with journal := k.journal.program (dOffset r) ((r.drop 16).take 16) }).answerPath d p { result := 0 }
  | 0x12, _ =>
    let s := s.answerPath d p { result := 0 }
    (s.setSteward d { s.steward d with forceRom := false }).restartSteward d
  | _, _ => s

/-- The operation of a request is not offered by the firmware that runs (R398). On a flash that is not used (R416) no image is
erased or written. DESIGN CHOICE, log entry 86. -/
def notOffered (s : State) (d : DieId) (p : DPath) (r : List Byte) : Bool :=
  let op := dOp r
  let image := decide (op = 0x10) || decide (op = 0x11) || decide (op = 0x12)
  match (s.steward d).mode with
  | .rom =>
    !((decide (p = .driver) || decide (p = .safety)) &&
      ((decide (op = 0x12) || (image && !(s.steward d).journal.unusable)) || decide (op = 5) || (decide (op = 1) && decide (0x1000 ≤ dIndex r) && decide (dIndex r ≤ 0x10FF))))
  | _ => image

/-- A path's request is the next to be served: the safety manager first, the others in rotation (R412, R413).
DEDUCED, log entry 42. -/
def dictTurn (s : State) (d : DieId) (p : DPath) : Bool :=
  let waits := allPaths.filter fun q => (s.waitingReq d q).isSome
  if waits.any fun q => decide (q.role = .safety) then decide (p.role = .safety)
  else decide (nextAfter (s.steward d).lastPath (waits.map (·.turn)) = some p.turn)

/-- The supervision cycle of the present period is complete: 52,000 counts after one, another is overdue (R378, R413). The ROM
base firmware has none. -/
def supervised (s : State) (d : DieId) : Bool :=
  let k := s.steward d
  decide (k.mode = .rom) || (k.supDone && decide (s.since d k.supAt ≤ 52000))

/-- The steward runs and takes requests: one at a time, after its journal replay and the records that it journals again, and
after its supervision cycle (R399, R403, R413). DEDUCED, log entry 42; DEDUCED, log entry 45. -/
def stewardServes (s : State) (d : DieId) : Bool :=
  let k := s.steward d
  k.serving.isNone && decide (k.mode ≠ .checking) && k.journal.replayed &&
    !(k.journal.queue.any fun r => decide (r.after = .again)) && s.supervised d

/-- The steward takes the waiting request of a path and serves it: the checks of R405 in their order, then its effect. The
request must be of the kind that the command names. DEDUCED, log entry 41. -/
def serve (s : State) (d : DieId) (p : DPath) (kind : DKind) : State :=
  match s.waitingReq d p with
  | none => s
  | some r =>
    if !s.stewardServes d ∨ dKind r ≠ kind ∨ !s.dictTurn d p then s
    else
      let k := s.steward d
      let k := { k with lastPath := if p.role = DRole.safety then k.lastPath else p.turn }
      let s := match p.mailbox with
        | some i => s.setSteward d { k with mailboxes := k.mailboxes.put i { k.mailboxes.get {} i with taken := r } }
        | none => s.setSteward d k
      let have' := s.bucketNow d p
      let enough := decide (100000000 ≤ have')
      let t := if enough then s.takeToken d p else s
      if s.notOffered d p r then t.answerPath d p { result := 6 }
      else if !enough then
        let wait := ceilDiv (100000000 - have') p.bucket.2.1
        (s.touchSession d p (s.reqGroup d r)).answerPath d p { result := 4, retry := min (ceilDiv wait 100) 0xFFFF }
      else
        let t := t.touchSession d p (t.reqGroup d r)
        match t.dictCheck d p r with
        | 0 => t.dictDo d p r
        | n => t.answerPath d p { result := n }

/-- SESSION_TIMEOUT: a session with no request for 1 s ends (R407). DESIGN CHOICE, log entry 2. -/
def sessionEnd (s : State) (d : DieId) (g : Nat) : State :=
  let k := s.steward d
  match k.sessions.find? g with
  | some x => if 100000000 ≤ s.since d x.at' then s.setSteward d { k with sessions := k.sessions.erase g } else s
  | none => s

/-- A frame that the MAC does not accept is dropped and counted (R432); a MAC that is not used receives none. -/
def frameDropped (s : State) (d : DieId) : State :=
  let n := s.net d
  if (s.die d).macMode < 2 ∧ (s.die d).stage ≠ .held then s.setNet d { n with rxDrop := satInc n.rxDrop } else s

/-- DAP_FRAME: a frame of the DAP is checked, authenticated, and its request queued (R409 to R412).
DEDUCED, log entry 46. -/
def dapFrame (s : State) (d : DieId) (f : List Byte) : State :=
  let e := etherType f
  let k := s.steward d
  if (s.die d).stage = .held then s
  else if !s.macAccepts d f then s.frameDropped d
  else if e.1 ≠ 0x88B5 ∨ !s.caroriRuns d then s
  else
    let b := (f.drop e.2.2).take 64
    let key : Fin 2 := Fin.ofNat 2 (fieldAt b 2 1)
    let kv := s.objVal d (0x1E00 + key.val) 0
    let src := (f.drop 6).take 6
    let good := decide (f.length - 4 - e.2.2 ≥ 64) && decide (fieldAt b 0 1 = 1) && decide (fieldAt b 1 1 = 1) &&
      decide (fieldAt b 2 1 < 2) && decide (fieldAt b 3 1 = 0) && decide (fieldAt b 12 4 = 0) && decide (kv ≠ 0) &&
      decide (b.drop 0x30 = dapMac (BitVec.ofNat 128 kv) (f.take 6) src b)
    if !good then s.setSteward d { k with authFail := satInc k.authFail }
    else
      let x := k.dap.get {} key.val
      let seq : W64 := BitVec.ofNat 64 (fieldAt b 4 8)
      let block := (b.drop 0x10).take 32
      let waits := s.reserving d key
      if seq ≤ x.rxHigh then s.dapHandle d key seq block src
      else if 32 ≤ x.queue.length + x.held.length + bit waits then s.setSteward d { k with dapDrop := satInc k.dapDrop }
      else if waits then
        s.setSteward d { k with dap := k.dap.put key.val { x with held := x.held ++ [(seq, block, src)] } }
      else s.dapHandle d key seq block src

end State

/-- READ (R403). -/
def execDictRead (d : DieId) (path : DPath) (s : State) : Host.Outcome State Fault Refusal := onDie s d (s.serve d path .read)
/-- WRITE (R407). -/
def execDictWrite (d : DieId) (path : DPath) (s : State) : Host.Outcome State Fault Refusal := onDie s d (s.serve d path .write)
/-- COMMIT (R408). -/
def execDictCommit (d : DieId) (path : DPath) (s : State) : Host.Outcome State Fault Refusal := onDie s d (s.serve d path .commit)
/-- ABORT (R407). -/
def execDictAbort (d : DieId) (path : DPath) (s : State) : Host.Outcome State Fault Refusal := onDie s d (s.serve d path .abort)
/-- DESCRIBE (R404). -/
def execDictDescribe (d : DieId) (path : DPath) (s : State) : Host.Outcome State Fault Refusal :=
  onDie s d (s.serve d path .describe)
/-- IMG_ERASE (R404). -/
def execImgErase (d : DieId) (path : DPath) (s : State) : Host.Outcome State Fault Refusal := onDie s d (s.serve d path .imgErase)
/-- IMG_WRITE (R404). -/
def execImgWrite (d : DieId) (path : DPath) (s : State) : Host.Outcome State Fault Refusal := onDie s d (s.serve d path .imgWrite)
/-- BOOT (R404). -/
def execBoot (d : DieId) (path : DPath) (s : State) : Host.Outcome State Fault Refusal := onDie s d (s.serve d path .boot)
/-- TIME_SET (R438). -/
def execTimeSet (d : DieId) (path : DPath) (s : State) : Host.Outcome State Fault Refusal := onDie s d (s.serve d path .timeSet)
/-- TIME_ADJ (R434). -/
def execTimeAdj (d : DieId) (path : DPath) (s : State) : Host.Outcome State Fault Refusal := onDie s d (s.serve d path .timeAdj)
/-- RESTEP (R438). -/
def execRestep (d : DieId) (path : DPath) (s : State) : Host.Outcome State Fault Refusal := onDie s d (s.serve d path .restep)
/-- RECOVER (R398). -/
def execRecover (d : DieId) (path : DPath) (s : State) : Host.Outcome State Fault Refusal := onDie s d (s.serve d path .recover)
/-- JRN_CLEAR (R428). -/
def execJrnClear (d : DieId) (path : DPath) (s : State) : Host.Outcome State Fault Refusal := onDie s d (s.serve d path .jrnClear)
/-- SESSION_TIMEOUT (R407). -/
def execSessionTimeout (d : DieId) (group : Byte) (s : State) : Host.Outcome State Fault Refusal :=
  onDie s d (s.sessionEnd d group.toNat)
/-- DAP_FRAME (R411). -/
def execDapFrame (d : DieId) (frame : List Byte) (s : State) : Host.Outcome State Fault Refusal := onDie s d (s.dapFrame d frame)

end Sys2Proof.Machine
end

