-- ==== Sys2Proof/Machine/Die0.lean ====
section
/-!
DEFINITION. Die 0's synchronisation unit and its pool 1 allocator (R146, R186 to R190, R247, R250).
-/
namespace Sys2Proof.Machine

/-- The allocated bit and the start bit of a granule, in bits 0 and 1 of its pair, four granules in a byte (R190).
DESIGN CHOICE, log entry 30. -/
def granBits (st : List Byte) (g : Nat) : Nat := field (st.getD (g / 4) 0).toNat (2 * (g % 4) + 1) (2 * (g % 4))

/-- The allocation state with the bits of a run of granules given a value. DESIGN CHOICE, log entry 30. -/
def setGrans (st : List Byte) (lo n : Nat) (first rest : Nat) : List Byte :=
  (List.range n).foldl (fun st i =>
    let g := lo + i
    st.mapIdx fun j (b : Byte) =>
      if j = g / 4 then BitVec.ofNat 8 (setField b.toNat (2 * (g % 4) + 1) (2 * (g % 4)) (if i = 0 then first else rest)) else b) st

/-- The allocations that an allocation state of `n` granules holds: first granule and number, in rising order.
DESIGN CHOICE, log entry 30. -/
def granRuns (st : List Byte) (n : Nat) : List (Nat × Nat) :=
  ((List.range n).foldl (fun l g =>
    let b := granBits st g
    match l with
    | a :: as =>
      if b % 2 = 0 then l else if b = 1 ∧ a.1 + a.2 = g then (a.1, a.2 + 1) :: as else (g, 1) :: l
    | [] => if b % 2 = 0 then l else [(g, 1)]) []).reverse

namespace State

/-- The index of the semaphore that an identifier names, when it is in use, of the current generation and of its
partition (R250). -/
def semIndex (s : State) (x : W64) : Option Nat :=
  let n := x.toNat
  let i := field n 11 0
  let e := s.sema i
  if field n 63 32 = 0 ∧ e.used ∧ e.gen.toNat = field n 31 16 ∧ e.partition = field n 15 12 then some i else none

/-- The answer to a semaphore request goes to the core that asked. DESIGN CHOICE, log entry 28. -/
def semAnswer (s : State) (c : CoreId) (granted : Bool) : State :=
  if c.die = die0 then (s.semResult c granted).settle c else s.sendMsg die0 c.die (.semAns c.key granted)

/-- A core waits for the answer of die 0. -/
def asks (s : State) (c : CoreId) : Bool :=
  let k := s.core c
  k.remoteWait && k.part.isSome && decide (k.run = .running)

/-- SEMAPHORE_REQUEST: an acquire (0), a try (1) or a release (2) reaches the synchronisation unit, which serves none while it is
in reset (R146, R353). A semaphore that has been destroyed since the dispatch raises F-0607 here. DESIGN CHOICE, log entry 81. -/
def semRequest (s : State) (m : Nat) : State :=
  match s.msgAt m with
  | some (_, _, .semReq core kind x) =>
    if (s.die die0).computeReset then s
    else
    let s := s.takeMsg m
    let c := coreOf core
    match s.semIndex x with
    | none =>
      match (s.core c).syncQ with
      | i :: _ => if kind ≠ 2 && s.asks c then s.engFault c 5 0x0607 0 x.toNat i else s
      | [] => s
    | some n =>
      let e := s.sema n
      if kind = 2 then s.setSema n { e with holders := e.holders.erase core }
      else if !s.asks c then s
      else if e.holders.length + e.waiters.length < e.units ∧ (kind = 1 ∨ e.waiters.isEmpty) then
        (s.setSema n { e with holders := e.holders ++ [core] }).semAnswer c true
      else if kind = 1 then s.semAnswer c false
      else s.setSema n { e with waiters := e.waiters ++ [core] }
  | _ => s

/-- SEMAPHORE_GRANT: the first request in line takes a free unit (R146). -/
def semGrant (s : State) (n : Nat) : State :=
  let e := s.sema n
  match e.waiters with
  | [] => s
  | core :: rest =>
    if e.units ≤ e.holders.length ∨ (s.die die0).computeReset then s
    else (s.setSema n { e with holders := e.holders ++ [core], waiters := rest }).semAnswer (coreOf core) true

/-- What the pool 1 allocator does with a call on an allocation state of `n` granules of a heap at an address: the value
returned, whether the call is good, and the state after it where it changes (R187, R188). -/
def poolCall (base n : Nat) (st : List Byte) (free : Bool) (x : Nat) : W64 × Bool × Option (List Byte) :=
  let runs := granRuns st n
  if free then
    if x = 0 then (0, true, none)
    else
      match runs.find? fun r => decide (1 ≤ r.1) && decide (base + 65536 * r.1 = x) && decide (granBits st r.1 = 3) with
      | some r => (0, true, some (setGrans st r.1 r.2 0 0))
      | none => (0, false, none)
  else
    let g := ceilDiv x 65536
    if x = 0 then (0, true, none)
    else
      match firstFit g n 1 (runs.filter fun r => decide (1 ≤ r.1)) with
      | some a => (BitVec.ofNat 64 (base + 65536 * a), true, some (setGrans st a g 3 1))
      | none => (0, true, none)

/-- The result of a pool 1 call goes back to the core's die. DESIGN CHOICE, log entry 28. -/
def poolAnswer (s : State) (m : Nat) (c : CoreId) (free : Bool) (v : W64) (ok : Bool) : State :=
  (s.takeMsg m).sendMsg die0 c.die (.pool1Res c.key free v ok)

/-- The allocator of pool 1 is at work on the call of another core: it serves one after another (R186). -/
def poolBusy (s : State) (core : Nat) : Bool :=
  (s.die die0).bus.any fun b =>
    match b.owner with
    | .pool1 k => decide (k ≠ core)
    | _ => false

/-- POOL1_CALL: die 0's allocator serves a call on the heap of the core's context, unless the die unit is in reset
(R186 to R190, R362). Of a heap that R186 does not allow its whole granules from its base count, at most 262,144, and with none it
is no heap; an error response of the allocation state loses the context with F-1307. DESIGN CHOICE, log entry 82. -/
def pool1 (s : State) (m : Nat) : State :=
  match s.msgAt m with
  | some (_, _, .pool1 core free arg) =>
    let c := coreOf core
    let ctx := s.coreCtx c
    let p := s.corePartition c
    let o := s.mo (s.ctx ctx).heap
    let va := o.base.toNat
    let n := min (o.length.toNat / 65536) 262144
    let size := ceilDiv n 4
    let o : Owner := .pool1 core
    if !s.cpRuns die0 then s
    else if !s.asks c then (s.takeMsg m).busDone die0 o
    else if (s.ctx ctx).heap = 0xFFFFFFFF ∨ n = 0 then
      s.poolAnswer m c free 0 (!free || decide (arg = 0))
    else if s.transHeld die0 o || s.poolBusy core then s
    else
      let stall := fun (t : State) cause r a (acc : Access) => t.faultAccess die0 cause r o p ctx a acc
      match s.readVa die0 o p ctx va size .read false with
      | (t, .wait) => t
      | (t, .fault cause r a) => stall t cause r a .read
      | (t, .err a) => ((t.busDone die0 o).takeMsg m).lose die0 ctx 0x1307 1 (.outside 0x1307 a)
      | (t, .ok st) =>
        match poolCall va n st free arg.toNat with
        | (v, ok, none) => (t.busDone die0 o).poolAnswer m c free v ok
        | (v, ok, some st') =>
          match t.writeVa die0 o p ctx va st' false with
          | (u, .ok _) => (u.busDone die0 o).poolAnswer m c free v ok
          | (u, .wait) => u
          | (u, .fault cause r a) => stall u cause r a .write
          | (u, .err a) => ((u.busDone die0 o).takeMsg m).lose die0 ctx 0x1307 1 (.outside 0x1307 a)
  | _ => s

/-- POOL1_RESULT: the result reaches the calling core (R186). -/
def pool1Result (s : State) (m : Nat) : State :=
  match s.msgAt m with
  | some (_, _, .pool1Res core _ v ok) =>
    let s := s.takeMsg m
    let c := coreOf core
    if s.asks c then (s.poolResult c v ok).settle c else s
  | _ => s

end State

/-- SEMAPHORE_REQUEST (R250). -/
def execSemaphoreRequest (m : Nat) (s : State) : Host.Outcome State Fault Refusal := .next (s.semRequest m)
/-- SEMAPHORE_GRANT (R146). -/
def execSemaphoreGrant (sem : BitVec 12) (s : State) : Host.Outcome State Fault Refusal := .next (s.semGrant sem.toNat)
/-- POOL1_CALL (R186). -/
def execPool1Call (m : Nat) (s : State) : Host.Outcome State Fault Refusal := .next (s.pool1 m)
/-- POOL1_RESULT (R186). -/
def execPool1Result (m : Nat) (s : State) : Host.Outcome State Fault Refusal := .next (s.pool1Result m)

end Sys2Proof.Machine
end

