-- ==== Sys2Proof/Machine/Engine.lean ====
section
/-!
DEFINITION. Dispatch of the engine instructions, one definition for each (R115 to R148, Tables 06-5 to 06-10).
-/
namespace Sys2Proof.Machine

/-- ARR.MM (R125). -/
def execArrMm (c : CoreId) (w : W32) (s : State) : Host.Outcome State Fault Refusal :=
  onCore s c (s.engine c w {
      unit := 2
      op := 0x00
      enc := encAT
      writes := fun w => [fTC w]
      phase := some .compute })

/-- ARR.MMG (R78, R125). -/
def execArrMmg (c : CoreId) (w : W32) (s : State) : Host.Outcome State Fault Refusal :=
  onCore s c (s.engine c w {
      unit := 2
      op := 0x01
      enc := encAT
      writes := fun w => [fTC w]
      phase := some .compute })

/-- ARR.WFMT (R125, R128). -/
def execArrWfmt (c : CoreId) (w : W32) (s : State) : Host.Outcome State Fault Refusal :=
  onCore s c (s.engine c w {
      unit := 2
      op := 0x02
      enc := encArW
      rs1 := fArRs1 })

/-- ARR.WCFG (R125, R128). -/
def execArrWcfg (c : CoreId) (w : W32) (s : State) : Host.Outcome State Fault Refusal :=
  onCore s c (s.engine c w {
      unit := 2
      op := 0x03
      enc := encArW
      rs1 := fArRs1 })

/-- ARR.RFMT (R125, R128). -/
def execArrRfmt (c : CoreId) (w : W32) (s : State) : Host.Outcome State Fault Refusal :=
  onCore s c (s.engine c w {
      unit := 2
      op := 0x04
      enc := encArR
      blocking := true })

/-- ARR.RCFG (R125, R128). -/
def execArrRcfg (c : CoreId) (w : W32) (s : State) : Host.Outcome State Fault Refusal :=
  onCore s c (s.engine c w {
      unit := 2
      op := 0x05
      enc := encArR
      blocking := true })

/-- STR.LD (R129). -/
def execStrLd (c : CoreId) (w : W32) (s : State) : Host.Outcome State Fault Refusal :=
  onCore s c (s.engine c w {
      unit := 3
      op := 0x00
      enc := encSD
      rs1 := fSdRs1
      writes := fun w => [fSdT w]
      phase := some .load })

/-- STR.ST (R129). -/
def execStrSt (c : CoreId) (w : W32) (s : State) : Host.Outcome State Fault Refusal :=
  onCore s c (s.engine c w {
      unit := 3
      op := 0x01
      enc := encSD
      rs1 := fSdRs1
      reads := fun w => [fSdT w]
      phase := some .store })

/-- STR.LDM (R129). -/
def execStrLdm (c : CoreId) (w : W32) (s : State) : Host.Outcome State Fault Refusal :=
  onCore s c (s.engine c w {
      unit := 3
      op := 0x02
      enc := encSD
      rs1 := fSdRs1
      writes := fun w => [fSdT w]
      phase := some .load })

/-- STR.STM (R129). -/
def execStrStm (c : CoreId) (w : W32) (s : State) : Host.Outcome State Fault Refusal :=
  onCore s c (s.engine c w {
      unit := 3
      op := 0x03
      enc := encSD
      rs1 := fSdRs1
      reads := fun w => [fSdT w]
      phase := some .store })

/-- STR.XP (R129, R212). -/
def execStrXp (c : CoreId) (w : W32) (s : State) : Host.Outcome State Fault Refusal :=
  onCore s c (s.engine c w {
      unit := 3
      op := 0x04
      enc := encSD
      rs1 := fSdRs1
      writes := fun w => [fSdT w]
      phase := some .load })

/-- STR.MLD (R129, R156). -/
def execStrMld (c : CoreId) (w : W32) (s : State) : Host.Outcome State Fault Refusal :=
  onCore s c (s.engine c w {
      unit := 3
      op := 0x05
      enc := encSDpair
      rs1 := fSdRs1
      phase := some .load })

/-- STR.MST (R129, R156). -/
def execStrMst (c : CoreId) (w : W32) (s : State) : Host.Outcome State Fault Refusal :=
  onCore s c (s.engine c w {
      unit := 3
      op := 0x06
      enc := encSDpair
      rs1 := fSdRs1
      phase := some .store })

/-- STR.CVRD (R132). -/
def execStrCvrd (c : CoreId) (w : W32) (s : State) : Host.Outcome State Fault Refusal :=
  onCore s c (s.engine c w {
      unit := 3
      op := 0x08
      enc := encCvrd
      blocking := true })

/-- STR.CVWR (R132). -/
def execStrCvwr (c : CoreId) (w : W32) (s : State) : Host.Outcome State Fault Refusal :=
  onCore s c (s.engine c w {
      unit := 3
      op := 0x09
      enc := encCvwr
      rs1 := fScRs1 })

/-- VEC.VLD (R135). -/
def execVecVld (c : CoreId) (w : W32) (s : State) : Host.Outcome State Fault Refusal :=
  onCore s c (s.engine c w {
      unit := 4
      op := 0x00
      enc := encVld
      rs1 := fVtRs1
      reads := fun w => [fVtT w]
      phase := some .compute })

/-- VEC.VST (R135). -/
def execVecVst (c : CoreId) (w : W32) (s : State) : Host.Outcome State Fault Refusal :=
  onCore s c (s.engine c w {
      unit := 4
      op := 0x01
      enc := encVst
      rs1 := fVtRs1
      writes := fun w => [fVtT w]
      phase := some .compute })

/-- VEC.VOPF (R134, R194). -/
def execVecVopf (c : CoreId) (w : W32) (s : State) : Host.Outcome State Fault Refusal :=
  onCore s c (s.engine c w {
      unit := 4
      op := 0x02
      enc := encVopf
      phase := some .compute })

/-- VEC.VOPB (R134, R195). -/
def execVecVopb (c : CoreId) (w : W32) (s : State) : Host.Outcome State Fault Refusal :=
  onCore s c (s.engine c w {
      unit := 4
      op := 0x03
      enc := encVopf
      phase := some .compute })

/-- VEC.VOPI (R134, R196). -/
def execVecVopi (c : CoreId) (w : W32) (s : State) : Host.Outcome State Fault Refusal :=
  onCore s c (s.engine c w {
      unit := 4
      op := 0x04
      enc := encVopi
      phase := some .compute })

/-- VEC.VSFU (R134, R198). -/
def execVecVsfu (c : CoreId) (w : W32) (s : State) : Host.Outcome State Fault Refusal :=
  onCore s c (s.engine c w {
      unit := 4
      op := 0x05
      enc := encVsfu
      phase := some .compute })

/-- VEC.VRED (R134, R199). -/
def execVecVred (c : CoreId) (w : W32) (s : State) : Host.Outcome State Fault Refusal :=
  onCore s c (s.engine c w {
      unit := 4
      op := 0x06
      enc := encVred
      phase := some .compute })

/-- VEC.VCVT (R134, R200). -/
def execVecVcvt (c : CoreId) (w : W32) (s : State) : Host.Outcome State Fault Refusal :=
  onCore s c (s.engine c w {
      unit := 4
      op := 0x07
      enc := encVcvt
      phase := some .compute })

/-- VEC.VBCST (R139). -/
def execVecVbcst (c : CoreId) (w : W32) (s : State) : Host.Outcome State Fault Refusal :=
  onCore s c (s.engine c w {
      unit := 4
      op := 0x08
      enc := encVbcst
      rs1 := fScRs1
      phase := some .compute })

/-- VEC.VMOVS (R139). -/
def execVecVmovs (c : CoreId) (w : W32) (s : State) : Host.Outcome State Fault Refusal :=
  onCore s c (s.engine c w {
      unit := 4
      op := 0x09
      enc := encVmovs
      blocking := true
      phase := some .compute })

/-- VEC.VSORT (R137). -/
def execVecVsort (c : CoreId) (w : W32) (s : State) : Host.Outcome State Fault Refusal :=
  onCore s c (s.engine c w {
      unit := 4
      op := 0x0A
      enc := encVsort
      rs1 := fVxRs1
      reads := fun w => [fTs w]
      writes := fun w => [fTd w]
      phase := some .compute })

/-- VEC.VBOX (R138, R225). -/
def execVecVbox (c : CoreId) (w : W32) (s : State) : Host.Outcome State Fault Refusal :=
  onCore s c (s.engine c w {
      unit := 4
      op := 0x0B
      enc := encAT
      rs1 := fVxRs1
      reads := fun w => [fTs w]
      writes := fun w => [fTd w]
      phase := some .compute })

/-- VEC.VNMS (R138, R227). -/
def execVecVnms (c : CoreId) (w : W32) (s : State) : Host.Outcome State Fault Refusal :=
  onCore s c (s.engine c w {
      unit := 4
      op := 0x0C
      enc := encVnms
      rs1 := fVxRs1
      reads := fun w => [fTs w]
      writes := fun w => [fTd w]
      phase := some .compute })

/-- SYNC.TDEF (R119). DEDUCED, log entry 69. -/
def execSyncTdef (c : CoreId) (w : W32) (s : State) : Host.Outcome State Fault Refusal :=
  onCore s c (s.engine c w {
      unit := 5
      op := 0x00
      enc := encYT
      rs1 := fYtRs1
      rs2 := fYtRs2
      writes := fun w => [fYT w] })

/-- SYNC.TREL (R122). -/
def execSyncTrel (c : CoreId) (w : W32) (s : State) : Host.Outcome State Fault Refusal :=
  onCore s c (s.engine c w {
      unit := 5
      op := 0x01
      enc := encYR false false false 6
      writes := fun w => [fIdx w] })

/-- SYNC.TSTAT (R140). -/
def execSyncTstat (c : CoreId) (w : W32) (s : State) : Host.Outcome State Fault Refusal :=
  onCore s c (s.engine c w {
      unit := 5
      op := 0x02
      enc := encYR true false false 6
      blocking := true })

/-- SYNC.PHASE (R141). -/
def execSyncPhase (c : CoreId) (w : W32) (s : State) : Host.Outcome State Fault Refusal :=
  onCore s c (s.engine c w {
      unit := 5
      op := 0x03
      enc := fun w => encYR false false false 2 w && decide (fIdx w ≠ 3)
      blocking := true })

/-- SYNC.WAIT (R142). -/
def execSyncWait (c : CoreId) (w : W32) (s : State) : Host.Outcome State Fault Refusal :=
  onCore s c (s.engine c w {
      unit := 5
      op := 0x04
      enc := encYR false false false 4
      blocking := true })

/-- SYNC.BAR (R144). -/
def execSyncBar (c : CoreId) (w : W32) (s : State) : Host.Outcome State Fault Refusal :=
  onCore s c (s.engine c w {
      unit := 5
      op := 0x05
      enc := encYR false false false 3
      blocking := true })

/-- SYNC.HPOST (R145). -/
def execSyncHpost (c : CoreId) (w : W32) (s : State) : Host.Outcome State Fault Refusal :=
  onCore s c (s.engine c w {
      unit := 5
      op := 0x06
      enc := encYR false true false 6
      rs1 := fYrRs1 })

/-- SYNC.HWAIT (R145). -/
def execSyncHwait (c : CoreId) (w : W32) (s : State) : Host.Outcome State Fault Refusal :=
  onCore s c (s.engine c w {
      unit := 5
      op := 0x07
      enc := encYR false true false 6
      rs1 := fYrRs1
      blocking := true })

/-- SYNC.SACQ (R146). -/
def execSyncSacq (c : CoreId) (w : W32) (s : State) : Host.Outcome State Fault Refusal :=
  onCore s c (s.engine c w {
      unit := 5
      op := 0x08
      enc := encYR false true false 0
      rs1 := fYrRs1
      blocking := true })

/-- SYNC.STRY (R146). -/
def execSyncStry (c : CoreId) (w : W32) (s : State) : Host.Outcome State Fault Refusal :=
  onCore s c (s.engine c w {
      unit := 5
      op := 0x09
      enc := encYR false true true 0
      rs1 := fYrRs1
      blocking := true })

/-- SYNC.SREL (R146). -/
def execSyncSrel (c : CoreId) (w : W32) (s : State) : Host.Outcome State Fault Refusal :=
  onCore s c (s.engine c w {
      unit := 5
      op := 0x0A
      enc := encYR false true false 0
      rs1 := fYrRs1 })

/-- SYNC.ALLOC (R147, R187). -/
def execSyncAlloc (c : CoreId) (w : W32) (s : State) : Host.Outcome State Fault Refusal :=
  onCore s c (s.engine c w {
      unit := 5
      op := 0x0B
      enc := encYR true true false 1
      rs1 := fYrRs1
      blocking := true })

/-- SYNC.FREE (R147, R188). -/
def execSyncFree (c : CoreId) (w : W32) (s : State) : Host.Outcome State Fault Refusal :=
  onCore s c (s.engine c w {
      unit := 5
      op := 0x0C
      enc := encYR false true false 1
      rs1 := fYrRs1 })

/-- SYNC.WGCLM (R148). -/
def execSyncWgclm (c : CoreId) (w : W32) (s : State) : Host.Outcome State Fault Refusal :=
  onCore s c (s.engine c w {
      unit := 5
      op := 0x0D
      enc := encYR true false false 0
      blocking := true })

/-- SYNC.WGBIND (R148, R214). -/
def execSyncWgbind (c : CoreId) (w : W32) (s : State) : Host.Outcome State Fault Refusal :=
  onCore s c (s.engine c w {
      unit := 5
      op := 0x0E
      enc := encYT
      rs1 := fYtRs1
      rs2 := fYtRs2
      writes := fun w => [fYT w] })

/-- SYNC.WGREL (R148). -/
def execSyncWgrel (c : CoreId) (w : W32) (s : State) : Host.Outcome State Fault Refusal :=
  onCore s c (s.engine c w {
      unit := 5
      op := 0x0F
      enc := encYR false true false 0
      rs1 := fYrRs1 })

end Sys2Proof.Machine
end

