-- ==== Sys2Proof/Machine/Monitors.lean ====
section
/-!
DEFINITION. Histogram monitors: the samples of sources outside the model, and the Crown write of HM_GCTL (R447, R451).
-/
namespace Sys2Proof.Machine

namespace State

/-- MONITOR_SAMPLE: an event of a source that lies outside the model gives a monitor its value: a Peat read latency, or, every
1,000 counts, a reading of the supply or of a temperature sensor. For the replays of a link the row ends the link's window, and
the value is what the link has counted (R447, Table 24-1). The other sources give their samples with the events themselves.
DEDUCED, log entry 56. -/
def sample (s : State) (d : DieId) (i : Nat) (v : W32) : State :=
  let m := s.monitor d i
  let due : Bool := match m.lastAt with
    | some t => decide (1000 ≤ s.since d t)
    | none => true
  if (s.die d).stage = .held then s
  else match m.src with
  | 3 => s.hmTake d i v
  | 4 =>
    let l : LinkId := ⟨d, Fin.ofNat 4 m.sel⟩
    let k := s.link l
    if k.st = .unused ∨ s.since d k.hmAt < 1000 then s
    else (s.setLink l { k with hmReplays := 0, hmAt := (s.die d).ticks }).hmEvent d 4 (fun n => decide (n = m.sel))
      (sampleOf k.hmReplays)
  | 6 => if due then s.hmTake d i v else s
  | 7 => if due ∧ (m.sel = 16 ∨ m.sel < s.build.clusters) then s.hmTake d i v else s
  | _ => s

/-- A Crown write of HM_GCTL of a die: its covered mask bits act at the next count (R451, R489). -/
def hmCrown (s : State) (role strb : Byte) (d : DieId) (v : W64) : State :=
  if !s.hasDie d then s.crownErr else s.driverWrite role strb fun m => s.hmWrite d (v &&& m)

end State

/-- MONITOR_SAMPLE (R449). -/
def execMonitorSample (d : DieId) (m : Fin 32) (v : W32) (s : State) : Host.Outcome State Fault Refusal :=
  onDie s d (s.sample d m.val v)
/-- SNAP_MASK (R451). -/
def execSnapMask (role strb : Byte) (d : DieId) (v : W64) (s : State) : Host.Outcome State Fault Refusal :=
  .next (s.hmCrown role strb d v)
/-- CLEAR_MASK (R451). -/
def execClearMask (role strb : Byte) (d : DieId) (v : W64) (s : State) : Host.Outcome State Fault Refusal :=
  .next (s.hmCrown role strb d v)

end Sys2Proof.Machine
end

