-- ==== Sys2Proof/Machine/Net.lean ====
section
/-!
DEFINITION. gPTP on the management MAC: frames received and sent, the step and the servo, peer delay, lock and loss
(R431 to R439, R445). The layout of the frames is that of IEEE 802.1AS-2020 (log entry 21).
-/
namespace Sys2Proof.Machine

/-- One second in units of 2^-16 ns. -/
def second16 : Int := 1000000000 * 65536

/-- Device time in units of 2^-16 ns. -/
def NetTime.stamp (n : NetTime) : Int := (n.secs : Int) * second16 + ((n.nsFrac / 65536 : Nat) : Int)

/-- NT_CFG and what follows from it (Table 23-5): the role, whether LINK_DELAY is used, and the intervals in counts. -/
def ntRole (cfg : Nat) : Nat := field cfg 1 0
def ntStatic (cfg : Nat) : Bool := bitAt cfg 2
def ntSyncLog (cfg : Nat) : Nat := (-(signed 8 (field cfg 23 16))).toNat
def ntSyncCounts (cfg : Nat) : Nat := 100000000 / 2 ^ ntSyncLog cfg
def ntPdelayCounts (cfg : Nat) : Nat := 100000000 * 2 ^ (signed 8 (field cfg 15 8) + 3).toNat / 8

/-- A gPTP message after its Ethernet header. -/
structure PtpMsg where
  type : Nat
  twoStep : Bool
  corr : Int
  seqId : Nat
  /-- The timestamp of its body, in units of 2^-16 ns. -/
  time : Int
  /-- The source port identity, and the identity that a response names. -/
  source : List Byte
  asked : List Byte
  deriving DecidableEq, Repr

/-- The gPTP message in an accepted frame of EtherType 0x88F7, in domain 0. PRESUMED, log entry 21. -/
def ptpOf (f : List Byte) : Option PtpMsg :=
  let b := f.drop 14
  let at' := fun o n => ofBytesBE ((b.drop o).take n)
  if b.length < 48 ∨ at' 0 1 / 16 ≠ 1 ∨ at' 4 1 ≠ 0 then none
  else some {
    type := at' 0 1 % 16
    twoStep := bitAt (at' 6 1) 1
    corr := signed 64 (at' 8 8)
    seqId := at' 30 2
    time := (at' 34 6 : Int) * second16 + (at' 40 4 : Int) * 65536
    source := (b.drop 20).take 10
    asked := (b.drop 44).take 10 }

/-- A timestamp of a message body: 48 bits of seconds, 32 bits of nanoseconds. -/
def stampBytes (t : Int) : List Byte := bytesBE 6 (t / second16).toNat ++ bytesBE 4 (t % second16 / 65536).toNat

/-- The fraction of a timestamp below its nanoseconds, as a correctionField (R437). -/
def stampFrac (t : Int) : Int := t % 65536

/-- The port identity of a MAC address: its EUI-64 and port 1. -/
def portIdentity (mac : List Byte) : List Byte := mac.take 3 ++ [0xFF, 0xFE] ++ mac.drop 3 ++ [0, 1]

/-- A gPTP frame: Ethernet header, message header, body, padding and FCS. PRESUMED, log entry 21. -/
def ptpFrame (mac : List Byte) (type : Nat) (corr : Int) (seqId control : Nat) (interval : Byte) (body : List Byte) : List Byte :=
  let hdr := [BitVec.ofNat 8 (0x10 + type), 0x12] ++ bytesBE 2 (34 + body.length) ++ [0, 0, 0, 8] ++
    bytesBE 8 (wrap 64 corr) ++ [0, 0, 0, 0] ++ portIdentity mac ++ bytesBE 2 seqId ++ [BitVec.ofNat 8 control, interval]
  etherFrame ([0x01, 0x80, 0xC2, 0x00, 0x00, 0x0E] ++ mac ++ [0x88, 0xF7] ++ hdr ++ body)

/-- The Follow_Up information TLV of a Sync that the die sends as grandmaster. PRESUMED, log entry 21. -/
def followUpTlv : List Byte := [0, 3, 0, 28, 0x00, 0x80, 0xC2, 0, 0, 1] ++ List.replicate 22 0

/-- A rate clamped to ±1,000,000 ppb, in units of 2^-24 ppb (R438). -/
def clampPpb (x : Int) : Int := max (-(1000000 * 16777216)) (min (1000000 * 16777216) x)

/-- The nearest integer to a / b for b > 0, ties away from 0. -/
def roundDiv (a b : Int) : Int := if 0 ≤ a then (2 * a + b) / (2 * b) else -((2 * -a + b) / (2 * b))

/-- The servo on an offset in units of 2^-17 ns, with T = 2^-n s: the new integral term and ADJ (R438). -/
def servo (f off : Int) (n : Nat) : Int × W32 :=
  let f := clampPpb (f - off * 2 ^ n * 16)
  let p := clampPpb (f - off * 2 ^ n * 64)
  (f, BitVec.ofInt 32 (roundDiv (p * 256) 100000000))

namespace State

/-- A received frame with a gPTP message of a type: one that the MAC does not accept is dropped; otherwise the message is
handled (R432, R435). -/
def onPtp (s : State) (d : DieId) (f : List Byte) (type : Nat) (act : PtpMsg → State) : State :=
  if (s.die d).stage = .held then s
  else if !s.macAccepts d f then s.frameDropped d
  else
    match ptpOf f with
    | some m => if (etherType f).1 = 0x88F7 ∧ m.type = type ∧ ntRole (s.objVal d 0x2D01 0) ≠ 0 then act m else s
    | none => s

/-- The egress timestamp of a frame that departs now (R436). -/
def egress (s : State) (d : DieId) : Int := (s.net d).stamp + (field (s.objVal d 0x2D04 0) 31 16 : Int) * 65536

/-- Lock and its loss on the offset of an accepted Sync, in units of 2^-17 ns (R439). The INFO of F-2301 is the offset in ns,
whose rounding no rule gives. DESIGN CHOICE, log entry 13; DESIGN CHOICE, log entry 55. -/
def lockRule (s : State) (d : DieId) (off : Int) : State :=
  let n := s.net d
  let near := decide (off.natAbs ≤ s.objVal d 0x2D0B 0 * 131072)
  let inl := if near then min (n.inLimit + 1) 8 else 0
  let outl := if near then 0 else min (n.outLimit + 1) 4
  let lost := n.locked && decide (outl = 4)
  let s := s.setNet d { n with
    inLimit := inl
    outLimit := outl
    locked := (n.locked && !lost) || decide (inl = 8)
    unlock := n.unlock || lost }
  if !lost then s
  else
    let f := s.draw
    let ns := off / 131072 + (if off % 131072 ≠ 0 ∧ Config.freeNew f.1 0 then 1 else 0)
    f.2.report d 0x2301 (wrap 64 ns)

/-- The link delay in force, in units of 2^-17 ns; a delay that has not been measured yet is a free value (R438).
DESIGN CHOICE, log entry 55. -/
def linkDelay (s : State) (d : DieId) (cfg : Nat) : State × Int :=
  let n := s.net d
  if ntStatic cfg then (s, (s.objVal d 0x2D03 0 : Int) * 131072)
  else if n.delayKnown then (s, n.delay)
  else
    let f := s.draw
    (f.2, (Config.freeNat f.1 : Int))

/-- A Sync with its ingress timestamp, origin and correction is accepted: the step, or the servo (R438, R439).
DESIGN CHOICE, log entry 55. -/
def syncAccepted (s : State) (d : DieId) (tr time : Int) : State :=
  let cfg := s.objVal d 0x2D01 0
  let w := s.linkDelay d cfg
  let s := w.1
  let off := 2 * (tr - time) - w.2
  let n := s.net d
  let n : NetTime := { n with syncRx := satInc n.syncRx, syncAt := (s.die d).ticks, syncDown := false, waiting := none }
  if !n.stepped then
    (s.setNet d { n with
      stepBy := some (-off * 32768), stepTo := none, stepped := true, f := 0, stepEdge := n.edges + 1 }).lockRule d off
  else
    let x := servo n.f off (ntSyncLog cfg)
    (s.setNet d { n with f := x.1, adjNext := some x.2 }).lockRule d off

/-- A Sync as SLAVE, one-step, or two-step with a Follow_Up to come; one whose timestamp precedes a step's count is discarded
(R435, R438). -/
def syncTake (s : State) (d : DieId) (m : PtpMsg) (at' : Nat) (tr : Int) : State :=
  let n := s.net d
  if ntRole (s.objVal d 0x2D01 0) ≠ 1 ∨ at' < n.stepEdge then s
  else if m.twoStep then s.setNet d { n with waiting := some { seqId := m.seqId, tr := tr, corr := m.corr, at' := at' } }
  else s.syncAccepted d tr (m.time + m.corr)

/-- A Pdelay_Req is answered with Pdelay_Resp and Pdelay_Resp_Follow_Up in either role (R435). -/
def pdelayAnswer (s : State) (d : DieId) (m : PtpMsg) (tr : Int) : State :=
  let mac := s.macBytes d
  let out := s.egress d
  let resp := ptpFrame mac 3 (stampFrac tr) m.seqId 5 0x7F (stampBytes tr ++ m.source)
  let fup := ptpFrame mac 10 (stampFrac out) m.seqId 5 0x7F (stampBytes out ++ m.source)
  let n := s.net d
  s.setNet d { n with tx := n.tx ++ [{ kind := 0x88F7, bytes := resp }, { kind := 0x88F7, bytes := fup }] }

/-- A response to the die's own outstanding Pdelay_Req. -/
def pdelayMine (s : State) (d : DieId) (m : PtpMsg) : Bool :=
  decide (m.seqId = (s.net d).pdelaySeq % 65536) && decide (m.asked = portIdentity (s.macBytes d)) && (s.net d).pdelayT1.isSome

/-- A timestamp with its frame, as the steward takes it: a Sync, a Pdelay_Req, or a Pdelay_Resp, which gives the receipt time of
the die's own request and the ingress time of the response (R435, R436). -/
def stampTaken (s : State) (d : DieId) (x : Nat × Int × List Byte) : State :=
  match ptpOf x.2.2 with
  | none => s
  | some m =>
    if m.type = 0 then s.syncTake d m x.1 x.2.1
    else if m.type = 2 then s.pdelayAnswer d m x.2.1
    else if m.type = 3 ∧ s.pdelayMine d m then
      s.setNet d { s.net d with pdelayT2 := some (m.time + m.corr), pdelayT4 := some x.2.1 }
    else s

/-- The steward takes the timestamps of its queue, the oldest first, where it runs Carori (R436). -/
def stampsTaken (s : State) (d : DieId) : State :=
  let n := s.net d
  if !s.caroriRuns d ∨ n.tsQueue.isEmpty then s
  else n.tsQueue.foldl (fun s x => s.stampTaken d x) (s.setNet d { n with tsQueue := [], tx := [] })

/-- An ingress timestamp is queued for the steward with its frame; on a full queue both are dropped (R436). -/
def onStamp (s : State) (d : DieId) (f : List Byte) (type : Nat) : State :=
  s.onPtp d f type fun _ =>
    let n := s.net d
    let t := n.stamp - (field (s.objVal d 0x2D04 0) 15 0 : Int) * 65536
    if 8 ≤ n.tsQueue.length then s.setNet d { n with tsLost := satInc n.tsLost }
    else (s.setNet d { n with tsQueue := n.tsQueue ++ [(n.edges, t, f)] }).stampsTaken d

/-- SYNC_MESSAGE, PDELAY_REQ and PDELAY_RESP: the messages that have an ingress timestamp (R435, R436). -/
def sync (s : State) (d : DieId) (f : List Byte) : State := s.onStamp d f 0
def pdelayReq (s : State) (d : DieId) (f : List Byte) : State := s.onStamp d f 2
def pdelayResp (s : State) (d : DieId) (f : List Byte) : State := s.onStamp d f 3

/-- FOLLOW_UP: as SLAVE, it completes the two-step Sync of its sequence number, which a step since then discards (R435,
R438). -/
def followUp (s : State) (d : DieId) (f : List Byte) : State :=
  s.onPtp d f 8 fun m =>
    let n := s.net d
    match n.waiting with
    | some w =>
      if ntRole (s.objVal d 0x2D01 0) ≠ 1 ∨ !s.caroriRuns d ∨ w.seqId ≠ m.seqId then s
      else if w.at' < n.stepEdge then s.setNet d { n with waiting := none }
      else s.syncAccepted d w.tr (m.time + m.corr + w.corr)
    | none => s

/-- PDELAY_RESP_FOLLOW_UP: the mean link delay is half of the round trip less the time of the response, with the
neighbour's rate ratio taken as 1 (R435). -/
def pdelayFup (s : State) (d : DieId) (f : List Byte) : State :=
  s.onPtp d f 10 fun m =>
    let n := s.net d
    if !s.caroriRuns d ∨ !s.pdelayMine d m then s
    else
      match n.pdelayT1, n.pdelayT2, n.pdelayT4 with
      | some t1, some t2, some t4 =>
        let t3 := m.time + m.corr
        s.setNet d { n with pdelayT1 := none, pdelayT2 := none, pdelayT3 := some t3, pdelayT4 := none,
                            delay := (t4 - t1) - (t3 - t2), delayKnown := true }
      | _, _, _ => s

/-- SYNC_INTERVAL: as MASTER, a one-step Sync with its egress timestamp in place (R437). -/
def syncSend (s : State) (d : DieId) : State :=
  let cfg := s.objVal d 0x2D01 0
  let n := s.net d
  if !s.caroriRuns d ∨ ntRole cfg ≠ 2 ∨ 2 ≤ (s.die d).macMode ∨ s.since d n.sentSyncAt < ntSyncCounts cfg then s
  else
    let t := s.egress d
    let seq := (n.syncSeq + 1) % 65536
    let fr := ptpFrame (s.macBytes d) 0 (stampFrac t) seq 0 (BitVec.ofNat 8 (field cfg 23 16)) (stampBytes t ++ followUpTlv)
    s.setNet d { n with syncSeq := seq, sentSyncAt := (s.die d).ticks, tx := [{ kind := 0x88F7, bytes := fr }] }

/-- PDELAY_INTERVAL: a Pdelay_Req goes out where the link delay is measured (R435). -/
def pdelaySend (s : State) (d : DieId) : State :=
  let cfg := s.objVal d 0x2D01 0
  let n := s.net d
  if !s.caroriRuns d ∨ ntRole cfg = 0 ∨ ntStatic cfg ∨ 2 ≤ (s.die d).macMode ∨
      s.since d n.sentPdelayAt < ntPdelayCounts cfg then s
  else
    let seq := (n.pdelaySeq + 1) % 65536
    let fr := ptpFrame (s.macBytes d) 2 0 seq 5 (BitVec.ofNat 8 (field cfg 15 8)) (List.replicate 20 0)
    s.setNet d { n with pdelaySeq := seq, sentPdelayAt := (s.die d).ticks, pdelayT1 := some (s.egress d), pdelayT2 := none,
                        pdelayT3 := none, pdelayT4 := none, tx := [{ kind := 0x88F7, bytes := fr }] }

/-- SYNC_LOST: as SLAVE, no Sync has been accepted for 3 intervals (R439). -/
def syncLost (s : State) (d : DieId) : State :=
  let cfg := s.objVal d 0x2D01 0
  let n := s.net d
  if !s.caroriRuns d ∨ ntRole cfg ≠ 1 ∨ n.syncDown ∨ s.since d n.syncAt < 3 * ntSyncCounts cfg then s
  else (s.setNet d { n with syncLost := true, syncDown := true }).report d 0x2302 (field cfg 23 16)

/-- LINK_UP: MAC_PHY_LINK has changed (R445). -/
def phyLink (s : State) (d : DieId) (up : Bool) : State :=
  if (s.die d).stage = .held then s else s.setNet d { s.net d with linkUp := up }

/-- RX_DROP: a received frame that the MAC does not accept (R432). -/
def rxDrop (s : State) (d : DieId) (f : List Byte) : State := if s.macAccepts d f then s else s.frameDropped d

end State

/-- SYNC_MESSAGE (R438). -/
def execSyncMessage (d : DieId) (frame : List Byte) (s : State) : Host.Outcome State Fault Refusal := onDie s d (s.sync d frame)
/-- FOLLOW_UP (R435). -/
def execFollowUp (d : DieId) (frame : List Byte) (s : State) : Host.Outcome State Fault Refusal := onDie s d (s.followUp d frame)
/-- PDELAY_REQ (R435). -/
def execPdelayReq (d : DieId) (frame : List Byte) (s : State) : Host.Outcome State Fault Refusal := onDie s d (s.pdelayReq d frame)
/-- PDELAY_RESP (R435). -/
def execPdelayResp (d : DieId) (frame : List Byte) (s : State) : Host.Outcome State Fault Refusal := onDie s d (s.pdelayResp d frame)
/-- PDELAY_RESP_FOLLOW_UP (R435). -/
def execPdelayRespFollowUp (d : DieId) (frame : List Byte) (s : State) : Host.Outcome State Fault Refusal :=
  onDie s d (s.pdelayFup d frame)
/-- SYNC_INTERVAL (R437). -/
def execSyncInterval (d : DieId) (s : State) : Host.Outcome State Fault Refusal := onDie s d (s.syncSend d)
/-- PDELAY_INTERVAL (R435). -/
def execPdelayInterval (d : DieId) (s : State) : Host.Outcome State Fault Refusal := onDie s d (s.pdelaySend d)
/-- SYNC_LOST (R439). -/
def execSyncLost (d : DieId) (s : State) : Host.Outcome State Fault Refusal := onDie s d (s.syncLost d)
/-- LINK_UP (R445). -/
def execLinkUp (d : DieId) (up : Bool) (s : State) : Host.Outcome State Fault Refusal := onDie s d (s.phyLink d up)
/-- RX_DROP (R432). -/
def execRxDrop (d : DieId) (frame : List Byte) (s : State) : Host.Outcome State Fault Refusal := onDie s d (s.rxDrop d frame)

end Sys2Proof.Machine
end

