-- ==== Sys2Proof/Machine/Pair.lean ====
section
/-!
DEFINITION. The comparison unit of paired runs (R374, R375).
-/
namespace Sys2Proof.Machine

namespace State

/-- The two runs of a logical core of a launch, with their cores: run A first. -/
def pairRuns (s : State) (q lcore : Nat) : Option ((LogCore × CoreId) × (LogCore × CoreId)) :=
  match s.launches.find? q with
  | none => none
  | some l =>
    let run := fun (b : Bool) => (l.cores.find? fun x => decide (x.lcore = lcore) && (x.runB == b)).bind fun x =>
      x.at?.map fun c => (x, c)
    match run false, run true with
    | some a, some b => some (a, b)
    | _, _ => none

/-- A run waits at a comparison point (R374). -/
def atPoint (s : State) (c : CoreId) : Bool := (s.core c).pairPoint.isSome && !(s.core c).pairPassed

/-- F-1901 or F-1902 fails the launch, with the logical core and the index of the comparison point (R375). -/
def pairFault (s : State) (q lcore : Nat) (c : CoreId) (code point : Nat) : State :=
  let info := place lcore 32 + point % 2 ^ 32
  ((s.report c.die code info).stopPart q c.die).partFault c.die q (s.core c).ldie (.outside code info)

/-- Both runs go on from their comparison point. -/
def pairPass (s : State) (a b : CoreId) : State :=
  let go := fun (s : State) c => s.updCore c fun k => { k with pairPoint := none, pairPassed := true }
  ((go (go s a) b).settle a).settle b

/-- PAIR_COMPARISON: both runs of a logical core are at their k-th point, and their signatures are compared (R374). -/
def pairCompare (s : State) (q lcore : Nat) : State :=
  match s.pairRuns q lcore with
  | none => s
  | some ((x, a), (y, b)) =>
    if !s.atPoint a ∨ !s.atPoint b ∨ x.points ≠ y.points then s
    else if (s.core a).psStr = (s.core b).psStr ∧ (s.core a).psSeq = (s.core b).psSeq then s.pairPass a b
    else s.pairFault q lcore a 0x1901 x.points

/-- PAIR_WAIT_EXPIRY: one run has waited PAIR_WAIT counts and the other has not reached the point (R374). -/
def pairLate (s : State) (q lcore : Nat) : State :=
  match s.pairRuns q lcore with
  | none => s
  | some ((x, a), (y, b)) =>
    let late := fun (c : CoreId) => match (s.core c).pairPoint with
      | some t => decide (s.objVal c.die 0x2A41 0 ≤ s.since c.die t)
      | none => false
    if s.atPoint a && decide (y.points < x.points) && late a then s.pairFault q lcore a 0x1902 x.points
    else if s.atPoint b && decide (x.points < y.points) && late b then s.pairFault q lcore b 0x1902 y.points
    else s

end State

/-- PAIR_COMPARISON (R374). -/
def execPairComparison (q : QueueId) (lcore : Nat) (s : State) : Host.Outcome State Fault Refusal := .next (s.pairCompare q.key lcore)
/-- PAIR_WAIT_EXPIRY (R374). -/
def execPairWaitExpiry (q : QueueId) (lcore : Nat) (s : State) : Host.Outcome State Fault Refusal := .next (s.pairLate q.key lcore)

end Sys2Proof.Machine
end

