-- ==== Sys2Proof/Machine/Stw.lean ====
section
/-!
DEFINITION. The steward itself: the check of its image, its watchdog, its supervision cycle, and the readback of the error
pair (R376 to R379, R397 to R399, R416).
-/
namespace Sys2Proof.Machine

/-- The error pair as driven: SAFE_ERR_P in bit 0, SAFE_ERR_N in bit 1 (Table 25-8). -/
def errPins (err : Bool) : BitVec 2 := if err then 0b10 else 0b01

/-- The checks of the Carori image in the order of R397: the code of VFAIL, 0 where every check passes. -/
def imageVfail (d : DieId) (j : Journal) : Nat :=
  let h := j.bytesAt 0 0x100
  let len := fieldAt h 0x0C 4
  let bad := decide (fieldAt h 0 4 ≠ 0x4F524143) || decide (len % 4096 ≠ 0) || decide (len < 4096) || decide (1048576 < len)
  if bad then 1
  else if sha256 (j.bytesAt 0x100 len) ≠ (h.drop 0x10).take 32 then 2
  else if !ecdsaOk (Config.romKey d.val) (sha256 (h.take 0x30)) ((h.drop 0x30).take 64) then 3
  else if fieldAt h 8 2 < (Config.minSvn d.val).toNat then 4
  else 0

namespace State

/-- Mailbox requests that a restart has cut off are answered RESTARTED (R399). -/
def answerRestarted (s : State) (d : DieId) : State :=
  allPaths.foldl (fun s p =>
    match p.mailbox with
    | some i => if ((s.steward d).mailboxes.get {} i).restarted then s.answerPath d p { result := 9 } else s
    | none => s) s

/-- The steward runs a firmware: its watchdog and heartbeat start, the servo resumes from ADJ, and BOOT ends (R399, R438,
R476). -/
def stewardRuns (s : State) (d : DieId) (mode : StwMode) (svn : W16) (version : W32) : State :=
  let k := s.steward d
  let now := (s.die d).ticks
  let s := s.setSteward d { k with mode := mode, svn := svn, fwVersion := version, supAt := now, supDone := false, forceRom := false,
                                   safety := { k.safety with hbAt := now } }
  let n := s.net d
  let s := s.setNet d { n with f := signed 32 n.adj.toNat * 390625 }
  let s := if (s.die d).stage = .boot then s.enterStage d .replay else s
  s.answerRestarted d

/-- The steward enters its ROM base firmware for a reason (R398, R479): at start-up the die will not report READY; at any
other time F-2102 sets CAUSE_OTHER and SSR_LATCH. DEDUCED, log entry 47. -/
def runRom (s : State) (d : DieId) (vfail code : Nat) : State :=
  let starting := decide ((s.die d).stage ≠ .ready)
  let s := s.setSteward d { s.steward d with vfail := BitVec.ofNat 8 vfail }
  let s := if code = 0x2201 then s.report d 0x2201 0 else s
  let s := if starting then s else s.report d 0x2102 vfail
  (s.startFault d code true).stewardRuns d .rom 0 0

/-- IMAGE_CHECK: the flash is usable or not (R416), and the image is checked, or RECOVER has been written (R397, R398). -/
def imageCheckAt (s : State) (d : DieId) (flashOk : Bool) : State :=
  let k := s.steward d
  if k.mode ≠ .checking ∨ (s.die d).stage = .held ∨ !k.journal.jobs.isEmpty then s
  else
    let s := s.setSteward d { k with journal := { k.journal with unusable := !flashOk } }
    if !flashOk then s.runRom d 5 0x2201
    else if k.forceRom then s.runRom d 6 0x2102
    else
      match imageVfail d k.journal with
      | 0 =>
        let h := k.journal.bytesAt 0 0x10
        s.stewardRuns d .carori (BitVec.ofNat 16 (fieldAt h 8 2)) (BitVec.ofNat 32 (fieldAt h 4 4))
      | n => s.runRom d n 0x2102

/-- STEWARD_WATCHDOG: no supervision cycle for 200,000 counts restarts the steward (R399). DEDUCED, log entry 40. -/
def stewardWatchdog (s : State) (d : DieId) : State :=
  let k := s.steward d
  if k.mode ≠ .carori ∨ s.since d k.supAt < 200000 then s
  else
    let n := satInc k.restarts
    ((s.setSteward d { k with restarts := n }).report d 0x2101 n.toNat).restartSteward d

/-- The steward may read the error registers of a die's stores and the status registers of its arrays, and clear what they
have latched: no rule says when it does, and each is a free choice (R85, R182). DESIGN CHOICE, log entry 77. -/
def readLatches (s : State) (d : DieId) : State :=
  let f := s.draw
  let clr := fun (i : Nat) (x : Store) =>
    if Config.freeNew f.1 i then { x with ce := false, ue := false, scrubUE := false, ceCount := 0 } else x
  let arr := fun (n i : Nat) (a : Arr) => { a with fillerFail := a.fillerFail && !Config.freeNew f.1 (8 * n + 1 + i) }
  let s := f.2
  { s with
    cores := s.cores.mapKV fun n k =>
      if (coreOf n).die = d then { k with store := clr (8 * n) k.store, arrs := k.arrs.mapKV (arr n) } else k
    clusters := s.clusters.mapKV fun n k => if (clusterOf n).die = d then { k with map := clr (8 * n + 7) k.map } else k }

/-- SUPERVISION_CYCLE: the steward completes its cycle, toggles SAFE_HB, and begins the plans that are requested (R378,
R390). -/
def supervise (s : State) (d : DieId) : State :=
  let k := s.steward d
  let now := (s.die d).ticks
  if k.mode ≠ .carori ∨ s.since d k.safety.hbAt < 48000 then s
  else
    let s := s.setSteward d { k with supAt := now, supDone := true, safety := { k.safety with hb := !k.safety.hb, hbAt := now } }
    let s := (s.readLatches d).stampsTaken d
    if !s.caroriRuns d ∨ (s.die d).computeReset then s else (s.regionsOn d).foldl (fun s r => s.beginPlan d r) s

/-- READBACK_MISMATCH: the pins have differed from the driven state for 4 counts (R38, R377). -/
def readback (s : State) (d : DieId) (sampled : BitVec 2) : State :=
  let driven := errPins (s.errDriven d)
  if sampled = driven ∨ s.since d (s.steward d).safety.errAt < 4 then s else s.report d 0x1903 (place sampled.toNat 2 + driven.toNat)

end State

/-- IMAGE_CHECK (R397). -/
def execImageCheck (d : DieId) (flashOk : Bool) (s : State) : Host.Outcome State Fault Refusal :=
  onDie s d (s.imageCheckAt d flashOk)
/-- STEWARD_WATCHDOG (R399). -/
def execStewardWatchdog (d : DieId) (s : State) : Host.Outcome State Fault Refusal := onDie s d (s.stewardWatchdog d)
/-- SUPERVISION_CYCLE (R378). -/
def execSupervisionCycle (d : DieId) (s : State) : Host.Outcome State Fault Refusal := onDie s d (s.supervise d)
/-- READBACK_MISMATCH (R377). -/
def execReadbackMismatch (d : DieId) (sampled : BitVec 2) (s : State) : Host.Outcome State Fault Refusal :=
  onDie s d (s.readback d sampled)

end Sys2Proof.Machine
end

