-- ==== Sys2Proof/Machine/Reset.lean ====
section
/-!
DEFINITION. The reset ladder: watchdogs, collection of crash dumps, the reset of each kind of unit, its check, and its
deadline; dumps freed (R351 to R366).
-/
namespace Sys2Proof.Machine

/-- FQ_STAT (Table 14-5). -/
def Die.fqStat (k : Die) : Nat :=
  place k.fq.entries.length 48 + place k.fqSeq.toNat 32 + place k.merged.toNat 16 + place (bit k.hotSkip) 2 +
    place (bit k.fqFull) 1 + bit k.ownViol

namespace State

/-- The die rate register (Table 02-3). -/
def rateReg (s : State) (d : DieId) : Nat :=
  let k := s.die d
  place k.rateMin.toNat 48 + place k.rate.toNat 32 + place (s.steward d).vreq 24 + place (s.maxCode d) 18 +
    place (bit k.belowFloor) 17 + place (bit k.tbLostFlag) 16

/-- CP_STAT (Table 13-8). -/
def cpStat (s : State) (d : DieId) : Nat :=
  let k := s.die d
  let acc := ((s.queues.entries.filter fun e => decide ((queueOf e.1).die = d)).map fun e => e.2.accepted.length).sum
  place k.dbIgnored.toNat 48 + place k.ovf.length 40 + place k.ovfLost.toNat 32 + place k.slots.length 26 + place acc 13

/-- MD_STAT (Table 15-8). -/
def mdStat (s : State) (d : DieId) : Nat :=
  let k := s.die d
  let on := decide (k.stage ≠ .held)
  let route := fun (e : Nat) =>
    if !on then 7 else if e = d.val then 4 else match k.routes.find? e with
      | some l => l % 4
      | none => 7
  let reach := ((List.range 8).filter fun e => on && s.reaches d e).foldl (fun m e => m + 2 ^ e) 0
  place (((List.range 8).map fun e => place (route e) (3 * e)).sum) 32 + place k.late.toNat 16 + place reach 8 + k.number % 8

/-- Contexts of a die's queues that have commands take slots again, and invalidations that the die has not acknowledged are
acknowledged, since the reset has removed every entry (R362, R363). -/
def resumeCompute (s : State) (d : DieId) : State :=
  let acks := (s.die d).invals
  let s := s.setDie d { s.die d with invals := [] }
  let s := acks.foldl (fun s e =>
    let q := queueOf e.1
    if q.die = d then s.invalAck q d else s.sendMsg d q.die (.invalAck e.1 d.val)) s
  s.queues.entries.foldl (fun s e =>
    let q := queueOf e.1
    if q.die ≠ d then s
    else if e.2.st = .destroying then s.destroyWalk q
    else if e.2.st = .opened ∧ e.2.doneptr ≠ e.2.fill ∧ (s.ctx e.2.ctx).st ≠ .lost then s.askSlot d e.2.ctx else s) s

/-- A core that has been told to stop acknowledges by the reset check of its unit, where it had not (R363). -/
def ackReset (s : State) (c : CoreId) : State :=
  let k := s.core c
  match k.part with
  | none => s
  | some q =>
    if k.stopAsked && !k.stopAcked then
      (s.updCore c fun k => { k with stopAcked := true }).sendMsg c.die (queueOf q).die (.stopAck q c.key)
    else s

/-- The cores of a unit are out of reset: a core whose launch is not over has stopped (R353, R363). -/
def coresBack (s : State) (u : ResetUnit) : State :=
  ((s.dieCores u.dieId).filter fun c => u.contains (.core c)).foldl (fun s c =>
    (s.updCore c fun k =>
      { k with run := if k.run ≠ .reset then k.run else if k.part.isSome then .stopped else .idle }).ackReset c) s

/-- The number that a die latches from its strap; the pins of a die that the model names by its number hold that number (R12).
DEDUCED, log entry 38. -/
def latchNumber (s : State) (d : DieId) : Nat := ((s.strap d).dieId).getD d.val

/-- The compute part of a die leaves reset after it had been in service: links that had failed start again, the counter is
aligned again, and the scheduler waits for the plan (Table 15-4, R11, R343, R353). -/
def computeBack (s : State) (d : DieId) : State :=
  let k := s.die d
  let s := s.setDie d { k with
    computeReset := false
    dieReset := false
    awaitPlan := true
    number := s.latchNumber d
    aligned := k.aligned || decide (d = die0)
    windowAt := k.ticks }
  (((s.coresBack (.die d)).linksReleased d).startAlign d false).resumeCompute d

/-- The cores that a reset takes, or whose engine or window generator it takes, note its count (R357). -/
def stampReset (s : State) (u : ResetUnit) : State :=
  let mine := fun c : CoreId => u.contains (.core c) || decide (u.coreOf? = some c) ||
    (match u with
     | .gen k _ => decide (c.cluster = k)
     | _ => false)
  ((s.dieCores u.dieId).filter mine).foldl (fun s c => s.updCore c fun k => { k with resetAt := some (s.die c.die).ticks }) s

/-- The reset of an escalation's level is asserted; the stalled accesses of its units are gone with it (R355, R359, R361, R362).
A DIE reset sets CAUSE_RESET, and SSR_LATCH on die 0; it has an EVENT record with the code and INFO that it gives launches
(Table 19-3, R421). DESIGN CHOICE, log entry 85. -/
def assertReset (s : State) (d : DieId) (n : Nat) : State :=
  match s.esc d n with
  | none => s
  | some e =>
    let k := s.die d
    let u := e.unit.atLevel e.level
    let s := s.setEsc d n { e with resetAt := some k.ticks, dump := { e.dump with tReset := k.count } }
    let s := (s.failUnits d u e.start e.code).stampReset u
    match u with
    | .die _ =>
      let s := (s.setCause d 2 e.code (decide (d = die0))).eventRecord d 0x1803 (place 4 56 + u.num)
      ((s.setDie d { s.die d with dieReset := true }).resetCompute d).linksReset d
    | _ =>
      let s := (s.orphanReqs d u).clearUnit u
      s.withdraw d u.owns

/-- Free bytes of a dump region, of the draw `n` from a place on. -/
def freeBytes (n at' k : Nat) : List Byte := (List.range k).map fun i => Config.freeByte n (at' + i)

/-- A queued or executing engine instruction in a dump region: its word and the value of its first scalar operand. -/
def insBytes (i : Option EInstr) : List Byte :=
  match i with
  | some i => bytesLE 4 i.word.toNat ++ bytesLE 8 i.x1.toNat
  | none => bytesLE 12 0

/-- The first `n` instructions of a list in a dump region. -/
def insList (n : Nat) (l : List EInstr) : List Byte := (List.range n).flatMap fun i => insBytes l[i]?

/-- The data of the regions of a core (Table 18-5). -/
def coreRegion (s : State) (c : CoreId) (r : RegionTodo) : State × List Byte :=
  let f := s.draw
  let free := freeBytes f.1
  let k := s.core c
  match r.id with
  | 0x01 =>
    (f.2, ((List.range 31).flatMap fun i => bytesLE 8 (k.seq.read (i + 1)).toNat) ++ bytesLE 1 (setField k.seq.p.toNat 0 0 0) ++
      bytesLE 3 k.seq.pc.toNat ++ ((List.range 16).flatMap fun i => bytesLE 3 (k.seq.stack.getD i 0).toNat) ++
      bytesLE 8 (k.seqStatus (s.holdsGrant c) (s.lcred c)) ++ bytesLE 4 (k.code.get 0 k.seq.pc.toNat).toNat ++ free 312 8)
  | 0x02 => (s, (List.range 64).flatMap fun t => (k.tokens.get {} t).bytes)
  | 0x03 =>
    let a := k.arrs.get {} r.idx
    (s, bytesLE 4 a.fmt.toNat ++ bytesLE 4 a.cfg.toNat ++ bytesLE 4 a.ast.toNat ++ bytesLE 4 (k.arrStat a) ++ insList 4 a.queue)
  | 0x04 => (f.2, insList 8 k.vecQ ++ insList 1 k.vecRun ++ free 108 20)
  | 0x05 =>
    (f.2, insList 4 (k.strRun.map (·.ins)) ++ bytesLE 2 (s.streamSlots c false false) ++ bytesLE 2 (s.streamSlots c false true) ++
      bytesLE 2 (s.streamSlots c true false) ++ bytesLE 2 (s.lcred c) ++ bytesLE 4 k.cv0.toNat ++ bytesLE 4 k.cv1.toNat ++
      bytesLE 4 k.wpad.toNat ++ bytesLE 4 k.psStr.toNat ++ bytesLE 4 k.psSeq.toNat ++ free 76 180)
  | _ => (s, bytesLE 8 k.store.errReg ++ bytesLE 8 0)

/-- The data of the regions of a cluster (Table 18-5). -/
def clusterRegion (s : State) (k : ClusterId) (r : RegionTodo) : State × List Byte :=
  let f := s.draw
  let x := s.cluster k
  match r.id with
  | 0x10 =>
    (f.2, ((List.range 32).flatMap fun i => bytesLE 4 (x.arrivals.get 0 i)) ++
      ((List.range 64).flatMap fun i => bytesLE 4 (x.halo.get 0 i).toNat) ++
      bytesLE 1 ((x.holder.map fun h => h.val).getD 0xFF) ++ bytesLE 2 x.allocs.length ++ bytesLE 2 (x.allocs.map (·.2)).sum ++
      freeBytes f.1 389 123)
  | 0x11 =>
    let bs := (x.gens.get {} r.idx).bindings
    (s, (List.range 4).flatMap fun i => ((bs[i]?.map (·.geom)).getD []) ++ List.replicate (80 - ((bs[i]?.map (·.geom)).getD []).length) 0)
  | _ => (s, bytesLE 8 x.map.errReg ++ bytesLE 8 0)

/-- The data of a dump region, in the order in which Table 18-5 names its content, with the two signatures of a paired run
behind that of the stream engine (R373); the layout, and the bytes that no content fills, are the model's: these are free
values. DESIGN CHOICE, log entry 49. -/
def regionData (s : State) (d : DieId) (r : RegionTodo) : State × List Byte :=
  let f := s.draw
  match r.id with
  | 0x10 | 0x11 | 0x12 => s.clusterRegion (clusterOf r.key) r
  | 0x20 =>
    let q := s.queue (queueOf r.key)
    let pos := (q.accepted.headD { pos := q.doneptr.toNat, bytes := [] }).pos
    (f.2, bytesLE 8 q.stateReg ++ bytesLE 8 q.fill.toNat ++ bytesLE 8 q.accptr.toNat ++ bytesLE 8 q.doneptr.toNat ++
      bytesLE 8 pos ++ freeBytes f.1 40 24)
  | 0x21 =>
    let e := s.sema r.key
    (f.2, bytesLE 8 (place e.gen.toNat 16 + place e.partition 12 + r.key) ++ bytesLE 8 e.holders.length ++
      bytesLE 8 e.waiters.length ++ freeBytes f.1 24 8)
  | 0x22 => (s, match (s.die d).fq.find? r.key with
      | some x => x.bytes s.build.cores
      | none => List.replicate 64 0)
  | 0x23 => (s, bytesLE 8 (s.cpStat d) ++ bytesLE 8 (s.die d).fqStat ++ bytesLE 8 (s.mdStat d) ++ bytesLE 8 (s.rateReg d))
  | _ => s.coreRegion (coreOf r.key) r

/-- A region record joins the dump of an escalation, where the store has room for it (R365). -/
def addRegion (s : State) (d : DieId) (e : Escalation) (r : RegionTodo) (status : Nat) (data : List Byte) : Escalation :=
  let x := e.dump
  let y := if e.kept ∧ s.dumpOthers d x.seqno + dumpBytes x + regionBytes data.length ≤ 524288 then
      { x with regions := x.regions ++ [{ id := r.id, status := status, unit := r.unit, key := r.key, idx := r.idx, data := data,
                                          time := (s.die d).count }] }
    else { x with trunc := satAdd 8 x.trunc 1 }
  { e with dump := y }

/-- A path of an escalation has done with a region: it goes on to the next, and after the last region of every path the
reset is asserted (R364). -/
def regionDone (s : State) (d : DieId) (n path : Nat) (e : Escalation) (r : RegionTodo) : State :=
  let e := { e with todo := e.todo.erase r, pathAt := e.pathAt.put path (s.die d).ticks }
  let s := s.setEsc d n e
  if e.todo.isEmpty then s.assertReset d n else s

/-- REGION_READ: a region answers (R364). -/
def regionRead (s : State) (d : DieId) (n path : Nat) : State :=
  match s.esc d n with
  | none => s
  | some e =>
    match e.todo.find? fun r => decide (r.path = path) with
    | none => s
    | some r =>
      if e.resetAt.isSome ∨ 200 ≤ s.since d (e.pathAt.get 0 path) then s
      else
        let x := s.regionData d r
        x.1.regionDone d n path (x.1.addRegion d e r 0 x.2) r

/-- REGION_READ_TIMEOUT: a region that has not answered within 200 counts is marked UNREACHABLE (R364). -/
def regionLate (s : State) (d : DieId) (n path : Nat) : State :=
  match s.esc d n with
  | none => s
  | some e =>
    match e.todo.find? fun r => decide (r.path = path) with
    | none => s
    | some r =>
      if e.resetAt.isSome ∨ s.since d (e.pathAt.get 0 path) < 200 then s
      else s.regionDone d n path (s.addRegion d e r 1 []) r

/-- COLLECTION_CUTOFF: 40 % of the level's span has passed; the regions left are written as TRUNCATED, and the reset is
asserted (R364). -/
def cutoff (s : State) (d : DieId) (n : Nat) : State :=
  match s.esc d n with
  | none => s
  | some e =>
    if e.resetAt.isSome ∨ s.since d e.from' < e.level.collect then s
    else
      let e' := e.todo.foldl (fun e r =>
        let t := s.addRegion d e r 2 []
        if t.dump.trunc ≠ e.dump.trunc then t else { t with dump := { t.dump with trunc := satAdd 8 t.dump.trunc 1 } }) e
      (s.setEsc d n { e' with todo := [] }).assertReset d n

/-- An escalation is over: its dump is held, with its interrupt (R365, R496). -/
def escOver (s : State) (d : DieId) (n : Nat) (e : Escalation) : State :=
  let k := s.die d
  let s := s.setDie d { k with
    escalations := k.escalations.eraseIdx n
    dumps := if e.kept then k.dumps ++ [e.dump] else k.dumps }
  if e.kept then s.postIm d (0x1200 + d.val) 0 else s

/-- RESET_CHECK: the reset check of an escalation's unit passes, and the unit is back in service (R353). -/
def resetCheck (s : State) (d : DieId) (n : Nat) : State :=
  match s.esc d n with
  | none => s
  | some e =>
    if e.resetAt.isNone then s
    else
      let s := s.escOver d n e
      match e.unit.atLevel e.level with
      | .die _ => if (s.die d).heldSupply then s.setDie d { s.die d with dieReset := false } else s.computeBack d
      | .cluster c => (s.coresBack (.cluster c)).monitorsBack c
      | u =>
        match u.coreOf? with
        | some c => (s.coresBack u).quietCheck c
        | none => s.coresBack u

/-- RESET_DEADLINE: the deadline of a level passes without a reset check; the ladder moves up, and after a DIE reset the
compute part stays in reset with F-1804 (R359). -/
def resetDeadline (s : State) (d : DieId) (n : Nat) : State :=
  match s.esc d n with
  | none => s
  | some e =>
    if s.since d e.t0 < e.level.deadline then s
    else
      match e.level.next with
      | some l =>
        let l := (e.unit.atLevel l).level
        let e := s.beginLevel d { e with from' := (s.die d).ticks } l
        let s := (s.setEsc d n e).absorb d e
        let n := ((s.die d).escalations.findIdx? fun x => decide (x.dump.seqno = e.dump.seqno)).getD n
        if e.todo.isEmpty then s.assertReset d n else s
      | none =>
        let s := s.escOver d n e
        let k := s.die d
        (s.setDie d { k with computeReset := true, heldLadder := true }).reportFree d 0x1804

/-- A stream instruction in flight makes progress, or could: it waits for no slot, credit, Cuff or translation (R358). -/
def streamMoves (s : State) (c : CoreId) (r : StreamRun) : Bool :=
  !r.held && ((r.todo.isEmpty && r.out.isEmpty) ||
    s.reqs.values.any fun q => decide (q.owner = .stream c.key r.ins.ord) && q.sent && !q.gone)

/-- A core's sequencer is in a defined wait: a full engine queue, a wait of its synchronisation logic on a token claim, a phase
change, the barrier, a halo counter or a semaphore, YIELD or END, the comparison of a pair, a Cuff, slot or credit for its
access, or a translation fault (R358). -/
def seqWaits (s : State) (c : CoreId) : Bool :=
  let k := s.core c
  let next := k.code.find? k.seq.pc.toNat
  let full := decide (k.stall = .none) && (next.any fun w => decide (2 ≤ unitOf w) && s.queueFull c w)
  let load := match k.stall with
    | .load _ _ _ _ none => !s.reqs.values.any fun q => decide (q.owner = .seqLoad c.key) && q.sent && !q.gone
    | .store _ _ _ => true
    | _ => false
  let sync := decide (k.stall ≠ .none) && k.syncQ.head?.any fun i => [0x00, 0x01, 0x03, 0x05, 0x07, 0x08, 0x0E].contains (eopField i.word)
  full || load || sync || k.atBarrier.isSome || k.haloWaiting || k.remoteWait || k.grantReq || k.pairPoint.isSome ||
    decide (k.stall = .yield) || decide (k.stall = .done) || s.transHeld c.die (.seqLoad c.key) || s.transHeld c.die (.fetch c.key)

/-- The tick of the last progress of a core that runs a program and is in no defined wait. -/
def coreWork (s : State) (c : CoreId) : Option Nat :=
  let k := s.core c
  if (decide (k.run = .running) || decide (k.run = .header)) && k.part.isSome && !s.seqWaits c then some k.progAt else none

/-- The ticks from which the watchdog of a unit counts: of the last progress of each piece of work that it has started and that is
in no defined wait of R358. An array's, a vector unit's and a stream engine's instructions, the window reads that a generator
serves, and a core's program; a cluster's and a die's units work for the cores in them, and have made progress when one of
these has; and the fence signals of a die's command processor. DESIGN CHOICE, log entry 62. -/
def workAt (s : State) : ResetUnit → List Nat
  | .array a => if (s.arr a).run.isEmpty then [] else [(s.arr a).startAt]
  | .vector c => if (s.core c).vecRun.isEmpty then [] else [(s.core c).vecAt]
  | .stream c =>
    let k := s.core c
    (k.strRun.filter fun r => k.strAbort.isSome || s.streamMoves c r).map (·.startAt)
  | .gen k g => (s.clusterCores k).flatMap fun c => ((s.core c).arrs.values.filter fun a =>
      a.run.any fun i => decide (i.win.map (·.gen) = some g.val)).map (·.startAt)
  | .core c => (s.coreWork c).toList
  | .cluster k => ((s.clusterCores k).filterMap s.coreWork).max?.toList
  | .die d =>
    let cmds := s.queues.entries.filterMap fun e =>
      match e.2.wait with
      | .fence => if (queueOf e.1).die = d then some e.2.timerAt else none
      | _ => none
    cmds ++ ((s.dieCores d).filterMap s.coreWork).max?.toList

/-- A unit's watchdog has counted to a number at least: so many timebase counts have gone since the last progress of something
that it has started (R38, R358); a boundary latch holds work only within a step. DESIGN CHOICE, log entry 62. -/
def watched (s : State) (u : ResetUnit) (counts : Nat) : Bool :=
  (s.workAt u).any fun t => decide (counts ≤ s.since u.dieId t)

/-- WATCHDOG_EXPIRY: a unit's watchdog has counted to WD_LIMIT (R358). The row's operand is the count that the watchdog, or a
boundary latch of the unit, has reached. DESIGN CHOICE, log entry 62. -/
def watchdog (s : State) (u : ResetUnit) (counts : Nat) : State :=
  let d := u.dieId
  if (s.die d).computeReset ∨ counts < s.objVal d 0x2A30 0 ∨ !s.watched u counts then s else s.startLadder u 0x1801

/-- The unit of a request whose slot has been given back goes on. -/
def slotBack (s : State) (r : Req) : State :=
  let s := match r.owner with
    | .stream x _ => (s.abortReport (coreOf x)).quietCheck (coreOf x)
    | .seqLoad x => s.quietCheck (coreOf x)
    | .seqStore x _ => s.quietCheck (coreOf x)
    | _ => s
  s.pumpDie r.die

/-- BOUNDARY_SLOT_TIMEOUT: 1,000 counts after a reset, the slot and the link credit of a request without a response are
returned; the request itself completes at its destination, with its bytes (R355, R357). -/
def slotTimeout (s : State) (d : DieId) (r : Nat) : State :=
  let k := s.die d
  match (k.orphans.find? fun o => decide (o.req = r)).bind (·.at') with
  | none => s
  | some t =>
    if s.since d t < 1000 then s
    else
      let s := s.setDie d { k with orphans := k.orphans.filter fun x => decide (x.req ≠ r) }
      match s.reqs.find? r with
      | none => s
      | some q =>
        match q.st with
        | .remote link credit =>
          let l : LinkId := ⟨d, Fin.ofNat 4 link⟩
          let s := { s with reqs := s.reqs.erase r }
          (s.setLink l { s.link l with e2e := (s.link l).e2e.erase credit }).slotBack q
        | _ => ({ s with reqs := s.reqs.put r { q with gone := true } }).slotBack q

/-- A write of DUMP_STAT: a 1 in FREE frees the oldest dump, and the next one becomes the oldest (R366). -/
def dumpStatWrite (s : State) (d : DieId) (v m : W64) : State :=
  let s := s.rsvdWrite d v m 0x0000FC000000FFFE
  let k := s.die d
  match k.dumps with
  | x :: rest =>
    if bitAt (v &&& m).toNat 0 then s.setDie d { k with dumps := rest, dumpBase := (k.dumpBase + dumpBytes x) % 524288 } else s
  | [] => s

/-- DUMP_FREE: a Crown write of DUMP_STAT. -/
def dumpFree (s : State) (role strb : Byte) (d : DieId) (v : W64) : State :=
  if !s.hasDie d then s.crownErr else s.driverWrite role strb fun m => s.dumpStatWrite d v m

end State

/-- WATCHDOG_EXPIRY (R358). -/
def execWatchdogExpiry (u : ResetUnit) (counts : Nat) (s : State) : Host.Outcome State Fault Refusal :=
  if s.hasUnit u then .next (s.watchdog u counts) else .fault .noSuchUnit
/-- RESET_DEADLINE (R359). -/
def execResetDeadline (d : DieId) (n : Nat) (s : State) : Host.Outcome State Fault Refusal := onDie s d (s.resetDeadline d n)
/-- RESET_CHECK (R353). -/
def execResetCheck (d : DieId) (n : Nat) (s : State) : Host.Outcome State Fault Refusal := onDie s d (s.resetCheck d n)
/-- REGION_READ (R364). -/
def execRegionRead (d : DieId) (n path : Nat) (s : State) : Host.Outcome State Fault Refusal := onDie s d (s.regionRead d n path)
/-- REGION_READ_TIMEOUT (R364). -/
def execRegionReadTimeout (d : DieId) (n path : Nat) (s : State) : Host.Outcome State Fault Refusal :=
  onDie s d (s.regionLate d n path)
/-- COLLECTION_CUTOFF (R364). -/
def execCollectionCutoff (d : DieId) (n : Nat) (s : State) : Host.Outcome State Fault Refusal := onDie s d (s.cutoff d n)
/-- BOUNDARY_SLOT_TIMEOUT (R355). -/
def execBoundarySlotTimeout (d : DieId) (r : Nat) (s : State) : Host.Outcome State Fault Refusal := onDie s d (s.slotTimeout d r)
/-- DUMP_FREE (R366). -/
def execDumpFree (role strb : Byte) (d : DieId) (v : W64) (s : State) : Host.Outcome State Fault Refusal :=
  .next (s.dumpFree role strb d v)

end Sys2Proof.Machine
end

