-- ==== Sys2Proof/Machine/Startup.lean ====
section
/-!
DEFINITION. Start-up: block reset, the release of the compute part, self-test, the stage reports, host bring-up and
readiness; the supply and the rate monitor (R5, R12, R31, R33, R402, R465, R476 to R485).
-/
namespace Sys2Proof.Machine

namespace State

/-- What a Peat port holds of a die's writes when block reset falls: each byte may have reached memory or not (R458, R465).
DESIGN CHOICE, log entry 16. -/
def cutWrites (s : State) (d : DieId) : State :=
  (s.reqs.entries.filter fun e => decide (e.2.die = d) && e.2.write &&
      (match e.2.st with | .port _ _ _ => true | _ => false)).foldl (fun s e =>
    let g := e.2.pa / 64 * 64
    let f := s.draw
    e.2.data.foldl (fun s b => if Config.freeNew f.1 b.1 then s.writeByte (g + b.1) b.2 else s) f.2) s

/-- An erase that block reset cuts off leaves undefined bytes in its sector (R465). DESIGN CHOICE, log entry 16. -/
def cutErase (s : State) (d : DieId) (j : Journal) : State × Journal :=
  match (s.steward d).journal.jobs with
  | (_, n :: _) :: _ =>
    let f := s.draw
    (f.2, { j with flash := j.flash.keys.foldl (fun m a => if inSector n a then m.setD 0xFF a (Config.freeByte f.1 a) else m) j.flash })
  | _ => (s, j)

/-- Everything a die holds is back at its reset value; its flash keeps its content (R465). DEDUCED, log entry 54. -/
def eraseDie (s : State) (d : DieId) (j : Journal) : State :=
  let home := fun (n : Nat) => decide ((queueOf n).die = d)
  { s with
    dies := s.dies.erase d.val
    clusters := s.clusters.filter fun n _ => decide ((clusterOf n).die ≠ d)
    cores := s.cores.filter fun n _ => decide ((coreOf n).die ≠ d)
    links := s.links.filter fun n _ => decide (n / 4 ≠ d.val)
    stewards := s.stewards.put d.val { journal := j }
    nets := s.nets.erase d.val
    debugs := s.debugs.erase d.val
    monitors := s.monitors.filter fun n _ => decide (n / 32 ≠ d.val)
    queues := s.queues.filter fun n _ => !home n
    launches := s.launches.filter fun n l =>
      !home n || l.cores.any fun x => (x.at?.map fun c => decide (c.die ≠ d)).getD false
    fences := s.fences.filter fun _ f => decide (f.src ≠ d.val)
    msgs := s.msgs.filter fun _ m => decide (m.1 ≠ d.val)
    reqs := s.reqs.filter fun _ r => decide (r.die ≠ d)
    im := s.im.erase d.val }

/-- What die 0 holds for the package is back at its reset value (R465). -/
def eraseHost (s : State) : State :=
  { s with
    ctxs := {}
    mos := {}
    sems := {}
    ctxTbl := 0
    moTbl := 0
    qTbl := {}
    objReq := List.replicate 32 0
    objHeld := []
    objOvf := false
    partRoot := {}
    rootInval := {}
    rings := {}
    caps := {}
    capFixed := false
    crown := ⟨false, 0⟩ }

/-- BLK_RST_N_ASSERT: every request of the die ends without response, and a record being programmed may tear (R465). -/
def blockReset (s : State) (d : DieId) : State :=
  let s := s.cutWrites d
  let t := s.tear d
  let u := t.1.cutErase d t.2
  let s := u.1.eraseDie d u.2
  if d = die0 then s.eraseHost else s

/-- BLK_RST_N_RELEASE: BOOT begins; the straps are latched, a link that they leave out is UNUSED, and the time counter starts from 0, and die 0's reads ALIGNED (R343, R463 to R465, R476, Table 17-2). -/
def blockRelease (s : State) (d : DieId) : State :=
  if (s.die d).stage = .held then
    let x := s.strap d
    let s := s.setDie d { s.die d with
      aligned := decide (d = die0), linkUse := x.linkUse, linkRate := x.linkRate, macMode := x.macMode }
    ((dieLinks d).foldl linkDown s).enterStage d .boot
  else s

/-- Units that the journal does not exclude are enabled for a start-up: an array that is recorded as failed is not, nor is
a core that has lost every array, nor a cluster that has lost every core (R481). DEDUCED, log entry 53. -/
def enableUnits (s : State) (d : DieId) : State :=
  let failed := (s.steward d).failedArrays
  (s.allClusters d).foldl (fun s k =>
    let s := (s.clusterCores k).foldl (fun s c =>
      let on := fun (i : Nat) => !failed.contains (c.key * 4 + i)
      let arrs := (List.range s.build.arrays).foldl (fun (m : SMap Arr) i => m.put i { m.get {} i with enabled := on i })
        (s.core c).arrs
      s.updCore c fun x => { x with arrs := arrs, enabled := (List.range s.build.arrays).any on }) s
    s.setCluster k { s.cluster k with enabled := (s.clusterCores k).any fun c => (s.core c).enabled }) s

/-- The compute part of a die leaves reset in PLAN: the strap gives the die's number, the units are enabled, and a steward
that runs Carori writes the committed values and begins the start-up plan (R11, R12, R24, R391, R402).
DEDUCED, log entry 53. -/
def computeRelease (s : State) (d : DieId) : State :=
  let k := s.die d
  let s := s.setDie d { k with
    computeReset := false
    dieReset := false
    awaitPlan := true
    number := s.latchNumber d
    aligned := k.aligned || decide (d = die0)
    windowAt := k.ticks }
  let s := (((s.enableUnits d).coresBack (.die d)).linksReleased d).startAlign d false
  let s := s.resumeCompute d
  if s.caroriRuns d then s.beginStartPlan d else s

/-- COMPUTE_PART_RELEASE: PLAN has begun, and nothing holds the compute part in reset (R402, R476). -/
def planRelease (s : State) (d : DieId) : State :=
  let k := s.die d
  if k.stage ≠ .plan ∨ !k.computeReset ∨ k.awaitPlan ∨ k.heldSupply ∨ k.heldLadder then s else s.computeRelease d

/-- Disable the unit that a failed test takes out of service: an array alone, with its UNIT record; a sequencer pair, vector
unit, stream engine or core store its core; anything else its cluster (R481). -/
def disableUnit (s : State) (d : DieId) : ResetUnit → State
  | .array a =>
    let s := s.setArr a { s.arr a with enabled := false }
    let k := s.steward d
    if k.failedArrays.contains a.key then s
    else
      let s := s.setSteward d { k with failedArrays := k.failedArrays ++ [a.key] }
      s.journal d 0x08 (s.unitMask d)
  | .vector c => s.updCore c fun k => { k with enabled := false }
  | .stream c => s.updCore c fun k => { k with enabled := false }
  | .core c => s.updCore c fun k => { k with enabled := false }
  | .gen k _ => s.setCluster k { s.cluster k with enabled := false }
  | .cluster k => s.setCluster k { s.cluster k with enabled := false }
  | .die _ => s

/-- Whether a unit is enabled, and so takes part in the self-test. -/
def unitOn (s : State) : ResetUnit → Bool
  | .array a => (s.arr a).enabled && (s.core a.core).enabled && (s.cluster a.core.cluster).enabled
  | .vector c => (s.core c).enabled && (s.cluster c.cluster).enabled
  | .stream c => (s.core c).enabled && (s.cluster c.cluster).enabled
  | .core c => (s.core c).enabled && (s.cluster c.cluster).enabled
  | .gen k _ => (s.cluster k).enabled
  | .cluster k => (s.cluster k).enabled
  | .die _ => false

/-- A core that has lost every array, and a cluster that has lost every core, is disabled (R481). -/
def loseEmpty (s : State) (d : DieId) : State :=
  (s.allClusters d).foldl (fun s k =>
    let s := (s.clusterCores k).foldl (fun s c =>
      if (List.range s.build.arrays).any fun i => ((s.core c).arrs.get {} i).enabled then s
      else s.updCore c fun x => { x with enabled := false }) s
    if (s.clusterCores k).any fun c => (s.core c).enabled then s
    else s.setCluster k { s.cluster k with enabled := false }) s

/-- The stores of a die are cleared at the end of their test (R181, R481). -/
def clearStores (s : State) (d : DieId) : State :=
  (s.allClusters d).foldl (fun s k =>
    let s := (s.clusterCores k).foldl (fun s c => s.updCore c fun x => { x with store := {}, lastPartition := none }) s
    s.setCluster k { s.cluster k with map := {}, lastPartition := none }) s

/-- SELFTEST_VERDICT: every test of the die has a verdict. Failed units are disabled with F-2603, a failed unit of the die
itself, or the loss of the last cluster, stops start-up with F-2601, and LINKS begins (R476, R481, R482).
DEDUCED, log entry 53. -/
def selftest (s : State) (d : DieId) (fails : List ResetUnit) (dieFail : Nat) : State :=
  let k := s.die d
  if k.stage ≠ .selftest ∨ k.computeReset ∨ k.awaitPlan then s
  else
    let s := fails.foldl (fun s u =>
      if u.dieId = d ∧ s.hasUnit u ∧ s.unitOn u then
        ((s.report d 0x2603 u.num).startFault d 0x2603 false).disableUnit d u
      else s) s
    let s := s.loseEmpty d
    let stop := fun (s : State) kind => (s.report d 0x2601 kind).startFault d 0x2601 true
    let s := if 1 ≤ dieFail ∧ dieFail ≤ 5 then stop s dieFail else s
    let s := if (s.allClusters d).any fun c => (s.cluster c).enabled then s else stop s 6
    let s := s.clearStores d
    let s := s.setDie d { s.die d with selftested := true }
    (dieLinks d).foldl (fun s l => s.enableLink l) (s.enterStage d .links)

/-- A link has ended its training (R482). -/
def linkSettled (s : State) (l : LinkId) : Bool :=
  decide ((s.link l).st = .active) || decide ((s.link l).st = .failed) || decide ((s.link l).st = .unused)

/-- The enabled units of a die and its far dies, as its stage report carries them (R5, Table 15-13). -/
def enabledCounts (s : State) (d : DieId) : CapDie :=
  let ks := (s.allClusters d).filter fun k => (s.cluster k).enabled
  let cs := ks.flatMap fun k => (s.clusterCores k).filter fun c => (s.core c).enabled
  { clusters := (ks.map fun k => 2 ^ k.cl.val).sum
    cores := cs.length
    arrays := (cs.map fun c => (s.enabledArrays c).length).sum
    links := BitVec.ofNat 32 (ofBytesLE ((s.farDies d).map (BitVec.ofNat 8))) }

/-- LINKS_END: every fitted link has settled, no conflict is found, and the die is ALIGNED; the stage report goes to die 0,
and another die enters HOST_INIT. When every link of the package has settled, a die whose reached dies do not have the
numbers 0 to dies − 1 raises F-1505, whose INFO no rule gives there (R318, R482). DESIGN CHOICE, log entry 13. -/
def linksEnd (s : State) (d : DieId) : State :=
  let k := s.die d
  if k.stage ≠ .links ∨ k.reported ∨ k.stopped ∨ k.linkConflict ∨ !((dieLinks d).all s.linkSettled) then s
  else
    let all := s.allDies.all fun e => (dieLinks e).all s.linkSettled
    let nums := (s.allDies.filter fun e => s.reaches d e.val).map fun e => (s.die e).number
    let reached := (List.range s.build.dies).all fun n => nums.contains n
    if !reached then
      if all then
        let f := s.draw
        f.2.topologyConflict d (Config.freeNat f.1)
      else s
    else if !k.aligned then s
    else
      let c := s.enabledCounts d
      let s := s.setDie d { k with reported := true }
      let s := if d = die0 then s else s.enterStage d .hostInit
      s.sendMsg d die0 (.stage c.clusters c.cores c.arrays c.links k.failCode k.degraded)

/-- STAGE_REPORT: die 0 writes a die's counts into the capability table, and enters HOST_INIT once it has the report of
every die of the build (R252, R482). -/
def stageReport (s : State) (m : Nat) : State :=
  match s.msgAt m with
  | some (_, src, .stage clusters cores arrays links _ _) =>
    let s := s.takeMsg m
    let s := if s.capFixed then s
      else { s with caps := s.caps.put src { clusters := clusters, cores := cores, arrays := arrays, links := links } }
    let k := s.die die0
    if k.stage = .links ∧ k.reported ∧ (List.range s.build.dies).all (fun e => (s.caps.find? e).isSome) then
      s.enterStage die0 .hostInit
    else s
  | _ => s

/-- The conditions under which HOST_DONE is accepted (R484). -/
def hostReady (s : State) : Bool :=
  ((List.range 16).all fun p =>
    let mode := rootMode ((s.die die0).roots.get 0 p)
    !(decide (mode = 2) && s.partEnabled p) && !(decide (mode = 1) && !s.rootInval.get false p)) &&
  ((List.range s.build.dies).all fun e => s.reaches die0 e)

/-- A die raises READY (R484). -/
def raiseReady (s : State) (d : DieId) : State :=
  let s := s.enterStage d .ready
  (s.setDie d { s.die d with readyPin := true }).noteErr d (s.errDriven d)

/-- HOST_DONE: a Crown write of START_CTL. With a 1 in HOST_DONE die 0 fixes the capability table, sends the readiness
report to every die and raises READY; HOST_ERR is set where a condition fails; after READY it has no effect
(R484, Table 26-3). -/
def hostDone (s : State) (role strb : Byte) (v : W64) : State :=
  s.driverWrite role strb fun m =>
    let s := s.rsvdWrite die0 v m (BitVec.allOnes 64 - 1)
    let k := s.die die0
    if !bitAt (v &&& m).toNat 0 ∨ k.stage ≠ .hostInit then s
    else if !s.hostReady then s.setDie die0 { k with hostErr := true }
    else
      let s := { s with capFixed := true }
      ((s.allDies.filter fun e => decide (e ≠ die0)).foldl (fun s e => s.sendMsg die0 e (.readiness k.count)) s).raiseReady die0

/-- READINESS_REPORT: a die in HOST_INIT raises READY (R484). The report waits for a die that has gone back to an earlier
stage. -/
def readiness (s : State) (m : Nat) : State :=
  match s.msgAt m with
  | some (dst, _, .readiness _) =>
    let d := dieOf dst
    let k := s.die d
    if k.stage = .hostInit ∧ !k.stopped then (s.takeMsg m).raiseReady d else s
  | _ => s

/-- SUPPLY_DIP: F-0203, the safe-state request, and the compute part is held in reset (R31). -/
def supplyDip (s : State) (d : DieId) : State :=
  let k := s.die d
  if k.stage = .held ∨ k.heldSupply then s
  else
    let s := (s.setDie d { k with heldSupply := true }).reportFree d 0x0203
    if k.computeReset then s else (s.resetCompute d).linksReset d

/-- SUPPLY_RECOVERY: the supply has been at 0.65 V for 10 µs. Before READY a die whose compute part had been released
returns to PLAN; after READY the release is handled as a DIE reset (R31, R353, R485). -/
def supplyRecovery (s : State) (d : DieId) : State :=
  let k := s.die d
  if !k.heldSupply then s
  else
    let s := s.setDie d { k with heldSupply := false }
    if k.heldLadder ∨ k.dieReset then s
    else if k.stage = .ready then s.computeBack d
    else if (k.stage = .plan ∧ k.awaitPlan) ∨ k.stage = .selftest ∨ k.stage = .links ∨ k.stage = .hostInit then
      let s := s.setDie d { s.die d with startRestarts := satInc k.startRestarts, reported := false }
      (s.enterStage d .plan).computeRelease d
    else s

/-- RATE_WINDOW: a window of 1,000 counts is complete. Where the first of the consecutive windows begins is open, and whether
windows go on in reset: a window begins at each release of the compute part, and none is complete in reset. DESIGN CHOICE, log
entry 76. A rate below 1,200 at a request of 0x3C or more sets BELOW_FLOOR,
is reported as F-0202, and asks for a re-plan (R33, R381). -/
def rateWindow (s : State) (d : DieId) (rate : W16) : State :=
  let k := s.die d
  if k.computeReset ∨ s.since d k.windowAt < 1000 then s
  else
    let low := decide (rate.toNat < 1200) && decide (0x3C ≤ (s.steward d).vreq)
    let s := s.setDie d { k with
      rate := rate
      rateMin := if rate.toNat < k.rateMin.toNat then rate else k.rateMin
      belowFloor := k.belowFloor || low
      windowAt := k.ticks }
    let s := s.hmEvent d 5 (fun n => decide (n = 0)) (rate.truncate 32)
    if low then (s.regionsOn d).foldl (fun s r => s.askPlan d .periodic r) (s.reportFree d 0x0202) else s

end State

/-- BLK_RST_N_ASSERT (R465). -/
def execBlkRstNAssert (d : DieId) (s : State) : Host.Outcome State Fault Refusal := onDie s d (s.blockReset d)
/-- BLK_RST_N_RELEASE (R465). -/
def execBlkRstNRelease (d : DieId) (s : State) : Host.Outcome State Fault Refusal := onDie s d (s.blockRelease d)
/-- COMPUTE_PART_RELEASE (R402). -/
def execComputePartRelease (d : DieId) (s : State) : Host.Outcome State Fault Refusal := onDie s d (s.planRelease d)
/-- SELFTEST_VERDICT (R481). -/
def execSelftestVerdict (d : DieId) (fails : List ResetUnit) (dieFail : Nat) (s : State) : Host.Outcome State Fault Refusal :=
  onDie s d (s.selftest d fails dieFail)
/-- LINKS_END (R482). -/
def execLinksEnd (d : DieId) (s : State) : Host.Outcome State Fault Refusal := onDie s d (s.linksEnd d)
/-- STAGE_REPORT (R482). -/
def execStageReport (m : Nat) (s : State) : Host.Outcome State Fault Refusal := .next (s.stageReport m)
/-- HOST_DONE (R484). -/
def execHostDone (role strb : Byte) (v : W64) (s : State) : Host.Outcome State Fault Refusal := .next (s.hostDone role strb v)
/-- READINESS_REPORT (R484). -/
def execReadinessReport (m : Nat) (s : State) : Host.Outcome State Fault Refusal := .next (s.readiness m)
/-- SUPPLY_DIP (R31). -/
def execSupplyDip (d : DieId) (s : State) : Host.Outcome State Fault Refusal := onDie s d (s.supplyDip d)
/-- SUPPLY_RECOVERY (R31). -/
def execSupplyRecovery (d : DieId) (s : State) : Host.Outcome State Fault Refusal := onDie s d (s.supplyRecovery d)
/-- RATE_WINDOW (R33). -/
def execRateWindow (d : DieId) (rate : W16) (s : State) : Host.Outcome State Fault Refusal := onDie s d (s.rateWindow d rate)

end Sys2Proof.Machine
end

