-- ==== Sys2Proof/Machine/Regs.lean ====
section
/-!
DEFINITION. The registers as the Crown port and the debug port read and write them: the capability table, the global control
block, mailboxes, partition blocks, doorbells and die blocks (R8, R9, R252, R459, R478, R488 to R495).
-/
namespace Sys2Proof.Machine

/-- A 64-bit word of a list of bytes. -/
def wordAt (bs : List Byte) (off : Nat) : Nat := fieldAt bs off 8

/-- A region record of a dump, padded to a multiple of 16 bytes (R365). DESIGN CHOICE, log entry 49. -/
def DumpRegion.bytes (seqno : Nat) (r : DumpRegion) : List Byte :=
  let n := r.data.length
  bytesLE 1 r.id ++ bytesLE 1 r.status ++ bytesLE 2 r.unit ++ bytesLE 4 n ++ bytesLE 8 r.time.toNat ++ r.data ++
    (List.range (roundUp n 16 - n)).map (Config.padByte seqno)

/-- A dump as it lies in the store (Table 18-6). -/
def Dump.bytes (x : Dump) : List Byte :=
  let body := x.regions.flatMap (DumpRegion.bytes x.seqno)
  let unreach := x.regions.countP fun r => decide (r.status = 1)
  let head := bytesLE 4 0x504D5544 ++ bytesLE 1 x.level ++ bytesLE 1 x.die ++ bytesLE 2 x.unit ++ bytesLE 2 x.cause ++
    bytesLE 2 x.joined ++ bytesLE 2 x.regions.length ++ bytesLE 1 (min unreach 255) ++ bytesLE 1 x.trunc ++
    bytesLE 8 x.t0.toNat ++ bytesLE 8 x.tReset.toNat ++ bytesLE 4 (64 + body.length) ++ bytesLE 4 x.seqno ++
    List.replicate 20 0
  head ++ bytesLE 4 (crc32c (body ++ head)).toNat ++ body

/-- MRG (Table 20-2). -/
def Region.reg (r : Region) : Nat :=
  place r.slackMin.toNat 56 + place r.slack.toNat 48 + place r.ref.toNat 40 + place r.first 34 + place r.start 28 +
    place r.raises 20 + place (bit r.monFail) 15 + place (bit r.hard) 14 + r.code

/-- LINK_STAT (Table 15-9). -/
def Link.stat (k : Link) : Nat :=
  let st := match k.st with
    | .down => 0
    | .ident => 1
    | .report => 1
    | .align => 1
    | .active => 2
    | .retrain => 3
    | .failed => 4
    | .unused => 5
  place k.farDie 61 + place k.farLink 59 + place st 56 + place (min 3 (popcount 48 k.retired.toNat)) 54 +
    place (popcount 48 k.inverted.toNat) 48 + place (bit k.remapped) 47 + place k.retrains.toNat 32 +
    place k.replays.toNat 16 + k.crcErrors.toNat

/-- The number of a start-up stage (Table 26-1). -/
def Stage.num : Stage → Nat
  | .held => 0
  | .boot => 1
  | .replay => 2
  | .plan => 3
  | .selftest => 4
  | .links => 5
  | .hostInit => 6
  | .ready => 7

/-- START_STAT (Table 26-2). -/
def Die.startStat (k : Die) : Nat :=
  place k.failCode.toNat 48 + place k.startRestarts.toNat 32 + place k.entered.toNat 8 + place (bit k.hostErr) 7 +
    place (bit k.degraded) 6 + place (bit k.stopped) 5 + k.stage.num

/-- GC_STAT (Table 17-2). -/
def Die.gcStat (k : Die) : Nat :=
  place k.lastOffset.toNat 32 + place k.realigns.toNat 16 + place (bit k.skewErr) 2 + place (bit (decide (k.holding ≠ 0))) 1 +
    bit k.aligned

namespace State

/-- DUMP_STAT (Table 18-7). DESIGN CHOICE, log entry 49. -/
def dumpStat (s : State) (d : DieId) : Nat :=
  let k := s.die d
  place (min k.dumps.length 255) 56 + place k.dumpLost.toNat 48 + place (ceilDiv (s.dumpUsed d) 1024) 32 + place k.stray.toNat 16

/-- A word of the dump store: the dumps held lie one after the other from the oldest; other bytes are undefined (R365). -/
def dumpWord (s : State) (d : DieId) (off : Nat) : State × Nat :=
  let k := s.die d
  let held := k.dumps.flatMap Dump.bytes
  let at' := (off + 524288 - k.dumpBase) % 524288
  if at' + 8 ≤ held.length then (s, wordAt held at')
  else
    let f := s.draw
    (f.2, ofBytesLE ((List.range 8).map fun i => held.getD ((at' + i) % 524288) (Config.freeByte f.1 i)))

/-- A word of an overflow log slot: an entry held, or undefined bytes (R495). -/
def ovfWord (s : State) (d : DieId) (slot off : Nat) : State × Nat :=
  let k := s.die d
  match k.ovf[(slot + 64 - k.ovfHead) % 64]? with
  | some r => (s, wordAt r.bytes off)
  | none =>
    let f := s.draw
    (f.2, ofBytesLE ((List.range 8).map (Config.freeByte f.1)))

/-- The store error register of core `j` of cluster `c` of a die, or of the map store (`j` = 4): a unit beyond the build
reads 0; the read resets CE_COUNT (R182, R494). -/
def storeErrRead (s : State) (d : DieId) (c j : Nat) : Nat × State :=
  let k : ClusterId := ⟨d, Fin.ofNat 16 c⟩
  if !s.hasCluster k then (0, s)
  else if j = 4 then
    let x := (s.cluster k).map
    (x.errReg, s.setCluster k { s.cluster k with map := { x with ceCount := 0 } })
  else
    let m : CoreId := ⟨d, k.cl, Fin.ofNat 4 j⟩
    if s.hasCore m then
      let x := (s.core m).store
      (x.errReg, s.setCore m { s.core m with store := { x with ceCount := 0 } })
    else (0, s)

/-- A read of the first 256 bytes of a die block: the value, and the state in which the RC fields are reset (R9, R494). CP_STAT
of a command processor in reset reads as at reset (R362). A read of the lower half of TIME or CORR latches the upper half for the
read of it that follows (R37, R434). DEDUCED, log entry 57; DESIGN CHOICE, log entry 87. -/
def dieRegRead (s : State) (d : DieId) (o : Nat) : Option (Nat × State) :=
  let k := s.die d
  let n := s.net d
  match o with
  | 0x00 => some (bit k.rsvdWrite, s)
  | 0x08 => some (s.rateReg d, s.setDie d { k with rateMin := 0xFFFF })
  | 0x10 => some (if k.computeReset then 0 else s.cpStat d, if k.computeReset then s else s.setDie d { k with dbIgnored := 0, ovfLost := 0 })
  | 0x18 => some (k.fqStat, s.setDie d { k with merged := 0 })
  | 0x20 => some (0, s)
  | 0x28 => some (place k.hotThresh.toNat 48 + place k.hotPeriod.toNat 32, s)
  | 0x30 => some (s.mdStat d, s.setDie d { k with late := 0 })
  | 0x38 => some (k.gcStat, s.setDie d { k with realigns := 0 })
  | 0x40 => some (k.gcCap.toNat, s)
  | 0x48 => some (s.dumpStat d, s.setDie d { k with dumpLost := 0, stray := 0 })
  | 0x50 => some (k.dumpBase, s)
  | 0x58 => some (k.startStat, s)
  | 0x60 => some (k.ovfHead, s)
  | 0x68 => some (0, s)
  | 0x70 => some (n.bits % 2 ^ 64, s.setNet d { n with timeHigh := some (n.bits / 2 ^ 64) })
  | 0x78 => some (n.timeHigh.getD (n.bits / 2 ^ 64), s.setNet d { n with timeHigh := none })
  | 0x80 => some (n.corrSecs, s.setNet d { n with corrHigh := some n.corrCount.toNat })
  | 0x88 => some (n.corrHigh.getD n.corrCount.toNat, s.setNet d { n with corrHigh := none })
  | _ => none

/-- A read of a die block (R494, Table 27-5). -/
def dieRead (s : State) (d : DieId) (o : Nat) : Option (Nat × State) :=
  if o < 0x100 then s.dieRegRead d o
  else if o < 0x140 then
    let l : LinkId := ⟨d, Fin.ofNat 4 ((o - 0x100) / 16)⟩
    let k := s.link l
    if o % 16 = 0 then some (k.stat, s.setLink l { k with retrains := 0, replays := 0, crcErrors := 0 })
    else some (k.retired.toNat, s)
  else if 0x200 ≤ o ∧ o < 0x420 then
    let r := (o - 0x200) / 8
    let x := s.region d r
    some (x.reg, s.setRegion d r { x with slackMin := 0x7F, raises := 0 })
  else if 0x800 ≤ o ∧ o < 0xA00 then some (s.storeErrRead d ((o - 0x800) / 32) ((o - 0x800) / 8 % 4))
  else if 0xA00 ≤ o ∧ o < 0xA80 then some (s.storeErrRead d ((o - 0xA00) / 8) 4)
  else if 0x10000 ≤ o ∧ o < 0x20000 then
    let bs := match (s.die d).fq.find? ((o - 0x10000) / 64) with
      | some r => r.bytes s.build.cores
      | none => List.replicate 64 0
    some (wordAt bs (o % 64), s)
  else if 0x20000 ≤ o ∧ o < 0x21000 then
    let x := s.ovfWord d ((o - 0x20000) / 64) (o % 64)
    some (x.2, x.1)
  else if 0x40000 ≤ o ∧ o < 0x48000 then
    let m := s.monitor d ((o - 0x40000) / 0x400)
    let w := o % 0x400
    if w < 0x28 then some (m.reg (w / 8 + 1), s)
    else if 0x100 ≤ w ∧ w < 0x300 then some (m.reg (0x10 + (w - 0x100) / 8), s)
    else none
  else if 0x80000 ≤ o ∧ o < 0x100000 then
    some ((s.queue ⟨d, BitVec.ofNat 16 ((o - 0x80000) / 8)⟩).stateReg, s)
  else if 0x100000 ≤ o ∧ o < 0x180000 then
    let x := s.dumpWord d (o - 0x100000)
    some (x.2, x.1)
  else none

/-- OVF_CTL: a 1 in FREE frees the oldest entry (R495). -/
def ovfCtl (s : State) (d : DieId) (v m : W64) : State :=
  let s := s.rsvdWrite d v m 0x7FFFFFFFFFFFFFC0
  let k := s.die d
  if bitAt (v &&& m).toNat 63 && !k.ovf.isEmpty then
    s.setDie d { k with ovf := k.ovf.drop 1, ovfHead := (k.ovfHead + 1) % 64 }
  else s

/-- A write of the host driver in a die block; none where the driver may not write (R494). TR_CTL of a compute part in reset
stays at its reset value (R362). DEDUCED, log entry 57. -/
def dieWrite (s : State) (d : DieId) (o : Nat) (v m : W64) : Option State :=
  let k := s.die d
  let c := (v &&& m).toNat
  match o with
  | 0x00 => some ((s.setDie d { k with rsvdWrite := k.rsvdWrite && !bitAt c 0 }).rsvdWrite d v m (BitVec.allOnes 64 - 1))
  | 0x08 => some ((s.setDie d { k with
      belowFloor := k.belowFloor && !bitAt c 17
      tbLostFlag := k.tbLostFlag && !bitAt c 16 }).rsvdWrite d v m 0xFFFF)
  | 0x18 => some ((s.setDie d { k with
      hotSkip := k.hotSkip && !bitAt c 2
      fqFull := k.fqFull && !bitAt c 1
      ownViol := k.ownViol && !bitAt c 0 }).rsvdWrite d v m 0xFFF8)
  | 0x20 =>
    if fqAction c = 0 ∧ bitAt m.toNat 0 then some s
    else
      let s := s.rsvdWrite d v m fqRsv
      some (if bitAt m.toNat 0 then s.fqAnswer d c else s)
  | 0x28 =>
    let w := mergeW (BitVec.ofNat 64 (place k.hotThresh.toNat 48 + place k.hotPeriod.toNat 32)) v m
    if k.computeReset then some (s.rsvdWrite d v m 0xFFFFFFFF)
    else
    some ((s.setDie d { k with
      hotThresh := BitVec.ofNat 16 (field w.toNat 63 48)
      hotPeriod := BitVec.ofNat 16 (field w.toNat 47 32) }).rsvdWrite d v m 0xFFFFFFFF)
  | 0x38 => some ((s.setDie d { k with skewErr := k.skewErr && !bitAt c 2 }).rsvdWrite d v m 0xFFF8)
  | 0x48 => some (s.dumpStatWrite d v m)
  | 0x58 => some ((s.setDie d { k with hostErr := k.hostErr && !bitAt c 7 }).rsvdWrite d v m 0x0000FF0000000010)
  | 0x60 => some (s.ovfCtl d v m)
  | 0x68 => some (s.hmWrite d (v &&& m))
  | _ =>
    if 0x200 ≤ o ∧ o < 0x420 then
      let r := (o - 0x200) / 8
      let x := s.region d r
      let t := if bitAt c 14 then s.setRegion d r { x with hard := false } else s
      some (t.rsvdWrite d v m 0x00000000000F3FC0)
    else none

/-- A word of the capability table (Table 12-10). DEDUCED, log entry 57. -/
def capWord (s : State) (o : Nat) : Nat :=
  match o with
  | 0x00 => 0x5041434D + place 0x0100 32 + place 0x0300 48
  | 0x08 => 0x00030001 + place (place s.build.dies 24 + place s.build.clusters 16 + place s.build.cores 8 + s.build.arrays) 32
  | 0x10 => 16 + place 16384 16 + place 65536 32
  | 0x18 => 1048576 + place 4096 32 + place 255 48 + place 48 56
  | 0x20 => 1056768 + place 6320128 32
  | _ =>
    if o < 0x100 then 0
    else
      let d := (o - 0x100) / 0x40
      let x := s.caps.get {} d
      if s.build.dies ≤ d then 0
      else
        match o % 0x40 with
        | 0x00 => x.clusters + place x.cores 32
        | 0x08 => x.arrays + place x.links.toNat 32
        | 0x10 => (Config.hpaBase d).toNat
        | _ => 0

/-- The role that owns a mailbox (R406). -/
def mailboxRole (k : Nat) : Option Role :=
  if k = 0 then some .driver else if k = 1 then some .safety
  else if h : k - 2 < 16 then some (.partition ⟨k - 2, h⟩) else none

/-- A read of a mailbox page (Table 21-6). -/
def mailboxRead (s : State) (k w : Nat) : Option Nat :=
  let m := (s.steward die0).mailboxes.get {} k
  if w < 0x20 then some (wordAt m.req w)
  else if w < 0x40 then some (wordAt m.resp (w - 0x20))
  else if w = 0x40 then
    some (place m.doneCount.toNat 16 + place (bit m.ovr) 3 + place (bit m.irqEn) 2 + place (bit m.busy) 1)
  else none

/-- A write to a mailbox page: the request block, the response block, which is read-only, and MB_CTL (R406).
DEDUCED, log entry 59. -/
def mailboxWrite (s : State) (k w : Nat) (v mask : W64) : Option State :=
  let st := s.steward die0
  let m := st.mailboxes.get {} k
  let put := fun (s : State) (x : Mailbox) => s.setSteward die0 { s.steward die0 with mailboxes := (s.steward die0).mailboxes.put k x }
  let c := (v &&& mask).toNat
  if w < 0x20 then some (put s { m with req := putCovered m.req w v mask })
  else if w < 0x40 then some s
  else if w = 0x40 then
    let go := bitAt c 0
    some ((put s { m with
      ovr := (m.ovr && !bitAt c 3) || (go && m.busy)
      irqEn := if bitAt mask.toNat 2 then bitAt c 2 else m.irqEn
      busy := m.busy || go }).rsvdWrite die0 v mask 0xFFFFFFFF0000FFF0)
  else none

/-- RING_CFG (Table 27-3). -/
def ringCfg (g : Ring) : Nat := place (bit g.irqEn) 7 + place (bit g.enable) 6 + g.log2

/-- A write of RING_BASE: refused while the ring is enabled, and where it is not a multiple of 4,096 (R492). -/
def ringBase (s : State) (p r : Nat) (v m : W64) : Option State :=
  let g := s.ring p r
  let new := mergeW g.base v m
  if g.enable ∨ new.toNat % 4096 ≠ 0 then none else some (s.setRing p r { g with base := new })

/-- A write of RING_CFG: refused for a LOG2 outside 6 to 16, or a new LOG2 while the ring is enabled; setting ENABLE sets WR
and RD to 0 (R492). -/
def ringCfgPut (s : State) (p r : Nat) (v m : W64) : Option State :=
  let g := s.ring p r
  let new := (mergeW (BitVec.ofNat 64 (ringCfg g)) v m).toNat
  let log2 := field new 4 0
  if !inRange log2 6 16 ∨ (g.enable ∧ log2 ≠ g.log2) then none
  else
    let en := bitAt new 6
    let t := s.setRing p r { g with
      irqEn := bitAt new 7
      enable := en
      log2 := log2
      wr := if en && !g.enable then 0 else g.wr
      rd := if en && !g.enable then 0 else g.rd }
    some (t.rsvdWrite die0 v m 0xFFFFFFFFFFFFFF20)

/-- A write of RING_RD: refused below the present RD and above WR (R492). -/
def ringRd (s : State) (p r : Nat) (v m : W64) : Option State :=
  let g := s.ring p r
  let new := mergeW g.rd v m
  if new < g.rd ∨ g.wr < new then none else some (s.setRing p r { g with rd := new })

/-- The base of an object table at an offset of the global control block, and whether an object of the table is not FREE
(R490). -/
def tableBase (s : State) (o : Nat) : Option (W64 × Bool × (W64 → State)) :=
  if o = 0 then some (s.ctxTbl, s.ctxs.entries.any fun e => decide (e.2.st ≠ .free), fun v => { s with ctxTbl := v })
  else if o = 8 then some (s.moTbl, s.mos.entries.any fun e => decide (e.2.st ≠ .free), fun v => { s with moTbl := v })
  else if 0x10 ≤ o ∧ o < 0x50 ∧ (o - 0x10) / 8 < s.build.dies then
    let d := (o - 0x10) / 8
    some (s.qTbl.get 0 d, s.queues.entries.any fun e => decide ((queueOf e.1).die.val = d) && decide (e.2.st ≠ .free),
      fun v => { s with qTbl := s.qTbl.setD 0 d v })
  else none

/-- A write of an object table base (R490). -/
def tableWrite (s : State) (o : Nat) (v m : W64) : Option State :=
  match s.tableBase o with
  | none => none
  | some (old, used, set) =>
    if used then none
    else some ((set (mergeW old (v &&& 0x000FFFFFFFFFF000) m)).rsvdWrite die0 v m 0xFFF0000000000FFF)

/-- Whether a partition role may reach a queue's doorbell (R488, R493). -/
def ownQueue (s : State) (p : Fin 16) (q : QueueId) : Bool := decide ((s.queue q).st = .free) || decide (s.queuePart q = p.val)

/-- A read in the global control block, by the offset in it (Table 27-2). -/
def globalRead (s : State) (g : Nat) : Option (Nat × State) :=
  match s.tableBase g with
  | some x => some (x.1.toNat, s)
  | none =>
    if 0x80 ≤ g ∧ g < 0xA0 then some (wordAt s.objReq (g - 0x80), s)
    else if g = 0xA0 then some (place (bit s.objOvf) 8 + s.objHeld.length, s)
    else if g = 0xA8 then some (0, s)
    else none

/-- A read in a partition's block, by the offset in it: PART_ROOT and the event rings (Table 27-3).
DEDUCED, log entry 58. -/
def partRead (s : State) (p w : Nat) : Option (Nat × State) :=
  if w < 0x10 then some ((s.partRoot.get 0 p).toNat / 2 ^ (8 * w) % 2 ^ 64, s)
  else if 0x2000 ≤ w ∧ w < 0x4000 then
    let g := s.ring p ((w - 0x2000) / 0x20)
    match w % 0x20 with
    | 0x00 => some (g.base.toNat, s)
    | 0x08 => some (ringCfg g, s)
    | 0x10 => some (g.wr.toNat, s)
    | _ => some (g.rd.toNat, s)
  else none

/-- A read at an offset of the Crown window: the value and the state after it; none for an error response (R478, R488). -/
def crownReadAt (s : State) (role : Role) (o : Nat) : Option (Nat × State) :=
  if o < 0x1000 then (if o < 0x300 then some (s.capWord o, s) else none)
  else if 0x10000 ≤ o ∧ o < 0x22000 then
    let k := (o - 0x10000) / 0x1000
    if mailboxRole k = some role ∧ (s.crownOpen ∨ k < 2) then (s.mailboxRead k (o % 0x1000)).map fun v => (v, s) else none
  else
    let driver := decide (role = .driver)
    let both := driver || decide (role = .safety)
    let start := decide (0x8000000 ≤ o) && decide (o % 0x1000000 = 0x58)
    if !s.crownOpen && !start then none
    else if 0x1000 ≤ o ∧ o < 0x2000 then
      if !both then none
      else s.globalRead (o - 0x1000)
    else if 0x100000 ≤ o ∧ o < 0x200000 then
      let p := (o - 0x100000) / 0x10000
      let mine := match role with
        | .partition x => decide (x.val = p)
        | _ => false
      if !driver && !mine then none
      else s.partRead p (o % 0x10000)
    else if 0x400000 ≤ o ∧ o < 0x800000 then
      let q := queueOf ((o - 0x400000) / 8)
      let allowed := match role with
        | .driver => true
        | .partition p => s.ownQueue p q
        | .safety => false
      if allowed && s.hasDie q.die then some ((s.queue q).fill.toNat, s) else none
    else if 0x8000000 ≤ o then
      let d := (o - 0x8000000) / 0x1000000
      if both && decide (d < s.build.dies) then s.dieRead (dieOf d) (o % 0x1000000) else none
    else none

/-- A Crown write whose covered bits act, or that receives an error response (R459). -/
def crownTry (s : State) (strb : Byte) (allowed : Bool) (act : W64 → Option State) : State :=
  match strobes strb with
  | none => s.crownErr
  | some m =>
    if !allowed then s.crownErr
    else
      match act m with
      | some t => t.crownOk
      | none => s.crownErr

/-- A write to an event ring register: BASE and CFG by the driver, RD by the driver or the partition; WR is read-only
(R491, Table 27-3). DEDUCED, log entry 59. -/
def ringWrite (s : State) (role strb : Byte) (p : Fin 16) (r reg : Nat) (v : W64) : State :=
  let x := roleOf role
  let driver := decide (x = some .driver)
  let own := driver || decide (x = some (.partition p))
  match reg with
  | 0x00 => s.crownTry strb (s.crownOpen && driver) (s.ringBase p.val r v)
  | 0x08 => s.crownTry strb (s.crownOpen && driver) (s.ringCfgPut p.val r v)
  | 0x10 => s.crownTry strb (s.crownOpen && driver) fun _ => some s
  | _ => s.crownTry strb (s.crownOpen && own) (s.ringRd p.val r v)

/-- A write at an offset of the Crown window (R459, R478, R488). The port of a block in reset serves nothing (R465, R473). -/
def crownWrite (s : State) (role strb : Byte) (o : Nat) (v : W64) : State :=
  let x := roleOf role
  let driver := s.crownOpen && decide (x = some .driver)
  if (s.die die0).stage = .held then s
  else if 0x10000 ≤ o ∧ o < 0x22000 then
    let k := (o - 0x10000) / 0x1000
    s.crownTry strb (decide (x ≠ none) && decide (mailboxRole k = x) && (s.crownOpen || decide (k < 2)))
      (s.mailboxWrite k (o % 0x1000) v)
  else if 0x1080 ≤ o ∧ o < 0x10A0 then s.objWrite role strb (o - 0x1080) v
  else if o = 0x10A0 then
    s.crownTry strb driver fun m =>
      some (({ s with objOvf := s.objOvf && !bitAt (v &&& m).toNat 8 }).rsvdWrite die0 v m 0xFFFFFFFFFFFFFE80)
  else if o = 0x10A8 then s.hostDone role strb v
  else if 0x1000 ≤ o ∧ o < 0x2000 then s.crownTry strb driver (s.tableWrite (o - 0x1000) v)
  else if 0x100000 ≤ o ∧ o < 0x200000 then
    let p : Fin 16 := Fin.ofNat 16 ((o - 0x100000) / 0x10000)
    let w := o % 0x10000
    if w < 0x10 then s.rootWrite role strb p (decide (w = 8)) v
    else if 0x2000 ≤ w ∧ w < 0x4000 then s.ringWrite role strb p ((w - 0x2000) / 0x20) (w % 0x20) v
    else s.crownErr
  else if 0x400000 ≤ o ∧ o < 0x800000 then s.doorbell role strb (queueOf ((o - 0x400000) / 8)) v
  else if 0x8000000 ≤ o then
    let d := (o - 0x8000000) / 0x1000000
    s.crownTry strb (driver && decide (d < s.build.dies)) (s.dieWrite (dieOf d) (o % 0x1000000) v)
  else s.crownErr

end State

end Sys2Proof.Machine
end

