-- ==== Sys2Proof/Machine/Ports.lean ====
section
/-!
DEFINITION. The commands of the Crown port, the interrupt message port and the debug port (R13, R459 to R461, R470, R490 to
R497).
-/
namespace Sys2Proof.Machine

namespace State

/-- REGISTER_READ: a Crown read. Only die 0's port accepts accesses (R13). -/
def registerRead (s : State) (d : DieId) (role : Byte) (off : BitVec 28) : State :=
  if d ≠ die0 then s.portErr d
  else if (s.die die0).stage = .held then s
  else
    match roleOf role with
    | none => s.crownErr
    | some r =>
      match s.crownReadAt r (off.toNat / 8 * 8) with
      | some (v, t) => { t with crown := ⟨false, BitVec.ofNat 64 v⟩ }
      | none => s.crownErr

/-- REGISTER_WRITE: a Crown write. -/
def registerWrite (s : State) (d : DieId) (role strb : Byte) (off : BitVec 28) (v : W64) : State :=
  if d ≠ die0 then s.portErr d else s.crownWrite role strb (off.toNat / 8 * 8) v

/-- TABLE_BASE_WRITE: a write of an object table base, at its offset in the window. -/
def tableBaseWrite (s : State) (role strb : Byte) (off : BitVec 28) (v : W64) : State :=
  let o := off.toNat / 8 * 8
  if 0x1000 ≤ o ∧ o < 0x1050 then s.crownWrite role strb o v else s

/-- OVF_CTL_FREE: a write of OVF_CTL of a die. -/
def ovfFree (s : State) (role strb : Byte) (d : DieId) (v : W64) : State :=
  if !s.hasDie d then s.crownErr else s.driverWrite role strb (s.ovfCtl d v)

/-- INTERRUPT_MESSAGE: the oldest message of a die transfers (R461). -/
def imTransfer (s : State) (d : DieId) : State :=
  match s.im.get [] d.val with
  | x :: rest => { s with im := s.im.setD [] d.val rest, imSent := some x }
  | [] => s

/-- DBG_DATA: one access at DBG_ADDR with the rights of the host driver, to the die's own block or its dump store. Writes are
performed in a development part only, and the first of a session is reported (R470, R497). DEDUCED, log entry 60. -/
def debugAccess (s : State) (d : DieId) (addr : W32) (write : Bool) (v : W64) : State :=
  let o := field addr.toNat 27 3 * 8
  let at' := if bitAt addr.toNat 31 then (if o < 0x80000 then some (0x100000 + o) else none)
    else if o < 0x1000000 then some o else none
  let s := s.setDebug d { s.debug d with tap := .updateDr, ir := 0x3, addr := addr, write := write }
  let fail := fun (s : State) => s.setDebug d { s.debug d with err := true, data := 0 }
  match at' with
  | none => fail s
  | some w =>
    if (s.die d).stage = .held then fail s
    else if !write then
      match s.dieRead d w with
      | some (x, t) => t.setDebug d { t.debug d with err := false, data := BitVec.ofNat 64 x }
      | none => fail s
    else if !Config.development d.val then fail s
    else
      let s := if (s.debug d).wrote then s else (s.report d 0x2502 addr.toNat).setDebug d { s.debug d with wrote := true }
      match s.dieWrite d w v (BitVec.allOnes 64) with
      | some t => t.setDebug d { t.debug d with err := false }
      | none => fail s

/-- DBG_TRST_N: the test access port goes to its reset state, with IDCODE in the instruction register, and the session ends
(R470). DEDUCED, log entry 60. -/
def debugReset (s : State) (d : DieId) : State := s.setDebug d {}

end State

/-- REGISTER_READ (R9). -/
def execRegisterRead (d : DieId) (role : Byte) (off : BitVec 28) (s : State) : Host.Outcome State Fault Refusal :=
  onDie s d (s.registerRead d role off)
/-- REGISTER_WRITE (R459). -/
def execRegisterWrite (d : DieId) (role strb : Byte) (off : BitVec 28) (v : W64) (s : State) : Host.Outcome State Fault Refusal :=
  onDie s d (s.registerWrite d role strb off v)
/-- TABLE_BASE_WRITE (R490). -/
def execTableBaseWrite (role strb : Byte) (off : BitVec 28) (v : W64) (s : State) : Host.Outcome State Fault Refusal :=
  .next (s.tableBaseWrite role strb off v)
/-- RING_BASE_WRITE (R492). -/
def execRingBaseWrite (role strb : Byte) (p : Fin 16) (r : Byte) (v : W64) (s : State) : Host.Outcome State Fault Refusal :=
  .next (s.ringWrite role strb p r.toNat 0x00 v)
/-- RING_CFG_WRITE (R492). -/
def execRingCfgWrite (role strb : Byte) (p : Fin 16) (r : Byte) (v : W64) (s : State) : Host.Outcome State Fault Refusal :=
  .next (s.ringWrite role strb p r.toNat 0x08 v)
/-- RING_RD_WRITE (R492). -/
def execRingRdWrite (role strb : Byte) (p : Fin 16) (r : Byte) (v : W64) (s : State) : Host.Outcome State Fault Refusal :=
  .next (s.ringWrite role strb p r.toNat 0x18 v)
/-- OVF_CTL_FREE (R495). -/
def execOvfCtlFree (role strb : Byte) (d : DieId) (v : W64) (s : State) : Host.Outcome State Fault Refusal :=
  .next (s.ovfFree role strb d v)
/-- INTERRUPT_MESSAGE (R461). -/
def execInterruptMessage (d : DieId) (s : State) : Host.Outcome State Fault Refusal := onDie s d (s.imTransfer d)
/-- DBG_DATA (R470). -/
def execDbgData (d : DieId) (addr : W32) (write : Bool) (v : W64) (s : State) : Host.Outcome State Fault Refusal :=
  onDie s d (s.debugAccess d addr write v)
/-- DBG_TRST_N (R470). -/
def execDbgTrstN (d : DieId) (s : State) : Host.Outcome State Fault Refusal := onDie s d (s.debugReset d)

end Sys2Proof.Machine
end

