-- ==== Sys2Proof/Machine/Scalar.lean ====
section
/-!
DEFINITION. The scalar instructions of the sequencer, one definition for each (R95, R96, R100 to R104, R109, R111).
-/
namespace Sys2Proof.Machine

/-- rd takes s[rs1] + s[rs2] (R100). -/
def execAdd (c : CoreId) (w : W32) (s : State) : Host.Outcome State Fault Refusal :=
  onCore s c (s.scalar c w 0x00 encR (aluR w ((· + ·))))

/-- rd takes s[rs1] - s[rs2] (R100). -/
def execSub (c : CoreId) (w : W32) (s : State) : Host.Outcome State Fault Refusal :=
  onCore s c (s.scalar c w 0x01 encR (aluR w ((· - ·))))

/-- Bitwise AND (R100). -/
def execAnd (c : CoreId) (w : W32) (s : State) : Host.Outcome State Fault Refusal :=
  onCore s c (s.scalar c w 0x02 encR (aluR w ((· &&& ·))))

/-- Bitwise OR (R100). -/
def execOr (c : CoreId) (w : W32) (s : State) : Host.Outcome State Fault Refusal :=
  onCore s c (s.scalar c w 0x03 encR (aluR w ((· ||| ·))))

/-- Bitwise XOR (R100). -/
def execXor (c : CoreId) (w : W32) (s : State) : Host.Outcome State Fault Refusal :=
  onCore s c (s.scalar c w 0x04 encR (aluR w ((· ^^^ ·))))

/-- Shift left by s[rs2][5:0] (R100). -/
def execShl (c : CoreId) (w : W32) (s : State) : Host.Outcome State Fault Refusal :=
  onCore s c (s.scalar c w 0x05 encR (aluR w (fun a b => a <<< (b.toNat % 64))))

/-- Shift right with zero fill (R100). -/
def execShr (c : CoreId) (w : W32) (s : State) : Host.Outcome State Fault Refusal :=
  onCore s c (s.scalar c w 0x06 encR (aluR w (fun a b => a >>> (b.toNat % 64))))

/-- Shift right with sign fill (R100). -/
def execSra (c : CoreId) (w : W32) (s : State) : Host.Outcome State Fault Refusal :=
  onCore s c (s.scalar c w 0x07 encR (aluR w (fun a b => a.sshiftRight (b.toNat % 64))))

/-- Low 64 bits of the product (R100). -/
def execMul (c : CoreId) (w : W32) (s : State) : Host.Outcome State Fault Refusal :=
  onCore s c (s.scalar c w 0x08 encR (aluR w ((· * ·))))

/-- High 64 bits of the signed product (R100). -/
def execMulh (c : CoreId) (w : W32) (s : State) : Host.Outcome State Fault Refusal :=
  onCore s c (s.scalar c w 0x09 encR (aluR w (fun a b => BitVec.ofInt 64 (a.toInt * b.toInt / 2 ^ 64))))

/-- High 64 bits of the unsigned product (R100). -/
def execMulhu (c : CoreId) (w : W32) (s : State) : Host.Outcome State Fault Refusal :=
  onCore s c (s.scalar c w 0x0A encR (aluR w (fun a b => BitVec.ofNat 64 (a.toNat * b.toNat / 2 ^ 64))))

/-- Signed minimum (R100). -/
def execMin (c : CoreId) (w : W32) (s : State) : Host.Outcome State Fault Refusal :=
  onCore s c (s.scalar c w 0x0B encR (aluR w (fun a b => if a.toInt ≤ b.toInt then a else b)))

/-- Signed maximum (R100). -/
def execMax (c : CoreId) (w : W32) (s : State) : Host.Outcome State Fault Refusal :=
  onCore s c (s.scalar c w 0x0C encR (aluR w (fun a b => if a.toInt ≤ b.toInt then b else a)))

/-- Unsigned minimum (R100). -/
def execMinu (c : CoreId) (w : W32) (s : State) : Host.Outcome State Fault Refusal :=
  onCore s c (s.scalar c w 0x0D encR (aluR w (fun a b => if a.toNat ≤ b.toNat then a else b)))

/-- Unsigned maximum (R100). -/
def execMaxu (c : CoreId) (w : W32) (s : State) : Host.Outcome State Fault Refusal :=
  onCore s c (s.scalar c w 0x0E encR (aluR w (fun a b => if a.toNat ≤ b.toNat then b else a)))

/-- Unsigned division; all ones for a divisor of 0 (R100). -/
def execDivu (c : CoreId) (w : W32) (s : State) : Host.Outcome State Fault Refusal :=
  onCore s c (s.scalar c w 0x0F encR (aluR w (fun a b => if b = 0 then BitVec.allOnes 64 else a / b)))

/-- Unsigned remainder; the dividend for a divisor of 0 (R100). -/
def execRemu (c : CoreId) (w : W32) (s : State) : Host.Outcome State Fault Refusal :=
  onCore s c (s.scalar c w 0x10 encR (aluR w (fun a b => if b = 0 then a else a % b)))

/-- Add the signed immediate (R100). -/
def execAddi (c : CoreId) (w : W32) (s : State) : Host.Outcome State Fault Refusal :=
  onCore s c (s.scalar c w 0x11 encI (aluI w ((· + ·))))

/-- AND with the signed immediate (R100). -/
def execAndi (c : CoreId) (w : W32) (s : State) : Host.Outcome State Fault Refusal :=
  onCore s c (s.scalar c w 0x12 encI (aluI w ((· &&& ·))))

/-- OR with the signed immediate (R100). -/
def execOri (c : CoreId) (w : W32) (s : State) : Host.Outcome State Fault Refusal :=
  onCore s c (s.scalar c w 0x13 encI (aluI w ((· ||| ·))))

/-- XOR with the signed immediate (R100). -/
def execXori (c : CoreId) (w : W32) (s : State) : Host.Outcome State Fault Refusal :=
  onCore s c (s.scalar c w 0x14 encI (aluI w ((· ^^^ ·))))

/-- Shift left by imm9[5:0] (R100). -/
def execShli (c : CoreId) (w : W32) (s : State) : Host.Outcome State Fault Refusal :=
  onCore s c (s.scalar c w 0x15 encShift (aluI w (fun a b => a <<< (b.toNat % 64))))

/-- Shift right by imm9[5:0], zero fill (R100). -/
def execShri (c : CoreId) (w : W32) (s : State) : Host.Outcome State Fault Refusal :=
  onCore s c (s.scalar c w 0x16 encShift (aluI w (fun a b => a >>> (b.toNat % 64))))

/-- Shift right by imm9[5:0], sign fill (R100). -/
def execSrai (c : CoreId) (w : W32) (s : State) : Host.Outcome State Fault Refusal :=
  onCore s c (s.scalar c w 0x17 encShift (aluI w (fun a b => a.sshiftRight (b.toNat % 64))))

/-- Multiply by the signed immediate (R100). -/
def execMuli (c : CoreId) (w : W32) (s : State) : Host.Outcome State Fault Refusal :=
  onCore s c (s.scalar c w 0x18 encI (aluI w ((· * ·))))

/-- rd takes the signed imm14 (R100). -/
def execLi (c : CoreId) (w : W32) (s : State) : Host.Outcome State Fault Refusal :=
  onCore s c (s.scalar c w 0x19 encAny fun _ r => r.result (fRd w) (sext 14 (fImm14 w)))

/-- rd is shifted left by 14 and takes imm14 in its low bits (R100). -/
def execLis (c : CoreId) (w : W32) (s : State) : Host.Outcome State Fault Refusal :=
  onCore s c (s.scalar c w 0x1A encAny fun _ r =>
    r.result (fRd w) ((r.read (fRd w) <<< 14) ||| BitVec.ofNat 64 (fImm14 w)))

/-- pd takes the comparison of two registers (R101). -/
def execCmp (c : CoreId) (w : W32) (s : State) : Host.Outcome State Fault Refusal :=
  onCore s c (s.scalar c w 0x1B encP fun _ r =>
    { r.goOn with p := r.predPut (fPd w) (cmp (fPCC w) (r.read (fPRs1 w)) (r.read (fPRs2 w))) })

/-- pd takes the comparison of a register and the signed imm7 (R101). -/
def execCmpi (c : CoreId) (w : W32) (s : State) : Host.Outcome State Fault Refusal :=
  onCore s c (s.scalar c w 0x1C encPI fun _ r =>
    { r.goOn with p := r.predPut (fPd w) (cmp (fPICC w) (r.read (fPRs1 w)) (fImm7 w)) })

/-- pd takes the bit of LOP that two predicates choose (R100). -/
def execPlog (c : CoreId) (w : W32) (s : State) : Host.Outcome State Fault Refusal :=
  onCore s c (s.scalar c w 0x1D encPL fun _ r =>
    { r.goOn with p := r.predPut (fPd w) (plog (fLop w) (r.pred (fPa w)) (r.pred (fPb w))) })

/-- rd takes the predicates (R100). -/
def execPrd (c : CoreId) (w : W32) (s : State) : Host.Outcome State Fault Refusal :=
  onCore s c (s.scalar c w 0x1E encRd fun _ r => r.result (fRd w) (BitVec.ofNat 64 r.preds))

/-- p1 to p7 take bits 1 to 7 of s[rs1] (R100). -/
def execPwr (c : CoreId) (w : W32) (s : State) : Host.Outcome State Fault Refusal :=
  onCore s c (s.scalar c w 0x1F encRs1 fun _ r =>
    { r.goOn with p := BitVec.ofNat 8 (setField ((r.read (fRs1 w)).toNat % 256) 0 0 0) })

/-- rd takes the time counter (R37, R100). -/
def execTime (c : CoreId) (w : W32) (s : State) : Host.Outcome State Fault Refusal :=
  onCore s c (s.scalar c w 0x20 encRd fun i r => r.result (fRd w) i.time)

/-- Load 1 byte from device memory, extended by the sign (R102). -/
def execLdb (c : CoreId) (w : W32) (s : State) : Host.Outcome State Fault Refusal :=
  onCore s c (s.scalar c w 0x21 encAny (loadEff w 1 true))

/-- Load 1 byte from device memory, extended by zeros (R102). -/
def execLdbu (c : CoreId) (w : W32) (s : State) : Host.Outcome State Fault Refusal :=
  onCore s c (s.scalar c w 0x22 encAny (loadEff w 1 false))

/-- Load 2 bytes from device memory, extended by the sign (R102). -/
def execLdh (c : CoreId) (w : W32) (s : State) : Host.Outcome State Fault Refusal :=
  onCore s c (s.scalar c w 0x23 encAny (loadEff w 2 true))

/-- Load 2 bytes from device memory, extended by zeros (R102). -/
def execLdhu (c : CoreId) (w : W32) (s : State) : Host.Outcome State Fault Refusal :=
  onCore s c (s.scalar c w 0x24 encAny (loadEff w 2 false))

/-- Load 4 bytes from device memory, extended by the sign (R102). -/
def execLdw (c : CoreId) (w : W32) (s : State) : Host.Outcome State Fault Refusal :=
  onCore s c (s.scalar c w 0x25 encAny (loadEff w 4 true))

/-- Load 4 bytes from device memory, extended by zeros (R102). -/
def execLdwu (c : CoreId) (w : W32) (s : State) : Host.Outcome State Fault Refusal :=
  onCore s c (s.scalar c w 0x26 encAny (loadEff w 4 false))

/-- Load 8 bytes from device memory (R102). -/
def execLdd (c : CoreId) (w : W32) (s : State) : Host.Outcome State Fault Refusal :=
  onCore s c (s.scalar c w 0x27 encAny (loadEff w 8 true))

/-- Store the 1 low byte of s[rt] to device memory (R102). -/
def execStb (c : CoreId) (w : W32) (s : State) : Host.Outcome State Fault Refusal :=
  onCore s c (s.scalar c w 0x28 encAny (storeEff w 1))

/-- Store the 2 low bytes of s[rt] to device memory (R102). -/
def execSth (c : CoreId) (w : W32) (s : State) : Host.Outcome State Fault Refusal :=
  onCore s c (s.scalar c w 0x29 encAny (storeEff w 2))

/-- Store the 4 low bytes of s[rt] to device memory (R102). -/
def execStw (c : CoreId) (w : W32) (s : State) : Host.Outcome State Fault Refusal :=
  onCore s c (s.scalar c w 0x2A encAny (storeEff w 4))

/-- Store the 8 low bytes of s[rt] to device memory (R102). -/
def execStd (c : CoreId) (w : W32) (s : State) : Host.Outcome State Fault Refusal :=
  onCore s c (s.scalar c w 0x2B encAny (storeEff w 8))

/-- Load 8 bytes from core store (R103). -/
def execLdcd (c : CoreId) (w : W32) (s : State) : Host.Outcome State Fault Refusal :=
  onCore s c (s.scalar c w 0x2C encAny (csEff w fun a => .loadCs (fRd w) a))

/-- Store 8 bytes to core store (R103). -/
def execStcd (c : CoreId) (w : W32) (s : State) : Host.Outcome State Fault Refusal :=
  onCore s c (s.scalar c w 0x2D encAny fun i r => csEff w (fun a => .storeCs a (r.read (fRd w))) i r)

/-- Wait until every earlier store of the sequencer is complete (R102). -/
def execFence (c : CoreId) (w : W32) (s : State) : Host.Outcome State Fault Refusal :=
  onCore s c (s.scalar c w 0x2E encN (stayEff .fence))

/-- Branch by a signed offset (R104). -/
def execBr (c : CoreId) (w : W32) (s : State) : Host.Outcome State Fault Refusal :=
  onCore s c (s.scalar c w 0x30 encAny fun _ r => { r.goOn with pc := r.pc + fOff19 w })

/-- Push the return index and branch (R95). -/
def execCall (c : CoreId) (w : W32) (s : State) : Host.Outcome State Fault Refusal :=
  onCore s c (s.scalar c w 0x31 encAny (callEff fun r => r.pc + fOff19 w))

/-- Push the return index and branch to s[rs1] plus an offset (R95). -/
def execCallr (c : CoreId) (w : W32) (s : State) : Host.Outcome State Fault Refusal :=
  onCore s c (s.scalar c w 0x32 encCallr (callEff fun r => r.read (fRs1 w) + fImm9 w))

/-- Pop the return index into PC (R95). -/
def execRet (c : CoreId) (w : W32) (s : State) : Host.Outcome State Fault Refusal :=
  onCore s c (s.scalar c w 0x33 encN fun _ r =>
    match r.stack.getLast? with
    | none => { r.goOn with trap := some (0x0506, 0, 0) }
    | some x => { r.goOn with pc := x, stack := .pop })

/-- rd takes a control register; WPAD clears on the read (R96, R211). -/
def execCrd (c : CoreId) (w : W32) (s : State) : Host.Outcome State Fault Refusal :=
  onCore s c (s.scalar c w 0x34 encCrd fun i r =>
    match i.creg with
    | none => { r.goOn with trap := some (0x0505, 0, fCreg w) }
    | some v => { r.result (fRd w) v with req := .cread (fCreg w) })

/-- A control register takes s[rs1], under its access code (R96). -/
def execCwr (c : CoreId) (w : W32) (s : State) : Host.Outcome State Fault Refusal :=
  onCore s c (s.scalar c w 0x35 encCwr fun i r =>
    match i.creg with
    | none => { r.goOn with trap := some (0x0505, 0, fCreg w) }
    | some _ => { r.goOn with req := .cwrite (fCreg w) (r.read (fRs1 w)) })

/-- Raise F-0507 with imm14 as its code (R100). -/
def execTrap (c : CoreId) (w : W32) (s : State) : Host.Outcome State Fault Refusal :=
  onCore s c (s.scalar c w 0x36 encTrap fun _ r => { r.goOn with trap := some (0x0507, 0, fImm14 w) })

/-- A preemption point, which waits for the engines and link credits; with a semaphore held it only goes on (R109). -/
def execYield (c : CoreId) (w : W32) (s : State) : Host.Outcome State Fault Refusal :=
  onCore s c (s.scalar c w 0x37 encN (stayEff .yield))

/-- End the part of the core, after the waits of YIELD (R111). -/
def execEndCmd (c : CoreId) (w : W32) (s : State) : Host.Outcome State Fault Refusal :=
  onCore s c (s.scalar c w 0x38 encN (stayEff .done))

end Sys2Proof.Machine
end

