-- ==== Sys2Proof/Machine/Time.lean ====
section
/-!
DEFINITION. Time: the timebase edge with the time counter, device time and the monitors' masks, the loss of the timebase,
the alignment of the counters, pulses and correlation (R37 to R39, R343 to R346, R433, R440 to R442, R450, R451).
-/
namespace Sys2Proof.Machine

/-- One second in units of 2^-32 ns. -/
def secondUnits : Nat := 1000000000 * 2 ^ 32

/-- Device time at the next count: 10 ns and ADJ are added with a carry into the seconds; a step sets the whole time
(R433, R434). The advance of the seconds by the carry is noted with the count at which it shows (R440, R442).
DEDUCED, log entry 50; DEDUCED, log entry 51. -/
def NetTime.edge (n : NetTime) (before after : W64) : NetTime :=
  let adj := n.adjNext.getD n.adj
  let sum := n.nsFrac + (10 * 2 ^ 32 + signed 32 adj.toNat).toNat
  let carry := decide (secondUnits ≤ sum)
  let secs := if carry then (n.secs + 1) % 2 ^ 48 else n.secs
  let frac := if carry then sum - secondUnits else sum
  let n : NetTime := { n with
    adj := adj
    adjNext := none
    edges := n.edges + 1
    history := (before, BitVec.ofNat 96 n.bits) :: n.history.take 1 }
  match n.stepTo, n.stepBy with
  | some t, _ => { n with secs := t.toNat / 2 ^ 48, nsFrac := t.toNat % 2 ^ 48 * 2 ^ 16, stepTo := none, stepBy := none }
  | none, some x =>
    let t := (((secs * secondUnits + frac : Nat) : Int) + x) % ((2 ^ 48 * secondUnits : Nat) : Int)
    { n with secs := t.toNat / secondUnits, nsFrac := t.toNat % secondUnits, stepBy := none }
  | none, none => { n with secs := secs, nsFrac := frac, secDue := if carry then some (after, secs) else n.secDue }

/-- The masks of HM_GCTL act on a monitor at the end of their count: the copy is made first (R451).
DEDUCED, log entry 50. -/
def Monitor.masks (m : Monitor) (snap clear : Bool) (count : W64) : Monitor :=
  let m := if snap then { m with snap := m.live, snapt := count } else m
  if clear then { m with live := {} } else m

/-- A committed configuration takes effect and clears the live bank (R450). DEDUCED, log entry 50. -/
def Monitor.configure (m : Monitor) : Monitor :=
  match m.cfgNext with
  | some c => { m with cfg := c, cfgNext := none, live := {}, events := 0, lastAt := none }
  | none => m

/-- The exchange with the smallest c − a, the first among equals (R343). -/
def bestExchange : List Exchange → Option Exchange
  | [] => none
  | x :: rest =>
    match bestExchange rest with
    | some y => if (y.c - y.a).toNat < (x.c - x.a).toNat then some y else some x
    | none => some x

/-- The offset of an exchange: b − floor((a + c) / 2) (R343). -/
def Exchange.offset (x : Exchange) : Int := (x.b.toNat : Int) - (((x.a.toNat + x.c.toNat) / 2 : Nat) : Int)

/-- The counter holds no longer, and a die whose alignment held it is ALIGNED (R343 steps 5 and 6). -/
def Die.holdOver (k : Die) : Die := { k with holding := 0, aligned := k.aligned || k.alignAfter, alignAfter := false }

namespace State

/-- A hold is over: an alignment that became due while it lasted starts (R343). -/
def alignAgain (s : State) (d : DieId) : State := if (s.die d).alignDue then s.startAlign d false else s

/-- The monitors of a die at the edge that ends a count (R450, R451). -/
def monitorsEdge (s : State) (d : DieId) (count : W64) : State :=
  let k := s.die d
  let s := (List.range 32).foldl (fun s i =>
    let m := s.monitor d i
    let m' := (m.masks (bitAt k.hmSnapNow.toNat i) (bitAt k.hmClearNow.toNat i) count).configure
    if m' = m then s else s.setMonitor d i m') s
  s.setDie d { k with hmSnapNow := k.hmSnap, hmClearNow := k.hmClear, hmSnap := 0, hmClear := 0 }

/-- TIMEBASE_RISING_EDGE: the time counter advances, or holds under step 5 of R343, and device time advances (R37, R433).
Timeouts stand still while the counter holds (R343). While the timebase is lost the row stands for a count of the ring
oscillator (R39), which has no row of its own. DESIGN CHOICE, log entry 76. -/
def edge (s : State) (d : DieId) : State :=
  let k := s.die d
  if k.stage = .held then s
  else
    let s := s.monitorsEdge d k.count
    let k' : Die := s.die d
    let next : Die := if 2 ≤ k'.holding then { k' with holding := k'.holding - 1 }
      else { k'.holdOver with ticks := k'.ticks + 1, count := k'.count + 1 }
    let s := (s.setDie d next).setNet d ((s.net d).edge k.count next.count)
    if k'.holding = 1 then s.alignAgain d else s

/-- COUNTER_HOLD_END: every count of a hold has passed (R343). DEDUCED, log entry 51. -/
def holdEnd (s : State) (d : DieId) : State :=
  let k := s.die d
  if k.holding = 1 then (s.setDie d k.holdOver).alignAgain d else s

/-- TIMEBASE_LOST: F-0201, TB_LOST, the safe-state request, and the ring oscillator (R39). -/
def timebaseLost (s : State) (d : DieId) : State :=
  let k := s.die d
  if k.stage = .held ∨ k.onRing then s
  else
    let s := (s.setDie d { k with onRing := true, tbLostFlag := true }).reportFree d 0x0201
    let w := s.steward d
    s.setSteward d { w with safety := { w.safety with f0201 := true } }

/-- TIMEBASE_RESUME: the counter follows the edges again from its value, and is aligned again (R39, R343). -/
def timebaseResume (s : State) (d : DieId) : State :=
  let k := s.die d
  if k.stage = .held ∨ !k.onRing then s
  else (s.setDie d { k with onRing := false, resumeAt := k.ticks }).startAlign d false

/-- TIMEBASE_STABLE: after 1 ms of edges without a loss the steward clears F-0201 (R39). -/
def timebaseStable (s : State) (d : DieId) : State :=
  let k := s.die d
  let w := s.steward d
  if w.mode ≠ .carori ∨ k.onRing ∨ s.since d k.resumeAt < 100000 then s
  else s.setSteward d { w with safety := { w.safety with f0201 := false } }

/-- ALIGNMENT_EXCHANGE_TIMER: the next of 16 requests, 10 counts after the one before (R343). -/
def alignSend (s : State) (d : DieId) : State :=
  let k := s.die d
  if !k.aligning ∨ 16 ≤ k.alignNext ∨ (k.alignNext ≠ 0 ∧ s.since d k.alignAt < 10) then s
  else (s.setDie d { k with alignNext := k.alignNext + 1, alignAt := k.ticks }).sendMsg d die0 (.alignReq k.alignNext k.count)

/-- ALIGNMENT_REQUEST: die 0 answers with its count at receipt (R343). -/
def alignReply (s : State) (m : Nat) : State :=
  match s.msgAt m with
  | some (_, src, .alignReq i a) => (s.takeMsg m).sendMsg die0 (dieOf src) (.alignAns i a (s.die die0).count)
  | _ => s

/-- An offset is applied to the counter of a die: a step forward, or a hold (R343 step 5, Table 17-2).
DEDUCED, log entry 51. -/
def applyOffset (s : State) (d : DieId) (o : Int) : State :=
  let k := s.die d
  s.setDie d { k with
    count := if 0 < o then k.count + BitVec.ofInt 64 o else k.count
    holding := if o < 0 then (-o).toNat + 1 else k.holding
    lastOffset := BitVec.ofInt 32 o
    realigns := if k.alignedOnce then satInc k.realigns else k.realigns
    alignedOnce := true }

/-- Sixteen exchanges are complete: the offset is applied, or only checked where the alignment is periodic; a die whose counter
holds is ALIGNED when the hold is over (R343 to R345). -/
def alignDone (s : State) (d : DieId) : State :=
  let k := s.die d
  match bestExchange k.exchanges with
  | none => s
  | some x =>
    let o := x.offset
    let ended := s.setDie d { k with
      aligning := false
      periodAt := if k.alignPeriodic then k.periodAt else k.ticks
      exchanges := [] }
    if k.alignPeriodic then
      if -1 ≤ o ∧ o ≤ 1 then ended
      else
        let s := ended.applyOffset d o
        let s := s.setDie d { s.die d with skewErr := true }
        s.report d 0x1701 (place d.val 32 + wrap 32 o)
    else
      let s := ended.applyOffset d o
      s.setDie d { s.die d with aligned := decide (0 ≤ o), alignAfter := decide (o < 0) }

/-- ALIGNMENT_ANSWER: the die records its count at receipt; after 16 answers the offset is taken (R343). An answer to a request
of an alignment that another one has replaced is not counted. DEDUCED, log entry 51. -/
def alignAnswer (s : State) (m : Nat) : State :=
  match s.msgAt m with
  | some (dst, _, .alignAns i a b) =>
    let d := dieOf dst
    let s := s.takeMsg m
    let k := s.die d
    if !k.aligning ∨ k.alignNext ≤ k.exchanges.length ∨ i ≠ k.exchanges.length then s
    else
      let s := s.setDie d { k with exchanges := k.exchanges ++ [⟨a, b, k.count⟩] }
      if (s.die d).exchanges.length < 16 then s else s.alignDone d
  | _ => s

/-- PERIODIC_ALIGNMENT_CHECK: every second an ALIGNED die other than die 0 repeats the exchanges (R345).
DEDUCED, log entry 52. -/
def alignCheck (s : State) (d : DieId) : State :=
  let k := s.die d
  if d = die0 ∨ !k.aligned ∨ k.aligning ∨ s.since d k.periodAt < 100000000 then s
  else s.setDie d { k with aligning := true, alignPeriodic := true, alignNext := 0, exchanges := [], periodAt := k.ticks }

/-- ALIGNMENT_TIMEOUT: no answer within 1,000 counts of the last request (R345). -/
def alignTimeout (s : State) (d : DieId) : State :=
  let k := s.die d
  if !k.aligning ∨ k.alignNext ≤ k.exchanges.length ∨ s.since d k.alignAt < 1000 then s
  else (s.setDie d { k with aligning := false, aligned := false, alignAfter := false, exchanges := [] }).report d 0x1702 d.val

/-- PULSE_INPUT: the counter and device time of two counts ago are captured (R346, R441). -/
def pulse (s : State) (d : DieId) : State :=
  let n := s.net d
  match n.history with
  | [_, x] => (s.setDie d { s.die d with gcCap := x.1 }).setNet d { n with ppsIn := x.2 }
  | _ => s

/-- SECOND_ADVANCE: CORR latches the counter and the new seconds; PPS_OUT rises where the step has been made, once for a
second (R440, R442). DEDUCED, log entry 52. -/
def secondAdvance (s : State) (d : DieId) : State :=
  let n := s.net d
  match n.secDue with
  | none => s
  | some (count, secs) =>
    let n : NetTime := { n with secDue := none, corrCount := count, corrSecs := secs }
    if n.stepped ∧ n.ppsLast < secs then s.setNet d { n with pps := true, ppsAt := (s.die d).ticks, ppsLast := secs }
    else s.setNet d n

/-- PPS_OUT_FALL: PPS_OUT has been high for 10,000,000 counts (R440). DEDUCED, log entry 52. -/
def ppsFall (s : State) (d : DieId) : State :=
  let n := s.net d
  if !n.pps ∨ s.since d n.ppsAt < 10000000 then s else s.setNet d { n with pps := false }

end State

/-- TIMEBASE_RISING_EDGE (R37). -/
def execTimebaseRisingEdge (d : DieId) (s : State) : Host.Outcome State Fault Refusal := onDie s d (s.edge d)
/-- COUNTER_HOLD_END (R343). -/
def execCounterHoldEnd (d : DieId) (s : State) : Host.Outcome State Fault Refusal := onDie s d (s.holdEnd d)
/-- TIMEBASE_LOST (R39). -/
def execTimebaseLost (d : DieId) (s : State) : Host.Outcome State Fault Refusal := onDie s d (s.timebaseLost d)
/-- TIMEBASE_RESUME (R39). -/
def execTimebaseResume (d : DieId) (s : State) : Host.Outcome State Fault Refusal := onDie s d (s.timebaseResume d)
/-- TIMEBASE_STABLE (R39). -/
def execTimebaseStable (d : DieId) (s : State) : Host.Outcome State Fault Refusal := onDie s d (s.timebaseStable d)
/-- ALIGNMENT_EXCHANGE_TIMER (R343). -/
def execAlignmentExchangeTimer (d : DieId) (s : State) : Host.Outcome State Fault Refusal := onDie s d (s.alignSend d)
/-- ALIGNMENT_REQUEST (R312). -/
def execAlignmentRequest (m : Nat) (s : State) : Host.Outcome State Fault Refusal := .next (s.alignReply m)
/-- ALIGNMENT_ANSWER (R343). -/
def execAlignmentAnswer (m : Nat) (s : State) : Host.Outcome State Fault Refusal := .next (s.alignAnswer m)
/-- PERIODIC_ALIGNMENT_CHECK (R345). -/
def execPeriodicAlignmentCheck (d : DieId) (s : State) : Host.Outcome State Fault Refusal := onDie s d (s.alignCheck d)
/-- ALIGNMENT_TIMEOUT (R345). -/
def execAlignmentTimeout (d : DieId) (s : State) : Host.Outcome State Fault Refusal := onDie s d (s.alignTimeout d)
/-- PULSE_INPUT (R441). -/
def execPulseInput (d : DieId) (s : State) : Host.Outcome State Fault Refusal := onDie s d (s.pulse d)
/-- SECOND_ADVANCE (R440). -/
def execSecondAdvance (d : DieId) (s : State) : Host.Outcome State Fault Refusal := onDie s d (s.secondAdvance d)
/-- PPS_OUT_FALL (R440). -/
def execPpsOutFall (d : DieId) (s : State) : Host.Outcome State Fault Refusal := onDie s d (s.ppsFall d)

end Sys2Proof.Machine
end

