-- ==== Sys2Proof/Machine/Dispatch.lean ====
section
/-!
DEFINITION. The meaning of every command: one arm for each constructor, each a call of the command's own definition.
-/
namespace Sys2Proof.Machine

def exec (i : Instr) (s : State) : Host.Outcome State Fault Refusal :=
  match i with
  | .add c w => Sys2Proof.Machine.execAdd c w s
  | .sub c w => Sys2Proof.Machine.execSub c w s
  | .and c w => Sys2Proof.Machine.execAnd c w s
  | .or c w => Sys2Proof.Machine.execOr c w s
  | .xor c w => Sys2Proof.Machine.execXor c w s
  | .shl c w => Sys2Proof.Machine.execShl c w s
  | .shr c w => Sys2Proof.Machine.execShr c w s
  | .sra c w => Sys2Proof.Machine.execSra c w s
  | .mul c w => Sys2Proof.Machine.execMul c w s
  | .mulh c w => Sys2Proof.Machine.execMulh c w s
  | .mulhu c w => Sys2Proof.Machine.execMulhu c w s
  | .min c w => Sys2Proof.Machine.execMin c w s
  | .max c w => Sys2Proof.Machine.execMax c w s
  | .minu c w => Sys2Proof.Machine.execMinu c w s
  | .maxu c w => Sys2Proof.Machine.execMaxu c w s
  | .divu c w => Sys2Proof.Machine.execDivu c w s
  | .remu c w => Sys2Proof.Machine.execRemu c w s
  | .addi c w => Sys2Proof.Machine.execAddi c w s
  | .andi c w => Sys2Proof.Machine.execAndi c w s
  | .ori c w => Sys2Proof.Machine.execOri c w s
  | .xori c w => Sys2Proof.Machine.execXori c w s
  | .shli c w => Sys2Proof.Machine.execShli c w s
  | .shri c w => Sys2Proof.Machine.execShri c w s
  | .srai c w => Sys2Proof.Machine.execSrai c w s
  | .muli c w => Sys2Proof.Machine.execMuli c w s
  | .li c w => Sys2Proof.Machine.execLi c w s
  | .lis c w => Sys2Proof.Machine.execLis c w s
  | .cmp c w => Sys2Proof.Machine.execCmp c w s
  | .cmpi c w => Sys2Proof.Machine.execCmpi c w s
  | .plog c w => Sys2Proof.Machine.execPlog c w s
  | .prd c w => Sys2Proof.Machine.execPrd c w s
  | .pwr c w => Sys2Proof.Machine.execPwr c w s
  | .time c w => Sys2Proof.Machine.execTime c w s
  | .ldb c w => Sys2Proof.Machine.execLdb c w s
  | .ldbu c w => Sys2Proof.Machine.execLdbu c w s
  | .ldh c w => Sys2Proof.Machine.execLdh c w s
  | .ldhu c w => Sys2Proof.Machine.execLdhu c w s
  | .ldw c w => Sys2Proof.Machine.execLdw c w s
  | .ldwu c w => Sys2Proof.Machine.execLdwu c w s
  | .ldd c w => Sys2Proof.Machine.execLdd c w s
  | .stb c w => Sys2Proof.Machine.execStb c w s
  | .sth c w => Sys2Proof.Machine.execSth c w s
  | .stw c w => Sys2Proof.Machine.execStw c w s
  | .std c w => Sys2Proof.Machine.execStd c w s
  | .ldcd c w => Sys2Proof.Machine.execLdcd c w s
  | .stcd c w => Sys2Proof.Machine.execStcd c w s
  | .fence c w => Sys2Proof.Machine.execFence c w s
  | .br c w => Sys2Proof.Machine.execBr c w s
  | .call c w => Sys2Proof.Machine.execCall c w s
  | .callr c w => Sys2Proof.Machine.execCallr c w s
  | .ret c w => Sys2Proof.Machine.execRet c w s
  | .crd c w => Sys2Proof.Machine.execCrd c w s
  | .cwr c w => Sys2Proof.Machine.execCwr c w s
  | .trap c w => Sys2Proof.Machine.execTrap c w s
  | .yield c w => Sys2Proof.Machine.execYield c w s
  | .endCmd c w => Sys2Proof.Machine.execEndCmd c w s
  | .codeViolation u => Sys2Proof.Machine.execCodeViolation u s
  | .launchHeaderCheck c => Sys2Proof.Machine.execLaunchHeaderCheck c s
  | .codeBlockFetch c => Sys2Proof.Machine.execCodeBlockFetch c s
  | .sequencerLoadReturn c => Sys2Proof.Machine.execSequencerLoadReturn c s
  | .arrMm c w => Sys2Proof.Machine.execArrMm c w s
  | .arrMmg c w => Sys2Proof.Machine.execArrMmg c w s
  | .arrWfmt c w => Sys2Proof.Machine.execArrWfmt c w s
  | .arrWcfg c w => Sys2Proof.Machine.execArrWcfg c w s
  | .arrRfmt c w => Sys2Proof.Machine.execArrRfmt c w s
  | .arrRcfg c w => Sys2Proof.Machine.execArrRcfg c w s
  | .arrayIssue a => Sys2Proof.Machine.execArrayIssue a s
  | .gatherWindowExpiry a => Sys2Proof.Machine.execGatherWindowExpiry a s
  | .arrayComplete a => Sys2Proof.Machine.execArrayComplete a s
  | .idleTimerExpiry a => Sys2Proof.Machine.execIdleTimerExpiry a s
  | .densityChange a => Sys2Proof.Machine.execDensityChange a s
  | .fillerPattern a ok => Sys2Proof.Machine.execFillerPattern a ok s
  | .strLd c w => Sys2Proof.Machine.execStrLd c w s
  | .strSt c w => Sys2Proof.Machine.execStrSt c w s
  | .strLdm c w => Sys2Proof.Machine.execStrLdm c w s
  | .strStm c w => Sys2Proof.Machine.execStrStm c w s
  | .strXp c w => Sys2Proof.Machine.execStrXp c w s
  | .strMld c w => Sys2Proof.Machine.execStrMld c w s
  | .strMst c w => Sys2Proof.Machine.execStrMst c w s
  | .strCvrd c w => Sys2Proof.Machine.execStrCvrd c w s
  | .strCvwr c w => Sys2Proof.Machine.execStrCvwr c w s
  | .streamIssue c => Sys2Proof.Machine.execStreamIssue c s
  | .streamComplete c => Sys2Proof.Machine.execStreamComplete c s
  | .vecVld c w => Sys2Proof.Machine.execVecVld c w s
  | .vecVst c w => Sys2Proof.Machine.execVecVst c w s
  | .vecVopf c w => Sys2Proof.Machine.execVecVopf c w s
  | .vecVopb c w => Sys2Proof.Machine.execVecVopb c w s
  | .vecVopi c w => Sys2Proof.Machine.execVecVopi c w s
  | .vecVsfu c w => Sys2Proof.Machine.execVecVsfu c w s
  | .vecVred c w => Sys2Proof.Machine.execVecVred c w s
  | .vecVcvt c w => Sys2Proof.Machine.execVecVcvt c w s
  | .vecVbcst c w => Sys2Proof.Machine.execVecVbcst c w s
  | .vecVmovs c w => Sys2Proof.Machine.execVecVmovs c w s
  | .vecVsort c w => Sys2Proof.Machine.execVecVsort c w s
  | .vecVbox c w => Sys2Proof.Machine.execVecVbox c w s
  | .vecVnms c w => Sys2Proof.Machine.execVecVnms c w s
  | .vectorIssue c => Sys2Proof.Machine.execVectorIssue c s
  | .vectorComplete c => Sys2Proof.Machine.execVectorComplete c s
  | .syncTdef c w => Sys2Proof.Machine.execSyncTdef c w s
  | .syncTrel c w => Sys2Proof.Machine.execSyncTrel c w s
  | .syncTstat c w => Sys2Proof.Machine.execSyncTstat c w s
  | .syncPhase c w => Sys2Proof.Machine.execSyncPhase c w s
  | .syncWait c w => Sys2Proof.Machine.execSyncWait c w s
  | .syncBar c w => Sys2Proof.Machine.execSyncBar c w s
  | .syncHpost c w => Sys2Proof.Machine.execSyncHpost c w s
  | .syncHwait c w => Sys2Proof.Machine.execSyncHwait c w s
  | .syncSacq c w => Sys2Proof.Machine.execSyncSacq c w s
  | .syncStry c w => Sys2Proof.Machine.execSyncStry c w s
  | .syncSrel c w => Sys2Proof.Machine.execSyncSrel c w s
  | .syncAlloc c w => Sys2Proof.Machine.execSyncAlloc c w s
  | .syncFree c w => Sys2Proof.Machine.execSyncFree c w s
  | .syncWgclm c w => Sys2Proof.Machine.execSyncWgclm c w s
  | .syncWgbind c w => Sys2Proof.Machine.execSyncWgbind c w s
  | .syncWgrel c w => Sys2Proof.Machine.execSyncWgrel c w s
  | .loadGrant k => Sys2Proof.Machine.execLoadGrant k s
  | .barrierComplete k b => Sys2Proof.Machine.execBarrierComplete k b s
  | .haloWaitMet c => Sys2Proof.Machine.execHaloWaitMet c s
  | .semaphoreGrant sem => Sys2Proof.Machine.execSemaphoreGrant sem s
  | .preemption c => Sys2Proof.Machine.execPreemption c s
  | .coreResume c q lcore => Sys2Proof.Machine.execCoreResume c q lcore s
  | .coreImageSave c => Sys2Proof.Machine.execCoreImageSave c s
  | .mapStoreImageSave k => Sys2Proof.Machine.execMapStoreImageSave k s
  | .imageRestore st => Sys2Proof.Machine.execImageRestore st s
  | .storeClear st => Sys2Proof.Machine.execStoreClear st s
  | .scrub st word => Sys2Proof.Machine.execScrub st word s
  | .peatReadRequestTransfer r => Sys2Proof.Machine.execPeatReadRequestTransfer r s
  | .peatWriteRequestTransfer r => Sys2Proof.Machine.execPeatWriteRequestTransfer r s
  | .peatReadData p tag fail => Sys2Proof.Machine.execPeatReadData p tag fail s
  | .peatWriteAcceptance p tag fail => Sys2Proof.Machine.execPeatWriteAcceptance p tag fail s
  | .unansweredRequest r => Sys2Proof.Machine.execUnansweredRequest r s
  | .doorbell role strb q wr => Sys2Proof.Machine.execDoorbell role strb q wr s
  | .doorbellForward m => Sys2Proof.Machine.execDoorbellForward m s
  | .commandAcceptance q => Sys2Proof.Machine.execCommandAcceptance q s
  | .nop q => Sys2Proof.Machine.execNop q s
  | .launch q => Sys2Proof.Machine.execLaunch q s
  | .signal q => Sys2Proof.Machine.execSignal q s
  | .wait q => Sys2Proof.Machine.execWait q s
  | .test q => Sys2Proof.Machine.execTest q s
  | .writeCommand q => Sys2Proof.Machine.execWriteCommand q s
  | .timeCommand q => Sys2Proof.Machine.execTimeCommand q s
  | .callCommand q => Sys2Proof.Machine.execCallCommand q s
  | .breakCall q => Sys2Proof.Machine.execBreakCall q s
  | .inval q => Sys2Proof.Machine.execInval q s
  | .waitReread q => Sys2Proof.Machine.execWaitReread q s
  | .launchPlacement q d => Sys2Proof.Machine.execLaunchPlacement q d s
  | .residentSlotTake d ctx => Sys2Proof.Machine.execResidentSlotTake d ctx s
  | .sliceExpiry q d => Sys2Proof.Machine.execSliceExpiry q d s
  | .commandTimeout q => Sys2Proof.Machine.execCommandTimeout q s
  | .drainExpiry q => Sys2Proof.Machine.execDrainExpiry q s
  | .launchComplete q => Sys2Proof.Machine.execLaunchComplete q s
  | .lossProcedure ctx => Sys2Proof.Machine.execLossProcedure ctx s
  | .launchToDie0 m => Sys2Proof.Machine.execLaunchToDie0 m s
  | .distributionRecord m => Sys2Proof.Machine.execDistributionRecord m s
  | .launchCountReached q d => Sys2Proof.Machine.execLaunchCountReached q d s
  | .partEnded m => Sys2Proof.Machine.execPartEnded m s
  | .stop m => Sys2Proof.Machine.execStop m s
  | .stopAcknowledgement m => Sys2Proof.Machine.execStopAcknowledgement m s
  | .semaphoreRequest m => Sys2Proof.Machine.execSemaphoreRequest m s
  | .pool1Call m => Sys2Proof.Machine.execPool1Call m s
  | .fenceSignal n => Sys2Proof.Machine.execFenceSignal n s
  | .ctxCreate role strb v => Sys2Proof.Machine.execCtxCreate role strb v s
  | .ctxAbort role strb v => Sys2Proof.Machine.execCtxAbort role strb v s
  | .ctxDestroy role strb v => Sys2Proof.Machine.execCtxDestroy role strb v s
  | .qCreate role strb v => Sys2Proof.Machine.execQCreate role strb v s
  | .qDestroy role strb v => Sys2Proof.Machine.execQDestroy role strb v s
  | .moRegister role strb v => Sys2Proof.Machine.execMoRegister role strb v s
  | .moDestroy role strb v => Sys2Proof.Machine.execMoDestroy role strb v s
  | .moRetireEnd handle => Sys2Proof.Machine.execMoRetireEnd handle s
  | .semCreate role strb v => Sys2Proof.Machine.execSemCreate role strb v s
  | .semDestroy role strb v => Sys2Proof.Machine.execSemDestroy role strb v s
  | .walkEnd d n => Sys2Proof.Machine.execWalkEnd d n s
  | .deferredFaultPost d => Sys2Proof.Machine.execDeferredFaultPost d s
  | .retry role strb d v => Sys2Proof.Machine.execRetry role strb d v s
  | .fail role strb d v => Sys2Proof.Machine.execFail role strb d v s
  | .ack role strb d v => Sys2Proof.Machine.execAck role strb d v s
  | .replay d n => Sys2Proof.Machine.execReplay d n s
  | .hotPeriodExpiry d => Sys2Proof.Machine.execHotPeriodExpiry d s
  | .partRootCommit role strb p v => Sys2Proof.Machine.execPartRootCommit role strb p v s
  | .segmentBlockLoad d ctx => Sys2Proof.Machine.execSegmentBlockLoad d ctx s
  | .invalidation m => Sys2Proof.Machine.execInvalidation m s
  | .invalidationAcknowledgement d q => Sys2Proof.Machine.execInvalidationAcknowledgement d q s
  | .flit l raw => Sys2Proof.Machine.execFlit l raw s
  | .ackTimeout l => Sys2Proof.Machine.execAckTimeout l s
  | .mtPhyReady l => Sys2Proof.Machine.execMtPhyReady l s
  | .mtPhyReadyFall l => Sys2Proof.Machine.execMtPhyReadyFall l s
  | .identComplete l lanes => Sys2Proof.Machine.execIdentComplete l lanes s
  | .reportComplete l farRetired farDie farLink => Sys2Proof.Machine.execReportComplete l farRetired farDie farLink s
  | .alignComplete l => Sys2Proof.Machine.execAlignComplete l s
  | .trainingPhaseTimeout l => Sys2Proof.Machine.execTrainingPhaseTimeout l s
  | .linkTrainTimeout l => Sys2Proof.Machine.execLinkTrainTimeout l s
  | .topologyAnnouncement d => Sys2Proof.Machine.execTopologyAnnouncement d s
  | .alignmentExchangeTimer d => Sys2Proof.Machine.execAlignmentExchangeTimer d s
  | .alignmentRequest m => Sys2Proof.Machine.execAlignmentRequest m s
  | .alignmentAnswer m => Sys2Proof.Machine.execAlignmentAnswer m s
  | .counterHoldEnd d => Sys2Proof.Machine.execCounterHoldEnd d s
  | .periodicAlignmentCheck d => Sys2Proof.Machine.execPeriodicAlignmentCheck d s
  | .alignmentTimeout d => Sys2Proof.Machine.execAlignmentTimeout d s
  | .pulseInput d => Sys2Proof.Machine.execPulseInput d s
  | .stageReport m => Sys2Proof.Machine.execStageReport m s
  | .linksEnd d => Sys2Proof.Machine.execLinksEnd d s
  | .readinessReport m => Sys2Proof.Machine.execReadinessReport m s
  | .hostDone role strb v => Sys2Proof.Machine.execHostDone role strb v s
  | .selftestVerdict d fails dieFail => Sys2Proof.Machine.execSelftestVerdict d fails dieFail s
  | .computePartRelease d => Sys2Proof.Machine.execComputePartRelease d s
  | .rateWindow d rate => Sys2Proof.Machine.execRateWindow d rate s
  | .supplyDip d => Sys2Proof.Machine.execSupplyDip d s
  | .supplyRecovery d => Sys2Proof.Machine.execSupplyRecovery d s
  | .timebaseLost d => Sys2Proof.Machine.execTimebaseLost d s
  | .timebaseResume d => Sys2Proof.Machine.execTimebaseResume d s
  | .timebaseStable d => Sys2Proof.Machine.execTimebaseStable d s
  | .watchdogExpiry u counts => Sys2Proof.Machine.execWatchdogExpiry u counts s
  | .resetDeadline d n => Sys2Proof.Machine.execResetDeadline d n s
  | .resetCheck d n => Sys2Proof.Machine.execResetCheck d n s
  | .regionReadTimeout d n path => Sys2Proof.Machine.execRegionReadTimeout d n path s
  | .collectionCutoff d n => Sys2Proof.Machine.execCollectionCutoff d n s
  | .boundarySlotTimeout d r => Sys2Proof.Machine.execBoundarySlotTimeout d r s
  | .dumpFree role strb d v => Sys2Proof.Machine.execDumpFree role strb d v s
  | .dieResetReplan d => Sys2Proof.Machine.execDieResetReplan d s
  | .pairComparison q lcore => Sys2Proof.Machine.execPairComparison q lcore s
  | .pairWaitExpiry q lcore => Sys2Proof.Machine.execPairWaitExpiry q lcore s
  | .readbackMismatch d sampled => Sys2Proof.Machine.execReadbackMismatch d sampled s
  | .supervisionCycle d => Sys2Proof.Machine.execSupervisionCycle d s
  | .emberMeasurement d region mon reading => Sys2Proof.Machine.execEmberMeasurement d region mon reading s
  | .monitorFailure d region mon => Sys2Proof.Machine.execMonitorFailure d region mon s
  | .periodicReplan d => Sys2Proof.Machine.execPeriodicReplan d s
  | .vreqStep d => Sys2Proof.Machine.execVreqStep d s
  | .slackRecord d => Sys2Proof.Machine.execSlackRecord d s
  | .imageCheck d flashOk => Sys2Proof.Machine.execImageCheck d flashOk s
  | .recover d path => Sys2Proof.Machine.execRecover d path s
  | .stewardWatchdog d => Sys2Proof.Machine.execStewardWatchdog d s
  | .dictRead d path => Sys2Proof.Machine.execDictRead d path s
  | .dictWrite d path => Sys2Proof.Machine.execDictWrite d path s
  | .dictCommit d path => Sys2Proof.Machine.execDictCommit d path s
  | .dictAbort d path => Sys2Proof.Machine.execDictAbort d path s
  | .dictDescribe d path => Sys2Proof.Machine.execDictDescribe d path s
  | .imgErase d path => Sys2Proof.Machine.execImgErase d path s
  | .imgWrite d path => Sys2Proof.Machine.execImgWrite d path s
  | .boot d path => Sys2Proof.Machine.execBoot d path s
  | .dapFrame d frame => Sys2Proof.Machine.execDapFrame d frame s
  | .sessionTimeout d group => Sys2Proof.Machine.execSessionTimeout d group s
  | .journalRecordWrite d ok => Sys2Proof.Machine.execJournalRecordWrite d ok s
  | .journalReplay d => Sys2Proof.Machine.execJournalReplay d s
  | .compaction d => Sys2Proof.Machine.execCompaction d s
  | .sectorErase d => Sys2Proof.Machine.execSectorErase d s
  | .jrnClear d path => Sys2Proof.Machine.execJrnClear d path s
  | .syncMessage d frame => Sys2Proof.Machine.execSyncMessage d frame s
  | .followUp d frame => Sys2Proof.Machine.execFollowUp d frame s
  | .pdelayReq d frame => Sys2Proof.Machine.execPdelayReq d frame s
  | .pdelayResp d frame => Sys2Proof.Machine.execPdelayResp d frame s
  | .pdelayRespFollowUp d frame => Sys2Proof.Machine.execPdelayRespFollowUp d frame s
  | .syncInterval d => Sys2Proof.Machine.execSyncInterval d s
  | .pdelayInterval d => Sys2Proof.Machine.execPdelayInterval d s
  | .syncLost d => Sys2Proof.Machine.execSyncLost d s
  | .timeSet d path => Sys2Proof.Machine.execTimeSet d path s
  | .timeAdj d path => Sys2Proof.Machine.execTimeAdj d path s
  | .restep d path => Sys2Proof.Machine.execRestep d path s
  | .secondAdvance d => Sys2Proof.Machine.execSecondAdvance d s
  | .ppsOutFall d => Sys2Proof.Machine.execPpsOutFall d s
  | .linkUp d up => Sys2Proof.Machine.execLinkUp d up s
  | .monitorSample d m v => Sys2Proof.Machine.execMonitorSample d m v s
  | .snapMask role strb d v => Sys2Proof.Machine.execSnapMask role strb d v s
  | .clearMask role strb d v => Sys2Proof.Machine.execClearMask role strb d v s
  | .interruptMessage d => Sys2Proof.Machine.execInterruptMessage d s
  | .blkRstNAssert d => Sys2Proof.Machine.execBlkRstNAssert d s
  | .blkRstNRelease d => Sys2Proof.Machine.execBlkRstNRelease d s
  | .dbgData d addr write v => Sys2Proof.Machine.execDbgData d addr write v s
  | .dbgTrstN d => Sys2Proof.Machine.execDbgTrstN d s
  | .tableBaseWrite role strb off v => Sys2Proof.Machine.execTableBaseWrite role strb off v s
  | .ringBaseWrite role strb p r v => Sys2Proof.Machine.execRingBaseWrite role strb p r v s
  | .ringCfgWrite role strb p r v => Sys2Proof.Machine.execRingCfgWrite role strb p r v s
  | .ringRdWrite role strb p r v => Sys2Proof.Machine.execRingRdWrite role strb p r v s
  | .ovfCtlFree role strb d v => Sys2Proof.Machine.execOvfCtlFree role strb d v s
  | .registerWrite d role strb off v => Sys2Proof.Machine.execRegisterWrite d role strb off v s
  | .timebaseRisingEdge d => Sys2Proof.Machine.execTimebaseRisingEdge d s
  | .registerRead d role off => Sys2Proof.Machine.execRegisterRead d role off s
  | .rxDrop d frame => Sys2Proof.Machine.execRxDrop d frame s
  | .pool1Result m => Sys2Proof.Machine.execPool1Result m s
  | .fenceSignalResult n => Sys2Proof.Machine.execFenceSignalResult n s
  | .regionRead d n path => Sys2Proof.Machine.execRegionRead d n path s

end Sys2Proof.Machine
end

