-- ==== Sys2Proof/WellFormed.lean ====
section
/-!
DEFINITION. What a command may carry: units that the build has, and operands that the ports and the units can carry.
-/
namespace Sys2Proof
open Machine

/-- The build has the unit (R2, Table 00-1). -/
def Machine.Build.hasDie (b : Build) (d : DieId) : Bool := decide (d.val < b.dies)
def Machine.Build.hasCluster (b : Build) (k : ClusterId) : Bool := b.hasDie k.die && decide (k.cl.val < b.clusters)
def Machine.Build.hasCore (b : Build) (c : CoreId) : Bool := b.hasCluster c.cluster && decide (c.core.val < b.cores)
def Machine.Build.hasArray (b : Build) (a : ArrayId) : Bool := b.hasCore a.core && decide (a.arr.val < b.arrays)
def Machine.Build.hasStore (b : Build) : StoreId → Bool
  | .core c => b.hasCore c
  | .map k => b.hasCluster k
def Machine.Build.hasUnit (b : Build) : ResetUnit → Bool
  | .array a => b.hasArray a
  | .vector c | .stream c | .core c => b.hasCore c
  | .gen k _ | .cluster k => b.hasCluster k
  | .die d => b.hasDie d

/-- A build with legal parameters (R2, Table 00-1). -/
def Machine.Build.legal (b : Build) : Bool :=
  decide (1 ≤ b.dies) && decide (b.dies ≤ 8) && decide (1 ≤ b.clusters) && decide (b.clusters ≤ 16) &&
    decide (1 ≤ b.cores) && decide (b.cores ≤ 4) && (decide (b.arrays = 1) || decide (b.arrays = 2) || decide (b.arrays = 4))

/-- CR_ROLE has five bits (Table 25-4). -/
def roleOk (role : Byte) : Bool := decide (role.toNat < 32)

/-- CR_ADDR carries bits 27:3 of the byte offset (Table 25-4). -/
def offOk (off : BitVec 28) : Bool := decide (off.toNat % 8 = 0)

/-- A flit has 92 bytes (R313); an empty list stands for the next flit of the wire, as it was sent. -/
def flitOk (raw : List Byte) : Bool := decide (raw.length = 92) || raw.isEmpty

/-- A margin region, and a monitor of it: a region of a cluster has one, a region of a die two (R386, Table 20-1). -/
def regionOk (region mon : Nat) : Bool :=
  decide (region < 68) && decide (mon < if 64 ≤ region then 2 else 1)

/-- A word of 16 bytes of a store: 1 MiB in a core store, 6 MiB in a map store (R174, R178). -/
def wordOk (st : StoreId) (word : Nat) : Bool :=
  match st with
  | .core _ => decide (word < 65536)
  | .map _ => decide (word < 393216)

/-- The command is well formed for a build. -/
def Instr.wf (b : Build) (i : Instr) : Bool :=
  match i with
  | .add c _ => b.hasCore c
  | .sub c _ => b.hasCore c
  | .and c _ => b.hasCore c
  | .or c _ => b.hasCore c
  | .xor c _ => b.hasCore c
  | .shl c _ => b.hasCore c
  | .shr c _ => b.hasCore c
  | .sra c _ => b.hasCore c
  | .mul c _ => b.hasCore c
  | .mulh c _ => b.hasCore c
  | .mulhu c _ => b.hasCore c
  | .min c _ => b.hasCore c
  | .max c _ => b.hasCore c
  | .minu c _ => b.hasCore c
  | .maxu c _ => b.hasCore c
  | .divu c _ => b.hasCore c
  | .remu c _ => b.hasCore c
  | .addi c _ => b.hasCore c
  | .andi c _ => b.hasCore c
  | .ori c _ => b.hasCore c
  | .xori c _ => b.hasCore c
  | .shli c _ => b.hasCore c
  | .shri c _ => b.hasCore c
  | .srai c _ => b.hasCore c
  | .muli c _ => b.hasCore c
  | .li c _ => b.hasCore c
  | .lis c _ => b.hasCore c
  | .cmp c _ => b.hasCore c
  | .cmpi c _ => b.hasCore c
  | .plog c _ => b.hasCore c
  | .prd c _ => b.hasCore c
  | .pwr c _ => b.hasCore c
  | .time c _ => b.hasCore c
  | .ldb c _ => b.hasCore c
  | .ldbu c _ => b.hasCore c
  | .ldh c _ => b.hasCore c
  | .ldhu c _ => b.hasCore c
  | .ldw c _ => b.hasCore c
  | .ldwu c _ => b.hasCore c
  | .ldd c _ => b.hasCore c
  | .stb c _ => b.hasCore c
  | .sth c _ => b.hasCore c
  | .stw c _ => b.hasCore c
  | .std c _ => b.hasCore c
  | .ldcd c _ => b.hasCore c
  | .stcd c _ => b.hasCore c
  | .fence c _ => b.hasCore c
  | .br c _ => b.hasCore c
  | .call c _ => b.hasCore c
  | .callr c _ => b.hasCore c
  | .ret c _ => b.hasCore c
  | .crd c _ => b.hasCore c
  | .cwr c _ => b.hasCore c
  | .trap c _ => b.hasCore c
  | .yield c _ => b.hasCore c
  | .endCmd c _ => b.hasCore c
  | .codeViolation u => b.hasUnit u
  | .launchHeaderCheck c => b.hasCore c
  | .codeBlockFetch c => b.hasCore c
  | .sequencerLoadReturn c => b.hasCore c
  | .arrMm c _ => b.hasCore c
  | .arrMmg c _ => b.hasCore c
  | .arrWfmt c _ => b.hasCore c
  | .arrWcfg c _ => b.hasCore c
  | .arrRfmt c _ => b.hasCore c
  | .arrRcfg c _ => b.hasCore c
  | .arrayIssue a => b.hasArray a
  | .gatherWindowExpiry a => b.hasArray a
  | .arrayComplete a => b.hasArray a
  | .idleTimerExpiry a => b.hasArray a
  | .densityChange a => b.hasArray a
  | .fillerPattern a _ => b.hasArray a
  | .strLd c _ => b.hasCore c
  | .strSt c _ => b.hasCore c
  | .strLdm c _ => b.hasCore c
  | .strStm c _ => b.hasCore c
  | .strXp c _ => b.hasCore c
  | .strMld c _ => b.hasCore c
  | .strMst c _ => b.hasCore c
  | .strCvrd c _ => b.hasCore c
  | .strCvwr c _ => b.hasCore c
  | .streamIssue c => b.hasCore c
  | .streamComplete c => b.hasCore c
  | .vecVld c _ => b.hasCore c
  | .vecVst c _ => b.hasCore c
  | .vecVopf c _ => b.hasCore c
  | .vecVopb c _ => b.hasCore c
  | .vecVopi c _ => b.hasCore c
  | .vecVsfu c _ => b.hasCore c
  | .vecVred c _ => b.hasCore c
  | .vecVcvt c _ => b.hasCore c
  | .vecVbcst c _ => b.hasCore c
  | .vecVmovs c _ => b.hasCore c
  | .vecVsort c _ => b.hasCore c
  | .vecVbox c _ => b.hasCore c
  | .vecVnms c _ => b.hasCore c
  | .vectorIssue c => b.hasCore c
  | .vectorComplete c => b.hasCore c
  | .syncTdef c _ => b.hasCore c
  | .syncTrel c _ => b.hasCore c
  | .syncTstat c _ => b.hasCore c
  | .syncPhase c _ => b.hasCore c
  | .syncWait c _ => b.hasCore c
  | .syncBar c _ => b.hasCore c
  | .syncHpost c _ => b.hasCore c
  | .syncHwait c _ => b.hasCore c
  | .syncSacq c _ => b.hasCore c
  | .syncStry c _ => b.hasCore c
  | .syncSrel c _ => b.hasCore c
  | .syncAlloc c _ => b.hasCore c
  | .syncFree c _ => b.hasCore c
  | .syncWgclm c _ => b.hasCore c
  | .syncWgbind c _ => b.hasCore c
  | .syncWgrel c _ => b.hasCore c
  | .loadGrant k => b.hasCluster k
  | .barrierComplete k _ => b.hasCluster k
  | .haloWaitMet c => b.hasCore c
  | .semaphoreGrant _ => true
  | .preemption c => b.hasCore c
  | .coreResume c q _ => b.hasCore c && b.hasDie q.die
  | .coreImageSave c => b.hasCore c
  | .mapStoreImageSave k => b.hasCluster k
  | .imageRestore st => b.hasStore st
  | .storeClear st => b.hasStore st
  | .scrub st word => b.hasStore st && wordOk st word
  | .peatReadRequestTransfer _ => true
  | .peatWriteRequestTransfer _ => true
  | .peatReadData p _ _ => b.hasDie p.die
  | .peatWriteAcceptance p _ _ => b.hasDie p.die
  | .unansweredRequest _ => true
  | .doorbell role _ q _ => roleOk role && b.hasDie q.die
  | .doorbellForward _ => true
  | .commandAcceptance q => b.hasDie q.die
  | .nop q => b.hasDie q.die
  | .launch q => b.hasDie q.die
  | .signal q => b.hasDie q.die
  | .wait q => b.hasDie q.die
  | .test q => b.hasDie q.die
  | .writeCommand q => b.hasDie q.die
  | .timeCommand q => b.hasDie q.die
  | .callCommand q => b.hasDie q.die
  | .breakCall q => b.hasDie q.die
  | .inval q => b.hasDie q.die
  | .waitReread q => b.hasDie q.die
  | .launchPlacement q d => b.hasDie q.die && b.hasDie d
  | .residentSlotTake d _ => b.hasDie d
  | .sliceExpiry q d => b.hasDie q.die && b.hasDie d
  | .commandTimeout q => b.hasDie q.die
  | .drainExpiry q => b.hasDie q.die
  | .launchComplete q => b.hasDie q.die
  | .lossProcedure _ => true
  | .launchToDie0 _ => true
  | .distributionRecord _ => true
  | .launchCountReached q d => b.hasDie q.die && b.hasDie d
  | .partEnded _ => true
  | .stop _ => true
  | .stopAcknowledgement _ => true
  | .semaphoreRequest _ => true
  | .pool1Call _ => true
  | .fenceSignal _ => true
  | .ctxCreate role _ _ => roleOk role
  | .ctxAbort role _ _ => roleOk role
  | .ctxDestroy role _ _ => roleOk role
  | .qCreate role _ _ => roleOk role
  | .qDestroy role _ _ => roleOk role
  | .moRegister role _ _ => roleOk role
  | .moDestroy role _ _ => roleOk role
  | .moRetireEnd _ => true
  | .semCreate role _ _ => roleOk role
  | .semDestroy role _ _ => roleOk role
  | .walkEnd d _ => b.hasDie d
  | .deferredFaultPost d => b.hasDie d
  | .retry role _ d _ => roleOk role && b.hasDie d
  | .fail role _ d _ => roleOk role && b.hasDie d
  | .ack role _ d _ => roleOk role && b.hasDie d
  | .replay d _ => b.hasDie d
  | .hotPeriodExpiry d => b.hasDie d
  | .partRootCommit role _ _ _ => roleOk role
  | .segmentBlockLoad d _ => b.hasDie d
  | .invalidation _ => true
  | .invalidationAcknowledgement d q => b.hasDie d && b.hasDie q.die
  | .flit l raw => b.hasDie l.die && flitOk raw
  | .ackTimeout l => b.hasDie l.die
  | .mtPhyReady l => b.hasDie l.die
  | .mtPhyReadyFall l => b.hasDie l.die
  | .identComplete l lanes => b.hasDie l.die && decide (lanes.length = 48)
  | .reportComplete l _ _ _ => b.hasDie l.die
  | .alignComplete l => b.hasDie l.die
  | .trainingPhaseTimeout l => b.hasDie l.die
  | .linkTrainTimeout l => b.hasDie l.die
  | .topologyAnnouncement d => b.hasDie d
  | .alignmentExchangeTimer d => b.hasDie d
  | .alignmentRequest _ => true
  | .alignmentAnswer _ => true
  | .counterHoldEnd d => b.hasDie d
  | .periodicAlignmentCheck d => b.hasDie d
  | .alignmentTimeout d => b.hasDie d
  | .pulseInput d => b.hasDie d
  | .stageReport _ => true
  | .linksEnd d => b.hasDie d
  | .readinessReport _ => true
  | .hostDone role _ _ => roleOk role
  | .selftestVerdict d fails _ => b.hasDie d && fails.all b.hasUnit
  | .computePartRelease d => b.hasDie d
  | .rateWindow d _ => b.hasDie d
  | .supplyDip d => b.hasDie d
  | .supplyRecovery d => b.hasDie d
  | .timebaseLost d => b.hasDie d
  | .timebaseResume d => b.hasDie d
  | .timebaseStable d => b.hasDie d
  | .watchdogExpiry u _ => b.hasUnit u
  | .resetDeadline d _ => b.hasDie d
  | .resetCheck d _ => b.hasDie d
  | .regionReadTimeout d _ _ => b.hasDie d
  | .collectionCutoff d _ => b.hasDie d
  | .boundarySlotTimeout d _ => b.hasDie d
  | .dumpFree role _ d _ => roleOk role && b.hasDie d
  | .dieResetReplan d => b.hasDie d
  | .pairComparison q _ => b.hasDie q.die
  | .pairWaitExpiry q _ => b.hasDie q.die
  | .readbackMismatch d _ => b.hasDie d
  | .supervisionCycle d => b.hasDie d
  | .emberMeasurement d region mon _ => b.hasDie d && regionOk region mon
  | .monitorFailure d region mon => b.hasDie d && regionOk region mon
  | .periodicReplan d => b.hasDie d
  | .vreqStep d => b.hasDie d
  | .slackRecord d => b.hasDie d
  | .imageCheck d _ => b.hasDie d
  | .recover d _ => b.hasDie d
  | .stewardWatchdog d => b.hasDie d
  | .dictRead d _ => b.hasDie d
  | .dictWrite d _ => b.hasDie d
  | .dictCommit d _ => b.hasDie d
  | .dictAbort d _ => b.hasDie d
  | .dictDescribe d _ => b.hasDie d
  | .imgErase d _ => b.hasDie d
  | .imgWrite d _ => b.hasDie d
  | .boot d _ => b.hasDie d
  | .dapFrame d _ => b.hasDie d
  | .sessionTimeout d _ => b.hasDie d
  | .journalRecordWrite d _ => b.hasDie d
  | .journalReplay d => b.hasDie d
  | .compaction d => b.hasDie d
  | .sectorErase d => b.hasDie d
  | .jrnClear d _ => b.hasDie d
  | .syncMessage d _ => b.hasDie d
  | .followUp d _ => b.hasDie d
  | .pdelayReq d _ => b.hasDie d
  | .pdelayResp d _ => b.hasDie d
  | .pdelayRespFollowUp d _ => b.hasDie d
  | .syncInterval d => b.hasDie d
  | .pdelayInterval d => b.hasDie d
  | .syncLost d => b.hasDie d
  | .timeSet d _ => b.hasDie d
  | .timeAdj d _ => b.hasDie d
  | .restep d _ => b.hasDie d
  | .secondAdvance d => b.hasDie d
  | .ppsOutFall d => b.hasDie d
  | .linkUp d _ => b.hasDie d
  | .monitorSample d _ _ => b.hasDie d
  | .snapMask role _ d _ => roleOk role && b.hasDie d
  | .clearMask role _ d _ => roleOk role && b.hasDie d
  | .interruptMessage d => b.hasDie d
  | .blkRstNAssert d => b.hasDie d
  | .blkRstNRelease d => b.hasDie d
  | .dbgData d _ _ _ => b.hasDie d
  | .dbgTrstN d => b.hasDie d
  | .tableBaseWrite role _ off _ => roleOk role && offOk off
  | .ringBaseWrite role _ _ _ _ => roleOk role
  | .ringCfgWrite role _ _ _ _ => roleOk role
  | .ringRdWrite role _ _ _ _ => roleOk role
  | .ovfCtlFree role _ d _ => roleOk role && b.hasDie d
  | .registerWrite d role _ off _ => b.hasDie d && roleOk role && offOk off
  | .timebaseRisingEdge d => b.hasDie d
  | .registerRead d role off => b.hasDie d && roleOk role && offOk off
  | .rxDrop d _ => b.hasDie d
  | .pool1Result _ => true
  | .fenceSignalResult _ => true
  | .regionRead d _ _ => b.hasDie d

end Sys2Proof
end

