-- ==== Sys2Proof/Safety.lean ====
section
/-!
DEFINITION. What counts as a safe step, the invariant of the machine, and the conditions under which the spec says that
a command takes place: the terms that the statements are written in.
-/
namespace Sys2Proof.Machine

/-- The step from a state answers a next state. -/
def StepsOn (s : State) : Prop := ∃ t, step s = .next t

/-- What every step keeps: the package is one that Table 00-1 allows, and device memory is in its one form (addresses
strictly rising, no listed byte that is 0). -/
def State.Inv (s : State) : Prop := s.build.legal = true ∧ s.mem.wfD 0 = true

/-- What no command changes: the queue of waiting commands, which `step` alone advances, the package as generated, and its
straps. -/
structure SameWorld (s t : State) : Prop where
  pending : t.pending = s.pending
  build : t.build = s.build
  straps : t.straps = s.straps

/-- A core of the build is running, waits for nothing, and the instruction at its PC is the word `w`, of unit `u` and
opcode `op`; the two sequencers of its pair agree (R97, R99, R106). -/
structure Takes (s : State) (c : CoreId) (w : W32) (u op : Nat) : Prop where
  here : s.hasCore c = true
  runs : (s.core c).run = .running
  free : (s.core c).stall = .none
  twins : (s.core c).twin = (s.core c).seq
  inside : (s.core c).seq.pc.toNat < (s.core c).codeWords
  word : (s.core c).code.find? (s.core c).seq.pc.toNat = some w
  unit : field w.toNat 27 25 = u
  opcode : (if u = 0 then field w.toNat 24 19 else field w.toNat 24 20) = op

/-- Bits `hi` to `lo` of an instruction word. -/
def bits (w : W32) (hi lo : Nat) : Nat := field w.toNat hi lo

/-- The guard of a word is true for a sequencer (R98): the predicate bit that GP names, p0 being 1, differs from GN. -/
def GuardTrue (r : SeqRegs) (w : W32) : Prop := (bits w 30 28 = 0 ∨ bitAt r.p.toNat (bits w 30 28) = true) ↔ bits w 31 31 = 0

/-- The state in which both sequencers of a core hold `r` and its watchdog counts from now, all else as it was. -/
def State.withPair (s : State) (c : CoreId) (r : SeqRegs) : State :=
  s.setCore c { s.core c with seq := r, twin := r, progAt := (s.die c.die).ticks }

/-- The registers `r` after an instruction that writes `v` to register `rd` and goes on: register 0 reads 0 always, no
other register, predicate or return index changes, and the PC has advanced by 1 (R94, R95). -/
structure Wrote (r₀ r : SeqRegs) (rd : Nat) (v : W64) : Prop where
  at' : rd ≠ 0 → r.read rd = v
  zero : r.read 0 = 0
  others : ∀ n, n ≠ rd → r.read n = r₀.read n
  preds : r.p = r₀.p
  pc : r.pc = r₀.pc + 1
  stack : r.stack = r₀.stack

/-- The core no longer executes: a fault or a stop has ended its program (R113). -/
def Stopped (s : State) (c : CoreId) : Prop := (s.core c).run = .stopped

end Sys2Proof.Machine
end

