-- ==== Sys2Proof/Certificates/Slice0/Obligations.lean ====
section
/-!
DEFINITION. The statements about the block, one `Obligations.<Name>` each. A statement of a command's effect is written
as its completion: under conditions on the state and the operands alone, `exec` answers a next state, and what that
state holds.
-/
open Sys2Proof Sys2Proof.Machine

/-- One step takes the command at the front of the queue and runs it on the state with the rest of the queue.
With no command waiting the block idles (the model's choice, log entry 1). -/
def Obligations.StepRunsTheFrontCommand : Prop :=
  (∀ (c : Instr) (cs : List Instr) (s : State), s.pending = c :: cs → step s = exec c { s with pending := cs }) ∧
  (∀ s : State, s.pending = [] → step s = .next s)

/-- The state after reset meets the invariant. -/
def Obligations.ResetMeetsTheInvariant : Prop := State.reset.Inv

/-- Every step keeps the invariant, from every state that meets it: a package that Table 00-1 allows, and device memory
in its one form. -/
def Obligations.StepKeepsTheInvariant : Prop := ∀ s t : State, s.Inv → step s = .next t → t.Inv

/-- No command changes the queue of waiting commands, the package as generated or its straps; and a step only takes the front
command off the queue. -/
def Obligations.CommandsKeepQueueAndPackage : Prop :=
  (∀ (c : Instr) (s t : State), exec c s = .next t → SameWorld s t) ∧
    ∀ s t : State, step s = .next t →
      t.pending = s.pending.tail ∧ t.build = s.build ∧ t.straps = s.straps

/-- Every well-formed command answers a next state, from every state: no ordinary data, mode or phase of the block ends
a run. A command is refused never, and stops only because it names a unit that the package does not have (R2). -/
def Obligations.WellFormedCommandsAlwaysAnswer : Prop :=
  (∀ (c : Instr) (s : State), c.wf s.build = true → ∃ t, exec c s = .next t) ∧
    (∀ (c : Instr) (s : State) (r : Refusal), exec c s ≠ .refused r) ∧
    ∀ (c : Instr) (s : State) (f : Fault), exec c s = .fault f → f = .noSuchUnit ∧ c.wf s.build = false

/-- The R-form instructions of Table 05-6: constructor, opcode, and the value of rd from s[rs1] and s[rs2]. -/
def registerForms : List ((CoreId → W32 → Instr) × Nat × (W64 → W64 → W64)) :=
  [ (.add, 0x00, fun a b => BitVec.ofNat 64 (a.toNat + b.toNat)),
    (.sub, 0x01, fun a b => BitVec.ofInt 64 ((a.toNat : Int) - b.toNat)),
    (.and, 0x02, fun a b => BitVec.ofNat 64 (a.toNat &&& b.toNat)),
    (.or, 0x03, fun a b => BitVec.ofNat 64 (a.toNat ||| b.toNat)),
    (.xor, 0x04, fun a b => BitVec.ofNat 64 (a.toNat ^^^ b.toNat)),
    (.shl, 0x05, fun a b => BitVec.ofNat 64 (a.toNat * 2 ^ (b.toNat % 64))),
    (.shr, 0x06, fun a b => BitVec.ofNat 64 (a.toNat / 2 ^ (b.toNat % 64))),
    (.sra, 0x07, fun a b => BitVec.ofInt 64 (a.toInt / 2 ^ (b.toNat % 64))),
    (.mul, 0x08, fun a b => BitVec.ofNat 64 (a.toNat * b.toNat)),
    (.mulh, 0x09, fun a b => BitVec.ofInt 64 (a.toInt * b.toInt / 2 ^ 64)),
    (.mulhu, 0x0A, fun a b => BitVec.ofNat 64 (a.toNat * b.toNat / 2 ^ 64)),
    (.min, 0x0B, fun a b => BitVec.ofInt 64 (min a.toInt b.toInt)),
    (.max, 0x0C, fun a b => BitVec.ofInt 64 (max a.toInt b.toInt)),
    (.minu, 0x0D, fun a b => BitVec.ofNat 64 (min a.toNat b.toNat)),
    (.maxu, 0x0E, fun a b => BitVec.ofNat 64 (max a.toNat b.toNat)),
    (.divu, 0x0F, fun a b => if b = 0 then 0xFFFFFFFFFFFFFFFF else BitVec.ofNat 64 (a.toNat / b.toNat)),
    (.remu, 0x10, fun a b => if b = 0 then a else BitVec.ofNat 64 (a.toNat % b.toNat)) ]

/-- The number of `n` bits read as two's complement. -/
def signedOf (n v : Nat) : Int := if 2 ^ (n - 1) ≤ v then (v : Int) - 2 ^ n else v

/-- The I-form instructions of Table 05-6: constructor, opcode, whether it is a shift, and the value of rd from s[rs1]
and the signed imm9. -/
def immediateForms : List ((CoreId → W32 → Instr) × Nat × Bool × (W64 → Int → W64)) :=
  [ (.addi, 0x11, false, fun a i => BitVec.ofInt 64 (a.toNat + i)),
    (.andi, 0x12, false, fun a i => a &&& BitVec.ofInt 64 i),
    (.ori, 0x13, false, fun a i => a ||| BitVec.ofInt 64 i),
    (.xori, 0x14, false, fun a i => a ^^^ BitVec.ofInt 64 i),
    (.shli, 0x15, true, fun a i => BitVec.ofNat 64 (a.toNat * 2 ^ i.toNat)),
    (.shri, 0x16, true, fun a i => BitVec.ofNat 64 (a.toNat / 2 ^ i.toNat)),
    (.srai, 0x17, true, fun a i => BitVec.ofInt 64 (a.toInt / 2 ^ i.toNat)),
    (.muli, 0x18, false, fun a i => BitVec.ofInt 64 (a.toNat * i)) ]

/-- Every R-form instruction completes with the value that Table 05-6 gives in register rd (bits 18:14), from s[rs1]
(bits 13:9) and s[rs2] (bits 8:4); a write to s0 is discarded; nothing else changes but the PC and
the count from which the core's watchdog runs (R358).
Every I-form arithmetic instruction completes with the value that Table 05-6 gives in rd, from s[rs1] and the signed
imm9 (a shift: bits 5:0, bits 8:6 being 0); LI puts the signed imm14 in rd, and LIS shifts rd left by 14 and sets its
low bits to imm14; nothing else changes but the PC and the count from which the core's watchdog runs (R358). -/
def Obligations.ScalarArithmetic : Prop :=
  (∀ e ∈ registerForms, ∀ (s : State) (c : CoreId) (w : W32), Takes s c w 0 e.2.1 → GuardTrue (s.core c).seq w →
    bits w 3 0 = 0 → ∃ r, exec (e.1 c w) s = .next (s.withPair c r) ∧
      Wrote (s.core c).seq r (bits w 18 14) (e.2.2 ((s.core c).seq.read (bits w 13 9)) ((s.core c).seq.read (bits w 8 4)))) ∧
  ((∀ e ∈ immediateForms, ∀ (s : State) (c : CoreId) (w : W32), Takes s c w 0 e.2.1 → GuardTrue (s.core c).seq w →
    (e.2.2.1 = true → bits w 8 6 = 0) → ∃ r, exec (e.1 c w) s = .next (s.withPair c r) ∧
      Wrote (s.core c).seq r (bits w 18 14)
        (e.2.2.2 ((s.core c).seq.read (bits w 13 9)) (signedOf 9 (bits w 8 0)))) ∧
  (∀ (s : State) (c : CoreId) (w : W32), Takes s c w 0 0x19 → GuardTrue (s.core c).seq w →
    ∃ r, exec (.li c w) s = .next (s.withPair c r) ∧
      Wrote (s.core c).seq r (bits w 18 14) (BitVec.ofInt 64 (signedOf 14 (bits w 13 0)))) ∧
  (∀ (s : State) (c : CoreId) (w : W32), Takes s c w 0 0x1A → GuardTrue (s.core c).seq w →
    ∃ r, exec (.lis c w) s = .next (s.withPair c r) ∧
      Wrote (s.core c).seq r (bits w 18 14)
        (BitVec.ofNat 64 ((s.core c).seq.read (bits w 18 14)).toNat * 16384 + BitVec.ofNat 64 (bits w 13 0))))

/-- The conditions of Table 05-7 on two 64-bit values. -/
def conditionHolds (cc : Nat) (a b : W64) : Bool :=
  if cc = 0x0 then a = b else if cc = 0x1 then a ≠ b
  else if cc = 0x2 then a.toInt < b.toInt else if cc = 0x3 then a.toInt ≥ b.toInt
  else if cc = 0x4 then a.toNat < b.toNat else if cc = 0x5 then a.toNat ≥ b.toNat
  else if cc = 0x6 then a.toInt > b.toInt else if cc = 0x7 then a.toInt ≤ b.toInt
  else if cc = 0x8 then a.toNat > b.toNat else if cc = 0x9 then a.toNat ≤ b.toNat
  else if cc = 0xA then a &&& b ≠ 0 else if cc = 0xB then a &&& b = 0
  else (a - b).toInt ≥ 0

/-- The registers `r` after an instruction that writes the bit `v` to predicate `pd` and goes on: predicate 0 takes no
write, and no register, other predicate or return index changes. -/
structure WrotePred (r₀ r : SeqRegs) (pd : Nat) (v : Bool) : Prop where
  at' : pd ≠ 0 → bitAt r.p.toNat pd = v
  others : ∀ n, n ≠ pd → bitAt r.p.toNat n = bitAt r₀.p.toNat n
  regs : r.s = r₀.s
  pc : r.pc = r₀.pc + 1
  stack : r.stack = r₀.stack

/-- Predicate `n` of a sequencer: p0 reads 1. -/
def predicate (r : SeqRegs) (n : Nat) : Bool := n = 0 || bitAt r.p.toNat n

/-- CMP and CMPI write the condition of Table 05-7 to pd (CMPI against the signed imm7), and PLOG writes the bit of LOP
that two predicates choose.
PRD reads the predicates, p0 as 1, PWR writes p1 to p7 from bits 7:1 of s[rs1], and TIME reads the time counter of
the core's die. -/
def Obligations.ComparesAndPredicates : Prop :=
  ((∀ (s : State) (c : CoreId) (w : W32), Takes s c w 0 0x1B → GuardTrue (s.core c).seq w → bits w 1 0 = 0 →
    bits w 5 2 < 0xD → ∃ r, exec (.cmp c w) s = .next (s.withPair c r) ∧
      WrotePred (s.core c).seq r (bits w 18 16)
        (conditionHolds (bits w 5 2) ((s.core c).seq.read (bits w 15 11)) ((s.core c).seq.read (bits w 10 6)))) ∧
  (∀ (s : State) (c : CoreId) (w : W32), Takes s c w 0 0x1C → GuardTrue (s.core c).seq w → bits w 10 7 < 0xD →
    ∃ r, exec (.cmpi c w) s = .next (s.withPair c r) ∧
      WrotePred (s.core c).seq r (bits w 18 16)
        (conditionHolds (bits w 10 7) ((s.core c).seq.read (bits w 15 11)) (BitVec.ofInt 64 (signedOf 7 (bits w 6 0))))) ∧
  (∀ (s : State) (c : CoreId) (w : W32), Takes s c w 0 0x1D → GuardTrue (s.core c).seq w → bits w 5 0 = 0 →
    ∃ r, exec (.plog c w) s = .next (s.withPair c r) ∧
      WrotePred (s.core c).seq r (bits w 18 16)
        (bitAt (bits w 9 6) (2 * (predicate (s.core c).seq (bits w 15 13)).toNat +
          (predicate (s.core c).seq (bits w 12 10)).toNat)))) ∧
  ((∀ (s : State) (c : CoreId) (w : W32), Takes s c w 0 0x1E → GuardTrue (s.core c).seq w → bits w 13 0 = 0 →
    ∃ r v, exec (.prd c w) s = .next (s.withPair c r) ∧ Wrote (s.core c).seq r (bits w 18 14) v ∧ v.toNat < 256 ∧
      ∀ n, n < 8 → bitAt v.toNat n = predicate (s.core c).seq n) ∧
  (∀ (s : State) (c : CoreId) (w : W32), Takes s c w 0 0x1F → GuardTrue (s.core c).seq w → bits w 18 14 = 0 →
    bits w 8 0 = 0 → ∃ r, exec (.pwr c w) s = .next (s.withPair c r) ∧ r.s = (s.core c).seq.s ∧
      r.pc = (s.core c).seq.pc + 1 ∧ r.stack = (s.core c).seq.stack ∧
      ∀ n, n < 8 → predicate r n = (n = 0 || bitAt ((s.core c).seq.read (bits w 13 9)).toNat n)) ∧
  (∀ (s : State) (c : CoreId) (w : W32), Takes s c w 0 0x20 → GuardTrue (s.core c).seq w → bits w 13 0 = 0 →
    ∃ r, exec (.time c w) s = .next (s.withPair c r) ∧
      Wrote (s.core c).seq r (bits w 18 14) (s.die c.die).count))

/-- The registers `r₀` with another PC and return stack. -/
def jumped (r₀ : SeqRegs) (pc : W64) (stack : List W64) : SeqRegs := { r₀ with pc := pc, stack := stack }

/-- What of the sequencer raises a program fault: a CALL or CALLR at depth 16 and a RET at depth 0 raise F-0506, TRAP
raises F-0507 with its imm14, and a load or store at an address that is not a multiple of its size raises F-0503. -/
def Obligations.SequencerOperandFaults : Prop :=
  (∀ (s : State) (c : CoreId) (w : W32), Takes s c w 0 0x31 → GuardTrue (s.core c).seq w →
    16 ≤ (s.core c).seq.stack.length → ∃ info, exec (.call c w) s = .next (s.seqFault c 0 0x0506 0 info w)) ∧
  (∀ (s : State) (c : CoreId) (w : W32), Takes s c w 0 0x32 → GuardTrue (s.core c).seq w → bits w 18 14 = 0 →
    16 ≤ (s.core c).seq.stack.length → ∃ info, exec (.callr c w) s = .next (s.seqFault c 0 0x0506 0 info w)) ∧
  (∀ (s : State) (c : CoreId) (w : W32), Takes s c w 0 0x33 → GuardTrue (s.core c).seq w → bits w 18 0 = 0 →
    (s.core c).seq.stack = [] → ∃ info, exec (.ret c w) s = .next (s.seqFault c 0 0x0506 0 info w)) ∧
  (∀ (s : State) (c : CoreId) (w : W32), Takes s c w 0 0x36 → GuardTrue (s.core c).seq w → bits w 18 14 = 0 →
    exec (.trap c w) s = .next (s.seqFault c 0 0x0507 0 (bits w 13 0) w)) ∧
  (∀ (op size : Nat) (cmd : CoreId → W32 → Instr),
    (cmd, op, size) ∈ ([(.ldh, 0x23, 2), (.ldhu, 0x24, 2), (.ldw, 0x25, 4), (.ldwu, 0x26, 4), (.ldd, 0x27, 8),
      (.sth, 0x29, 2), (.stw, 0x2A, 4), (.std, 0x2B, 8)] : List ((CoreId → W32 → Instr) × Nat × Nat)) →
    ∀ (s : State) (c : CoreId) (w : W32), Takes s c w 0 op → GuardTrue (s.core c).seq w →
    let a := (s.core c).seq.read (bits w 13 9) + BitVec.ofInt 64 (signedOf 9 (bits w 8 0) * size)
    a.toNat % size ≠ 0 → exec (cmd c w) s = .next (s.seqFault c 0 0x0503 a.toNat 0 w))

/-- TRAP completes by raising its fault: the core stops and the failed launch carries a program fault record with code
F-0507, the PC, the instruction word and imm14 (R113, R114).
A twin whose effect differs raises F-0540: the core's instruction has no effect of its own. -/
def Obligations.TrapRecordAndTwinMismatch : Prop :=
  (∀ (s : State) (c : CoreId) (w : W32) (q : Nat) (l : Launch), Takes s c w 0 0x36 → GuardTrue (s.core c).seq w →
    bits w 18 14 = 0 → (s.core c).part = some q → (queueOf q).die = c.die → s.launches.find? q = some l →
    l.fault = none → (s.ctx l.ctx).st = .resident →
    ∃ t l', exec (.trap c w) s = .next t ∧ Stopped t c ∧ t.launches.find? q = some l' ∧ (t.ctx l.ctx).st = .lost ∧
      l'.fault = some { code := 0x0507, src := 0, lcore := (s.core c).lcore, ldie := (s.core c).ldie,
                        pc := (s.core c).seq.pc.toNat, insn := w.toNat, addr := 0, info := bits w 13 0, prog := true,
                        runB := (s.core c).runB }) ∧
  (∀ (s : State) (c : CoreId) (w : W32) (k : SeqRegs), Takes s c w 0 0x00 → bits w 3 0 = 0 → bits w 31 28 = 0 →
    k = { (s.core c).seq with pc := (s.core c).seq.pc + 1 } →
    exec (.add c w) (s.setCore c { s.core c with twin := k }) =
      .next ((s.setCore c { s.core c with twin := k }).twinMismatch c w))

/-- CRD puts a control register of Table 05-4 in rd, zero-extended, and CWR to a read-only register only goes on; a
number that is not listed raises F-0505. SEQ_STATUS carries the phase, the stack depth and the semaphores held. -/
def Obligations.ControlRegisters : Prop :=
  (∀ (s : State) (c : CoreId) (w : W32), Takes s c w 0 0x34 → GuardTrue (s.core c).seq w → bits w 13 9 = 0 →
    bits w 8 0 = 0 → ∃ r v, exec (.crd c w) s = .next (s.withPair c r) ∧ Wrote (s.core c).seq r (bits w 18 14) v ∧
      ((s.core c).seq.stack.length ≤ 16 → (s.core c).sems.length ≤ 4 →
        field v.toNat 31 30 = (match (s.core c).phase with | .load => 0 | .compute => 1 | .store => 2) ∧
        field v.toNat 29 25 = (s.core c).seq.stack.length ∧ field v.toNat 24 22 = (s.core c).sems.length ∧
        (field v.toNat 21 21 = 1 ↔ (s.core c).ypend = true) ∧ v.toNat < 2 ^ 32)) ∧
  (∀ (s : State) (c : CoreId) (w : W32) (a : ArrayId), Takes s c w 0 0x34 → GuardTrue (s.core c).seq w →
    bits w 13 9 = 0 → 0x010 ≤ bits w 8 0 → bits w 8 0 ≤ 0x013 → s.physArray c (bits w 8 0 - 0x010) = some a →
    ∃ r, exec (.crd c w) s = .next (s.withPair c r) ∧
      Wrote (s.core c).seq r (bits w 18 14) (BitVec.ofNat 64 (s.arr a).ast.toNat)) ∧
  (∀ (s : State) (c : CoreId) (w : W32), Takes s c w 0 0x35 → GuardTrue (s.core c).seq w → bits w 18 14 = 0 →
    bits w 8 0 = 0 → exec (.cwr c w) s =
      .next (s.withPair c (jumped (s.core c).seq ((s.core c).seq.pc + 1) (s.core c).seq.stack))) ∧
  (∀ (s : State) (c : CoreId) (w : W32) (a : ArrayId), Takes s c w 0 0x35 → GuardTrue (s.core c).seq w →
    bits w 18 14 = 0 → 0x010 ≤ bits w 8 0 → bits w 8 0 ≤ 0x013 → s.physArray c (bits w 8 0 - 0x010) = some a →
    ∃ t, exec (.cwr c w) s = .next t ∧ (t.core c).seq.pc = (s.core c).seq.pc + 1 ∧
      (t.arr a).ast = (s.arr a).ast &&& ~~~(((s.core c).seq.read (bits w 13 9)).truncate 32)) ∧
  (∀ (s : State) (c : CoreId) (w : W32), GuardTrue (s.core c).seq w → bits w 8 0 ≠ 0 → bits w 8 0 < 0x010 →
    (Takes s c w 0 0x34 → bits w 13 9 = 0 →
      exec (.crd c w) s = .next (s.seqFault c 0 0x0505 0 (bits w 8 0) w)) ∧
    (Takes s c w 0 0x35 → bits w 18 14 = 0 →
      exec (.cwr c w) s = .next (s.seqFault c 0 0x0505 0 (bits w 8 0) w)))

/-- The loads of Table 05-6: constructor, opcode, bytes, and whether the value is extended by its sign. -/
def loadForms : List ((CoreId → W32 → Instr) × Nat × Nat × Bool) :=
  [ (.ldb, 0x21, 1, true), (.ldbu, 0x22, 1, false), (.ldh, 0x23, 2, true), (.ldhu, 0x24, 2, false),
    (.ldw, 0x25, 4, true), (.ldwu, 0x26, 4, false), (.ldd, 0x27, 8, true) ]

/-- The stores of Table 05-6: constructor, opcode, bytes. -/
def storeForms : List ((CoreId → W32 → Instr) × Nat × Nat) :=
  [ (.stb, 0x28, 1), (.sth, 0x29, 2), (.stw, 0x2A, 4), (.std, 0x2B, 8) ]

/-- The address of an M-form access: s[rb] + sext(off9) × size (Table 05-6). -/
def accessAddress (s : State) (c : CoreId) (w : W32) (size : Nat) : W64 :=
  (s.core c).seq.read (bits w 13 9) + BitVec.ofInt 64 (signedOf 9 (bits w 8 0) * size)

/-- A load at a multiple of its size whose address the core's range buffer or die translates to its own die completes
its part by sending one read request, and the sequencer stays at it until the data returns; when the data has come, the
register takes it, extended by the sign or by zeros, and the PC goes on. No byte of memory changes. -/
def Obligations.LoadsRequestAndReturn : Prop :=
  (∀ e ∈ loadForms, ∀ (s : State) (c : CoreId) (w : W32) (pa range : Nat),
    Takes s c w 0 e.2.1 → GuardTrue (s.core c).seq w →
    let a := accessAddress s c w e.2.2.1
    a.toNat % e.2.2.1 = 0 →
    s.xlate c.die (c.key * 2 + 1) (s.corePartition c) (s.coreCtx c) a.toNat .read = .hit pa range →
    pa / 2 ^ 49 = c.die.val →
    ∃ t, exec (e.1 c w) s = .next t ∧
      t.core c = { s.core c with stall := .load (bits w 18 14) e.2.2.1 e.2.2.2 a none, progAt := (s.die c.die).ticks } ∧
      t.reqs = s.reqs.put s.reqNext
        { owner := .seqLoad c.key, die := c.die, partition := s.corePartition c, ctx := s.coreCtx c,
          queue := s.coreQueue c, va := a.toNat, pa := pa, write := false, range := range } ∧
      t.reqNext = s.reqNext + 1 ∧ t.mem = s.mem ∧ ∀ d, d ≠ c → t.core d = s.core d) ∧
  (∀ (s : State) (c : CoreId) (rt size : Nat) (sgn : Bool) (va : W64) (bs : List Byte), s.hasCore c = true →
    (s.core c).stall = .load rt size sgn va (some bs) → (s.core c).twin = (s.core c).seq →
    ∃ t r, exec (.sequencerLoadReturn c) s = .next t ∧
      Wrote (s.core c).seq r rt (if sgn then BitVec.ofInt 64 (signedOf (8 * size) (ofBytesLE (bs.take size)))
        else BitVec.ofNat 64 (ofBytesLE (bs.take size))) ∧
      (t.core c).seq = r ∧ (t.core c).twin = r ∧ (t.core c).stall = .none ∧ t.mem = s.mem)

/-- A store at a multiple of its size whose address translates to the core's own die completes by sending one write
request with the low bytes of s[rt], and the sequencer goes on; no byte of memory changes before a Peat port accepts the
request, and the store then stands among those that FENCE waits for. -/
def Obligations.StoresSendTheirBytes : Prop :=
  ∀ e ∈ storeForms, ∀ (s : State) (c : CoreId) (w : W32) (pa range : Nat),
    Takes s c w 0 e.2.1 → GuardTrue (s.core c).seq w →
    let a := accessAddress s c w e.2.2
    a.toNat % e.2.2 = 0 → (s.core c).runB = false → s.isPaired c = false →
    s.xlate c.die (c.key * 2 + 1) (s.corePartition c) (s.coreCtx c) a.toNat .write = .hit pa range →
    pa / 2 ^ 49 = c.die.val →
    ∃ t r n, exec (e.1 c w) s = .next t ∧ t.reqs.find? s.reqNext = some r ∧ t.reqNext = s.reqNext + 1 ∧
      (∀ m, m ≠ s.reqNext → t.reqs.find? m = s.reqs.find? m) ∧ r.write = true ∧ r.pa = pa ∧ r.va = a.toNat ∧
      r.owner = .seqStore c.key n ∧ r.data.length = e.2.2 ∧
      (∀ i, i < e.2.2 → r.data[i]? = some (pa % 64 + i,
        BitVec.ofNat 8 (((s.core c).seq.read (bits w 18 14)).toNat / 2 ^ (8 * i)))) ∧
      (t.core c).seq = { (s.core c).seq with pc := (s.core c).seq.pc + 1 } ∧ (t.core c).twin = (t.core c).seq ∧
      (t.core c).stores = (s.core c).stores ++ [(n, (s.core c).seq.pc, w)] ∧ (t.core c).stall = .none ∧
      t.mem = s.mem

/-- A store's word is sound: it carries no error that a read would find (R178). -/
def sound (x : Store) : Prop := x.bad = [] ∧ x.single = []

/-- LDCD reads 8 bytes of the core's own store, the lowest address the least significant, and STCD writes 8; every
other byte of the store keeps its content, and so does device memory. No phase and no token takes part. An offset at or
above 1,048,576, or off a multiple of 8, raises F-0504. -/
def Obligations.CoreStoreLoadAndStore : Prop :=
  (∀ (s : State) (c : CoreId) (w : W32), Takes s c w 0 0x2C → GuardTrue (s.core c).seq w → sound (s.core c).store →
    let a := (accessAddress s c w 8).toNat
    a % 8 = 0 → a < 1048576 → ∃ t r, exec (.ldcd c w) s = .next t ∧
      Wrote (s.core c).seq r (bits w 18 14)
        (BitVec.ofNat 64 (ofBytesLE ((List.range 8).map fun i => (s.core c).store.byteAt (a + i)))) ∧
      (t.core c).seq = r ∧ (t.core c).twin = r ∧ (t.core c).store = (s.core c).store ∧
      (t.core c).tokens = (s.core c).tokens ∧ t.mem = s.mem) ∧
  (∀ (s : State) (c : CoreId) (w : W32), Takes s c w 0 0x2D → GuardTrue (s.core c).seq w → sound (s.core c).store →
    let a := (accessAddress s c w 8).toNat
    a % 8 = 0 → a < 1048576 → ∃ t, exec (.stcd c w) s = .next t ∧
      (∀ i, i < 8 → (t.core c).store.byteAt (a + i) =
        BitVec.ofNat 8 (((s.core c).seq.read (bits w 18 14)).toNat / 2 ^ (8 * i))) ∧
      (∀ x, x < a ∨ a + 8 ≤ x → (t.core c).store.byteAt x = (s.core c).store.byteAt x) ∧
      (t.core c).seq = { (s.core c).seq with pc := (s.core c).seq.pc + 1 } ∧ (t.core c).tokens = (s.core c).tokens ∧
      t.mem = s.mem) ∧
  (∀ (op : Nat) (cmd : CoreId → W32 → Instr),
    (cmd, op) ∈ ([(.ldcd, 0x2C), (.stcd, 0x2D)] : List ((CoreId → W32 → Instr) × Nat)) →
    ∀ (s : State) (c : CoreId) (w : W32), Takes s c w 0 op → GuardTrue (s.core c).seq w →
    let a := (accessAddress s c w 8).toNat
    (a % 8 ≠ 0 ∨ 1048576 ≤ a) → exec (cmd c w) s = .next (s.seqFault c 0 0x0504 a 0 w))

/-- A core with no engine instruction dispatched and not complete, and no link credit out. -/
def Calm (s : State) (c : CoreId) : Prop := (s.core c).allList = [] ∧ s.lcred c = 0

/-- FENCE goes on at once where no store of the sequencer is outstanding, and otherwise the sequencer stays at it; YIELD
with a semaphore held only goes on; YIELD with no engine work, no credit and YPEND 0 goes on, with YPEND 1 it stays and is
a preemption point; END with no engine work, no credit, no store and no semaphore ends the core's part and frees the
core. -/
def Obligations.FenceYieldAndEnd : Prop :=
  (∀ (s : State) (c : CoreId) (w : W32), Takes s c w 0 0x2E → GuardTrue (s.core c).seq w → bits w 18 0 = 0 → Calm s c →
    s.isPaired c = false → ∃ t, exec (.fence c w) s = .next t ∧ t.mem = s.mem ∧ (t.core c).seq.s = (s.core c).seq.s ∧
      ((s.core c).stores = [] → (t.core c).seq.pc = (s.core c).seq.pc + 1 ∧ (t.core c).stall = .none) ∧
      ((s.core c).stores ≠ [] → (t.core c).seq.pc = (s.core c).seq.pc ∧ (t.core c).stall = .fence)) ∧
  (∀ (s : State) (c : CoreId) (w : W32), Takes s c w 0 0x37 → GuardTrue (s.core c).seq w → bits w 18 0 = 0 →
    (s.core c).sems ≠ [] → ∃ t, exec (.yield c w) s = .next t ∧ (t.core c).seq.pc = (s.core c).seq.pc + 1 ∧
      (t.core c).stall = .none ∧ (t.core c).v = (s.core c).v) ∧
  (∀ (s : State) (c : CoreId) (w : W32), Takes s c w 0 0x37 → GuardTrue (s.core c).seq w → bits w 18 0 = 0 → Calm s c →
    s.isPaired c = false → (s.core c).sems = [] → ∃ t, exec (.yield c w) s = .next t ∧
      ((s.core c).ypend = false → (t.core c).seq.pc = (s.core c).seq.pc + 1 ∧ (t.core c).stall = .none) ∧
      ((s.core c).ypend = true → (t.core c).seq.pc = (s.core c).seq.pc ∧ (t.core c).stall = .yield)) ∧
  (∀ (s : State) (c : CoreId) (w : W32) (q : Nat) (l : Launch), Takes s c w 0 0x38 → GuardTrue (s.core c).seq w →
    bits w 18 0 = 0 → Calm s c → s.isPaired c = false → (s.core c).sems = [] → (s.core c).stores = [] →
    (s.core c).part = some q → s.launches.find? q = some l →
    ∃ t, exec (.endCmd c w) s = .next t ∧ (t.core c).run = .idle ∧ (t.core c).part = none)

/-- An engine instruction as chapter 6 lists it: its command, unit and EOP, whether it blocks,
      the phase in which it may
be dispatched (none: any), the fields that must be 0 and the values that are not reserved (R115), the fields of its
scalar registers, and the field of the token that it claims for reading and for writing. -/
structure EngineForm where
  cmd : CoreId → W32 → Instr
  unit : Nat
  op : Nat
  blocking : Bool := false
  phase : Option Phase := none
  zero : List (Nat × Nat) := []
  legal : W32 → Prop := fun _ => True
  rs1 : Option (Nat × Nat) := none
  rs2 : Option (Nat × Nat) := none
  reads : Option (Nat × Nat) := none
  writes : Option (Nat × Nat) := none

/-- The ARR. instructions (Table 06-5). -/
def arrayForms : List EngineForm :=
  [ { cmd := .arrMm, unit := 2, op := 0, phase := some .compute, writes := some (5, 0) },
    { cmd := .arrMmg, unit := 2, op := 1, phase := some .compute, writes := some (5, 0) },
    { cmd := .arrWfmt, unit := 2, op := 2, zero := [(17, 13), (7, 0)], rs1 := some (12, 8) },
    { cmd := .arrWcfg, unit := 2, op := 3, zero := [(17, 13), (7, 0)], rs1 := some (12, 8) },
    { cmd := .arrRfmt, unit := 2, op := 4, blocking := true, zero := [(12, 8), (7, 0)] },
    { cmd := .arrRcfg, unit := 2, op := 5, blocking := true, zero := [(12, 8), (7, 0)] } ]

/-- The STR. instructions (Table 06-6). -/
def streamForms : List EngineForm :=
  [ { cmd := .strLd, unit := 3, op := 0, phase := some .load, rs1 := some (13, 9), writes := some (19, 14) },
    { cmd := .strSt, unit := 3, op := 1, phase := some .store, rs1 := some (13, 9), reads := some (19, 14) },
    { cmd := .strLdm, unit := 3, op := 2, phase := some .load, rs1 := some (13, 9), writes := some (19, 14) },
    { cmd := .strStm, unit := 3, op := 3, phase := some .store, rs1 := some (13, 9), reads := some (19, 14) },
    { cmd := .strXp, unit := 3, op := 4, phase := some .load, rs1 := some (13, 9), writes := some (19, 14) },
    { cmd := .strMld, unit := 3, op := 5, phase := some .load, zero := [(19, 14)], rs1 := some (13, 9) },
    { cmd := .strMst, unit := 3, op := 6, phase := some .store, zero := [(19, 14)], rs1 := some (13, 9) },
    { cmd := .strCvrd, unit := 3, op := 8, blocking := true, zero := [(14, 10), (6, 0)],
      legal := fun w => bits w 9 7 < 2 },
    { cmd := .strCvwr, unit := 3, op := 9, zero := [(19, 15), (6, 0)], legal := fun w => bits w 9 7 < 2,
      rs1 := some (14, 10) } ]

/-- The VEC. instructions (Tables 06-7 to 06-9). -/
def vectorForms : List EngineForm :=
  [ { cmd := .vecVld, unit := 4, op := 0, phase := some .compute, zero := [(0, 0)], rs1 := some (8, 4),
      reads := some (14, 9) },
    { cmd := .vecVst, unit := 4, op := 1, phase := some .compute, rs1 := some (8, 4), writes := some (14, 9) },
    { cmd := .vecVopf, unit := 4, op := 2, phase := some .compute,
      legal := fun w => bits w 4 0 ≤ 0xA ∧ (bits w 4 0 = 6 ∨ bits w 4 0 = 7 → bits w 9 5 = 0) },
    { cmd := .vecVopb, unit := 4, op := 3, phase := some .compute,
      legal := fun w => bits w 4 0 ≤ 0xA ∧ (bits w 4 0 = 6 ∨ bits w 4 0 = 7 → bits w 9 5 = 0) },
    { cmd := .vecVopi, unit := 4, op := 4, phase := some .compute, legal := fun w => bits w 4 0 ≤ 0xD },
    { cmd := .vecVsfu, unit := 4, op := 5, phase := some .compute, zero := [(9, 5)],
      legal := fun w => bits w 4 0 ≤ 0xD },
    { cmd := .vecVred, unit := 4, op := 6, phase := some .compute, zero := [(9, 5)],
      legal := fun w => bits w 4 0 ≤ 4 },
    { cmd := .vecVcvt, unit := 4, op := 7, phase := some .compute, zero := [(9, 5)],
      legal := fun w => bits w 4 0 ≤ 3 },
    { cmd := .vecVbcst, unit := 4, op := 8, phase := some .compute, zero := [(9, 0)], rs1 := some (14, 10) },
    { cmd := .vecVmovs, unit := 4, op := 9, blocking := true, phase := some .compute, zero := [(3, 0)] },
    { cmd := .vecVsort, unit := 4, op := 10, phase := some .compute, legal := fun w => bits w 2 1 ≠ 3,
      rs1 := some (7, 3), reads := some (19, 14), writes := some (13, 8) },
    { cmd := .vecVbox, unit := 4, op := 11, phase := some .compute, rs1 := some (7, 3), reads := some (19, 14),
      writes := some (13, 8) },
    { cmd := .vecVnms, unit := 4, op := 12, phase := some .compute, legal := fun w => bits w 1 0 < 2,
      rs1 := some (7, 3), reads := some (19, 14), writes := some (13, 8) } ]

/-- The SYNC. instructions (Table 06-10). -/
def syncForms : List EngineForm :=
  [ { cmd := .syncTdef, unit := 5, op := 0, zero := [(3, 0)], rs1 := some (13, 9), rs2 := some (8, 4),
      writes := some (19, 14) },
    { cmd := .syncTrel, unit := 5, op := 1, zero := [(19, 15), (14, 10), (3, 1), (0, 0)], writes := some (9, 4) },
    { cmd := .syncTstat, unit := 5, op := 2, blocking := true, zero := [(14, 10), (3, 1), (0, 0)] },
    { cmd := .syncPhase, unit := 5, op := 3, blocking := true, zero := [(19, 15), (14, 10), (3, 1), (0, 0)],
      legal := fun w => bits w 9 4 < 3 },
    { cmd := .syncWait, unit := 5, op := 4, blocking := true, zero := [(19, 15), (14, 10), (3, 1), (0, 0)],
      legal := fun w => bits w 9 4 < 16 },
    { cmd := .syncBar, unit := 5, op := 5, blocking := true, zero := [(19, 15), (14, 10), (3, 1), (0, 0)],
      legal := fun w => bits w 9 4 < 8 },
    { cmd := .syncHpost, unit := 5, op := 6, zero := [(19, 15), (3, 1), (0, 0)], rs1 := some (14, 10) },
    { cmd := .syncHwait, unit := 5, op := 7, blocking := true, zero := [(19, 15), (3, 1), (0, 0)], rs1 := some (14,
      10) },
    { cmd := .syncSacq, unit := 5, op := 8, blocking := true, zero := [(19, 15), (3, 1), (0, 0)],
      legal := fun w => bits w 9 4 = 0, rs1 := some (14, 10) },
    { cmd := .syncStry, unit := 5, op := 9, blocking := true, zero := [(19, 15), (0, 0)],
      legal := fun w => bits w 9 4 = 0, rs1 := some (14, 10) },
    { cmd := .syncSrel, unit := 5, op := 10, zero := [(19, 15), (3, 1), (0, 0)], legal := fun w => bits w 9 4 = 0,
      rs1 := some (14, 10) },
    { cmd := .syncAlloc, unit := 5, op := 11, blocking := true, zero := [(3, 1), (0, 0)],
      legal := fun w => bits w 9 4 < 2, rs1 := some (14, 10) },
    { cmd := .syncFree, unit := 5, op := 12, zero := [(19, 15), (3, 1), (0, 0)], legal := fun w => bits w 9 4 < 2,
      rs1 := some (14, 10) },
    { cmd := .syncWgclm, unit := 5, op := 13, blocking := true, zero := [(14, 10), (3, 1), (0, 0)],
      legal := fun w => bits w 9 4 = 0 },
    { cmd := .syncWgbind, unit := 5, op := 14, zero := [(3, 0)], rs1 := some (13, 9), rs2 := some (8, 4),
      writes := some (19, 14) },
    { cmd := .syncWgrel, unit := 5, op := 15, zero := [(19, 15), (3, 1), (0, 0)], legal := fun w => bits w 9 4 = 0,
      rs1 := some (14, 10) } ]

/-- Every engine instruction. -/
def engineForms : List EngineForm := arrayForms ++ streamForms ++ vectorForms ++ syncForms

/-- The value of a scalar register that a field of a word names; 0 where the instruction has none. -/
def operandOf (s : State) (c : CoreId) (w : W32) : Option (Nat × Nat) → W64
  | none => 0
  | some f => (s.core c).seq.read (bits w f.1 f.2)

/-- The encoding check of R115 passes: unused and reserved fields are 0 and no field holds a reserved value. -/
def encodingOk (e : EngineForm) (w : W32) : Prop := (∀ z ∈ e.zero, bits w z.1 z.2 = 0) ∧ e.legal w

/-- The checks at dispatch pass: the phase of R117, the two tokens of a vector sort or box instruction differ, and the
semaphore rules of R108 and R146. -/
def dispatchOk (s : State) (c : CoreId) (w : W32) (e : EngineForm) : Prop :=
  (∀ p, e.phase = some p → (s.core c).phase = p) ∧ (e.unit = 4 → 0xA ≤ e.op → bits w 19 14 ≠ bits w 13 8) ∧
    (e.unit = 5 → (e.op = 8 ∨ e.op = 9) → (s.core c).sems.length < 4) ∧
    (e.unit = 5 → 8 ≤ e.op → e.op ≤ 0xA → s.semValid c (operandOf s c w e.rs1) = true) ∧
    (e.unit = 5 → e.op = 0xA → (operandOf s c w e.rs1).toNat ∈ (s.core c).sems)

/-- The queue that the instruction enters has room: four places in the queue of the array that LA names, eight in the
others. -/
def queueOpen (s : State) (c : CoreId) (w : W32) (e : EngineForm) : Prop :=
  (e.unit = 2 → ∃ a, s.physArray c (bits w 19 18) = some a ∧ (s.arr a).queue.length < 4) ∧
    (e.unit = 3 → (s.core c).strQ.length < 8) ∧ (e.unit = 4 → (s.core c).vecQ.length < 8) ∧
    (e.unit = 5 → (s.core c).syncQ.length < 8)

/-- The queue of the engine that an instruction enters. -/
def queueFor (s : State) (c : CoreId) (w : W32) (e : EngineForm) : List EInstr :=
  if e.unit = 2 then match s.physArray c (bits w 19 18) with | some a => (s.arr a).queue | none => []
  else if e.unit = 3 then (s.core c).strQ else if e.unit = 4 then (s.core c).vecQ else (s.core c).syncQ

/-- Every engine instruction, where it may be dispatched and its queue has room, completes for the sequencer: its word,
its place in the program, its register values and its token claims enter the engine's queue, the sequencer goes on, or
waits for the instruction where it blocks, and the core then does all that it can by itself (`settle`). Up to there no
other core and no byte of memory changes. -/
def Obligations.EngineInstructionsAreQueued : Prop :=
  ∀ e ∈ engineForms, ∀ (s : State) (c : CoreId) (w : W32), Takes s c w e.unit e.op → GuardTrue (s.core c).seq w →
    encodingOk e w → dispatchOk s c w e → queueOpen s c w e →
    ∃ t i, exec (e.cmd c w) s = .next (t.settle c) ∧ queueFor t c w e = queueFor s c w e ++ [i] ∧ i.word = w ∧
      i.pc = (s.core c).seq.pc ∧ i.ord = (s.core c).ordNext ∧ i.x1 = operandOf s c w e.rs1 ∧
      i.x2 = operandOf s c w e.rs2 ∧ (e.unit ≠ 2 → i.reads = (e.reads.map fun f => bits w f.1 f.2).toList) ∧
      i.writes = (e.writes.map fun f => bits w f.1 f.2).toList ∧
      (t.core c).ordNext = (s.core c).ordNext + 1 ∧
      (t.core c).seq = { (s.core c).seq with pc := (s.core c).seq.pc + 1 } ∧ (t.core c).twin = (t.core c).seq ∧
      (t.core c).stall = (if e.blocking then .engine i.ord else .none) ∧ (t.core c).tokens = (s.core c).tokens ∧
      t.mem = s.mem ∧ t.clusters = s.clusters ∧ ∀ d, d ≠ c → t.core d = s.core d

/-- An engine instruction dispatched in a phase that Table 06-2 does not give it raises F-0603, with the phase in INFO,
and is not queued; one whose queue is full leaves the sequencer where it is. -/
def Obligations.DispatchPhaseAndFullQueue : Prop :=
  (∀ e ∈ engineForms, ∀ (s : State) (c : CoreId) (w : W32) (p : Phase), Takes s c w e.unit e.op →
    GuardTrue (s.core c).seq w → encodingOk e w → e.phase = some p → (s.core c).phase ≠ p →
    exec (e.cmd c w) s = .next (s.seqFault c e.unit 0x0603 0
      (match (s.core c).phase with | .load => 0 | .compute => 1 | .store => 2) w)) ∧
  (∀ e ∈ engineForms, ∀ (s : State) (c : CoreId) (w : W32), Takes s c w e.unit e.op → GuardTrue (s.core c).seq w →
    encodingOk e w → dispatchOk s c w e → ¬ queueOpen s c w e → exec (e.cmd c w) s = .next s)

/-- The scalar instructions of Table 05-6 from ADD to LIS, as encodings. -/
def arithmeticForms : List EngineForm :=
  [ { cmd := .add, unit := 0, op := 0x0, zero := [(3, 0)] },
    { cmd := .sub, unit := 0, op := 0x1, zero := [(3, 0)] },
    { cmd := .and, unit := 0, op := 0x2, zero := [(3, 0)] },
    { cmd := .or, unit := 0, op := 0x3, zero := [(3, 0)] },
    { cmd := .xor, unit := 0, op := 0x4, zero := [(3, 0)] },
    { cmd := .shl, unit := 0, op := 0x5, zero := [(3, 0)] },
    { cmd := .shr, unit := 0, op := 0x6, zero := [(3, 0)] },
    { cmd := .sra, unit := 0, op := 0x7, zero := [(3, 0)] },
    { cmd := .mul, unit := 0, op := 0x8, zero := [(3, 0)] },
    { cmd := .mulh, unit := 0, op := 0x9, zero := [(3, 0)] },
    { cmd := .mulhu, unit := 0, op := 0xa, zero := [(3, 0)] },
    { cmd := .min, unit := 0, op := 0xb, zero := [(3, 0)] },
    { cmd := .max, unit := 0, op := 0xc, zero := [(3, 0)] },
    { cmd := .minu, unit := 0, op := 0xd, zero := [(3, 0)] },
    { cmd := .maxu, unit := 0, op := 0xe, zero := [(3, 0)] },
    { cmd := .divu, unit := 0, op := 0xf, zero := [(3, 0)] },
    { cmd := .remu, unit := 0, op := 0x10, zero := [(3, 0)] },
    { cmd := .addi, unit := 0, op := 0x11 },
    { cmd := .andi, unit := 0, op := 0x12 },
    { cmd := .ori, unit := 0, op := 0x13 },
    { cmd := .xori, unit := 0, op := 0x14 },
    { cmd := .shli, unit := 0, op := 0x15, zero := [(8, 6)] },
    { cmd := .shri, unit := 0, op := 0x16, zero := [(8, 6)] },
    { cmd := .srai, unit := 0, op := 0x17, zero := [(8, 6)] },
    { cmd := .muli, unit := 0, op := 0x18 },
    { cmd := .li, unit := 0, op := 0x19 },
    { cmd := .lis, unit := 0, op := 0x1a } ]

/-- The scalar instructions of Table 05-6 from CMP to END, as encodings. -/
def otherScalarForms : List EngineForm :=
  [ { cmd := .cmp, unit := 0, op := 0x1b, zero := [(1, 0)], legal := fun w => bits w 5 2 < 0xD },
    { cmd := .cmpi, unit := 0, op := 0x1c, legal := fun w => bits w 10 7 < 0xD },
    { cmd := .plog, unit := 0, op := 0x1d, zero := [(5, 0)] },
    { cmd := .prd, unit := 0, op := 0x1e, zero := [(13, 0)] },
    { cmd := .pwr, unit := 0, op := 0x1f, zero := [(18, 14), (8, 0)] },
    { cmd := .time, unit := 0, op := 0x20, zero := [(13, 0)] },
    { cmd := .ldb, unit := 0, op := 0x21 },
    { cmd := .ldbu, unit := 0, op := 0x22 },
    { cmd := .ldh, unit := 0, op := 0x23 },
    { cmd := .ldhu, unit := 0, op := 0x24 },
    { cmd := .ldw, unit := 0, op := 0x25 },
    { cmd := .ldwu, unit := 0, op := 0x26 },
    { cmd := .ldd, unit := 0, op := 0x27 },
    { cmd := .stb, unit := 0, op := 0x28 },
    { cmd := .sth, unit := 0, op := 0x29 },
    { cmd := .stw, unit := 0, op := 0x2a },
    { cmd := .std, unit := 0, op := 0x2b },
    { cmd := .ldcd, unit := 0, op := 0x2c },
    { cmd := .stcd, unit := 0, op := 0x2d },
    { cmd := .fence, unit := 0, op := 0x2e, zero := [(18, 0)] },
    { cmd := .br, unit := 0, op := 0x30 },
    { cmd := .call, unit := 0, op := 0x31 },
    { cmd := .callr, unit := 0, op := 0x32, zero := [(18, 14)] },
    { cmd := .ret, unit := 0, op := 0x33, zero := [(18, 0)] },
    { cmd := .crd, unit := 0, op := 0x34, zero := [(13, 9)] },
    { cmd := .cwr, unit := 0, op := 0x35, zero := [(18, 14)] },
    { cmd := .trap, unit := 0, op := 0x36, zero := [(18, 14)] },
    { cmd := .yield, unit := 0, op := 0x37, zero := [(18, 0)] },
    { cmd := .endCmd, unit := 0, op := 0x38, zero := [(18, 0)] } ]

/-- Every instruction of a core. -/
def instructionForms : List EngineForm := arithmeticForms ++ otherScalarForms ++ engineForms

/-- An instruction whose guard is false has no effect but that the PC goes on: nothing is sent to an engine, no operand
is checked, and nothing else of the machine changes. The word 0x8000_0000 is the no-operation, whatever the predicates. -/
def Obligations.FalseGuardOnlyAdvances : Prop :=
  (∀ e ∈ instructionForms, ∀ (s : State) (c : CoreId) (w : W32), Takes s c w e.unit e.op → encodingOk e w →
    ¬ GuardTrue (s.core c).seq w →
    exec (e.cmd c w) s =
      .next (s.withPair c (jumped (s.core c).seq ((s.core c).seq.pc + 1) (s.core c).seq.stack))) ∧
  (∀ (s : State) (c : CoreId), Takes s c 0x80000000 0 0x00 →
    exec (.add c 0x80000000) s =
      .next (s.withPair c (jumped (s.core c).seq ((s.core c).seq.pc + 1) (s.core c).seq.stack)))

/-- A word with a reserved or unused field that is not 0, or a reserved value in a field, and a word of a reserved unit,
raises F-0501, whatever its guard. -/
def Obligations.ReservedEncodingsFault : Prop :=
  ∀ e ∈ instructionForms, ∀ (s : State) (c : CoreId) (w : W32),
    (Takes s c w e.unit e.op → ¬ encodingOk e w → exec (e.cmd c w) s = .next (s.seqFault c 0 0x0501 0 0 w)) ∧
    (∀ u op, Takes s c w u op → (u = 1 ∨ u = 6 ∨ u = 7) → exec (e.cmd c w) s = .next (s.seqFault c 0 0x0501 0 0 w))

/-- BR, CALL, CALLR and RET complete: the PC takes the target, which is an instruction index modulo 2^64 and is not
checked here; CALL and CALLR push PC + 1 while the stack holds fewer than 16 indices, and RET pops. Nothing else
changes.
A PC at or beyond CODE_WORDS raises F-0502 when it is fetched, whatever the command says stands there. -/
def Obligations.BranchesCallsAndFetchBounds : Prop :=
  ((∀ (s : State) (c : CoreId) (w : W32), Takes s c w 0 0x30 → GuardTrue (s.core c).seq w →
    exec (.br c w) s = .next (s.withPair c (jumped (s.core c).seq
      ((s.core c).seq.pc + BitVec.ofInt 64 (signedOf 19 (bits w 18 0))) (s.core c).seq.stack))) ∧
  (∀ (s : State) (c : CoreId) (w : W32), Takes s c w 0 0x31 → GuardTrue (s.core c).seq w →
    (s.core c).seq.stack.length < 16 →
    exec (.call c w) s = .next (s.withPair c (jumped (s.core c).seq
      ((s.core c).seq.pc + BitVec.ofInt 64 (signedOf 19 (bits w 18 0))) ((s.core c).seq.stack ++ [(s.core c).seq.pc + 1])))) ∧
  (∀ (s : State) (c : CoreId) (w : W32), Takes s c w 0 0x32 → GuardTrue (s.core c).seq w → bits w 18 14 = 0 →
    (s.core c).seq.stack.length < 16 →
    exec (.callr c w) s = .next (s.withPair c (jumped (s.core c).seq
      ((s.core c).seq.read (bits w 13 9) + BitVec.ofInt 64 (signedOf 9 (bits w 8 0)))
      ((s.core c).seq.stack ++ [(s.core c).seq.pc + 1])))) ∧
  (∀ (s : State) (c : CoreId) (w : W32) (rest : List W64) (x : W64), Takes s c w 0 0x33 →
    GuardTrue (s.core c).seq w → bits w 18 0 = 0 → (s.core c).seq.stack = rest ++ [x] →
    exec (.ret c w) s = .next (s.withPair c (jumped (s.core c).seq x rest)))) ∧
  (∀ e ∈ instructionForms, ∀ (s : State) (c : CoreId) (w : W32), s.hasCore c = true → (s.core c).run = .running →
    (s.core c).stall = .none → (s.core c).codeWords ≤ (s.core c).seq.pc.toNat →
    exec (e.cmd c w) s = .next (s.seqFault c 0 0x0502 0 (s.core c).seq.pc.toNat 0))

/-- A core without engine work, of an unpaired launch, takes a synchronisation instruction with opcode `op` whose guard is
true: nothing stands before it in the order of dispatch. -/
structure SyncTakes (s : State) (c : CoreId) (w : W32) (op : Nat) : Prop where
  takes : Takes s c w 5 op
  guard : GuardTrue (s.core c).seq w
  calm : Calm s c
  alone : s.isPaired c = false

/-- The synchronisation instruction has completed for the sequencer, which holds `r`. -/
def SyncOver (t : State) (c : CoreId) (r : SeqRegs) : Prop :=
  (t.core c).seq = r ∧ (t.core c).twin = r ∧ (t.core c).stall = .none ∧ (t.core c).syncQ = []

/-- The registers of a core's sequencer with the PC gone on by 1. -/
def wentOn (s : State) (c : CoreId) : SeqRegs := { (s.core c).seq with pc := (s.core c).seq.pc + 1 }

/-- SYNC.TDEF gives a token the descriptor in s[rs1] and s[rs2], EMPTY and PLAIN, where the check of R119 passes, and the
core stops where it fails; SYNC.TREL makes a token EMPTY and keeps its kind and descriptor; SYNC.TSTAT reads a token's
state and kind. No other token changes. -/
def Obligations.TokenInstructions : Prop :=
  (∀ (s : State) (c : CoreId) (w : W32), SyncTakes s c w 0x00 → bits w 3 0 = 0 →
    Token.descOk ((s.core c).seq.read (bits w 13 9)) ((s.core c).seq.read (bits w 8 4)) (s.core c).csBytes = true →
    ∃ t, exec (.syncTdef c w) s = .next t ∧ SyncOver t c (wentOn s c) ∧
      (t.core c).tok (bits w 19 14) =
        { region := (s.core c).seq.read (bits w 13 9), shape := (s.core c).seq.read (bits w 8 4) } ∧
      ∀ n, n ≠ bits w 19 14 → (t.core c).tok n = (s.core c).tok n) ∧
  (∀ (s : State) (c : CoreId) (w : W32), SyncTakes s c w 0x00 → bits w 3 0 = 0 →
    Token.descOk ((s.core c).seq.read (bits w 13 9)) ((s.core c).seq.read (bits w 8 4)) (s.core c).csBytes = false →
    ∃ t, exec (.syncTdef c w) s = .next t ∧ Stopped t c) ∧
  (∀ (s : State) (c : CoreId) (w : W32), SyncTakes s c w 0x01 → bits w 19 10 = 0 → bits w 3 0 = 0 →
    ∃ t, exec (.syncTrel c w) s = .next t ∧ SyncOver t c (wentOn s c) ∧
      (t.core c).tok (bits w 9 4) = { (s.core c).tok (bits w 9 4) with st := .empty } ∧
      ∀ n, n ≠ bits w 9 4 → (t.core c).tok n = (s.core c).tok n) ∧
  (∀ (s : State) (c : CoreId) (w : W32), SyncTakes s c w 0x02 → bits w 14 10 = 0 → bits w 3 0 = 0 →
    ∃ t r, exec (.syncTstat c w) s = .next t ∧ SyncOver t c r ∧
      Wrote (s.core c).seq r (bits w 19 15) (BitVec.ofNat 64
        ((match ((s.core c).tok (bits w 9 4)).st with | .empty => 0 | .filling => 1 | .present => 2) +
          (if ((s.core c).tok (bits w 9 4)).window.isSome then 4 else 0))))

/-- SYNC.PHASE out of COMPUTE with no engine work sets the phase STORE at once, and for LOAD it requests the load grant
of the cluster and waits; SYNC.WAIT on engines without work goes on. -/
def Obligations.PhaseAndWait : Prop :=
  (∀ (s : State) (c : CoreId) (w : W32), SyncTakes s c w 0x03 → bits w 19 10 = 0 → bits w 3 0 = 0 → bits w 9 4 = 2 →
    (s.core c).phase = .compute →
    ∃ t, exec (.syncPhase c w) s = .next t ∧ SyncOver t c (wentOn s c) ∧ (t.core c).phase = .store) ∧
  (∀ (s : State) (c : CoreId) (w : W32), SyncTakes s c w 0x03 → bits w 19 10 = 0 → bits w 3 0 = 0 → bits w 9 4 = 0 →
    (s.core c).phase = .compute → s.holdsGrant c = false → (s.core c).grantReq = false →
    ∃ t, exec (.syncPhase c w) s = .next t ∧ (t.core c).phase = .compute ∧ (t.core c).grantReq = true ∧
      (t.core c).stall = .engine (s.core c).ordNext) ∧
  (∀ (s : State) (c : CoreId) (w : W32), SyncTakes s c w 0x04 → bits w 19 10 = 0 → bits w 3 0 = 0 → bits w 9 8 = 0 →
    ∃ t, exec (.syncWait c w) s = .next t ∧ SyncOver t c (wentOn s c))

/-- SYNC.HPOST adds s[rs1] to a halo counter of the cluster, modulo 2^32; SYNC.HWAIT goes on where the counter has
reached s[rs1] in the wrap-aware order and waits otherwise; SYNC.BAR adds the core's arrival at a barrier and waits. -/
def Obligations.HaloCountersAndBarrier : Prop :=
  (∀ (s : State) (c : CoreId) (w : W32), SyncTakes s c w 0x06 → bits w 19 15 = 0 → bits w 3 0 = 0 →
    ∃ t, exec (.syncHpost c w) s = .next t ∧ SyncOver t c (wentOn s c) ∧
      t.halo c (bits w 9 4) = s.halo c (bits w 9 4) + ((s.core c).seq.read (bits w 14 10)).truncate 32 ∧
      ∀ n, n ≠ bits w 9 4 → t.halo c n = s.halo c n) ∧
  (∀ (s : State) (c : CoreId) (w : W32), SyncTakes s c w 0x07 → bits w 19 15 = 0 → bits w 3 0 = 0 →
    (s.core c).haloWaiting = false →
    let d := s.halo c (bits w 9 4) - ((s.core c).seq.read (bits w 14 10)).truncate 32
    ∃ t, exec (.syncHwait c w) s = .next t ∧ (0 ≤ d.toInt → SyncOver t c (wentOn s c)) ∧
      (d.toInt < 0 → (t.core c).haloWaiting = true ∧ (t.core c).stall = .engine (s.core c).ordNext)) ∧
  (∀ (s : State) (c : CoreId) (w : W32), SyncTakes s c w 0x05 → bits w 19 10 = 0 → bits w 3 0 = 0 → bits w 9 7 = 0 →
    (s.core c).atBarrier = none → (s.core c).stores = [] →
    ∃ t, exec (.syncBar c w) s = .next t ∧ (t.core c).atBarrier = some (bits w 9 4) ∧
      (t.core c).stall = .engine (s.core c).ordNext ∧
      (t.cluster c.cluster).arrivals.get 0 (s.arrivalKey c (bits w 9 4)) =
        (s.cluster c.cluster).arrivals.get 0 (s.arrivalKey c (bits w 9 4)) + 1)

/-- SYNC.ALLOC from pool 0 returns the lowest granule of the cluster's map store that is free and long enough, and
SYNC.FREE gives it back; SYNC.WGCLM claims the lowest window generator that is free to the launch, or returns all ones. -/
def Obligations.AllocationAndGenerators : Prop :=
  (∀ (s : State) (c : CoreId) (w : W32), SyncTakes s c w 0x0B → bits w 9 0 = 0 →
    (s.cluster c.cluster).allocs = [] → (s.cluster c.cluster).msStatic % 2048 = 0 →
    let n := ((s.core c).seq.read (bits w 14 10)).toNat
    0 < n → n + (s.cluster c.cluster).msStatic ≤ 6291456 →
    ∃ t r, exec (.syncAlloc c w) s = .next t ∧ SyncOver t c r ∧
      Wrote (s.core c).seq r (bits w 19 15) (BitVec.ofNat 64 (s.cluster c.cluster).msStatic) ∧
      (t.cluster c.cluster).allocs = [((s.cluster c.cluster).msStatic / 2048, (n + 2047) / 2048)]) ∧
  (∀ (s : State) (c : CoreId) (w : W32) (g n : Nat), SyncTakes s c w 0x0C → bits w 19 15 = 0 → bits w 9 0 = 0 →
    (s.core c).stores = [] → (s.cluster c.cluster).allocs = [(g, n)] → 0 < g →
    ((s.core c).seq.read (bits w 14 10)).toNat = 2048 * g →
    ∃ t, exec (.syncFree c w) s = .next t ∧ SyncOver t c (wentOn s c) ∧ (t.cluster c.cluster).allocs = []) ∧
  (∀ (s : State) (c : CoreId) (w : W32), SyncTakes s c w 0x0D → bits w 14 0 = 0 →
    ∃ t r, exec (.syncWgclm c w) s = .next t ∧ SyncOver t c r ∧
      match s.claimable c with
      | none => Wrote (s.core c).seq r (bits w 19 15) (BitVec.allOnes 64)
      | some g => Wrote (s.core c).seq r (bits w 19 15) (BitVec.ofNat 64 g) ∧
          ((t.cluster c.cluster).gens.get {} g).claim = some (s.logClusterKey c))

/-- The array at the head of whose queue stands an ARR.MM with its claims satisfied, its format right and the array idle
issues it: the operation runs under the ARR_FMT and ARR_CFG in force and, where its stationary token is a window, with
the geometry bound to it now; its output token is FILLING. The gather window's
expiry issues the open group.
An array operation whose results the array can write completes: the array is idle, and the output token of its
instruction is PRESENT. -/
def Obligations.ArrayIssueAndCompletion : Prop :=
  ((∀ (s : State) (a : ArrayId) (i : EInstr) (rest : List EInstr), s.hasArray a = true →
    (s.core a.core).run = .running → (s.core a.core).phase = .compute → (s.arr a).queue = i :: rest →
    (s.arr a).run = [] → (s.arr a).group = [] → bits i.word 24 20 = 0 →
    (s.core a.core).mmReady (s.arr a).fmt i = true → (s.core a.core).mmFault (s.arr a).fmt (s.arr a).cfg i.word = none →
    ∃ u : State, exec (.arrayIssue a) s = .next (u.settle a.core) ∧ (u.arr a).run = [(s.core a.core).latch i] ∧
    (u.arr a).queue = rest ∧
      (u.arr a).runFmt = (s.arr a).fmt ∧ (u.arr a).runCfg = (s.arr a).cfg ∧
      ((u.core a.core).tok (bits i.word 5 0)).st = .filling ∧ u.mem = s.mem) ∧
  (∀ (s : State) (a : ArrayId), s.hasArray a = true → (s.arr a).group ≠ [] → (s.arr a).run = [] →
    min 2000 (field (s.arr a).cfg.toNat 11 0) ≤ s.since a.core.die (s.arr a).groupAt →
    ∃ u : State, exec (.gatherWindowExpiry a) s = .next (u.settle a.core) ∧
    (u.arr a).run = (s.arr a).group.map (s.core a.core).latch ∧
      (u.arr a).group = [] ∧ u.mem = s.mem)) ∧
  (∀ (s t : State) (a : ArrayId) (i : EInstr), s.hasArray a = true → (s.arr a).run = [i] →
    s.mmRunAll a (s.arr a).runFmt (s.arr a).runCfg [i] = (t, none) →
    ∃ u : State, exec (.arrayComplete a) s = .next ((u.settle a.core).quietCheck a.core) ∧ (u.arr a).run = [] ∧
      ((u.core a.core).tok (bits i.word 5 0)).st = .present)

/-- The array controller: an array that has been idle for 200 counts in FILL or RAMP goes to FILL_DOWN, the density level
moves by one towards the level due at least 12 counts after its last change, and a filler pattern that passes is counted
and followed by the next of 32. -/
def Obligations.ArrayControllerAndFiller : Prop :=
  (∀ (s : State) (a : ArrayId), s.hasArray a = true → (s.arr a).run = [] → (s.arr a).mode = .fill →
    200 ≤ s.since a.core.die (s.arr a).idleAt →
    exec (.idleTimerExpiry a) s = .next (s.setArr a { s.arr a with
      mode := .fillDown, modeAt := (s.die a.core.die).ticks, entryLevel := 8,
      before := some (.fill, (s.arr a).modeAt, (s.arr a).entryLevel) })) ∧
  (∀ (s : State) (a : ArrayId), s.hasArray a = true → (s.arr a).mode = .fillDown →
    12 ≤ s.since a.core.die (s.arr a).densityAt →
    (s.arr a).entryLevel - 8 * s.since a.core.die (s.arr a).modeAt / 100 < (s.arr a).density →
    ∃ t : State, exec (.densityChange a) s = .next t ∧ (t.arr a).density + 1 = (s.arr a).density ∧
      ((t.arr a).density = 0 → (t.arr a).mode = .quiet) ∧ (t.arr a).densityAt = (s.die a.core.die).ticks) ∧
  (∀ (s : State) (a : ArrayId), s.hasArray a = true → (s.arr a).run = [] → (s.arr a).mode = .fill →
    exec (.fillerPattern a true) s = .next (s.setArr a { s.arr a with
      fpass := (s.arr a).fpass + 1, latches := some s.freeNext, pattern := ((s.arr a).pattern + 1) % 32 }).draw.2) ∧
  (∀ (s : State) (a : ArrayId), s.hasArray a = true → (s.arr a).run = [] → (s.arr a).mode = .fill →
    ∃ t : State, exec (.fillerPattern a false) s = .next t ∧ (t.arr a).fillerFail = true ∧
      ((s.arr a).fillerFail = false → (t.arr a).failPat = (s.arr a).pattern))

/-- A stream instruction whose claims are satisfied reads the entries it needs from the table of its launch in device memory
and, once the responses hold them and they are right with its token and its footprints meet no other in flight, is issued; a
finished one leaves the engine. -/
def Obligations.StreamIssueAndCompletion : Prop :=
  (∀ (s s' t : State) (c : CoreId) (i : EInstr) (rest : List EInstr) (r : StreamRun) (bs : List Byte), s.hasCore c = true →
    (s.core c).run = .running → (s.core c).strQ = i :: rest → (s.core c).strRun = [] → (s.core c).strAbort = none →
    bits i.word 24 20 < 8 → (s.core c).readsOk i = true → (s.core c).writesOk i [.empty] = true →
    s.holdsGrant c = true → s.transHeld c.die (.stream c.key i.ord) = false →
    let n := if streamPair i.word then 192 else 96
    let at' := 96 * bits i.word 8 0
    let o : Owner := .stream c.key i.ord
    at' + n ≤ (s.sdtOf c).length → s.streamRoom c o (s.coreQueue c) 4 false = true →
    s.readVa c.die o (s.corePartition c) (s.coreCtx c) ((s.sdtAddr c + at') % 2 ^ 64) n .read false =
      (s', .ok bs) → s'.core c = s.core c →
    let sdt := (s.sdtOf c).take at' ++ bs ++ (s.sdtOf c).drop (at' + n)
    streamFault sdt i = none → (streamChecks (s.core c) sdt i).findSome? (·.2) = none →
    ((s'.busDone c.die o).updCore c fun k => { k with strQ := rest }).streamPrep c i sdt = (t, .ok r) →
    ∃ (u : State) (l : List StreamRun), exec (.streamIssue c) s = .next (u.pumpStream c) ∧
      (u.core c).strRun = l ++ [{ r with startAt := (t.die c.die).ticks }] ∧
      ∀ n ∈ i.writes, ((u.core c).tok n).st = .filling) ∧
  (∀ (s t : State) (c : CoreId) (r : StreamRun), s.hasCore c = true → s.streamReady c = some r →
    s.streamFinish c r = (t, none) →
    ∃ u : State, exec (.streamComplete c) s = .next ((u.settle c).quietCheck c) ∧
      ∀ q ∈ (u.core c).strRun, q.ins.ord ≠ r.ins.ord)

/-- A vector instruction whose claims are satisfied is issued in COMPUTE, and its written token is FILLING; it completes
in order, and VBCST has then put s[rs1] in every lane of VD and VMOVS has put lane LANE of VA in rd. -/
def Obligations.VectorIssueAndCompletion : Prop :=
  (∀ (s : State) (c : CoreId) (i : EInstr) (rest : List EInstr), s.hasCore c = true → (s.core c).run = .running →
    (s.core c).phase = .compute → (s.core c).vecQ = i :: rest → vecReady (s.core c) i = true →
    vecCountOk i.word i.x1 = true → (vecChecks (s.core c) i).findSome? (·.2) = none →
    ∃ t : State, exec (.vectorIssue c) s = .next t ∧ (t.core c).vecQ = rest ∧ (t.core c).vecRun = (s.core c).vecRun ++ [i] ∧
      (∀ n ∈ i.writes, ((t.core c).tok n).st = .filling) ∧ t.mem = s.mem) ∧
  (∀ (s t : State) (c : CoreId) (i : EInstr) (rest : List EInstr), s.hasCore c = true → (s.core c).vecRun = i :: rest →
    s.vecFinish c i = (t, none) →
    ∃ u : State, exec (.vectorComplete c) s = .next ((u.settle c).quietCheck c) ∧ (u.core c).vecRun = rest) ∧
  (∀ (s : State) (c : CoreId) (i : EInstr) (rest : List EInstr), s.hasCore c = true → (s.core c).vecRun = i :: rest →
    bits i.word 24 20 = 8 →
    ∃ u : State, exec (.vectorComplete c) s = .next ((u.settle c).quietCheck c) ∧
      (∀ l, l < 64 → (u.core c).lane (bits i.word 19 15) l = i.x1.truncate 32) ∧
      ∀ v l, v ≠ bits i.word 19 15 → l < 64 → (u.core c).lane v l = (s.core c).lane v l) ∧
  (∀ (s : State) (c : CoreId) (i : EInstr) (rest : List EInstr), s.hasCore c = true → (s.core c).vecRun = i :: rest →
    bits i.word 24 20 = 9 → (s.core c).stall = .engine i.ord → bits i.word 19 15 ≠ 0 →
    ∃ u : State, exec (.vectorComplete c) s = .next ((u.settle c).quietCheck c) ∧ (u.core c).stall = .none ∧
      (u.core c).seq.read (bits i.word 19 15) =
        BitVec.ofNat 64 ((s.core c).lane (bits i.word 14 10) (bits i.word 9 4)).toNat)

/-- A core of a launch reads the image header at the launch's image address and, where the header passes the check of R93,
starts the program: PC at ENTRY, s1 the launch's argument, s2 to s6 its indices and the launch count, COMPUTE, every token
EMPTY. A header at an address that is not a multiple of 64 fails the launch. -/
def Obligations.LaunchHeaderAndEntry : Prop :=
  (∀ (s t : State) (c : CoreId) (h : List Byte) (q : Nat) (l : Launch) (n : W64), s.hasCore c = true →
    (s.core c).run = .header → s.transHeld c.die (.fetch c.key) = false → (s.core c).image.toNat % 64 = 0 →
    s.readVa c.die (.fetch c.key) (s.corePartition c) (s.coreCtx c) (s.core c).image.toNat 64 .fetch false = (t, .ok h) →
    hdrBad h = none → t.core c = s.core c → (s.core c).part = some q → t.launches.find? q = some l → l.count = some n →
    ∃ u : State, exec (.launchHeaderCheck c) s = .next u ∧ (u.core c).run = .running ∧
      (u.core c).seq.pc = BitVec.ofNat 64 (hdrEntry h) ∧ (u.core c).twin = (u.core c).seq ∧
      (u.core c).seq.read 1 = BitVec.ofNat 64 (fieldAt l.cmd 0x10 8) ∧
      (u.core c).seq.read 2 = BitVec.ofNat 64 (s.core c).lcore ∧ (u.core c).seq.read 3 = BitVec.ofNat 64 (s.core c).ncores ∧
      (u.core c).seq.read 4 = BitVec.ofNat 64 (s.core c).lcluster ∧
      (u.core c).seq.read 5 = BitVec.ofNat 64 (s.core c).ldie ∧ (u.core c).seq.read 6 = n ∧
      (∀ r, 6 < r → (u.core c).seq.read r = 0) ∧ (u.core c).seq.stack = [] ∧ (u.core c).phase = .compute ∧
      (u.core c).codeWords = hdrWords h ∧ (u.core c).csBytes = hdrCsBytes h ∧ (u.core c).tokens = {}) ∧
  (∀ (s : State) (c : CoreId), s.hasCore c = true → (s.core c).run = .header →
    s.transHeld c.die (.fetch c.key) = false → (s.core c).image.toNat % 64 ≠ 0 →
    exec (.launchHeaderCheck c) s =
      .next (s.progFault c 6 0x0510 (s.core c).image.toNat 0xFFFFFFFFFFFFFFFF 0xFFFFFFFF 0))

/-- A code block that is wanted, read and found good enters the instruction buffer: its 512 words stand at their indices,
and its number is the newest of at most eight; a bad block fails the launch with F-1601. -/
def Obligations.CodeBlocksEnterTheBuffer : Prop :=
  (∀ (s t : State) (c : CoreId) (b : Nat) (blk : List Byte), s.hasCore c = true → s.wantedBlock c = some b →
    s.transHeld c.die (.fetch c.key) = false →
    s.readVa c.die (.fetch c.key) (s.corePartition c) (s.coreCtx c)
      (((s.core c).image.toNat + (s.core c).codeOff + 2056 * b) % 2 ^ 64) 2056 .fetch false = (t, .ok blk) →
    blockCheck blk (addrTag (((s.core c).image.toNat + (s.core c).codeOff + 2056 * b) % 2 ^ 64)) = none →
    ∃ u : State, exec (.codeBlockFetch c) s = .next u ∧ (u.core c).blocks.getLast? = some b ∧
      ∀ i, i < 512 → (u.core c).code.find? (512 * b + i) = some (blockWord blk i)) ∧
  (∀ (s t : State) (c : CoreId) (b info : Nat) (blk : List Byte), s.hasCore c = true → s.wantedBlock c = some b →
    s.transHeld c.die (.fetch c.key) = false →
    s.readVa c.die (.fetch c.key) (s.corePartition c) (s.coreCtx c)
      (((s.core c).image.toNat + (s.core c).codeOff + 2056 * b) % 2 ^ 64) 2056 .fetch false = (t, .ok blk) →
    blockCheck blk (addrTag (((s.core c).image.toNat + (s.core c).codeOff + 2056 * b) % 2 ^ 64)) = some info →
    exec (.codeBlockFetch c) s =
      .next ((t.busDone c.die (.fetch c.key)).progFault c 6 0x1601
        (((s.core c).image.toNat + (s.core c).codeOff + 2056 * b) % 2 ^ 64) info
        (s.core c).seq.pc.toNat 0))

/-- A code violation on the signals of a core's pair fails its launch with F-0541, starts the reset ladder at the core and
stops it; where an escalation covers the core already, the launch does not fail with it again. In another unit, which no
escalation covers or lies in, it starts one escalation of that unit; a die whose compute part is held in reset
outside an escalation starts none. -/
def Obligations.CodeViolationsStartTheLadder : Prop :=
  (∀ (s : State) (c : CoreId), s.hasCore c = true → s.outOfService (.core c) = false → ∃ u : State,
    exec (.codeViolation (.core c)) s = .next ((u.startLadder (.core c) 0x0541).stopCore c) ∧
      ((∀ e ∈ (s.die c.die).escalations, (e.unit.atLevel e.level).contains (.core c) = false) →
        u = (s.seqFault c 0 0x0541 0 0 ((s.core c).code.get 0 (s.core c).seq.pc.toNat)).report c.die 0x0541 0) ∧
      ((∃ e ∈ (s.die c.die).escalations, (e.unit.atLevel e.level).contains (.core c) = true) → u = s)) ∧
  (∀ (s : State) (d : DieId), s.hasDie d = true → (s.die d).computeReset = false → (s.die d).escalations = [] →
    ∃ (t : State) (e : Escalation), exec (.codeViolation (.die d)) s = .next t ∧ (t.die d).escalations = [e] ∧
      e.unit = .die d ∧ e.code = 0x1802 ∧ e.level = .die ∧ e.resetAt = none) ∧
  (∀ (s : State) (d : DieId), s.hasDie d = true → s.outOfService (.die d) = true →
    exec (.codeViolation (.die d)) s = .next s)

/-- The load grant of a cluster that no core holds goes to the core that asks for it; of two that ask, to the one with the
lower logical index. A core that waits on a halo counter or a barrier gets no grant.
A barrier that every core of the logical cluster has reached equally often releases the core that waits at it, a halo
wait whose counter has come ends, and a semaphore with a free unit grants it to the core that has waited longest. -/
def Obligations.GrantsAndSynchronisationWaits : Prop :=
  ((∀ (s : State) (k : ClusterId) (c : CoreId), s.hasCluster k = true → (s.cluster k).holder = none → c.cluster = k →
    ((s.clusterCores k).filter s.asksGrant) = [c] →
    ∃ u : State, exec (.loadGrant k) s = .next (u.settle c) ∧ u.holdsGrant c = true ∧ (u.core c).grantReq = false) ∧
  (∀ (s : State) (k : ClusterId) (c d : CoreId), s.hasCluster k = true → (s.cluster k).holder = none → c.cluster = k →
    d.cluster = k → s.lcoreInCluster c < s.lcoreInCluster d →
    ((s.clusterCores k).filter s.asksGrant) = [d, c] →
    ∃ u : State, exec (.loadGrant k) s = .next (u.settle c) ∧ u.holdsGrant c = true) ∧
  (∀ (s : State) (k : ClusterId), s.hasCluster k = true → (s.cluster k).holder ≠ none → exec (.loadGrant k) s = .next s)) ∧
  ((∀ (s : State) (c : CoreId) (b : Fin 8) (i : EInstr) (rest : List EInstr), s.hasCluster c.cluster = true →
    ((s.clusterCores c.cluster).filter fun d =>
      decide ((s.core d).atBarrier = some b.val) && decide ((s.core d).run = .running)) = [c] →
    (s.core c).syncQ = i :: rest → (s.core c).stall = .engine i.ord →
    (∀ n, n < (s.clusterPeers c).length → (s.cluster c.cluster).arrivals.get 0 (b.val * 4 + n) =
      (s.cluster c.cluster).arrivals.get 0 (b.val * 4)) →
    ∃ u : State, exec (.barrierComplete c.cluster b) s = .next (u.settle c) ∧ (u.core c).atBarrier = none ∧
      (u.core c).stall = .none) ∧
  (∀ (s : State) (c : CoreId) (i : EInstr) (rest : List EInstr), s.hasCore c = true → (s.core c).run = .running →
    (s.core c).syncQ = i :: rest → (s.core c).haloWaiting = true → (s.core c).stall = .engine i.ord →
    0 ≤ (s.halo c (bits i.word 9 4) - i.x1.truncate 32).toInt →
    ∃ u : State, exec (.haloWaitMet c) s = .next (u.settle c) ∧ (u.core c).haloWaiting = false ∧
      (u.core c).stall = .none) ∧
  (∀ (s : State) (n : BitVec 12) (core : Nat) (rest : List Nat), (s.die State.die0).computeReset = false →
    (s.sema n.toNat).waiters = core :: rest → (s.sema n.toNat).holders.length < (s.sema n.toNat).units →
    ∃ u : State, exec (.semaphoreGrant n) s = .next (u.semAnswer (coreOf core) true) ∧
      (u.sema n.toNat).holders = (s.sema n.toNat).holders ++ [core] ∧ (u.sema n.toNat).waiters = rest))

/-- A core at a preemption point is released: it runs nothing, keeps the next PC, gives the load grant up, and its logical
core is preempted with its state kept in the core. A preempted logical core whose state a core still holds, with its map
store there, resumes on that core at once. -/
def Obligations.PreemptionAndResumption : Prop :=
  (∀ (s : State) (c : CoreId) (q : Nat) (l : Launch), s.hasCore c = true → s.atPreemption c = true →
    s.isPaired c = false → (s.core c).part = some q → s.launches.find? q = some l →
    ∃ (t : State) (l' : Launch), exec (.preemption c) s = .next t ∧ (t.core c).run = .idle ∧ (t.core c).stall = .none ∧
      (t.core c).seq.pc = (s.core c).seq.pc + 1 ∧ (t.core c).seq.s = (s.core c).seq.s ∧ (t.core c).part = some q ∧
      (t.core c).store = (s.core c).store ∧ t.holdsGrant c = false ∧ t.launches.find? q = some l' ∧
      ∀ x ∈ l'.cores, x.lcore = (s.core c).lcore → x.runB = (s.core c).runB →
        x.preempted = true ∧ x.at? = none ∧ x.keptAt = some c) ∧
  (∀ (s : State) (c : CoreId) (q : QueueId) (l : Launch) (x : LogCore) (lc : LogCluster) (high : Bool),
    s.hasCore c = true → s.launches.find? q.key = some l → l.cores = [x] → l.clusters = [lc] → x.preempted = true →
    x.at? = none → x.runB = false → x.keptAt = some c → lc.lcl = x.lcl → lc.runB = false → lc.saved = false →
    lc.at? = some c.cluster → (s.cluster c.cluster).occupant = some (clusterKey q.key x.ldie x.lcl false) →
    s.turn c.die = some (q.key, high) → s.schedOpen c.die = true → (s.slotOf c.die l.ctx).isSome = true →
    ∃ t : State, exec (.coreResume c q x.lcore) s = .next t ∧ (t.core c).run = .running ∧
      (t.core c).seq = (s.core c).seq ∧ (t.core c).grantReq = decide ((s.core c).phase = .load))

/-- A preempted core's image is written to its place in the save area block by block and the core is then free; a block that
cannot be written yet leaves the image where it stands; the map store's image of a
logical cluster that no core holds is written and the cluster is free; a written image comes back into the core, which then
waits for the rest of its cluster. -/
def Obligations.ImagesAreSavedAndRestored : Prop :=
  (∀ (s t u : State) (c : CoreId) (q n : Nat) (l : Launch) (x : LogCore) (bs : List Byte), s.hasCore c = true →
    (s.core c).part = some q → s.launches.find? q = some l → l.fault = none → l.cores = [x] → x.keptAt = some c →
    x.preempted = true → (s.core c).img = none → s.csRead c 0 (roundUp (s.core c).csBytes 2048) = (t, bs, none) →
    let blks := guarded (s.nextGen l) (imageBlocks bs ++ imageBlocks (s.stateBlock c))
    (t.takeGen l).putBlocks (.core c) q l (s.coreImageAt l x) blks 0 = (u, n, .done) →
    ∃ (v : State) (l' : Launch), exec (.coreImageSave c) s = .next v ∧ (v.core c).part = none ∧
      v.launches.find? q = some l' ∧ l'.cores = [{ x with keptAt := none, saved := true, gen := s.nextGen l }]) ∧
  (∀ (s t u : State) (c : CoreId) (q n : Nat) (l : Launch) (x : LogCore) (bs : List Byte), s.hasCore c = true →
    (s.core c).part = some q → s.launches.find? q = some l → l.fault = none → l.cores = [x] → x.keptAt = some c →
    x.preempted = true → (s.core c).img = none → s.csRead c 0 (roundUp (s.core c).csBytes 2048) = (t, bs, none) →
    let blks := guarded (s.nextGen l) (imageBlocks bs ++ imageBlocks (s.stateBlock c))
    (t.takeGen l).putBlocks (.core c) q l (s.coreImageAt l x) blks 0 = (u, n, .wait) →
    exec (.coreImageSave c) s =
      .next (u.setCore c { u.core c with img := some { gen := s.nextGen l, done := n, blks := blks } })) ∧
  (∀ (s t u : State) (k : ClusterId) (o : Nat × Nat × Nat) (n : Nat) (l : Launch) (y : LogCluster) (bs : List (List Byte)),
    s.hasCluster k = true → (s.cluster k).occupant = some o → s.launches.find? o.1 = some l → l.fault = none →
    l.clusters = [y] → y.last = some k → y.at? = none → y.saved = false → (s.cluster k).img = none →
    s.mapBlocks k (State.mapOffsets (s.cluster k).msStatic (s.cluster k).allocs) = (t, bs, none) →
    (t.takeGen l).putBlocks (.map k) o.1 l (s.mapImageAt l y) (guarded (s.nextGen l) (bs ++ imageBlocks (s.clusterBlock k))) 0 =
      (u, n, .done) →
    ∃ (v : State) (l' : Launch), exec (.mapStoreImageSave k) s = .next v ∧ (v.cluster k).occupant = none ∧
      (v.cluster k).allocs = [] ∧ v.launches.find? o.1 = some l' ∧
      l'.clusters.map (·.saved) = [true]) ∧
  (∀ (s t : State) (c : CoreId) (q : Nat) (l : Launch) (x : LogCore) (blks : List (List Byte)),
    s.hasCore c = true → (s.core c).part = some q → s.launches.find? q = some l → l.fault = none → l.cores = [x] →
    x.at? = some c → x.preempted = true → x.saved = true → (s.core c).img = none →
    s.getBlocks (.core c) q l (s.coreImageAt l x) x.gen (ceilDiv x.csBytes 2048 + 1) 0 = (t, blks, .done) →
    ∃ (v : State) (l' : Launch), exec (.imageRestore (.core c)) s = .next (v.wakeCluster q) ∧
      (v.core c).codeWords = x.codeWords ∧ (v.core c).csBytes = x.csBytes ∧ v.launches.find? q = some l' ∧
      l'.cores = [{ x with saved := false }])

/-- A core store that no launch holds and that may hold a partition's data is cleared to zeros; the scrub of a word corrects
a single error and counts it, and an uncorrectable word of an idle core becomes zero and sets SCRUB_UE. -/
def Obligations.StoreClearAndScrub : Prop :=
  (∀ (s : State) (c : CoreId), s.hasCore c = true → (s.core c).part = none → (s.core c).lastPartition ≠ none →
    ∃ t : State, exec (.storeClear (.core c)) s = .next t ∧ (∀ off, (t.core c).store.byteAt off = 0) ∧
      sound (t.core c).store ∧ (t.core c).lastPartition = none ∧ t.mem = s.mem) ∧
  (∀ (s : State) (k : ClusterId), s.hasCluster k = true → (s.cluster k).occupant = none →
    (s.cluster k).lastPartition ≠ none →
    ∃ t : State, exec (.storeClear (.map k)) s = .next t ∧ (∀ off, (t.cluster k).map.byteAt off = 0) ∧
      sound (t.cluster k).map ∧ (t.cluster k).lastPartition = none ∧ t.mem = s.mem) ∧
  (∀ (s : State) (c : CoreId) (w : Nat), s.hasCore c = true → w < 65536 → w ∉ (s.core c).store.bad →
    w ∈ (s.core c).store.single →
    ∃ t : State, exec (.scrub (.core c) w) s = .next t ∧ w ∉ (t.core c).store.single ∧ (t.core c).store.ce = true ∧
      (t.core c).store.lastWord = BitVec.ofNat 23 w ∧ ∀ off, (t.core c).store.byteAt off = (s.core c).store.byteAt off) ∧
  (∀ (s : State) (c : CoreId) (w : Nat), s.hasCore c = true → w < 65536 → w ∈ (s.core c).store.bad →
    (s.core c).part = none →
    ∃ t : State, exec (.scrub (.core c) w) s = .next t ∧ w ∉ (t.core c).store.bad ∧ (t.core c).store.scrubUE = true ∧
      ∀ i, i < 16 → (t.core c).store.byteAt (16 * w + i) = 0)

/-- A waiting request is the one that its port offers (R19, R21, R273, R455, R457): the own dictionary admits it, the port and
kind have a lowest free tag, and of the requests offered it is the first that goes ahead of the slots or, with none such, the
one of the requester whose turn it is within the partition that the slot goes to. -/
structure Offers (s : State) (n tag : Nat) (r : Req) : Prop where
  found : s.reqs.find? n = some r
  waits : r.st = .waiting
  turn : s.inTurn n r = true
  admitted : s.ownAdmits (State.servingPort r).die r.pa r.partition r.ctx = true
  tag : s.freeTag (State.servingPort r) r.write = some tag
  first :
    let p := State.servingPort r
    let path := peatPath p.port.val r.write
    let l := s.offerFor p r.write
    l.find? (·.2.ahead) = some (n, r) ∨
      (∀ e ∈ l, e.2.ahead = false) ∧
        (s.cuffSlot p.die path ((l.map (·.2.partition)).eraseDups)).2 = some r.partition ∧
        nextAfter ((s.die p.die).cuffReq.get 0 (path * 16 + r.partition))
          ((l.filter fun e => decide (e.2.partition = r.partition)).map fun e => State.requester e.2) =
            some (State.requester r) ∧
        l.find? (fun e => decide (e.2.partition = r.partition) && decide (State.requester e.2 = State.requester r)) =
          some (n, r)

/-- A waiting request that its port offers transfers with the lowest free tag of the port and kind; a read's granule is taken
as memory holds it at the transfer. A request that the own dictionary does not admit is answered with an error. -/
def Obligations.PeatTransfers : Prop :=
  (∀ (s : State) (n tag : Nat) (r : Req), Offers s n tag r → r.write = false →
    ∃ (u : State) (r' : Req), exec (.peatReadRequestTransfer n) s = .next u ∧ u.reqs.find? n = some r' ∧
      r'.st = .port (State.servingPort r).die.val (State.servingPort r).port.val tag ∧ r'.sent = true ∧
      r'.snap = s.readBytes (r.pa / 64 * 64) 64 ∧ r'.pa = r.pa ∧ r'.owner = r.owner ∧ u.mem = s.mem) ∧
  (∀ (s : State) (n tag : Nat) (r : Req), Offers s n tag r → r.write = true →
    ∃ (u : State) (r' : Req), exec (.peatWriteRequestTransfer n) s = .next u ∧ u.reqs.find? n = some r' ∧
      r'.st = .port (State.servingPort r).die.val (State.servingPort r).port.val tag ∧ r'.sent = true ∧
      r'.data = r.data ∧ u.mem = s.mem) ∧
  (∀ (s : State) (n : Nat) (r : Req), s.reqs.find? n = some r → r.st = .waiting → r.write = false →
    s.inTurn n r = true → s.ownAdmits (State.servingPort r).die r.pa r.partition r.ctx = false →
    exec (.peatReadRequestTransfer n) s = .next ((s.ownRefuse (State.servingPort r).die r.pa).answer n r .error))

/-- A read's data reaches the load that waits for it, and the request is over; no byte of memory changes. A write that its
port accepts stores its bytes at their places in its granule and no other byte, and its answer then goes to the unit that
made it. A request that no port answers in 1,000 counts fails with F-0705 and starts the ladder at its unit. -/
def Obligations.PeatAnswers : Prop :=
  (∀ (s : State) (p : PortId) (tag n k rt size : Nat) (sgn : Bool) (va : W64) (r : Req), s.hasDie p.die = true →
    s.byTag p tag false = some (n, r) → r.owner = .seqLoad k → r.gone = false →
    ((s.die r.die).orphans.any fun o => decide (o.req = n)) = false →
    s.busOwns r.die n = false → (s.core (coreOf k)).stall = .load rt size sgn va none →
    ∃ u : State, exec (.peatReadData p tag false) s = .next (u.quietCheck (coreOf k)) ∧
      (u.core (coreOf k)).stall = .load rt size sgn va
        (some ((((List.range 64).map (s.readData r)).drop (r.pa % 64)).take size)) ∧
      u.reqs.find? n = none ∧ u.mem = s.mem) ∧
  (∀ (s : State) (p : PortId) (tag n : Nat) (r : Req), s.hasDie p.die = true → s.byTag p tag true = some (n, r) →
    (r.data.map (·.1)).Nodup →
    ∃ u : State, exec (.peatWriteAcceptance p tag false) s = .next (u.answer n r .accepted) ∧
      (∀ b ∈ r.data, u.readByte (r.pa / 64 * 64 + b.1) = b.2) ∧
      ∀ a, (∀ b ∈ r.data, a ≠ r.pa / 64 * 64 + b.1) → u.readByte a = s.readByte a) ∧
  (∀ (s : State) (n k : Nat) (r : Req) (die port tag : Nat), s.reqs.find? n = some r → r.owner = .seqLoad k →
    (s.die (coreOf k).die).computeReset = false → r.st = .port die port tag → r.sent = true → r.gone = false →
    1000 ≤ s.since r.die r.sentAt →
    (∀ e ∈ (s.die (coreOf k).die).escalations, (e.unit.atLevel e.level).contains (.core (coreOf k)) = false) →
    ((s.die r.die).orphans.any fun o => decide (o.req = n)) = false →
    ∃ u : State, exec (.unansweredRequest n) s = .next ((u.seqFault (coreOf k) 0 0x0705 r.va r.va
        ((s.core (coreOf k)).code.get 0 (s.core (coreOf k)).seq.pc.toNat)).startLadder (.core (coreOf k)) 0x0705) ∧
      (u.die r.die).orphans = (s.die r.die).orphans ++ [{ req := n, at' := none }])

/-- A command `b` of opcode `op` may start on a queue (R258, R259): it is the next one, its context holds a slot, and it is
the oldest ring command `a`, in no called buffer. -/
structure MayStart (s : State) (q : QueueId) (op : Nat) (b : List Byte) (a : Accepted) (rest : List Accepted) : Prop where
  next : s.mayRun q op = some b
  oldest : (s.queue q).accepted = a :: rest
  ring : (s.queue q).frames = []
  refs : a.refs = []

/-- The command has completed: DONEPTR has passed it, in the queue and in its table entry, and the queue waits for
nothing. -/
structure Completed (s t : State) (q : QueueId) (a : Accepted) (rest : List Accepted) : Prop where
  accepted : (t.queue q).accepted = rest
  doneptr : (t.queue q).doneptr = BitVec.ofNat 64 (a.pos + a.bytes.length)
  entry : t.readBytes (s.queueEntry q + 0x20) 8 = bytesLE 8 (t.queue q).doneptr.toNat
  free : (t.queue q).wait = .none ∧ (t.queue q).frames = []

/-- The commands of a ring, by opcode (Table 13-2). -/
def ringCommands : List ((QueueId → Instr) × Nat) :=
  [(.nop, 0), (.launch, 1), (.signal, 2), (.wait, 3), (.test, 4), (.writeCommand, 5), (.timeCommand, 6), (.callCommand, 7),
    (.breakCall, 8), (.inval, 9)]

/-- The bytes of device memory outside a queue's table entry are those of another state. -/
def SameOutsideEntry (s t : State) (q : QueueId) : Prop :=
  ∀ x, x < s.queueEntry q ∨ s.queueEntry q + 64 ≤ x → t.readByte x = s.readByte x

/-- A command whose guard is false completes with no effect; NOP completes with none; TEST, once the responses hold the value
it reads, sets its condition flag by the comparison of it; WRITE and TIME complete when their write has been answered; CALL
pushes the buffer that acceptance read; BREAK ends the innermost buffer. -/
def Obligations.QueueCommandsComplete : Prop :=
  (∀ x ∈ ringCommands, ∀ (s : State) (q : QueueId) (b : List Byte) (a : Accepted) (rest : List Accepted),
    MayStart s q x.2 b a rest → (s.queue q).guardOk b = false →
    ∃ t : State, exec (x.1 q) s = .next t ∧ Completed s t q a rest ∧ (t.queue q).cf = (s.queue q).cf ∧
      SameOutsideEntry s t q ∧ t.launches = s.launches ∧ t.fences = s.fences) ∧
  (∀ (s : State) (q : QueueId) (b : List Byte) (a : Accepted) (rest : List Accepted),
    MayStart s q 0 b a rest → (s.queue q).guardOk b = true →
    ∃ t : State, exec (.nop q) s = .next t ∧ Completed s t q a rest ∧ (t.queue q).cf = (s.queue q).cf ∧
      SameOutsideEntry s t q) ∧
  (∀ (s u : State) (q : QueueId) (b : List Byte) (a : Accepted) (rest : List Accepted) (bs : List Byte),
    MayStart s q 4 b a rest → (s.queue q).guardOk b = true →
    (s.startTimer q b).readVa q.die (.command q.key) (s.queuePart q) (s.queue q).ctx (fieldAt b 8 8) (cmdWide b) .read
      true = (u, .ok bs) →
    ∃ t : State, exec (.test q) s = .next t ∧ Completed s t q a rest ∧
      (t.queue q).cf = ((s.queue q).setFlag (cmdCfd b) (condOf (8 * cmdWide b) (cmdCc b)
        (ofBytesLE bs &&& fieldAt b 0x18 8) (fieldAt b 0x10 8))).cf ∧ SameOutsideEntry s t q) ∧
  (∀ (s u : State) (q : QueueId) (b : List Byte) (a : Accepted) (rest : List Accepted),
    MayStart s q 5 b a rest → (s.queue q).guardOk b = true →
    (s.startTimer q b).writeVa q.die (.command q.key) (s.queuePart q) (s.queue q).ctx (fieldAt b 8 8)
      (bytesLE (cmdWide b) (fieldAt b 0x10 8)) true = (u, .ok []) →
    ∃ t : State, exec (.writeCommand q) s = .next t ∧ Completed s t q a rest ∧ SameOutsideEntry u t q) ∧
  (∀ (s u : State) (q : QueueId) (b : List Byte) (a : Accepted) (rest : List Accepted) (x : BusAcc),
    MayStart s q 6 b a rest → (s.queue q).guardOk b = true →
    ((s.die q.die).bus.find? fun y => decide (y.owner = .command q.key)) = some x →
    (s.startTimer q b).writeVa q.die (.command q.key) (s.queuePart q) (s.queue q).ctx (fieldAt b 8 8)
      x.data true = (u, .ok []) →
    ∃ t : State, exec (.timeCommand q) s = .next t ∧ Completed s t q a rest ∧ SameOutsideEntry u t q) ∧
  (∀ (s : State) (q : QueueId) (b : List Byte) (a : Accepted) (rest : List Accepted),
    MayStart s q 7 b a rest → (s.queue q).guardOk b = true →
    ∃ t : State, exec (.callCommand q) s = .next t ∧
      (t.queue q).frames = [{ bytes := readAs a.bufs (fieldAt b 8 8, fieldAt b 0x10 4), off := 0, left := cmdImm b - 1 }] ∧
      (t.queue q).accepted = a :: rest ∧ (t.queue q).doneptr = (s.queue q).doneptr ∧ t.mem = s.mem) ∧
  (∀ (s : State) (q : QueueId) (b : List Byte) (f : Frame) (a : Accepted) (rest : List Accepted),
    s.mayRun q 8 = some b → (s.queue q).guardOk b = true → (s.queue q).frames = [f] →
    (s.queue q).accepted = a :: rest → a.refs = [] →
    ∃ t : State, exec (.breakCall q) s = .next t ∧ Completed s t q a rest ∧ SameOutsideEntry s t q)

/-- The read of a waiting WAIT of a queue is due or under way, and its responses hold the value. -/
structure RereadAnswered (s u : State) (q : QueueId) (a : Accepted) (rest : List Accepted) (bs : List Byte) : Prop where
  runs : s.cpRuns q.die = true
  waits : (s.queue q).wait = .cond
  goesOn : (s.queue q).stopping = none
  resident : (s.ctx (s.queue q).ctx).st = .resident
  clear : s.transHeld q.die (.command q.key) = false
  asked : s.busHas q.die (.command q.key) = true
  oldest : (s.queue q).accepted = a :: rest
  ring : (s.queue q).frames = []
  refs : a.refs = []
  data : s.readVa q.die (.command q.key) (s.queuePart q) (s.queue q).ctx (fieldAt (s.queue q).cmd 8 8) (cmdWide (s.queue q).cmd)
    .read true = (u, .ok bs)

/-- SIGNAL sends its signal with STATUS 0 and waits for its result; WAIT makes its read and waits; a WAIT whose read is answered
completes when the condition holds and waits on when it does not; TIME takes the count when its write is made and waits for
it; a LAUNCH for one die waits for placement
with a part for its home die; a launch larger than the save area loses the context with F-1201; INVAL waits for every die. -/
def Obligations.CommandsThatWait : Prop :=
  (∀ (s : State) (q : QueueId) (b : List Byte) (a : Accepted) (rest : List Accepted),
    MayStart s q 2 b a rest → (s.queue q).guardOk b = true → s.fenceOk (s.queuePart q) (fieldAt b 8 8) = true →
    ∃ u : State, exec (.signal q) s = .next (u.fenceSend s.fenceNext) ∧ (u.queue q).wait = .fence ∧
      (u.queue q).accepted = a :: rest ∧ u.mem = s.mem ∧
      u.fences.find? s.fenceNext = some
        { va := BitVec.ofNat 64 (fieldAt b 8 8), value := BitVec.ofNat 64 (fieldAt b 0x10 8), status := 0,
          ctx := (s.queue q).ctx, queue := q.key, src := q.die.val }) ∧
  (∀ (s t : State) (q : QueueId) (b : List Byte) (a : Accepted) (rest : List Accepted),
    MayStart s q 3 b a rest → (s.queue q).guardOk b = true → s.busHas q.die (.command q.key) = false →
    (((s.startTimer q b).updQueue q fun k => { k with wait := .cond }).updQueue q fun k =>
        { k with readAt := (s.die q.die).ticks, reread := false }).readVa q.die (.command q.key) (s.queuePart q)
      (s.queue q).ctx (fieldAt b 8 8) (cmdWide b) .read true = (t, .wait) →
    ∃ u : State, exec (.wait q) s = .next u ∧ (u.queue q).wait = .cond ∧ u.reqs = t.reqs ∧ u.dies = t.dies ∧ u.mem = s.mem) ∧
  (∀ (s u : State) (q : QueueId) (a : Accepted) (rest : List Accepted) (bs : List Byte), RereadAnswered s u q a rest bs →
    State.condHolds (s.queue q).cmd (ofBytesLE bs) = true →
    ∃ t : State, exec (.waitReread q) s = .next t ∧ Completed s t q a rest ∧ SameOutsideEntry s t q) ∧
  (∀ (s u : State) (q : QueueId) (a : Accepted) (rest : List Accepted) (bs : List Byte), RereadAnswered s u q a rest bs →
    State.condHolds (s.queue q).cmd (ofBytesLE bs) = false →
    exec (.waitReread q) s = .next (u.busDone q.die (.command q.key)) ∧ (u.queue q).wait = .cond ∧ u.mem = s.mem) ∧
  (∀ (s u : State) (q : QueueId) (b : List Byte) (a : Accepted) (rest : List Accepted),
    MayStart s q 6 b a rest → (s.queue q).guardOk b = true → s.busHas q.die (.command q.key) = false →
    (s.startTimer q b).writeVa q.die (.command q.key) (s.queuePart q) (s.queue q).ctx (fieldAt b 8 8)
      (bytesLE 8 (s.die q.die).count.toNat) true = (u, .wait) →
    exec (.timeCommand q) s = .next (u.cmdWait q (fieldAt b 8 8))) ∧
  (∀ (s : State) (q : QueueId) (b : List Byte) (a : Accepted) (rest : List Accepted),
    MayStart s q 1 b a rest → (s.queue q).guardOk b = true → lcDies b = 1 →
    State.savePart b ≤ (s.ctx (s.queue q).ctx).saveSize.toNat →
    ∃ (t : State) (l : Launch), exec (.launch q) s = .next t ∧ (t.queue q).wait = .launch ∧
      t.launches.find? q.key = some l ∧ l.ctx = (s.queue q).ctx ∧ l.cmd = b.take 64 ∧ l.dies = [q.die.val] ∧
      l.parts.find? 0 = some .pending ∧ l.pos = a.pos ∧ l.saveLen = State.savePart b ∧ l.fault = none ∧
      l.clusters.length = (if lcPair b then 2 else 1) * lcClusters b ∧ t.mem = s.mem) ∧
  (∀ (s : State) (q : QueueId) (b : List Byte) (a : Accepted) (rest : List Accepted),
    MayStart s q 1 b a rest → (s.queue q).guardOk b = true → (s.ctx (s.queue q).ctx).saveSize.toNat < State.savePart b →
    (s.launchesOf (s.queue q).ctx) = [] →
    ∃ t : State, exec (.launch q) s = .next t ∧ (t.ctx (s.queue q).ctx).st = .lost ∧
      (t.ctx (s.queue q).ctx).lossStatus = 0x12010001 ∧ (t.ctx (s.queue q).ctx).losing = some 1) ∧
  (∀ (s : State) (q : QueueId) (b : List Byte) (a : Accepted) (rest : List Accepted),
    MayStart s q 9 b a rest → (s.queue q).guardOk b = true → s.build.dies = 1 → q.die = State.die0 →
    ∃ (t : State) (m : Nat), exec (.inval q) s = .next t ∧ (t.queue q).wait = .inval [0] ∧ t.mem = s.mem ∧
      t.msgAt m = some (0, 0, .inval q.key (s.queuePart q) (fieldAt b 8 8) (fieldAt b 0x10 8)))

/-- The windows that acceptance translates in advance for a command: the extents of the commands it holds and the windows of
their descriptor tables (R158, R260). -/
def acceptWindows (a : Accepted) : List (Nat × Nat) :=
  (a.bytes :: a.bufs.flatMap fun x => (bufCmds x.2).1).flatMap cmdExtents ++
    a.sdts.flatMap fun x => (sdtEntries x.2).filterMap descWindow

/-- A doorbell that moves the fill mark forward by whole commands within the ring sets it, at once on die 0 and by a
message on another die; one that does not move it forward is counted and ignored; acceptance makes the reads of the command
and of all that it names, starts the walks that its windows need, one by one, and then appends the command and passes it. -/
def Obligations.DoorbellsAndAcceptance : Prop :=
  (∀ (s : State) (role : Byte) (q : QueueId) (wr : W64), roleOf role = some .driver → s.crownOpen = true →
    s.hasDie q.die = true → q.die = State.die0 → (s.queue q).st = .opened → (s.queue q).fill < wr → wr.toNat % 32 = 0 →
    wr.toNat ≤ (s.queue q).doneptr.toNat + 2 ^ (s.queue q).ringLog2 → (s.ctx (s.queue q).ctx).st ≠ .lost →
    ∃ t : State, exec (.doorbell role 0xFF q wr) s = .next t ∧ (t.queue q).fill = wr ∧ t.crown = ⟨false, 0⟩ ∧
      (t.queue q).accepted = (s.queue q).accepted ∧ t.mem = s.mem) ∧
  (∀ (s : State) (m d r : Nat) (q : QueueId) (wr : W64), s.msgAt m = some (d, r, .doorbell q.key wr) →
    (s.queue q).st = .opened → (s.queue q).fill < wr → wr.toNat % 32 = 0 →
    wr.toNat ≤ (s.queue q).doneptr.toNat + 2 ^ (s.queue q).ringLog2 → (s.ctx (s.queue q).ctx).st ≠ .lost →
    ∃ t : State, exec (.doorbellForward m) s = .next t ∧ (t.queue q).fill = wr ∧ t.msgAt m = none ∧ t.mem = s.mem) ∧
  (∀ (s : State) (role : Byte) (q : QueueId) (wr : W64), roleOf role = some .driver → s.crownOpen = true →
    s.hasDie q.die = true → q.die = State.die0 → (s.queue q).st = .opened → wr ≤ (s.queue q).fill →
    ∃ t : State, exec (.doorbell role 0xFF q wr) s = .next t ∧ t.queues = s.queues ∧
      (t.die State.die0).dbIgnored = satInc (s.die State.die0).dbIgnored ∧ t.crown = ⟨false, 0⟩ ∧ t.mem = s.mem) ∧
  (∀ (s : State) (role strb : Byte) (q : QueueId) (wr : W64), (s.die State.die0).stage ≠ .held → strb ≠ 0xFF →
    ∃ t : State, exec (.doorbell role strb q wr) s = .next t ∧ t.crown = ⟨true, 0⟩ ∧ t.queues = s.queues) ∧
  (∀ (s t : State) (q : QueueId) (a : Accepted), s.mayAccept q = true → s.acceptRead q = (t, .ok (some a)) →
    t.pinNeed q.die (s.queuePart q) q.key (acceptWindows a) = none →
    ∃ u : State, exec (.commandAcceptance q) s = .next u ∧ (u.queue q).accepted = (s.queue q).accepted ++ [a] ∧
      (u.queue q).accptr = (s.queue q).accptr + BitVec.ofNat 64 a.bytes.length ∧
      (u.queue q).fill = (s.queue q).fill) ∧
  (∀ (s t : State) (q : QueueId) (a : Accepted) (va : Nat), s.mayAccept q = true → s.acceptRead q = (t, .ok (some a)) →
    t.pinNeed q.die (s.queuePart q) q.key (acceptWindows a) = some va →
    exec (.commandAcceptance q) s =
      .next (t.startWalk q.die (.pin q.key) (s.queuePart q) (s.queue q).ctx va .read)) ∧
  (∀ (s t : State) (q : QueueId), s.mayAccept q = true → s.acceptRead q = (t, .error .wait) →
    exec (.commandAcceptance q) s = .next t)

/-- A context whose turn it is takes a free slot and is RESIDENT; a launch of one logical core whose turn it is takes the
best cluster's first free core, and its part starts; one placed before its launch count starts when the count is reached; a
slice that is over with another queue waiting sets YPEND on the cores of the launch; a launch whose parts have all ended
completes its command. -/
def Obligations.LaunchesArePlacedAndEnd : Prop :=
  (∀ (s : State) (d : DieId) (n : BitVec 14), s.hasDie d = true → s.cpRuns d = true → s.slotTurn d = some n.toNat →
    (s.ctx n.toNat).st = .ready → (s.die d).slots.length < 48 →
    rootMode ((s.die d).roots.get 0 (s.ctx n.toNat).partition) ≠ 2 →
    ∃ t : State, exec (.residentSlotTake d n) s = .next t ∧ (t.ctx n.toNat).st = .resident ∧
      (t.die d).slots = (s.die d).slots ++ [{ ctx := n.toNat, lastRun := (s.die d).lastRan.get 0 n.toNat }] ∧
      n.toNat ∉ (t.die d).slotWait ∧ t.readByte (s.ctxEntry n.toNat + 2) = 2) ∧
  (∀ (s : State) (q : QueueId) (d : DieId) (l : Launch) (x : LogCore) (y : LogCluster) (k : ClusterId) (c : CoreId)
      (cs : List CoreId) (high : Bool) (i : Nat), s.hasDie d = true → s.launches.find? q.key = some l →
    l.saveHeld = true → s.turn d = some (q.key, high) → s.schedOpen d = true → l.ldieOf d = some i →
    l.parts.find? i = some .pending → (s.slotOf d l.ctx).isSome = true → l.count = none → l.cores = [x] →
    l.clusters = [y] → x.lcl = y.lcl → x.ldie = i → y.ldie = i → x.runB = false → y.runB = false →
    s.bestCluster d l.partition (lcCores l.cmd) = some k → s.freeCores l.partition k = c :: cs →
    ∃ (t : State) (l' : Launch), exec (.launchPlacement q d) s = .next t ∧ (t.core c).part = some q.key ∧
      (t.core c).run = .header ∧ (t.core c).lcore = x.lcore ∧ (t.core c).image = BitVec.ofNat 64 (lcImage l.cmd) ∧
      (t.cluster k).occupant = some (clusterKey q.key i y.lcl false) ∧ (t.cluster k).msStatic = lcStatic l.cmd ∧
      t.launches.find? q.key = some l' ∧ l'.parts.find? i = some .started ∧ l'.fault = l.fault ∧ t.mem = s.mem) ∧
  (∀ (s : State) (q : QueueId) (d : DieId) (l : Launch) (i : Nat) (n : W64), s.hasDie d = true →
    s.launches.find? q.key = some l → l.ldieOf d = some i → l.count = some n → l.parts.find? i = some .placed →
    n ≤ (s.die d).count →
    ∃ (t : State) (l' : Launch), exec (.launchCountReached q d) s = .next t ∧ t.launches.find? q.key = some l' ∧
      l'.parts.find? i = some .started ∧
      (∀ c ∈ s.launchCores q.key d, (s.core c).run = .waiting → (t.core c).run = .header) ∧ t.mem = s.mem) ∧
  (∀ (s : State) (q : QueueId) (d : DieId) (l : Launch) (n : W64), s.hasDie d = true →
    s.launches.find? q.key = some l → l.count = some n → (s.die d).count < n →
    exec (.launchCountReached q d) s = .next s) ∧
  (∀ (s : State) (q : QueueId) (d : DieId) (l : Launch) (t₀ : Nat), s.hasDie d = true →
    s.launches.find? q.key = some l → (l.ldieOf d).bind l.placedAt.find? = some t₀ →
    s.sliceOf l.partition ≤ s.since d t₀ →
    (∃ e ∈ s.waitingOn d, e.2.partition = l.partition ∧ e.1 ≠ q.key ∧ s.canGo e.1 d = false) →
    ∃ t : State, exec (.sliceExpiry q d) s = .next t ∧ t.mem = s.mem ∧
      ∀ c ∈ s.launchCores q.key d, (s.core c).run ≠ .idle → (t.core c).ypend = true ∧ (t.core c).run = (s.core c).run) ∧
  (∀ (s : State) (q : QueueId) (l : Launch) (a : Accepted) (rest : List Accepted), s.launches.find? q.key = some l →
    l.dies ≠ [] → (∀ i, i < l.dies.length → l.parts.find? i = some .ended) → l.fault = none →
    (s.queue q).stopping = none → (s.ctx l.ctx).st ≠ .lost → (s.queue q).frames = [] →
    (s.queue q).accepted = a :: rest → a.refs = [] →
    ∃ t : State, exec (.launchComplete q) s = .next t ∧ Completed s t q a rest ∧ t.launches.find? q.key = none ∧
      SameOutsideEntry s t q)

/-- Die 0 chooses the lowest dies that fit and the launch count; a die that takes a good distribution record starts the walks
that its windows need, one by one, and then has a part that waits, and one whose CRC fails tells the home die F-1504; a part
that ends is recorded, and one that fails fails its launch with its record and loses the context. -/
def Obligations.MultiDieLaunches : Prop :=
  (∀ (s : State) (m d r q : Nat) (l : Launch), s.msgAt m = some (d, r, .launch q) → s.launches.find? q = some l →
    l.fault = none → s.cpRuns State.die0 = true →
    let ok := fun e => s.reaches State.die0 e.val && s.cpRuns e && (decide (e = State.die0) || (s.die e).aligned) &&
      s.dieFits l.cmd e
    lcDies l.cmd ≤ ((s.affineDies l.cmd).filter ok).length →
    ∃ t : State, exec (.launchToDie0 m) s = .next t ∧ t.mem = s.mem ∧ t.launches.find? q = some { l with
      dies := (((s.affineDies l.cmd).filter ok).take (lcDies l.cmd)).map (·.val)
      count := some ((s.die State.die0).count + BitVec.ofNat 64 (s.objVal State.die0 0x2A20 0)) }) ∧
  (∀ (s : State) (m r : Nat) (d : DieId) (rec : List Byte) (l : Launch), s.msgAt m = some (d.val, r, .dist rec) →
    s.cpRuns d = true →
    (crc32c (rec.take 0x7C)).toNat = fieldAt rec 0x7C 4 → s.launches.find? (fieldAt rec 8 4) = some l →
    s.pinNeed d l.partition (fieldAt rec 8 4) ((sdtEntries l.sdt).filterMap descWindow) = none →
    ∃ (t : State) (l' : Launch), exec (.distributionRecord m) s = .next t ∧
      t.launches.find? (fieldAt rec 8 4) = some l' ∧ l'.parts.find? (fieldAt rec 0xE 1) = some .pending ∧
      t.msgAt m = none ∧ t.mem = s.mem) ∧
  (∀ (s : State) (m r va : Nat) (d : DieId) (rec : List Byte) (l : Launch), s.msgAt m = some (d.val, r, .dist rec) →
    s.cpRuns d = true →
    (crc32c (rec.take 0x7C)).toNat = fieldAt rec 0x7C 4 → s.launches.find? (fieldAt rec 8 4) = some l →
    s.pinNeed d l.partition (fieldAt rec 8 4) ((sdtEntries l.sdt).filterMap descWindow) = some va →
    s.transHeld d (.pin (fieldAt rec 8 4)) = false →
    exec (.distributionRecord m) s = .next (s.startWalk d (.pin (fieldAt rec 8 4)) l.partition l.ctx va .read)) ∧
  (∀ (s : State) (m r : Nat) (d : DieId) (rec : List Byte), s.msgAt m = some (d.val, r, .dist rec) → m ≠ s.msgNext →
    s.cpRuns d = true →
    (crc32c (rec.take 0x7C)).toNat ≠ fieldAt rec 0x7C 4 → (queueOf (fieldAt rec 8 4)).die = d →
    ∃ t : State, exec (.distributionRecord m) s = .next t ∧ t.msgAt s.msgNext = some (d.val, d.val,
      .partEnded (fieldAt rec 8 4) (fieldAt rec 0xE 1) (some (.outside 0x1504 d.val, (s.die d).count))) ∧
      t.launches = s.launches) ∧
  (∀ (s : State) (m d r q i : Nat) (l : Launch), s.msgAt m = some (d, r, .partEnded q i none) →
    s.launches.find? q = some l →
    ∃ (t : State) (l' : Launch), exec (.partEnded m) s = .next t ∧ t.launches.find? q = some l' ∧
      l'.parts.find? i = some .ended ∧ l'.fault = l.fault ∧ t.mem = s.mem) ∧
  (∀ (s : State) (m d r q i : Nat) (l : Launch) (f : FaultRec) (n : W64),
    s.msgAt m = some (d, r, .partEnded q i (some (f, n))) →
    s.launches.find? q = some l → l.fault = none → (s.ctx l.ctx).st = .resident →
    ∃ (t : State) (l' : Launch), exec (.partEnded m) s = .next t ∧ t.launches.find? q = some l' ∧
      l'.parts.find? i = some .failed ∧ l'.fault = some f ∧ (t.ctx l.ctx).st = .lost ∧
      (t.ctx l.ctx).lossStatus = BitVec.ofNat 32 (f.code * 65536 + 1) ∧ (t.ctx l.ctx).lossRecord = f)

/-- No event record of the package waits to be written. -/
def NoEventWaits (s : State) : Prop := ∀ d : DieId, (s.die d).evWait = []

/-- A command that has run its queue's time is stopped: a LAUNCH by a stop message to its dies, waiting for its cores; a WAIT
at once, which loses the context with F-1306, or, while its read is out, when the command processor has its response. A core
told to stop runs no more; its acknowledgement, the last, ends the launch and loses the context. A drain ends after 2,000
counts in the reset of what is busy, with CAUSE F-1306, or 0 under Q_DESTROY. The loss procedure of a LOST context ends its
launches. -/
def Obligations.StopsAndLosses : Prop :=
  (∀ (s : State) (q : QueueId) (l : Launch) (n : Nat), (s.queue q).st = .opened → (s.queue q).stopping = none →
    (s.queue q).timeout ≠ 0 → (s.queue q).wait = .launch → (s.ctx (s.queue q).ctx).st ≠ .lost →
    (s.queue q).timeout.toNat ≤ (s.queue q).elapsed (s.die q.die).ticks → s.launches.find? q.key = some l →
    l.dies = [q.die.val] →
    ((s.cores.entries.filter fun e => decide (e.2.part = some q.key) && decide (e.2.run ≠ .idle) &&
      !e.2.stopAcked).map (·.1)) = [n] →
    ∃ (t : State) (m : Nat), exec (.commandTimeout q) s = .next t ∧ (t.queue q).stopping = some (s.die q.die).ticks ∧
      (t.queue q).stopWait = [n] ∧ t.msgAt m = some (q.die.val, q.die.val, .stop q.key) ∧
      (NoEventWaits s → t.mem = s.mem)) ∧
  (∀ (s : State) (q : QueueId), (s.queue q).st = .opened → (s.queue q).stopping = none →
    (s.queue q).timeout ≠ 0 → (s.queue q).wait = .cond → (s.queue q).destroyTag = none →
    (s.ctx (s.queue q).ctx).st = .resident → s.cpOut q.key = false →
    (s.queue q).timeout.toNat ≤ (s.queue q).elapsed (s.die q.die).ticks →
    ∃ t : State, exec (.commandTimeout q) s = .next t ∧ (t.queue q).stopping = none ∧ (t.queue q).wait = .none ∧
      (t.ctx (s.queue q).ctx).st = .lost ∧
      (NoEventWaits s → (t.ctx (s.queue q).ctx).lossStatus = 0x13060001)) ∧
  (∀ (s : State) (q : QueueId), (s.queue q).st = .opened → (s.queue q).stopping = none →
    (s.queue q).timeout ≠ 0 → (s.queue q).wait = .cond → (s.ctx (s.queue q).ctx).st ≠ .lost → s.cpOut q.key = true →
    (s.queue q).timeout.toNat ≤ (s.queue q).elapsed (s.die q.die).ticks →
    ∃ t : State, exec (.commandTimeout q) s = .next t ∧ (t.queue q).stopping = some (s.die q.die).ticks ∧
      (t.queue q).stopWait = [cpUnit]) ∧
  (∀ (s : State) (q : QueueId) (t₀ : Nat) (r : ResetUnit), (s.queue q).stopping = some t₀ → (s.queue q).drained = false →
    2000 ≤ s.since q.die t₀ →
    ((s.cores.entries.filter fun e => decide (e.2.part = some q.key)).map fun e => coreOf e.1).flatMap s.busyEngines = [r] →
    exec (.drainExpiry q) s = .next ((s.setQueue q { s.queue q with drained := true }).startLadder r
      (if (s.queue q).destroyTag.isSome then 0 else 0x1306))) ∧
  (∀ (s : State) (m r : Nat) (c : CoreId) (q : QueueId), s.msgAt m = some (c.die.val, r, .stop q.key) →
    s.launchCores q.key c.die = [c] → (s.core c).run = .running →
    ∃ u : State, exec (.stop m) s = .next (u.quietCheck c) ∧ (u.core c).run = .stopped ∧ (u.core c).stopAsked = true ∧
      (u.core c).stall = .none ∧ (u.core c).strQ = [] ∧ (u.core c).vecQ = [] ∧ (u.core c).syncQ = [] ∧ u.mem = s.mem) ∧
  (∀ (s : State) (m d r c : Nat) (q : QueueId), s.msgAt m = some (d, r, .stopAck q.key c) →
    (s.queue q).stopping.isSome = true → (s.queue q).stopWait = [c] → (s.queue q).destroyTag = none →
    (s.ctx (s.queue q).ctx).st = .resident →
    ∃ t : State, exec (.stopAcknowledgement m) s = .next t.objNext ∧ (t.queue q).stopping = none ∧
      t.launches.find? q.key = none ∧ (t.ctx (s.queue q).ctx).st = .lost ∧
      (t.ctx (s.queue q).ctx).lossStatus = 0x13060001) ∧
  (∀ (s : State) (n : BitVec 14) (cls : Nat), (s.ctx n.toNat).losing = some cls → NoEventWaits s →
    s.faultsOpen n.toNat = false → (s.postLost n.toNat).lossReady n.toNat = true →
    (s.ctx n.toNat).st = .lost → (∀ e ∈ s.queues.entries, e.2.ctx ≠ n.toNat) →
    (∀ r ∈ s.objHeld, r.op ≠ 2) →
    ∃ t : State, exec (.lossProcedure n) s = .next t.objNext ∧ (t.ctx n.toNat).losing = none ∧
      (t.ctx n.toNat).posted = true ∧ (t.ctx n.toNat).st = .lost ∧ t.launchesOf n.toNat = []) ∧
  (∀ (s u w : State) (n : BitVec 14) (q : QueueId) (cls : Nat), (s.ctx n.toNat).losing = some cls → NoEventWaits s →
    s.faultsOpen n.toNat = false → (s.postLost n.toNat).lossReady n.toNat = true →
    u = ((s.postLost n.toNat).launchesOf n.toNat).foldl (fun t k => t.endLaunch k true) (s.postLost n.toNat) →
    u.ctxQueues n.toNat = [q] → u.walkLost q = (w, true) →
    w.ctxQueues n.toNat = [q] → (w.queue q).stopping = none → (∀ r ∈ w.objHeld, r.op ≠ 2) →
    exec (.lossProcedure n) s = .next (w.setCtx n.toNat { w.ctx n.toNat with losing := none }).objNext)

/-- A signal has reached its serving die's fence unit, which reads the 16 bytes of its fence with a result. -/
structure SignalRead (s u : State) (n m pa : Nat) (d : DieId) (f : FenceSig) (r : BusRes) : Prop where
  arrived : s.msgFor (.fence n) = some (m, d.val)
  runs : s.cpRuns d = true
  found : s.fences.find? n = some f
  place : f.pa = some pa
  alone : s.fenceBusy d n pa = false
  read : s.busRead d (.fence n) (s.ctx f.ctx).partition f.ctx f.va.toNat pa 16 noRange true = (u, r)

/-- A release gives a semaphore unit back; an acquire or a try of a free unit is granted, a try of none is refused, and an
acquire of none waits. The pool 1 allocator writes its state and answers. The fence unit reads a signal's fence and
waits for the response; one that is not behind its fence it applies by a write of the 12 bytes of VALUE and STATUS alone, whose
response it waits for, and one that is behind it drops; the result completes the SIGNAL, once the event
record of an applied one has been written; a signal without an answer for 1,000 counts loses the context with F-1305. -/
def Obligations.RemoteServices : Prop :=
  (∀ (s : State) (m d r core n : Nat) (x : W64), s.msgAt m = some (d, r, .semReq core 2 x) →
    (s.die State.die0).computeReset = false →
    s.semIndex x = some n →
    ∃ t : State, exec (.semaphoreRequest m) s = .next t ∧
      (t.sema n).holders = (s.sema n).holders.erase core ∧ (t.sema n).waiters = (s.sema n).waiters ∧ t.cores = s.cores ∧
      t.mem = s.mem) ∧
  (∀ (s : State) (m d r core kind n : Nat) (x : W64), s.msgAt m = some (d, r, .semReq core kind x) → kind < 2 →
    (s.die State.die0).computeReset = false → s.semIndex x = some n → s.asks (coreOf core) = true →
    (kind = 0 → (s.sema n).waiters = []) → (s.sema n).holders.length + (s.sema n).waiters.length < (s.sema n).units →
    ∃ u : State, exec (.semaphoreRequest m) s = .next (u.semAnswer (coreOf core) true) ∧
      (u.sema n).holders = (s.sema n).holders ++ [core] ∧ u.cores = s.cores) ∧
  (∀ (s : State) (m d r core n : Nat) (x : W64), s.msgAt m = some (d, r, .semReq core 1 x) →
    (s.die State.die0).computeReset = false → s.semIndex x = some n → s.asks (coreOf core) = true →
    (s.sema n).units ≤ (s.sema n).holders.length + (s.sema n).waiters.length →
    ∃ u : State, exec (.semaphoreRequest m) s = .next (u.semAnswer (coreOf core) false) ∧ u.sems = s.sems) ∧
  (∀ (s : State) (m d r core n : Nat) (x : W64), s.msgAt m = some (d, r, .semReq core 0 x) →
    (s.die State.die0).computeReset = false → s.semIndex x = some n → s.asks (coreOf core) = true →
    ((s.sema n).units ≤ (s.sema n).holders.length + (s.sema n).waiters.length ∨ (s.sema n).waiters ≠ []) →
    ∃ t : State, exec (.semaphoreRequest m) s = .next t ∧ (t.sema n).waiters = (s.sema n).waiters ++ [core] ∧
      (t.sema n).holders = (s.sema n).holders ∧ t.cores = s.cores) ∧
  (∀ (s t u : State) (m d r core : Nat) (free : Bool) (arg : W64) (st st' bs : List Byte) (v : W64) (ok : Bool) (o : MemObj),
    s.msgAt m = some (d, r, .pool1 core free arg) → s.asks (coreOf core) = true → (coreOf core).die = State.die0 →
    (s.ctx (s.coreCtx (coreOf core))).heap ≠ 0xFFFFFFFF → o = s.mo (s.ctx (s.coreCtx (coreOf core))).heap →
    0 < min (o.length.toNat / 65536) 262144 → s.transHeld State.die0 (.pool1 core) = false →
    s.cpRuns State.die0 = true → s.poolBusy core = false →
    s.readVa State.die0 (.pool1 core) (s.corePartition (coreOf core)) (s.coreCtx (coreOf core)) o.base.toNat
      (ceilDiv (min (o.length.toNat / 65536) 262144) 4) .read false = (t, .ok st) →
    State.poolCall o.base.toNat (min (o.length.toNat / 65536) 262144) st free arg.toNat = (v, ok, some st') →
    t.writeVa State.die0 (.pool1 core) (s.corePartition (coreOf core)) (s.coreCtx (coreOf core)) o.base.toNat st' false =
      (u, .ok bs) →
    m ≠ s.msgNext →
    ∃ w : State, exec (.pool1Call m) s = .next w ∧ w.msgAt m = none ∧ w.mem = u.mem ∧
      w.msgAt s.msgNext = some (0, 0, .pool1Res (coreOf core).key free v ok)) ∧
  (∀ (s : State) (m d r core : Nat) (free : Bool) (v : W64) (i : EInstr) (rest : List EInstr),
    s.msgAt m = some (d, r, .pool1Res core free v true) → s.asks (coreOf core) = true →
    (s.core (coreOf core)).syncQ = i :: rest → (s.core (coreOf core)).stall = .engine i.ord →
    ∃ u : State, exec (.pool1Result m) s = .next (u.settle (coreOf core)) ∧
    (u.core (coreOf core)).syncQ = rest.filter (fun e => decide (e.ord ≠ i.ord)) ∧
      (u.core (coreOf core)).stall = .none ∧ u.mem = s.mem) ∧
  (∀ (s u w : State) (n m pa : Nat) (d : DieId) (f : FenceSig) (cur bs : List Byte), SignalRead s u n m pa d f (.ok cur) →
    0 ≤ signed 64 (f.value - BitVec.ofNat 64 (fieldAt cur 0 8)).toNat →
    u.busWrite d (.fence n) (s.ctx f.ctx).partition f.ctx f.va.toNat pa (bytesLE 8 f.value.toNat ++ bytesLE 4 f.status.toNat)
      noRange true = (w, .ok bs) →
    ∃ (t : State) (g : FenceSig), exec (.fenceSignal n) s = .next t ∧ t.fences.find? n = some g ∧
      g.result = some true ∧ g.cookie = BitVec.ofNat 32 (fieldAt cur 12 4) ∧ t.msgAt m = none) ∧
  (∀ (s u w : State) (n m pa : Nat) (d : DieId) (f : FenceSig) (cur : List Byte), SignalRead s u n m pa d f (.ok cur) →
    0 ≤ signed 64 (f.value - BitVec.ofNat 64 (fieldAt cur 0 8)).toNat →
    u.busWrite d (.fence n) (s.ctx f.ctx).partition f.ctx f.va.toNat pa (bytesLE 8 f.value.toNat ++ bytesLE 4 f.status.toNat)
      noRange true = (w, .wait) →
    exec (.fenceSignal n) s = .next w) ∧
  (∀ (s u : State) (n m pa : Nat) (d : DieId) (f : FenceSig), SignalRead s u n m pa d f .wait →
    exec (.fenceSignal n) s = .next u) ∧
  (∀ (s u : State) (n m pa : Nat) (d : DieId) (f : FenceSig) (cur : List Byte), SignalRead s u n m pa d f (.ok cur) →
    signed 64 (f.value - BitVec.ofNat 64 (fieldAt cur 0 8)).toNat < 0 →
    ∃ (t : State) (g : FenceSig), exec (.fenceSignal n) s = .next t ∧ t.fences.find? n = some g ∧
      g.result = some false ∧ (t.ctx f.ctx).drops = satInc (s.ctx f.ctx).drops ∧ t.msgAt m = none) ∧
  (∀ (s : State) (n m d : Nat) (q : QueueId) (f : FenceSig) (a : Accepted) (rest : List Accepted),
    s.msgFor (.fenceRes n) = some (m, d) → s.cpRuns (dieOf f.src) = true → s.fences.find? n = some f → f.queue = q.key →
    f.exec = true → f.bad = false → f.ev = none → f.result = some false →
    (s.queue q).wait = .fence → (s.queue q).stopping = none → (s.queue q).frames = [] →
    (s.queue q).accepted = a :: rest → a.refs = [] →
    ∃ t : State, exec (.fenceSignalResult n) s = .next t.objNext ∧ Completed s t q a rest ∧ t.fences.find? n = none) ∧
  (∀ (s u : State) (n m d : Nat) (q : QueueId) (f : FenceSig) (a : Accepted) (rest : List Accepted),
    s.msgFor (.fenceRes n) = some (m, d) → s.cpRuns (dieOf f.src) = true → s.fences.find? n = some f → f.queue = q.key →
    f.exec = true → f.bad = false → f.ev = none → f.result = some true →
    (s.queue q).wait = .fence → (s.queue q).stopping = none → (s.queue q).frames = [] →
    (s.queue q).accepted = a :: rest → a.refs = [] →
    (s.takeMsg m).tryEvent (dieOf f.src) (s.ctx f.ctx).partition (s.ctx f.ctx).evring
      (State.fenceRec f f.cookie (bytesLE 8 f.time.toNat)) = (u, none) →
    ∃ t : State, exec (.fenceSignalResult n) s = .next t.objNext ∧
      ((∀ x ∈ (u.die (dieOf f.src)).evWait, x.1 ≠ s.eventNext) → Completed s t q a rest ∧ t.fences.find? n = none) ∧
      ((∃ x ∈ (u.die (dieOf f.src)).evWait, x.1 = s.eventNext) → (t.queue q).wait = .fence ∧
        (t.queue q).accepted = a :: rest ∧ t.fences.find? n = some { f with ev := some s.eventNext })) ∧
  (∀ (s : State) (n pa : Nat) (f : FenceSig), s.msgFor (.fenceRes n) = none → s.cpRuns (dieOf f.src) = true →
    s.fences.find? n = some f → f.pa = some pa → f.ev = none → f.exec = true → 1000 ≤ s.since (dieOf f.src) f.sentAt →
    (s.ctx f.ctx).st = .resident →
    ∃ t : State, exec (.fenceSignalResult n) s = .next t.objNext ∧ (t.ctx f.ctx).st = .lost ∧
      (t.ctx f.ctx).lossStatus = 0x13050001 ∧ t.fences.find? n = none)

/-- A write of the host driver to word 0 of the request block that submits the request `r` of an operation, which the block
has room to hold, with none waiting and none in progress on the same object; `m` is the mask of the bits covered
(R233, R234, R459). -/
structure Submits (s : State) (role strb : Byte) (v : W64) (op : Nat) (r : ObjReq) (m : W64) : Prop where
  role' : roleOf role = some .driver
  open' : s.crownOpen = true
  strobe : strobes strb = some m
  submit : bitAt m.toNat 63 = true
  room : s.objHeld.length < 64
  req : r = reqOfBlock (putCovered s.objReq 0 v m)
  isOp : r.op = op
  plain : r.rsvOk = true
  idle : ∀ x ∈ s.objHeld, x.waits = false
  alone : ∀ x ∈ s.objHeld, r.names = none ∨ x.names ≠ r.names

/-- A context, a queue, a memory object or a semaphore that the driver's table describes by the rules is created, and its
request ends with DONE. -/
def Obligations.ObjectsAreCreated : Prop :=
  (∀ (s : State) (role strb : Byte) (v m : W64) (r : ObjReq) (e : List Byte), Submits s role strb v 1 r m →
    r.index < 16384 → e = s.readBytes (s.ctxEntry r.index) 128 → (s.ctx r.index).st = .free → r.arg0 = 0 →
    s.partEnabled (fieldAt e 0 2) = true → fieldAt e 8 8 % 2048 = 0 → fieldAt e 0x10 8 % 2048 = 0 →
    fieldAt e 0x40 64 = 0 → fieldAt e 4 4 = 0xFFFFFFFF →
    ∃ u : State, exec (.ctxCreate role strb v) s =
        .next ((u.objEnd r (fieldAt e 0 2) 0xFFFF 0xFFFFFFFF objDone).crownOk) ∧
      u.ctx r.index = { st := .ready, partition := fieldAt e 0 2, evring := fieldAt e 3 1, heap := 0xFFFFFFFF,
                        saveBase := BitVec.ofNat 64 (fieldAt e 8 8), saveSize := BitVec.ofNat 64 (fieldAt e 0x10 8) } ∧
      u.readByte (s.ctxEntry r.index + 2) = 1 ∧ u.queues = s.queues ∧ u.mos = s.mos) ∧
  (∀ (s : State) (role strb : Byte) (v m : W64) (r : ObjReq) (q : QueueId) (e : List Byte), Submits s role strb v 4 r m →
    r.index = q.key → s.hasDie q.die = true → e = s.readBytes (s.queueEntry q) 64 → (s.queue q).st = .free →
    r.arg0 = 0 → fieldAt e 0 2 < 16384 → (s.ctx (fieldAt e 0 2)).st = .ready → 12 ≤ fieldAt e 3 1 →
    fieldAt e 3 1 ≤ 24 → fieldAt e 4 2 ≤ 64 → fieldAt e 6 2 = 0 → fieldAt e 8 8 % 2 ^ fieldAt e 3 1 = 0 →
    fieldAt e 0x14 4 = 0 → fieldAt e 0x28 24 = 0 →
    ∃ t : State, exec (.qCreate role strb v) s = .next t ∧ t.crown = ⟨false, 0⟩ ∧
      t.queue q = { st := .opened, ctx := fieldAt e 0 2, ringLog2 := fieldAt e 3 1,
                    outLimit := if fieldAt e 4 2 = 0 then 32768 else 512 * fieldAt e 4 2,
                    ringBase := BitVec.ofNat 64 (fieldAt e 8 8), timeout := BitVec.ofNat 32 (fieldAt e 0x10 4) }) ∧
  (∀ (s : State) (role strb : Byte) (v m : W64) (r : ObjReq) (e : List Byte), Submits s role strb v 6 r m →
    r.index < 1048576 → e = s.readBytes (s.moEntry r.index) 64 → (s.mo r.index).st = .free → r.arg0 = 0 →
    s.partEnabled (fieldAt e 4 2) = true → fieldAt e 6 1 < 4 → fieldAt e 8 8 % 16 = 0 → fieldAt e 0x10 8 % 16 = 0 →
    16 ≤ fieldAt e 0x10 8 → fieldAt e 0x10 8 ≤ 2 ^ 48 → fieldAt e 0x18 8 = 0 →
    ∃ t : State, exec (.moRegister role strb v) s = .next t ∧ t.crown = ⟨false, 0⟩ ∧
      t.mo r.index = { st := .live, partition := fieldAt e 4 2, isFence := bitAt (fieldAt e 6 1) 0,
                       isHeap := bitAt (fieldAt e 6 1) 1, base := BitVec.ofNat 64 (fieldAt e 8 8),
                       length := BitVec.ofNat 64 (fieldAt e 0x10 8) }) ∧
  (∀ (s : State) (role strb : Byte) (v m : W64) (r : ObjReq) (i : Nat), Submits s role strb v 8 r m → r.index = 0 →
    field r.arg0.toNat 63 20 = 0 → field r.arg0.toNat 15 0 ≠ 0 → s.partEnabled (field r.arg0.toNat 19 16) = true →
    ((List.range 4096).find? fun j => !(s.sema j).used) = some i →
    ∃ u : State, exec (.semCreate role strb v) s = .next ((u.objEnd r (field r.arg0.toNat 19 16) 0xFFFF 0xFFFFFFFF objDone
        (BitVec.ofNat 64 (((s.sema i).gen + 1).toNat * 65536 + field r.arg0.toNat 19 16 * 4096 + i))).crownOk) ∧
      u.sema i = { used := true, gen := (s.sema i).gen + 1, partition := field r.arg0.toNat 19 16,
                   units := field r.arg0.toNat 15 0 } ∧ u.mem = s.mem)

/-- An abort makes a context LOST with class 2, and its request is held until the loss procedure ends; a context with no queue
is destroyed, gives up its slots, and the stores that it left to be cleared are cleared; an idle queue is FREE at once, one
with a launch is DESTROYING and stops it; an object with device references is RETIRING until the last is given back; a
semaphore nobody holds or waits for is free. -/
def Obligations.ObjectsAreDestroyed : Prop :=
  (∀ (s : State) (role strb : Byte) (v m : W64) (r : ObjReq), Submits s role strb v 2 r m → r.index < 16384 →
    r.arg0 = 0 → (s.ctx r.index).st = .resident →
    ∃ t : State, exec (.ctxAbort role strb v) s = .next t ∧ (t.ctx r.index).st = .lost ∧
      (t.ctx r.index).lossStatus = 2 ∧ (t.ctx r.index).losing = some 2 ∧ t.objHeld = s.objHeld ++ [r] ∧
      t.crown = ⟨false, 0⟩) ∧
  (∀ (s : State) (role strb : Byte) (v m : W64) (r : ObjReq), Submits s role strb v 3 r m → r.index < 16384 →
    r.arg0 = 0 → (s.ctx r.index).st ≠ .free → (s.ctx r.index).losing = none → s.ctxQueues r.index = [] →
    ∃ u : State, exec (.ctxDestroy role strb v) s =
        .next ((u.objEnd r (s.ctx r.index).partition 0xFFFF 0xFFFFFFFF objDone).crownOk) ∧
      u.ctx r.index = {} ∧ u.readByte (s.ctxEntry r.index + 2) = 0 ∧
      (∀ d, s.hasDie d = true → u.slotOf d r.index = none) ∧
      ∀ c, (s.core c).lastCtx = some r.index → (s.core c).store.clearDue = true → ∀ off, (u.core c).store.byteAt off = 0) ∧
  (∀ (s : State) (role strb : Byte) (v m : W64) (r : ObjReq) (q : QueueId), Submits s role strb v 5 r m →
    r.index = q.key → s.hasDie q.die = true → r.arg0 = 0 → (s.queue q).st = .opened → (s.queue q).stopping = none →
    (s.queue q).wait = .none →
    (s.queue q).frames = [] → (s.queue q).accepted = [] → (s.queue q).fill = (s.queue q).doneptr →
    (s.ctx (s.queue q).ctx).losing = none → s.cpRuns q.die = true → s.cpOut q.key = false →
    ∃ t : State, exec (.qDestroy role strb v) s = .next t ∧ t.queue q = {} ∧ t.crown = ⟨false, 0⟩) ∧
  (∀ (s : State) (role strb : Byte) (v m : W64) (r : ObjReq) (q : QueueId) (a : Accepted) (n : Nat) (l : Launch),
    Submits s role strb v 5 r m →
    r.index = q.key → s.hasDie q.die = true → r.arg0 = 0 → (s.queue q).st = .opened → (s.queue q).stopping = none →
    (s.queue q).wait = .launch →
    (s.queue q).accepted = [a] → (s.queue q).fill.toNat ≤ a.pos + a.bytes.length →
    (s.ctx (s.queue q).ctx).losing = none → s.cpRuns q.die = true → s.launches.find? q.key = some l → l.dies = [q.die.val] →
    ((s.cores.entries.filter fun e => decide (e.2.part = some q.key) && decide (e.2.run ≠ .idle) &&
      !e.2.stopAcked).map (·.1)) = [n] →
    ∃ t : State, exec (.qDestroy role strb v) s = .next t ∧ (t.queue q).st = .destroying ∧
      (t.queue q).destroyTag = some r.tag ∧ (t.queue q).stopping = some (s.die q.die).ticks ∧
      (t.queue q).stopWait = [n] ∧ t.objHeld = s.objHeld ++ [r] ∧ t.crown = ⟨false, 0⟩) ∧
  (∀ (s : State) (role strb : Byte) (v m : W64) (r : ObjReq), Submits s role strb v 7 r m → r.index < 1048576 →
    r.arg0 = 0 → (s.mo r.index).st = .live → fieldAt (s.readBytes (s.moEntry r.index) 4) 0 4 = 0 →
    ∃ t : State, exec (.moDestroy role strb v) s = .next t ∧ t.crown = ⟨false, 0⟩ ∧
      t.mo r.index = (if s.moUnused r.index then {} else { s.mo r.index with st := .retiring })) ∧
  (∀ (s : State) (h : BitVec 20), (s.mo h.toNat).st = .retiring →
    ∃ t : State, exec (.moRetireEnd h) s = .next t.objNext ∧
      t.mo h.toNat = (if s.moUnused h.toNat then {} else s.mo h.toNat)) ∧
  (∀ (s : State) (role strb : Byte) (v m : W64) (r : ObjReq) (i : Nat), Submits s role strb v 9 r m → r.index = 0 →
    field r.arg0.toNat 63 32 = 0 → i = field r.arg0.toNat 11 0 → (s.sema i).used = true →
    (s.sema i).gen.toNat = field r.arg0.toNat 31 16 →
    (s.sema i).holders = [] → (s.sema i).waiters = [] →
    ∃ t : State, exec (.semDestroy role strb v) s = .next t ∧ t.sema i = { gen := (s.sema i).gen } ∧
      t.crown = ⟨false, 0⟩) ∧
  (∀ (s : State) (role strb : Byte) (v m : W64) (r : ObjReq), Submits s role strb v 9 r m → r.index = 0 →
    field r.arg0.toNat 63 32 = 0 → (s.sema (field r.arg0.toNat 11 0)).used = true →
    (s.sema (field r.arg0.toNat 11 0)).gen.toNat = field r.arg0.toNat 31 16 →
    (s.sema (field r.arg0.toNat 11 0)).holders ≠ [] →
    ∃ t : State, exec (.semDestroy role strb v) s = .next t ∧ t.sems = s.sems)

/-- A write of FQ_RESP by the host driver that covers byte 0 and no reserved field (R8, R292). -/
structure Answers (s : State) (role strb : Byte) (d : DieId) (v m : W64) : Prop where
  role' : roleOf role = some .driver
  open' : s.crownOpen = true
  strobe : strobes strb = some m
  covers : bitAt m.toNat 0 = true
  die : s.hasDie d = true
  plain : v &&& m &&& fqRsv = 0

/-- The requester of a walk's table reads. -/
def walkOwner (w : Walk) : Owner := .walk w.partition (w.va / 4096)

/-- A walk of a die has ended: its reads are done with, and it runs no more. -/
def walkOver (t : State) (d : DieId) (n : Nat) (w : Walk) : State :=
  let t := t.busDone d (walkOwner w)
  t.setDie d { t.die d with walks := (t.die d).walks.eraseIdx n }

/-- A walk makes its table reads one by one. Its end installs its entry for the unit that missed, which goes on, or posts its
fault, which a pre-translation only notes; a fault that waited
takes a free slot. An answer frees the slot of the record it names: RETRY releases the stalled accesses, FAIL fails a
sequencer's program with F-1401, ACK clears a HOT record; an answer that names no record has no effect. A released access is
made again. -/
def Obligations.TranslationFaultsAreServed : Prop :=
  (∀ (s t : State) (d : DieId) (n va acc ctx : Nat) (o : Owner) (w : Walk) (e : RangeEnt), s.hasDie d = true →
    (s.die d).walks[n]? = some w → w.waiters = [(o, va, acc, ctx)] → o.isPin = false → w.spans = [] →
    s.tableWalk d (walkOwner w) w.partition w.tablePa w.count w.va = (t, .found e) →
    ∃ u : State, exec (.walkEnd d n) s = .next ((u.goOn o).nextWalks d ((u.goOn o).die d).walkWait.length) ∧
      u = (walkOver t d n w).install d o e ∧
      (u.die d).bufs.get [] o.bufKey = State.bufInsert ((t.die d).bufs.get [] o.bufKey) e (t.die d).useNext ∧ u.mem = s.mem) ∧
  (∀ (s t : State) (d : DieId) (n va acc ctx : Nat) (o : Owner) (w : Walk) (c : FaultCause), s.hasDie d = true →
    (s.die d).walks[n]? = some w → w.waiters = [(o, va, acc, ctx)] → o.isPin = false →
    s.tableWalk d (walkOwner w) w.partition w.tablePa w.count w.va = (t, .fault c) →
    ∃ u : State, exec (.walkEnd d n) s = .next (u.nextWalks d (u.die d).walkWait.length) ∧
      u = (walkOver t d n w).faultAccess d c 0 o w.partition ctx va (Access.ofBits acc)) ∧
  (∀ (s t : State) (d : DieId) (n va acc ctx q : Nat) (w : Walk) (c : FaultCause), s.hasDie d = true →
    (s.die d).walks[n]? = some w → w.waiters = [(.pin q, va, acc, ctx)] →
    s.tableWalk d (walkOwner w) w.partition w.tablePa w.count w.va = (t, .fault c) →
    ∃ u : State, exec (.walkEnd d n) s = .next (u.nextWalks d (u.die d).walkWait.length) ∧
      (u.die d).pinMiss = (t.die d).pinMiss ++ [(q, va, t.walkAbove d w)] ∧ (u.die d).fq = (t.die d).fq) ∧
  (∀ (s t : State) (d : DieId) (n : Nat) (w : Walk), s.hasDie d = true → (s.die d).walks[n]? = some w →
    s.tableWalk d (walkOwner w) w.partition w.tablePa w.count w.va = (t, .wait) →
    exec (.walkEnd d n) s = .next t) ∧
  (∀ (s : State) (d : DieId) (i : Nat) (w : FqWait) (rest : List FqWait), s.hasDie d = true →
    (s.die d).fqWait = w :: rest → s.freeSlot d = some i → s.mergeSlot d w.cause w.partition w.va w.range = none →
    ∃ (t : State) (r : FqRec), exec (.deferredFaultPost d) s = .next t ∧ (t.die d).fq.find? i = some r ∧
      r.cause = w.cause ∧ r.partition = w.partition ∧ r.va = w.va ∧ r.count = 1 ∧ r.hot = false ∧
      r.seq = (s.die d).fqSeq ∧ r.time = (s.die d).count ∧ (t.die d).fqWait = rest ∧
      (t.die d).fqSeq = (s.die d).fqSeq + 1) ∧
  (∀ (s : State) (role strb : Byte) (d : DieId) (v m : W64) (r : FqRec), Answers s role strb d v m →
    fqAction v.toNat = 1 → s.answered d v.toNat = some r →
    ∃ t : State, exec (.retry role strb d v) s = .next t ∧ (t.die d).fq.find? (fqSlot v.toNat) = none ∧
      (t.die d).replays = (s.die d).replays ++ r.accs ∧ t.crown = ⟨false, 0⟩ ∧ t.mem = s.mem ∧ t.cores = s.cores) ∧
  (∀ (s : State) (role strb : Byte) (d : DieId) (v m : W64) (r : FqRec) (k va acc ctx : Nat), Answers s role strb d v m →
    fqAction v.toNat = 2 → s.answered d v.toNat = some r → r.accs = [(.seqLoad k, va, acc, ctx)] →
    ∃ u : State, exec (.fail role strb d v) s = .next ((u.seqFault (coreOf k) 0 0x1401 va va
        ((s.core (coreOf k)).code.get 0 (s.core (coreOf k)).seq.pc.toNat)).crownOk) ∧
      (u.die d).fq.find? (fqSlot v.toNat) = none ∧ u.cores = s.cores) ∧
  (∀ (s : State) (role strb : Byte) (d : DieId) (v m : W64) (r : FqRec), Answers s role strb d v m →
    fqAction v.toNat = 3 → s.answered d v.toNat = some r →
    ∃ t : State, exec (.ack role strb d v) s = .next t ∧ (t.die d).fq.find? (fqSlot v.toNat) = none ∧
      (t.die d).replays = (s.die d).replays ∧ t.crown = ⟨false, 0⟩) ∧
  (∀ (s : State) (role strb : Byte) (d : DieId) (v m : W64), Answers s role strb d v m → fqAction v.toNat = 1 →
    s.answered d v.toNat = none → exec (.retry role strb d v) s = .next s.crownOk) ∧
  (∀ (s : State) (d : DieId) (n k va acc ctx : Nat), s.hasDie d = true →
    (s.die d).replays[n]? = some (.seqLoad k, va, acc, ctx) →
    exec (.replay d n) s = .next
      ((s.setDie d { s.die d with replays := (s.die d).replays.eraseIdx n }).pumpSeq (coreOf k)))

/-- The HOT period's end clears the remote counters; a commit of a partition's root reaches every die, and one of MODE 0b11 is
ignored; a segment block is read for a context's slot, and one that breaks its table loses the context with F-1403; an
invalidation, once the segment blocks of the partition's slots have been read again, leaves no entry of its span on the die and
loads those blocks; the last acknowledgement completes the INVAL. -/
def Obligations.RootsAndInvalidation : Prop :=
  (∀ (s : State) (d : DieId), s.hasDie d = true →
    100 * max 1 (s.die d).hotPeriod.toNat ≤ s.since d (s.die d).hotAt →
    ∃ t : State, exec (.hotPeriodExpiry d) s = .next t ∧ (∀ e ∈ (t.die d).l2, e.hot = 0 ∧ e.hotPosted = false) ∧
      (t.die d).hotAt = (s.die d).ticks ∧ (t.die d).fq = (s.die d).fq) ∧
  (∀ (s : State) (role : Byte) (p : Fin 16) (v : W64) (new : BitVec 128), roleOf role = some .driver →
    s.crownOpen = true →
    new = BitVec.ofNat 64 ((s.partRoot.get 0 p.val).toNat / 2 ^ 64) ++ (v &&& ~~~rootRsvLow) → rootMode new ≠ 3 →
    ∃ t : State, exec (.partRootCommit role 0xFF p v) s = .next t ∧ t.partRoot.get 0 p.val = new ∧
      (∀ d, s.hasDie d = true → (t.die d).roots.get 0 p.val = new) ∧ t.crown = ⟨false, 0⟩ ∧ t.mem = s.mem) ∧
  (∀ (s : State) (role : Byte) (p : Fin 16) (v : W64), roleOf role = some .driver → s.crownOpen = true →
    rootMode (BitVec.ofNat 64 ((s.partRoot.get 0 p.val).toNat / 2 ^ 64) ++ (v &&& ~~~rootRsvLow)) = 3 →
    ∃ t : State, exec (.partRootCommit role 0xFF p v) s = .next t ∧ t.partRoot = s.partRoot ∧
      (t.die State.die0).rsvdWrite = true ∧ ∀ d, (t.die d).roots = (s.die d).roots) ∧
  (∀ (s u : State) (d : DieId) (n : BitVec 14) (blk : List Byte), s.hasDie d = true →
    rootMode ((s.die d).roots.get 0 (s.ctx n.toNat).partition) = 2 → (s.slotOf d n.toNat).isSome = true →
    s.readSegs d n.toNat 0 = (u, .ok blk) → segBad blk = none →
    ∃ t : State, exec (.segmentBlockLoad d n) s = .next t ∧ (t.slotOf d n.toNat).map (·.segs) = some blk ∧
      t.mem = s.mem) ∧
  (∀ (s u : State) (d : DieId) (n : BitVec 14) (i : Nat) (blk : List Byte), s.hasDie d = true →
    rootMode ((s.die d).roots.get 0 (s.ctx n.toNat).partition) = 2 → (s.slotOf d n.toNat).isSome = true →
    s.readSegs d n.toNat 0 = (u, .ok blk) → segBad blk = some i → (s.ctx n.toNat).st = .resident →
    ∃ t : State, exec (.segmentBlockLoad d n) s = .next t ∧ (t.ctx n.toNat).st = .lost ∧
      (t.ctx n.toNat).lossStatus = 0x14030001 ∧ (t.ctx n.toNat).lossRecord = .outside 0x1403 i) ∧
  (∀ (s u : State) (d : DieId) (n : BitVec 14), s.hasDie d = true →
    rootMode ((s.die d).roots.get 0 (s.ctx n.toNat).partition) = 2 → (s.slotOf d n.toNat).isSome = true →
    s.readSegs d n.toNat 0 = (u, .wait) → exec (.segmentBlockLoad d n) s = .next u) ∧
  (∀ (s : State) (m r q p base len : Nat) (d : DieId), s.msgAt m = some (d.val, r, .inval q p base len) →
    s.cpRuns d = true →
    let mine := (s.die d).slots.filter fun x => decide ((s.ctx x.ctx).partition = p)
    let reads := mine.foldl (fun (acc : State × Bool) x =>
      ((acc.1.segsRead d x.ctx (m + 1)).1, acc.2 && (acc.1.segsRead d x.ctx (m + 1)).2)) (s, true)
    (reads.2 = false → exec (.invalidation m) s = .next reads.1) ∧
    (reads.2 = true → ∃ t : State,
      exec (.invalidation m) s = .next (mine.foldl (fun t x => t.loadSegs d x.ctx (m + 1)) t) ∧
      t.msgAt m = none ∧ t.mem = s.mem ∧
      (∀ e ∈ (t.die d).l2, e.partition = p → e.overlaps base (if len = 0 then 2 ^ 64 else len) = false) ∧
      (∀ x ∈ (t.die d).bufs.values, ∀ e ∈ x, e.partition = p →
        e.overlaps base (if len = 0 then 2 ^ 64 else len) = false) ∧
      ∃ ns fs, (t.die d).invals = (s.die d).invals ++ [(q, p, ns, fs)])) ∧
  (∀ (s : State) (q : QueueId) (e : Nat × Nat × List Nat × List Nat) (a : Accepted) (rest : List Accepted),
    s.hasDie q.die = true → s.cpRuns q.die = true → s.msgFor (.invalAck q.key q.die.val) = none →
    ((s.die q.die).invals.find? fun e => decide (e.1 = q.key)) = some e → (∀ n ∈ e.2.2.1, s.reqs.find? n = none) →
    (∀ n ∈ e.2.2.2, ∀ f, s.fences.find? n = some f → f.pa = none ∨ f.result ≠ none) →
    (s.queue q).wait = .inval [q.die.val] → (s.queue q).stopping = none → (s.queue q).frames = [] →
    (s.queue q).accepted = a :: rest → a.refs = [] →
    ∃ t : State, exec (.invalidationAcknowledgement q.die q) s = .next t.objNext ∧ Completed s t q a rest) ∧
  (∀ (s : State) (q : QueueId) (d e : DieId) (m r : Nat), s.hasDie d = true → s.cpRuns q.die = true → d ≠ e →
    s.msgFor (.invalAck q.key d.val) = some (m, r) → (s.queue q).wait = .inval [d.val, e.val] →
    ∃ t : State, exec (.invalidationAcknowledgement d q) s = .next t.objNext ∧ (t.queue q).wait = .inval [e.val] ∧
      t.msgAt m = none ∧ (t.queue q).accepted = (s.queue q).accepted)

/-- A bad flit is counted, discarded and answered with NAK; a good one out of order is discarded; a good write in order for
the die becomes a request there, a control message for it arrives, a distribution record from its two halves, and each is
answered; an unanswered flit of 200 counts
is sent again with those after it. -/
def Obligations.LinksCarryFlits : Prop :=
  (∀ (s : State) (l : LinkId) (raw : List Byte) (f : Flit) (rest : List Flit), s.hasDie l.die = true →
    (s.link l).st = .active → raw ≠ [] → flitBad raw = true → (s.link l).wire = f :: rest → f.body ≠ .idle →
    ∃ u : State, exec (.flit l raw) s = .next (u.reply l) ∧ (u.link l).crcErrors = satInc (s.link l).crcErrors ∧
      (u.link l).nakDue = true ∧ (u.link l).wire = rest ∧ (u.link l).rxSeq = (s.link l).rxSeq ∧ u.reqs = s.reqs ∧
      u.msgs = s.msgs) ∧
  (∀ (s : State) (l : LinkId) (f : Flit) (rest : List Flit), s.hasDie l.die = true → (s.link l).st = .active →
    (s.link l).wire = f :: rest → f.body ≠ .idle → f.seq ≠ (s.link l).rxSeq →
    exec (.flit l []) s = .next ((s.setLink l { s.link l with wire := rest }).reply l)) ∧
  (∀ (s : State) (l : LinkId) (f : Flit) (rest : List Flit) (bs : List Byte), s.hasDie l.die = true →
    (s.link l).st = .active → (s.link l).wire = f :: rest → f.body = .wr bs → f.seq = (s.link l).rxSeq →
    f.dst = l.die.val → f.nak = none →
    ∃ (u : State) (r : Req), exec (.flit l []) s = .next (u.reply l) ∧
      (u.link l).rxSeq = ((s.link l).rxSeq + 1) % 1024 ∧ (u.link l).wire = rest ∧ u.reqs.find? s.reqNext = some r ∧
      r.owner = .remote f.src f.tag ∧ r.die = l.die ∧ r.pa = f.addr ∧ r.write = true ∧ r.partition = f.partition ∧
      r.data = (List.range 64).map (fun i => (i, bs.getD i 0)) ∧ u.mem = s.mem) ∧
  (∀ (s : State) (l : LinkId) (f : Flit) (rest : List Flit) (m : Msg), s.hasDie l.die = true →
    (s.link l).st = .active → (s.link l).wire = f :: rest → f.body = .ctl m → (∀ c g, m ≠ .semAns c g) →
    (∀ b, m ≠ .distA b) → (∀ b, m ≠ .distB b) → (∀ e n far, m ≠ .topology e n far) →
    f.seq = (s.link l).rxSeq → f.dst = l.die.val → f.nak = none →
    ∃ u : State, exec (.flit l []) s = .next (u.reply l) ∧ (u.link l).rxSeq = ((s.link l).rxSeq + 1) % 1024 ∧
      u.msgAt s.msgNext = some (l.die.val, f.src, m)) ∧
  (∀ (s : State) (l : LinkId) (f : Flit) (rest : List Flit) (half : List Byte), s.hasDie l.die = true →
    (s.link l).st = .active → (s.link l).wire = f :: rest → f.body = .ctl (.distA half) →
    f.seq = (s.link l).rxSeq → f.dst = l.die.val → f.nak = none →
    ∃ u : State, exec (.flit l []) s = .next (u.reply l) ∧ (u.link l).rxSeq = ((s.link l).rxSeq + 1) % 1024 ∧
      (u.die l.die).distHalf.find? f.src = some half ∧ u.msgs = s.msgs) ∧
  (∀ (s : State) (l : LinkId) (f : Flit) (rest : List Flit) (half half' : List Byte), s.hasDie l.die = true →
    (s.link l).st = .active → (s.link l).wire = f :: rest → f.body = .ctl (.distB half') →
    f.seq = (s.link l).rxSeq → f.dst = l.die.val → f.nak = none → (s.die l.die).distHalf.find? f.src = some half →
    ∃ u : State, exec (.flit l []) s = .next (u.reply l) ∧ (u.link l).rxSeq = ((s.link l).rxSeq + 1) % 1024 ∧
      u.msgAt s.msgNext = some (l.die.val, f.src, .dist (half ++ half'))) ∧
  (∀ (s : State) (l : LinkId) (h : Flit × Nat × Nat) (rest : List (Flit × Nat × Nat)), s.hasDie l.die = true →
    (s.link l).st = .active → (s.link l).held = h :: rest → 200 ≤ s.since l.die h.2.1 → (s.link l).replayAt = [] →
    (∀ x ∈ h :: rest, x.2.2 < 3) → s.farEnd l ≠ l →
    ∃ t : State, exec (.ackTimeout l) s = .next t ∧ (t.link l).replays = satInc (s.link l).replays ∧
      (t.link l).st = .active ∧
      (t.link l).held = (h :: rest).map (fun x => (x.1, (s.die l.die).ticks, x.2.2 + 1)) ∧
      (t.link (s.farEnd l)).wire = (s.link (s.farEnd l)).wire ++ (h :: rest).map (·.1))

/-- A link trains from DOWN through IDENT, REPORT and ALIGN to ACTIVE; a lane that is not seen exactly once is retired, the
far side is what the majority of the lanes carries; more than two retired on either side fail the link with F-1502, a far die
of the same number fails it with F-1505; a phase that does not finish starts again, and the third restart fails the link; a
fall of the PHY's ready moves an ACTIVE link to RETRAIN; the end of start-up's wait fails a link that is not ACTIVE; a die
announces its ACTIVE links over each of them, with a higher number, and one that takes a newer announcement sends it on over
its ACTIVE links and computes its routes again. -/
def Obligations.LinksTrain : Prop :=
  (∀ (s : State) (l : LinkId), s.hasDie l.die = true → (s.link l).st = .down → (s.link l).enabled = true →
    ∃ t : State, exec (.mtPhyReady l) s = .next t ∧ (t.link l).st = .ident ∧ (t.link l).step = .ident ∧
      (t.link l).phyReady = true ∧ (t.link l).trainAt = (s.die l.die).ticks ∧ (t.link l).restarts = 0) ∧
  (∀ (s : State) (l : LinkId), s.hasDie l.die = true → (s.link l).st = .active →
    ∃ t : State, exec (.mtPhyReadyFall l) s = .next t ∧ (t.link l).st = .retrain ∧ (t.link l).phyReady = false ∧
      (t.link l).held = (s.link l).held ∧ (∀ i, (s.link l).credits.getD i 0 ≤ (t.link l).credits.getD i 0) ∧
      ((∀ f ∈ (s.link l).wire, f.body ≠ .idle) → (t.link l).credits = (s.link l).credits) ∧
      (t.link l).retrains = satInc (s.link l).retrains) ∧
  (∀ (s : State) (l : LinkId) (lanes : List LaneSeen), s.hasDie l.die = true → (s.link l).st = .ident →
    (s.link l).step = .ident → (s.link l).phyReady = true → lanes.length = 48 →
    ∃ t : State, exec (.identComplete l lanes) s = .next t ∧ (t.link l).st = .report ∧ (t.link l).step = .report ∧
      ∀ n, n < 48 → bitAt (t.link l).retired.toNat n =
        decide ((lanes.map laneVerdict).countP (fun v => decide (v.map (·.1) = some n)) ≠ 1)) ∧
  (∀ (s : State) (l : LinkId) (rs : List (BitVec 48)) (ds : List (Fin 8)) (ls : List (Fin 4)) (far : BitVec 48)
    (fd : Fin 8) (fl : Fin 4), s.hasDie l.die = true →
    (s.link l).st = .report → (s.link l).step = .report →
    (rs.zip (ds.zip ls)).length < 2 * (rs.zip (ds.zip ls)).count (far, fd, fl) →
    fd.val ≠ (s.die l.die).number →
    popcount 48 (s.link l).retired.toNat ≤ 2 → popcount 48 far.toNat ≤ 2 →
    ∃ t : State, exec (.reportComplete l rs ds ls) s = .next t ∧ (t.link l).st = .align ∧ (t.link l).step = .align ∧
      (t.link l).farDie = fd.val ∧ (t.link l).farLink = fl.val ∧ (t.link l).farRetired = far) ∧
  (∀ (s : State) (l : LinkId) (rs : List (BitVec 48)) (ds : List (Fin 8)) (ls : List (Fin 4)) (far : BitVec 48)
    (fd : Fin 8) (fl : Fin 4), s.hasDie l.die = true →
    (s.link l).st = .report → (s.link l).step = .report →
    (rs.zip (ds.zip ls)).length < 2 * (rs.zip (ds.zip ls)).count (far, fd, fl) →
    fd.val ≠ (s.die l.die).number →
    2 < popcount 48 (s.link l).retired.toNat → (s.link l).e2e = {} →
    ∃ t : State, exec (.reportComplete l rs ds ls) s = .next t ∧ (t.link l).st = .failed ∧
      bitAt (t.steward l.die).safety.causes.toNat 7 = true) ∧
  (∀ (s : State) (l : LinkId) (rs : List (BitVec 48)) (ds : List (Fin 8)) (ls : List (Fin 4)) (far : BitVec 48)
    (fd : Fin 8) (fl : Fin 4), s.hasDie l.die = true →
    (s.link l).st = .report → (s.link l).step = .report →
    (rs.zip (ds.zip ls)).length < 2 * (rs.zip (ds.zip ls)).count (far, fd, fl) →
    fd.val = (s.die l.die).number → (s.link l).e2e = {} →
    ∃ t : State, exec (.reportComplete l rs ds ls) s = .next t ∧ (t.link l).st = .failed ∧
      (t.die l.die).linkConflict = true ∧ (t.steward l.die).safety.ssrLatch = true) ∧
  (∀ (s : State) (l : LinkId), s.hasDie l.die = true → (s.link l).st = .align → (s.link l).step = .align →
    ∃ u : State, exec (.alignComplete l) s = .next ((u.pump l).pumpDie l.die) ∧ (u.link l).st = .active ∧ u.reqs = s.reqs) ∧
  (∀ (s : State) (l : LinkId), s.hasDie l.die = true → (s.link l).training = true → (s.link l).restarts < 2 →
    20 ≤ (s.die l.die).ticks - (s.link l).phaseAt →
    ∃ t : State, exec (.trainingPhaseTimeout l) s = .next t ∧ (t.link l).step = .ident ∧
      (t.link l).restarts = (s.link l).restarts + 1 ∧ (t.link l).training = true) ∧
  (∀ (s : State) (l : LinkId), s.hasDie l.die = true → (s.link l).training = true → 2 ≤ (s.link l).restarts →
    20 ≤ (s.die l.die).ticks - (s.link l).phaseAt → (s.link l).e2e = {} →
    ∃ t : State, exec (.trainingPhaseTimeout l) s = .next t ∧ (t.link l).st = .failed) ∧
  (∀ (s : State) (l : LinkId), s.hasDie l.die = true → (s.die l.die).stage = .links →
    5000000 ≤ s.since l.die (s.die l.die).stageAt → (s.link l).training = true → (s.link l).e2e = {} →
    ∃ t : State, exec (.linkTrainTimeout l) s = .next t ∧ (t.link l).st = .failed) ∧
  (∀ (s : State) (d : DieId), s.hasDie d = true → (s.die d).stage ≠ .held →
    ∃ u : State, exec (.topologyAnnouncement d) s = .next ((u.tellAll d (u.die d).topology.entries).computeRoutes d) ∧
      (u.die d).topology = (s.die d).topology.put d.val (s.farDies d) ∧
      (u.die d).topologyNo.get 0 d.val = (s.die d).topologyNo.get 0 d.val + 1 ∧ u.links = s.links) ∧
  (∀ (s : State) (l : LinkId) (f : Flit) (rest : List Flit) (die no : Nat) (far : List Nat), s.hasDie l.die = true →
    (s.link l).st = .active → (s.link l).wire = f :: rest → f.body = .ctl (.topology die no far) →
    f.seq = (s.link l).rxSeq → f.dst = l.die.val → f.nak = none → die ≠ l.die.val →
    (s.die l.die).topologyNo.get 0 die < no →
    ∃ u : State, exec (.flit l []) s = .next (((u.tellAll l.die [(die, far)]).computeRoutes l.die).reply l) ∧
      (u.die l.die).topology.get [] die = far ∧ (u.die l.die).topologyNo.get 0 die = no)

/-- A timebase edge advances the count by 1, but for a held counter; the loss of the timebase asks for the safe state, its
resumption starts an alignment, or leaves one due where die 0 is not reached or the counter holds, and 1 ms of edges clears
F-0201. The exchange of the counters: requests 10 counts apart, an answer with die 0's count at the request's receipt, whichever
die asks, the offset of the best of sixteen exchanges, the check of every second, its timeout; a pulse captures the count of two
counts ago. -/
def Obligations.CountersRunAndAlign : Prop :=
  (∀ (s : State) (d : DieId), s.hasDie d = true → (s.die d).stage ≠ .held → (s.die d).holding < 2 →
    ∃ t : State, exec (.timebaseRisingEdge d) s = .next t ∧ (t.die d).count = (s.die d).count + 1 ∧
      (t.die d).ticks = (s.die d).ticks + 1 ∧ (∀ e, e ≠ d → t.die e = s.die e) ∧ t.mem = s.mem ∧ t.cores = s.cores) ∧
  (∀ (s : State) (d : DieId), s.hasDie d = true → (s.die d).stage ≠ .held → 2 ≤ (s.die d).holding →
    ∃ t : State, exec (.timebaseRisingEdge d) s = .next t ∧ (t.die d).count = (s.die d).count ∧
      (t.die d).ticks = (s.die d).ticks ∧ (t.die d).holding = (s.die d).holding - 1) ∧
  (∀ (s : State) (d : DieId), s.hasDie d = true → (s.die d).stage ≠ .held → (s.net d).stepTo = none →
    (s.net d).stepBy = none → (s.net d).adjNext = none → (s.net d).adj = 0 →
    (s.net d).nsFrac + 10 * 2 ^ 32 < secondUnits →
    ∃ t : State, exec (.timebaseRisingEdge d) s = .next t ∧ (t.net d).nsFrac = (s.net d).nsFrac + 10 * 2 ^ 32 ∧
      (t.net d).secs = (s.net d).secs) ∧
  (∀ (s : State) (d : DieId), s.hasDie d = true → (s.die d).holding = 1 →
    ∃ t : State, exec (.counterHoldEnd d) s = .next t ∧ (t.die d).holding = 0 ∧ (t.die d).count = (s.die d).count ∧
      ((s.die d).alignAfter = true → (t.die d).aligned = true)) ∧
  (∀ (s : State) (d : DieId), s.hasDie d = true → (s.die d).stage ≠ .held → (s.die d).onRing = false →
    ∃ t : State, exec (.timebaseLost d) s = .next t ∧ (t.die d).onRing = true ∧ (t.die d).tbLostFlag = true ∧
      (t.steward d).safety.f0201 = true ∧ bitAt (t.steward d).safety.causes.toNat 5 = true ∧
      (t.die d).count = (s.die d).count) ∧
  (∀ (s : State) (d : DieId), s.hasDie d = true → (s.die d).stage ≠ .held → (s.die d).onRing = true → d ≠ State.die0 →
    s.reaches d 0 = true → (s.die d).holding = 0 →
    ∃ t : State, exec (.timebaseResume d) s = .next t ∧ (t.die d).onRing = false ∧ (t.die d).aligning = true ∧
      (t.die d).alignPeriodic = false ∧ (t.die d).exchanges = [] ∧ (t.die d).count = (s.die d).count) ∧
  (∀ (s : State) (d : DieId), s.hasDie d = true → (s.steward d).mode = .carori → (s.die d).onRing = false →
    100000 ≤ s.since d (s.die d).resumeAt →
    ∃ t : State, exec (.timebaseStable d) s = .next t ∧ (t.steward d).safety.f0201 = false ∧
      (t.steward d).safety.causes = (s.steward d).safety.causes) ∧
  (∀ (s : State) (d : DieId), s.hasDie d = true → (s.die d).aligning = true → (s.die d).alignNext < 16 →
    ((s.die d).alignNext = 0 ∨ 10 ≤ s.since d (s.die d).alignAt) →
    ∃ t : State, exec (.alignmentExchangeTimer d) s = .next t ∧ (t.die d).alignNext = (s.die d).alignNext + 1 ∧
      (t.die d).alignAt = (s.die d).ticks) ∧
  (∀ (s : State) (d : DieId), s.hasDie d = true → (s.die d).stage ≠ .held → (s.die d).onRing = true → d ≠ State.die0 →
    (s.reaches d 0 = false ∨ (s.die d).holding ≠ 0) →
    ∃ t : State, exec (.timebaseResume d) s = .next t ∧ (t.die d).onRing = false ∧ (t.die d).aligning = false ∧
      (t.die d).alignDue = true ∧ (t.die d).count = (s.die d).count) ∧
  (∀ (s : State) (m d src i : Nat) (a : W64), s.msgAt m = some (d, src, .alignReq i a) →
    exec (.alignmentRequest m) s =
      .next ((s.takeMsg m).sendMsg State.die0 (dieOf src) (.alignAns i a (s.die State.die0).count))) ∧
  (∀ (s : State) (m d i : Nat) (a : W64), s.msgAt m = some (d, 0, .alignReq i a) → m ≠ s.msgNext →
    ∃ t : State, exec (.alignmentRequest m) s = .next t ∧ t.msgAt m = none ∧
      t.msgAt s.msgNext = some (0, 0, .alignAns i a (s.die State.die0).count)) ∧
  (∀ (s : State) (m r i : Nat) (d : DieId) (a b : W64), s.msgAt m = some (d.val, r, .alignAns i a b) →
    (s.die d).aligning = true → (s.die d).exchanges.length < (s.die d).alignNext → i = (s.die d).exchanges.length →
    i < 15 →
    ∃ t : State, exec (.alignmentAnswer m) s = .next t ∧
      (t.die d).exchanges = (s.die d).exchanges ++ [⟨a, b, (s.die d).count⟩] ∧ (t.die d).count = (s.die d).count) ∧
  (∀ (s : State) (m r i : Nat) (d : DieId) (a b : W64) (x : Exchange), s.msgAt m = some (d.val, r, .alignAns i a b) →
    (s.die d).aligning = true → (s.die d).alignNext = 16 → (s.die d).exchanges.length = 15 → i = 15 →
    (s.die d).alignPeriodic = false → bestExchange ((s.die d).exchanges ++ [⟨a, b, (s.die d).count⟩]) = some x →
    ∃ t : State, exec (.alignmentAnswer m) s = .next t ∧ (t.die d).aligned = decide (0 ≤ x.offset) ∧
      (t.die d).alignAfter = decide (x.offset < 0) ∧ (t.die d).aligning = false ∧
      (t.die d).lastOffset = BitVec.ofInt 32 x.offset ∧
      (0 < x.offset → (t.die d).count = (s.die d).count + BitVec.ofInt 64 x.offset) ∧
      (x.offset < 0 → (t.die d).count = (s.die d).count ∧ (t.die d).holding = (-x.offset).toNat + 1)) ∧
  (∀ (s : State) (d : DieId), s.hasDie d = true → d ≠ State.die0 → (s.die d).aligned = true →
    (s.die d).aligning = false → 100000000 ≤ s.since d (s.die d).periodAt →
    ∃ t : State, exec (.periodicAlignmentCheck d) s = .next t ∧ (t.die d).aligning = true ∧
      (t.die d).alignPeriodic = true ∧ (t.die d).alignNext = 0 ∧ (t.die d).aligned = true) ∧
  (∀ (s : State) (d : DieId), s.hasDie d = true → (s.die d).aligning = true →
    (s.die d).exchanges.length < (s.die d).alignNext → 1000 ≤ s.since d (s.die d).alignAt →
    ∃ t : State, exec (.alignmentTimeout d) s = .next t ∧ (t.die d).aligning = false ∧ (t.die d).aligned = false ∧
      bitAt (t.steward d).safety.causes.toNat 5 = true) ∧
  (∀ (s : State) (d : DieId) (x y : W64 × BitVec 96), s.hasDie d = true → (s.net d).history = [x, y] →
    ∃ t : State, exec (.pulseInput d) s = .next t ∧ (t.die d).gcCap = y.1 ∧ (t.net d).ppsIn = y.2)

/-- Block reset returns what a die holds to its reset value and leaves every other die alone; its release begins BOOT; the
compute part leaves reset in PLAN with the strapped die number; a verdict disables each array that failed and begins LINKS;
the end of LINKS sends the stage report, which die 0 keeps; HOST_DONE raises READY on die 0 where every condition holds and
sets HOST_ERR where one fails; a readiness report raises READY elsewhere. -/
def Obligations.StartUpStages : Prop :=
  (∀ (s : State) (d : DieId), s.hasDie d = true →
    (∀ e ∈ s.reqs.entries, e.2.die = d → e.2.write = false) →
    ∃ t : State, exec (.blkRstNAssert d) s = .next t ∧ t.die d = {} ∧ (t.die d).stage = .held ∧ t.net d = {} ∧
      (∀ c : CoreId, c.die = d → t.core c = {}) ∧ (∀ k : ClusterId, k.die = d → t.cluster k = {}) ∧
      (∀ l : LinkId, l.die = d → t.link l = {}) ∧ (∀ q : QueueId, q.die = d → t.queue q = {}) ∧
      (∀ e, e ≠ d → t.die e = s.die e ∧ t.steward e = s.steward e) ∧ t.mem = s.mem ∧
      (t.steward d).mode = .checking ∧ (t.steward d).dict = {}) ∧
  (∀ s : State, s.hasDie State.die0 = true →
    ∃ t : State, exec (.blkRstNAssert State.die0) s = .next t ∧ t.ctxs = {} ∧ t.mos = {} ∧ t.sems = {} ∧ t.rings = {} ∧
      t.ctxTbl = 0 ∧ t.moTbl = 0 ∧ t.partRoot = {} ∧ t.objHeld = [] ∧ t.capFixed = false) ∧
  (∀ (s : State) (d : DieId), s.hasDie d = true → (s.die d).stage = .held →
    ∃ t : State, exec (.blkRstNRelease d) s = .next t ∧ (t.die d).stage = .boot ∧
      (t.die d).count = (s.die d).count ∧ (t.die d).aligned = decide (d = State.die0) ∧
      (t.die d).computeReset = (s.die d).computeReset) ∧
  (∀ (s : State) (d : DieId), s.hasDie d = true → (s.die d).stage = .plan → (s.die d).computeReset = true →
    (s.die d).awaitPlan = false → (s.die d).heldSupply = false → (s.die d).heldLadder = false →
    ∃ t : State, exec (.computePartRelease d) s = .next t ∧ (t.die d).computeReset = false ∧
      (t.die d).awaitPlan = true ∧ (t.die d).number = s.latchNumber d ∧
      ((s.die d).invals = [] → (∀ e ∈ s.queues.entries, (queueOf e.1).die = d → e.2.st ≠ .destroying) → t.mem = s.mem)) ∧
  (∀ (s : State) (d : DieId) (a : ArrayId), s.hasDie d = true → (s.die d).stage = .selftest →
    (s.die d).computeReset = false → (s.die d).awaitPlan = false → a.core.die = d → s.hasArray a = true →
    s.unitOn (.array a) = true →
    ∃ t : State, exec (.selftestVerdict d [.array a] 0) s = .next t ∧ (t.die d).stage = .links ∧
      (t.die d).selftested = true ∧ (t.arr a).enabled = false ∧ a.key ∈ (t.steward d).failedArrays) ∧
  (∀ (s : State) (d : DieId), s.hasDie d = true → d ≠ State.die0 → (s.die d).stage = .links →
    (s.die d).reported = false → (s.die d).stopped = false → (s.die d).linkConflict = false →
    (s.die d).aligned = true → (∀ i : Fin 4, s.linkSettled ⟨d, i⟩ = true) →
    (∀ n, n < s.build.dies → ∃ e : DieId, s.hasDie e = true ∧ s.reaches d e.val = true ∧ (s.die e).number = n) →
    ∃ t : State, exec (.linksEnd d) s = .next t ∧ (t.die d).stage = .hostInit ∧ (t.die d).reported = true) ∧
  (∀ (s : State) (m d r clusters cores arrays : Nat) (links : W32) (code : W16) (deg : Bool),
    s.msgAt m = some (d, r, .stage clusters cores arrays links code deg) → s.capFixed = false →
    ∃ t : State, exec (.stageReport m) s = .next t ∧ t.msgAt m = none ∧
      t.caps.find? r = some { clusters := clusters, cores := cores, arrays := arrays, links := links }) ∧
  (∀ (s : State) (role : Byte), roleOf role = some .driver → (s.die State.die0).stage = .hostInit → s.hostReady = true →
    ∃ t : State, exec (.hostDone role 0xFF 1) s = .next t ∧ (t.die State.die0).stage = .ready ∧
      (t.die State.die0).readyPin = true ∧ t.capFixed = true ∧ t.crown = ⟨false, 0⟩) ∧
  (∀ (s : State) (role : Byte), roleOf role = some .driver → (s.die State.die0).stage = .hostInit → s.hostReady = false →
    ∃ t : State, exec (.hostDone role 0xFF 1) s = .next t ∧ (t.die State.die0).stage = .hostInit ∧
      (t.die State.die0).hostErr = true ∧ (t.die State.die0).readyPin = (s.die State.die0).readyPin) ∧
  (∀ (s : State) (m r : Nat) (d : DieId) (x : W64), s.msgAt m = some (d.val, r, .readiness x) →
    (s.die d).stage = .hostInit → (s.die d).stopped = false →
    ∃ t : State, exec (.readinessReport m) s = .next t ∧ (t.die d).stage = .ready ∧ (t.die d).readyPin = true ∧
      t.msgAt m = none)

/-- A supply dip sets CAUSE bit 3 and SSR_LATCH and holds the compute part; a recovery before the first release only lifts the
hold; a rate window keeps the lowest rate, and a low one at a high request is reported as F-0202. -/
def Obligations.SupplyAndRate : Prop :=
  (∀ (s : State) (d : DieId), s.hasDie d = true → (s.die d).stage ≠ .held → (s.die d).heldSupply = false →
    (s.die d).computeReset = true →
    ∃ t : State, exec (.supplyDip d) s = .next t ∧ (t.die d).heldSupply = true ∧ (t.die d).computeReset = true ∧
      bitAt (t.steward d).safety.causes.toNat 3 = true ∧ (t.steward d).safety.ssrLatch = true) ∧
  (∀ (s : State) (d : DieId), s.hasDie d = true → (s.die d).stage ≠ .held → (s.die d).heldSupply = false →
    (s.die d).computeReset = false →
    ∃ u : State, exec (.supplyDip d) s = .next ((u.resetCompute d).linksReset d) ∧ (u.die d).heldSupply = true ∧
      bitAt (u.steward d).safety.causes.toNat 3 = true ∧ (u.steward d).safety.ssrLatch = true ∧ u.cores = s.cores) ∧
  (∀ (s : State) (d : DieId), s.hasDie d = true → (s.die d).heldSupply = true → (s.die d).stage = .boot →
    ∃ t : State, exec (.supplyRecovery d) s = .next t ∧ (t.die d).heldSupply = false ∧ (t.die d).stage = .boot ∧
      (t.die d).computeReset = (s.die d).computeReset) ∧
  (∀ (s : State) (d : DieId), s.hasDie d = true → (s.die d).heldSupply = true → (s.die d).stage = .links →
    (s.die d).heldLadder = false → (s.die d).dieReset = false → (s.die d).invals = [] →
    ∃ t : State, exec (.supplyRecovery d) s = .next t ∧ (t.die d).heldSupply = false ∧ (t.die d).stage = .plan ∧
      (t.die d).computeReset = false ∧ (t.die d).startRestarts = satInc (s.die d).startRestarts) ∧
  (∀ (s : State) (d : DieId) (rate : W16), s.hasDie d = true → (s.die d).computeReset = false →
    1000 ≤ s.since d (s.die d).windowAt →
    ∃ t : State, exec (.rateWindow d rate) s = .next t ∧ (t.die d).rate = rate ∧
      (t.die d).rateMin.toNat = min rate.toNat (s.die d).rateMin.toNat ∧ (t.die d).windowAt = (s.die d).ticks ∧
      (rate.toNat < 1200 → 0x3C ≤ (s.steward d).vreq →
        (t.die d).belowFloor = true ∧ bitAt (t.steward d).safety.causes.toNat 4 = true) ∧
      (1200 ≤ rate.toNat → (t.die d).belowFloor = (s.die d).belowFloor))

/-- A watchdog at its limit starts the ladder at its unit with F-1801; a region that answers, or does not within 200 counts,
or is left when collection ends, joins the dump with its status; the last one asserts the reset; a deadline moves the ladder
up; 1,000 counts after a reset the slot of a request without a response is given back, and the request itself stays; a check
that passes ends the escalation and holds its dump. -/
def Obligations.ResetLadderAndDumps : Prop :=
  (∀ (s : State) (u : ResetUnit) (n : Nat), s.hasUnit u = true → (s.die u.dieId).computeReset = false →
    s.objVal u.dieId 0x2A30 0 ≤ n → s.watched u n = true → (s.die u.dieId).escalations = [] →
    ∃ (t : State) (e : Escalation), exec (.watchdogExpiry u n) s = .next t ∧ (t.die u.dieId).escalations = [e] ∧
      e.unit = u ∧ e.code = 0x1801 ∧ e.level = u.level ∧ e.t0 = (s.die u.dieId).ticks ∧ e.resetAt = none ∧
      t.mem = s.mem ∧ t.cores = s.cores) ∧
  (∀ (s : State) (d : DieId) (n path : Nat) (e : Escalation) (r : RegionTodo), s.hasDie d = true →
    s.esc d n = some e → (e.todo.find? fun r => decide (r.path = path)) = some r → e.resetAt = none →
    s.since d (e.pathAt.get 0 path) < 200 → (e.todo.erase r) ≠ [] → e.kept = true →
    (s.regionData d r).1.dumpOthers d e.dump.seqno + State.dumpBytes e.dump + State.regionBytes (s.regionData d r).2.length
      ≤ 524288 →
    ∃ (t : State) (f : Escalation), exec (.regionRead d n path) s = .next t ∧ t.esc d n = some f ∧
      f.todo = e.todo.erase r ∧ f.resetAt = none ∧ f.dump.regions = e.dump.regions ++
        [{ id := r.id, status := 0, unit := r.unit, key := r.key, idx := r.idx, data := (s.regionData d r).2,
           time := (s.die d).count }]) ∧
  (∀ (s : State) (d : DieId) (n path : Nat) (e : Escalation) (r : RegionTodo), s.hasDie d = true →
    s.esc d n = some e → (e.todo.find? fun r => decide (r.path = path)) = some r → e.resetAt = none →
    200 ≤ s.since d (e.pathAt.get 0 path) → (e.todo.erase r) ≠ [] → e.kept = true →
    s.dumpOthers d e.dump.seqno + State.dumpBytes e.dump + State.regionBytes 0 ≤ 524288 →
    ∃ (t : State) (f : Escalation), exec (.regionReadTimeout d n path) s = .next t ∧ t.esc d n = some f ∧
      f.todo = e.todo.erase r ∧ f.dump.regions = e.dump.regions ++
        [{ id := r.id, status := 1, unit := r.unit, key := r.key, idx := r.idx, data := [], time := (s.die d).count }]) ∧
  (∀ (s : State) (d : DieId) (n : Nat) (e : Escalation), s.hasDie d = true → s.esc d n = some e → e.resetAt = none →
    e.level.collect ≤ s.since d e.from' →
    ∃ (u : State) (f : Escalation), exec (.collectionCutoff d n) s = .next (u.assertReset d n) ∧ u.esc d n = some f ∧
      f.todo = [] ∧ f.unit = e.unit ∧ f.level = e.level ∧ u.cores = s.cores) ∧
  (∀ (s : State) (d : DieId) (n : Nat) (e : Escalation), s.hasDie d = true → s.esc d n = some e → e.level = .engine →
    2000 ≤ s.since d e.t0 → s.regionsLeft (e.unit.atLevel ResetLevel.core) e.dump ≠ [] →
    (e.unit.atLevel ResetLevel.core).level = .core →
    (∀ x ∈ (s.die d).escalations, x.dump.seqno ≠ e.dump.seqno →
      (e.unit.atLevel ResetLevel.core).contains (x.unit.atLevel x.level) = false) →
    ∃ (t : State) (f : Escalation), exec (.resetDeadline d n) s = .next t ∧ t.esc d n = some f ∧ f.level = .core ∧
      f.resetAt = none ∧ f.t0 = e.t0 ∧ f.from' = (s.die d).ticks ∧
      f.todo = s.regionsLeft (e.unit.atLevel ResetLevel.core) e.dump) ∧
  (∀ (s : State) (d : DieId) (n : Nat) (e : Escalation), s.hasDie d = true → s.esc d n = some e → e.level = .die →
    40000 ≤ s.since d e.t0 →
    ∃ t : State, exec (.resetDeadline d n) s = .next t ∧ (t.die d).computeReset = true ∧ (t.die d).heldLadder = true ∧
      (t.die d).escalations = (s.die d).escalations.eraseIdx n ∧ bitAt (t.steward d).safety.causes.toNat 2 = true ∧
      (t.steward d).safety.ssrLatch = true) ∧
  (∀ (s : State) (d : DieId) (n : Nat) (e : Escalation) (c : CoreId), s.hasDie d = true → s.esc d n = some e →
    e.resetAt.isSome = true → e.unit = .core c → e.level = .core → c.die = d → s.hasCore c = true →
    (s.core c).run = .reset → e.kept = true →
    ∃ t : State, exec (.resetCheck d n) s = .next t ∧ (t.die d).escalations = (s.die d).escalations.eraseIdx n ∧
      (t.die d).dumps = (s.die d).dumps ++ [e.dump] ∧
      (t.core c).run = (if (s.core c).part.isSome then .stopped else .idle)) ∧
  (∀ (s : State) (d : DieId) (n t₀ : Nat) (o : Orphan), s.hasDie d = true →
    ((s.die d).orphans.find? fun o => decide (o.req = n)) = some o → o.at' = some t₀ → 1000 ≤ s.since d t₀ →
    s.reqs.find? n = none →
    ∃ t : State, exec (.boundarySlotTimeout d n) s = .next t ∧ (∀ x ∈ (t.die d).orphans, x.req ≠ n) ∧ t.mem = s.mem) ∧
  (∀ (s : State) (d : DieId) (n t₀ : Nat) (o : Orphan) (r : Req), s.hasDie d = true →
    ((s.die d).orphans.find? fun o => decide (o.req = n)) = some o → o.at' = some t₀ → 1000 ≤ s.since d t₀ →
    s.reqs.find? n = some r →
    (∀ link credit, r.st ≠ .remote link credit) →
    ∃ u : State, exec (.boundarySlotTimeout d n) s = .next (u.slotBack r) ∧ (∀ x ∈ (u.die d).orphans, x.req ≠ n) ∧
      u.reqs.find? n = some { r with gone := true } ∧ u.mem = s.mem) ∧
  (∀ (s : State) (role : Byte) (d : DieId) (x : Dump) (rest : List Dump), s.hasDie d = true →
    roleOf role = some .driver → s.crownOpen = true → (s.die d).dumps = x :: rest →
    ∃ t : State, exec (.dumpFree role 0xFF d 1) s = .next t ∧ (t.die d).dumps = rest ∧
      (t.die d).dumpBase = ((s.die d).dumpBase + State.dumpBytes x) % 524288 ∧ t.crown = ⟨false, 0⟩) ∧
  (∀ (s : State) (d : DieId), s.hasDie d = true → s.caroriRuns d = true → (s.die d).awaitPlan = true →
    (s.die d).computeReset = false → (s.die d).stage = .ready →
    ∃ t : State, exec (.dieResetReplan d) s = .next t ∧ (t.die d).awaitPlan = false ∧
      ∀ r ∈ s.regionsOn d, (t.region d r).code = (s.die d).savedCodes.get 0x20 r)

/-- At a comparison point that both runs of a logical core have reached, equal signatures let both go on and different ones
fail the launch with F-1901; a run that has waited its time alone fails it with F-1902. Pins that differ from the driven
error pair set CAUSE_OTHER and SSR_LATCH. -/
def Obligations.PairedRunsAreCompared : Prop :=
  (∀ (s : State) (q : QueueId) (lcore : Nat) (x y : LogCore) (a b : CoreId),
    s.pairRuns q.key lcore = some ((x, a), (y, b)) → a ≠ b → s.atPoint a = true → s.atPoint b = true → x.points = y.points →
    (s.core a).psStr = (s.core b).psStr → (s.core a).psSeq = (s.core b).psSeq →
    ∃ u : State, exec (.pairComparison q lcore) s = .next ((u.settle a).settle b) ∧
      (∀ c, c = a ∨ c = b → (u.core c).pairPoint = none ∧ (u.core c).pairPassed = true) ∧ u.launches = s.launches) ∧
  (∀ (s : State) (q : QueueId) (lcore : Nat) (x y : LogCore) (a b : CoreId),
    s.pairRuns q.key lcore = some ((x, a), (y, b)) → s.atPoint a = true → s.atPoint b = true → x.points = y.points →
    (s.core a).psSeq ≠ (s.core b).psSeq →
    exec (.pairComparison q lcore) s = .next (s.pairFault q.key lcore a 0x1901 x.points)) ∧
  (∀ (s : State) (q : QueueId) (lcore t₀ : Nat) (x y : LogCore) (a b : CoreId) (l : Launch),
    s.pairRuns q.key lcore = some ((x, a), (y, b)) → s.atPoint a = true → y.points < x.points →
    (s.core a).pairPoint = some t₀ → s.objVal a.die 0x2A41 0 ≤ s.since a.die t₀ → a.die = q.die →
    s.launches.find? q.key = some l → l.fault = none →
    ∃ (t : State) (l' : Launch), exec (.pairWaitExpiry q lcore) s = .next t ∧ t.launches.find? q.key = some l' ∧
      l'.fault = some (.outside 0x1902 (lcore * 2 ^ 32 + x.points % 2 ^ 32)) ∧
      bitAt (t.steward a.die).safety.causes.toNat 11 = true) ∧
  (∀ (s : State) (d : DieId) (x : BitVec 2), s.hasDie d = true → x ≠ errPins (s.errDriven d) →
    4 ≤ s.since d (s.steward d).safety.errAt →
    ∃ t : State, exec (.readbackMismatch d x) s = .next t ∧ bitAt (t.steward d).safety.causes.toNat 12 = true ∧
      (t.steward d).safety.ssrLatch = true ∧ t.dies = s.dies) ∧
  (∀ (s : State) (d : DieId), s.hasDie d = true →
    exec (.readbackMismatch d (errPins (s.errDriven d))) s = .next s)

/-- The supervision cycle toggles SAFE_HB at most every 48,000 counts; a reading becomes its region's slack, one below 16
keeps a start-up plan raising the code, and one below 8 sets the hard flag; a monitor that fails raises the code by 8, once,
where Carori runs;
ten minutes on, every region is re-planned; the voltage request moves one code toward its target; the hourly record starts
the hour's lowest readings anew. -/
def Obligations.MarginsAreSupervised : Prop :=
  (∀ (s : State) (d : DieId), s.hasDie d = true → (s.steward d).mode = .carori →
    48000 ≤ s.since d (s.steward d).safety.hbAt → (s.steward d).journal.replayed = false →
    ∃ t : State, exec (.supervisionCycle d) s = .next t ∧
      (t.steward d).safety.hb = !(s.steward d).safety.hb ∧ (t.steward d).safety.hbAt = (s.die d).ticks ∧
      (t.steward d).supAt = (s.die d).ticks ∧ (t.steward d).safety.causes = (s.steward d).safety.causes) ∧
  (∀ (s : State) (d : DieId), s.hasDie d = true → s.since d (s.steward d).safety.hbAt < 48000 →
    exec (.supervisionCycle d) s = .next s) ∧
  (∀ (s : State) (d : DieId) (r : Nat) (x : Byte), s.hasDie d = true → s.hasMonitor d r 0 = true → r < 64 →
    s.emberInterval d r ≤ s.since d ((s.region d r).readAt.get 0 0) → (s.region d r).plan = none →
    8 ≤ slackInt x →
    ∃ t : State, exec (.emberMeasurement d r 0 x) s = .next t ∧ (t.region d r).slack = x ∧
      (t.region d r).code = (s.region d r).code ∧ (t.region d r).hard = (s.region d r).hard ∧
      slackInt (t.region d r).slackMin = min (slackInt x) (slackInt (s.region d r).slackMin) ∧
      (t.region d r).readAt.get 0 0 = (s.die d).ticks) ∧
  (∀ (s : State) (d : DieId) (r : Nat) (x : Byte), s.hasDie d = true → s.hasMonitor d r 0 = true → r < 64 →
    s.emberInterval d r ≤ s.since d ((s.region d r).readAt.get 0 0) → (s.region d r).plan = none →
    slackInt x < 8 →
    ∃ t : State, exec (.emberMeasurement d r 0 x) s = .next t ∧ (t.region d r).hard = true ∧
      bitAt (t.steward d).safety.causes.toNat 4 = true) ∧
  (∀ (s : State) (d : DieId) (r : Nat) (x : Byte) (a b c : Int), s.hasDie d = true → s.hasMonitor d r 0 = true → r < 64 →
    1000 ≤ s.since d ((s.region d r).readAt.get 0 0) → (s.region d r).plan = some .startup → s.caroriRuns d = true →
    (s.region d r).fresh = [a, b, c] → 8 ≤ slackInt x → slackInt x < 16 → (s.region d r).code < 63 →
    (s.region d r).down = false →
    ∃ t : State, exec (.emberMeasurement d r 0 x) s = .next t ∧ (t.region d r).code = (s.region d r).code + 1 ∧
      (t.region d r).plan = some .startup ∧ (t.region d r).fresh = []) ∧
  (∀ (s : State) (d : DieId) (r mon : Nat), s.hasDie d = true → s.hasMonitor d r mon = true →
    2 * s.emberInterval d r ≤ s.since d ((s.region d r).readAt.get 0 mon) → (s.region d r).plan = none →
    (s.region d r).monFail = false →
    ∃ t : State, exec (.monitorFailure d r mon) s = .next t ∧ (t.region d r).monFail = true ∧
      (t.region d r).code = (if s.caroriRuns d then min 63 ((s.region d r).code + 8) else (s.region d r).code) ∧
      bitAt (t.steward d).safety.causes.toNat 12 = true) ∧
  (∀ (s : State) (d : DieId), s.hasDie d = true → s.caroriRuns d = true → (s.die d).computeReset = false →
    (s.die d).awaitPlan = false → 60000000000 ≤ s.since d (s.steward d).periodicAt →
    (∀ r ∈ s.regionsOn d, (s.region d r).fresh = [] ∧ (s.region d r).plan = none ∧ (s.region d r).asked = none ∧
      (s.region d r).monFail = false) →
    ∃ t : State, exec (.periodicReplan d) s = .next t ∧ (t.steward d).periodicAt = (s.die d).ticks ∧
      ∀ r ∈ s.regionsOn d, (t.region d r).plan = some .periodic ∧ (t.region d r).code = (s.region d r).code) ∧
  (∀ (s : State) (d : DieId), s.hasDie d = true → (s.steward d).vreq ≠ (s.steward d).vtarget →
    100 ≤ s.since d (s.steward d).vreqAt →
    ∃ t : State, exec (.vreqStep d) s = .next t ∧ (t.steward d).vreqAt = (s.die d).ticks ∧
      (t.steward d).vreq =
        (if (s.steward d).vreq < (s.steward d).vtarget then (s.steward d).vreq + 1 else (s.steward d).vreq - 1)) ∧
  (∀ (s : State) (d : DieId), s.hasDie d = true → s.caroriRuns d = true →
    360000000000 ≤ s.since d (s.steward d).hourAt →
    ∃ t : State, exec (.slackRecord d) s = .next t ∧ (t.steward d).hourAt = (s.die d).ticks ∧
      (∀ r, (t.region d r).hourMin = 0x7F) ∧
      (t.steward d).journal.queue = (s.steward d).journal.queue ++
        [{ kind := 4, payload := bytesLE 8 (s.die d).count.toNat ++ s.regionList.map (fun r => (s.region d r).hourMin) }])

/-- The steward of die 0 serves the request `r` of a mailbox: it runs and takes requests, it is the path's turn, the request
is of the kind, its firmware offers the operation, a token is there, and every check of R405 passes (R398, R405, R412). -/
structure Serves (s : State) (p : DPath) (i : Nat) (kind : DKind) (r : List Byte) : Prop where
  die : s.hasDie State.die0 = true
  box : p.mailbox = some i
  waits : s.waitingReq State.die0 p = some r
  open' : s.stewardServes State.die0 = true
  isKind : dKind r = kind
  turn : s.dictTurn State.die0 p = true
  offered : s.notOffered State.die0 p r = false
  token : 100000000 ≤ s.bucketNow State.die0 p
  checks : s.dictCheck State.die0 p r = 0

/-- The object that a request names, and its attributes (R400). -/
def objOf (s : State) (r : List Byte) : Option ObjAttr := objAttr s.build.dies 0 (dIndex r) (dSub r)

/-- The entries of the OBJ record of a group that a session commits, one for each of its persistent objects (R408). -/
def keptObjs (s : State) (g : Nat) (x : Session) : List (List Byte) :=
  (groupObjs g).filterMap fun o =>
    match objAttr s.build.dies 0 o.1 o.2 with
    | some a =>
      if a.persistent then some (objEntry (objKey o.1 o.2) a.bits (BitVec.ofNat 128 (s.stagedVal State.die0 x o))) else none
    | none => none

/-- A mailbox holds a response to a request, and is no longer busy (R404, R406). -/
def Answered (t : State) (i : Nat) (r : List Byte) (x : DResp) : Prop :=
  ((t.steward State.die0).mailboxes.get {} i).resp = x.bytes r ∧ ((t.steward State.die0).mailboxes.get {} i).busy = false

/-- Each session of the dictionary stays, of the same path and with the same values (R407). -/
def SameSets (s t : State) : Prop :=
  ∀ g, ((t.steward State.die0).sessions.find? g).map (fun x => (x.path, x.staged)) =
    ((s.steward State.die0).sessions.find? g).map (fun x => (x.path, x.staged))

/-- A COMMIT of a group with an open session: the values of the session take effect together and the session ends, or, where the
group has a persistent object, its one record is queued first, and the values and the answer follow when it has been
written; a set that a commit check refuses changes nothing.
READ answers with the object's value; DESCRIBE with its default; WRITE stages a value of a group and changes no committed
one; COMMIT without a session is DONE; ABORT ends the session; a write of a time, of ADJ or of RESTEP acts on the device time;
RECOVER and BOOT restart the steward; IMG_ERASE and JRN_CLEAR queue their sectors, IMG_WRITE programs its bytes; a request
that fails a check, or for which no token is left, is answered so, and has no other effect than that it keeps its session. -/
def Obligations.DictionaryRequestsAreServed : Prop :=
  ((∀ (s : State) (p : DPath) (i : Nat) (r : List Byte) (x : Session), Serves s p i .commit r →
    (s.steward State.die0).sessions.find? (dGroup r) = some x → s.commitOk State.die0 (dGroup r) x p.role = true →
    keptObjs s (dGroup r) x = [] →
    ∃ t : State, exec (.dictCommit State.die0 p) s = .next t ∧ Answered t i r { result := 0 } ∧
      (t.steward State.die0).sessions.find? (dGroup r) = none ∧
      (t.steward State.die0).dict =
        x.staged.entries.foldl (fun m e => m.put e.1 e.2) (s.steward State.die0).dict ∧
      (t.steward State.die0).journal = (s.steward State.die0).journal) ∧
  (∀ (s : State) (p : DPath) (i : Nat) (r : List Byte) (x : Session), Serves s p i .commit r →
    (s.steward State.die0).sessions.find? (dGroup r) = some x → s.commitOk State.die0 (dGroup r) x p.role = true →
    keptObjs s (dGroup r) x ≠ [] → (s.steward State.die0).journal.readOnly = false →
    (s.steward State.die0).journal.unusable = false →
    100000000 ≤ (s.steward State.die0).journal.budget (s.die State.die0).ticks →
    ∃ t : State, exec (.dictCommit State.die0 p) s = .next t ∧ (t.steward State.die0).serving = some p ∧
      (t.steward State.die0).journal.queue = (s.steward State.die0).journal.queue ++
        [{ kind := 1, payload := (keptObjs s (dGroup r) x).flatten, after := .commit p x.staged.entries (dGroup r) false }] ∧
      (t.steward State.die0).sessions.find? (dGroup r) = some { x with at' := (s.die State.die0).ticks } ∧
      (t.steward State.die0).dict = (s.steward State.die0).dict) ∧
  (∀ (s : State) (d : DieId) (rec : JrnRec) (p : DPath) (vals : List (Nat × BitVec 128)) (g i : Nat) (rsvd : Bool)
      (r bs : List Byte),
    s.hasDie d = true → State.nextRec (s.steward d).journal = some rec → rec.after = .commit p vals g rsvd → g ≠ 0 →
    d = State.die0 → p.mailbox = some i → s.waitingReq d p = some r →
    (s.steward d).mode = .carori → (s.steward d).journal.replayed = true →
    (s.steward d).journal.gen ≠ 0 → (s.steward d).journal.readOnly = false → (s.steward d).journal.unusable = false →
    bs = recBytes (s.steward d).journal.gen (s.steward d).journal.next rec.kind rec.payload →
    (s.steward d).journal.recordAt bs.length + bs.length ≤ 0x200000 →
    ∃ t : State, exec (.journalRecordWrite d true) s = .next t ∧
      Answered t i r { result := 0, info := (s.steward d).journal.next.toNat } ∧
      (t.steward d).sessions.find? g = none ∧
      (t.steward d).dict = vals.foldl (fun m e => m.put e.1 e.2) (s.steward d).dict) ∧
  (∀ (s : State) (p : DPath) (i : Nat) (r : List Byte) (x : Session), Serves s p i .commit r →
    (s.steward State.die0).sessions.find? (dGroup r) = some x → s.commitOk State.die0 (dGroup r) x p.role = false →
    ∃ t : State, exec (.dictCommit State.die0 p) s = .next t ∧ Answered t i r { result := 5 } ∧
      (t.steward State.die0).sessions.find? (dGroup r) = some { x with at' := (s.die State.die0).ticks } ∧
      (t.steward State.die0).dict = (s.steward State.die0).dict ∧
      (t.steward State.die0).journal = (s.steward State.die0).journal)) ∧
  ((∀ (s : State) (p : DPath) (i : Nat) (r : List Byte) (a : ObjAttr), Serves s p i .read r → objOf s r = some a →
    ∃ t : State, exec (.dictRead State.die0 p) s = .next t ∧
      Answered t i r { result := 0, value := s.objNow State.die0 (dIndex r) (dSub r) } ∧
      (t.steward State.die0).dict = (s.steward State.die0).dict) ∧
  (∀ (s : State) (p : DPath) (i : Nat) (r : List Byte) (a : ObjAttr), Serves s p i .describe r → objOf s r = some a →
    ∃ (t : State) (n : Nat), exec (.dictDescribe State.die0 p) s = .next t ∧
      Answered t i r { result := 0, info := n, value := s.objDflt State.die0 (dIndex r) (dSub r) a } ∧
      (t.steward State.die0).dict = (s.steward State.die0).dict) ∧
  (∀ (s : State) (p : DPath) (i : Nat) (r : List Byte) (a : ObjAttr), Serves s p i .write r → objOf s r = some a →
    a.type ≠ 6 → a.group ≠ 0 →
    ∃ (t : State) (x : Session), exec (.dictWrite State.die0 p) s = .next t ∧ Answered t i r { result := 0 } ∧
      (t.steward State.die0).sessions.find? a.group = some x ∧
      x.staged.find? (dKey r) = some (BitVec.ofNat 128 (noRsv (dIndex r) (dSub r) (dValue r))) ∧
      (t.steward State.die0).dict = (s.steward State.die0).dict) ∧
  (∀ (s : State) (p : DPath) (i : Nat) (r : List Byte), Serves s p i .commit r →
    (s.steward State.die0).sessions.find? (dGroup r) = none →
    ∃ t : State, exec (.dictCommit State.die0 p) s = .next t ∧ Answered t i r { result := 0 } ∧
      (t.steward State.die0).dict = (s.steward State.die0).dict) ∧
  (∀ (s : State) (p : DPath) (i : Nat) (r : List Byte), Serves s p i .abort r →
    ∃ t : State, exec (.dictAbort State.die0 p) s = .next t ∧ Answered t i r { result := 0 } ∧
      (t.steward State.die0).sessions.find? (dGroup r) = none ∧
      (t.steward State.die0).dict = (s.steward State.die0).dict) ∧
  (∀ (s : State) (p : DPath) (i : Nat) (r : List Byte) (a : ObjAttr), Serves s p i .timeSet r → objOf s r = some a →
    a.type ≠ 6 → a.group = 0 → a.persistent = false →
    ∃ t : State, exec (.timeSet State.die0 p) s = .next t ∧ Answered t i r { result := 0 } ∧
      (t.net State.die0).stepTo = some (BitVec.ofNat 96 (dValue r)) ∧ (t.net State.die0).stepped = true) ∧
  (∀ (s : State) (p : DPath) (i : Nat) (r : List Byte) (a : ObjAttr), Serves s p i .timeAdj r → objOf s r = some a →
    a.type ≠ 6 → a.group = 0 → a.persistent = false →
    ∃ t : State, exec (.timeAdj State.die0 p) s = .next t ∧ Answered t i r { result := 0 } ∧
      (t.net State.die0).adjNext = some (BitVec.ofInt 32 (clampAdj (signed 32 (dValue r))))) ∧
  (∀ (s : State) (p : DPath) (i : Nat) (r : List Byte) (a : ObjAttr), Serves s p i .restep r → objOf s r = some a →
    a.type ≠ 6 → a.group = 0 → a.persistent = false →
    ∃ t : State, exec (.restep State.die0 p) s = .next t ∧ Answered t i r { result := 0 } ∧
      (t.net State.die0).stepped = false) ∧
  (∀ (s : State) (p : DPath) (i : Nat) (r : List Byte) (a : ObjAttr), Serves s p i .recover r → objOf s r = some a →
    a.type ≠ 6 → a.group = 0 → a.persistent = false → (s.die State.die0).stage = .ready →
    ∃ t : State, exec (.recover State.die0 p) s = .next t ∧ Answered t i r { result := 0 } ∧
      (t.steward State.die0).forceRom = true ∧ (t.steward State.die0).mode = .checking ∧
      (t.die State.die0).stage = .ready) ∧
  (∀ (s : State) (p : DPath) (i : Nat) (r : List Byte), Serves s p i .boot r →
    (s.die State.die0).stage = .ready →
    ∃ t : State, exec (.boot State.die0 p) s = .next t ∧ Answered t i r { result := 0 } ∧
      (t.steward State.die0).forceRom = false ∧ (t.steward State.die0).mode = .checking) ∧
  (∀ (s : State) (p : DPath) (i : Nat) (r : List Byte), Serves s p i .imgErase r →
    ∃ t : State, exec (.imgErase State.die0 p) s = .next t ∧ (t.steward State.die0).serving = some p ∧
      (t.steward State.die0).journal.jobs = (s.steward State.die0).journal.jobs ++ [(.image p, List.range 512)]) ∧
  (∀ (s : State) (p : DPath) (i : Nat) (r : List Byte), Serves s p i .imgWrite r →
    ∃ t : State, exec (.imgWrite State.die0 p) s = .next t ∧ Answered t i r { result := 0 } ∧
      (t.steward State.die0).journal = (s.steward State.die0).journal.program (dOffset r) ((r.drop 16).take 16)) ∧
  (∀ (s : State) (p : DPath) (i : Nat) (r : List Byte) (a : ObjAttr), Serves s p i .jrnClear r → objOf s r = some a →
    a.type ≠ 6 → a.group = 0 → a.persistent = false →
    ∃ t : State, exec (.jrnClear State.die0 p) s = .next t ∧ Answered t i r { result := 0 } ∧
      (t.steward State.die0).journal.jobs = [(.clear, Journal.bankSectors 0 ++ Journal.bankSectors 1)] ∧
      (t.steward State.die0).journal.queue = []) ∧
  (∀ (s : State) (p : DPath) (i n : Nat) (r : List Byte), s.hasDie State.die0 = true → p.mailbox = some i →
    s.waitingReq State.die0 p = some r → s.stewardServes State.die0 = true → dKind r = .write →
    s.dictTurn State.die0 p = true → s.notOffered State.die0 p r = false → 100000000 ≤ s.bucketNow State.die0 p →
    s.dictCheck State.die0 p r = n → n ≠ 0 →
    ∃ t : State, exec (.dictWrite State.die0 p) s = .next t ∧ Answered t i r { result := n } ∧
      (t.steward State.die0).dict = (s.steward State.die0).dict ∧
      SameSets s t) ∧
  (∀ (s : State) (p : DPath) (i : Nat) (r : List Byte), s.hasDie State.die0 = true → p.mailbox = some i →
    s.waitingReq State.die0 p = some r → s.stewardServes State.die0 = true → dKind r = .write →
    s.dictTurn State.die0 p = true → s.notOffered State.die0 p r = false → s.bucketNow State.die0 p < 100000000 →
    ∃ (t : State) (n : Nat), exec (.dictWrite State.die0 p) s = .next t ∧ Answered t i r { result := 4, retry := n } ∧
      SameSets s t ∧ (t.steward State.die0).rateRefused = satInc (s.steward State.die0).rateRefused))

/-- A good image starts Carori, a bad one the ROM firmware; a steward with no cycle for 200,000 counts restarts; a session
with no request for a second ends; a DAP frame is queued when every check passes and its limit is journaled, and counted when
its key is not set. A record that reads back as written advances SEQ and the append point; one that does not stays to be
written again; a replay takes the active bank's log, and empties a journal without one; a compaction moves to the other bank
with the next generation; an erased sector reads ones; a read-only journal erases nothing for a compaction. -/
def Obligations.StewardAndJournal : Prop :=
  (∀ (s : State) (d : DieId), s.hasDie d = true → (s.steward d).mode = .checking → (s.die d).stage = .boot →
    (s.steward d).journal.jobs = [] → (s.steward d).forceRom = false →
    ∃ t : State, exec (.imageCheck d true) s = .next t ∧
      (imageVfail d (s.steward d).journal = 0 → (t.steward d).mode = .carori ∧ (t.die d).stage = .replay ∧
        (t.steward d).svn = BitVec.ofNat 16 (fieldAt ((s.steward d).journal.bytesAt 0 0x10) 8 2) ∧
        (t.steward d).supAt = (s.die d).ticks) ∧
      (imageVfail d (s.steward d).journal ≠ 0 → (t.steward d).mode = .rom ∧
        (t.steward d).vfail = BitVec.ofNat 8 (imageVfail d (s.steward d).journal) ∧ (t.die d).stopped = true)) ∧
  (∀ (s : State) (d : DieId), s.hasDie d = true → (s.steward d).mode = .carori → (s.die d).stage = .ready →
    200000 ≤ s.since d (s.steward d).supAt →
    ∃ t : State, exec (.stewardWatchdog d) s = .next t ∧ (t.steward d).mode = .checking ∧
      (t.steward d).restarts = satInc (s.steward d).restarts ∧ (t.steward d).sessions = {} ∧
      bitAt (t.steward d).safety.causes.toNat 12 = true ∧ (t.die d).stage = .ready ∧
      (t.steward d).dict = (s.steward d).dict) ∧
  (∀ (s : State) (d : DieId) (g : Byte) (x : Session), s.hasDie d = true →
    (s.steward d).sessions.find? g.toNat = some x → 100000000 ≤ s.since d x.at' →
    ∃ t : State, exec (.sessionTimeout d g) s = .next t ∧ (t.steward d).sessions.find? g.toNat = none ∧
      (t.steward d).dict = (s.steward d).dict) ∧
  (∀ (s : State) (d : DieId) (f : List Byte), s.hasDie d = true → (s.die d).stage ≠ .held → s.macAccepts d f = true →
    (etherType f).1 = 0x88B5 → s.caroriRuns d = true →
    s.objVal d (0x1E00 + fieldAt ((f.drop (etherType f).2.2).take 64) 2 1 % 2) 0 = 0 →
    ∃ t : State, exec (.dapFrame d f) s = .next t ∧ (t.steward d).authFail = satInc (s.steward d).authFail ∧
      (t.steward d).dap = (s.steward d).dap) ∧
  (∀ (s : State) (d : DieId) (f b : List Byte) (key : Fin 2) (x : DapKey), s.hasDie d = true → (s.die d).stage ≠ .held →
    s.macAccepts d f = true → (etherType f).1 = 0x88B5 → s.caroriRuns d = true →
    b = (f.drop (etherType f).2.2).take 64 → 64 ≤ f.length - 4 - (etherType f).2.2 → fieldAt b 0 1 = 1 →
    fieldAt b 1 1 = 1 → fieldAt b 2 1 = key.val → fieldAt b 3 1 = 0 → fieldAt b 12 4 = 0 →
    s.objVal d (0x1E00 + key.val) 0 ≠ 0 →
    b.drop 0x30 = dapMac (BitVec.ofNat 128 (s.objVal d (0x1E00 + key.val) 0)) (f.take 6) ((f.drop 6).take 6) b →
    x = (s.steward d).dap.get {} key.val → x.rxHigh.toNat < fieldAt b 4 8 →
    x.queue.length + x.held.length < 32 → s.reserving d key = false →
    fieldAt b 4 8 + 2048 ≤ x.rxRes.toNat →
    ∃ (t : State) (y : DapKey), exec (.dapFrame d f) s = .next t ∧ (t.steward d).dap.get {} key.val = y ∧
      y.rxHigh.toNat = fieldAt b 4 8 ∧ y.queue = x.queue ++ [((b.drop 0x10).take 32, (f.drop 6).take 6)]) ∧
  (∀ (s : State) (d : DieId) (r : JrnRec) (bs : List Byte), s.hasDie d = true → State.nextRec (s.steward d).journal = some r →
    r.after = .none → (s.steward d).mode = .carori → (s.steward d).journal.replayed = true →
    (s.steward d).journal.gen ≠ 0 → (s.steward d).journal.readOnly = false → (s.steward d).journal.unusable = false →
    bs = recBytes (s.steward d).journal.gen (s.steward d).journal.next r.kind r.payload →
    (s.steward d).journal.recordAt bs.length + bs.length ≤ 0x200000 →
    ∃ t : State, exec (.journalRecordWrite d true) s = .next t ∧
      (t.steward d).journal.next = (s.steward d).journal.next + 1 ∧
      (t.steward d).journal.append = (s.steward d).journal.recordAt bs.length + bs.length ∧
      (t.steward d).journal.queue = (s.steward d).journal.queue.erase r ∧
      (t.steward d).journal.flash = ((s.steward d).journal.program (Journal.bankBase (s.steward d).journal.bank +
        (s.steward d).journal.recordAt bs.length) bs).flash) ∧
  (∀ (s : State) (d : DieId) (r : JrnRec) (bs : List Byte), s.hasDie d = true → State.nextRec (s.steward d).journal = some r →
    r.tries < 2 → (s.steward d).mode = .carori → (s.steward d).journal.replayed = true →
    (s.steward d).journal.gen ≠ 0 → (s.steward d).journal.readOnly = false → (s.steward d).journal.unusable = false →
    bs = recBytes (s.steward d).journal.gen (s.steward d).journal.next r.kind r.payload →
    (s.steward d).journal.recordAt bs.length + bs.length ≤ 0x200000 →
    ∃ t : State, exec (.journalRecordWrite d false) s = .next t ∧ (t.steward d).journal.verifyFail = true ∧
      (t.steward d).journal.next = (s.steward d).journal.next ∧ (t.steward d).journal.readOnly = false ∧
      { r with tries := r.tries + 1 } ∈ (t.steward d).journal.queue) ∧
  (∀ (s : State) (d : DieId) (b g : Nat), s.hasDie d = true → (s.steward d).mode = .carori →
    (s.steward d).journal.replayed = false → (s.steward d).journal.active = some (b, g) →
    (s.steward d).journal.unusable = false →
    (s.die d).stage = .replay →
    ∃ t : State, exec (.journalReplay d) s = .next t ∧ (t.steward d).journal.replayed = true ∧
      (t.steward d).journal.bank = b ∧ (t.steward d).journal.gen = g ∧
      (t.steward d).journal.append = ((s.steward d).journal.log b g).append ∧ (t.steward d).filled = true ∧
      (t.die d).stage = .plan) ∧
  (∀ (s : State) (d : DieId), s.hasDie d = true → (s.steward d).mode = .carori →
    (s.steward d).journal.replayed = false → (s.steward d).journal.active = none → (s.steward d).journal.unusable = false →
    (s.die d).stage = .replay →
    ∃ t : State, exec (.journalReplay d) s = .next t ∧ (t.steward d).journal.empty = true ∧
      (t.steward d).journal.jobs = [(.empty, Journal.bankSectors 0)] ∧ (t.die d).stage = .plan ∧
      bitAt (t.steward d).safety.causes.toNat 12 = true) ∧
  (∀ (s : State) (d : DieId), s.hasDie d = true → (s.steward d).journal.erased = true →
    (s.steward d).journal.replayed = true → (s.steward d).journal.gen ≠ 0 → (s.steward d).journal.readOnly = false →
    ∃ t : State, exec (.compaction d) s = .next t ∧ (t.steward d).journal.bank = 1 - (s.steward d).journal.bank ∧
      (t.steward d).journal.gen = (s.steward d).journal.gen + 1 ∧ (t.steward d).journal.erased = false ∧
      (t.steward d).journal.next = (s.steward d).journal.next) ∧
  (∀ (s : State) (d : DieId) (job : EraseJob) (n m : Nat) (rest : List Nat) (more : List (EraseJob × List Nat)),
    s.hasDie d = true → (s.steward d).journal.jobs = (job, n :: m :: rest) :: more →
    (job ≠ .compact ∨ (s.steward d).journal.readOnly = false) →
    ∃ t : State, exec (.sectorErase d) s = .next t ∧ (t.steward d).journal.jobs = (job, m :: rest) :: more ∧
      (∀ x, inSector n x = true → (t.steward d).journal.byte x = 0xFF) ∧
      (∀ x, inSector n x = false → (t.steward d).journal.byte x = (s.steward d).journal.byte x)) ∧
  (∀ (s : State) (d : DieId) (n : Nat) (more : List (EraseJob × List Nat)),
    s.hasDie d = true → (s.steward d).journal.jobs = (.compact, [n]) :: more →
    (s.steward d).journal.readOnly = false →
    ∃ t : State, exec (.sectorErase d) s = .next t ∧ (t.steward d).journal.jobs = more ∧
      (t.steward d).journal.erased = true) ∧
  (∀ (s : State) (d : DieId) (l : List Nat) (more : List (EraseJob × List Nat)),
    s.hasDie d = true → (s.steward d).journal.jobs = (.compact, l) :: more → (s.steward d).journal.readOnly = true →
    ∃ t : State, exec (.sectorErase d) s = .next t ∧ (t.steward d).journal.jobs = more ∧
      (t.steward d).journal.flash = (s.steward d).journal.flash)

/-- A frame that the MAC of a die accepts carries the gPTP message `m` of a type, and the die takes part (R431, R435). -/
structure Hears (s : State) (d : DieId) (f : List Byte) (m : PtpMsg) (type : Nat) : Prop where
  die : s.hasDie d = true
  stage : (s.die d).stage ≠ .held
  accepts : s.macAccepts d f = true
  ether : (etherType f).1 = 0x88F7
  msg : ptpOf f = some m
  isType : m.type = type
  role' : ntRole (s.objVal d 0x2D01 0) ≠ 0
  runs : s.caroriRuns d = true

/-- The ingress timestamp of a frame that arrives now (R436). -/
def ingress (s : State) (d : DieId) : Int :=
  (s.net d).stamp - (field (s.objVal d 0x2D04 0) 15 0 : Int) * 65536

/-- A two-step Sync waits for its Follow_Up, which completes it unless a step has come between; the first one-step Sync steps
the device time by its offset and later ones move ADJ by the servo; a Pdelay_Req is answered by two frames; the two responses
to the die's own request give the link delay; a Sync and a Pdelay_Req go out at their intervals; the loss of Sync is noted
once; a second's advance latches CORR and raises PPS_OUT, which falls after 0.1 s; a frame that is not accepted is counted. -/
def Obligations.NetworkTimeFollowsItsFrames : Prop :=
  (∀ (s : State) (d : DieId) (f : List Byte) (m : PtpMsg), Hears s d f m 0 → ntRole (s.objVal d 0x2D01 0) = 1 →
    (s.net d).stepEdge ≤ (s.net d).edges → (s.net d).tsQueue = [] → m.twoStep = true →
    ∃ t : State, exec (.syncMessage d f) s = .next t ∧
      (t.net d).waiting = some { seqId := m.seqId, tr := ingress s d, corr := m.corr, at' := (s.net d).edges } ∧
      (t.net d).adjNext = (s.net d).adjNext ∧ (t.net d).nsFrac = (s.net d).nsFrac) ∧
  (∀ (s : State) (d : DieId) (f : List Byte) (m : PtpMsg), Hears s d f m 0 → ntRole (s.objVal d 0x2D01 0) = 1 →
    (s.net d).stepEdge ≤ (s.net d).edges → (s.net d).tsQueue = [] → m.twoStep = false → ntStatic (s.objVal d 0x2D01 0) = true →
    (s.net d).stepped = false →
    ∃ t : State, exec (.syncMessage d f) s = .next t ∧ (t.net d).stepped = true ∧ (t.net d).stepBy = some
        (-(2 * (ingress s d - (m.time + m.corr)) - (s.objVal d 0x2D03 0 : Int) * 131072) * 32768) ∧
      (t.net d).syncRx = satInc (s.net d).syncRx) ∧
  (∀ (s : State) (d : DieId) (f : List Byte) (m : PtpMsg), Hears s d f m 0 → ntRole (s.objVal d 0x2D01 0) = 1 →
    (s.net d).stepEdge ≤ (s.net d).edges → (s.net d).tsQueue = [] → m.twoStep = false → ntStatic (s.objVal d 0x2D01 0) = true →
    (s.net d).stepped = true →
    ∃ t : State, exec (.syncMessage d f) s = .next t ∧ (t.net d).stepBy = (s.net d).stepBy ∧ (t.net d).adjNext = some
        (servo (s.net d).f (2 * (ingress s d - (m.time + m.corr)) - (s.objVal d 0x2D03 0 : Int) * 131072)
          (ntSyncLog (s.objVal d 0x2D01 0))).2) ∧
  (∀ (s : State) (d : DieId) (f : List Byte) (m : PtpMsg) (w : SyncWait), Hears s d f m 8 →
    ntRole (s.objVal d 0x2D01 0) = 1 → (s.net d).waiting = some w → w.seqId = m.seqId → (s.net d).stepEdge ≤ w.at' →
    ∃ t : State, exec (.followUp d f) s = .next t ∧ (t.net d).waiting = none ∧ (t.net d).stepped = true ∧
      (t.net d).syncRx = satInc (s.net d).syncRx ∧ (t.net d).syncAt = (s.die d).ticks) ∧
  (∀ (s : State) (d : DieId) (f : List Byte) (m : PtpMsg) (w : SyncWait), Hears s d f m 8 →
    ntRole (s.objVal d 0x2D01 0) = 1 → (s.net d).waiting = some w → w.seqId = m.seqId → w.at' < (s.net d).stepEdge →
    exec (.followUp d f) s = .next (s.setNet d { s.net d with waiting := none })) ∧
  (∀ (s : State) (d : DieId) (f : List Byte) (m : PtpMsg), Hears s d f m 2 → (s.net d).tsQueue = [] →
    ∃ t : State, exec (.pdelayReq d f) s = .next t ∧ (t.net d).tx =
      [{ kind := 0x88F7, bytes := (ptpFrame (s.macBytes d) 3 (stampFrac (ingress s d)) m.seqId 5 0x7F
          (stampBytes (ingress s d) ++ m.source)) },
        { kind := 0x88F7, bytes := (ptpFrame (s.macBytes d) 10 (stampFrac (s.egress d)) m.seqId 5 0x7F
          (stampBytes (s.egress d) ++ m.source)) }]) ∧
  (∀ (s : State) (d : DieId) (f : List Byte) (m : PtpMsg), Hears s d f m 3 → s.pdelayMine d m = true →
    (s.net d).tsQueue = [] →
    ∃ t : State, exec (.pdelayResp d f) s = .next t ∧ (t.net d).pdelayT2 = some (m.time + m.corr) ∧
      (t.net d).pdelayT4 = some (ingress s d) ∧ (t.net d).delay = (s.net d).delay) ∧
  (∀ (s : State) (d : DieId) (f : List Byte) (m : PtpMsg) (a b c : Int), Hears s d f m 10 → s.pdelayMine d m = true →
    (s.net d).pdelayT1 = some a → (s.net d).pdelayT2 = some b → (s.net d).pdelayT4 = some c →
    ∃ t : State, exec (.pdelayRespFollowUp d f) s = .next t ∧ (t.net d).delayKnown = true ∧
      (t.net d).delay = (c - a) - (m.time + m.corr - b) ∧ (t.net d).pdelayT1 = none) ∧
  (∀ (s : State) (d : DieId), s.hasDie d = true → s.caroriRuns d = true → ntRole (s.objVal d 0x2D01 0) = 2 →
    (s.die d).macMode < 2 → ntSyncCounts (s.objVal d 0x2D01 0) ≤ s.since d (s.net d).sentSyncAt →
    ∃ t : State, exec (.syncInterval d) s = .next t ∧ (t.net d).syncSeq = ((s.net d).syncSeq + 1) % 65536 ∧
      (t.net d).sentSyncAt = (s.die d).ticks ∧ (t.net d).tx = [{ kind := 0x88F7, bytes := (ptpFrame (s.macBytes d) 0
          (stampFrac (s.egress d)) (((s.net d).syncSeq + 1) % 65536) 0 (BitVec.ofNat 8 (field (s.objVal d 0x2D01 0) 23 16))
          (stampBytes (s.egress d) ++ followUpTlv)) }]) ∧
  (∀ (s : State) (d : DieId), s.hasDie d = true → s.caroriRuns d = true → ntRole (s.objVal d 0x2D01 0) ≠ 0 →
    ntStatic (s.objVal d 0x2D01 0) = false → (s.die d).macMode < 2 →
    ntPdelayCounts (s.objVal d 0x2D01 0) ≤ s.since d (s.net d).sentPdelayAt →
    ∃ t : State, exec (.pdelayInterval d) s = .next t ∧ (t.net d).pdelayT1 = some (s.egress d) ∧
      (t.net d).pdelaySeq = ((s.net d).pdelaySeq + 1) % 65536 ∧ (t.net d).pdelayT2 = none ∧
      (t.net d).delay = (s.net d).delay) ∧
  (∀ (s : State) (d : DieId), s.hasDie d = true → s.caroriRuns d = true → ntRole (s.objVal d 0x2D01 0) = 1 →
    (s.net d).syncDown = false → 3 * ntSyncCounts (s.objVal d 0x2D01 0) ≤ s.since d (s.net d).syncAt →
    ∃ t : State, exec (.syncLost d) s = .next t ∧ (t.net d).syncLost = true ∧ (t.net d).syncDown = true ∧
      exec (.syncLost d) t = .next t) ∧
  (∀ (s : State) (d : DieId) (n : W64) (k : Nat), s.hasDie d = true → (s.net d).secDue = some (n, k) →
    (s.net d).stepped = true → (s.net d).ppsLast < k →
    ∃ t : State, exec (.secondAdvance d) s = .next t ∧ (t.net d).corrCount = n ∧ (t.net d).corrSecs = k ∧
      (t.net d).pps = true ∧ (t.net d).ppsAt = (s.die d).ticks ∧ (t.net d).secDue = none) ∧
  (∀ (s : State) (d : DieId), s.hasDie d = true → (s.net d).pps = true → 10000000 ≤ s.since d (s.net d).ppsAt →
    ∃ t : State, exec (.ppsOutFall d) s = .next t ∧ (t.net d).pps = false) ∧
  (∀ (s : State) (d : DieId) (up : Bool), s.hasDie d = true → (s.die d).stage ≠ .held →
    ∃ t : State, exec (.linkUp d up) s = .next t ∧ (t.net d).linkUp = up ∧ t.dies = s.dies) ∧
  (∀ (s : State) (d : DieId) (f : List Byte), s.hasDie d = true → (s.die d).stage ≠ .held → (s.die d).macMode < 2 →
    s.macAccepts d f = false →
    ∃ t : State, exec (.rxDrop d f) s = .next t ∧ (t.net d).rxDrop = satInc (s.net d).rxDrop)

/-- A source outside the model gives a monitor an event now: a Peat latency, with no sample still being sorted, or the supply
or a temperature sensor 1,000 counts after the last reading (R447, R448). -/
def Gives (s : State) (d : DieId) (m : Monitor) : Prop :=
  (m.src = 3 ∧ (m.div ≠ 0 ∨ ∀ t, m.lastAt = some t → t + 1 < (s.die d).ticks)) ∨
  ((m.src = 6 ∨ (m.src = 7 ∧ (m.sel = 16 ∨ m.sel < s.build.clusters))) ∧ ∀ t, m.lastAt = some t → 1000 ≤ s.since d t)

/-- A sample of a source outside the model is sorted into the live bank, and its event counted; one event in 2^DIV is taken; the
row gives nothing to the sources that the model drives itself, and ends the window of a link's replays; a write of HM_GCTL joins
its masks to those that act at the next count; an interrupt message transfers the oldest first; the debug port reads a register
as the host driver would, and its session ends with nothing kept. -/
def Obligations.MonitorsAndPins : Prop :=
  (∀ (s : State) (d : DieId) (i : Fin 32) (v : W32), s.hasDie d = true → (s.die d).stage ≠ .held →
    Gives s d (s.monitor d i.val) → (s.monitor d i.val).events % 2 ^ (s.monitor d i.val).div = 0 →
    ∃ t : State, exec (.monitorSample d i v) s = .next t ∧
      (t.monitor d i.val).live = (s.monitor d i.val).live.sample (s.monitor d i.val).cfg.toNat v ∧
      (t.monitor d i.val).events = (s.monitor d i.val).events + 1 ∧ (t.monitor d i.val).lastAt = some (s.die d).ticks ∧
      (t.monitor d i.val).snap = (s.monitor d i.val).snap ∧
      (t.monitor d i.val).live.total = min ((s.monitor d i.val).live.total + 1) (2 ^ 48 - 1)) ∧
  (∀ (s : State) (d : DieId) (i : Fin 32) (v : W32), s.hasDie d = true → (s.die d).stage ≠ .held →
    Gives s d (s.monitor d i.val) → (s.monitor d i.val).events % 2 ^ (s.monitor d i.val).div ≠ 0 →
    ∃ t : State, exec (.monitorSample d i v) s = .next t ∧ (t.monitor d i.val).live = (s.monitor d i.val).live ∧
      (t.monitor d i.val).events = (s.monitor d i.val).events + 1) ∧
  (∀ (s : State) (d : DieId) (i : Fin 32) (v : W32) (l : LinkId), s.hasDie d = true → (s.die d).stage ≠ .held →
    (s.monitor d i.val).src = 4 → l = ⟨d, Fin.ofNat 4 (s.monitor d i.val).sel⟩ → (s.link l).st ≠ .unused →
    1000 ≤ s.since d (s.link l).hmAt → (s.monitor d i.val).events % 2 ^ (s.monitor d i.val).div = 0 →
    ∃ t : State, exec (.monitorSample d i v) s = .next t ∧
      (t.monitor d i.val).live =
        (s.monitor d i.val).live.sample (s.monitor d i.val).cfg.toNat (sampleOf (s.link l).hmReplays) ∧
      (t.link l).hmReplays = 0 ∧ (t.link l).hmAt = (s.die d).ticks) ∧
  (∀ (s : State) (d : DieId) (i : Fin 32) (v : W32), s.hasDie d = true →
    (s.monitor d i.val).src ∉ [3, 4, 6, 7] → exec (.monitorSample d i v) s = .next s) ∧
  (∀ (s : State) (role : Byte) (d : DieId) (v : W64), s.hasDie d = true → roleOf role = some .driver →
    s.crownOpen = true →
    ∃ t : State, exec (.snapMask role 0xFF d v) s = .next t ∧ exec (.clearMask role 0xFF d v) s = .next t ∧
      (t.die d).hmSnap = (s.die d).hmSnap ||| v.truncate 32 ∧
      (t.die d).hmClear = (s.die d).hmClear ||| (v >>> 32).truncate 32 ∧ t.crown = ⟨false, 0⟩ ∧
      t.monitors = s.monitors) ∧
  (∀ (s : State) (d : DieId) (x : W16 × W32) (rest : List (W16 × W32)), s.hasDie d = true →
    s.im.get [] d.val = x :: rest →
    ∃ t : State, exec (.interruptMessage d) s = .next t ∧ t.imSent = some x ∧ t.im.get [] d.val = rest ∧ t.mem = s.mem) ∧
  (∀ (s u : State) (d : DieId) (addr : W32) (v : W64) (x : Nat), s.hasDie d = true → (s.die d).stage ≠ .held →
    bitAt addr.toNat 31 = false → field addr.toNat 27 3 * 8 < 0x1000000 →
    s.dieRead d (field addr.toNat 27 3 * 8) = some (x, u) →
    ∃ t : State, exec (.dbgData d addr false v) s = .next t ∧ (t.debug d).err = false ∧ (t.debug d).addr = addr ∧
      (t.debug d).data = BitVec.ofNat 64 x ∧ t.mem = s.mem) ∧
  (∀ (s : State) (d : DieId) (addr : W32) (write : Bool) (v : W64), s.hasDie d = true → (s.die d).stage = .held →
    ∃ t : State, exec (.dbgData d addr write v) s = .next t ∧ (t.debug d).err = true ∧ (t.debug d).data = 0 ∧
      t.dies = s.dies) ∧
  (∀ (s : State) (d : DieId), s.hasDie d = true →
    ∃ t : State, exec (.dbgTrstN d) s = .next t ∧ t.debug d = {} ∧ t.dies = s.dies)

/-- A table base is written while no object of its table is in use and refused while one is; a ring's base is written while it
is disabled, enabling it sets WR and RD to 0, and RD moves between RD and WR alone; OVF_CTL frees the oldest entry; GO makes a
mailbox busy; a register of another role, and any access to a port other than die 0's, is an error with no effect; a read of
CP_STAT answers with its value and resets its counts, and answers 0 while the command processor is in reset. -/
def Obligations.RegistersOfTheCrownPort : Prop :=
  (∀ (s : State) (role : Byte) (v : W64), roleOf role = some .driver → s.crownOpen = true →
    (∀ e ∈ s.ctxs.entries, e.2.st = .free) → v &&& 0xFFF0000000000FFF = 0 →
    ∃ t : State, exec (.tableBaseWrite role 0xFF 0x1000 v) s = .next t ∧ t.ctxTbl = v ∧ t.crown = ⟨false, 0⟩ ∧
      t.moTbl = s.moTbl ∧ t.qTbl = s.qTbl ∧ t.mem = s.mem) ∧
  (∀ (s : State) (role : Byte) (v : W64) (n : Nat) (c : Ctx), roleOf role = some .driver → s.crownOpen = true →
    (n, c) ∈ s.ctxs.entries → c.st ≠ .free →
    exec (.tableBaseWrite role 0xFF 0x1000 v) s = .next s.crownErr) ∧
  (∀ (s : State) (role : Byte) (p : Fin 16) (r : Byte) (v : W64), roleOf role = some .driver → s.crownOpen = true →
    (s.ring p.val r.toNat).enable = false → v.toNat % 4096 = 0 →
    ∃ t : State, exec (.ringBaseWrite role 0xFF p r v) s = .next t ∧
      t.ring p.val r.toNat = { s.ring p.val r.toNat with base := v } ∧ t.crown = ⟨false, 0⟩) ∧
  (∀ (s : State) (role : Byte) (p : Fin 16) (r : Byte) (v : W64), roleOf role = some .driver → s.crownOpen = true →
    (s.ring p.val r.toNat).enable = true → exec (.ringBaseWrite role 0xFF p r v) s = .next s.crownErr) ∧
  (∀ (s : State) (role : Byte) (p : Fin 16) (r : Byte) (v : W64), roleOf role = some .driver → s.crownOpen = true →
    (s.ring p.val r.toNat).enable = false → 6 ≤ field v.toNat 4 0 → field v.toNat 4 0 ≤ 16 → bitAt v.toNat 6 = true →
    ∃ t : State, exec (.ringCfgWrite role 0xFF p r v) s = .next t ∧ t.crown = ⟨false, 0⟩ ∧
      t.ring p.val r.toNat = { s.ring p.val r.toNat with
        irqEn := bitAt v.toNat 7, enable := true, log2 := field v.toNat 4 0, wr := 0, rd := 0 }) ∧
  (∀ (s : State) (role : Byte) (p : Fin 16) (r : Byte) (v : W64), roleOf role = some (.partition p) →
    s.crownOpen = true → (s.ring p.val r.toNat).rd ≤ v → v ≤ (s.ring p.val r.toNat).wr →
    ∃ t : State, exec (.ringRdWrite role 0xFF p r v) s = .next t ∧ t.crown = ⟨false, 0⟩ ∧
      t.ring p.val r.toNat = { s.ring p.val r.toNat with rd := v }) ∧
  (∀ (s : State) (role : Byte) (p : Fin 16) (r : Byte) (v : W64), roleOf role = some (.partition p) →
    s.crownOpen = true → (s.ring p.val r.toNat).wr < v → exec (.ringRdWrite role 0xFF p r v) s = .next s.crownErr) ∧
  (∀ (s : State) (role : Byte) (d : DieId), s.hasDie d = true → roleOf role = some .driver → s.crownOpen = true →
    (s.die d).ovf ≠ [] →
    ∃ t : State, exec (.ovfCtlFree role 0xFF d 0x8000000000000000) s = .next t ∧ t.crown = ⟨false, 0⟩ ∧
      (t.die d).ovf = (s.die d).ovf.drop 1 ∧ (t.die d).ovfHead = ((s.die d).ovfHead + 1) % 64) ∧
  (∀ (s : State) (role : Byte), s.hasDie State.die0 = true → (s.die State.die0).stage ≠ .held →
    roleOf role = some .driver → ((s.steward State.die0).mailboxes.get {} 0).busy = false →
    ∃ t : State, exec (.registerWrite State.die0 role 0xFF 0x10040 1) s = .next t ∧ t.crown = ⟨false, 0⟩ ∧
      ((t.steward State.die0).mailboxes.get {} 0).busy = true ∧
      ((t.steward State.die0).mailboxes.get {} 0).req = ((s.steward State.die0).mailboxes.get {} 0).req ∧
      t.dies = s.dies) ∧
  (∀ (s : State) (role strb : Byte) (v : W64), s.hasDie State.die0 = true → (s.die State.die0).stage ≠ .held →
    roleOf role ≠ some .driver → exec (.registerWrite State.die0 role strb 0x10040 v) s = .next s.crownErr) ∧
  (∀ (s : State) (d : DieId) (role : Byte) (off : BitVec 28), s.hasDie d = true → d ≠ State.die0 →
    exec (.registerRead d role off) s = .next (s.portErr d) ∧
    ((s.die d).stage ≠ .held → (s.portErr d).crown = ⟨true, 0⟩)) ∧
  (∀ (s : State) (role : Byte), s.hasDie State.die0 = true → roleOf role = some .driver → s.crownOpen = true →
    (s.die State.die0).computeReset = false →
    ∃ t : State, exec (.registerRead State.die0 role 0x8000010) s = .next t ∧
      t.crown = ⟨false, BitVec.ofNat 64 (s.cpStat State.die0)⟩ ∧ (t.die State.die0).dbIgnored = 0 ∧
      (t.die State.die0).ovfLost = 0 ∧ t.mem = s.mem) ∧
  (∀ (s : State) (role : Byte), s.hasDie State.die0 = true → roleOf role = some .driver → s.crownOpen = true →
    (s.die State.die0).computeReset = true →
    exec (.registerRead State.die0 role 0x8000010) s = .next { s with crown := ⟨false, 0⟩ })
end

