-- ==== Sys2Proof/Laws/SMap.lean ====
section
/-!
SUPPORT. The laws of sparse maps: reading after writing, and the canonical form kept by every operation.
-/
namespace Sys2Proof.Machine.SMap

variable {β : Type}

theorem lookup_insertSorted_same (k : Nat) (v : β) (l : List (Nat × β)) (h : lookup k l = none) :
    lookup k (insertSorted k v l) = some v := by
  induction l with
  | nil => simp [insertSorted, lookup]
  | cons e es ih =>
    simp only [lookup] at h
    split at h
    · cases h
    · rename_i hk
      simp only [insertSorted]
      split
      · simp [lookup]
      · simp [lookup, hk, ih h]

theorem lookup_insertSorted_other {k j : Nat} (v : β) (l : List (Nat × β)) (h : j ≠ k) :
    lookup j (insertSorted k v l) = lookup j l := by
  induction l with
  | nil => simp [insertSorted, lookup, Ne.symm h]
  | cons e es ih =>
    simp only [insertSorted]
    split
    · simp [lookup, Ne.symm h]
    · simp [lookup, ih]

theorem lookup_filter_same (k : Nat) (l : List (Nat × β)) : lookup k (l.filter fun e => e.1 != k) = none := by
  induction l with
  | nil => rfl
  | cons e es ih =>
    by_cases hk : e.1 = k
    · simp [List.filter, hk, ih]
    · have : (e.1 != k) = true := by simpa using hk
      simp [List.filter, this, lookup, hk, ih]

theorem lookup_filter_other {k j : Nat} (l : List (Nat × β)) (h : j ≠ k) :
    lookup j (l.filter fun e => e.1 != k) = lookup j l := by
  induction l with
  | nil => rfl
  | cons e es ih =>
    by_cases hk : e.1 = k
    · have hj : ¬ e.1 = j := by omega
      simp [List.filter, hk, lookup, ih, Ne.symm h]
    · have : (e.1 != k) = true := by simpa using hk
      simp [List.filter, this, lookup, ih]

@[simp] theorem find?_erase_same (m : SMap β) (k : Nat) : (m.erase k).find? k = none := lookup_filter_same k _
theorem find?_erase_other (m : SMap β) {k j : Nat} (h : j ≠ k) : (m.erase k).find? j = m.find? j :=
  lookup_filter_other _ h

@[simp] theorem find?_put_same (m : SMap β) (k : Nat) (v : β) : (m.put k v).find? k = some v :=
  lookup_insertSorted_same k v _ (lookup_filter_same k _)

theorem find?_put_other (m : SMap β) {k j : Nat} (v : β) (h : j ≠ k) : (m.put k v).find? j = m.find? j := by
  unfold put find? erase
  rw [lookup_insertSorted_other v _ h, lookup_filter_other _ h]

@[simp] theorem get_put_same (m : SMap β) (d : β) (k : Nat) (v : β) : (m.put k v).get d k = v := by simp [get]
theorem get_put_other (m : SMap β) (d : β) {k j : Nat} (v : β) (h : j ≠ k) : (m.put k v).get d j = m.get d j := by
  simp [get, find?_put_other m v h]

theorem get_put (m : SMap β) (d : β) (k j : Nat) (v : β) :
    (m.put k v).get d j = if j = k then v else m.get d j := by
  by_cases h : j = k
  · simp [h]
  · simp [h, get_put_other m d v h]

@[simp] theorem get_setD_same [DecidableEq β] (m : SMap β) (d : β) (k : Nat) (v : β) : (m.setD d k v).get d k = v := by
  unfold setD
  split
  · next h => simp [get, h]
  · simp

theorem get_setD_other [DecidableEq β] (m : SMap β) (d : β) {k j : Nat} (v : β) (h : j ≠ k) :
    (m.setD d k v).get d j = m.get d j := by
  unfold setD
  split
  · simp [get, find?_erase_other m h]
  · exact get_put_other m d v h

/-- Every key of a list is above a key. -/
def above (k : Nat) (l : List (Nat × β)) : Bool := l.all fun f => decide (k < f.1)

theorem sorted_cons (e : Nat × β) (es : List (Nat × β)) : sorted (e :: es) = (above e.1 es && sorted es) := rfl

theorem above_filter {k : Nat} (p : Nat × β → Bool) {l : List (Nat × β)} (h : above k l = true) :
    above k (l.filter p) = true := by
  simp only [above, List.all_eq_true] at *
  exact fun x hx => h x (List.mem_filter.mp hx).1

theorem sorted_filter (p : Nat × β → Bool) {l : List (Nat × β)} (h : sorted l = true) : sorted (l.filter p) = true := by
  induction l with
  | nil => rfl
  | cons e es ih =>
    rw [sorted_cons, Bool.and_eq_true] at h
    by_cases hp : p e = true
    · rw [List.filter_cons_of_pos hp, sorted_cons, Bool.and_eq_true]
      exact ⟨above_filter p h.1, ih h.2⟩
    · rw [List.filter_cons_of_neg hp]
      exact ih h.2

theorem above_insert {j k : Nat} (v : β) {l : List (Nat × β)} (h : above j l = true) (hk : j < k) :
    above j (insertSorted k v l) = true := by
  induction l with
  | nil => simp [insertSorted, above, hk]
  | cons e es ih =>
    simp only [above, List.all_cons, Bool.and_eq_true, decide_eq_true_eq] at h
    simp only [insertSorted]
    split
    · simp only [above, List.all_cons, Bool.and_eq_true, decide_eq_true_eq]
      exact ⟨hk, h.1, h.2⟩
    · simp only [above, List.all_cons, Bool.and_eq_true, decide_eq_true_eq]
      exact ⟨h.1, ih h.2⟩

theorem above_trans {j k : Nat} {l : List (Nat × β)} (h : above k l = true) (hj : j < k) : above j l = true := by
  simp only [above, List.all_eq_true, decide_eq_true_eq] at *
  exact fun x hx => Nat.lt_trans hj (h x hx)

theorem sorted_insert (k : Nat) (v : β) {l : List (Nat × β)} (h : sorted l = true)
    (hk : (l.all fun e => e.1 != k) = true) : sorted (insertSorted k v l) = true := by
  induction l with
  | nil => rfl
  | cons e es ih =>
    rw [sorted_cons, Bool.and_eq_true] at h
    simp only [List.all_cons, Bool.and_eq_true, bne_iff_ne, ne_eq] at hk
    simp only [insertSorted]
    split
    · next hlt =>
      rw [sorted_cons, sorted_cons, Bool.and_eq_true, Bool.and_eq_true]
      refine ⟨?_, h.1, h.2⟩
      simp only [above, List.all_cons, Bool.and_eq_true, decide_eq_true_eq]
      exact ⟨hlt, above_trans h.1 hlt⟩
    · next hlt =>
      rw [sorted_cons, Bool.and_eq_true]
      exact ⟨above_insert v h.1 (by omega), ih h.2 hk.2⟩

theorem erase_no_key (m : SMap β) (k : Nat) : ((m.erase k).entries.all fun e => e.1 != k) = true := by
  simp [erase]

/-- Erasing a key keeps the canonical form. -/
theorem wf_erase (m : SMap β) (k : Nat) (h : m.wf = true) : (m.erase k).wf = true := sorted_filter _ h

/-- Writing a key keeps the canonical form. -/
theorem wf_put (m : SMap β) (k : Nat) (v : β) (h : m.wf = true) : (m.put k v).wf = true :=
  sorted_insert k v (wf_erase m k h) (erase_no_key m k)

theorem all_insert (p : Nat × β → Bool) (k : Nat) (v : β) {l : List (Nat × β)} (h : l.all p = true)
    (hv : p (k, v) = true) : (insertSorted k v l).all p = true := by
  induction l with
  | nil => simp [insertSorted, hv]
  | cons e es ih =>
    simp only [List.all_cons, Bool.and_eq_true] at h
    simp only [insertSorted]
    split
    · simp [hv, h.1, h.2]
    · simp [h.1, ih h.2]

theorem all_filter (p q : Nat × β → Bool) {l : List (Nat × β)} (h : l.all p = true) : (l.filter q).all p = true := by
  simp only [List.all_eq_true] at *
  exact fun x hx => h x (List.mem_filter.mp hx).1

/-- Writing a value keeps the canonical form of a map with a default: the default is not listed. -/
theorem wfD_setD [DecidableEq β] (m : SMap β) (d : β) (k : Nat) (v : β) (h : m.wfD d = true) :
    (m.setD d k v).wfD d = true := by
  unfold wfD at *
  rw [Bool.and_eq_true] at h
  unfold setD
  split
  · rw [Bool.and_eq_true]
    exact ⟨sorted_filter _ h.1, all_filter _ _ h.2⟩
  · next hv =>
    rw [Bool.and_eq_true]
    refine ⟨wf_put m k v h.1, ?_⟩
    exact all_insert _ k v (all_filter _ _ h.2) (by simpa using hv)

end Sys2Proof.Machine.SMap
end

