-- ==== Sys2Proof/Laws/Keeps.lean ====
section
/-!
SUPPORT. What every operation of the block keeps: the package as generated, its straps, the queue of
waiting commands, and the canonical form of device memory. One lemma for each operation follows,
file by file, so that the rule about every step is a case analysis that cites them.
-/
namespace Sys2Proof.Machine

/-- A state keeps what every operation keeps of another one. -/
structure Keeps (s t : State) : Prop where
  pending : t.pending = s.pending
  build : t.build = s.build
  straps : t.straps = s.straps
  mem : s.mem.wfD 0 = true → t.mem.wfD 0 = true

/-- The same of a result that may be absent, and of an outcome. -/
@[irreducible] def KeepsO (s : State) : Option State → Prop
  | none => True
  | some t => Keeps s t
@[irreducible] def KeepsL {α : Type} (s : State) : Option (State × α) → Prop
  | none => True
  | some t => Keeps s t.1
@[irreducible] def KeepsR {α : Type} (s : State) : Option (α × State) → Prop
  | none => True
  | some t => Keeps s t.2
@[irreducible] def KeepsOut (s : State) : Host.Outcome State Fault Refusal → Prop
  | .next t => Keeps s t
  | .fault _ => True
  | .refused _ => True

theorem Keeps.refl (s : State) : Keeps s s := ⟨rfl, rfl, rfl, id⟩

theorem Keeps.trans {s t u : State} (h : Keeps s t) (k : Keeps t u) : Keeps s u :=
  ⟨k.pending.trans h.pending, k.build.trans h.build, k.straps.trans h.straps, fun m => k.mem (h.mem m)⟩

variable {s₀ : State}

/-- A state built from another one with the kept fields copied. -/
theorem Keeps.update {u : State} {a1 a2 a3 a4 a5 a6 a7 a8 a9 a10 a11 a12 a13 a14 a15 a16 a17 a18 a19 a20 a21 a22 a23 a24
    a25 a26 a27 a28 a29 a30 a31 a32 a33 a34 a35} (h : Keeps s₀ u) :
    Keeps s₀ (State.mk u.pending u.build u.straps a1 a2 a3 a4 a5 a6 a7 a8 a9 a10 a11 a12 a13 a14 a15 a16 a17 a18 a19 a20
      a21 a22 a23 a24 a25 a26 a27 a28 a29 a30 a31 a32 a33 a34 u.mem a35) :=
  ⟨h.pending, h.build, h.straps, h.mem⟩

theorem Keeps.ite {c : Prop} [Decidable c] {a b : State} (h : Keeps s₀ a) (k : Keeps s₀ b) :
    Keeps s₀ (if c then a else b) := by split <;> assumption

theorem Keeps.ite1 {α : Type} {c : Prop} [Decidable c] {a b : State × α} (h : Keeps s₀ a.1) (k : Keeps s₀ b.1) :
    Keeps s₀ (if c then a else b).1 := by split <;> assumption

theorem KeepsO.some {t : State} (h : Keeps s₀ t) : KeepsO s₀ (some t) := by unfold KeepsO; exact h
theorem KeepsO.none : KeepsO s₀ none := by unfold KeepsO; trivial
theorem KeepsL.some {α : Type} {p : State × α} (h : Keeps s₀ p.1) : KeepsL s₀ (some p) := by unfold KeepsL; exact h
theorem KeepsL.none {α : Type} : KeepsL (α := α) s₀ none := by unfold KeepsL; trivial
theorem KeepsL.map {α β : Type} {o : Option α} {f : α → State × β} (h : ∀ a, Keeps s₀ (f a).1) : KeepsL s₀ (o.map f) := by
  cases o with
  | none => exact KeepsL.none
  | some a => exact KeepsL.some (h a)
theorem KeepsR.some {α : Type} {p : α × State} (h : Keeps s₀ p.2) : KeepsR s₀ (some p) := by unfold KeepsR; exact h
theorem KeepsR.swap {α : Type} {p : State × α} (h : Keeps s₀ p.1) : KeepsR s₀ (Option.some (p.2, p.1)) := KeepsR.some h
theorem KeepsR.pair {α : Type} {t : State} {a : α} (h : Keeps s₀ t) : KeepsR s₀ (Option.some (a, t)) := KeepsR.some h
theorem KeepsR.none {α : Type} : KeepsR (α := α) s₀ none := by unfold KeepsR; trivial
theorem KeepsR.map {α β : Type} {o : Option α} {f : α → β × State} (h : ∀ a, Keeps s₀ (f a).2) : KeepsR s₀ (o.map f) := by
  cases o with
  | none => exact KeepsR.none
  | some a => exact KeepsR.some (h a)
theorem KeepsO.bind {α : Type} {o : Option α} {f : α → Option State} (h : ∀ a, KeepsO s₀ (f a)) : KeepsO s₀ (o.bind f) := by
  cases o with
  | none => exact KeepsO.none
  | some a => exact h a
theorem KeepsO.getD {o : Option State} {t : State} (h : KeepsO s₀ o) (k : Keeps s₀ t) : Keeps s₀ (o.getD t) := by
  cases o with
  | none => exact k
  | some u => unfold KeepsO at h; exact h
theorem KeepsOut.next {t : State} (h : Keeps s₀ t) : KeepsOut s₀ (.next t) := by unfold KeepsOut; exact h
theorem KeepsOut.fault {f : Fault} : KeepsOut s₀ (.fault f) := by unfold KeepsOut; trivial

/-- What a kept outcome says of a next state. -/
theorem KeepsOut.elim {t : State} (h : KeepsOut s₀ (.next t)) : Keeps s₀ t := by unfold KeepsOut at h; exact h

theorem KeepsO.ite {c : Prop} [Decidable c] {a b : Option State} (h : KeepsO s₀ a) (k : KeepsO s₀ b) :
    KeepsO s₀ (if c then a else b) := by split <;> assumption

theorem KeepsR.ite {α : Type} {c : Prop} [Decidable c] {a b : Option (α × State)} (h : KeepsR s₀ a) (k : KeepsR s₀ b) :
    KeepsR s₀ (if c then a else b) := by split <;> assumption

theorem Keeps.of_eq {α : Type} {p : State × α} {t : State} {x : α} (h : Keeps s₀ p.1) (e : p = (t, x)) : Keeps s₀ t := by
  rw [e] at h; exact h

theorem Keeps.of_eq2 {α : Type} {p : α × State} {t : State} {x : α} (h : Keeps s₀ p.2) (e : p = (x, t)) :
    Keeps s₀ t := by rw [e] at h; exact h

theorem KeepsO.of_eq {p : Option State} {t : State} (h : KeepsO s₀ p) (e : p = Option.some t) : Keeps s₀ t := by
  rw [e] at h; unfold KeepsO at h; exact h

theorem KeepsL.of_eq {α : Type} {p : Option (State × α)} {t : State} {x : α} (h : KeepsL s₀ p) (e : p = Option.some (t, x)) :
    Keeps s₀ t := by
  rw [e] at h; unfold KeepsL at h; exact h

theorem KeepsR.of_eq {α : Type} {p : Option (α × State)} {t : State} {x : α} (h : KeepsR s₀ p) (e : p = Option.some (x, t)) :
    Keeps s₀ t := by
  rw [e] at h; unfold KeepsR at h; exact h

theorem Keeps.foldl {α : Type} {f : State → α → State} {l : List α} {s : State} (h : Keeps s₀ s)
    (k : ∀ u a, Keeps s₀ u → Keeps s₀ (f u a)) : Keeps s₀ (l.foldl f s) := by
  induction l generalizing s with
  | nil => exact h
  | cons a l ih => exact ih (k s a h)

theorem Keeps.foldl1 {α β : Type} {f : State × β → α → State × β} {l : List α} {p : State × β} (h : Keeps s₀ p.1)
    (k : ∀ q a, Keeps s₀ q.1 → Keeps s₀ (f q a).1) : Keeps s₀ (l.foldl f p).1 := by
  induction l generalizing p with
  | nil => exact h
  | cons a l ih => exact ih (k p a h)

theorem KeepsOut.on {c : Prop} [Decidable c] {t : State} {f : Fault} (h : Keeps s₀ t) :
    KeepsOut s₀ (if c then .next t else .fault f) := by
  split
  · exact KeepsOut.next h
  · exact KeepsOut.fault

end Sys2Proof.Machine
end

