-- ==== Sys2Proof/Laws/KeepsOps.lean ====
section
/-!
SUPPORT. Every operation of Machine/Ops.lean keeps what every operation keeps.
-/
set_option linter.unreachableTactic false
set_option linter.unusedTactic false
namespace Sys2Proof.Machine

variable {s₀ : State}

theorem State.draw_keeps {s : State} (h0 : Keeps s₀ s) :
    Keeps s₀ (State.draw s).2 := by
  unfold State.draw
  try dsimp only
  repeat' first
    | (with_reducible intro _) | (with_reducible assumption) | (fail_if_no_progress with_reducible apply Keeps.update)
    | (dsimp only)

theorem State.setCore_keeps {s : State} {c : CoreId} {v : Core} (h0 : Keeps s₀ s) :
    Keeps s₀ (State.setCore s c v) := by
  unfold State.setCore
  try dsimp only
  repeat' first
    | (with_reducible intro _) | (with_reducible assumption) | (fail_if_no_progress with_reducible apply Keeps.update)
    | (dsimp only)

theorem State.setDie_keeps {s : State} {d : DieId} {v : Die} (h0 : Keeps s₀ s) :
    Keeps s₀ (State.setDie s d v) := by
  unfold State.setDie
  try dsimp only
  repeat' first
    | (with_reducible intro _) | (with_reducible assumption) | (fail_if_no_progress with_reducible apply Keeps.update)
    | (dsimp only)

theorem State.setLaunch_keeps {s : State} {q : Nat} {v : Launch} (h0 : Keeps s₀ s) :
    Keeps s₀ (State.setLaunch s q v) := by
  unfold State.setLaunch
  try dsimp only
  repeat' first
    | (with_reducible intro _) | (with_reducible assumption) | (fail_if_no_progress with_reducible apply Keeps.update)
    | (dsimp only)

theorem State.writeByte_keeps {s : State} {pa : Nat} {b : Byte} (h0 : Keeps s₀ s) :
    Keeps s₀ (State.writeByte s pa b) := by
  exact ⟨h0.pending, h0.build, h0.straps, fun m => SMap.wfD_setD _ 0 _ _ (h0.mem m)⟩

theorem State.writeBytes_keeps {s : State} {pa : Nat} {x2 : List Byte} (h0 : Keeps s₀ s) :
    Keeps s₀ (State.writeBytes s pa x2) := by
  revert h0
  fun_induction State.writeBytes s pa x2
  try dsimp only
  repeat' first
    | (with_reducible intro _) | (with_reducible assumption) | (with_reducible apply State.writeByte_keeps)
    | (with_reducible apply_assumption) | split | (dsimp only) | (dsimp +zetaDelta only)

theorem State.setCtx_keeps {s : State} {n : Nat} {v : Ctx} (h0 : Keeps s₀ s) :
    Keeps s₀ (State.setCtx s n v) := by
  unfold State.setCtx
  try dsimp only
  repeat' first
    | (with_reducible intro _) | (with_reducible assumption) | (fail_if_no_progress with_reducible apply Keeps.update)
    | (dsimp only)

theorem State.setSteward_keeps {s : State} {d : DieId} {v : Steward} (h0 : Keeps s₀ s) :
    Keeps s₀ (State.setSteward s d v) := by
  unfold State.setSteward
  try dsimp only
  repeat' first
    | (with_reducible intro _) | (with_reducible assumption) | (fail_if_no_progress with_reducible apply Keeps.update)
    | (dsimp only)

theorem State.setLink_keeps {s : State} {l : LinkId} {v : Link} (h0 : Keeps s₀ s) :
    Keeps s₀ (State.setLink s l v) := by
  unfold State.setLink
  try dsimp only
  repeat' first
    | (with_reducible intro _) | (with_reducible assumption) | (fail_if_no_progress with_reducible apply Keeps.update)
    | (dsimp only)

theorem State.postIm_keeps {s : State} {d : DieId} {vec : Nat} {cookie : W32} (h0 : Keeps s₀ s) :
    Keeps s₀ (State.postIm s d vec cookie) := by
  unfold State.postIm
  try dsimp only
  repeat' first
    | (with_reducible intro _) | (with_reducible assumption) | (fail_if_no_progress with_reducible apply Keeps.update)
    | (dsimp only)

theorem State.setRing_keeps {s : State} {p : Nat} {r : Nat} {v : Ring} (h0 : Keeps s₀ s) :
    Keeps s₀ (State.setRing s p r v) := by
  unfold State.setRing
  try dsimp only
  repeat' first
    | (with_reducible intro _) | (with_reducible assumption) | (fail_if_no_progress with_reducible apply Keeps.update)
    | (dsimp only)

theorem State.setMo_keeps {s : State} {h : Nat} {v : MemObj} (h0 : Keeps s₀ s) :
    Keeps s₀ (State.setMo s h v) := by
  unfold State.setMo
  try dsimp only
  repeat' first
    | (with_reducible intro _) | (with_reducible assumption) | (fail_if_no_progress with_reducible apply Keeps.update)
    | (dsimp only)

theorem State.setQueue_keeps {s : State} {q : QueueId} {v : Queue} (h0 : Keeps s₀ s) :
    Keeps s₀ (State.setQueue s q v) := by
  unfold State.setQueue
  try dsimp only
  repeat' first
    | (with_reducible intro _) | (with_reducible assumption) | (fail_if_no_progress with_reducible apply Keeps.update)
    | (dsimp only)

theorem State.setArr_keeps {s : State} {a : ArrayId} {v : Arr} (h0 : Keeps s₀ s) :
    Keeps s₀ (State.setArr s a v) := by
  unfold State.setArr
  try dsimp only
  repeat' first
    | (with_reducible intro _) | (with_reducible assumption) | (with_reducible apply State.setCore_keeps)
    | (fail_if_no_progress with_reducible apply Keeps.update) | (dsimp only)

theorem State.setCluster_keeps {s : State} {k : ClusterId} {v : Cluster} (h0 : Keeps s₀ s) :
    Keeps s₀ (State.setCluster s k v) := by
  unfold State.setCluster
  try dsimp only
  repeat' first
    | (with_reducible intro _) | (with_reducible assumption) | (fail_if_no_progress with_reducible apply Keeps.update)
    | (dsimp only)

theorem State.setSema_keeps {s : State} {n : Nat} {v : Sema} (h0 : Keeps s₀ s) :
    Keeps s₀ (State.setSema s n v) := by
  unfold State.setSema
  try dsimp only
  repeat' first
    | (with_reducible intro _) | (with_reducible assumption) | (fail_if_no_progress with_reducible apply Keeps.update)
    | (dsimp only)

theorem State.setNet_keeps {s : State} {d : DieId} {v : NetTime} (h0 : Keeps s₀ s) :
    Keeps s₀ (State.setNet s d v) := by
  unfold State.setNet
  try dsimp only
  repeat' first
    | (with_reducible intro _) | (with_reducible assumption) | (fail_if_no_progress with_reducible apply Keeps.update)
    | (dsimp only)

theorem State.setMonitor_keeps {s : State} {d : DieId} {m : Nat} {v : Monitor} (h0 : Keeps s₀ s) :
    Keeps s₀ (State.setMonitor s d m v) := by
  unfold State.setMonitor
  try dsimp only
  repeat' first
    | (with_reducible intro _) | (with_reducible assumption) | (fail_if_no_progress with_reducible apply Keeps.update)
    | (dsimp only)

theorem State.setDebug_keeps {s : State} {d : DieId} {v : Debug} (h0 : Keeps s₀ s) :
    Keeps s₀ (State.setDebug s d v) := by
  unfold State.setDebug
  try dsimp only
  repeat' first
    | (with_reducible intro _) | (with_reducible assumption) | (fail_if_no_progress with_reducible apply Keeps.update)
    | (dsimp only)

theorem onCore_keeps {s : State} {c : CoreId} {t : State} (h0 : Keeps s₀ s) (h2 : Keeps s₀ t) :
    KeepsOut s₀ (onCore s c t) := by
  unfold onCore
  try dsimp only
  repeat' first
    | (with_reducible intro _) | (with_reducible assumption) | (with_reducible apply Keeps.ite)
    | (with_reducible apply KeepsOut.next) | (with_reducible exact KeepsOut.fault) | split | (dsimp only)

theorem onCluster_keeps {s : State} {k : ClusterId} {t : State} (h0 : Keeps s₀ s) (h2 : Keeps s₀ t) :
    KeepsOut s₀ (onCluster s k t) := by
  unfold onCluster
  try dsimp only
  repeat' first
    | (with_reducible intro _) | (with_reducible assumption) | (with_reducible apply Keeps.ite)
    | (with_reducible apply KeepsOut.next) | (with_reducible exact KeepsOut.fault) | split | (dsimp only)

theorem onArray_keeps {s : State} {a : ArrayId} {t : State} (h0 : Keeps s₀ s) (h2 : Keeps s₀ t) :
    KeepsOut s₀ (onArray s a t) := by
  unfold onArray
  try dsimp only
  repeat' first
    | (with_reducible intro _) | (with_reducible assumption) | (with_reducible apply Keeps.ite)
    | (with_reducible apply KeepsOut.next) | (with_reducible exact KeepsOut.fault) | split | (dsimp only)

theorem onDie_keeps {s : State} {d : DieId} {t : State} (h0 : Keeps s₀ s) (h2 : Keeps s₀ t) :
    KeepsOut s₀ (onDie s d t) := by
  unfold onDie
  try dsimp only
  repeat' first
    | (with_reducible intro _) | (with_reducible assumption) | (with_reducible apply Keeps.ite)
    | (with_reducible apply KeepsOut.next) | (with_reducible exact KeepsOut.fault) | split | (dsimp only)

end Sys2Proof.Machine
end

