-- ==== Sys2Proof/Laws/KeepsSafetyOps.lean ====
section
/-!
SUPPORT. Every operation of Machine/SafetyOps.lean keeps what every operation keeps.
-/
set_option linter.unreachableTactic false
set_option linter.unusedTactic false
namespace Sys2Proof.Machine

variable {s₀ : State}

theorem State.setCause_keeps {s : State} {d : DieId} {bitNo : Nat} {code : Nat} {ssr : Bool} (h0 : Keeps s₀ s) :
    Keeps s₀ (State.setCause s d bitNo code ssr) := by
  unfold State.setCause
  try dsimp only
  repeat' first
    | (with_reducible intro _) | (with_reducible assumption) | (with_reducible apply State.setSteward_keeps)
    | (fail_if_no_progress with_reducible apply Keeps.update) | (with_reducible apply Keeps.ite) | split
    | (dsimp only)

theorem State.journal_keeps {s : State} {d : DieId} {kind : Nat} {payload : List Byte} {after : optParam JrnAfter JrnAfter.none} (h0 : Keeps s₀ s) :
    Keeps s₀ (State.journal s d kind payload after) := by
  unfold State.journal
  try dsimp only
  repeat' first
    | (with_reducible intro _) | (with_reducible assumption) | (with_reducible apply State.setSteward_keeps)
    | (fail_if_no_progress with_reducible apply Keeps.update) | (dsimp only)

theorem State.eventRecord.fresh_keeps {s : State} {d : DieId} {code : Nat} {info : Nat} {k : Steward} (h0 : Keeps s₀ s) :
    Keeps s₀ (State.eventRecord.fresh s d code info k) := by
  unfold State.eventRecord.fresh
  try dsimp only
  repeat' first
    | (with_reducible intro _) | (with_reducible assumption) | (with_reducible apply State.journal_keeps)
    | (with_reducible apply State.setSteward_keeps) | (dsimp only)

theorem State.eventRecord_keeps {s : State} {d : DieId} {code : Nat} {info : Nat} (h0 : Keeps s₀ s) :
    Keeps s₀ (State.eventRecord s d code info) := by
  unfold State.eventRecord
  try dsimp only
  repeat' first
    | (with_reducible intro _) | (with_reducible assumption) | (with_reducible apply State.setSteward_keeps)
    | (with_reducible apply State.eventRecord.fresh_keeps) | (with_reducible apply State.journal_keeps)
    | (fail_if_no_progress with_reducible apply Keeps.update) | (with_reducible apply Keeps.ite) | split
    | (dsimp only)

theorem State.report_keeps {s : State} {d : DieId} {code : Nat} {info : Nat} (h0 : Keeps s₀ s) :
    Keeps s₀ (State.report s d code info) := by
  unfold State.report
  try dsimp only
  repeat' first
    | (with_reducible intro _) | (with_reducible assumption) | (with_reducible apply State.setCause_keeps)
    | (with_reducible apply State.eventRecord_keeps) | (fail_if_no_progress with_reducible apply Keeps.update)
    | (with_reducible apply Keeps.ite) | split | (dsimp only)

theorem State.noteErr_keeps {s : State} {d : DieId} {was : Bool} (h0 : Keeps s₀ s) :
    Keeps s₀ (State.noteErr s d was) := by
  unfold State.noteErr
  try dsimp only
  repeat' first
    | (with_reducible intro _) | (with_reducible assumption) | (with_reducible apply State.setSteward_keeps)
    | (fail_if_no_progress with_reducible apply Keeps.update) | (with_reducible apply Keeps.ite) | split
    | (dsimp only)

theorem State.reportFree_keeps {s : State} {d : DieId} {code : Nat} (h0 : Keeps s₀ s) :
    Keeps s₀ (State.reportFree s d code) := by
  unfold State.reportFree
  try dsimp only
  repeat' first
    | (with_reducible intro _) | (with_reducible assumption) | (with_reducible apply State.draw_keeps)
    | (with_reducible apply State.report_keeps) | (with_reducible refine Keeps.of_eq2 ?_ (by assumption))
    | (dsimp only)

end Sys2Proof.Machine
end

