-- ==== Sys2Proof/Laws/KeepsBus.lean ====
section
/-!
SUPPORT. Every operation of Machine/Bus.lean keeps what every operation keeps.
-/
set_option linter.unreachableTactic false
set_option linter.unusedTactic false
namespace Sys2Proof.Machine

variable {s₀ : State}

theorem State.postRecord_keeps {s : State} {d : DieId} {slot : Nat} {r : FqRec} (h0 : Keeps s₀ s) :
    Keeps s₀ (State.postRecord s d slot r) := by
  unfold State.postRecord
  try dsimp only
  repeat' first
    | (with_reducible intro _) | (with_reducible assumption) | (with_reducible apply State.postIm_keeps)
    | (with_reducible apply State.setDie_keeps) | (fail_if_no_progress with_reducible apply Keeps.update)
    | (dsimp only)

theorem State.hotCount_keeps {s : State} {d : DieId} {partition : Nat} {ctx : Nat} {range : Nat} {n : Nat} (h0 : Keeps s₀ s) :
    Keeps s₀ (State.hotCount s d partition ctx range n) := by
  unfold State.hotCount
  try dsimp only
  repeat' first
    | (with_reducible intro _) | (with_reducible assumption) | (with_reducible apply State.setDie_keeps)
    | (with_reducible apply State.postRecord_keeps) | (fail_if_no_progress with_reducible apply Keeps.update)
    | (with_reducible apply Keeps.ite) | split | (dsimp only)

theorem State.ownRefuse_keeps {s : State} {d : DieId} {pa : Nat} (h0 : Keeps s₀ s) :
    Keeps s₀ (State.ownRefuse s d pa) := by
  unfold State.ownRefuse
  try dsimp only
  repeat' first
    | (with_reducible intro _) | (with_reducible assumption) | (with_reducible apply State.report_keeps)
    | (with_reducible apply State.setDie_keeps) | (fail_if_no_progress with_reducible apply Keeps.update)
    | (dsimp only)

end Sys2Proof.Machine
end

