-- ==== Sys2Proof/Laws/KeepsCuff.lean ====
section
/-!
SUPPORT. Every operation of Machine/Cuff.lean keeps what every operation keeps.
-/
set_option linter.unreachableTactic false
set_option linter.unusedTactic false
namespace Sys2Proof.Machine

variable {s₀ : State}

theorem State.setCuffB_keeps {s : State} {d : DieId} {path : Nat} {p : Nat} {v : Int} (h0 : Keeps s₀ s) :
    Keeps s₀ (State.setCuffB s d path p v) := by
  unfold State.setCuffB
  try dsimp only
  repeat' first
    | (with_reducible intro _) | (with_reducible assumption) | (with_reducible apply State.setDie_keeps)
    | (fail_if_no_progress with_reducible apply Keeps.update) | (dsimp only)

theorem State.cuffRefill_keeps {s : State} {d : DieId} {path : Nat} {n : Nat} (h0 : Keeps s₀ s) :
    Keeps s₀ (State.cuffRefill s d path n) := by
  unfold State.cuffRefill
  try dsimp only
  repeat' first
    | (with_reducible intro _) | (with_reducible assumption) | (with_reducible apply State.setDie_keeps)
    | (with_reducible apply State.setCuffB_keeps) | (fail_if_no_progress with_reducible apply Keeps.update)
    | (with_reducible apply Keeps.ite) | (with_reducible apply Keeps.foldl) | (with_reducible apply Keeps.foldl1)
    | split | (dsimp only)

theorem State.cuffTake_keeps {s : State} {d : DieId} {path : Nat} {p : Nat} {n : Nat} {ahead : Bool} (h0 : Keeps s₀ s) :
    Keeps s₀ (State.cuffTake s d path p n ahead) := by
  unfold State.cuffTake
  try dsimp only
  repeat' first
    | (with_reducible intro _) | (with_reducible assumption) | (with_reducible apply State.cuffRefill_keeps)
    | (with_reducible apply State.setCuffB_keeps) | (with_reducible apply State.setDie_keeps)
    | (fail_if_no_progress with_reducible apply Keeps.update) | (with_reducible apply Keeps.ite) | split
    | (dsimp only)

theorem State.cuffSlot_keeps {s : State} {d : DieId} {path : Nat} {ready : List Nat} (h0 : Keeps s₀ s) :
    Keeps s₀ (State.cuffSlot s d path ready).1 := by
  unfold State.cuffSlot
  try dsimp only
  repeat' first
    | (with_reducible intro _) | (with_reducible assumption) | (with_reducible apply State.cuffRefill_keeps)
    | (with_reducible apply State.setDie_keeps) | (with_reducible apply State.setCuffB_keeps)
    | (fail_if_no_progress with_reducible apply Keeps.update) | split | (dsimp only)

theorem State.settleCuffs_keeps {s : State} (h0 : Keeps s₀ s) :
    Keeps s₀ (State.settleCuffs s) := by
  unfold State.settleCuffs
  try dsimp only
  repeat' first
    | (with_reducible intro _) | (with_reducible assumption) | (with_reducible apply State.cuffRefill_keeps)
    | (with_reducible apply Keeps.ite) | (with_reducible apply Keeps.foldl) | (with_reducible apply Keeps.foldl1)
    | split | (dsimp only)

end Sys2Proof.Machine
end

