-- ==== Sys2Proof/Laws/KeepsLinkOps.lean ====
section
/-!
SUPPORT. Every operation of Machine/LinkOps.lean keeps what every operation keeps.
-/
set_option linter.unreachableTactic false
set_option linter.unusedTactic false
namespace Sys2Proof.Machine

variable {s₀ : State}

theorem State.deliverMsg_keeps {s : State} {src : Nat} {dst : Nat} {m : Msg} (h0 : Keeps s₀ s) :
    Keeps s₀ (State.deliverMsg s src dst m) := by
  unfold State.deliverMsg
  try dsimp only
  repeat' first
    | (with_reducible intro _) | (with_reducible assumption) | (fail_if_no_progress with_reducible apply Keeps.update)
    | (dsimp only)

theorem State.nextRequest_keeps {s : State} {l : LinkId} {p : Nat} {reqs : List Flit} (h0 : Keeps s₀ s) :
    Keeps s₀ (State.nextRequest s l p reqs).1 := by
  unfold State.nextRequest
  try dsimp only
  repeat' first
    | (with_reducible intro _) | (with_reducible assumption) | (with_reducible apply State.setDie_keeps)
    | (fail_if_no_progress with_reducible apply Keeps.update) | split | (dsimp only)

theorem State.nextFlit_keeps {s : State} {l : LinkId} (h0 : Keeps s₀ s) :
    Keeps s₀ (State.nextFlit s l).1 := by
  unfold State.nextFlit
  try dsimp only
  repeat' first
    | (with_reducible intro _) | (with_reducible assumption) | (with_reducible apply State.cuffTake_keeps)
    | (with_reducible apply State.cuffSlot_keeps) | (with_reducible apply State.nextRequest_keeps)
    | (fail_if_no_progress with_reducible apply Keeps.update) | (with_reducible apply Keeps.ite)
    | (with_reducible apply Keeps.ite1) | (with_reducible refine Keeps.of_eq ?_ (by assumption)) | split
    | (dsimp only)

theorem State.sendIdle_keeps {s : State} {l : LinkId} (h0 : Keeps s₀ s) :
    Keeps s₀ (State.sendIdle s l) := by
  unfold State.sendIdle
  try dsimp only
  repeat' first
    | (with_reducible intro _) | (with_reducible assumption) | (with_reducible apply State.setLink_keeps)
    | (fail_if_no_progress with_reducible apply Keeps.update) | (with_reducible apply Keeps.ite) | split
    | (dsimp only)

theorem State.freeVia_keeps {s : State} {d : DieId} {f : Flit} (h0 : Keeps s₀ s) :
    Keeps s₀ (State.freeVia s d f) := by
  unfold State.freeVia
  try dsimp only
  repeat' first
    | (with_reducible intro _) | (with_reducible assumption) | (with_reducible apply State.sendIdle_keeps)
    | (with_reducible apply State.setLink_keeps) | (fail_if_no_progress with_reducible apply Keeps.update) | split
    | (dsimp only)

theorem State.stampSent_keeps {s : State} {d : DieId} {f : Flit} (h0 : Keeps s₀ s) :
    Keeps s₀ (State.stampSent s d f) := by
  unfold State.stampSent
  try dsimp only
  repeat' first
    | (with_reducible intro _) | (with_reducible assumption) | (fail_if_no_progress with_reducible apply Keeps.update)
    | (with_reducible apply Keeps.ite) | split | (dsimp only)

theorem State.pumpOne_keeps {s : State} {l : LinkId} (h0 : Keeps s₀ s) :
    Keeps s₀ (State.pumpOne s l) := by
  unfold State.pumpOne
  try dsimp only
  repeat' first
    | (with_reducible intro _) | (with_reducible assumption) | (with_reducible apply State.nextFlit_keeps)
    | (with_reducible apply State.setLink_keeps) | (with_reducible apply State.freeVia_keeps)
    | (with_reducible apply State.stampSent_keeps) | (fail_if_no_progress with_reducible apply Keeps.update)
    | (with_reducible apply Keeps.ite) | (with_reducible refine Keeps.of_eq ?_ (by assumption)) | split | (dsimp only)

theorem State.pumpN_keeps {s : State} {l : LinkId} {x2 : Nat} (h0 : Keeps s₀ s) :
    Keeps s₀ (State.pumpN s l x2) := by
  revert h0
  fun_induction State.pumpN s l x2
  try dsimp only
  repeat' first
    | (with_reducible intro _) | (with_reducible assumption) | (with_reducible apply State.pumpOne_keeps)
    | (with_reducible apply_assumption) | split | (dsimp only) | (dsimp +zetaDelta only)

theorem State.pump_keeps {s : State} {l : LinkId} (h0 : Keeps s₀ s) :
    Keeps s₀ (State.pump s l) := by
  unfold State.pump
  try dsimp only
  repeat' first
    | (with_reducible intro _) | (with_reducible assumption) | (with_reducible apply State.pumpN_keeps) | (dsimp only)

theorem State.enqueueFlit_keeps {s : State} {l : LinkId} {f : Flit} (h0 : Keeps s₀ s) :
    Keeps s₀ (State.enqueueFlit s l f) := by
  unfold State.enqueueFlit
  try dsimp only
  repeat' first
    | (with_reducible intro _) | (with_reducible assumption) | (with_reducible apply State.pump_keeps)
    | (with_reducible apply State.setLink_keeps) | (fail_if_no_progress with_reducible apply Keeps.update)
    | (with_reducible apply Keeps.ite) | split | (dsimp only)

theorem State.sendMsg_keeps {s : State} {src : DieId} {dst : DieId} {m : Msg} (h0 : Keeps s₀ s) :
    Keeps s₀ (State.sendMsg s src dst m) := by
  unfold State.sendMsg
  try dsimp only
  repeat' first
    | (with_reducible intro _) | (with_reducible assumption) | (with_reducible apply State.deliverMsg_keeps)
    | (with_reducible apply State.report_keeps) | (with_reducible apply State.enqueueFlit_keeps)
    | (fail_if_no_progress with_reducible apply Keeps.update) | (with_reducible apply Keeps.ite)
    | (with_reducible apply Keeps.foldl) | (with_reducible apply Keeps.foldl1) | split | (dsimp only)

theorem State.takeMsg_keeps {s : State} {n : Nat} (h0 : Keeps s₀ s) :
    Keeps s₀ (State.takeMsg s n) := by
  unfold State.takeMsg
  try dsimp only
  repeat' first
    | (with_reducible intro _) | (with_reducible assumption) | (fail_if_no_progress with_reducible apply Keeps.update)
    | (dsimp only)

end Sys2Proof.Machine
end

