-- ==== Sys2Proof/Laws/KeepsTrans.lean ====
section
/-!
SUPPORT. Every operation of Machine/Trans.lean keeps what every operation keeps.
-/
set_option linter.unreachableTactic false
set_option linter.unusedTactic false
namespace Sys2Proof.Machine

variable {s₀ : State}

theorem State.withdraw_keeps {s : State} {d : DieId} {p : Owner → Bool} (h0 : Keeps s₀ s) :
    Keeps s₀ (State.withdraw s d p) := by
  unfold State.withdraw
  try dsimp only
  repeat' first
    | (with_reducible intro _) | (with_reducible assumption) | (with_reducible apply State.setDie_keeps)
    | (fail_if_no_progress with_reducible apply Keeps.update) | (with_reducible apply Keeps.ite) | split
    | (dsimp only)

theorem State.startWalk_keeps {s : State} {d : DieId} {o : Owner} {partition : Nat} {ctx : Nat} {va : Nat} {acc : Access} (h0 : Keeps s₀ s) :
    Keeps s₀ (State.startWalk s d o partition ctx va acc) := by
  unfold State.startWalk
  try dsimp only
  repeat' first
    | (with_reducible intro _) | (with_reducible assumption) | (with_reducible apply State.setDie_keeps)
    | (fail_if_no_progress with_reducible apply Keeps.update) | (with_reducible apply Keeps.ite) | split
    | (dsimp only)

theorem State.touch_keeps {s : State} {d : DieId} {key : Nat} {partition : Nat} {ctx : Nat} {va : Nat} (h0 : Keeps s₀ s) :
    Keeps s₀ (State.touch s d key partition ctx va) := by
  unfold State.touch
  try dsimp only
  repeat' first
    | (with_reducible intro _) | (with_reducible assumption) | (with_reducible apply State.setDie_keeps)
    | (with_reducible apply Keeps.ite) | split | (dsimp only)

theorem State.mergeInto_keeps {s : State} {d : DieId} {slot : Nat} {o : Owner} {va : Nat} {acc : Nat} {ctx : Nat} (h0 : Keeps s₀ s) :
    Keeps s₀ (State.mergeInto s d slot o va acc ctx) := by
  unfold State.mergeInto
  try dsimp only
  repeat' first
    | (with_reducible intro _) | (with_reducible assumption) | (with_reducible apply State.setDie_keeps)
    | (fail_if_no_progress with_reducible apply Keeps.update) | (with_reducible apply Keeps.ite) | split
    | (dsimp only)

theorem State.postFault_keeps {s : State} {d : DieId} {slot : Nat} {w : FqWait} (h0 : Keeps s₀ s) :
    Keeps s₀ (State.postFault s d slot w) := by
  unfold State.postFault
  try dsimp only
  repeat' first
    | (with_reducible intro _) | (with_reducible assumption) | (with_reducible apply State.postRecord_keeps)
    | (with_reducible apply Keeps.ite) | split | (dsimp only)

theorem State.faultAccess_keeps {s : State} {d : DieId} {cause : FaultCause} {range : Nat} {o : Owner} {partition : Nat} {ctx : Nat} {va : Nat} {acc : Access} (h0 : Keeps s₀ s) :
    Keeps s₀ (State.faultAccess s d cause range o partition ctx va acc) := by
  unfold State.faultAccess
  try dsimp only
  repeat' first
    | (with_reducible intro _) | (with_reducible assumption) | (with_reducible apply State.mergeInto_keeps)
    | (with_reducible apply State.postFault_keeps) | (with_reducible apply State.setDie_keeps)
    | (fail_if_no_progress with_reducible apply Keeps.update) | (with_reducible apply Keeps.ite) | split
    | (dsimp only)

theorem State.install_keeps {s : State} {d : DieId} {o : Owner} {e : RangeEnt} (h0 : Keeps s₀ s) :
    Keeps s₀ (State.install s d o e) := by
  unfold State.install
  try dsimp only
  repeat' first
    | (with_reducible intro _) | (with_reducible assumption) | (with_reducible apply State.setDie_keeps)
    | (fail_if_no_progress with_reducible apply Keeps.update) | (with_reducible apply Keeps.ite) | split
    | (dsimp only)

end Sys2Proof.Machine
end

