-- ==== Sys2Proof/Laws/KeepsAccess.lean ====
section
/-!
SUPPORT. Every operation of Machine/Access.lean keeps what every operation keeps.
-/
set_option linter.unreachableTactic false
set_option linter.unusedTactic false
namespace Sys2Proof.Machine

variable {s₀ : State}

theorem State.addReq_keeps {s : State} {r : Req} (h0 : Keeps s₀ s) :
    Keeps s₀ (State.addReq s r) := by
  unfold State.addReq
  try dsimp only
  repeat' first
    | (with_reducible intro _) | (with_reducible assumption) | (fail_if_no_progress with_reducible apply Keeps.update)
    | (dsimp only)

theorem State.sendReq_keeps {s : State} {d : DieId} {r : Req} (h0 : Keeps s₀ s) :
    Keeps s₀ (State.sendReq s d r).1 := by
  unfold State.sendReq
  try dsimp only
  repeat' first
    | (with_reducible intro _) | (with_reducible assumption) | (with_reducible apply State.addReq_keeps)
    | (with_reducible apply State.report_keeps) | (with_reducible apply State.setLink_keeps)
    | (with_reducible apply State.hotCount_keeps) | (with_reducible apply State.enqueueFlit_keeps)
    | (fail_if_no_progress with_reducible apply Keeps.update) | (with_reducible apply Keeps.ite)
    | (with_reducible apply Keeps.ite1) | (with_reducible apply Keeps.foldl) | (with_reducible apply Keeps.foldl1)
    | split | (dsimp only)

theorem State.busAccess_keeps {s : State} {d : DieId} {partition : Nat} {ctx : Nat} {range : Nat} {ahead : Bool} {b : BusAcc} (h0 : Keeps s₀ s) :
    Keeps s₀ (State.busAccess s d partition ctx range ahead b).1 := by
  unfold State.busAccess
  try dsimp only
  repeat' first
    | (with_reducible intro _) | (with_reducible assumption) | (with_reducible apply State.sendReq_keeps)
    | (with_reducible apply State.setDie_keeps) | (fail_if_no_progress with_reducible apply Keeps.update)
    | (with_reducible apply Keeps.ite) | (with_reducible apply Keeps.ite1) | (with_reducible apply Keeps.foldl)
    | (with_reducible apply Keeps.foldl1) | (with_reducible refine Keeps.of_eq ?_ (by assumption)) | split
    | (dsimp only)

theorem State.busRead_keeps {s : State} {d : DieId} {o : Owner} {partition : Nat} {ctx : Nat} {va : Nat} {pa : Nat} {n : Nat} {range : Nat} {ahead : Bool} (h0 : Keeps s₀ s) :
    Keeps s₀ (State.busRead s d o partition ctx va pa n range ahead).1 := by
  unfold State.busRead
  try dsimp only
  repeat' first
    | (with_reducible intro _) | (with_reducible assumption) | (with_reducible apply State.busAccess_keeps)
    | (with_reducible refine Keeps.of_eq ?_ (by assumption)) | (dsimp only)

theorem State.xlateSegs_keeps {s : State} {d : DieId} {o : Owner} {partition : Nat} {ctx : Nat} {va : Nat} {acc : Access} (h0 : Keeps s₀ s) :
    Keeps s₀ (State.xlateSegs s d o partition ctx va acc).1 := by
  unfold State.xlateSegs
  try dsimp only
  repeat' first
    | (with_reducible intro _) | (with_reducible assumption) | (with_reducible apply State.busRead_keeps)
    | (fail_if_no_progress with_reducible apply Keeps.update) | (with_reducible apply Keeps.ite)
    | (with_reducible apply Keeps.ite1) | (with_reducible refine Keeps.of_eq ?_ (by assumption)) | split
    | (dsimp only)

theorem State.xlateNow_keeps {s : State} {d : DieId} {o : Owner} {partition : Nat} {ctx : Nat} {va : Nat} {acc : Access} (h0 : Keeps s₀ s) :
    Keeps s₀ (State.xlateNow s d o partition ctx va acc).1 := by
  unfold State.xlateNow
  try dsimp only
  repeat' first
    | (with_reducible intro _) | (with_reducible assumption) | (with_reducible apply State.startWalk_keeps)
    | (with_reducible apply State.xlateSegs_keeps) | (with_reducible apply State.touch_keeps)
    | (fail_if_no_progress with_reducible apply Keeps.update) | (with_reducible apply Keeps.ite)
    | (with_reducible apply Keeps.ite1) | (with_reducible refine Keeps.of_eq ?_ (by assumption)) | split
    | (dsimp only)

theorem State.busWrite_keeps {s : State} {d : DieId} {o : Owner} {partition : Nat} {ctx : Nat} {va : Nat} {pa : Nat} {bs : List Byte} {range : Nat} {ahead : Bool} (h0 : Keeps s₀ s) :
    Keeps s₀ (State.busWrite s d o partition ctx va pa bs range ahead).1 := by
  unfold State.busWrite
  try dsimp only
  repeat' first
    | (with_reducible intro _) | (with_reducible assumption) | (with_reducible apply State.busAccess_keeps)
    | (with_reducible refine Keeps.of_eq ?_ (by assumption)) | (dsimp only)

theorem State.busDone_keeps {s : State} {d : DieId} {o : Owner} (h0 : Keeps s₀ s) :
    Keeps s₀ (State.busDone s d o) := by
  unfold State.busDone
  try dsimp only
  repeat' first
    | (with_reducible intro _) | (with_reducible assumption) | (with_reducible apply State.setDie_keeps)
    | (fail_if_no_progress with_reducible apply Keeps.update) | (dsimp only)

theorem State.busTake_keeps {s : State} {d : DieId} {n : Nat} {a : Answer} (h0 : Keeps s₀ s) :
    Keeps s₀ (State.busTake s d n a) := by
  unfold State.busTake
  try dsimp only
  repeat' first
    | (with_reducible intro _) | (with_reducible assumption) | (with_reducible apply State.setDie_keeps)
    | (fail_if_no_progress with_reducible apply Keeps.update) | (with_reducible apply Keeps.ite) | split
    | (dsimp only)

theorem State.tableWalk_keeps {s : State} {d : DieId} {o : Owner} {partition : Nat} {tablePa : Nat} {count : Nat} {va : Nat} (h0 : Keeps s₀ s) :
    Keeps s₀ (State.tableWalk s d o partition tablePa count va).1 := by
  unfold State.tableWalk
  try dsimp only
  repeat' first
    | (with_reducible intro _) | (with_reducible assumption) | (with_reducible apply State.busRead_keeps)
    | (fail_if_no_progress with_reducible apply Keeps.update) | (with_reducible refine Keeps.of_eq ?_ (by assumption))
    | split | (dsimp only)

end Sys2Proof.Machine
end

