-- ==== Sys2Proof/Laws/KeepsCoreOps.lean ====
section
/-!
SUPPORT. Every operation of Machine/CoreOps.lean keeps what every operation keeps.
-/
set_option linter.unreachableTactic false
set_option linter.unusedTactic false
namespace Sys2Proof.Machine

variable {s₀ : State}

theorem State.updCore_keeps {s : State} {c : CoreId} {f : Core → Core} (h0 : Keeps s₀ s) :
    Keeps s₀ (State.updCore s c f) := by
  unfold State.updCore
  try dsimp only
  repeat' first
    | (with_reducible intro _) | (with_reducible assumption) | (with_reducible apply State.setCore_keeps)
    | (dsimp only)

theorem State.moved_keeps {s : State} {c : CoreId} (h0 : Keeps s₀ s) :
    Keeps s₀ (State.moved s c) := by
  unfold State.moved
  try dsimp only
  repeat' first
    | (with_reducible intro _) | (with_reducible assumption) | (with_reducible apply State.updCore_keeps)
    | (fail_if_no_progress with_reducible apply Keeps.update) | (dsimp only)

theorem State.csRead_keeps {s : State} {c : CoreId} {off : Nat} {n : Nat} (h0 : Keeps s₀ s) :
    Keeps s₀ (State.csRead s c off n).1 := by
  unfold State.csRead
  try dsimp only
  repeat' first
    | (with_reducible intro _) | (with_reducible assumption) | (with_reducible apply State.updCore_keeps)
    | (fail_if_no_progress with_reducible apply Keeps.update) | (dsimp only)

theorem State.csWrite_keeps {s : State} {c : CoreId} {off : Nat} {bs : List Byte} (h0 : Keeps s₀ s) :
    Keeps s₀ (State.csWrite s c off bs).1 := by
  unfold State.csWrite
  try dsimp only
  repeat' first
    | (with_reducible intro _) | (with_reducible assumption) | (with_reducible apply State.updCore_keeps)
    | (fail_if_no_progress with_reducible apply Keeps.update) | (dsimp only)

theorem State.noteRsvd_keeps {s : State} {d : DieId} {ones : W32} (h0 : Keeps s₀ s) :
    Keeps s₀ (State.noteRsvd s d ones) := by
  unfold State.noteRsvd
  try dsimp only
  repeat' first
    | (with_reducible intro _) | (with_reducible assumption) | (with_reducible apply State.setDie_keeps)
    | (fail_if_no_progress with_reducible apply Keeps.update) | (with_reducible apply Keeps.ite) | split
    | (dsimp only)

theorem State.releaseGrant_keeps {s : State} {c : CoreId} (h0 : Keeps s₀ s) :
    Keeps s₀ (State.releaseGrant s c) := by
  unfold State.releaseGrant
  try dsimp only
  repeat' first
    | (with_reducible intro _) | (with_reducible assumption) | (with_reducible apply State.setCluster_keeps)
    | (fail_if_no_progress with_reducible apply Keeps.update) | (with_reducible apply Keeps.ite) | split
    | (dsimp only)

theorem State.updArr_keeps {s : State} {a : ArrayId} {f : Arr → Arr} (h0 : Keeps s₀ s) :
    Keeps s₀ (State.updArr s a f) := by
  unfold State.updArr
  try dsimp only
  repeat' first
    | (with_reducible intro _) | (with_reducible assumption) | (with_reducible apply State.setArr_keeps)
    | (dsimp only)

theorem State.addWpad_keeps {s : State} {c : CoreId} {g : Geom} (h0 : Keeps s₀ s) :
    Keeps s₀ (State.addWpad s c g) := by
  unfold State.addWpad
  try dsimp only
  repeat' first
    | (with_reducible intro _) | (with_reducible assumption) | (with_reducible apply State.updCore_keeps)
    | (fail_if_no_progress with_reducible apply Keeps.update) | (dsimp only)

theorem State.msRead_keeps {s : State} {k : ClusterId} {off : Nat} {n : Nat} (h0 : Keeps s₀ s) :
    Keeps s₀ (State.msRead s k off n).1 := by
  unfold State.msRead
  try dsimp only
  repeat' first
    | (with_reducible intro _) | (with_reducible assumption) | (with_reducible apply State.setCluster_keeps)
    | (fail_if_no_progress with_reducible apply Keeps.update) | (dsimp only)

theorem State.msWrite_keeps {s : State} {k : ClusterId} {off : Nat} {bs : List Byte} (h0 : Keeps s₀ s) :
    Keeps s₀ (State.msWrite s k off bs).1 := by
  unfold State.msWrite
  try dsimp only
  repeat' first
    | (with_reducible intro _) | (with_reducible assumption) | (with_reducible apply State.setCluster_keeps)
    | (fail_if_no_progress with_reducible apply Keeps.update) | (dsimp only)

end Sys2Proof.Machine
end

