-- ==== Sys2Proof/Laws/KeepsHostOps.lean ====
section
/-!
SUPPORT. Every operation of Machine/HostOps.lean keeps what every operation keeps.
-/
set_option linter.unreachableTactic false
set_option linter.unusedTactic false
namespace Sys2Proof.Machine

variable {s₀ : State}

theorem State.stopCore_keeps {s : State} {c : CoreId} (h0 : Keeps s₀ s) :
    Keeps s₀ (State.stopCore s c) := by
  unfold State.stopCore
  try dsimp only
  repeat' first
    | (with_reducible intro _) | (with_reducible assumption) | (with_reducible apply State.withdraw_keeps)
    | (with_reducible apply State.setCore_keeps) | (fail_if_no_progress with_reducible apply Keeps.update)
    | (with_reducible apply Keeps.ite) | split | (dsimp only)

theorem State.syncCtx_keeps {s : State} {n : Nat} (h0 : Keeps s₀ s) :
    Keeps s₀ (State.syncCtx s n) := by
  unfold State.syncCtx
  try dsimp only
  repeat' first
    | (with_reducible intro _) | (with_reducible assumption) | (with_reducible apply State.writeBytes_keeps)
    | (dsimp only)

theorem State.putCtx_keeps {s : State} {n : Nat} {c : Ctx} (h0 : Keeps s₀ s) :
    Keeps s₀ (State.putCtx s n c) := by
  unfold State.putCtx
  try dsimp only
  repeat' first
    | (with_reducible intro _) | (with_reducible assumption) | (with_reducible apply State.syncCtx_keeps)
    | (with_reducible apply State.setCtx_keeps) | (dsimp only)

theorem State.withdrawImages_keeps {s : State} {q : Nat} {d : DieId} (h0 : Keeps s₀ s) :
    Keeps s₀ (State.withdrawImages s q d) := by
  unfold State.withdrawImages
  try dsimp only
  repeat' first
    | (with_reducible intro _) | (with_reducible assumption) | (with_reducible apply State.withdraw_keeps)
    | (fail_if_no_progress with_reducible apply Keeps.update) | split | (dsimp only)

theorem State.stopPart_keeps {s : State} {q : Nat} {d : DieId} (h0 : Keeps s₀ s) :
    Keeps s₀ (State.stopPart s q d) := by
  unfold State.stopPart
  try dsimp only
  repeat' first
    | (with_reducible intro _) | (with_reducible assumption) | (with_reducible apply State.withdrawImages_keeps)
    | (with_reducible apply State.stopCore_keeps) | (fail_if_no_progress with_reducible apply Keeps.update)
    | (with_reducible apply Keeps.foldl) | (with_reducible apply Keeps.foldl1) | (dsimp only)

theorem State.stopLaunch_keeps {s : State} {q : Nat} (h0 : Keeps s₀ s) :
    Keeps s₀ (State.stopLaunch s q) := by
  unfold State.stopLaunch
  try dsimp only
  repeat' first
    | (with_reducible intro _) | (with_reducible assumption) | (with_reducible apply State.stopPart_keeps)
    | (with_reducible apply State.sendMsg_keeps) | (with_reducible apply Keeps.foldl)
    | (with_reducible apply Keeps.foldl1) | (dsimp only)

theorem State.waitEvent_keeps {s : State} {d : DieId} {n : Nat} {p : Nat} {r : Nat} {rec : EventRec} (h0 : Keeps s₀ s) :
    Keeps s₀ (State.waitEvent s d n p r rec) := by
  unfold State.waitEvent
  try dsimp only
  repeat' first
    | (with_reducible intro _) | (with_reducible assumption) | (with_reducible apply State.setDie_keeps)
    | (fail_if_no_progress with_reducible apply Keeps.update) | (dsimp only)

theorem State.writeEvent_keeps {s : State} {d : DieId} {p : Nat} {r : Nat} {rec : EventRec} {n : Nat} (h0 : Keeps s₀ s) :
    Keeps s₀ (State.writeEvent s d p r rec n).1 := by
  unfold State.writeEvent
  try dsimp only
  repeat' first
    | (with_reducible intro _) | (with_reducible assumption) | (with_reducible apply State.xlateNow_keeps)
    | (with_reducible apply State.busWrite_keeps) | (with_reducible apply State.setRing_keeps)
    | (with_reducible apply State.busDone_keeps) | (with_reducible apply State.postIm_keeps)
    | (with_reducible apply State.faultAccess_keeps) | (fail_if_no_progress with_reducible apply Keeps.update)
    | (with_reducible apply Keeps.ite) | (with_reducible apply Keeps.ite1)
    | (with_reducible refine Keeps.of_eq ?_ (by assumption)) | split | (dsimp only)

theorem State.tryEvent_keeps {s : State} {d : DieId} {p : Nat} {r : Nat} {rec : EventRec} (h0 : Keeps s₀ s) :
    Keeps s₀ (State.tryEvent s d p r rec).1 := by
  unfold State.tryEvent
  try dsimp only
  repeat' first
    | (with_reducible intro _) | (with_reducible assumption) | (with_reducible apply State.waitEvent_keeps)
    | (with_reducible apply State.writeEvent_keeps) | (fail_if_no_progress with_reducible apply Keeps.update)
    | (with_reducible apply Keeps.ite) | (with_reducible apply Keeps.ite1)
    | (with_reducible refine Keeps.of_eq ?_ (by assumption)) | split | (dsimp only)

theorem State.logOverflow_keeps {s : State} {d : DieId} {r : EventRec} (h0 : Keeps s₀ s) :
    Keeps s₀ (State.logOverflow s d r) := by
  unfold State.logOverflow
  try dsimp only
  repeat' first
    | (with_reducible intro _) | (with_reducible assumption) | (with_reducible apply State.postIm_keeps)
    | (with_reducible apply State.setDie_keeps) | (fail_if_no_progress with_reducible apply Keeps.update)
    | (with_reducible apply Keeps.ite) | split | (dsimp only)

theorem State.logUndeliverable_keeps {s : State} {d : DieId} {p : Nat} {rec : EventRec} (h0 : Keeps s₀ s) :
    Keeps s₀ (State.logUndeliverable s d p rec) := by
  unfold State.logUndeliverable
  try dsimp only
  repeat' first
    | (with_reducible intro _) | (with_reducible assumption) | (with_reducible apply State.tryEvent_keeps)
    | (with_reducible apply State.logOverflow_keeps) | (with_reducible refine Keeps.of_eq ?_ (by assumption))
    | (dsimp only)

theorem State.postLost_keeps {s : State} {n : Nat} (h0 : Keeps s₀ s) :
    Keeps s₀ (State.postLost s n) := by
  unfold State.postLost
  try dsimp only
  repeat' first
    | (with_reducible intro _) | (with_reducible assumption) | (with_reducible apply State.putCtx_keeps)
    | (with_reducible apply State.tryEvent_keeps) | (with_reducible apply State.logUndeliverable_keeps)
    | (fail_if_no_progress with_reducible apply Keeps.update) | (with_reducible apply Keeps.ite)
    | (with_reducible refine Keeps.of_eq ?_ (by assumption)) | split | (dsimp only)

theorem State.dropEvents_keeps {s : State} {d : DieId} {p : Nat × Nat × Nat × EventRec → Bool} (h0 : Keeps s₀ s) :
    Keeps s₀ (State.dropEvents s d p) := by
  unfold State.dropEvents
  try dsimp only
  repeat' first
    | (with_reducible intro _) | (with_reducible assumption) | (with_reducible apply State.withdraw_keeps)
    | (with_reducible apply State.setDie_keeps) | (fail_if_no_progress with_reducible apply Keeps.update) | split
    | (dsimp only)

theorem State.withdrawCtx_keeps {s : State} {n : Nat} (h0 : Keeps s₀ s) :
    Keeps s₀ (State.withdrawCtx s n) := by
  unfold State.withdrawCtx
  try dsimp only
  repeat' first
    | (with_reducible intro _) | (with_reducible assumption) | (with_reducible apply State.dropEvents_keeps)
    | (with_reducible apply State.withdraw_keeps) | (fail_if_no_progress with_reducible apply Keeps.update)
    | (with_reducible apply Keeps.foldl) | (with_reducible apply Keeps.foldl1) | split | (dsimp only)

theorem State.dirtyStores_keeps {s : State} {n : Nat} (h0 : Keeps s₀ s) :
    Keeps s₀ (State.dirtyStores s n) := by
  unfold State.dirtyStores
  try dsimp only
  repeat' first
    | (with_reducible intro _) | (with_reducible assumption) | (fail_if_no_progress with_reducible apply Keeps.update)
    | (with_reducible apply Keeps.ite) | split | (dsimp only)

theorem State.lose_keeps {s : State} {home : DieId} {n : Nat} {code : Nat} {cls : Nat} {rec : FaultRec} (h0 : Keeps s₀ s) :
    Keeps s₀ (State.lose s home n code cls rec) := by
  unfold State.lose
  try dsimp only
  repeat' first
    | (with_reducible intro _) | (with_reducible assumption) | (with_reducible apply State.putCtx_keeps)
    | (with_reducible apply State.eventRecord_keeps) | (with_reducible apply State.setCause_keeps)
    | (with_reducible apply State.setDie_keeps) | (with_reducible apply State.postLost_keeps)
    | (with_reducible apply State.stopLaunch_keeps) | (with_reducible apply State.withdrawCtx_keeps)
    | (with_reducible apply State.dirtyStores_keeps) | (fail_if_no_progress with_reducible apply Keeps.update)
    | (with_reducible apply Keeps.ite) | (with_reducible apply Keeps.foldl) | (with_reducible apply Keeps.foldl1)
    | split | (dsimp only)

theorem State.failLaunch_keeps {s : State} {q : Nat} {rec : FaultRec} {count : W64} (h0 : Keeps s₀ s) :
    Keeps s₀ (State.failLaunch s q rec count) := by
  unfold State.failLaunch
  try dsimp only
  repeat' first
    | (with_reducible intro _) | (with_reducible assumption) | (with_reducible apply State.setLaunch_keeps)
    | (with_reducible apply State.putCtx_keeps) | (with_reducible apply State.stopLaunch_keeps)
    | (with_reducible apply State.lose_keeps) | (fail_if_no_progress with_reducible apply Keeps.update)
    | (with_reducible apply Keeps.ite) | split | (dsimp only)

theorem State.partFault_keeps {s : State} {d : DieId} {q : Nat} {ldie : Nat} {rec : FaultRec} (h0 : Keeps s₀ s) :
    Keeps s₀ (State.partFault s d q ldie rec) := by
  unfold State.partFault
  try dsimp only
  repeat' first
    | (with_reducible intro _) | (with_reducible assumption) | (with_reducible apply State.setDie_keeps)
    | (with_reducible apply State.failLaunch_keeps) | (with_reducible apply State.sendMsg_keeps)
    | (fail_if_no_progress with_reducible apply Keeps.update) | (with_reducible apply Keeps.ite) | split
    | (dsimp only)

theorem State.progFault_keeps {s : State} {c : CoreId} {src : Nat} {code : Nat} {addr : Nat} {info : Nat} {pc : Nat} {insn : Nat} (h0 : Keeps s₀ s) :
    Keeps s₀ (State.progFault s c src code addr info pc insn) := by
  unfold State.progFault
  try dsimp only
  repeat' first
    | (with_reducible intro _) | (with_reducible assumption) | (with_reducible apply State.stopCore_keeps)
    | (with_reducible apply State.partFault_keeps) | (with_reducible apply State.stopPart_keeps)
    | (fail_if_no_progress with_reducible apply Keeps.update) | split | (dsimp only)

theorem State.engFault_keeps {s : State} {c : CoreId} {src : Nat} {code : Nat} {addr : Nat} {info : Nat} {i : EInstr} (h0 : Keeps s₀ s) :
    Keeps s₀ (State.engFault s c src code addr info i) := by
  unfold State.engFault
  try dsimp only
  repeat' first
    | (with_reducible intro _) | (with_reducible assumption) | (with_reducible apply State.progFault_keeps)
    | (dsimp only)

theorem State.syncMo_keeps {s : State} {h : Nat} (h0 : Keeps s₀ s) :
    Keeps s₀ (State.syncMo s h) := by
  unfold State.syncMo
  try dsimp only
  repeat' first
    | (with_reducible intro _) | (with_reducible assumption) | (with_reducible apply State.writeBytes_keeps)
    | (dsimp only)

theorem State.putMo_keeps {s : State} {h : Nat} {m : MemObj} (h0 : Keeps s₀ s) :
    Keeps s₀ (State.putMo s h m) := by
  unfold State.putMo
  try dsimp only
  repeat' first
    | (with_reducible intro _) | (with_reducible assumption) | (with_reducible apply State.syncMo_keeps)
    | (with_reducible apply State.setMo_keeps) | (dsimp only)

theorem State.addRefs_keeps {s : State} {d : DieId} {x2 : List Nat} (h0 : Keeps s₀ s) :
    Keeps s₀ (State.addRefs s d x2) := by
  revert h0
  fun_induction State.addRefs s d x2
  try dsimp only
  repeat' first
    | (with_reducible intro _) | (with_reducible assumption) | (with_reducible apply State.putMo_keeps)
    | (with_reducible apply_assumption) | (fail_if_no_progress with_reducible apply Keeps.update) | split
    | (dsimp only) | (dsimp +zetaDelta only)

theorem State.syncQueue_keeps {s : State} {q : QueueId} (h0 : Keeps s₀ s) :
    Keeps s₀ (State.syncQueue s q) := by
  unfold State.syncQueue
  try dsimp only
  repeat' first
    | (with_reducible intro _) | (with_reducible assumption) | (with_reducible apply State.writeBytes_keeps)
    | (dsimp only)

theorem State.putQueue_keeps {s : State} {q : QueueId} {k : Queue} (h0 : Keeps s₀ s) :
    Keeps s₀ (State.putQueue s q k) := by
  unfold State.putQueue
  try dsimp only
  repeat' first
    | (with_reducible intro _) | (with_reducible assumption) | (with_reducible apply State.syncQueue_keeps)
    | (with_reducible apply State.setQueue_keeps) | (dsimp only)

theorem State.seqFault_keeps {s : State} {c : CoreId} {src : Nat} {code : Nat} {addr : Nat} {info : Nat} {w : W32} (h0 : Keeps s₀ s) :
    Keeps s₀ (State.seqFault s c src code addr info w) := by
  unfold State.seqFault
  try dsimp only
  repeat' first
    | (with_reducible intro _) | (with_reducible assumption) | (with_reducible apply State.progFault_keeps)
    | (dsimp only)

theorem State.ranOn_keeps {s : State} {d : DieId} {ctx : Nat} (h0 : Keeps s₀ s) :
    Keeps s₀ (State.ranOn s d ctx) := by
  unfold State.ranOn
  try dsimp only
  repeat' first
    | (with_reducible intro _) | (with_reducible assumption) | (with_reducible apply State.setDie_keeps)
    | (fail_if_no_progress with_reducible apply Keeps.update) | (with_reducible apply Keeps.ite) | split
    | (dsimp only)

theorem State.eventFailed_keeps {s : State} {d : DieId} {p : Nat} {rec : EventRec} {code : Nat} {info : Nat} (h0 : Keeps s₀ s) :
    Keeps s₀ (State.eventFailed s d p rec code info) := by
  unfold State.eventFailed
  try dsimp only
  repeat' first
    | (with_reducible intro _) | (with_reducible assumption) | (with_reducible apply State.lose_keeps)
    | (with_reducible apply State.logUndeliverable_keeps) | (with_reducible apply Keeps.ite) | split | (dsimp only)

theorem State.dropRefs_keeps {s : State} {d : DieId} {x2 : List Nat} (h0 : Keeps s₀ s) :
    Keeps s₀ (State.dropRefs s d x2) := by
  revert h0
  fun_induction State.dropRefs s d x2
  try dsimp only
  repeat' first
    | (with_reducible intro _) | (with_reducible assumption) | (with_reducible apply State.putMo_keeps)
    | (with_reducible apply_assumption) | (fail_if_no_progress with_reducible apply Keeps.update) | split
    | (dsimp only) | (dsimp +zetaDelta only)

theorem State.postEvent_keeps {s : State} {d : DieId} {p : Nat} {r : Nat} {rec : EventRec} (h0 : Keeps s₀ s) :
    Keeps s₀ (State.postEvent s d p r rec) := by
  unfold State.postEvent
  try dsimp only
  repeat' first
    | (with_reducible intro _) | (with_reducible assumption) | (with_reducible apply State.tryEvent_keeps)
    | (with_reducible apply State.eventFailed_keeps) | (fail_if_no_progress with_reducible apply Keeps.update)
    | (with_reducible refine Keeps.of_eq ?_ (by assumption)) | split | (dsimp only)

theorem State.setImg_keeps {s : State} {st : StoreId} {j : Option ImageJob} (h0 : Keeps s₀ s) :
    Keeps s₀ (State.setImg s st j) := by
  unfold State.setImg
  try dsimp only
  repeat' first
    | (with_reducible intro _) | (with_reducible assumption) | (with_reducible apply State.setCore_keeps)
    | (with_reducible apply State.setCluster_keeps) | (fail_if_no_progress with_reducible apply Keeps.update) | split
    | (dsimp only)

theorem State.dropImage_keeps {s : State} {st : StoreId} (h0 : Keeps s₀ s) :
    Keeps s₀ (State.dropImage s st) := by
  unfold State.dropImage
  try dsimp only
  repeat' first
    | (with_reducible intro _) | (with_reducible assumption) | (with_reducible apply State.withdraw_keeps)
    | (with_reducible apply State.setImg_keeps) | (fail_if_no_progress with_reducible apply Keeps.update) | split
    | (dsimp only)

end Sys2Proof.Machine
end

