-- ==== Sys2Proof/Laws/KeepsDma.lean ====
section
/-!
SUPPORT. Every operation of Machine/Dma.lean keeps what every operation keeps.
-/
set_option linter.unreachableTactic false
set_option linter.unusedTactic false
namespace Sys2Proof.Machine

variable {s₀ : State}

theorem State.xlatePieces_keeps {s : State} {d : DieId} {o : Owner} {p : Nat} {ctx : Nat} {acc : Access} {x6 : List (Nat × Nat)} (h0 : Keeps s₀ s) :
    Keeps s₀ (State.xlatePieces s d o p ctx acc x6).1 := by
  induction x6 generalizing s with
  | nil => exact h0
  | cons e es ih =>
    rw [State.xlatePieces]
    split
    · rename_i heq
      have h1 := Keeps.of_eq (State.xlateNow_keeps h0) heq
      split
      · rename_i heq2
        exact Keeps.of_eq (ih h1) heq2
      · rename_i heq2
        exact Keeps.of_eq (ih h1) heq2
    · rename_i heq
      exact Keeps.of_eq (State.xlateNow_keeps h0) heq
    · rename_i heq
      exact Keeps.of_eq (State.xlateNow_keeps h0) heq
    · rename_i heq
      have h1 := Keeps.of_eq (State.xlateNow_keeps h0) heq
      split
      · exact h1
      · exact State.lose_keeps h1

theorem State.readVa_keeps {s : State} {d : DieId} {o : Owner} {p : Nat} {ctx : Nat} {va : Nat} {n : Nat} {acc : Access} {ahead : Bool} (h0 : Keeps s₀ s) :
    Keeps s₀ (State.readVa s d o p ctx va n acc ahead).1 := by
  unfold State.readVa
  try dsimp only
  repeat' first
    | (with_reducible intro _) | (with_reducible assumption) | (with_reducible apply State.xlatePieces_keeps)
    | (with_reducible apply State.busRead_keeps) | (fail_if_no_progress with_reducible apply Keeps.update)
    | (with_reducible apply Keeps.foldl) | (with_reducible apply Keeps.foldl1)
    | (with_reducible refine Keeps.of_eq ?_ (by assumption)) | split | (dsimp only)

theorem State.retryEvents_keeps {s : State} (h0 : Keeps s₀ s) :
    Keeps s₀ (State.retryEvents s) := by
  unfold State.retryEvents
  try dsimp only
  repeat' first
    | (with_reducible intro _) | (with_reducible assumption) | (with_reducible apply State.setDie_keeps)
    | (with_reducible apply State.writeEvent_keeps) | (with_reducible apply State.eventFailed_keeps)
    | (fail_if_no_progress with_reducible apply Keeps.update) | (with_reducible apply Keeps.ite)
    | (with_reducible apply Keeps.foldl) | (with_reducible apply Keeps.foldl1)
    | (with_reducible refine Keeps.of_eq ?_ (by assumption)) | split | (dsimp only)

theorem State.writeVa_keeps {s : State} {d : DieId} {o : Owner} {p : Nat} {ctx : Nat} {va : Nat} {bs : List Byte} {ahead : Bool} (h0 : Keeps s₀ s) :
    Keeps s₀ (State.writeVa s d o p ctx va bs ahead).1 := by
  unfold State.writeVa
  try dsimp only
  repeat' first
    | (with_reducible intro _) | (with_reducible assumption) | (with_reducible apply State.xlatePieces_keeps)
    | (with_reducible apply State.busWrite_keeps) | (fail_if_no_progress with_reducible apply Keeps.update)
    | (with_reducible apply Keeps.foldl) | (with_reducible apply Keeps.foldl1)
    | (with_reducible refine Keeps.of_eq ?_ (by assumption)) | split | (dsimp only)

end Sys2Proof.Machine
end

