-- ==== Sys2Proof/Laws/KeepsMmOps.lean ====
section
/-!
SUPPORT. Every operation of Machine/MmOps.lean keeps what every operation keeps.
-/
set_option linter.unreachableTactic false
set_option linter.unusedTactic false
namespace Sys2Proof.Machine

variable {s₀ : State}

theorem State.groupIssue_keeps {s : State} {a : ArrayId} (h0 : Keeps s₀ s) :
    Keeps s₀ (State.groupIssue s a) := by
  unfold State.groupIssue
  try dsimp only
  repeat' first
    | (with_reducible intro _) | (with_reducible assumption) | (with_reducible apply State.setArr_keeps)
    | (with_reducible apply State.updCore_keeps) | (fail_if_no_progress with_reducible apply Keeps.update)
    | (with_reducible apply Keeps.ite) | (with_reducible apply Keeps.foldl) | (with_reducible apply Keeps.foldl1)
    | split | (dsimp only)

theorem State.readRows_keeps {s : State} {c : CoreId} {t : Token} {m : Nat} {n : Nat} (h0 : Keeps s₀ s) :
    Keeps s₀ (State.readRows s c t m n).1 := by
  unfold State.readRows
  try dsimp only
  repeat' first
    | (with_reducible intro _) | (with_reducible assumption) | (with_reducible apply State.csRead_keeps)
    | (fail_if_no_progress with_reducible apply Keeps.update) | (with_reducible apply Keeps.foldl)
    | (with_reducible apply Keeps.foldl1) | (with_reducible refine Keeps.of_eq ?_ (by assumption)) | split
    | (dsimp only)

theorem State.windowElem_keeps {s : State} {kid : ClusterId} {blk : List Byte} {kk : Nat} {nn : Nat} (h0 : Keeps s₀ s) :
    Keeps s₀ (State.windowElem s kid blk kk nn).1 := by
  unfold State.windowElem
  try dsimp only
  repeat' first
    | (with_reducible intro _) | (with_reducible assumption) | (with_reducible apply State.msRead_keeps)
    | (fail_if_no_progress with_reducible apply Keeps.update) | (with_reducible refine Keeps.of_eq ?_ (by assumption))
    | split | (dsimp only)

theorem State.windowRows_keeps {s : State} {kid : ClusterId} {blk : List Byte} (h0 : Keeps s₀ s) :
    Keeps s₀ (State.windowRows s kid blk).1 := by
  unfold State.windowRows
  try dsimp only
  repeat' first
    | (with_reducible intro _) | (with_reducible assumption) | (with_reducible apply State.windowElem_keeps)
    | (fail_if_no_progress with_reducible apply Keeps.update) | (with_reducible apply Keeps.ite)
    | (with_reducible apply Keeps.ite1) | (with_reducible apply KeepsO.ite) | (with_reducible apply KeepsR.ite)
    | (with_reducible apply Keeps.foldl) | (with_reducible apply Keeps.foldl1) | (with_reducible apply KeepsO.some)
    | (with_reducible apply KeepsL.some) | (with_reducible apply KeepsR.swap) | (with_reducible apply KeepsR.pair)
    | (with_reducible apply KeepsR.map) | (with_reducible apply KeepsR.some) | (with_reducible apply KeepsO.getD)
    | (with_reducible apply KeepsO.bind) | (with_reducible apply KeepsOut.next) | (with_reducible exact Keeps.refl _)
    | (with_reducible exact KeepsOut.fault) | (with_reducible exact KeepsO.none) | (with_reducible exact KeepsL.none)
    | (with_reducible exact KeepsR.none) | (with_reducible refine Keeps.of_eq ?_ (by assumption))
    | (with_reducible refine KeepsO.of_eq ?_ (by assumption))
    | (with_reducible refine KeepsL.of_eq ?_ (by assumption))
    | (with_reducible refine KeepsR.of_eq ?_ (by assumption))
    | (with_reducible refine Keeps.of_eq2 ?_ (by assumption)) | split | (dsimp only) | (dsimp only [id])
    | (dsimp +zetaDelta only)

theorem State.writeRows_keeps {s : State} {c : CoreId} {t : Token} {rows : List (List Byte)} (h0 : Keeps s₀ s) :
    Keeps s₀ (State.writeRows s c t rows).1 := by
  unfold State.writeRows
  try dsimp only
  repeat' first
    | (with_reducible intro _) | (with_reducible assumption) | (with_reducible apply State.csWrite_keeps)
    | (with_reducible apply Keeps.foldl) | (with_reducible apply Keeps.foldl1)
    | (with_reducible refine Keeps.of_eq ?_ (by assumption)) | (dsimp only)

theorem State.mmRun_keeps {s : State} {c : CoreId} {fmt : W32} {cfgw : W32} {i : EInstr} (h0 : Keeps s₀ s) :
    Keeps s₀ (State.mmRun s c fmt cfgw i).1 := by
  unfold State.mmRun
  try dsimp only
  repeat' first
    | (with_reducible intro _) | (with_reducible assumption) | (with_reducible apply State.readRows_keeps)
    | (with_reducible apply State.windowRows_keeps) | (with_reducible apply State.writeRows_keeps)
    | (with_reducible apply State.draw_keeps) | (fail_if_no_progress with_reducible apply Keeps.update)
    | (with_reducible apply Keeps.ite) | (with_reducible apply Keeps.ite1) | (with_reducible apply Keeps.foldl)
    | (with_reducible apply Keeps.foldl1) | (with_reducible refine Keeps.of_eq ?_ (by assumption))
    | (with_reducible refine Keeps.of_eq2 ?_ (by assumption)) | split | (dsimp only)

theorem State.mmRunAll_keeps {s : State} {a : ArrayId} {fmt : W32} {cfg : W32} {x4 : List EInstr} (h0 : Keeps s₀ s) :
    Keeps s₀ (State.mmRunAll s a fmt cfg x4).1 := by
  revert h0
  fun_induction State.mmRunAll s a fmt cfg x4
  try dsimp only
  repeat' first
    | (with_reducible intro _) | (with_reducible assumption) | (with_reducible apply State.mmRun_keeps)
    | (with_reducible apply State.draw_keeps) | (with_reducible apply State.updArr_keeps)
    | (with_reducible apply State.addWpad_keeps) | (with_reducible apply_assumption)
    | (fail_if_no_progress with_reducible apply Keeps.update) | (with_reducible refine Keeps.of_eq ?_ (by assumption))
    | (with_reducible refine Keeps.of_eq2 ?_ (by assumption)) | split | (dsimp only) | (dsimp +zetaDelta only)

end Sys2Proof.Machine
end

