-- ==== Sys2Proof/Laws/KeepsResetOps.lean ====
section
/-!
SUPPORT. Every operation of Machine/ResetOps.lean keeps what every operation keeps.
-/
set_option linter.unreachableTactic false
set_option linter.unusedTactic false
namespace Sys2Proof.Machine

variable {s₀ : State}

theorem State.absorb_keeps {s : State} {d : DieId} {e : Escalation} (h0 : Keeps s₀ s) :
    Keeps s₀ (State.absorb s d e) := by
  unfold State.absorb
  try dsimp only
  repeat' first
    | (with_reducible intro _) | (with_reducible assumption) | (with_reducible apply State.setDie_keeps)
    | (with_reducible apply State.postIm_keeps) | (fail_if_no_progress with_reducible apply Keeps.update)
    | (with_reducible apply Keeps.foldl) | (with_reducible apply Keeps.foldl1) | (dsimp only)

theorem State.startLadder_keeps {s : State} {u : ResetUnit} {code : Nat} (h0 : Keeps s₀ s) :
    Keeps s₀ (State.startLadder s u code) := by
  unfold State.startLadder
  try dsimp only
  repeat' first
    | (with_reducible intro _) | (with_reducible assumption) | (with_reducible apply State.setDie_keeps)
    | (with_reducible apply State.absorb_keeps) | (fail_if_no_progress with_reducible apply Keeps.update)
    | (with_reducible apply Keeps.ite) | split | (dsimp only)

theorem State.startEvent_keeps {s : State} {u : ResetUnit} {code : Nat} {act : State → State} (h0 : Keeps s₀ s) (h3 : ∀ y0, Keeps s₀ y0 → Keeps s₀ (act y0)) :
    Keeps s₀ (State.startEvent s u code act) := by
  unfold State.startEvent
  try dsimp only
  repeat' first
    | (with_reducible intro _) | (with_reducible assumption) | (with_reducible apply h3)
    | (with_reducible apply State.startLadder_keeps) | (with_reducible apply Keeps.ite) | split | (dsimp only)

end Sys2Proof.Machine
end

