-- ==== Sys2Proof/Laws/KeepsStreamOps.lean ====
section
/-!
SUPPORT. Every operation of Machine/StreamOps.lean keeps what every operation keeps.
-/
set_option linter.unreachableTactic false
set_option linter.unusedTactic false
namespace Sys2Proof.Machine

variable {s₀ : State}

theorem State.undefCv_keeps {s : State} {c : CoreId} {r : StreamRun} (h0 : Keeps s₀ s) :
    Keeps s₀ (State.undefCv s c r) := by
  unfold State.undefCv
  try dsimp only
  repeat' first
    | (with_reducible intro _) | (with_reducible assumption) | (with_reducible apply State.draw_keeps)
    | (with_reducible apply State.updCore_keeps) | (fail_if_no_progress with_reducible apply Keeps.update)
    | (with_reducible apply Keeps.ite) | (with_reducible refine Keeps.of_eq2 ?_ (by assumption)) | split
    | (dsimp only)

theorem State.abortReport_keeps {s : State} {c : CoreId} (h0 : Keeps s₀ s) :
    Keeps s₀ (State.abortReport s c) := by
  unfold State.abortReport
  try dsimp only
  repeat' first
    | (with_reducible intro _) | (with_reducible assumption) | (with_reducible apply State.undefCv_keeps)
    | (with_reducible apply State.updCore_keeps) | (with_reducible apply State.engFault_keeps)
    | (fail_if_no_progress with_reducible apply Keeps.update) | (with_reducible apply Keeps.ite)
    | (with_reducible apply Keeps.foldl) | (with_reducible apply Keeps.foldl1) | split | (dsimp only)

theorem State.updRun_keeps {s : State} {c : CoreId} {ord : Nat} {f : StreamRun → StreamRun} (h0 : Keeps s₀ s) :
    Keeps s₀ (State.updRun s c ord f) := by
  unfold State.updRun
  try dsimp only
  repeat' first
    | (with_reducible intro _) | (with_reducible assumption) | (with_reducible apply State.updCore_keeps)
    | (fail_if_no_progress with_reducible apply Keeps.update) | (with_reducible apply Keeps.ite) | split
    | (dsimp only)

theorem State.streamAbort_keeps {s : State} {c : CoreId} {x : StreamRun} {code : Nat} {addr : Nat} {info : Nat} (h0 : Keeps s₀ s) :
    Keeps s₀ (State.streamAbort s c x code addr info) := by
  unfold State.streamAbort
  try dsimp only
  repeat' first
    | (with_reducible intro _) | (with_reducible assumption) | (with_reducible apply State.abortReport_keeps)
    | (with_reducible apply State.setCore_keeps) | (fail_if_no_progress with_reducible apply Keeps.update)
    | (with_reducible apply Keeps.ite) | split | (dsimp only)

theorem State.pumpRun_keeps {s : State} {c : CoreId} {ord : Nat} {write : Bool} {noLocal : Bool} {noRemote : Bool} {noRoute : List Nat} {x7 : List (Nat × Nat)} (h0 : Keeps s₀ s) :
    Keeps s₀ (State.pumpRun s c ord write noLocal noRemote noRoute x7) := by
  induction x7 generalizing s noLocal noRemote noRoute with
  | nil => rw [State.pumpRun]; exact h0
  | cons e es ih =>
    rw [State.pumpRun]
    dsimp only
    split
    · exact h0
    · split
      · exact h0
      · split
        · split
          · with_reducible apply State.mergeInto_keeps
            with_reducible apply State.updRun_keeps
            assumption
          · with_reducible apply State.startWalk_keeps
            with_reducible apply State.updRun_keeps
            assumption
        · with_reducible apply State.faultAccess_keeps
          with_reducible apply State.updRun_keeps
          assumption
        · exact h0
        · refine Keeps.ite (ih h0) (Keeps.ite (ih h0) ?_)
          split
          · rename_i t heq
            exact ih (State.updRun_keeps (Keeps.of_eq (State.sendReq_keeps (State.touch_keeps h0)) heq))
          · rename_i t heq
            exact ih (Keeps.of_eq (State.sendReq_keeps (State.touch_keeps h0)) heq)
          · rename_i t heq
            exact State.streamAbort_keeps (Keeps.of_eq (State.sendReq_keeps (State.touch_keeps h0)) heq)

theorem State.pumpStream_keeps {s : State} {c : CoreId} (h0 : Keeps s₀ s) :
    Keeps s₀ (State.pumpStream s c) := by
  unfold State.pumpStream
  try dsimp only
  repeat' first
    | (with_reducible intro _) | (with_reducible assumption) | (with_reducible apply State.pumpRun_keeps)
    | (with_reducible apply Keeps.ite) | (with_reducible apply Keeps.foldl) | (with_reducible apply Keeps.foldl1)
    | split | (dsimp only)

theorem State.streamData_keeps {s : State} {c : CoreId} {ord : Nat} {tile : Nat} {pass : Nat} {va : Nat} {bs : List Byte} (h0 : Keeps s₀ s) :
    Keeps s₀ (State.streamData s c ord tile pass va bs) := by
  unfold State.streamData
  try dsimp only
  repeat' first
    | (with_reducible intro _) | (with_reducible assumption) | (with_reducible apply State.abortReport_keeps)
    | (with_reducible apply State.updRun_keeps) | (with_reducible apply State.streamAbort_keeps)
    | (fail_if_no_progress with_reducible apply Keeps.update) | (with_reducible apply Keeps.ite)
    | (with_reducible apply Keeps.foldl) | (with_reducible apply Keeps.foldl1) | split | (dsimp only)

theorem State.foldCv_keeps {s : State} {c : CoreId} {ch : Nat} {bs : List Byte} (h0 : Keeps s₀ s) :
    Keeps s₀ (State.foldCv s c ch bs) := by
  unfold State.foldCv
  try dsimp only
  repeat' first
    | (with_reducible intro _) | (with_reducible assumption) | (with_reducible apply State.updCore_keeps)
    | (fail_if_no_progress with_reducible apply Keeps.update) | (with_reducible apply Keeps.ite) | split
    | (dsimp only)

theorem State.foldStr_keeps {s : State} {c : CoreId} {first : W64} {bs : List Byte} (h0 : Keeps s₀ s) :
    Keeps s₀ (State.foldStr s c first bs) := by
  unfold State.foldStr
  try dsimp only
  repeat' first
    | (with_reducible intro _) | (with_reducible assumption) | (with_reducible apply State.updCore_keeps)
    | (fail_if_no_progress with_reducible apply Keeps.update) | (with_reducible apply Keeps.ite) | split
    | (dsimp only)

theorem State.mapPut_keeps {s : State} {kid : ClusterId} {d : Desc} {off : Int} {rows : List (List Byte)} (h0 : Keeps s₀ s) :
    Keeps s₀ (State.mapPut s kid d off rows).1 := by
  unfold State.mapPut
  try dsimp only
  repeat' first
    | (with_reducible intro _) | (with_reducible assumption) | (with_reducible apply State.msWrite_keeps)
    | (with_reducible apply Keeps.ite) | (with_reducible apply Keeps.ite1) | (with_reducible apply Keeps.foldl)
    | (with_reducible apply Keeps.foldl1) | (with_reducible refine Keeps.of_eq ?_ (by assumption)) | split
    | (dsimp only)

theorem State.mapRows_keeps {s : State} {kid : ClusterId} {d : Desc} {off : Int} (h0 : Keeps s₀ s) :
    Keeps s₀ (State.mapRows s kid d off).1 := by
  unfold State.mapRows
  try dsimp only
  repeat' first
    | (with_reducible intro _) | (with_reducible assumption) | (with_reducible apply State.msRead_keeps)
    | (fail_if_no_progress with_reducible apply Keeps.update) | (with_reducible apply Keeps.ite)
    | (with_reducible apply Keeps.ite1) | (with_reducible apply Keeps.foldl) | (with_reducible apply Keeps.foldl1)
    | (with_reducible refine Keeps.of_eq ?_ (by assumption)) | split | (dsimp only)

theorem State.mapWindow_keeps {s : State} {kid : ClusterId} {d : Desc} {off : Int} (h0 : Keeps s₀ s) :
    Keeps s₀ (State.mapWindow s kid d off).1 := by
  unfold State.mapWindow
  try dsimp only
  repeat' first
    | (with_reducible intro _) | (with_reducible assumption) | (with_reducible apply State.msRead_keeps)
    | (fail_if_no_progress with_reducible apply Keeps.update) | (with_reducible apply Keeps.foldl)
    | (with_reducible apply Keeps.foldl1) | (with_reducible refine Keeps.of_eq ?_ (by assumption)) | split
    | (dsimp only)

theorem State.replayTile_keeps {s : State} {c : CoreId} {ord : Nat} {va : Nat} (h0 : Keeps s₀ s) :
    Keeps s₀ (State.replayTile s c ord va) := by
  unfold State.replayTile
  try dsimp only
  repeat' first
    | (with_reducible intro _) | (with_reducible assumption) | (with_reducible apply State.updRun_keeps)
    | (fail_if_no_progress with_reducible apply Keeps.update) | (with_reducible apply Keeps.ite) | split
    | (dsimp only)

theorem State.tokenPut_keeps {s : State} {c : CoreId} {t : Token} {rows : List (List Byte)} (h0 : Keeps s₀ s) :
    Keeps s₀ (State.tokenPut s c t rows).1 := by
  unfold State.tokenPut
  try dsimp only
  repeat' first
    | (with_reducible intro _) | (with_reducible assumption) | (with_reducible apply State.csWrite_keeps)
    | (with_reducible apply Keeps.foldl) | (with_reducible apply Keeps.foldl1)
    | (with_reducible refine Keeps.of_eq ?_ (by assumption)) | (dsimp only)

theorem State.tokenRows_keeps {s : State} {c : CoreId} {d : Desc} {t : Token} (h0 : Keeps s₀ s) :
    Keeps s₀ (State.tokenRows s c d t).1 := by
  unfold State.tokenRows
  try dsimp only
  repeat' first
    | (with_reducible intro _) | (with_reducible assumption) | (with_reducible apply State.csRead_keeps)
    | (fail_if_no_progress with_reducible apply Keeps.update) | (with_reducible apply Keeps.foldl)
    | (with_reducible apply Keeps.foldl1) | (with_reducible refine Keeps.of_eq ?_ (by assumption)) | split
    | (dsimp only)

theorem State.streamFinish_keeps {s : State} {c : CoreId} {r : StreamRun} (h0 : Keeps s₀ s) :
    Keeps s₀ (State.streamFinish s c r).1 := by
  unfold State.streamFinish
  try dsimp only
  repeat' first
    | (with_reducible intro _) | (with_reducible assumption) | (with_reducible apply State.foldCv_keeps)
    | (with_reducible apply State.tokenPut_keeps) | (with_reducible apply State.updCore_keeps)
    | (with_reducible apply State.foldStr_keeps) | (with_reducible apply State.mapRows_keeps)
    | (with_reducible apply State.tokenRows_keeps) | (with_reducible apply State.mapPut_keeps)
    | (with_reducible apply State.addWpad_keeps) | (with_reducible apply State.mapWindow_keeps)
    | (fail_if_no_progress with_reducible apply Keeps.update) | (with_reducible apply Keeps.ite)
    | (with_reducible apply Keeps.ite1) | (with_reducible refine Keeps.of_eq ?_ (by assumption)) | split
    | (dsimp only)

theorem State.streamPrep_keeps {s : State} {c : CoreId} {i : EInstr} {sdt : List Byte} (h0 : Keeps s₀ s) :
    Keeps s₀ (State.streamPrep s c i sdt).1 := by
  unfold State.streamPrep
  try dsimp only
  repeat' first
    | (with_reducible intro _) | (with_reducible assumption) | (with_reducible apply State.tokenRows_keeps)
    | (with_reducible apply State.mapRows_keeps) | (fail_if_no_progress with_reducible apply Keeps.update)
    | (with_reducible apply Keeps.ite) | (with_reducible apply Keeps.ite1) | (with_reducible apply Keeps.foldl)
    | (with_reducible apply Keeps.foldl1) | (with_reducible refine Keeps.of_eq ?_ (by assumption)) | split
    | (dsimp only)

end Sys2Proof.Machine
end

