-- ==== Sys2Proof/Laws/KeepsTurn.lean ====
section
/-!
SUPPORT. Every operation of Machine/Turn.lean keeps what every operation keeps.
-/
set_option linter.unreachableTactic false
set_option linter.unusedTactic false
namespace Sys2Proof.Machine

variable {s₀ : State}

theorem State.holdCores_keeps {s : State} {d : DieId} (h0 : Keeps s₀ s) :
    Keeps s₀ (State.holdCores s d) := by
  unfold State.holdCores
  try dsimp only
  repeat' first
    | (with_reducible intro _) | (with_reducible assumption) | (with_reducible apply State.setDie_keeps)
    | (fail_if_no_progress with_reducible apply Keeps.update) | split | (dsimp only)

theorem State.served_keeps {s : State} {d : DieId} {q : Nat} {p : Nat} (h0 : Keeps s₀ s) :
    Keeps s₀ (State.served s d q p) := by
  unfold State.served
  try dsimp only
  repeat' first
    | (with_reducible intro _) | (with_reducible assumption) | (with_reducible apply State.setDie_keeps)
    | (fail_if_no_progress with_reducible apply Keeps.update) | (with_reducible apply Keeps.ite) | split
    | (dsimp only)

end Sys2Proof.Machine
end

