-- ==== Sys2Proof/Laws/KeepsSync.lean ====
section
/-!
SUPPORT. Every operation of Machine/Sync.lean keeps what every operation keeps.
-/
set_option linter.unreachableTactic false
set_option linter.unusedTactic false
namespace Sys2Proof.Machine

variable {s₀ : State}

theorem State.advance_keeps {s : State} {c : CoreId} (h0 : Keeps s₀ s) :
    Keeps s₀ (State.advance s c) := by
  unfold State.advance
  try dsimp only
  repeat' first
    | (with_reducible intro _) | (with_reducible assumption) | (with_reducible apply State.updCore_keeps)
    | (with_reducible apply State.moved_keeps) | (fail_if_no_progress with_reducible apply Keeps.update)
    | (dsimp only)

theorem State.retire_keeps {s : State} {c : CoreId} {i : EInstr} {f : SeqRegs → SeqRegs} (h0 : Keeps s₀ s) :
    Keeps s₀ (State.retire s c i f) := by
  unfold State.retire
  try dsimp only
  repeat' first
    | (with_reducible intro _) | (with_reducible assumption) | (with_reducible apply State.moved_keeps)
    | (with_reducible apply State.updCore_keeps) | (fail_if_no_progress with_reducible apply Keeps.update)
    | (with_reducible apply Keeps.ite) | split | (dsimp only)

theorem State.cfgStep_keeps {s : State} {c : CoreId} {p : Nat} {i : EInstr} (h0 : Keeps s₀ s) :
    Keeps s₀ (State.cfgStep s c p i) := by
  unfold State.cfgStep
  try dsimp only
  repeat' first
    | (with_reducible intro _) | (with_reducible assumption) | (with_reducible apply State.noteRsvd_keeps)
    | (with_reducible apply State.updCore_keeps) | (with_reducible apply State.retire_keeps)
    | (fail_if_no_progress with_reducible apply Keeps.update) | (with_reducible apply Keeps.ite) | split
    | (dsimp only)

theorem State.cvStep_keeps {s : State} {c : CoreId} {i : EInstr} (h0 : Keeps s₀ s) :
    Keeps s₀ (State.cvStep s c i) := by
  unfold State.cvStep
  try dsimp only
  repeat' first
    | (with_reducible intro _) | (with_reducible assumption) | (with_reducible apply State.updCore_keeps)
    | (with_reducible apply State.retire_keeps) | (fail_if_no_progress with_reducible apply Keeps.update)
    | (with_reducible apply Keeps.ite) | split | (dsimp only)

theorem State.syncDone_keeps {s : State} {c : CoreId} {i : EInstr} {f : SeqRegs → SeqRegs} (h0 : Keeps s₀ s) :
    Keeps s₀ (State.syncDone s c i f) := by
  unfold State.syncDone
  try dsimp only
  repeat' first
    | (with_reducible intro _) | (with_reducible assumption) | (with_reducible apply State.retire_keeps)
    | (with_reducible apply State.updCore_keeps) | (fail_if_no_progress with_reducible apply Keeps.update)
    | (dsimp only)

theorem State.unbind_keeps {s : State} {c : CoreId} {t : Nat} (h0 : Keeps s₀ s) :
    Keeps s₀ (State.unbind s c t) := by
  unfold State.unbind
  try dsimp only
  repeat' first
    | (with_reducible intro _) | (with_reducible assumption) | (with_reducible apply State.setCluster_keeps)
    | (fail_if_no_progress with_reducible apply Keeps.update) | (with_reducible apply Keeps.ite)
    | (with_reducible apply KeepsO.bind) | split | (dsimp only)

theorem State.phaseStep_keeps {s : State} {c : CoreId} {i : EInstr} (h0 : Keeps s₀ s) :
    KeepsO s₀ (State.phaseStep s c i) := by
  unfold State.phaseStep
  try dsimp only
  repeat' first
    | (with_reducible intro _) | (with_reducible assumption) | (with_reducible apply State.syncDone_keeps)
    | (with_reducible apply State.updCore_keeps) | (with_reducible apply State.releaseGrant_keeps)
    | (fail_if_no_progress with_reducible apply Keeps.update) | (with_reducible apply Keeps.ite)
    | (with_reducible apply KeepsO.ite) | (with_reducible apply KeepsO.some) | (with_reducible exact KeepsO.none)
    | split | (dsimp only)

theorem State.waitAway_keeps {s : State} {c : CoreId} (h0 : Keeps s₀ s) :
    Keeps s₀ (State.waitAway s c) := by
  unfold State.waitAway
  try dsimp only
  repeat' first
    | (with_reducible intro _) | (with_reducible assumption) | (with_reducible apply State.updCore_keeps)
    | (with_reducible apply State.releaseGrant_keeps) | (fail_if_no_progress with_reducible apply Keeps.update)
    | (with_reducible apply Keeps.ite) | split | (dsimp only)

theorem State.tellB_keeps {s : State} {c : CoreId} {v : W64} (h0 : Keeps s₀ s) :
    Keeps s₀ (State.tellB s c v) := by
  unfold State.tellB
  try dsimp only
  repeat' first
    | (with_reducible intro _) | (with_reducible assumption) | (with_reducible apply State.updCore_keeps)
    | (fail_if_no_progress with_reducible apply Keeps.update) | (with_reducible apply Keeps.ite) | split
    | (dsimp only)

theorem State.semResult_keeps {s : State} {c : CoreId} {granted : Bool} (h0 : Keeps s₀ s) :
    Keeps s₀ (State.semResult s c granted) := by
  unfold State.semResult
  try dsimp only
  repeat' first
    | (with_reducible intro _) | (with_reducible assumption) | (with_reducible apply State.tellB_keeps)
    | (with_reducible apply State.updCore_keeps) | (with_reducible apply State.syncDone_keeps)
    | (fail_if_no_progress with_reducible apply Keeps.update) | (with_reducible apply Keeps.ite) | split
    | (dsimp only)

theorem State.takeFromA_keeps {s : State} {c : CoreId} (h0 : Keeps s₀ s) :
    Keeps s₀ (State.takeFromA s c) := by
  unfold State.takeFromA
  try dsimp only
  repeat' first
    | (with_reducible intro _) | (with_reducible assumption) | (with_reducible apply State.updCore_keeps)
    | (fail_if_no_progress with_reducible apply Keeps.update) | (dsimp only)

theorem State.askDie0_keeps {s : State} {c : CoreId} {m : Msg} (h0 : Keeps s₀ s) :
    Keeps s₀ (State.askDie0 s c m) := by
  unfold State.askDie0
  try dsimp only
  repeat' first
    | (with_reducible intro _) | (with_reducible assumption) | (with_reducible apply State.sendMsg_keeps)
    | (with_reducible apply State.updCore_keeps) | (fail_if_no_progress with_reducible apply Keeps.update)
    | (dsimp only)

theorem State.poolResult_keeps {s : State} {c : CoreId} {value : W64} {ok : Bool} (h0 : Keeps s₀ s) :
    Keeps s₀ (State.poolResult s c value ok) := by
  unfold State.poolResult
  try dsimp only
  repeat' first
    | (with_reducible intro _) | (with_reducible assumption) | (with_reducible apply State.engFault_keeps)
    | (with_reducible apply State.tellB_keeps) | (with_reducible apply State.syncDone_keeps)
    | (fail_if_no_progress with_reducible apply Keeps.update) | (with_reducible apply Keeps.ite) | split
    | (dsimp only)

theorem State.alloc0_keeps {s : State} {c : CoreId} {n : Nat} (h0 : Keeps s₀ s) :
    Keeps s₀ (State.alloc0 s c n).1 := by
  unfold State.alloc0
  try dsimp only
  repeat' first
    | (with_reducible intro _) | (with_reducible assumption) | (with_reducible apply State.draw_keeps)
    | (with_reducible apply State.setCluster_keeps) | (fail_if_no_progress with_reducible apply Keeps.update)
    | (with_reducible apply Keeps.ite) | (with_reducible apply Keeps.ite1)
    | (with_reducible refine Keeps.of_eq2 ?_ (by assumption)) | split | (dsimp only)

theorem State.free0_keeps {s : State} {c : CoreId} {a : Nat} (h0 : Keeps s₀ s) :
    KeepsO s₀ (State.free0 s c a) := by
  unfold State.free0
  try dsimp only
  repeat' first
    | (with_reducible intro _) | (with_reducible assumption) | (with_reducible apply State.setCluster_keeps)
    | (fail_if_no_progress with_reducible apply Keeps.update) | (with_reducible apply Keeps.ite)
    | (with_reducible apply KeepsO.ite) | (with_reducible apply KeepsO.some) | (with_reducible exact KeepsO.none)
    | split | (dsimp only)

theorem State.wgBind_keeps {s : State} {c : CoreId} {i : EInstr} (h0 : Keeps s₀ s) :
    Keeps s₀ (State.wgBind s c i) := by
  unfold State.wgBind
  try dsimp only
  repeat' first
    | (with_reducible intro _) | (with_reducible assumption) | (with_reducible apply State.engFault_keeps)
    | (with_reducible apply State.csRead_keeps) | (with_reducible apply State.unbind_keeps)
    | (with_reducible apply State.setCluster_keeps) | (with_reducible apply State.updCore_keeps)
    | (with_reducible apply State.syncDone_keeps) | (fail_if_no_progress with_reducible apply Keeps.update)
    | (with_reducible apply Keeps.ite) | (with_reducible apply KeepsO.bind)
    | (with_reducible refine Keeps.of_eq ?_ (by assumption)) | split | (dsimp only) | (dsimp only [id])

theorem State.wgRel_keeps {s : State} {c : CoreId} {i : EInstr} (h0 : Keeps s₀ s) :
    Keeps s₀ (State.wgRel s c i) := by
  unfold State.wgRel
  try dsimp only
  repeat' first
    | (with_reducible intro _) | (with_reducible assumption) | (with_reducible apply State.engFault_keeps)
    | (with_reducible apply State.setCluster_keeps) | (with_reducible apply State.updCore_keeps)
    | (with_reducible apply State.syncDone_keeps) | (fail_if_no_progress with_reducible apply Keeps.update)
    | (with_reducible apply Keeps.ite) | (with_reducible apply Keeps.foldl) | (with_reducible apply Keeps.foldl1)
    | (with_reducible apply KeepsO.bind) | split | (dsimp only) | (dsimp only [id])

theorem State.syncStep_keeps {s : State} {c : CoreId} {i : EInstr} (h0 : Keeps s₀ s) :
    KeepsO s₀ (State.syncStep s c i) := by
  unfold State.syncStep
  try dsimp only
  repeat' first
    | (with_reducible intro _) | (with_reducible assumption) | (with_reducible apply State.engFault_keeps)
    | (with_reducible apply State.syncDone_keeps) | (with_reducible apply State.updCore_keeps)
    | (with_reducible apply State.unbind_keeps) | (with_reducible apply State.phaseStep_keeps)
    | (with_reducible apply State.waitAway_keeps) | (with_reducible apply State.setCluster_keeps)
    | (with_reducible apply State.semResult_keeps) | (with_reducible apply State.takeFromA_keeps)
    | (with_reducible apply State.askDie0_keeps) | (with_reducible apply State.tellB_keeps)
    | (with_reducible apply State.sendMsg_keeps) | (with_reducible apply State.poolResult_keeps)
    | (with_reducible apply State.alloc0_keeps) | (with_reducible apply State.free0_keeps)
    | (with_reducible apply State.wgBind_keeps) | (with_reducible apply State.wgRel_keeps)
    | (fail_if_no_progress with_reducible apply Keeps.update) | (with_reducible apply Keeps.ite)
    | (with_reducible apply KeepsO.ite) | (with_reducible apply KeepsO.some) | (with_reducible apply KeepsO.bind)
    | (with_reducible exact KeepsO.none) | (with_reducible refine Keeps.of_eq ?_ (by assumption))
    | (with_reducible refine KeepsO.of_eq ?_ (by assumption)) | split | (dsimp only)

theorem State.reachPoint_keeps {s : State} {c : CoreId} (h0 : Keeps s₀ s) :
    Keeps s₀ (State.reachPoint s c) := by
  unfold State.reachPoint
  try dsimp only
  repeat' first
    | (with_reducible intro _) | (with_reducible assumption) | (with_reducible apply State.updCore_keeps)
    | (with_reducible apply State.setLaunch_keeps) | (fail_if_no_progress with_reducible apply Keeps.update)
    | (with_reducible apply Keeps.ite) | (with_reducible apply KeepsO.bind) | split | (dsimp only)

theorem State.pairGate_keeps {s : State} {c : CoreId} {go : State → Option State} (h0 : Keeps s₀ s) (h2 : ∀ y0, Keeps s₀ y0 → KeepsO s₀ (go y0)) :
    KeepsO s₀ (State.pairGate s c go) := by
  unfold State.pairGate
  try dsimp only
  repeat' first
    | (with_reducible intro _) | (with_reducible assumption) | (with_reducible apply h2)
    | (with_reducible apply State.reachPoint_keeps) | (with_reducible apply Keeps.ite)
    | (with_reducible apply KeepsO.ite) | (with_reducible apply KeepsO.some) | (with_reducible exact KeepsO.none)
    | split | (dsimp only)

theorem State.releaseSems_keeps {s : State} {c : CoreId} (h0 : Keeps s₀ s) :
    Keeps s₀ (State.releaseSems s c) := by
  unfold State.releaseSems
  try dsimp only
  repeat' first
    | (with_reducible intro _) | (with_reducible assumption) | (with_reducible apply State.updCore_keeps)
    | (with_reducible apply State.sendMsg_keeps) | (fail_if_no_progress with_reducible apply Keeps.update)
    | (with_reducible apply Keeps.ite) | (with_reducible apply Keeps.foldl) | (with_reducible apply Keeps.foldl1)
    | split | (dsimp only) | (dsimp only [id])

theorem State.pauseTimer_keeps {s : State} {q : Nat} {l : Launch} (h0 : Keeps s₀ s) :
    Keeps s₀ (State.pauseTimer s q l) := by
  unfold State.pauseTimer
  try dsimp only
  repeat' first
    | (with_reducible intro _) | (with_reducible assumption) | (with_reducible apply State.setQueue_keeps)
    | (with_reducible apply Keeps.ite) | split | (dsimp only)

theorem State.partOver_keeps {s : State} {q : Nat} {ldie : Nat} (h0 : Keeps s₀ s) :
    Keeps s₀ (State.partOver s q ldie) := by
  unfold State.partOver
  try dsimp only
  repeat' first
    | (with_reducible intro _) | (with_reducible assumption) | (with_reducible apply State.setLaunch_keeps)
    | (fail_if_no_progress with_reducible apply Keeps.update) | split | (dsimp only)

theorem State.coreEnded_keeps {s : State} {c : CoreId} (h0 : Keeps s₀ s) :
    Keeps s₀ (State.coreEnded s c) := by
  unfold State.coreEnded
  try dsimp only
  repeat' first
    | (with_reducible intro _) | (with_reducible assumption) | (with_reducible apply State.releaseGrant_keeps)
    | (with_reducible apply State.setLaunch_keeps) | (with_reducible apply State.updCore_keeps)
    | (with_reducible apply State.holdCores_keeps) | (with_reducible apply State.pauseTimer_keeps)
    | (with_reducible apply State.ranOn_keeps) | (with_reducible apply State.setDie_keeps)
    | (with_reducible apply State.partOver_keeps) | (with_reducible apply State.sendMsg_keeps)
    | (fail_if_no_progress with_reducible apply Keeps.update) | (with_reducible apply Keeps.ite) | split
    | (dsimp only)

theorem State.stallStep_keeps {s : State} {c : CoreId} (h0 : Keeps s₀ s) :
    KeepsO s₀ (State.stallStep s c) := by
  unfold State.stallStep
  try dsimp only
  repeat' first
    | (with_reducible intro _) | (with_reducible assumption) | (with_reducible apply State.advance_keeps)
    | (with_reducible apply State.pairGate_keeps) | (with_reducible apply State.updCore_keeps)
    | (with_reducible apply State.releaseSems_keeps) | (with_reducible apply State.seqFault_keeps)
    | (with_reducible apply State.coreEnded_keeps) | (fail_if_no_progress with_reducible apply Keeps.update)
    | (with_reducible apply Keeps.ite) | (with_reducible apply KeepsO.ite) | (with_reducible apply KeepsO.some)
    | (with_reducible exact KeepsO.none) | (with_reducible refine KeepsO.of_eq ?_ (by assumption)) | split
    | (dsimp only)

theorem State.settleOne_keeps {s : State} {c : CoreId} (h0 : Keeps s₀ s) :
    KeepsO s₀ (State.settleOne s c) := by
  unfold State.settleOne
  try dsimp only
  repeat' first
    | (with_reducible intro _) | (with_reducible assumption) | (with_reducible apply State.draw_keeps)
    | (with_reducible apply State.engFault_keeps) | (with_reducible apply State.groupIssue_keeps)
    | (with_reducible apply State.cfgStep_keeps) | (with_reducible apply State.cvStep_keeps)
    | (with_reducible apply State.syncStep_keeps) | (with_reducible apply State.stallStep_keeps)
    | (fail_if_no_progress with_reducible apply Keeps.update) | (with_reducible apply Keeps.ite)
    | (with_reducible apply KeepsO.ite) | (with_reducible apply KeepsO.some) | (with_reducible apply KeepsO.bind)
    | (with_reducible exact KeepsO.none) | (with_reducible refine KeepsO.of_eq ?_ (by assumption))
    | (with_reducible refine Keeps.of_eq2 ?_ (by assumption)) | split | (dsimp only)

theorem State.settleN_keeps {s : State} {c : CoreId} {x2 : Nat} (h0 : Keeps s₀ s) :
    Keeps s₀ (State.settleN s c x2) := by
  revert h0
  fun_induction State.settleN s c x2
  try dsimp only
  repeat' first
    | (with_reducible intro _) | (with_reducible assumption) | (with_reducible apply State.settleOne_keeps)
    | (with_reducible apply_assumption) | (fail_if_no_progress with_reducible apply Keeps.update)
    | (with_reducible apply KeepsO.some) | (with_reducible exact KeepsO.none)
    | (with_reducible refine KeepsO.of_eq ?_ (by assumption)) | split | (dsimp only) | (dsimp +zetaDelta only)

theorem State.settle_keeps {s : State} {c : CoreId} (h0 : Keeps s₀ s) :
    Keeps s₀ (State.settle s c) := by
  unfold State.settle
  try dsimp only
  repeat' first
    | (with_reducible intro _) | (with_reducible assumption) | (with_reducible apply State.settleN_keeps)
    | (fail_if_no_progress with_reducible apply Keeps.update) | (with_reducible apply Keeps.ite) | split
    | (dsimp only)

theorem State.quietCheck_keeps {s : State} {c : CoreId} (h0 : Keeps s₀ s) :
    Keeps s₀ (State.quietCheck s c) := by
  unfold State.quietCheck
  try dsimp only
  repeat' first
    | (with_reducible intro _) | (with_reducible assumption) | (with_reducible apply State.sendMsg_keeps)
    | (with_reducible apply State.updCore_keeps) | (with_reducible apply State.releaseSems_keeps)
    | (fail_if_no_progress with_reducible apply Keeps.update) | (with_reducible apply Keeps.ite) | split
    | (dsimp only)

theorem State.waitOver_keeps {s : State} {c : CoreId} (h0 : Keeps s₀ s) :
    Keeps s₀ (State.waitOver s c) := by
  unfold State.waitOver
  try dsimp only
  repeat' first
    | (with_reducible intro _) | (with_reducible assumption) | (with_reducible apply State.updCore_keeps)
    | (fail_if_no_progress with_reducible apply Keeps.update) | (with_reducible apply Keeps.ite) | split
    | (dsimp only)

end Sys2Proof.Machine
end

