-- ==== Sys2Proof/Laws/KeepsVecOps.lean ====
section
/-!
SUPPORT. Every operation of Machine/VecOps.lean keeps what every operation keeps.
-/
set_option linter.unreachableTactic false
set_option linter.unusedTactic false
namespace Sys2Proof.Machine

variable {s₀ : State}

theorem State.vecFinish_keeps {s : State} {c : CoreId} {i : EInstr} (h0 : Keeps s₀ s) :
    Keeps s₀ (State.vecFinish s c i).1 := by
  unfold State.vecFinish
  try dsimp only
  repeat' first
    | (with_reducible intro _) | (with_reducible assumption) | (with_reducible apply State.updCore_keeps)
    | (with_reducible apply State.csRead_keeps) | (with_reducible apply State.csWrite_keeps)
    | (fail_if_no_progress with_reducible apply Keeps.update) | (with_reducible apply Keeps.ite)
    | (with_reducible apply Keeps.ite1) | (with_reducible refine Keeps.of_eq ?_ (by assumption)) | split
    | (dsimp only)

end Sys2Proof.Machine
end

