-- ==== Sys2Proof/Laws/KeepsCoreRows.lean ====
section
/-!
SUPPORT. Every operation of Machine/CoreRows.lean keeps what every operation keeps.
-/
set_option linter.unreachableTactic false
set_option linter.unusedTactic false
namespace Sys2Proof.Machine

variable {s₀ : State}

theorem State.unorder_keeps {s : State} {c : CoreId} {i : EInstr} (h0 : Keeps s₀ s) :
    Keeps s₀ (State.unorder s c i) := by
  unfold State.unorder
  try dsimp only
  repeat' first
    | (with_reducible intro _) | (with_reducible assumption) | (with_reducible apply State.draw_keeps)
    | (with_reducible apply State.updCore_keeps) | (fail_if_no_progress with_reducible apply Keeps.update)
    | (with_reducible apply Keeps.ite) | (with_reducible apply Keeps.foldl) | (with_reducible apply Keeps.foldl1)
    | (with_reducible refine Keeps.of_eq2 ?_ (by assumption)) | split | (dsimp only)

theorem State.arrayComplete_keeps {s : State} {a : ArrayId} (h0 : Keeps s₀ s) :
    Keeps s₀ (State.arrayComplete s a) := by
  unfold State.arrayComplete
  try dsimp only
  repeat' first
    | (with_reducible intro _) | (with_reducible assumption) | (with_reducible apply State.mmRunAll_keeps)
    | (with_reducible apply State.updCore_keeps) | (with_reducible apply State.engFault_keeps)
    | (with_reducible apply State.updArr_keeps) | (with_reducible apply State.unorder_keeps)
    | (with_reducible apply State.settle_keeps) | (fail_if_no_progress with_reducible apply Keeps.update)
    | (with_reducible apply Keeps.ite) | (with_reducible apply Keeps.foldl) | (with_reducible apply Keeps.foldl1)
    | (with_reducible refine Keeps.of_eq ?_ (by assumption)) | split | (dsimp only)

theorem State.arrayIssue_keeps {s : State} {a : ArrayId} (h0 : Keeps s₀ s) :
    Keeps s₀ (State.arrayIssue s a) := by
  unfold State.arrayIssue
  try dsimp only
  repeat' first
    | (with_reducible intro _) | (with_reducible assumption) | (with_reducible apply State.draw_keeps)
    | (with_reducible apply State.engFault_keeps) | (with_reducible apply State.settle_keeps)
    | (with_reducible apply State.updCore_keeps) | (with_reducible apply State.setArr_keeps)
    | (with_reducible apply State.groupIssue_keeps) | (fail_if_no_progress with_reducible apply Keeps.update)
    | (with_reducible apply Keeps.ite) | (with_reducible refine Keeps.of_eq2 ?_ (by assumption)) | split
    | (dsimp only)

theorem State.barrierComplete_keeps {s : State} {k : ClusterId} {b : Nat} (h0 : Keeps s₀ s) :
    Keeps s₀ (State.barrierComplete s k b) := by
  unfold State.barrierComplete
  try dsimp only
  repeat' first
    | (with_reducible intro _) | (with_reducible assumption) | (with_reducible apply State.settle_keeps)
    | (with_reducible apply State.waitOver_keeps) | (with_reducible apply State.syncDone_keeps)
    | (with_reducible apply State.updCore_keeps) | (fail_if_no_progress with_reducible apply Keeps.update)
    | (with_reducible apply Keeps.ite) | (with_reducible apply Keeps.foldl) | (with_reducible apply Keeps.foldl1)
    | split | (dsimp only)

theorem State.codeFetch_keeps {s : State} {c : CoreId} (h0 : Keeps s₀ s) :
    Keeps s₀ (State.codeFetch s c) := by
  unfold State.codeFetch
  try dsimp only
  repeat' first
    | (with_reducible intro _) | (with_reducible assumption) | (with_reducible apply State.readVa_keeps)
    | (with_reducible apply State.faultAccess_keeps) | (with_reducible apply State.progFault_keeps)
    | (with_reducible apply State.busDone_keeps) | (with_reducible apply State.updCore_keeps)
    | (with_reducible apply State.moved_keeps) | (fail_if_no_progress with_reducible apply Keeps.update)
    | (with_reducible apply Keeps.ite) | (with_reducible apply Keeps.foldl) | (with_reducible apply Keeps.foldl1)
    | (with_reducible refine Keeps.of_eq ?_ (by assumption)) | split | (dsimp only)

theorem State.codeViolation_keeps {s : State} {u : ResetUnit} (h0 : Keeps s₀ s) :
    Keeps s₀ (State.codeViolation s u) := by
  unfold State.codeViolation
  try dsimp only
  repeat' first
    | (with_reducible intro _) | (with_reducible assumption) | (with_reducible apply State.stopCore_keeps)
    | (with_reducible apply State.startEvent_keeps) | (with_reducible apply State.report_keeps)
    | (with_reducible apply State.seqFault_keeps) | (with_reducible apply State.draw_keeps)
    | (fail_if_no_progress with_reducible apply Keeps.update)
    | (with_reducible refine Keeps.of_eq2 ?_ (by assumption)) | split | (dsimp only)

theorem State.hdrFault_keeps {s : State} {c : CoreId} {code : Nat} {addr : Nat} {info : Nat} (h0 : Keeps s₀ s) :
    Keeps s₀ (State.hdrFault s c code addr info) := by
  unfold State.hdrFault
  try dsimp only
  repeat' first
    | (with_reducible intro _) | (with_reducible assumption) | (with_reducible apply State.progFault_keeps)
    | (dsimp only)

theorem State.densityChange_keeps {s : State} {a : ArrayId} (h0 : Keeps s₀ s) :
    Keeps s₀ (State.densityChange s a) := by
  unfold State.densityChange
  try dsimp only
  repeat' first
    | (with_reducible intro _) | (with_reducible assumption) | (with_reducible apply State.setArr_keeps)
    | (fail_if_no_progress with_reducible apply Keeps.update) | (with_reducible apply Keeps.ite) | split
    | (dsimp only)

theorem State.fillerDone_keeps {s : State} {a : ArrayId} {ok : Bool} (h0 : Keeps s₀ s) :
    Keeps s₀ (State.fillerDone s a ok) := by
  unfold State.fillerDone
  try dsimp only
  repeat' first
    | (with_reducible intro _) | (with_reducible assumption) | (with_reducible apply State.setArr_keeps)
    | (with_reducible apply State.draw_keeps) | (with_reducible apply State.report_keeps)
    | (with_reducible apply State.setSteward_keeps) | (with_reducible apply State.journal_keeps)
    | (fail_if_no_progress with_reducible apply Keeps.update) | (with_reducible apply Keeps.ite)
    | (with_reducible refine Keeps.of_eq2 ?_ (by assumption)) | split | (dsimp only)

theorem State.gatherExpiry_keeps {s : State} {a : ArrayId} (h0 : Keeps s₀ s) :
    Keeps s₀ (State.gatherExpiry s a) := by
  unfold State.gatherExpiry
  try dsimp only
  repeat' first
    | (with_reducible intro _) | (with_reducible assumption) | (with_reducible apply State.settle_keeps)
    | (with_reducible apply State.groupIssue_keeps) | (with_reducible apply Keeps.ite) | split | (dsimp only)

theorem State.haloMet_keeps {s : State} {c : CoreId} (h0 : Keeps s₀ s) :
    Keeps s₀ (State.haloMet s c) := by
  unfold State.haloMet
  try dsimp only
  repeat' first
    | (with_reducible intro _) | (with_reducible assumption) | (with_reducible apply State.settle_keeps)
    | (with_reducible apply State.waitOver_keeps) | (with_reducible apply State.syncDone_keeps)
    | (fail_if_no_progress with_reducible apply Keeps.update) | (with_reducible apply Keeps.ite) | split
    | (dsimp only)

theorem State.headerCheck_keeps {s : State} {c : CoreId} (h0 : Keeps s₀ s) :
    Keeps s₀ (State.headerCheck s c) := by
  unfold State.headerCheck
  try dsimp only
  repeat' first
    | (with_reducible intro _) | (with_reducible assumption) | (with_reducible apply State.hdrFault_keeps)
    | (with_reducible apply State.readVa_keeps) | (with_reducible apply State.faultAccess_keeps)
    | (with_reducible apply State.busDone_keeps) | (with_reducible apply State.updCore_keeps)
    | (with_reducible apply State.moved_keeps) | (fail_if_no_progress with_reducible apply Keeps.update)
    | (with_reducible apply Keeps.ite) | (with_reducible refine Keeps.of_eq ?_ (by assumption)) | split | (dsimp only)

theorem State.idleExpiry_keeps {s : State} {a : ArrayId} (h0 : Keeps s₀ s) :
    Keeps s₀ (State.idleExpiry s a) := by
  unfold State.idleExpiry
  try dsimp only
  repeat' first
    | (with_reducible intro _) | (with_reducible assumption) | (with_reducible apply State.setArr_keeps)
    | (fail_if_no_progress with_reducible apply Keeps.update) | (with_reducible apply Keeps.ite) | split
    | (dsimp only)

theorem State.loadGrant_keeps {s : State} {k : ClusterId} (h0 : Keeps s₀ s) :
    Keeps s₀ (State.loadGrant s k) := by
  unfold State.loadGrant
  try dsimp only
  repeat' first
    | (with_reducible intro _) | (with_reducible assumption) | (with_reducible apply State.settle_keeps)
    | (with_reducible apply State.updCore_keeps) | (with_reducible apply State.setCluster_keeps)
    | (fail_if_no_progress with_reducible apply Keeps.update) | (with_reducible apply Keeps.ite)
    | (with_reducible apply Keeps.foldl) | (with_reducible apply Keeps.foldl1) | split | (dsimp only)

theorem State.loadReturn_keeps {s : State} {c : CoreId} (h0 : Keeps s₀ s) :
    Keeps s₀ (State.loadReturn s c) := by
  unfold State.loadReturn
  try dsimp only
  repeat' first
    | (with_reducible intro _) | (with_reducible assumption) | (with_reducible apply State.advance_keeps)
    | (with_reducible apply State.updCore_keeps) | (fail_if_no_progress with_reducible apply Keeps.update)
    | (with_reducible apply Keeps.ite) | split | (dsimp only)

theorem State.streamComplete_keeps {s : State} {c : CoreId} (h0 : Keeps s₀ s) :
    Keeps s₀ (State.streamComplete s c) := by
  unfold State.streamComplete
  try dsimp only
  repeat' first
    | (with_reducible intro _) | (with_reducible assumption) | (with_reducible apply State.streamFinish_keeps)
    | (with_reducible apply State.streamAbort_keeps) | (with_reducible apply State.unorder_keeps)
    | (with_reducible apply State.settle_keeps) | (with_reducible apply State.updCore_keeps)
    | (fail_if_no_progress with_reducible apply Keeps.update) | (with_reducible refine Keeps.of_eq ?_ (by assumption))
    | split | (dsimp only)

theorem State.streamGo_keeps {s : State} {c : CoreId} {i : EInstr} {sdt : List Byte} (h0 : Keeps s₀ s) :
    Keeps s₀ (State.streamGo s c i sdt) := by
  unfold State.streamGo
  try dsimp only
  repeat' first
    | (with_reducible intro _) | (with_reducible assumption) | (with_reducible apply State.engFault_keeps)
    | (with_reducible apply State.updCore_keeps) | (with_reducible apply State.streamPrep_keeps)
    | (with_reducible apply State.streamAbort_keeps) | (with_reducible apply State.pumpStream_keeps)
    | (fail_if_no_progress with_reducible apply Keeps.update) | (with_reducible apply Keeps.ite)
    | (with_reducible apply Keeps.foldl) | (with_reducible apply Keeps.foldl1)
    | (with_reducible refine Keeps.of_eq ?_ (by assumption)) | split | (dsimp only)

theorem State.streamIssue_keeps {s : State} {c : CoreId} (h0 : Keeps s₀ s) :
    Keeps s₀ (State.streamIssue s c) := by
  unfold State.streamIssue
  try dsimp only
  repeat' first
    | (with_reducible intro _) | (with_reducible assumption) | (with_reducible apply State.streamGo_keeps)
    | (with_reducible apply State.readVa_keeps) | (with_reducible apply State.faultAccess_keeps)
    | (with_reducible apply State.streamAbort_keeps) | (with_reducible apply State.busDone_keeps)
    | (fail_if_no_progress with_reducible apply Keeps.update) | (with_reducible apply Keeps.ite)
    | (with_reducible refine Keeps.of_eq ?_ (by assumption)) | split | (dsimp only)

theorem State.vectorComplete_keeps {s : State} {c : CoreId} (h0 : Keeps s₀ s) :
    Keeps s₀ (State.vectorComplete s c) := by
  unfold State.vectorComplete
  try dsimp only
  repeat' first
    | (with_reducible intro _) | (with_reducible assumption) | (with_reducible apply State.vecFinish_keeps)
    | (with_reducible apply State.engFault_keeps) | (with_reducible apply State.updCore_keeps)
    | (with_reducible apply State.unorder_keeps) | (with_reducible apply State.settle_keeps)
    | (with_reducible apply State.retire_keeps) | (fail_if_no_progress with_reducible apply Keeps.update)
    | (with_reducible apply Keeps.ite) | (with_reducible apply Keeps.foldl) | (with_reducible apply Keeps.foldl1)
    | (with_reducible refine Keeps.of_eq ?_ (by assumption)) | split | (dsimp only)

theorem State.vectorIssue_keeps {s : State} {c : CoreId} (h0 : Keeps s₀ s) :
    Keeps s₀ (State.vectorIssue s c) := by
  unfold State.vectorIssue
  try dsimp only
  repeat' first
    | (with_reducible intro _) | (with_reducible assumption) | (with_reducible apply State.engFault_keeps)
    | (with_reducible apply State.updCore_keeps) | (fail_if_no_progress with_reducible apply Keeps.update)
    | (with_reducible apply Keeps.ite) | (with_reducible apply Keeps.foldl) | (with_reducible apply Keeps.foldl1)
    | split | (dsimp only)

theorem onUnit_keeps {s : State} {u : ResetUnit} {t : State} (h0 : Keeps s₀ s) (h2 : Keeps s₀ t) :
    KeepsOut s₀ (onUnit s u t) := by
  unfold onUnit
  try dsimp only
  repeat' first
    | (with_reducible intro _) | (with_reducible assumption) | (with_reducible apply Keeps.ite)
    | (with_reducible apply KeepsOut.next) | (with_reducible exact KeepsOut.fault) | split | (dsimp only)

end Sys2Proof.Machine
end

