-- ==== Sys2Proof/Laws/KeepsCrownOps.lean ====
section
/-!
SUPPORT. Every operation of Machine/CrownOps.lean keeps what every operation keeps.
-/
set_option linter.unreachableTactic false
set_option linter.unusedTactic false
namespace Sys2Proof.Machine

variable {s₀ : State}

theorem State.portErr_keeps {s : State} {d : DieId} (h0 : Keeps s₀ s) :
    Keeps s₀ (State.portErr s d) := by
  unfold State.portErr
  try dsimp only
  repeat' first
    | (with_reducible intro _) | (with_reducible assumption) | (fail_if_no_progress with_reducible apply Keeps.update)
    | (with_reducible apply Keeps.ite) | split | (dsimp only)

theorem State.crownErr_keeps {s : State} (h0 : Keeps s₀ s) :
    Keeps s₀ (State.crownErr s) := by
  unfold State.crownErr
  try dsimp only
  repeat' first
    | (with_reducible intro _) | (with_reducible assumption) | (with_reducible apply State.portErr_keeps)
    | (dsimp only)

theorem State.crownOk_keeps {s : State} (h0 : Keeps s₀ s) :
    Keeps s₀ (State.crownOk s) := by
  unfold State.crownOk
  try dsimp only
  repeat' first
    | (with_reducible intro _) | (with_reducible assumption) | (fail_if_no_progress with_reducible apply Keeps.update)
    | (dsimp only)

theorem State.rsvdWrite_keeps {s : State} {d : DieId} {v : W64} {m : W64} {rsv : W64} (h0 : Keeps s₀ s) :
    Keeps s₀ (State.rsvdWrite s d v m rsv) := by
  unfold State.rsvdWrite
  try dsimp only
  repeat' first
    | (with_reducible intro _) | (with_reducible assumption) | (with_reducible apply State.setDie_keeps)
    | (fail_if_no_progress with_reducible apply Keeps.update) | (with_reducible apply Keeps.ite) | split
    | (dsimp only)

theorem State.driverWrite_keeps {s : State} {role : Byte} {strb : Byte} {act : W64 → State} (h0 : Keeps s₀ s) (h3 : ∀ y0, Keeps s₀ (act y0)) :
    Keeps s₀ (State.driverWrite s role strb act) := by
  unfold State.driverWrite
  try dsimp only
  repeat' first
    | (with_reducible intro _) | (with_reducible assumption) | (with_reducible apply h3)
    | (with_reducible apply State.crownOk_keeps) | (with_reducible apply State.crownErr_keeps)
    | (fail_if_no_progress with_reducible apply Keeps.update) | (with_reducible apply Keeps.ite) | split
    | (dsimp only)

end Sys2Proof.Machine
end

