-- ==== Sys2Proof/Laws/KeepsHmOps.lean ====
section
/-!
SUPPORT. Every operation of Machine/HmOps.lean keeps what every operation keeps.
-/
set_option linter.unreachableTactic false
set_option linter.unusedTactic false
namespace Sys2Proof.Machine

variable {s₀ : State}

theorem State.hmTake_keeps {s : State} {d : DieId} {i : Nat} {v : W32} (h0 : Keeps s₀ s) :
    Keeps s₀ (State.hmTake s d i v) := by
  unfold State.hmTake
  try dsimp only
  repeat' first
    | (with_reducible intro _) | (with_reducible assumption) | (with_reducible apply State.setMonitor_keeps)
    | (with_reducible apply State.draw_keeps) | (fail_if_no_progress with_reducible apply Keeps.update)
    | (with_reducible apply Keeps.ite) | (with_reducible refine Keeps.of_eq2 ?_ (by assumption)) | split
    | (dsimp only)

theorem State.hmEvent_keeps {s : State} {d : DieId} {src : Nat} {sel : Nat → Bool} {v : W32} (h0 : Keeps s₀ s) :
    Keeps s₀ (State.hmEvent s d src sel v) := by
  unfold State.hmEvent
  try dsimp only
  repeat' first
    | (with_reducible intro _) | (with_reducible assumption) | (with_reducible apply State.hmTake_keeps)
    | (with_reducible apply Keeps.ite) | (with_reducible apply Keeps.foldl) | (with_reducible apply Keeps.foldl1)
    | split | (dsimp only)

end Sys2Proof.Machine
end

