-- ==== Sys2Proof/Laws/KeepsImages.lean ====
section
/-!
SUPPORT. Every operation of Machine/Images.lean keeps what every operation keeps.
-/
set_option linter.unreachableTactic false
set_option linter.unusedTactic false
namespace Sys2Proof.Machine

variable {s₀ : State}

theorem State.clearStore_keeps {s : State} {st : StoreId} (h0 : Keeps s₀ s) :
    Keeps s₀ (State.clearStore s st) := by
  unfold State.clearStore
  try dsimp only
  repeat' first
    | (with_reducible intro _) | (with_reducible assumption) | (with_reducible apply State.setCore_keeps)
    | (with_reducible apply State.setCluster_keeps) | (fail_if_no_progress with_reducible apply Keeps.update)
    | (with_reducible apply Keeps.ite) | split | (dsimp only)

theorem State.getBlocks_keeps {s : State} {st : StoreId} {q : Nat} {l : Launch} {va : Nat} {gen : Nat} {x6 : Nat} {x7 : Nat} (h0 : Keeps s₀ s) :
    Keeps s₀ (State.getBlocks s st q l va gen x6 x7).1 := by
  induction x6 generalizing s x7 with
  | zero => exact h0
  | succ k ih =>
    rw [State.getBlocks]
    refine Keeps.ite1 h0 ?_
    split
    · rename_i heq
      have h1 := State.busDone_keeps (d := (s.imageEngine st x7).die) (o := s.imageOwner st x7) (Keeps.of_eq (State.readVa_keeps h0) heq)
      exact Keeps.ite1 h1 (ih h1)
    · rename_i heq
      exact Keeps.of_eq (State.readVa_keeps h0) heq
    · rename_i heq
      exact Keeps.of_eq (State.readVa_keeps h0) heq
    · rename_i heq
      exact State.busDone_keeps (Keeps.of_eq (State.readVa_keeps h0) heq)

theorem State.imageFail_keeps {s : State} {d : DieId} {q : Nat} {ldie : Nat} {code : Nat} {info : Nat} (h0 : Keeps s₀ s) :
    Keeps s₀ (State.imageFail s d q ldie code info) := by
  unfold State.imageFail
  try dsimp only
  repeat' first
    | (with_reducible intro _) | (with_reducible assumption) | (with_reducible apply State.partFault_keeps)
    | (with_reducible apply State.stopPart_keeps) | (dsimp only)

theorem State.imageEnd_keeps {s : State} {st : StoreId} {q : Nat} {ldie : Nat} {l : Launch} {acc : Access} {j : ImageJob} {go : State → State} {x8 : State.ImageRes} (h0 : Keeps s₀ s) (h7 : ∀ y0, Keeps s₀ y0 → Keeps s₀ (go y0)) :
    Keeps s₀ (State.imageEnd s st q ldie l acc j go x8) := by
  unfold State.imageEnd
  try dsimp only
  repeat' first
    | (with_reducible intro _) | (with_reducible assumption) | (with_reducible apply h7)
    | (with_reducible apply State.setImg_keeps) | (with_reducible apply State.faultAccess_keeps)
    | (with_reducible apply State.imageFail_keeps) | split | (dsimp only)

theorem State.imageLoad_keeps {s : State} {st : StoreId} {q : Nat} {ldie : Nat} {l : Launch} {va : Nat} {n : Nat} {gen : Nat} {go : State → List (List Byte) → State} (h0 : Keeps s₀ s) (h8 : ∀ y0 y1, Keeps s₀ y0 → Keeps s₀ (go y0 y1)) :
    Keeps s₀ (State.imageLoad s st q ldie l va n gen go) := by
  unfold State.imageLoad
  try dsimp only
  repeat' first
    | (with_reducible intro _) | (with_reducible assumption) | (with_reducible apply h8)
    | (with_reducible apply State.getBlocks_keeps) | (with_reducible apply State.imageEnd_keeps)
    | (fail_if_no_progress with_reducible apply Keeps.update) | (with_reducible refine Keeps.of_eq ?_ (by assumption))
    | (dsimp only)

theorem State.takeState_keeps {s : State} {c : CoreId} {b : List Byte} (h0 : Keeps s₀ s) :
    Keeps s₀ (State.takeState s c b) := by
  unfold State.takeState
  try dsimp only
  repeat' first
    | (with_reducible intro _) | (with_reducible assumption) | (with_reducible apply State.updCore_keeps)
    | (with_reducible apply State.updArr_keeps) | (fail_if_no_progress with_reducible apply Keeps.update)
    | (with_reducible apply Keeps.ite) | (with_reducible apply Keeps.foldl) | (with_reducible apply Keeps.foldl1)
    | (with_reducible apply KeepsO.bind) | split | (dsimp only)

theorem State.wakeCluster_keeps {s : State} {q : Nat} (h0 : Keeps s₀ s) :
    Keeps s₀ (State.wakeCluster s q) := by
  unfold State.wakeCluster
  try dsimp only
  repeat' first
    | (with_reducible intro _) | (with_reducible assumption) | (with_reducible apply State.setLaunch_keeps)
    | (with_reducible apply State.updCore_keeps) | (fail_if_no_progress with_reducible apply Keeps.update)
    | (with_reducible apply Keeps.ite) | (with_reducible apply Keeps.foldl) | (with_reducible apply Keeps.foldl1)
    | split | (dsimp only)

theorem State.coreRestore_keeps {s : State} {c : CoreId} (h0 : Keeps s₀ s) :
    Keeps s₀ (State.coreRestore s c) := by
  unfold State.coreRestore
  try dsimp only
  repeat' first
    | (with_reducible intro _) | (with_reducible assumption) | (with_reducible apply State.imageLoad_keeps)
    | (with_reducible apply State.updCore_keeps) | (with_reducible apply State.takeState_keeps)
    | (with_reducible apply State.setLaunch_keeps) | (with_reducible apply State.wakeCluster_keeps)
    | (fail_if_no_progress with_reducible apply Keeps.update) | (with_reducible apply Keeps.ite)
    | (with_reducible apply KeepsO.bind) | split | (dsimp only)

theorem State.takeGen_keeps {s : State} {l : Launch} (h0 : Keeps s₀ s) :
    Keeps s₀ (State.takeGen s l) := by
  unfold State.takeGen
  try dsimp only
  repeat' first
    | (with_reducible intro _) | (with_reducible assumption) | (with_reducible apply State.setCtx_keeps)
    | (fail_if_no_progress with_reducible apply Keeps.update) | (dsimp only)

theorem State.saveJob_keeps {s : State} {st : StoreId} {l : Launch} {blks : List (List Byte)} (h0 : Keeps s₀ s) :
    Keeps s₀ (State.saveJob s st l blks).1 := by
  unfold State.saveJob
  try dsimp only
  repeat' first
    | (with_reducible intro _) | (with_reducible assumption) | (with_reducible apply State.takeGen_keeps)
    | (fail_if_no_progress with_reducible apply Keeps.update) | split | (dsimp only)

theorem State.putBlocks_keeps {s : State} {st : StoreId} {q : Nat} {l : Launch} {va : Nat} {x5 : List (List Byte)} {x6 : Nat} (h0 : Keeps s₀ s) :
    Keeps s₀ (State.putBlocks s st q l va x5 x6).1 := by
  induction x5 generalizing s x6 with
  | nil => exact h0
  | cons b bs ih =>
    rw [State.putBlocks]
    refine Keeps.ite1 h0 ?_
    split
    · rename_i heq
      exact ih (State.busDone_keeps (Keeps.of_eq (State.writeVa_keeps h0) heq))
    · rename_i heq
      exact Keeps.of_eq (State.writeVa_keeps h0) heq
    · rename_i heq
      exact Keeps.of_eq (State.writeVa_keeps h0) heq
    · rename_i heq
      exact State.busDone_keeps (Keeps.of_eq (State.writeVa_keeps h0) heq)

theorem State.imageSave_keeps {s : State} {st : StoreId} {q : Nat} {ldie : Nat} {l : Launch} {va : Nat} {j : ImageJob} {go : State → State} (h0 : Keeps s₀ s) (h7 : ∀ y0, Keeps s₀ y0 → Keeps s₀ (go y0)) :
    Keeps s₀ (State.imageSave s st q ldie l va j go) := by
  unfold State.imageSave
  try dsimp only
  repeat' first
    | (with_reducible intro _) | (with_reducible assumption) | (with_reducible apply h7)
    | (with_reducible apply State.putBlocks_keeps) | (with_reducible apply State.imageEnd_keeps)
    | (fail_if_no_progress with_reducible apply Keeps.update) | (with_reducible refine Keeps.of_eq ?_ (by assumption))
    | (dsimp only)

theorem State.coreSave_keeps {s : State} {c : CoreId} (h0 : Keeps s₀ s) :
    Keeps s₀ (State.coreSave s c) := by
  unfold State.coreSave
  try dsimp only
  repeat' first
    | (with_reducible intro _) | (with_reducible assumption) | (with_reducible apply State.csRead_keeps)
    | (with_reducible apply State.imageFail_keeps) | (with_reducible apply State.saveJob_keeps)
    | (with_reducible apply State.imageSave_keeps) | (with_reducible apply State.setLaunch_keeps)
    | (with_reducible apply State.updCore_keeps) | (fail_if_no_progress with_reducible apply Keeps.update)
    | (with_reducible apply Keeps.ite) | (with_reducible apply KeepsO.bind)
    | (with_reducible refine Keeps.of_eq ?_ (by assumption)) | split | (dsimp only)

theorem State.imageAbort_keeps {s : State} {c : CoreId} {ofMap : Bool} {code : Nat} {va : Nat} (h0 : Keeps s₀ s) :
    Keeps s₀ (State.imageAbort s c ofMap code va) := by
  unfold State.imageAbort
  try dsimp only
  repeat' first
    | (with_reducible intro _) | (with_reducible assumption) | (with_reducible apply State.partFault_keeps)
    | (with_reducible apply State.stopPart_keeps) | (fail_if_no_progress with_reducible apply Keeps.update)
    | (with_reducible apply Keeps.ite) | split | (dsimp only)

theorem State.mapBlocks_keeps {s : State} {k : ClusterId} {x2 : List Nat} (h0 : Keeps s₀ s) :
    Keeps s₀ (State.mapBlocks s k x2).1 := by
  revert h0
  fun_induction State.mapBlocks s k x2
  try dsimp only
  repeat' first
    | (with_reducible intro _) | (with_reducible assumption) | (with_reducible apply State.msRead_keeps)
    | (with_reducible apply_assumption) | (fail_if_no_progress with_reducible apply Keeps.update)
    | (with_reducible refine Keeps.of_eq ?_ (by assumption)) | split | (dsimp only) | (dsimp +zetaDelta only)

theorem State.mapRestore_keeps {s : State} {k : ClusterId} (h0 : Keeps s₀ s) :
    Keeps s₀ (State.mapRestore s k) := by
  unfold State.mapRestore
  try dsimp only
  repeat' first
    | (with_reducible intro _) | (with_reducible assumption) | (with_reducible apply State.imageLoad_keeps)
    | (with_reducible apply State.msWrite_keeps) | (with_reducible apply State.setCluster_keeps)
    | (with_reducible apply State.setLaunch_keeps) | (with_reducible apply State.wakeCluster_keeps)
    | (fail_if_no_progress with_reducible apply Keeps.update) | (with_reducible apply Keeps.ite)
    | (with_reducible apply Keeps.foldl) | (with_reducible apply Keeps.foldl1) | (with_reducible apply KeepsO.bind)
    | (with_reducible refine Keeps.of_eq ?_ (by assumption)) | split | (dsimp only)

theorem State.mapSave_keeps {s : State} {k : ClusterId} (h0 : Keeps s₀ s) :
    Keeps s₀ (State.mapSave s k) := by
  unfold State.mapSave
  try dsimp only
  repeat' first
    | (with_reducible intro _) | (with_reducible assumption) | (with_reducible apply State.mapBlocks_keeps)
    | (with_reducible apply State.imageFail_keeps) | (with_reducible apply State.saveJob_keeps)
    | (with_reducible apply State.imageSave_keeps) | (with_reducible apply State.setLaunch_keeps)
    | (with_reducible apply State.setCluster_keeps) | (fail_if_no_progress with_reducible apply Keeps.update)
    | (with_reducible apply Keeps.ite) | (with_reducible apply KeepsO.bind)
    | (with_reducible refine Keeps.of_eq ?_ (by assumption)) | split | (dsimp only)

theorem State.onStore_keeps {s : State} {st : StoreId} {t : State} (h0 : Keeps s₀ s) (h2 : Keeps s₀ t) :
    KeepsOut s₀ (State.onStore s st t) := by
  unfold State.onStore
  try dsimp only
  repeat' first
    | (with_reducible intro _) | (with_reducible assumption) | (with_reducible apply onCore_keeps)
    | (with_reducible apply onCluster_keeps) | (fail_if_no_progress with_reducible apply Keeps.update)
    | (with_reducible apply KeepsOut.next) | (with_reducible exact KeepsOut.fault) | split | (dsimp only)

theorem State.scrub_keeps {s : State} {st : StoreId} {w : Nat} (h0 : Keeps s₀ s) :
    Keeps s₀ (State.scrub s st w) := by
  unfold State.scrub
  try dsimp only
  repeat' first
    | (with_reducible intro _) | (with_reducible assumption) | (with_reducible apply State.updCore_keeps)
    | (with_reducible apply State.progFault_keeps) | (with_reducible apply State.report_keeps)
    | (with_reducible apply State.setCore_keeps) | (with_reducible apply State.setCluster_keeps)
    | (with_reducible apply State.imageFail_keeps) | (fail_if_no_progress with_reducible apply Keeps.update)
    | (with_reducible apply Keeps.ite) | split | (dsimp only)

end Sys2Proof.Machine
end

