-- ==== Sys2Proof/Laws/KeepsQueue.lean ====
section
/-!
SUPPORT. Every operation of Machine/Queue.lean keeps what every operation keeps.
-/
set_option linter.unreachableTactic false
set_option linter.unusedTactic false
namespace Sys2Proof.Machine

variable {s₀ : State}

theorem State.cpRead_keeps {s : State} {d : DieId} {q : Nat} {p : Nat} {ctx : Nat} {va : Nat} {n : Nat} (h0 : Keeps s₀ s) :
    Keeps s₀ (State.cpRead s d q p ctx va n).1 := by
  unfold State.cpRead
  try dsimp only
  repeat' first
    | (with_reducible intro _) | (with_reducible assumption) | (with_reducible apply State.readVa_keeps)
    | (fail_if_no_progress with_reducible apply Keeps.update) | (with_reducible refine Keeps.of_eq ?_ (by assumption))
    | split | (dsimp only)

theorem State.readTree_keeps {s : State} {d : DieId} {q : Nat} {p : Nat} {ctx : Nat} {pos : Nat} {safe : Bool} {x7 : Nat} {x8 : List (List Byte)} (h0 : Keeps s₀ s) :
    Keeps s₀ (State.readTree s d q p ctx pos safe x7 x8).1 := by
  revert h0
  fun_induction State.readTree s d q p ctx pos safe x7 x8
  try dsimp only
  repeat' first
    | (with_reducible intro _) | (with_reducible assumption) | (with_reducible apply State.cpRead_keeps)
    | (with_reducible apply_assumption) | (fail_if_no_progress with_reducible apply Keeps.update)
    | (with_reducible apply Keeps.ite) | (with_reducible apply Keeps.ite1) | (with_reducible apply Keeps.foldl)
    | (with_reducible apply Keeps.foldl1) | (with_reducible refine Keeps.of_eq ?_ (by assumption)) | split
    | (dsimp only) | (dsimp +zetaDelta only)

theorem State.readSdts_keeps {s : State} {d : DieId} {q : Nat} {p : Nat} {ctx : Nat} {x5 : List (List Byte)} (h0 : Keeps s₀ s) :
    Keeps s₀ (State.readSdts s d q p ctx x5).1 := by
  induction x5 generalizing s <;> rw [State.readSdts]
  try dsimp only
  repeat' first
    | (with_reducible intro _) | (with_reducible assumption) | (with_reducible apply State.cpRead_keeps)
    | (with_reducible apply_assumption) | (fail_if_no_progress with_reducible apply Keeps.update)
    | (with_reducible apply Keeps.ite) | (with_reducible apply Keeps.ite1)
    | (with_reducible refine Keeps.of_eq ?_ (by assumption)) | split | (dsimp only) | (dsimp +zetaDelta only)

theorem State.acceptRead_keeps {s : State} {q : QueueId} (h0 : Keeps s₀ s) :
    Keeps s₀ (State.acceptRead s q).1 := by
  unfold State.acceptRead
  try dsimp only
  repeat' first
    | (with_reducible intro _) | (with_reducible assumption) | (with_reducible apply State.cpRead_keeps)
    | (with_reducible apply State.readTree_keeps) | (with_reducible apply State.readSdts_keeps)
    | (fail_if_no_progress with_reducible apply Keeps.update) | (with_reducible apply Keeps.ite)
    | (with_reducible apply Keeps.ite1) | (with_reducible refine Keeps.of_eq ?_ (by assumption)) | split
    | (dsimp only)

theorem State.pinEntry_keeps {s : State} {d : DieId} {e : RangeEnt} {tag : Nat × Nat} (h0 : Keeps s₀ s) :
    Keeps s₀ (State.pinEntry s d e tag) := by
  unfold State.pinEntry
  try dsimp only
  repeat' first
    | (with_reducible intro _) | (with_reducible assumption) | (with_reducible apply State.setDie_keeps)
    | (fail_if_no_progress with_reducible apply Keeps.update) | (with_reducible apply Keeps.ite) | split
    | (dsimp only)

theorem State.pinFrom_keeps {s : State} {d : DieId} {p : Nat} {tag : Nat × Nat} {hi : Nat} {x5 : Nat} {x6 : Nat} (h0 : Keeps s₀ s) :
    Keeps s₀ (State.pinFrom s d p tag hi x5 x6) := by
  induction x5 generalizing s x6 with
  | zero => exact h0
  | succ fuel ih =>
    rw [State.pinFrom]
    refine Keeps.ite h0 ?_
    split
    · exact ih (State.pinEntry_keeps h0)
    · exact ih h0
    · exact h0

theorem State.pinAll_keeps {s : State} {d : DieId} {p : Nat} {tag : Nat × Nat} {ws : List (Nat × Nat)} (h0 : Keeps s₀ s) :
    Keeps s₀ (State.pinAll s d p tag ws) := by
  unfold State.pinAll
  try dsimp only
  repeat' first
    | (with_reducible intro _) | (with_reducible assumption) | (with_reducible apply State.pinFrom_keeps)
    | (with_reducible apply State.setDie_keeps) | (fail_if_no_progress with_reducible apply Keeps.update)
    | (with_reducible apply Keeps.ite) | (with_reducible apply Keeps.foldl) | (with_reducible apply Keeps.foldl1)
    | split | (dsimp only)

theorem State.accept_keeps {s : State} {q : QueueId} (h0 : Keeps s₀ s) :
    Keeps s₀ (State.accept s q) := by
  unfold State.accept
  try dsimp only
  repeat' first
    | (with_reducible intro _) | (with_reducible assumption) | (with_reducible apply State.acceptRead_keeps)
    | (with_reducible apply State.busDone_keeps) | (with_reducible apply State.lose_keeps)
    | (with_reducible apply State.faultAccess_keeps) | (with_reducible apply State.startWalk_keeps)
    | (with_reducible apply State.pinAll_keeps) | (with_reducible apply State.addRefs_keeps)
    | (with_reducible apply State.putQueue_keeps) | (fail_if_no_progress with_reducible apply Keeps.update)
    | (with_reducible apply Keeps.ite) | (with_reducible refine Keeps.of_eq ?_ (by assumption)) | split | (dsimp only)

theorem State.unpin_keeps {s : State} {tag : Nat × Nat} (h0 : Keeps s₀ s) :
    Keeps s₀ (State.unpin s tag) := by
  unfold State.unpin
  try dsimp only
  repeat' first
    | (with_reducible intro _) | (with_reducible assumption) | (fail_if_no_progress with_reducible apply Keeps.update)
    | (dsimp only)

theorem State.updQueue_keeps {s : State} {q : QueueId} {f : Queue → Queue} (h0 : Keeps s₀ s) :
    Keeps s₀ (State.updQueue s q f) := by
  unfold State.updQueue
  try dsimp only
  repeat' first
    | (with_reducible intro _) | (with_reducible assumption) | (with_reducible apply State.setQueue_keeps)
    | (dsimp only)

theorem State.askSlot_keeps {s : State} {d : DieId} {ctx : Nat} (h0 : Keeps s₀ s) :
    Keeps s₀ (State.askSlot s d ctx) := by
  unfold State.askSlot
  try dsimp only
  repeat' first
    | (with_reducible intro _) | (with_reducible assumption) | (with_reducible apply State.setDie_keeps)
    | (fail_if_no_progress with_reducible apply Keeps.update) | (with_reducible apply Keeps.ite) | split
    | (dsimp only)

theorem State.ringDone_keeps {s : State} {q : QueueId} (h0 : Keeps s₀ s) :
    Keeps s₀ (State.ringDone s q) := by
  unfold State.ringDone
  try dsimp only
  repeat' first
    | (with_reducible intro _) | (with_reducible assumption) | (with_reducible apply State.unpin_keeps)
    | (with_reducible apply State.dropRefs_keeps) | (with_reducible apply State.putQueue_keeps)
    | (fail_if_no_progress with_reducible apply Keeps.update) | split | (dsimp only)

theorem State.cmdDone_keeps {s : State} {q : QueueId} {len : Nat} (h0 : Keeps s₀ s) :
    Keeps s₀ (State.cmdDone s q len) := by
  unfold State.cmdDone
  try dsimp only
  repeat' first
    | (with_reducible intro _) | (with_reducible assumption) | (with_reducible apply State.setQueue_keeps)
    | (with_reducible apply State.ringDone_keeps) | (with_reducible apply State.ranOn_keeps)
    | (with_reducible apply State.askSlot_keeps) | (fail_if_no_progress with_reducible apply Keeps.update)
    | (with_reducible apply Keeps.ite) | split | (dsimp only)

theorem State.cmdWait_keeps {s : State} {q : QueueId} {va : Nat} (h0 : Keeps s₀ s) :
    Keeps s₀ (State.cmdWait s q va) := by
  unfold State.cmdWait
  try dsimp only
  repeat' first
    | (with_reducible intro _) | (with_reducible assumption) | (with_reducible apply State.updQueue_keeps)
    | (fail_if_no_progress with_reducible apply Keeps.update) | (with_reducible apply Keeps.ite) | split
    | (dsimp only)

theorem State.cmdStall_keeps {s : State} {q : QueueId} {c : FaultCause} {r : Nat} {va : Nat} {acc : Access} (h0 : Keeps s₀ s) :
    Keeps s₀ (State.cmdStall s q c r va acc) := by
  unfold State.cmdStall
  try dsimp only
  repeat' first
    | (with_reducible intro _) | (with_reducible assumption) | (with_reducible apply State.updQueue_keeps)
    | (with_reducible apply State.faultAccess_keeps) | (fail_if_no_progress with_reducible apply Keeps.update)
    | (with_reducible apply Keeps.ite) | split | (dsimp only)

theorem State.cmdRead_keeps {s : State} {q : QueueId} {va : Nat} {n : Nat} {go : State → List Byte → State} (h0 : Keeps s₀ s) (h4 : ∀ y0 y1, Keeps s₀ y0 → Keeps s₀ (go y0 y1)) :
    Keeps s₀ (State.cmdRead s q va n go) := by
  unfold State.cmdRead
  try dsimp only
  repeat' first
    | (with_reducible intro _) | (with_reducible assumption) | (with_reducible apply h4)
    | (with_reducible apply State.readVa_keeps) | (with_reducible apply State.busDone_keeps)
    | (with_reducible apply State.cmdWait_keeps) | (with_reducible apply State.cmdStall_keeps)
    | (with_reducible apply State.lose_keeps) | (fail_if_no_progress with_reducible apply Keeps.update)
    | (with_reducible refine Keeps.of_eq ?_ (by assumption)) | split | (dsimp only)

theorem State.cmdWrite_keeps {s : State} {q : QueueId} {va : Nat} {bs : List Byte} {go : State → State} (h0 : Keeps s₀ s) (h4 : ∀ y0, Keeps s₀ y0 → Keeps s₀ (go y0)) :
    Keeps s₀ (State.cmdWrite s q va bs go) := by
  unfold State.cmdWrite
  try dsimp only
  repeat' first
    | (with_reducible intro _) | (with_reducible assumption) | (with_reducible apply h4)
    | (with_reducible apply State.writeVa_keeps) | (with_reducible apply State.busDone_keeps)
    | (with_reducible apply State.cmdWait_keeps) | (with_reducible apply State.cmdStall_keeps)
    | (with_reducible apply State.lose_keeps) | (fail_if_no_progress with_reducible apply Keeps.update)
    | (with_reducible refine Keeps.of_eq ?_ (by assumption)) | split | (dsimp only)

theorem State.saveTake_keeps {s : State} {q : Nat} (h0 : Keeps s₀ s) :
    Keeps s₀ (State.saveTake s q) := by
  unfold State.saveTake
  try dsimp only
  repeat' first
    | (with_reducible intro _) | (with_reducible assumption) | (with_reducible apply State.setLaunch_keeps)
    | (fail_if_no_progress with_reducible apply Keeps.update) | (with_reducible apply Keeps.ite) | split
    | (dsimp only)

theorem State.launchStart_keeps {s : State} {q : QueueId} {b : List Byte} (h0 : Keeps s₀ s) :
    Keeps s₀ (State.launchStart s q b) := by
  unfold State.launchStart
  try dsimp only
  repeat' first
    | (with_reducible intro _) | (with_reducible assumption) | (with_reducible apply State.lose_keeps)
    | (with_reducible apply State.updQueue_keeps) | (with_reducible apply State.saveTake_keeps)
    | (with_reducible apply State.setLaunch_keeps) | (with_reducible apply State.askSlot_keeps)
    | (with_reducible apply State.sendMsg_keeps) | (fail_if_no_progress with_reducible apply Keeps.update)
    | (with_reducible apply Keeps.ite) | split | (dsimp only)

theorem State.startTimer_keeps {s : State} {q : QueueId} {b : List Byte} (h0 : Keeps s₀ s) :
    Keeps s₀ (State.startTimer s q b) := by
  unfold State.startTimer
  try dsimp only
  repeat' first
    | (with_reducible intro _) | (with_reducible assumption) | (with_reducible apply State.updQueue_keeps)
    | (fail_if_no_progress with_reducible apply Keeps.update) | split | (dsimp only)

theorem State.opRow_keeps {s : State} {q : QueueId} {op : Nat} {run : State → List Byte → State} (h0 : Keeps s₀ s) (h3 : ∀ y0 y1, Keeps s₀ y0 → Keeps s₀ (run y0 y1)) :
    Keeps s₀ (State.opRow s q op run) := by
  unfold State.opRow
  try dsimp only
  repeat' first
    | (with_reducible intro _) | (with_reducible assumption) | (with_reducible apply h3)
    | (with_reducible apply State.startTimer_keeps) | (with_reducible apply State.cmdDone_keeps)
    | (fail_if_no_progress with_reducible apply Keeps.update) | (with_reducible apply Keeps.ite) | split
    | (dsimp only)

theorem State.waitRead_keeps {s : State} {q : QueueId} (h0 : Keeps s₀ s) :
    Keeps s₀ (State.waitRead s q) := by
  unfold State.waitRead
  try dsimp only
  repeat' first
    | (with_reducible intro _) | (with_reducible assumption) | (with_reducible apply State.updQueue_keeps)
    | (with_reducible apply State.cmdRead_keeps) | (with_reducible apply State.cmdDone_keeps)
    | (fail_if_no_progress with_reducible apply Keeps.update) | (with_reducible apply Keeps.ite) | split
    | (dsimp only)

end Sys2Proof.Machine
end

