-- ==== Sys2Proof/Laws/KeepsLoss.lean ====
section
/-!
SUPPORT. Every operation of Machine/Loss.lean keeps what every operation keeps.
-/
set_option linter.unreachableTactic false
set_option linter.unusedTactic false
namespace Sys2Proof.Machine

variable {s₀ : State}

theorem State.endLaunch_keeps {s : State} {q : Nat} {lost : Bool} (h0 : Keeps s₀ s) :
    Keeps s₀ (State.endLaunch s q lost) := by
  unfold State.endLaunch
  try dsimp only
  repeat' first
    | (with_reducible intro _) | (with_reducible assumption) | (with_reducible apply State.withdrawImages_keeps)
    | (with_reducible apply State.holdCores_keeps) | (fail_if_no_progress with_reducible apply Keeps.update)
    | (with_reducible apply Keeps.ite) | (with_reducible apply Keeps.foldl) | (with_reducible apply Keeps.foldl1)
    | split | (dsimp only)

theorem State.walkRead_keeps {s : State} {q : QueueId} {va : Nat} {n : Nat} (h0 : Keeps s₀ s) :
    Keeps s₀ (State.walkRead s q va n).1 := by
  unfold State.walkRead
  try dsimp only
  repeat' first
    | (with_reducible intro _) | (with_reducible assumption) | (with_reducible apply State.readVa_keeps)
    | (with_reducible apply State.faultAccess_keeps) | (fail_if_no_progress with_reducible apply Keeps.update)
    | (with_reducible apply Keeps.ite) | (with_reducible apply Keeps.ite1)
    | (with_reducible refine Keeps.of_eq ?_ (by assumption)) | split | (dsimp only)

theorem State.walkCmd_keeps {s : State} {q : QueueId} (h0 : Keeps s₀ s) :
    Keeps s₀ (State.walkCmd s q).1 := by
  unfold State.walkCmd
  try dsimp only
  repeat' first
    | (with_reducible intro _) | (with_reducible assumption) | (with_reducible apply State.walkRead_keeps)
    | (fail_if_no_progress with_reducible apply Keeps.update) | (with_reducible apply Keeps.ite)
    | (with_reducible apply Keeps.ite1) | (with_reducible refine Keeps.of_eq ?_ (by assumption)) | split
    | (dsimp only)

theorem State.walkFree_keeps {s : State} {q : QueueId} {lo : Nat} {hi : Nat} (h0 : Keeps s₀ s) :
    Keeps s₀ (State.walkFree s q lo hi) := by
  unfold State.walkFree
  try dsimp only
  repeat' first
    | (with_reducible intro _) | (with_reducible assumption) | (with_reducible apply State.unpin_keeps)
    | (with_reducible apply State.dropRefs_keeps) | (with_reducible apply State.updQueue_keeps)
    | (fail_if_no_progress with_reducible apply Keeps.update) | (with_reducible apply Keeps.ite)
    | (with_reducible apply Keeps.foldl) | (with_reducible apply Keeps.foldl1) | split | (dsimp only)

theorem State.walkTo_keeps {s : State} {q : QueueId} {pos : Nat} (h0 : Keeps s₀ s) :
    Keeps s₀ (State.walkTo s q pos) := by
  unfold State.walkTo
  try dsimp only
  repeat' first
    | (with_reducible intro _) | (with_reducible assumption) | (with_reducible apply State.putQueue_keeps)
    | (with_reducible apply State.busDone_keeps) | (fail_if_no_progress with_reducible apply Keeps.update)
    | (with_reducible apply Keeps.ite) | split | (dsimp only)

theorem State.walkBuf_keeps {s : State} {q : QueueId} {bufs : List (Nat × List Byte)} {x3 : Nat} {x4 : Nat × Nat} (h0 : Keeps s₀ s) :
    Keeps s₀ (State.walkBuf s q bufs x3 x4).1 := by
  revert h0
  fun_induction State.walkBuf s q bufs x3 x4
  try dsimp only
  repeat' first
    | (with_reducible intro _) | (with_reducible assumption) | (with_reducible apply State.walkRead_keeps)
    | (with_reducible apply_assumption) | (fail_if_no_progress with_reducible apply Keeps.update)
    | (with_reducible apply Keeps.ite) | (with_reducible apply Keeps.ite1) | (with_reducible apply Keeps.foldl)
    | (with_reducible apply Keeps.foldl1) | (with_reducible refine Keeps.of_eq ?_ (by assumption)) | split
    | (dsimp only) | (dsimp +zetaDelta only)

theorem State.walkSignals_keeps {s : State} {q : QueueId} {a : Accepted} (h0 : Keeps s₀ s) :
    Keeps s₀ (State.walkSignals s q a).1 := by
  unfold State.walkSignals
  try dsimp only
  repeat' first
    | (with_reducible intro _) | (with_reducible assumption) | (with_reducible apply State.walkBuf_keeps)
    | (with_reducible apply Keeps.ite) | (with_reducible apply Keeps.ite1)
    | (with_reducible refine Keeps.of_eq ?_ (by assumption)) | split | (dsimp only)

theorem State.fenceLost_keeps {s : State} {f : FenceSig} {code : Nat} (h0 : Keeps s₀ s) :
    Keeps s₀ (State.fenceLost s f code) := by
  unfold State.fenceLost
  try dsimp only
  repeat' first
    | (with_reducible intro _) | (with_reducible assumption) | (with_reducible apply State.lose_keeps)
    | (with_reducible apply State.logUndeliverable_keeps) | (dsimp only)

theorem State.fenceXlate_keeps {s : State} {d : DieId} {n : Nat} {f : FenceSig} (h0 : Keeps s₀ s) :
    Keeps s₀ (State.fenceXlate s d n f).1 := by
  unfold State.fenceXlate
  try dsimp only
  repeat' first
    | (with_reducible intro _) | (with_reducible assumption) | (with_reducible apply State.xlateNow_keeps)
    | (fail_if_no_progress with_reducible apply Keeps.update) | (with_reducible refine Keeps.of_eq ?_ (by assumption))
    | split | (dsimp only)

theorem State.fenceSend_keeps {s : State} {n : Nat} (h0 : Keeps s₀ s) :
    Keeps s₀ (State.fenceSend s n) := by
  unfold State.fenceSend
  try dsimp only
  repeat' first
    | (with_reducible intro _) | (with_reducible assumption) | (with_reducible apply State.sendMsg_keeps)
    | (with_reducible apply State.fenceXlate_keeps) | (with_reducible apply State.busDone_keeps)
    | (with_reducible apply State.hotCount_keeps) | (with_reducible apply State.report_keeps)
    | (with_reducible apply State.faultAccess_keeps) | (with_reducible apply State.lose_keeps)
    | (fail_if_no_progress with_reducible apply Keeps.update) | (with_reducible apply Keeps.ite)
    | (with_reducible refine Keeps.of_eq ?_ (by assumption)) | split | (dsimp only)

theorem State.walkSignal_keeps {s : State} {f : FenceSig} (h0 : Keeps s₀ s) :
    Keeps s₀ (State.walkSignal s f).1 := by
  unfold State.walkSignal
  try dsimp only
  repeat' first
    | (with_reducible intro _) | (with_reducible assumption) | (with_reducible apply State.fenceLost_keeps)
    | (with_reducible apply State.fenceSend_keeps) | (fail_if_no_progress with_reducible apply Keeps.update)
    | (with_reducible apply Keeps.ite) | (with_reducible apply Keeps.ite1) | split | (dsimp only)

theorem State.walkSend_keeps {s : State} {q : QueueId} {status : W32} {x3 : List (W64 × W64)} (h0 : Keeps s₀ s) :
    Keeps s₀ (State.walkSend s q status x3).1 := by
  induction x3 generalizing s with
  | nil => exact h0
  | cons x xs ih =>
    rw [State.walkSend]
    refine Keeps.ite1 h0 ?_
    dsimp only
    split
    · rename_i heq
      exact Keeps.of_eq (State.walkSignal_keeps h0) heq
    · rename_i heq
      exact ih (State.updQueue_keeps (Keeps.of_eq (State.walkSignal_keeps h0) heq))

theorem State.walkRing_keeps {s : State} {q : QueueId} {status : W32} {x3 : Nat} (h0 : Keeps s₀ s) :
    Keeps s₀ (State.walkRing s q status x3).1 := by
  induction x3 generalizing s <;> rw [State.walkRing]
  try dsimp only
  repeat' first
    | (with_reducible intro _) | (with_reducible assumption) | (with_reducible apply State.walkCmd_keeps)
    | (with_reducible apply State.walkFree_keeps) | (with_reducible apply State.walkTo_keeps)
    | (with_reducible apply State.updQueue_keeps) | (with_reducible apply State.busDone_keeps)
    | (with_reducible apply State.walkSignals_keeps) | (with_reducible apply State.walkSend_keeps)
    | (with_reducible apply_assumption) | (fail_if_no_progress with_reducible apply Keeps.update)
    | (with_reducible apply Keeps.ite) | (with_reducible apply Keeps.ite1) | (with_reducible apply KeepsO.ite)
    | (with_reducible apply KeepsR.ite) | (with_reducible apply Keeps.foldl) | (with_reducible apply Keeps.foldl1)
    | (with_reducible apply KeepsO.some) | (with_reducible apply KeepsL.some) | (with_reducible apply KeepsR.swap)
    | (with_reducible apply KeepsR.pair) | (with_reducible apply KeepsR.map) | (with_reducible apply KeepsR.some)
    | (with_reducible apply KeepsO.getD) | (with_reducible apply KeepsO.bind) | (with_reducible apply KeepsOut.next)
    | (with_reducible exact Keeps.refl _) | (with_reducible exact KeepsOut.fault) | (with_reducible exact KeepsO.none)
    | (with_reducible exact KeepsL.none) | (with_reducible exact KeepsR.none)
    | (with_reducible refine Keeps.of_eq ?_ (by assumption)) | (with_reducible refine KeepsO.of_eq ?_ (by assumption))
    | (with_reducible refine KeepsL.of_eq ?_ (by assumption))
    | (with_reducible refine KeepsR.of_eq ?_ (by assumption))
    | (with_reducible refine Keeps.of_eq2 ?_ (by assumption)) | split | (dsimp only) | (dsimp only [id])
    | (dsimp +zetaDelta only)

theorem State.walkLost_keeps {s : State} {q : QueueId} (h0 : Keeps s₀ s) :
    Keeps s₀ (State.walkLost s q).1 := by
  unfold State.walkLost
  try dsimp only
  repeat' first
    | (with_reducible intro _) | (with_reducible assumption) | (with_reducible apply State.setQueue_keeps)
    | (with_reducible apply State.walkRing_keeps) | (fail_if_no_progress with_reducible apply Keeps.update)
    | (with_reducible apply Keeps.ite) | (with_reducible apply Keeps.ite1)
    | (with_reducible refine Keeps.of_eq ?_ (by assumption)) | split | (dsimp only)

theorem State.walkAll_keeps {s : State} {x1 : List QueueId} (h0 : Keeps s₀ s) :
    Keeps s₀ (State.walkAll s x1).1 := by
  revert h0
  fun_induction State.walkAll s x1
  try dsimp only
  repeat' first
    | (with_reducible intro _) | (with_reducible assumption) | (with_reducible apply State.walkLost_keeps)
    | (with_reducible apply_assumption) | (fail_if_no_progress with_reducible apply Keeps.update)
    | (with_reducible refine Keeps.of_eq ?_ (by assumption)) | split | (dsimp only) | (dsimp +zetaDelta only)

theorem State.objEvent_keeps {s : State} {r : ObjReq} {p : Nat} {ctx : Nat} {queue : Nat} {result : Nat} {value : W64} (h0 : Keeps s₀ s) :
    Keeps s₀ (State.objEvent s r p ctx queue result value) := by
  unfold State.objEvent
  try dsimp only
  repeat' first
    | (with_reducible intro _) | (with_reducible assumption) | (with_reducible apply State.postEvent_keeps)
    | (fail_if_no_progress with_reducible apply Keeps.update) | (dsimp only)

theorem State.stopDone_keeps {s : State} {q : QueueId} (h0 : Keeps s₀ s) :
    Keeps s₀ (State.stopDone s q) := by
  unfold State.stopDone
  try dsimp only
  repeat' first
    | (with_reducible intro _) | (with_reducible assumption) | (with_reducible apply State.setQueue_keeps)
    | (with_reducible apply State.lose_keeps) | (with_reducible apply State.endLaunch_keeps)
    | (with_reducible apply State.unpin_keeps) | (with_reducible apply State.dropRefs_keeps)
    | (with_reducible apply State.syncQueue_keeps) | (with_reducible apply State.writeBytes_keeps)
    | (with_reducible apply State.objEvent_keeps) | (fail_if_no_progress with_reducible apply Keeps.update)
    | (with_reducible apply Keeps.ite) | (with_reducible apply Keeps.foldl) | (with_reducible apply Keeps.foldl1)
    | split | (dsimp only)

theorem State.lossStep_keeps {s : State} {n : Nat} (h0 : Keeps s₀ s) :
    Keeps s₀ (State.lossStep s n) := by
  unfold State.lossStep
  try dsimp only
  repeat' first
    | (with_reducible intro _) | (with_reducible assumption) | (with_reducible apply State.retryEvents_keeps)
    | (with_reducible apply State.postLost_keeps) | (with_reducible apply State.endLaunch_keeps)
    | (with_reducible apply State.walkAll_keeps) | (with_reducible apply State.stopDone_keeps)
    | (with_reducible apply State.updQueue_keeps) | (with_reducible apply State.setCtx_keeps)
    | (with_reducible apply State.objEvent_keeps) | (fail_if_no_progress with_reducible apply Keeps.update)
    | (with_reducible apply Keeps.ite) | (with_reducible apply Keeps.foldl) | (with_reducible apply Keeps.foldl1)
    | (with_reducible refine Keeps.of_eq ?_ (by assumption)) | split | (dsimp only)

theorem State.dropInval_keeps {s : State} {q : QueueId} (h0 : Keeps s₀ s) :
    Keeps s₀ (State.dropInval s q) := by
  unfold State.dropInval
  try dsimp only
  repeat' first
    | (with_reducible intro _) | (with_reducible assumption) | (fail_if_no_progress with_reducible apply Keeps.update)
    | split | (dsimp only)

theorem State.beginStop_keeps {s : State} {q : QueueId} (h0 : Keeps s₀ s) :
    Keeps s₀ (State.beginStop s q) := by
  unfold State.beginStop
  try dsimp only
  repeat' first
    | (with_reducible intro _) | (with_reducible assumption) | (with_reducible apply State.stopDone_keeps)
    | (with_reducible apply State.setQueue_keeps) | (with_reducible apply State.withdraw_keeps)
    | (with_reducible apply State.dropEvents_keeps) | (with_reducible apply State.retryEvents_keeps)
    | (with_reducible apply State.dropInval_keeps) | (with_reducible apply State.sendMsg_keeps)
    | (fail_if_no_progress with_reducible apply Keeps.update) | (with_reducible apply Keeps.ite)
    | (with_reducible apply Keeps.foldl) | (with_reducible apply Keeps.foldl1) | split | (dsimp only)

theorem State.destroyWalk_keeps {s : State} {q : QueueId} (h0 : Keeps s₀ s) :
    Keeps s₀ (State.destroyWalk s q) := by
  unfold State.destroyWalk
  try dsimp only
  repeat' first
    | (with_reducible intro _) | (with_reducible assumption) | (with_reducible apply State.walkRing_keeps)
    | (with_reducible apply State.beginStop_keeps) | (with_reducible apply State.updQueue_keeps)
    | (fail_if_no_progress with_reducible apply Keeps.update) | (with_reducible apply Keeps.ite)
    | (with_reducible refine Keeps.of_eq ?_ (by assumption)) | split | (dsimp only)

theorem State.stopAck_keeps {s : State} {q : QueueId} {unit : Nat} (h0 : Keeps s₀ s) :
    Keeps s₀ (State.stopAck s q unit) := by
  unfold State.stopAck
  try dsimp only
  repeat' first
    | (with_reducible intro _) | (with_reducible assumption) | (with_reducible apply State.stopDone_keeps)
    | (with_reducible apply State.updQueue_keeps) | (fail_if_no_progress with_reducible apply Keeps.update)
    | (dsimp only)

theorem State.cpAnswered_keeps {s : State} {q : QueueId} (h0 : Keeps s₀ s) :
    Keeps s₀ (State.cpAnswered s q) := by
  unfold State.cpAnswered
  try dsimp only
  repeat' first
    | (with_reducible intro _) | (with_reducible assumption) | (with_reducible apply State.stopAck_keeps)
    | (with_reducible apply Keeps.ite) | split | (dsimp only)

theorem State.wakeWaits_keeps {s : State} {d : DieId} {pa : Nat} (h0 : Keeps s₀ s) :
    Keeps s₀ (State.wakeWaits s d pa) := by
  unfold State.wakeWaits
  try dsimp only
  repeat' first
    | (with_reducible intro _) | (with_reducible assumption) | (fail_if_no_progress with_reducible apply Keeps.update)
    | (with_reducible apply Keeps.ite) | split | (dsimp only)

theorem State.fenceAct_keeps {s : State} {d : DieId} {n : Nat} {pa : Nat} {f : FenceSig} (h0 : Keeps s₀ s) :
    Keeps s₀ (State.fenceAct s d n pa f).1 := by
  unfold State.fenceAct
  try dsimp only
  repeat' first
    | (with_reducible intro _) | (with_reducible assumption) | (with_reducible apply State.busDone_keeps)
    | (with_reducible apply State.busRead_keeps) | (with_reducible apply State.putCtx_keeps)
    | (with_reducible apply State.busWrite_keeps) | (with_reducible apply State.wakeWaits_keeps)
    | (fail_if_no_progress with_reducible apply Keeps.update) | (with_reducible apply Keeps.ite)
    | (with_reducible apply Keeps.ite1) | (with_reducible refine Keeps.of_eq ?_ (by assumption)) | split
    | (dsimp only)

theorem State.fenceEnd_keeps {s : State} {f : FenceSig} (h0 : Keeps s₀ s) :
    Keeps s₀ (State.fenceEnd s f).1 := by
  unfold State.fenceEnd
  try dsimp only
  repeat' first
    | (with_reducible intro _) | (with_reducible assumption) | (with_reducible apply State.fenceLost_keeps)
    | (with_reducible apply State.tryEvent_keeps) | (with_reducible apply State.eventFailed_keeps)
    | (fail_if_no_progress with_reducible apply Keeps.update) | (with_reducible apply Keeps.ite)
    | (with_reducible apply Keeps.ite1) | (with_reducible refine Keeps.of_eq ?_ (by assumption)) | split
    | (dsimp only)

end Sys2Proof.Machine
end

