-- ==== Sys2Proof/Laws/KeepsSched.lean ====
section
/-!
SUPPORT. Every operation of Machine/Sched.lean keeps what every operation keeps.
-/
set_option linter.unreachableTactic false
set_option linter.unusedTactic false
namespace Sys2Proof.Machine

variable {s₀ : State}

theorem State.dropSlot_keeps {s : State} {d : DieId} {ctx : Nat} (h0 : Keeps s₀ s) :
    Keeps s₀ (State.dropSlot s d ctx) := by
  unfold State.dropSlot
  try dsimp only
  repeat' first
    | (with_reducible intro _) | (with_reducible assumption) | (with_reducible apply State.setDie_keeps)
    | (with_reducible apply State.putCtx_keeps) | (fail_if_no_progress with_reducible apply Keeps.update)
    | (with_reducible apply Keeps.ite) | split | (dsimp only)

theorem State.startSample_keeps {s : State} {q : Nat} (h0 : Keeps s₀ s) :
    Keeps s₀ (State.startSample s q) := by
  unfold State.startSample
  try dsimp only
  repeat' first
    | (with_reducible intro _) | (with_reducible assumption) | (with_reducible apply State.hmEvent_keeps)
    | (with_reducible apply State.setLaunch_keeps) | (fail_if_no_progress with_reducible apply Keeps.update)
    | (with_reducible apply Keeps.ite) | split | (dsimp only)

theorem State.countReached_keeps {s : State} {q : Nat} {d : DieId} (h0 : Keeps s₀ s) :
    Keeps s₀ (State.countReached s q d) := by
  unfold State.countReached
  try dsimp only
  repeat' first
    | (with_reducible intro _) | (with_reducible assumption) | (with_reducible apply State.startSample_keeps)
    | (with_reducible apply State.setLaunch_keeps) | (with_reducible apply State.updCore_keeps)
    | (fail_if_no_progress with_reducible apply Keeps.update) | (with_reducible apply Keeps.ite)
    | (with_reducible apply Keeps.foldl) | (with_reducible apply Keeps.foldl1) | split | (dsimp only)

theorem State.emptyBufs_keeps {s : State} {c : CoreId} {p : Nat} (h0 : Keeps s₀ s) :
    Keeps s₀ (State.emptyBufs s c p) := by
  unfold State.emptyBufs
  try dsimp only
  repeat' first
    | (with_reducible intro _) | (with_reducible assumption) | (with_reducible apply State.setDie_keeps)
    | (fail_if_no_progress with_reducible apply Keeps.update) | (with_reducible apply Keeps.ite) | split
    | (dsimp only)

theorem State.giveCluster_keeps {s : State} {q : Nat} {l : Launch} {x : LogCluster} {k : ClusterId} (h0 : Keeps s₀ s) :
    Keeps s₀ (State.giveCluster s q l x k) := by
  unfold State.giveCluster
  try dsimp only
  repeat' first
    | (with_reducible intro _) | (with_reducible assumption) | (with_reducible apply State.draw_keeps)
    | (with_reducible apply State.setCluster_keeps) | (fail_if_no_progress with_reducible apply Keeps.update)
    | (with_reducible apply Keeps.ite) | (with_reducible refine Keeps.of_eq2 ?_ (by assumption)) | split
    | (dsimp only)

theorem State.giveCore_keeps {s : State} {q : Nat} {l : Launch} {x : LogCore} {run : CoreRun} {c : CoreId} (h0 : Keeps s₀ s) :
    Keeps s₀ (State.giveCore s q l x run c) := by
  unfold State.giveCore
  try dsimp only
  repeat' first
    | (with_reducible intro _) | (with_reducible assumption) | (with_reducible apply State.updCore_keeps)
    | (with_reducible apply State.emptyBufs_keeps) | (fail_if_no_progress with_reducible apply Keeps.update)
    | (dsimp only)

theorem State.readSegs_keeps {s : State} {d : DieId} {ctx : Nat} {why : Nat} (h0 : Keeps s₀ s) :
    Keeps s₀ (State.readSegs s d ctx why).1 := by
  unfold State.readSegs
  try dsimp only
  repeat' first
    | (with_reducible intro _) | (with_reducible assumption) | (with_reducible apply State.busRead_keeps)
    | (with_reducible refine Keeps.of_eq ?_ (by assumption)) | (dsimp only)

theorem State.segsRead_keeps {s : State} {d : DieId} {ctx : Nat} {why : Nat} (h0 : Keeps s₀ s) :
    Keeps s₀ (State.segsRead s d ctx why).1 := by
  unfold State.segsRead
  try dsimp only
  repeat' first
    | (with_reducible intro _) | (with_reducible assumption) | (with_reducible apply State.readSegs_keeps)
    | (fail_if_no_progress with_reducible apply Keeps.update) | (with_reducible apply Keeps.ite)
    | (with_reducible apply Keeps.ite1) | (with_reducible refine Keeps.of_eq ?_ (by assumption)) | split
    | (dsimp only)

theorem State.loadSegs_keeps {s : State} {d : DieId} {ctx : Nat} {why : Nat} (h0 : Keeps s₀ s) :
    Keeps s₀ (State.loadSegs s d ctx why) := by
  unfold State.loadSegs
  try dsimp only
  repeat' first
    | (with_reducible intro _) | (with_reducible assumption) | (with_reducible apply State.readSegs_keeps)
    | (with_reducible apply State.lose_keeps) | (with_reducible apply State.busDone_keeps)
    | (with_reducible apply State.setDie_keeps) | (fail_if_no_progress with_reducible apply Keeps.update)
    | (with_reducible apply Keeps.ite) | (with_reducible refine Keeps.of_eq ?_ (by assumption)) | split | (dsimp only)

theorem State.placeClusters_keeps {s : State} {q : Nat} {l : Launch} {d : DieId} {run : CoreRun} {x5 : List LogCluster} (h0 : Keeps s₀ s) :
    KeepsL s₀ (State.placeClusters s q l d run x5) := by
  revert h0
  fun_induction State.placeClusters s q l d run x5
  try dsimp only
  repeat' first
    | (with_reducible intro _) | (with_reducible assumption) | (with_reducible apply State.giveCore_keeps)
    | (with_reducible apply State.giveCluster_keeps) | (with_reducible apply_assumption)
    | (fail_if_no_progress with_reducible apply Keeps.update) | (with_reducible apply Keeps.ite)
    | (with_reducible apply Keeps.foldl) | (with_reducible apply Keeps.foldl1) | (with_reducible apply KeepsL.some)
    | (with_reducible exact KeepsL.none) | split | (dsimp only) | (dsimp +zetaDelta only)

theorem State.setYpend_keeps {s : State} {q : Nat} {d : DieId} (h0 : Keeps s₀ s) :
    Keeps s₀ (State.setYpend s q d) := by
  unfold State.setYpend
  try dsimp only
  repeat' first
    | (with_reducible intro _) | (with_reducible assumption) | (with_reducible apply State.updCore_keeps)
    | (fail_if_no_progress with_reducible apply Keeps.update) | (with_reducible apply Keeps.ite)
    | (with_reducible apply Keeps.foldl) | (with_reducible apply Keeps.foldl1) | split | (dsimp only)

theorem State.pressShares_keeps {s : State} {d : DieId} (h0 : Keeps s₀ s) :
    Keeps s₀ (State.pressShares s d) := by
  unfold State.pressShares
  try dsimp only
  repeat' first
    | (with_reducible intro _) | (with_reducible assumption) | (with_reducible apply State.setYpend_keeps)
    | (fail_if_no_progress with_reducible apply Keeps.update) | (with_reducible apply Keeps.foldl)
    | (with_reducible apply Keeps.foldl1) | split | (dsimp only)

theorem State.tryPlace_keeps {s : State} {q : Nat} {d : DieId} (h0 : Keeps s₀ s) :
    KeepsO s₀ (State.tryPlace s q d) := by
  unfold State.tryPlace
  try dsimp only
  repeat' first
    | (with_reducible intro _) | (with_reducible assumption) | (with_reducible apply State.placeClusters_keeps)
    | (with_reducible apply State.setLaunch_keeps) | (with_reducible apply State.setDie_keeps)
    | (with_reducible apply State.startSample_keeps) | (with_reducible apply State.updQueue_keeps)
    | (with_reducible apply State.served_keeps) | (fail_if_no_progress with_reducible apply Keeps.update)
    | (with_reducible apply Keeps.ite) | (with_reducible apply KeepsO.ite) | (with_reducible apply KeepsO.some)
    | (with_reducible apply KeepsL.some) | (with_reducible exact KeepsO.none)
    | (with_reducible refine KeepsL.of_eq ?_ (by assumption)) | split | (dsimp only)

theorem State.placeLaunch_keeps {s : State} {q : Nat} {d : DieId} (h0 : Keeps s₀ s) :
    Keeps s₀ (State.placeLaunch s q d) := by
  unfold State.placeLaunch
  try dsimp only
  repeat' first
    | (with_reducible intro _) | (with_reducible assumption) | (with_reducible apply State.saveTake_keeps)
    | (with_reducible apply State.askSlot_keeps) | (with_reducible apply State.pressShares_keeps)
    | (with_reducible apply State.tryPlace_keeps) | (fail_if_no_progress with_reducible apply Keeps.update)
    | (with_reducible apply Keeps.ite) | (with_reducible apply KeepsO.some) | (with_reducible apply KeepsO.getD)
    | (with_reducible apply KeepsO.bind) | (with_reducible exact KeepsO.none)
    | (with_reducible refine KeepsO.of_eq ?_ (by assumption)) | split | (dsimp only)

theorem State.release_keeps {s : State} {c : CoreId} (h0 : Keeps s₀ s) :
    Keeps s₀ (State.release s c) := by
  unfold State.release
  try dsimp only
  repeat' first
    | (with_reducible intro _) | (with_reducible assumption) | (with_reducible apply State.releaseGrant_keeps)
    | (with_reducible apply State.setLaunch_keeps) | (with_reducible apply State.updCore_keeps)
    | (with_reducible apply State.holdCores_keeps) | (with_reducible apply State.pauseTimer_keeps)
    | (fail_if_no_progress with_reducible apply Keeps.update) | (with_reducible apply Keeps.ite)
    | (with_reducible apply KeepsO.bind) | split | (dsimp only)

theorem State.preempt_keeps {s : State} {c : CoreId} (h0 : Keeps s₀ s) :
    Keeps s₀ (State.preempt s c) := by
  unfold State.preempt
  try dsimp only
  repeat' first
    | (with_reducible intro _) | (with_reducible assumption) | (with_reducible apply State.release_keeps)
    | (fail_if_no_progress with_reducible apply Keeps.update) | (with_reducible apply Keeps.ite) | split
    | (dsimp only)

theorem State.resumeOn_keeps {s : State} {q : Nat} {l : Launch} {x : LogCore} {c : CoreId} (h0 : Keeps s₀ s) :
    Keeps s₀ (State.resumeOn s q l x c) := by
  unfold State.resumeOn
  try dsimp only
  repeat' first
    | (with_reducible intro _) | (with_reducible assumption) | (with_reducible apply State.giveCluster_keeps)
    | (with_reducible apply State.dropImage_keeps) | (with_reducible apply State.giveCore_keeps)
    | (with_reducible apply State.updCore_keeps) | (with_reducible apply State.setLaunch_keeps)
    | (with_reducible apply State.updQueue_keeps) | (fail_if_no_progress with_reducible apply Keeps.update)
    | (with_reducible apply Keeps.ite) | split | (dsimp only)

theorem State.resume_keeps {s : State} {c : CoreId} {q : Nat} {lcore : Nat} (h0 : Keeps s₀ s) :
    Keeps s₀ (State.resume s c q lcore) := by
  unfold State.resume
  try dsimp only
  repeat' first
    | (with_reducible intro _) | (with_reducible assumption) | (with_reducible apply State.served_keeps)
    | (with_reducible apply State.resumeOn_keeps) | (fail_if_no_progress with_reducible apply Keeps.update)
    | (with_reducible apply Keeps.ite) | split | (dsimp only)

theorem State.sliceEnd_keeps {s : State} {q : Nat} {d : DieId} (h0 : Keeps s₀ s) :
    Keeps s₀ (State.sliceEnd s q d) := by
  unfold State.sliceEnd
  try dsimp only
  repeat' first
    | (with_reducible intro _) | (with_reducible assumption) | (with_reducible apply State.setYpend_keeps)
    | (fail_if_no_progress with_reducible apply Keeps.update) | (with_reducible apply Keeps.ite)
    | (with_reducible apply KeepsO.bind) | split | (dsimp only)

theorem State.slotTake_keeps {s : State} {d : DieId} {ctx : Nat} (h0 : Keeps s₀ s) :
    Keeps s₀ (State.slotTake s d ctx) := by
  unfold State.slotTake
  try dsimp only
  repeat' first
    | (with_reducible intro _) | (with_reducible assumption) | (with_reducible apply State.setDie_keeps)
    | (with_reducible apply State.loadSegs_keeps) | (with_reducible apply State.putCtx_keeps)
    | (with_reducible apply State.segsRead_keeps) | (with_reducible apply State.dropSlot_keeps)
    | (fail_if_no_progress with_reducible apply Keeps.update) | (with_reducible apply Keeps.ite)
    | (with_reducible refine Keeps.of_eq ?_ (by assumption)) | split | (dsimp only)

end Sys2Proof.Machine
end

