-- ==== Sys2Proof/Laws/KeepsObjects.lean ====
section
/-!
SUPPORT. Every operation of Machine/Objects.lean keeps what every operation keeps.
-/
set_option linter.unreachableTactic false
set_option linter.unusedTactic false
namespace Sys2Proof.Machine

variable {s₀ : State}

theorem State.objLosses_keeps {s : State} (h0 : Keeps s₀ s) :
    Keeps s₀ (State.objLosses s) := by
  unfold State.objLosses
  refine Keeps.foldl h0 fun u r hu => ?_
  cases u.lossOf r with
  | none => exact hu
  | some n => exact State.lossStep_keeps hu

theorem State.objEnd_keeps {s : State} {r : ObjReq} {p : Nat} {ctx : Nat} {queue : Nat} {result : Nat} {v : optParam W64 0} (h0 : Keeps s₀ s) :
    Keeps s₀ (State.objEnd s r p ctx queue result v) := by
  unfold State.objEnd
  try dsimp only
  repeat' first
    | (with_reducible intro _) | (with_reducible assumption) | (with_reducible apply State.objEvent_keeps)
    | (with_reducible apply Keeps.ite) | split | (dsimp only)

theorem State.ctxCreate_keeps {s : State} {r : ObjReq} (h0 : Keeps s₀ s) :
    Keeps s₀ (State.ctxCreate s r) := by
  unfold State.ctxCreate
  try dsimp only
  repeat' first
    | (with_reducible intro _) | (with_reducible assumption) | (with_reducible apply State.objEvent_keeps)
    | (with_reducible apply State.objEnd_keeps) | (with_reducible apply State.putCtx_keeps)
    | (with_reducible apply Keeps.ite) | split | (dsimp only)

theorem State.ctxAbort_keeps {s : State} {r : ObjReq} (h0 : Keeps s₀ s) :
    Keeps s₀ (State.ctxAbort s r) := by
  unfold State.ctxAbort
  try dsimp only
  repeat' first
    | (with_reducible intro _) | (with_reducible assumption) | (with_reducible apply State.objEvent_keeps)
    | (with_reducible apply State.objEnd_keeps) | (with_reducible apply State.lose_keeps)
    | (with_reducible apply Keeps.ite) | split | (dsimp only)

theorem State.ctxDestroy_keeps {s : State} {r : ObjReq} (h0 : Keeps s₀ s) :
    Keeps s₀ (State.ctxDestroy s r) := by
  unfold State.ctxDestroy
  try dsimp only
  repeat' first
    | (with_reducible intro _) | (with_reducible assumption) | (with_reducible apply State.objEvent_keeps)
    | (with_reducible apply State.objEnd_keeps) | (with_reducible apply State.dropSlot_keeps)
    | (with_reducible apply State.putCtx_keeps) | (fail_if_no_progress with_reducible apply Keeps.update)
    | (with_reducible apply Keeps.ite) | (with_reducible apply Keeps.foldl) | (with_reducible apply Keeps.foldl1)
    | split | (dsimp only)

theorem State.qCreate_keeps {s : State} {r : ObjReq} (h0 : Keeps s₀ s) :
    Keeps s₀ (State.qCreate s r) := by
  unfold State.qCreate
  try dsimp only
  repeat' first
    | (with_reducible intro _) | (with_reducible assumption) | (with_reducible apply State.objEvent_keeps)
    | (with_reducible apply State.objEnd_keeps) | (with_reducible apply State.putQueue_keeps)
    | (with_reducible apply Keeps.ite) | split | (dsimp only)

theorem State.qDestroy_keeps {s : State} {r : ObjReq} (h0 : Keeps s₀ s) :
    Keeps s₀ (State.qDestroy s r) := by
  unfold State.qDestroy
  try dsimp only
  repeat' first
    | (with_reducible intro _) | (with_reducible assumption) | (with_reducible apply State.objEvent_keeps)
    | (with_reducible apply State.objEnd_keeps) | (with_reducible apply State.withdraw_keeps)
    | (with_reducible apply State.putQueue_keeps) | (with_reducible apply State.destroyWalk_keeps)
    | (fail_if_no_progress with_reducible apply Keeps.update) | (with_reducible apply Keeps.ite) | split
    | (dsimp only)

theorem State.moRegister_keeps {s : State} {r : ObjReq} (h0 : Keeps s₀ s) :
    Keeps s₀ (State.moRegister s r) := by
  unfold State.moRegister
  try dsimp only
  repeat' first
    | (with_reducible intro _) | (with_reducible assumption) | (with_reducible apply State.objEvent_keeps)
    | (with_reducible apply State.objEnd_keeps) | (with_reducible apply State.putMo_keeps)
    | (with_reducible apply Keeps.ite) | split | (dsimp only)

theorem State.moRetire_keeps {s : State} {h : Nat} (h0 : Keeps s₀ s) :
    Keeps s₀ (State.moRetire s h) := by
  unfold State.moRetire
  try dsimp only
  repeat' first
    | (with_reducible intro _) | (with_reducible assumption) | (with_reducible apply State.putMo_keeps)
    | (with_reducible apply State.objEnd_keeps) | (fail_if_no_progress with_reducible apply Keeps.update)
    | (with_reducible apply Keeps.ite) | split | (dsimp only)

theorem State.moDestroy_keeps {s : State} {r : ObjReq} (h0 : Keeps s₀ s) :
    Keeps s₀ (State.moDestroy s r) := by
  unfold State.moDestroy
  try dsimp only
  repeat' first
    | (with_reducible intro _) | (with_reducible assumption) | (with_reducible apply State.objEvent_keeps)
    | (with_reducible apply State.objEnd_keeps) | (with_reducible apply State.moRetire_keeps)
    | (with_reducible apply State.putMo_keeps) | (fail_if_no_progress with_reducible apply Keeps.update)
    | (with_reducible apply Keeps.ite) | split | (dsimp only)

theorem State.semCreate_keeps {s : State} {r : ObjReq} (h0 : Keeps s₀ s) :
    Keeps s₀ (State.semCreate s r) := by
  unfold State.semCreate
  try dsimp only
  repeat' first
    | (with_reducible intro _) | (with_reducible assumption) | (with_reducible apply State.objEnd_keeps)
    | (with_reducible apply State.setSema_keeps) | (fail_if_no_progress with_reducible apply Keeps.update)
    | (with_reducible apply Keeps.ite) | split | (dsimp only)

theorem State.semDestroy_keeps {s : State} {r : ObjReq} (h0 : Keeps s₀ s) :
    Keeps s₀ (State.semDestroy s r) := by
  unfold State.semDestroy
  try dsimp only
  repeat' first
    | (with_reducible intro _) | (with_reducible assumption) | (with_reducible apply State.objEnd_keeps)
    | (with_reducible apply State.setSema_keeps) | (with_reducible apply Keeps.ite) | split | (dsimp only)

theorem State.objUnknown_keeps {s : State} {r : ObjReq} (h0 : Keeps s₀ s) :
    Keeps s₀ (State.objUnknown s r) := by
  unfold State.objUnknown
  try dsimp only
  repeat' first
    | (with_reducible intro _) | (with_reducible assumption) | (with_reducible apply State.objEvent_keeps)
    | (dsimp only)

theorem State.objRun_keeps {s : State} {r : ObjReq} (h0 : Keeps s₀ s) :
    Keeps s₀ (State.objRun s r) := by
  unfold State.objRun
  try dsimp only
  repeat' first
    | (with_reducible intro _) | (with_reducible assumption) | (with_reducible apply State.ctxCreate_keeps)
    | (with_reducible apply State.ctxAbort_keeps) | (with_reducible apply State.ctxDestroy_keeps)
    | (with_reducible apply State.qCreate_keeps) | (with_reducible apply State.qDestroy_keeps)
    | (with_reducible apply State.moRegister_keeps) | (with_reducible apply State.moDestroy_keeps)
    | (with_reducible apply State.semCreate_keeps) | (with_reducible apply State.semDestroy_keeps)
    | (with_reducible apply State.objUnknown_keeps) | (fail_if_no_progress with_reducible apply Keeps.update) | split
    | (dsimp only)

theorem State.objNextN_keeps {s : State} {x1 : Nat} (h0 : Keeps s₀ s) :
    Keeps s₀ (State.objNextN s x1) := by
  revert h0
  fun_induction State.objNextN s x1
  try dsimp only
  repeat' first
    | (with_reducible intro _) | (with_reducible assumption) | (with_reducible apply State.objLosses_keeps)
    | (with_reducible apply State.objRun_keeps) | (with_reducible apply_assumption)
    | (fail_if_no_progress with_reducible apply Keeps.update) | split | (dsimp only) | (dsimp +zetaDelta only)

theorem State.objNext_keeps {s : State} (h0 : Keeps s₀ s) :
    Keeps s₀ (State.objNext s) := by
  unfold State.objNext
  try dsimp only
  repeat' first
    | (with_reducible intro _) | (with_reducible assumption) | (with_reducible apply State.objNextN_keeps)
    | (with_reducible apply Keeps.ite) | split | (dsimp only)

theorem State.walkOn_keeps {s : State} {q : QueueId} (h0 : Keeps s₀ s) :
    Keeps s₀ (State.walkOn s q) := by
  unfold State.walkOn
  try dsimp only
  repeat' first
    | (with_reducible intro _) | (with_reducible assumption) | (with_reducible apply State.objNext_keeps)
    | (with_reducible apply State.destroyWalk_keeps) | (with_reducible apply State.lossStep_keeps)
    | (with_reducible apply State.walkLost_keeps) | (with_reducible apply Keeps.ite)
    | (with_reducible refine Keeps.of_eq ?_ (by assumption)) | split | (dsimp only)

theorem State.objWrite_keeps {s : State} {role : Byte} {strb : Byte} {off : Nat} {v : W64} (h0 : Keeps s₀ s) :
    Keeps s₀ (State.objWrite s role strb off v) := by
  unfold State.objWrite
  try dsimp only
  repeat' first
    | (with_reducible intro _) | (with_reducible assumption) | (with_reducible apply State.driverWrite_keeps)
    | (with_reducible apply State.objNext_keeps) | (fail_if_no_progress with_reducible apply Keeps.update)
    | (with_reducible apply Keeps.ite) | split | (dsimp only)

theorem State.objRow_keeps {s : State} {op : Nat} {role : Byte} {strb : Byte} {v : W64} (h0 : Keeps s₀ s) :
    Keeps s₀ (State.objRow s op role strb v) := by
  unfold State.objRow
  try dsimp only
  repeat' first
    | (with_reducible intro _) | (with_reducible assumption) | (with_reducible apply State.crownErr_keeps)
    | (with_reducible apply State.objWrite_keeps) | (fail_if_no_progress with_reducible apply Keeps.update)
    | (with_reducible apply Keeps.ite) | split | (dsimp only)

end Sys2Proof.Machine
end

