-- ==== Sys2Proof/Laws/KeepsSeq.lean ====
section
/-!
SUPPORT. Every operation of Machine/Seq.lean keeps what every operation keeps.
-/
set_option linter.unreachableTactic false
set_option linter.unusedTactic false
namespace Sys2Proof.Machine

variable {s₀ : State}

theorem State.seqAccess_keeps {s : State} {c : CoreId} (h0 : Keeps s₀ s) :
    Keeps s₀ (State.seqAccess s c) := by
  unfold State.seqAccess
  try dsimp only
  repeat' first
    | (with_reducible intro _) | (with_reducible assumption) | (with_reducible apply State.mergeInto_keeps)
    | (with_reducible apply State.startWalk_keeps) | (with_reducible apply State.faultAccess_keeps)
    | (with_reducible apply State.sendReq_keeps) | (with_reducible apply State.touch_keeps)
    | (with_reducible apply State.seqFault_keeps) | (with_reducible apply State.moved_keeps)
    | (with_reducible apply State.updCore_keeps) | (with_reducible apply State.advance_keeps)
    | (fail_if_no_progress with_reducible apply Keeps.update) | (with_reducible apply Keeps.ite)
    | (with_reducible refine Keeps.of_eq ?_ (by assumption)) | split | (dsimp only)

theorem State.cregWrite_keeps {s : State} {c : CoreId} {n : Nat} {v : W64} (h0 : Keeps s₀ s) :
    Keeps s₀ (State.cregWrite s c n v) := by
  unfold State.cregWrite
  try dsimp only
  repeat' first
    | (with_reducible intro _) | (with_reducible assumption) | (with_reducible apply State.noteRsvd_keeps)
    | (with_reducible apply State.updArr_keeps) | (fail_if_no_progress with_reducible apply Keeps.update)
    | (with_reducible apply Keeps.ite) | split | (dsimp only)

theorem State.act_keeps {s : State} {c : CoreId} {w : W32} {x3 : SeqReq} (h0 : Keeps s₀ s) :
    Keeps s₀ (State.act s c w x3) := by
  unfold State.act
  try dsimp only
  repeat' first
    | (with_reducible intro _) | (with_reducible assumption) | (with_reducible apply State.seqAccess_keeps)
    | (with_reducible apply State.updCore_keeps) | (with_reducible apply State.advance_keeps)
    | (with_reducible apply State.csRead_keeps) | (with_reducible apply State.seqFault_keeps)
    | (with_reducible apply State.csWrite_keeps) | (with_reducible apply State.settle_keeps)
    | (with_reducible apply State.cregWrite_keeps) | (fail_if_no_progress with_reducible apply Keeps.update)
    | (with_reducible apply Keeps.ite) | (with_reducible refine Keeps.of_eq ?_ (by assumption)) | split | (dsimp only)

theorem State.pumpSeq_keeps {s : State} {c : CoreId} (h0 : Keeps s₀ s) :
    Keeps s₀ (State.pumpSeq s c) := by
  unfold State.pumpSeq
  try dsimp only
  repeat' first
    | (with_reducible intro _) | (with_reducible assumption) | (with_reducible apply State.seqAccess_keeps)
    | (fail_if_no_progress with_reducible apply Keeps.update) | (with_reducible apply Keeps.ite) | split
    | (dsimp only)

theorem State.commit_keeps {s : State} {c : CoreId} {a : Eff} {b : Eff} (h0 : Keeps s₀ s) :
    Keeps s₀ (State.commit s c a b) := by
  unfold State.commit
  try dsimp only
  repeat' first
    | (with_reducible intro _) | (with_reducible assumption) | (with_reducible apply State.updCore_keeps)
    | (with_reducible apply State.moved_keeps) | (fail_if_no_progress with_reducible apply Keeps.update)
    | (dsimp only)

theorem State.enqueue_keeps {s : State} {c : CoreId} {i : EInstr} (h0 : Keeps s₀ s) :
    Keeps s₀ (State.enqueue s c i) := by
  unfold State.enqueue
  try dsimp only
  repeat' first
    | (with_reducible intro _) | (with_reducible assumption) | (with_reducible apply State.updArr_keeps)
    | (with_reducible apply State.updCore_keeps) | (fail_if_no_progress with_reducible apply Keeps.update) | split
    | (dsimp only)

theorem State.dispatch_keeps {s : State} {c : CoreId} {w : W32} {d : EngineDef} {a : Eff} {b : Eff} {x1 : W64} {x2 : W64} (h0 : Keeps s₀ s) :
    Keeps s₀ (State.dispatch s c w d a b x1 x2) := by
  unfold State.dispatch
  try dsimp only
  repeat' first
    | (with_reducible intro _) | (with_reducible assumption) | (with_reducible apply State.seqFault_keeps)
    | (with_reducible apply State.commit_keeps) | (with_reducible apply State.updCore_keeps)
    | (with_reducible apply State.settle_keeps) | (with_reducible apply State.enqueue_keeps)
    | (fail_if_no_progress with_reducible apply Keeps.update) | (with_reducible apply Keeps.ite) | split
    | (dsimp only)

theorem State.twinMismatch_keeps {s : State} {c : CoreId} {w : W32} (h0 : Keeps s₀ s) :
    Keeps s₀ (State.twinMismatch s c w) := by
  unfold State.twinMismatch
  try dsimp only
  repeat' first
    | (with_reducible intro _) | (with_reducible assumption) | (with_reducible apply State.stopCore_keeps)
    | (with_reducible apply State.startEvent_keeps) | (with_reducible apply State.report_keeps)
    | (with_reducible apply State.seqFault_keeps) | (dsimp only)

theorem State.seqRow_keeps {s : State} {c : CoreId} {w : W32} {u : Nat} {op : Nat} {enc : W32 → Bool} {eff : SeqIn → SeqRegs → Eff} {after : State → Eff → Eff → State} (h0 : Keeps s₀ s) (h7 : ∀ y0 y1 y2, Keeps s₀ y0 → Keeps s₀ (after y0 y1 y2)) :
    Keeps s₀ (State.seqRow s c w u op enc eff after) := by
  unfold State.seqRow
  try dsimp only
  repeat' first
    | (with_reducible intro _) | (with_reducible assumption) | (with_reducible apply h7)
    | (with_reducible apply State.seqFault_keeps) | (with_reducible apply State.twinMismatch_keeps)
    | (fail_if_no_progress with_reducible apply Keeps.update) | (with_reducible apply Keeps.ite) | split
    | (dsimp only)

theorem State.engine_keeps {s : State} {c : CoreId} {w : W32} {d : EngineDef} (h0 : Keeps s₀ s) :
    Keeps s₀ (State.engine s c w d) := by
  unfold State.engine
  try dsimp only
  repeat' first
    | (with_reducible intro _) | (with_reducible assumption) | (with_reducible apply State.seqRow_keeps)
    | (with_reducible apply State.dispatch_keeps) | (with_reducible apply State.commit_keeps)
    | (fail_if_no_progress with_reducible apply Keeps.update) | split | (dsimp only)

theorem State.scalar_keeps {s : State} {c : CoreId} {w : W32} {op : Nat} {enc : W32 → Bool} {eff : SeqIn → SeqRegs → Eff} (h0 : Keeps s₀ s) :
    Keeps s₀ (State.scalar s c w op enc eff) := by
  unfold State.scalar
  try dsimp only
  repeat' first
    | (with_reducible intro _) | (with_reducible assumption) | (with_reducible apply State.seqRow_keeps)
    | (with_reducible apply State.act_keeps) | (with_reducible apply State.commit_keeps) | (dsimp only)

end Sys2Proof.Machine
end

