-- ==== Sys2Proof/Laws/KeepsAnswers.lean ====
section
/-!
SUPPORT. Every operation of Machine/Answers.lean keeps what every operation keeps.
-/
set_option linter.unreachableTactic false
set_option linter.unusedTactic false
namespace Sys2Proof.Machine

variable {s₀ : State}

theorem State.invalAck_keeps {s : State} {q : QueueId} {d : DieId} (h0 : Keeps s₀ s) :
    Keeps s₀ (State.invalAck s q d) := by
  unfold State.invalAck
  try dsimp only
  repeat' first
    | (with_reducible intro _) | (with_reducible assumption) | (with_reducible apply State.setQueue_keeps)
    | (with_reducible apply State.stopAck_keeps) | (with_reducible apply State.cmdDone_keeps)
    | (fail_if_no_progress with_reducible apply Keeps.update) | (with_reducible apply Keeps.ite) | split
    | (dsimp only)

theorem State.rootWrite_keeps {s : State} {role : Byte} {strb : Byte} {p : Fin 16} {high : Bool} {v : W64} (h0 : Keeps s₀ s) :
    Keeps s₀ (State.rootWrite s role strb p high v) := by
  unfold State.rootWrite
  try dsimp only
  repeat' first
    | (with_reducible intro _) | (with_reducible assumption) | (with_reducible apply State.driverWrite_keeps)
    | (with_reducible apply State.setDie_keeps) | (with_reducible apply State.rsvdWrite_keeps)
    | (fail_if_no_progress with_reducible apply Keeps.update) | (with_reducible apply Keeps.ite)
    | (with_reducible apply Keeps.foldl) | (with_reducible apply Keeps.foldl1) | split | (dsimp only)

theorem State.failAccess_keeps {old : State} {s : State} {d : DieId} {a : Owner × Nat × Nat × Nat} (h0 : Keeps s₀ old) (h1 : Keeps s₀ s) :
    Keeps s₀ (State.failAccess old s d a) := by
  unfold State.failAccess
  try dsimp only
  repeat' first
    | (with_reducible intro _) | (with_reducible assumption) | (with_reducible apply State.lose_keeps)
    | (with_reducible apply State.imageAbort_keeps) | (with_reducible apply State.streamAbort_keeps)
    | (with_reducible apply State.seqFault_keeps) | (with_reducible apply State.hdrFault_keeps)
    | (with_reducible apply State.progFault_keeps) | (with_reducible apply State.sendMsg_keeps)
    | (with_reducible apply State.walkOn_keeps) | (with_reducible apply State.updQueue_keeps)
    | (with_reducible apply State.setDie_keeps) | (with_reducible apply State.retryEvents_keeps)
    | (with_reducible apply State.eventFailed_keeps) | (fail_if_no_progress with_reducible apply Keeps.update)
    | (with_reducible apply Keeps.ite) | split | (dsimp only)

theorem State.fqAnswer_keeps {s : State} {d : DieId} {v : Nat} (h0 : Keeps s₀ s) :
    Keeps s₀ (State.fqAnswer s d v) := by
  unfold State.fqAnswer
  try dsimp only
  repeat' first
    | (with_reducible intro _) | (with_reducible assumption) | (with_reducible apply State.setDie_keeps)
    | (with_reducible apply State.hmEvent_keeps) | (with_reducible apply State.failAccess_keeps)
    | (fail_if_no_progress with_reducible apply Keeps.update) | (with_reducible apply Keeps.ite)
    | (with_reducible apply Keeps.foldl) | (with_reducible apply Keeps.foldl1) | split | (dsimp only)

theorem State.fqRow_keeps {s : State} {action : Nat} {role : Byte} {strb : Byte} {d : DieId} {v : W64} (h0 : Keeps s₀ s) :
    Keeps s₀ (State.fqRow s action role strb d v) := by
  unfold State.fqRow
  try dsimp only
  repeat' first
    | (with_reducible intro _) | (with_reducible assumption) | (with_reducible apply State.crownErr_keeps)
    | (with_reducible apply State.driverWrite_keeps) | (with_reducible apply State.rsvdWrite_keeps)
    | (with_reducible apply State.fqAnswer_keeps) | (with_reducible apply Keeps.ite) | split | (dsimp only)

theorem State.goOn_keeps {s : State} {x1 : Owner} (h0 : Keeps s₀ s) :
    Keeps s₀ (State.goOn s x1) := by
  unfold State.goOn
  try dsimp only
  repeat' first
    | (with_reducible intro _) | (with_reducible assumption) | (with_reducible apply State.pumpStream_keeps)
    | (with_reducible apply State.updRun_keeps) | (with_reducible apply State.pumpSeq_keeps)
    | (with_reducible apply State.walkOn_keeps) | (with_reducible apply State.fenceSend_keeps)
    | (with_reducible apply State.retryEvents_keeps) | (fail_if_no_progress with_reducible apply Keeps.update) | split
    | (dsimp only)

theorem State.hotPeriodEnd_keeps {s : State} {d : DieId} (h0 : Keeps s₀ s) :
    Keeps s₀ (State.hotPeriodEnd s d) := by
  unfold State.hotPeriodEnd
  try dsimp only
  repeat' first
    | (with_reducible intro _) | (with_reducible assumption) | (with_reducible apply State.setDie_keeps)
    | (fail_if_no_progress with_reducible apply Keeps.update) | (with_reducible apply Keeps.ite) | split
    | (dsimp only)

theorem State.invalAckRow_keeps {s : State} {d : DieId} {q : QueueId} (h0 : Keeps s₀ s) :
    Keeps s₀ (State.invalAckRow s d q) := by
  unfold State.invalAckRow
  try dsimp only
  repeat' first
    | (with_reducible intro _) | (with_reducible assumption) | (with_reducible apply State.invalAck_keeps)
    | (with_reducible apply State.takeMsg_keeps) | (with_reducible apply State.setDie_keeps)
    | (with_reducible apply State.sendMsg_keeps) | (fail_if_no_progress with_reducible apply Keeps.update)
    | (with_reducible apply Keeps.ite) | split | (dsimp only)

theorem State.invalidate_keeps {s : State} {m : Nat} (h0 : Keeps s₀ s) :
    Keeps s₀ (State.invalidate s m) := by
  unfold State.invalidate
  try dsimp only
  repeat' first
    | (with_reducible intro _) | (with_reducible assumption) | (with_reducible apply State.segsRead_keeps)
    | (with_reducible apply State.withdraw_keeps) | (with_reducible apply State.takeMsg_keeps)
    | (with_reducible apply State.setDie_keeps) | (with_reducible apply State.loadSegs_keeps)
    | (fail_if_no_progress with_reducible apply Keeps.update) | (with_reducible apply Keeps.ite)
    | (with_reducible apply Keeps.foldl) | (with_reducible apply Keeps.foldl1)
    | (with_reducible refine Keeps.of_eq ?_ (by assumption)) | split | (dsimp only)

theorem State.nextWalks_keeps {s : State} {d : DieId} {x2 : Nat} (h0 : Keeps s₀ s) :
    Keeps s₀ (State.nextWalks s d x2) := by
  induction x2 generalizing s with
  | zero => exact h0
  | succ fuel ih =>
    rw [State.nextWalks]
    dsimp only
    split
    · exact h0
    · refine Keeps.ite h0 (ih ?_)
      split
      · exact State.faultAccess_keeps (State.setDie_keeps h0)
      · exact State.startWalk_keeps (State.setDie_keeps h0)
      · exact State.goOn_keeps (State.setDie_keeps h0)

theorem State.postDeferred_keeps {s : State} {d : DieId} (h0 : Keeps s₀ s) :
    Keeps s₀ (State.postDeferred s d) := by
  unfold State.postDeferred
  try dsimp only
  repeat' first
    | (with_reducible intro _) | (with_reducible assumption) | (with_reducible apply State.mergeInto_keeps)
    | (with_reducible apply State.setDie_keeps) | (with_reducible apply State.postFault_keeps)
    | (fail_if_no_progress with_reducible apply Keeps.update) | split | (dsimp only)

theorem State.replay_keeps {s : State} {d : DieId} {n : Nat} (h0 : Keeps s₀ s) :
    Keeps s₀ (State.replay s d n) := by
  unfold State.replay
  try dsimp only
  repeat' first
    | (with_reducible intro _) | (with_reducible assumption) | (with_reducible apply State.setDie_keeps)
    | (with_reducible apply State.pumpStream_keeps) | (with_reducible apply State.replayTile_keeps)
    | (with_reducible apply State.goOn_keeps) | (fail_if_no_progress with_reducible apply Keeps.update) | split
    | (dsimp only)

theorem State.walkFault_keeps {s : State} {d : DieId} {w : Walk} {above : Nat} {c : FaultCause} {a : Owner × Nat × Nat × Nat} (h0 : Keeps s₀ s) :
    Keeps s₀ (State.walkFault s d w above c a) := by
  unfold State.walkFault
  try dsimp only
  repeat' first
    | (with_reducible intro _) | (with_reducible assumption) | (with_reducible apply State.setDie_keeps)
    | (with_reducible apply State.faultAccess_keeps) | (fail_if_no_progress with_reducible apply Keeps.update) | split
    | (dsimp only)

theorem State.walkEnd_keeps {s : State} {d : DieId} {n : Nat} (h0 : Keeps s₀ s) :
    Keeps s₀ (State.walkEnd s d n) := by
  unfold State.walkEnd
  try dsimp only
  repeat' first
    | (with_reducible intro _) | (with_reducible assumption) | (with_reducible apply State.tableWalk_keeps)
    | (with_reducible apply State.busDone_keeps) | (with_reducible apply State.setDie_keeps)
    | (with_reducible apply State.walkFault_keeps) | (with_reducible apply State.install_keeps)
    | (with_reducible apply State.goOn_keeps) | (with_reducible apply State.nextWalks_keeps)
    | (fail_if_no_progress with_reducible apply Keeps.update) | (with_reducible apply Keeps.ite)
    | (with_reducible apply Keeps.foldl) | (with_reducible apply Keeps.foldl1)
    | (with_reducible refine Keeps.of_eq ?_ (by assumption)) | split | (dsimp only)

end Sys2Proof.Machine
end

