-- ==== Sys2Proof/Laws/KeepsCommands.lean ====
section
/-!
SUPPORT. Every operation of Machine/Commands.lean keeps what every operation keeps.
-/
set_option linter.unreachableTactic false
set_option linter.unusedTactic false
namespace Sys2Proof.Machine

variable {s₀ : State}

theorem State.breakRun_keeps {s : State} {q : QueueId} {x2 : List Byte} (h0 : Keeps s₀ s) :
    Keeps s₀ (State.breakRun s q x2) := by
  unfold State.breakRun
  try dsimp only
  repeat' first
    | (with_reducible intro _) | (with_reducible assumption) | (with_reducible apply State.cmdDone_keeps)
    | (with_reducible apply State.updQueue_keeps) | (fail_if_no_progress with_reducible apply Keeps.update)
    | (dsimp only)

theorem State.callRun_keeps {s : State} {q : QueueId} {b : List Byte} (h0 : Keeps s₀ s) :
    Keeps s₀ (State.callRun s q b) := by
  unfold State.callRun
  try dsimp only
  repeat' first
    | (with_reducible intro _) | (with_reducible assumption) | (with_reducible apply State.updQueue_keeps)
    | (fail_if_no_progress with_reducible apply Keeps.update) | (dsimp only)

theorem State.chooseDies_keeps {s : State} {m : Nat} (h0 : Keeps s₀ s) :
    Keeps s₀ (State.chooseDies s m) := by
  unfold State.chooseDies
  try dsimp only
  repeat' first
    | (with_reducible intro _) | (with_reducible assumption) | (with_reducible apply State.takeMsg_keeps)
    | (with_reducible apply State.failLaunch_keeps) | (with_reducible apply State.setLaunch_keeps)
    | (with_reducible apply State.sendMsg_keeps) | (fail_if_no_progress with_reducible apply Keeps.update)
    | (with_reducible apply Keeps.ite) | (with_reducible apply Keeps.foldl) | (with_reducible apply Keeps.foldl1)
    | split | (dsimp only)

theorem State.cmdTimeout_keeps {s : State} {q : QueueId} (h0 : Keeps s₀ s) :
    Keeps s₀ (State.cmdTimeout s q) := by
  unfold State.cmdTimeout
  try dsimp only
  repeat' first
    | (with_reducible intro _) | (with_reducible assumption) | (with_reducible apply State.beginStop_keeps)
    | (with_reducible apply Keeps.ite) | split | (dsimp only)

theorem State.doorbellAt_keeps {s : State} {q : QueueId} {wr : W64} (h0 : Keeps s₀ s) :
    Keeps s₀ (State.doorbellAt s q wr) := by
  unfold State.doorbellAt
  try dsimp only
  repeat' first
    | (with_reducible intro _) | (with_reducible assumption) | (with_reducible apply State.setDie_keeps)
    | (with_reducible apply State.lose_keeps) | (with_reducible apply State.setQueue_keeps)
    | (with_reducible apply State.walkLost_keeps) | (with_reducible apply State.askSlot_keeps)
    | (fail_if_no_progress with_reducible apply Keeps.update) | (with_reducible apply Keeps.ite)
    | (with_reducible refine Keeps.of_eq ?_ (by assumption)) | split | (dsimp only)

theorem State.doorbell_keeps {s : State} {role : Byte} {strb : Byte} {q : QueueId} {wr : W64} (h0 : Keeps s₀ s) :
    Keeps s₀ (State.doorbell s role strb q wr) := by
  unfold State.doorbell
  try dsimp only
  repeat' first
    | (with_reducible intro _) | (with_reducible assumption) | (with_reducible apply State.crownErr_keeps)
    | (with_reducible apply State.crownOk_keeps) | (with_reducible apply State.doorbellAt_keeps)
    | (with_reducible apply State.sendMsg_keeps) | (fail_if_no_progress with_reducible apply Keeps.update)
    | (with_reducible apply Keeps.ite) | split | (dsimp only)

theorem State.doorbellForward_keeps {s : State} {m : Nat} (h0 : Keeps s₀ s) :
    Keeps s₀ (State.doorbellForward s m) := by
  unfold State.doorbellForward
  try dsimp only
  repeat' first
    | (with_reducible intro _) | (with_reducible assumption) | (with_reducible apply State.doorbellAt_keeps)
    | (with_reducible apply State.takeMsg_keeps) | (fail_if_no_progress with_reducible apply Keeps.update) | split
    | (dsimp only)

theorem State.drainEnd_keeps {s : State} {q : QueueId} (h0 : Keeps s₀ s) :
    Keeps s₀ (State.drainEnd s q) := by
  unfold State.drainEnd
  try dsimp only
  repeat' first
    | (with_reducible intro _) | (with_reducible assumption) | (with_reducible apply State.setQueue_keeps)
    | (with_reducible apply State.startLadder_keeps) | (fail_if_no_progress with_reducible apply Keeps.update)
    | (with_reducible apply Keeps.ite) | (with_reducible apply Keeps.foldl) | (with_reducible apply Keeps.foldl1)
    | split | (dsimp only)

theorem State.fenceClose_keeps {s : State} {n : Nat} {f : FenceSig} (h0 : Keeps s₀ s) :
    Keeps s₀ (State.fenceClose s n f) := by
  unfold State.fenceClose
  try dsimp only
  repeat' first
    | (with_reducible intro _) | (with_reducible assumption) | (with_reducible apply State.walkOn_keeps)
    | (with_reducible apply State.updQueue_keeps) | (with_reducible apply State.stopAck_keeps)
    | (with_reducible apply State.cmdDone_keeps) | (fail_if_no_progress with_reducible apply Keeps.update)
    | (with_reducible apply Keeps.ite) | split | (dsimp only)

theorem State.fenceOver_keeps {s : State} {n : Nat} {f : FenceSig} (h0 : Keeps s₀ s) :
    Keeps s₀ (State.fenceOver s n f) := by
  unfold State.fenceOver
  try dsimp only
  repeat' first
    | (with_reducible intro _) | (with_reducible assumption) | (with_reducible apply State.fenceEnd_keeps)
    | (with_reducible apply State.fenceClose_keeps) | (fail_if_no_progress with_reducible apply Keeps.update)
    | (with_reducible refine Keeps.of_eq ?_ (by assumption)) | split | (dsimp only)

theorem State.fenceResult_keeps {s : State} {n : Nat} (h0 : Keeps s₀ s) :
    Keeps s₀ (State.fenceResult s n) := by
  unfold State.fenceResult
  try dsimp only
  repeat' first
    | (with_reducible intro _) | (with_reducible assumption) | (with_reducible apply State.takeMsg_keeps)
    | (with_reducible apply State.fenceClose_keeps) | (with_reducible apply State.fenceOver_keeps)
    | (with_reducible apply State.fenceSend_keeps) | (fail_if_no_progress with_reducible apply Keeps.update)
    | (with_reducible apply Keeps.ite) | split | (dsimp only)

theorem State.fenceSignal_keeps {s : State} {n : Nat} (h0 : Keeps s₀ s) :
    Keeps s₀ (State.fenceSignal s n) := by
  unfold State.fenceSignal
  try dsimp only
  repeat' first
    | (with_reducible intro _) | (with_reducible assumption) | (with_reducible apply State.takeMsg_keeps)
    | (with_reducible apply State.busDone_keeps) | (with_reducible apply State.fenceAct_keeps)
    | (with_reducible apply State.sendMsg_keeps) | (fail_if_no_progress with_reducible apply Keeps.update)
    | (with_reducible apply Keeps.ite) | (with_reducible apply KeepsO.bind)
    | (with_reducible refine Keeps.of_eq ?_ (by assumption)) | split | (dsimp only)

theorem State.invalStart_keeps {s : State} {q : QueueId} {b : List Byte} (h0 : Keeps s₀ s) :
    Keeps s₀ (State.invalStart s q b) := by
  unfold State.invalStart
  try dsimp only
  repeat' first
    | (with_reducible intro _) | (with_reducible assumption) | (with_reducible apply State.updQueue_keeps)
    | (with_reducible apply State.sendMsg_keeps) | (fail_if_no_progress with_reducible apply Keeps.update)
    | (with_reducible apply Keeps.foldl) | (with_reducible apply Keeps.foldl1) | (dsimp only)

theorem State.launchEnd_keeps {s : State} {q : QueueId} (h0 : Keeps s₀ s) :
    Keeps s₀ (State.launchEnd s q) := by
  unfold State.launchEnd
  try dsimp only
  repeat' first
    | (with_reducible intro _) | (with_reducible assumption) | (with_reducible apply State.cmdDone_keeps)
    | (with_reducible apply State.endLaunch_keeps) | (fail_if_no_progress with_reducible apply Keeps.update)
    | (with_reducible apply Keeps.ite) | split | (dsimp only)

theorem State.partEnded_keeps {s : State} {m : Nat} (h0 : Keeps s₀ s) :
    Keeps s₀ (State.partEnded s m) := by
  unfold State.partEnded
  try dsimp only
  repeat' first
    | (with_reducible intro _) | (with_reducible assumption) | (with_reducible apply State.partOver_keeps)
    | (with_reducible apply State.takeMsg_keeps) | (with_reducible apply State.failLaunch_keeps)
    | (with_reducible apply State.setLaunch_keeps) | (fail_if_no_progress with_reducible apply Keeps.update) | split
    | (dsimp only)

theorem State.signalStart_keeps {s : State} {q : QueueId} {b : List Byte} (h0 : Keeps s₀ s) :
    Keeps s₀ (State.signalStart s q b) := by
  unfold State.signalStart
  try dsimp only
  repeat' first
    | (with_reducible intro _) | (with_reducible assumption) | (with_reducible apply State.fenceLost_keeps)
    | (with_reducible apply State.updQueue_keeps) | (with_reducible apply State.fenceSend_keeps)
    | (fail_if_no_progress with_reducible apply Keeps.update) | (with_reducible apply Keeps.ite) | split
    | (dsimp only)

theorem State.stopAcked_keeps {s : State} {m : Nat} (h0 : Keeps s₀ s) :
    Keeps s₀ (State.stopAcked s m) := by
  unfold State.stopAcked
  try dsimp only
  repeat' first
    | (with_reducible intro _) | (with_reducible assumption) | (with_reducible apply State.stopAck_keeps)
    | (with_reducible apply State.takeMsg_keeps) | (fail_if_no_progress with_reducible apply Keeps.update) | split
    | (dsimp only)

theorem State.stopHere_keeps {s : State} {m : Nat} (h0 : Keeps s₀ s) :
    Keeps s₀ (State.stopHere s m) := by
  unfold State.stopHere
  try dsimp only
  repeat' first
    | (with_reducible intro _) | (with_reducible assumption) | (with_reducible apply State.takeMsg_keeps)
    | (with_reducible apply State.sendMsg_keeps) | (with_reducible apply State.quietCheck_keeps)
    | (with_reducible apply State.updCore_keeps) | (with_reducible apply State.stopCore_keeps)
    | (with_reducible apply State.withdrawImages_keeps) | (fail_if_no_progress with_reducible apply Keeps.update)
    | (with_reducible apply Keeps.ite) | (with_reducible apply Keeps.foldl) | (with_reducible apply Keeps.foldl1)
    | split | (dsimp only)

theorem State.takeRecord_keeps {s : State} {m : Nat} (h0 : Keeps s₀ s) :
    Keeps s₀ (State.takeRecord s m) := by
  unfold State.takeRecord
  try dsimp only
  repeat' first
    | (with_reducible intro _) | (with_reducible assumption) | (with_reducible apply State.takeMsg_keeps)
    | (with_reducible apply State.sendMsg_keeps) | (with_reducible apply State.startWalk_keeps)
    | (with_reducible apply State.askSlot_keeps) | (with_reducible apply State.pinAll_keeps)
    | (with_reducible apply State.setLaunch_keeps) | (fail_if_no_progress with_reducible apply Keeps.update)
    | (with_reducible apply Keeps.ite) | split | (dsimp only)

theorem State.testRun_keeps {s : State} {q : QueueId} {b : List Byte} (h0 : Keeps s₀ s) :
    Keeps s₀ (State.testRun s q b) := by
  unfold State.testRun
  try dsimp only
  repeat' first
    | (with_reducible intro _) | (with_reducible assumption) | (with_reducible apply State.cmdRead_keeps)
    | (with_reducible apply State.cmdDone_keeps) | (with_reducible apply State.updQueue_keeps) | (dsimp only)

theorem State.timeRun_keeps {s : State} {q : QueueId} {b : List Byte} (h0 : Keeps s₀ s) :
    Keeps s₀ (State.timeRun s q b) := by
  unfold State.timeRun
  try dsimp only
  repeat' first
    | (with_reducible intro _) | (with_reducible assumption) | (with_reducible apply State.cmdWrite_keeps)
    | (with_reducible apply State.cmdDone_keeps) | (dsimp only)

theorem State.waitAgain_keeps {s : State} {q : QueueId} (h0 : Keeps s₀ s) :
    Keeps s₀ (State.waitAgain s q) := by
  unfold State.waitAgain
  try dsimp only
  repeat' first
    | (with_reducible intro _) | (with_reducible assumption) | (with_reducible apply State.waitRead_keeps)
    | (with_reducible apply Keeps.ite) | split | (dsimp only)

theorem State.waitStart_keeps {s : State} {q : QueueId} {x2 : List Byte} (h0 : Keeps s₀ s) :
    Keeps s₀ (State.waitStart s q x2) := by
  unfold State.waitStart
  try dsimp only
  repeat' first
    | (with_reducible intro _) | (with_reducible assumption) | (with_reducible apply State.waitRead_keeps)
    | (with_reducible apply State.updQueue_keeps) | (fail_if_no_progress with_reducible apply Keeps.update)
    | (dsimp only)

theorem State.writeRun_keeps {s : State} {q : QueueId} {b : List Byte} (h0 : Keeps s₀ s) :
    Keeps s₀ (State.writeRun s q b) := by
  unfold State.writeRun
  try dsimp only
  repeat' first
    | (with_reducible intro _) | (with_reducible assumption) | (with_reducible apply State.cmdWrite_keeps)
    | (with_reducible apply State.cmdDone_keeps) | (dsimp only)

end Sys2Proof.Machine
end

