-- ==== Sys2Proof/Laws/KeepsMargin.lean ====
section
/-!
SUPPORT. Every operation of Machine/Margin.lean keeps what every operation keeps.
-/
set_option linter.unreachableTactic false
set_option linter.unusedTactic false
namespace Sys2Proof.Machine

variable {s₀ : State}

theorem State.setRegion_keeps {s : State} {d : DieId} {r : Nat} {v : Region} (h0 : Keeps s₀ s) :
    Keeps s₀ (State.setRegion s d r v) := by
  unfold State.setRegion
  try dsimp only
  repeat' first
    | (with_reducible intro _) | (with_reducible assumption) | (with_reducible apply State.setSteward_keeps)
    | (fail_if_no_progress with_reducible apply Keeps.update) | (dsimp only)

theorem State.askPlan_keeps {s : State} {d : DieId} {kind : PlanKind} {r : Nat} (h0 : Keeps s₀ s) :
    Keeps s₀ (State.askPlan s d kind r) := by
  unfold State.askPlan
  try dsimp only
  repeat' first
    | (with_reducible intro _) | (with_reducible assumption) | (with_reducible apply State.setRegion_keeps)
    | (fail_if_no_progress with_reducible apply Keeps.update) | (with_reducible apply Keeps.ite) | split
    | (dsimp only)

theorem State.codesReset_keeps {s : State} {d : DieId} (h0 : Keeps s₀ s) :
    Keeps s₀ (State.codesReset s d) := by
  unfold State.codesReset
  try dsimp only
  repeat' first
    | (with_reducible intro _) | (with_reducible assumption) | (with_reducible apply State.setDie_keeps)
    | (with_reducible apply State.setRegion_keeps) | (fail_if_no_progress with_reducible apply Keeps.update)
    | (with_reducible apply Keeps.ite) | (with_reducible apply Keeps.foldl) | (with_reducible apply Keeps.foldl1)
    | split | (dsimp only)

theorem State.startFault_keeps {s : State} {d : DieId} {code : Nat} {stop : Bool} (h0 : Keeps s₀ s) :
    Keeps s₀ (State.startFault s d code stop) := by
  unfold State.startFault
  try dsimp only
  repeat' first
    | (with_reducible intro _) | (with_reducible assumption) | (with_reducible apply State.setDie_keeps)
    | (fail_if_no_progress with_reducible apply Keeps.update) | (with_reducible apply Keeps.ite) | split
    | (dsimp only)

theorem State.planRecord_keeps {s : State} {d : DieId} {kind : PlanKind} (h0 : Keeps s₀ s) :
    Keeps s₀ (State.planRecord s d kind) := by
  unfold State.planRecord
  try dsimp only
  repeat' first
    | (with_reducible intro _) | (with_reducible assumption) | (with_reducible apply State.journal_keeps)
    | (dsimp only)

theorem State.enterStage_keeps {s : State} {d : DieId} {st : Stage} (h0 : Keeps s₀ s) :
    Keeps s₀ (State.enterStage s d st) := by
  unfold State.enterStage
  try dsimp only
  repeat' first
    | (with_reducible intro _) | (with_reducible assumption) | (with_reducible apply State.setDie_keeps)
    | (fail_if_no_progress with_reducible apply Keeps.update) | (dsimp only)

theorem State.startPlanOver_keeps {s : State} {d : DieId} (h0 : Keeps s₀ s) :
    Keeps s₀ (State.startPlanOver s d) := by
  unfold State.startPlanOver
  try dsimp only
  repeat' first
    | (with_reducible intro _) | (with_reducible assumption) | (with_reducible apply State.setSteward_keeps)
    | (with_reducible apply State.planRecord_keeps) | (with_reducible apply State.setDie_keeps)
    | (with_reducible apply State.enterStage_keeps) | (with_reducible apply State.setRegion_keeps)
    | (with_reducible apply State.journal_keeps) | (fail_if_no_progress with_reducible apply Keeps.update)
    | (with_reducible apply Keeps.ite) | (with_reducible apply Keeps.foldl) | (with_reducible apply Keeps.foldl1)
    | split | (dsimp only)

theorem State.setTarget_keeps {s : State} {d : DieId} (h0 : Keeps s₀ s) :
    Keeps s₀ (State.setTarget s d) := by
  unfold State.setTarget
  try dsimp only
  repeat' first
    | (with_reducible intro _) | (with_reducible assumption) | (with_reducible apply State.setSteward_keeps)
    | (fail_if_no_progress with_reducible apply Keeps.update) | (dsimp only)

theorem State.planRecords_keeps {s : State} {d : DieId} (h0 : Keeps s₀ s) :
    Keeps s₀ (State.planRecords s d) := by
  unfold State.planRecords
  try dsimp only
  repeat' first
    | (with_reducible intro _) | (with_reducible assumption) | (with_reducible apply State.planRecord_keeps)
    | (with_reducible apply State.setSteward_keeps) | (fail_if_no_progress with_reducible apply Keeps.update)
    | (with_reducible apply Keeps.ite) | (with_reducible apply Keeps.foldl) | (with_reducible apply Keeps.foldl1)
    | split | (dsimp only)

theorem State.planOver_keeps {s : State} {d : DieId} {kind : PlanKind} {changed : Bool} (h0 : Keeps s₀ s) :
    Keeps s₀ (State.planOver s d kind changed) := by
  unfold State.planOver
  try dsimp only
  repeat' first
    | (with_reducible intro _) | (with_reducible assumption) | (with_reducible apply State.startPlanOver_keeps)
    | (with_reducible apply State.enterStage_keeps) | (with_reducible apply State.setDie_keeps)
    | (with_reducible apply State.setTarget_keeps) | (with_reducible apply State.planRecords_keeps)
    | (with_reducible apply State.setSteward_keeps) | (fail_if_no_progress with_reducible apply Keeps.update)
    | (with_reducible apply Keeps.ite) | split | (dsimp only)

theorem State.planEnd_keeps {s : State} {d : DieId} {kind : PlanKind} {changed : Bool} (h0 : Keeps s₀ s) :
    Keeps s₀ (State.planEnd s d kind changed) := by
  unfold State.planEnd
  try dsimp only
  repeat' first
    | (with_reducible intro _) | (with_reducible assumption) | (with_reducible apply State.planOver_keeps)
    | (with_reducible apply State.setSteward_keeps) | (fail_if_no_progress with_reducible apply Keeps.update)
    | (with_reducible apply Keeps.ite) | split | (dsimp only)

theorem State.planDone_keeps {s : State} {d : DieId} {r : Nat} {kind : PlanKind} {slack : Int} (h0 : Keeps s₀ s) :
    Keeps s₀ (State.planDone s d r kind slack) := by
  unfold State.planDone
  try dsimp only
  repeat' first
    | (with_reducible intro _) | (with_reducible assumption) | (with_reducible apply State.setRegion_keeps)
    | (with_reducible apply State.startFault_keeps) | (with_reducible apply State.report_keeps)
    | (with_reducible apply State.setCluster_keeps) | (with_reducible apply State.noteErr_keeps)
    | (with_reducible apply State.setSteward_keeps) | (with_reducible apply State.planEnd_keeps)
    | (fail_if_no_progress with_reducible apply Keeps.update) | (with_reducible apply Keeps.ite) | split
    | (dsimp only)

theorem State.planStep_keeps {s : State} {d : DieId} {r : Nat} (h0 : Keeps s₀ s) :
    Keeps s₀ (State.planStep s d r) := by
  unfold State.planStep
  try dsimp only
  repeat' first
    | (with_reducible intro _) | (with_reducible assumption) | (with_reducible apply State.setRegion_keeps)
    | (with_reducible apply State.planDone_keeps) | (fail_if_no_progress with_reducible apply Keeps.update)
    | (with_reducible apply Keeps.ite) | split | (dsimp only)

theorem State.beginPlan_keeps {s : State} {d : DieId} {r : Nat} (h0 : Keeps s₀ s) :
    Keeps s₀ (State.beginPlan s d r) := by
  unfold State.beginPlan
  try dsimp only
  repeat' first
    | (with_reducible intro _) | (with_reducible assumption) | (with_reducible apply State.planStep_keeps)
    | (with_reducible apply State.setRegion_keeps) | (fail_if_no_progress with_reducible apply Keeps.update) | split
    | (dsimp only)

theorem State.startPlans_keeps {s : State} {d : DieId} (h0 : Keeps s₀ s) :
    Keeps s₀ (State.startPlans s d) := by
  unfold State.startPlans
  try dsimp only
  repeat' first
    | (with_reducible intro _) | (with_reducible assumption) | (with_reducible apply State.setRegion_keeps)
    | (fail_if_no_progress with_reducible apply Keeps.update) | (with_reducible apply Keeps.ite)
    | (with_reducible apply Keeps.foldl) | (with_reducible apply Keeps.foldl1) | split | (dsimp only)

theorem State.beginStartPlan_keeps {s : State} {d : DieId} (h0 : Keeps s₀ s) :
    Keeps s₀ (State.beginStartPlan s d) := by
  unfold State.beginStartPlan
  try dsimp only
  repeat' first
    | (with_reducible intro _) | (with_reducible assumption) | (with_reducible apply State.setSteward_keeps)
    | (with_reducible apply State.setRegion_keeps) | (with_reducible apply State.startPlans_keeps)
    | (fail_if_no_progress with_reducible apply Keeps.update) | (with_reducible apply Keeps.foldl)
    | (with_reducible apply Keeps.foldl1) | (dsimp only)

theorem State.dieReplan_keeps {s : State} {d : DieId} (h0 : Keeps s₀ s) :
    Keeps s₀ (State.dieReplan s d) := by
  unfold State.dieReplan
  try dsimp only
  repeat' first
    | (with_reducible intro _) | (with_reducible assumption) | (with_reducible apply State.setDie_keeps)
    | (with_reducible apply State.setRegion_keeps) | (with_reducible apply State.planOver_keeps)
    | (fail_if_no_progress with_reducible apply Keeps.update) | (with_reducible apply Keeps.ite)
    | (with_reducible apply Keeps.foldl) | (with_reducible apply Keeps.foldl1) | split | (dsimp only)

theorem State.ember_keeps {s : State} {d : DieId} {r : Nat} {mon : Nat} {reading : Byte} (h0 : Keeps s₀ s) :
    Keeps s₀ (State.ember s d r mon reading) := by
  unfold State.ember
  try dsimp only
  repeat' first
    | (with_reducible intro _) | (with_reducible assumption) | (with_reducible apply State.setRegion_keeps)
    | (with_reducible apply State.hmEvent_keeps) | (with_reducible apply State.askPlan_keeps)
    | (with_reducible apply State.report_keeps) | (with_reducible apply State.planStep_keeps)
    | (fail_if_no_progress with_reducible apply Keeps.update) | (with_reducible apply Keeps.ite) | split
    | (dsimp only)

theorem State.monitorFailed_keeps {s : State} {d : DieId} {r : Nat} {mon : Nat} (h0 : Keeps s₀ s) :
    Keeps s₀ (State.monitorFailed s d r mon) := by
  unfold State.monitorFailed
  try dsimp only
  repeat' first
    | (with_reducible intro _) | (with_reducible assumption) | (with_reducible apply State.setRegion_keeps)
    | (with_reducible apply State.report_keeps) | (with_reducible apply State.planEnd_keeps)
    | (fail_if_no_progress with_reducible apply Keeps.update) | (with_reducible apply Keeps.ite) | split
    | (dsimp only)

theorem State.monitorsBack_keeps {s : State} {k : ClusterId} (h0 : Keeps s₀ s) :
    Keeps s₀ (State.monitorsBack s k) := by
  unfold State.monitorsBack
  try dsimp only
  repeat' first
    | (with_reducible intro _) | (with_reducible assumption) | (with_reducible apply State.setRegion_keeps)
    | (with_reducible apply Keeps.foldl) | (with_reducible apply Keeps.foldl1) | (dsimp only)

theorem State.periodicPlan_keeps {s : State} {d : DieId} (h0 : Keeps s₀ s) :
    Keeps s₀ (State.periodicPlan s d) := by
  unfold State.periodicPlan
  try dsimp only
  repeat' first
    | (with_reducible intro _) | (with_reducible assumption) | (with_reducible apply State.setSteward_keeps)
    | (with_reducible apply State.setRegion_keeps) | (with_reducible apply State.beginPlan_keeps)
    | (fail_if_no_progress with_reducible apply Keeps.update) | (with_reducible apply Keeps.ite)
    | (with_reducible apply Keeps.foldl) | (with_reducible apply Keeps.foldl1) | split | (dsimp only)

theorem State.slackHour_keeps {s : State} {d : DieId} (h0 : Keeps s₀ s) :
    Keeps s₀ (State.slackHour s d) := by
  unfold State.slackHour
  try dsimp only
  repeat' first
    | (with_reducible intro _) | (with_reducible assumption) | (with_reducible apply State.setSteward_keeps)
    | (with_reducible apply State.journal_keeps) | (fail_if_no_progress with_reducible apply Keeps.update)
    | (with_reducible apply Keeps.ite) | split | (dsimp only)

theorem State.vreqStep_keeps {s : State} {d : DieId} (h0 : Keeps s₀ s) :
    Keeps s₀ (State.vreqStep s d) := by
  unfold State.vreqStep
  try dsimp only
  repeat' first
    | (with_reducible intro _) | (with_reducible assumption) | (with_reducible apply State.setSteward_keeps)
    | (with_reducible apply State.planRecords_keeps) | (with_reducible apply State.startPlans_keeps)
    | (fail_if_no_progress with_reducible apply Keeps.update) | (with_reducible apply Keeps.ite) | split
    | (dsimp only)

end Sys2Proof.Machine
end

