-- ==== Sys2Proof/Laws/KeepsResetEff.lean ====
section
/-!
SUPPORT. Every operation of Machine/ResetEff.lean keeps what every operation keeps.
-/
set_option linter.unreachableTactic false
set_option linter.unusedTactic false
namespace Sys2Proof.Machine

variable {s₀ : State}

theorem State.setEsc_keeps {s : State} {d : DieId} {n : Nat} {e : Escalation} (h0 : Keeps s₀ s) :
    Keeps s₀ (State.setEsc s d n e) := by
  unfold State.setEsc
  try dsimp only
  repeat' first
    | (with_reducible intro _) | (with_reducible assumption) | (with_reducible apply State.setDie_keeps)
    | (fail_if_no_progress with_reducible apply Keeps.update) | (dsimp only)

theorem State.failPart_keeps {s : State} {d : DieId} {q : Nat} {code : Nat} {info : Nat} (h0 : Keeps s₀ s) :
    Keeps s₀ (State.failPart s d q code info) := by
  unfold State.failPart
  try dsimp only
  repeat' first
    | (with_reducible intro _) | (with_reducible assumption) | (with_reducible apply State.stopPart_keeps)
    | (with_reducible apply State.stopLaunch_keeps) | (with_reducible apply State.partFault_keeps)
    | (fail_if_no_progress with_reducible apply Keeps.update) | (with_reducible apply Keeps.ite) | split
    | (dsimp only)

theorem State.failStart_keeps {s : State} {d : DieId} {start : ResetUnit} {code : Nat} {q : Nat} (h0 : Keeps s₀ s) :
    Keeps s₀ (State.failStart s d start code q) := by
  unfold State.failStart
  try dsimp only
  repeat' first
    | (with_reducible intro _) | (with_reducible assumption) | (with_reducible apply State.stopPart_keeps)
    | (with_reducible apply State.failPart_keeps) | (with_reducible apply Keeps.ite) | split | (dsimp only)

theorem State.failUnits_keeps {s : State} {d : DieId} {u : ResetUnit} {start : ResetUnit} {code : Nat} (h0 : Keeps s₀ s) :
    Keeps s₀ (State.failUnits s d u start code) := by
  unfold State.failUnits
  try dsimp only
  repeat' first
    | (with_reducible intro _) | (with_reducible assumption) | (with_reducible apply State.failStart_keeps)
    | (with_reducible apply State.failPart_keeps) | (fail_if_no_progress with_reducible apply Keeps.update)
    | (with_reducible apply Keeps.foldl) | (with_reducible apply Keeps.foldl1) | split | (dsimp only)

theorem State.failEntry_keeps {s : State} {d : DieId} {info : Nat} {x : PartEntry} (h0 : Keeps s₀ s) :
    Keeps s₀ (State.failEntry s d info x) := by
  unfold State.failEntry
  try dsimp only
  repeat' first
    | (with_reducible intro _) | (with_reducible assumption) | (with_reducible apply State.partFault_keeps)
    | (with_reducible apply Keeps.ite) | split | (dsimp only)

theorem State.clearUnit_keeps {s : State} {x1 : ResetUnit} (h0 : Keeps s₀ s) :
    Keeps s₀ (State.clearUnit s x1) := by
  unfold State.clearUnit
  try dsimp only
  repeat' first
    | (with_reducible intro _) | (with_reducible assumption) | (with_reducible apply State.setArr_keeps)
    | (with_reducible apply State.updCore_keeps) | (with_reducible apply State.setCluster_keeps)
    | (with_reducible apply State.setCore_keeps) | (with_reducible apply State.releaseGrant_keeps)
    | (fail_if_no_progress with_reducible apply Keeps.update) | (with_reducible apply Keeps.foldl)
    | (with_reducible apply Keeps.foldl1) | split | (dsimp only)

theorem State.dropReq_keeps {s : State} {n : Nat} {r : Req} (h0 : Keeps s₀ s) :
    Keeps s₀ (State.dropReq s n r) := by
  unfold State.dropReq
  try dsimp only
  repeat' first
    | (with_reducible intro _) | (with_reducible assumption) | (with_reducible apply State.setLink_keeps)
    | (fail_if_no_progress with_reducible apply Keeps.update) | split | (dsimp only)

theorem State.orphanReqs_keeps {s : State} {d : DieId} {u : ResetUnit} (h0 : Keeps s₀ s) :
    Keeps s₀ (State.orphanReqs s d u) := by
  unfold State.orphanReqs
  try dsimp only
  repeat' first
    | (with_reducible intro _) | (with_reducible assumption) | (with_reducible apply State.setDie_keeps)
    | (with_reducible apply State.dropReq_keeps) | (fail_if_no_progress with_reducible apply Keeps.update)
    | (with_reducible apply Keeps.ite) | (with_reducible apply Keeps.foldl) | (with_reducible apply Keeps.foldl1)
    | split | (dsimp only)

theorem State.resetCompute_keeps {s : State} {d : DieId} (h0 : Keeps s₀ s) :
    Keeps s₀ (State.resetCompute s d) := by
  unfold State.resetCompute
  try dsimp only
  repeat' first
    | (with_reducible intro _) | (with_reducible assumption) | (with_reducible apply State.failEntry_keeps)
    | (with_reducible apply State.lose_keeps) | (with_reducible apply State.updQueue_keeps)
    | (with_reducible apply State.takeMsg_keeps) | (with_reducible apply State.codesReset_keeps)
    | (with_reducible apply State.putCtx_keeps) | (with_reducible apply State.clearUnit_keeps)
    | (with_reducible apply State.orphanReqs_keeps) | (with_reducible apply State.setDie_keeps)
    | (fail_if_no_progress with_reducible apply Keeps.update) | (with_reducible apply Keeps.ite)
    | (with_reducible apply Keeps.foldl) | (with_reducible apply Keeps.foldl1) | (with_reducible apply KeepsO.bind)
    | split | (dsimp only)

end Sys2Proof.Machine
end

