-- ==== Sys2Proof/Laws/KeepsStwOps.lean ====
section
/-!
SUPPORT. Every operation of Machine/StwOps.lean keeps what every operation keeps.
-/
set_option linter.unreachableTactic false
set_option linter.unusedTactic false
namespace Sys2Proof.Machine

variable {s₀ : State}

theorem State.seqRes_keeps {s : State} {d : DieId} {key : Fin 2} {dir : Nat} {limit : W64} {after : JrnAfter} (h0 : Keeps s₀ s) :
    Keeps s₀ (State.seqRes s d key dir limit after) := by
  unfold State.seqRes
  try dsimp only
  repeat' first
    | (with_reducible intro _) | (with_reducible assumption) | (with_reducible apply State.journal_keeps)
    | (dsimp only)

theorem State.dapSend_keeps {s : State} {d : DieId} {key : Fin 2} {resp : List Byte} {addr : List Byte} (h0 : Keeps s₀ s) :
    Keeps s₀ (State.dapSend s d key resp addr) := by
  unfold State.dapSend
  try dsimp only
  repeat' first
    | (with_reducible intro _) | (with_reducible assumption) | (with_reducible apply State.setSteward_keeps)
    | (with_reducible apply State.setNet_keeps) | (fail_if_no_progress with_reducible apply Keeps.update)
    | (dsimp only)

theorem State.dapRespond_keeps {s : State} {d : DieId} {key : Fin 2} {resp : List Byte} {addr : List Byte} (h0 : Keeps s₀ s) :
    Keeps s₀ (State.dapRespond s d key resp addr) := by
  unfold State.dapRespond
  try dsimp only
  repeat' first
    | (with_reducible intro _) | (with_reducible assumption) | (with_reducible apply State.seqRes_keeps)
    | (with_reducible apply State.dapSend_keeps) | (with_reducible apply Keeps.ite) | split | (dsimp only)

theorem State.answerPath_keeps {s : State} {d : DieId} {p : DPath} {r : DResp} (h0 : Keeps s₀ s) :
    Keeps s₀ (State.answerPath s d p r) := by
  unfold State.answerPath
  try dsimp only
  repeat' first
    | (with_reducible intro _) | (with_reducible assumption) | (with_reducible apply State.dapRespond_keeps)
    | (with_reducible apply State.setSteward_keeps) | (with_reducible apply State.postIm_keeps)
    | (fail_if_no_progress with_reducible apply Keeps.update) | (with_reducible apply Keeps.ite) | split
    | (dsimp only)

theorem State.putVals_keeps {s : State} {d : DieId} {x2 : List (Nat × BitVec 128)} (h0 : Keeps s₀ s) :
    Keeps s₀ (State.putVals s d x2) := by
  revert h0
  fun_induction State.putVals s d x2
  try dsimp only
  repeat' first
    | (with_reducible intro _) | (with_reducible assumption) | (with_reducible apply State.setSteward_keeps)
    | (with_reducible apply State.setMonitor_keeps) | (with_reducible apply_assumption)
    | (fail_if_no_progress with_reducible apply Keeps.update) | (with_reducible apply Keeps.ite) | split
    | (dsimp only) | (dsimp +zetaDelta only)

theorem State.takeToken_keeps {s : State} {d : DieId} {p : DPath} (h0 : Keeps s₀ s) :
    Keeps s₀ (State.takeToken s d p) := by
  unfold State.takeToken
  try dsimp only
  repeat' first
    | (with_reducible intro _) | (with_reducible assumption) | (with_reducible apply State.setSteward_keeps)
    | (fail_if_no_progress with_reducible apply Keeps.update) | (dsimp only)

theorem State.takeIfAny_keeps {s : State} {d : DieId} {p : DPath} (h0 : Keeps s₀ s) :
    Keeps s₀ (State.takeIfAny s d p) := by
  unfold State.takeIfAny
  try dsimp only
  repeat' first
    | (with_reducible intro _) | (with_reducible assumption) | (with_reducible apply State.takeToken_keeps)
    | (with_reducible apply Keeps.ite) | split | (dsimp only)

theorem State.dapHandle_keeps {s : State} {d : DieId} {key : Fin 2} {seq : W64} {block : List Byte} {src : List Byte} (h0 : Keeps s₀ s) :
    Keeps s₀ (State.dapHandle s d key seq block src) := by
  unfold State.dapHandle
  try dsimp only
  repeat' first
    | (with_reducible intro _) | (with_reducible assumption) | (with_reducible apply State.dapRespond_keeps)
    | (with_reducible apply State.takeIfAny_keeps) | (with_reducible apply State.setSteward_keeps)
    | (with_reducible apply State.seqRes_keeps) | (fail_if_no_progress with_reducible apply Keeps.update)
    | (with_reducible apply Keeps.ite) | split | (dsimp only)

theorem State.dapGo_keeps {s : State} {d : DieId} {key : Fin 2} {x3 : List (W64 × List Byte × List Byte)} (h0 : Keeps s₀ s) :
    Keeps s₀ (State.dapGo s d key x3) := by
  revert h0
  fun_induction State.dapGo s d key x3
  try dsimp only
  repeat' first
    | (with_reducible intro _) | (with_reducible assumption) | (with_reducible apply State.dapHandle_keeps)
    | (with_reducible apply State.setSteward_keeps) | (with_reducible apply_assumption)
    | (fail_if_no_progress with_reducible apply Keeps.update) | (with_reducible apply Keeps.ite) | split
    | (dsimp only) | (dsimp +zetaDelta only)

theorem State.dapNext_keeps {s : State} {d : DieId} {key : Fin 2} (h0 : Keeps s₀ s) :
    Keeps s₀ (State.dapNext s d key) := by
  unfold State.dapNext
  try dsimp only
  repeat' first
    | (with_reducible intro _) | (with_reducible assumption) | (with_reducible apply State.dapGo_keeps)
    | (with_reducible apply State.setSteward_keeps) | (fail_if_no_progress with_reducible apply Keeps.update)
    | (dsimp only)

theorem State.restartSteward_keeps {s : State} {d : DieId} (h0 : Keeps s₀ s) :
    Keeps s₀ (State.restartSteward s d) := by
  unfold State.restartSteward
  try dsimp only
  repeat' first
    | (with_reducible intro _) | (with_reducible assumption) | (with_reducible apply State.setSteward_keeps)
    | (with_reducible apply State.resetCompute_keeps) | (with_reducible apply State.enterStage_keeps)
    | (with_reducible apply State.setDie_keeps) | (fail_if_no_progress with_reducible apply Keeps.update)
    | (with_reducible apply Keeps.ite) | split | (dsimp only)

end Sys2Proof.Machine
end

