-- ==== Sys2Proof/Laws/KeepsDict.lean ====
section
/-!
SUPPORT. Every operation of Machine/Dict.lean keeps what every operation keeps.
-/
set_option linter.unreachableTactic false
set_option linter.unusedTactic false
namespace Sys2Proof.Machine

variable {s₀ : State}

theorem State.chargeRecord_keeps {s : State} {d : DieId} {p : DPath} {kind : Nat} {payload : List Byte} {after : JrnAfter} (h0 : Keeps s₀ s) :
    Keeps s₀ (State.chargeRecord s d p kind payload after) := by
  unfold State.chargeRecord
  try dsimp only
  repeat' first
    | (with_reducible intro _) | (with_reducible assumption) | (with_reducible apply State.answerPath_keeps)
    | (with_reducible apply State.setSteward_keeps) | (with_reducible apply State.journal_keeps)
    | (fail_if_no_progress with_reducible apply Keeps.update) | (with_reducible apply Keeps.ite) | split
    | (dsimp only)

theorem State.hmWrite_keeps {s : State} {d : DieId} {v : W64} (h0 : Keeps s₀ s) :
    Keeps s₀ (State.hmWrite s d v) := by
  unfold State.hmWrite
  try dsimp only
  repeat' first
    | (with_reducible intro _) | (with_reducible assumption) | (with_reducible apply State.setDie_keeps)
    | (fail_if_no_progress with_reducible apply Keeps.update) | split | (dsimp only)

theorem State.frameDropped_keeps {s : State} {d : DieId} (h0 : Keeps s₀ s) :
    Keeps s₀ (State.frameDropped s d) := by
  unfold State.frameDropped
  try dsimp only
  repeat' first
    | (with_reducible intro _) | (with_reducible assumption) | (with_reducible apply State.setNet_keeps)
    | (fail_if_no_progress with_reducible apply Keeps.update) | (with_reducible apply Keeps.ite) | split
    | (dsimp only)

theorem State.dapFrame_keeps {s : State} {d : DieId} {f : List Byte} (h0 : Keeps s₀ s) :
    Keeps s₀ (State.dapFrame s d f) := by
  unfold State.dapFrame
  try dsimp only
  repeat' first
    | (with_reducible intro _) | (with_reducible assumption) | (with_reducible apply State.frameDropped_keeps)
    | (with_reducible apply State.setSteward_keeps) | (with_reducible apply State.dapHandle_keeps)
    | (fail_if_no_progress with_reducible apply Keeps.update) | (with_reducible apply Keeps.ite) | split
    | (dsimp only)

theorem State.dictCommitGroup_keeps {s : State} {d : DieId} {p : DPath} {g : Nat} (h0 : Keeps s₀ s) :
    Keeps s₀ (State.dictCommitGroup s d p g) := by
  unfold State.dictCommitGroup
  try dsimp only
  repeat' first
    | (with_reducible intro _) | (with_reducible assumption) | (with_reducible apply State.answerPath_keeps)
    | (with_reducible apply State.putVals_keeps) | (with_reducible apply State.settleCuffs_keeps)
    | (with_reducible apply State.setSteward_keeps) | (with_reducible apply State.chargeRecord_keeps)
    | (fail_if_no_progress with_reducible apply Keeps.update) | (with_reducible apply Keeps.ite) | split
    | (dsimp only)

theorem State.objReadDone_keeps {s : State} {d : DieId} {index : Nat} {sub : Nat} (h0 : Keeps s₀ s) :
    Keeps s₀ (State.objReadDone s d index sub) := by
  unfold State.objReadDone
  try dsimp only
  repeat' first
    | (with_reducible intro _) | (with_reducible assumption) | (with_reducible apply State.setSteward_keeps)
    | (with_reducible apply State.setNet_keeps) | (fail_if_no_progress with_reducible apply Keeps.update) | split
    | (dsimp only)

theorem State.objWriteNow_keeps {s : State} {d : DieId} {index : Nat} {sub : Nat} {v : Nat} (h0 : Keeps s₀ s) :
    Keeps s₀ (State.objWriteNow s d index sub v) := by
  unfold State.objWriteNow
  try dsimp only
  repeat' first
    | (with_reducible intro _) | (with_reducible assumption) | (with_reducible apply State.noteErr_keeps)
    | (with_reducible apply State.setSteward_keeps) | (with_reducible apply State.setNet_keeps)
    | (with_reducible apply State.hmWrite_keeps) | (fail_if_no_progress with_reducible apply Keeps.update)
    | (with_reducible apply Keeps.ite) | split | (dsimp only)

theorem State.dictWriteObj_keeps {s : State} {d : DieId} {p : DPath} {r : List Byte} {a : ObjAttr} (h0 : Keeps s₀ s) :
    Keeps s₀ (State.dictWriteObj s d p r a) := by
  unfold State.dictWriteObj
  try dsimp only
  repeat' first
    | (with_reducible intro _) | (with_reducible assumption) | (with_reducible apply State.setDie_keeps)
    | (with_reducible apply State.chargeRecord_keeps) | (with_reducible apply State.setSteward_keeps)
    | (with_reducible apply State.answerPath_keeps) | (with_reducible apply State.objWriteNow_keeps)
    | (with_reducible apply State.restartSteward_keeps) | (fail_if_no_progress with_reducible apply Keeps.update)
    | (with_reducible apply Keeps.ite) | split | (dsimp only)

theorem State.dictDo_keeps {s : State} {d : DieId} {p : DPath} {r : List Byte} (h0 : Keeps s₀ s) :
    Keeps s₀ (State.dictDo s d p r) := by
  unfold State.dictDo
  try dsimp only
  repeat' first
    | (with_reducible intro _) | (with_reducible assumption) | (with_reducible apply State.answerPath_keeps)
    | (with_reducible apply State.objReadDone_keeps) | (with_reducible apply State.dictWriteObj_keeps)
    | (with_reducible apply State.dictCommitGroup_keeps) | (with_reducible apply State.setSteward_keeps)
    | (with_reducible apply State.restartSteward_keeps) | (fail_if_no_progress with_reducible apply Keeps.update)
    | split | (dsimp only)

theorem State.touchSession_keeps {s : State} {d : DieId} {p : DPath} {g : Nat} (h0 : Keeps s₀ s) :
    Keeps s₀ (State.touchSession s d p g) := by
  unfold State.touchSession
  try dsimp only
  repeat' first
    | (with_reducible intro _) | (with_reducible assumption) | (with_reducible apply State.setSteward_keeps)
    | (fail_if_no_progress with_reducible apply Keeps.update) | (with_reducible apply Keeps.ite) | split
    | (dsimp only)

theorem State.serve_keeps {s : State} {d : DieId} {p : DPath} {kind : DKind} (h0 : Keeps s₀ s) :
    Keeps s₀ (State.serve s d p kind) := by
  unfold State.serve
  try dsimp only
  repeat' first
    | (with_reducible intro _) | (with_reducible assumption) | (with_reducible apply State.setSteward_keeps)
    | (with_reducible apply State.takeToken_keeps) | (with_reducible apply State.answerPath_keeps)
    | (with_reducible apply State.touchSession_keeps) | (with_reducible apply State.dictDo_keeps)
    | (fail_if_no_progress with_reducible apply Keeps.update) | (with_reducible apply Keeps.ite) | split
    | (dsimp only)

theorem State.sessionEnd_keeps {s : State} {d : DieId} {g : Nat} (h0 : Keeps s₀ s) :
    Keeps s₀ (State.sessionEnd s d g) := by
  unfold State.sessionEnd
  try dsimp only
  repeat' first
    | (with_reducible intro _) | (with_reducible assumption) | (with_reducible apply State.setSteward_keeps)
    | (fail_if_no_progress with_reducible apply Keeps.update) | (with_reducible apply Keeps.ite) | split
    | (dsimp only)

end Sys2Proof.Machine
end

