-- ==== Sys2Proof/Laws/KeepsDie0.lean ====
section
/-!
SUPPORT. Every operation of Machine/Die0.lean keeps what every operation keeps.
-/
set_option linter.unreachableTactic false
set_option linter.unusedTactic false
namespace Sys2Proof.Machine

variable {s₀ : State}

theorem State.poolAnswer_keeps {s : State} {m : Nat} {c : CoreId} {free : Bool} {v : W64} {ok : Bool} (h0 : Keeps s₀ s) :
    Keeps s₀ (State.poolAnswer s m c free v ok) := by
  unfold State.poolAnswer
  try dsimp only
  repeat' first
    | (with_reducible intro _) | (with_reducible assumption) | (with_reducible apply State.sendMsg_keeps)
    | (with_reducible apply State.takeMsg_keeps) | (dsimp only)

theorem State.pool1_keeps {s : State} {m : Nat} (h0 : Keeps s₀ s) :
    Keeps s₀ (State.pool1 s m) := by
  unfold State.pool1
  try dsimp only
  repeat' first
    | (with_reducible intro _) | (with_reducible assumption) | (with_reducible apply State.busDone_keeps)
    | (with_reducible apply State.takeMsg_keeps) | (with_reducible apply State.poolAnswer_keeps)
    | (with_reducible apply State.faultAccess_keeps) | (with_reducible apply State.readVa_keeps)
    | (with_reducible apply State.lose_keeps) | (with_reducible apply State.writeVa_keeps)
    | (fail_if_no_progress with_reducible apply Keeps.update) | (with_reducible apply Keeps.ite)
    | (with_reducible refine Keeps.of_eq ?_ (by assumption)) | split | (dsimp only)

theorem State.pool1Result_keeps {s : State} {m : Nat} (h0 : Keeps s₀ s) :
    Keeps s₀ (State.pool1Result s m) := by
  unfold State.pool1Result
  try dsimp only
  repeat' first
    | (with_reducible intro _) | (with_reducible assumption) | (with_reducible apply State.takeMsg_keeps)
    | (with_reducible apply State.settle_keeps) | (with_reducible apply State.poolResult_keeps)
    | (fail_if_no_progress with_reducible apply Keeps.update) | (with_reducible apply Keeps.ite) | split
    | (dsimp only)

theorem State.semAnswer_keeps {s : State} {c : CoreId} {granted : Bool} (h0 : Keeps s₀ s) :
    Keeps s₀ (State.semAnswer s c granted) := by
  unfold State.semAnswer
  try dsimp only
  repeat' first
    | (with_reducible intro _) | (with_reducible assumption) | (with_reducible apply State.settle_keeps)
    | (with_reducible apply State.semResult_keeps) | (with_reducible apply State.sendMsg_keeps)
    | (with_reducible apply Keeps.ite) | split | (dsimp only)

theorem State.semGrant_keeps {s : State} {n : Nat} (h0 : Keeps s₀ s) :
    Keeps s₀ (State.semGrant s n) := by
  unfold State.semGrant
  try dsimp only
  repeat' first
    | (with_reducible intro _) | (with_reducible assumption) | (with_reducible apply State.semAnswer_keeps)
    | (with_reducible apply State.setSema_keeps) | (fail_if_no_progress with_reducible apply Keeps.update)
    | (with_reducible apply Keeps.ite) | split | (dsimp only)

theorem State.semRequest_keeps {s : State} {m : Nat} (h0 : Keeps s₀ s) :
    Keeps s₀ (State.semRequest s m) := by
  unfold State.semRequest
  try dsimp only
  repeat' first
    | (with_reducible intro _) | (with_reducible assumption) | (with_reducible apply State.takeMsg_keeps)
    | (with_reducible apply State.engFault_keeps) | (with_reducible apply State.setSema_keeps)
    | (with_reducible apply State.semAnswer_keeps) | (fail_if_no_progress with_reducible apply Keeps.update)
    | (with_reducible apply Keeps.ite) | split | (dsimp only)

end Sys2Proof.Machine
end

