-- ==== Sys2Proof/Laws/KeepsJrn.lean ====
section
/-!
SUPPORT. Every operation of Machine/Jrn.lean keeps what every operation keeps.
-/
set_option linter.unreachableTactic false
set_option linter.unusedTactic false
namespace Sys2Proof.Machine

variable {s₀ : State}

theorem State.applyFirst_keeps {s : State} {d : DieId} {l : List JrnRead} (h0 : Keeps s₀ s) :
    Keeps s₀ (State.applyFirst s d l) := by
  unfold State.applyFirst
  try dsimp only
  repeat' first
    | (with_reducible intro _) | (with_reducible assumption) | (with_reducible apply State.setRegion_keeps)
    | (fail_if_no_progress with_reducible apply Keeps.update) | (with_reducible apply Keeps.foldl)
    | (with_reducible apply Keeps.foldl1) | split | (dsimp only)

theorem State.applyLog_keeps {s : State} {d : DieId} {l : List JrnRead} (h0 : Keeps s₀ s) :
    Keeps s₀ (State.applyLog s d l) := by
  unfold State.applyLog
  try dsimp only
  repeat' first
    | (with_reducible intro _) | (with_reducible assumption) | (with_reducible apply State.putVals_keeps)
    | (with_reducible apply State.setSteward_keeps) | (fail_if_no_progress with_reducible apply Keeps.update) | split
    | (dsimp only)

theorem State.tear_keeps {s : State} {d : DieId} (h0 : Keeps s₀ s) :
    Keeps s₀ (State.tear s d).1 := by
  unfold State.tear
  try dsimp only
  repeat' first
    | (with_reducible intro _) | (with_reducible assumption) | (with_reducible apply State.draw_keeps)
    | (fail_if_no_progress with_reducible apply Keeps.update) | (with_reducible apply Keeps.ite)
    | (with_reducible apply Keeps.ite1) | (with_reducible refine Keeps.of_eq2 ?_ (by assumption)) | split
    | (dsimp only)

theorem State.compaction_keeps {s : State} {d : DieId} (h0 : Keeps s₀ s) :
    Keeps s₀ (State.compaction s d) := by
  unfold State.compaction
  try dsimp only
  repeat' first
    | (with_reducible intro _) | (with_reducible assumption) | (with_reducible apply State.setSteward_keeps)
    | (fail_if_no_progress with_reducible apply Keeps.update) | (with_reducible apply Keeps.ite)
    | (with_reducible apply Keeps.foldl) | (with_reducible apply Keeps.foldl1) | split | (dsimp only)

theorem State.replayOver_keeps {s : State} {d : DieId} {l : List JrnRead} (h0 : Keeps s₀ s) :
    Keeps s₀ (State.replayOver s d l) := by
  unfold State.replayOver
  try dsimp only
  repeat' first
    | (with_reducible intro _) | (with_reducible assumption) | (with_reducible apply State.setSteward_keeps)
    | (with_reducible apply State.enterStage_keeps) | (fail_if_no_progress with_reducible apply Keeps.update)
    | (with_reducible apply Keeps.ite) | (with_reducible apply Keeps.foldl) | (with_reducible apply Keeps.foldl1)
    | split | (dsimp only)

theorem State.takeDefaults_keeps {s : State} {d : DieId} (h0 : Keeps s₀ s) :
    Keeps s₀ (State.takeDefaults s d) := by
  unfold State.takeDefaults
  try dsimp only
  repeat' first
    | (with_reducible intro _) | (with_reducible assumption) | (with_reducible apply State.applyFirst_keeps)
    | (with_reducible apply State.putVals_keeps) | (with_reducible apply State.setSteward_keeps)
    | (fail_if_no_progress with_reducible apply Keeps.update) | (with_reducible apply Keeps.ite) | split
    | (dsimp only)

theorem State.journalReplay_keeps {s : State} {d : DieId} (h0 : Keeps s₀ s) :
    Keeps s₀ (State.journalReplay s d) := by
  unfold State.journalReplay
  try dsimp only
  repeat' first
    | (with_reducible intro _) | (with_reducible assumption) | (with_reducible apply State.replayOver_keeps)
    | (with_reducible apply State.setSteward_keeps) | (with_reducible apply State.takeDefaults_keeps)
    | (with_reducible apply State.report_keeps) | (with_reducible apply State.journal_keeps)
    | (with_reducible apply State.applyLog_keeps) | (with_reducible apply State.applyFirst_keeps)
    | (fail_if_no_progress with_reducible apply Keeps.update) | (with_reducible apply Keeps.ite)
    | (with_reducible apply Keeps.foldl) | (with_reducible apply Keeps.foldl1) | split | (dsimp only)

theorem State.recFailed_keeps {s : State} {d : DieId} {x2 : JrnAfter} (h0 : Keeps s₀ s) :
    Keeps s₀ (State.recFailed s d x2) := by
  unfold State.recFailed
  try dsimp only
  repeat' first
    | (with_reducible intro _) | (with_reducible assumption) | (with_reducible apply State.answerPath_keeps)
    | (with_reducible apply State.dapNext_keeps) | (with_reducible apply State.dapRespond_keeps)
    | (with_reducible apply State.takeIfAny_keeps) | split | (dsimp only)

theorem State.recWritten_keeps {s : State} {d : DieId} {seq : W64} {x3 : JrnAfter} (h0 : Keeps s₀ s) :
    Keeps s₀ (State.recWritten s d seq x3) := by
  unfold State.recWritten
  try dsimp only
  repeat' first
    | (with_reducible intro _) | (with_reducible assumption) | (with_reducible apply State.putVals_keeps)
    | (with_reducible apply State.setDie_keeps) | (with_reducible apply State.setSteward_keeps)
    | (with_reducible apply State.answerPath_keeps) | (with_reducible apply State.dapNext_keeps)
    | (with_reducible apply State.dapSend_keeps) | (fail_if_no_progress with_reducible apply Keeps.update)
    | (with_reducible apply Keeps.ite) | split | (dsimp only)

theorem State.recordWrite_keeps {s : State} {d : DieId} {ok : Bool} (h0 : Keeps s₀ s) :
    Keeps s₀ (State.recordWrite s d ok) := by
  unfold State.recordWrite
  try dsimp only
  repeat' first
    | (with_reducible intro _) | (with_reducible assumption) | (with_reducible apply State.recFailed_keeps)
    | (with_reducible apply State.setSteward_keeps) | (with_reducible apply State.recWritten_keeps)
    | (with_reducible apply State.draw_keeps) | (with_reducible apply State.report_keeps)
    | (fail_if_no_progress with_reducible apply Keeps.update) | (with_reducible apply Keeps.ite)
    | (with_reducible refine Keeps.of_eq2 ?_ (by assumption)) | split | (dsimp only)

theorem State.sectorErase_keeps {s : State} {d : DieId} (h0 : Keeps s₀ s) :
    Keeps s₀ (State.sectorErase s d) := by
  unfold State.sectorErase
  try dsimp only
  repeat' first
    | (with_reducible intro _) | (with_reducible assumption) | (with_reducible apply State.setSteward_keeps)
    | (with_reducible apply State.answerPath_keeps) | (with_reducible apply State.restartSteward_keeps)
    | (fail_if_no_progress with_reducible apply Keeps.update) | (with_reducible apply Keeps.ite) | split
    | (dsimp only)

end Sys2Proof.Machine
end

