-- ==== Sys2Proof/Laws/KeepsPeat.lean ====
section
/-!
SUPPORT. Every operation of Machine/Peat.lean keeps what every operation keeps.
-/
set_option linter.unreachableTactic false
set_option linter.unusedTactic false
namespace Sys2Proof.Machine

variable {s₀ : State}

theorem State.pumpDie_keeps {s : State} {d : DieId} (h0 : Keeps s₀ s) :
    Keeps s₀ (State.pumpDie s d) := by
  unfold State.pumpDie
  try dsimp only
  repeat' first
    | (with_reducible intro _) | (with_reducible assumption) | (with_reducible apply State.pumpSeq_keeps)
    | (with_reducible apply State.pumpStream_keeps) | (with_reducible apply State.retryEvents_keeps)
    | (with_reducible apply Keeps.foldl) | (with_reducible apply Keeps.foldl1) | (dsimp only)

theorem State.strayResponse_keeps {s : State} {n : Nat} {r : Req} (h0 : Keeps s₀ s) :
    Keeps s₀ (State.strayResponse s n r) := by
  unfold State.strayResponse
  try dsimp only
  repeat' first
    | (with_reducible intro _) | (with_reducible assumption) | (with_reducible apply State.setDie_keeps)
    | (fail_if_no_progress with_reducible apply Keeps.update) | (with_reducible apply Keeps.ite) | split
    | (dsimp only)

theorem State.answerBus_keeps {s : State} {n : Nat} {r : Req} {a : Answer} (h0 : Keeps s₀ s) :
    Keeps s₀ (State.answerBus s n r a) := by
  unfold State.answerBus
  try dsimp only
  repeat' first
    | (with_reducible intro _) | (with_reducible assumption) | (with_reducible apply State.busTake_keeps)
    | (with_reducible apply State.walkOn_keeps) | (with_reducible apply State.retryEvents_keeps)
    | (fail_if_no_progress with_reducible apply Keeps.update) | split | (dsimp only)

theorem State.pumpQueue_keeps {s : State} {d : DieId} {q : Nat} (h0 : Keeps s₀ s) :
    Keeps s₀ (State.pumpQueue s d q) := by
  unfold State.pumpQueue
  try dsimp only
  repeat' first
    | (with_reducible intro _) | (with_reducible assumption) | (with_reducible apply State.pumpStream_keeps)
    | (with_reducible apply Keeps.foldl) | (with_reducible apply Keeps.foldl1) | (dsimp only)

theorem State.answerStream_keeps {s : State} {c : CoreId} {ord : Nat} {r : Req} {a : Answer} (h0 : Keeps s₀ s) :
    Keeps s₀ (State.answerStream s c ord r a) := by
  unfold State.answerStream
  try dsimp only
  repeat' first
    | (with_reducible intro _) | (with_reducible assumption) | (with_reducible apply State.abortReport_keeps)
    | (with_reducible apply State.streamAbort_keeps) | (with_reducible apply State.pumpQueue_keeps)
    | (with_reducible apply State.streamData_keeps) | (with_reducible apply State.updRun_keeps)
    | (fail_if_no_progress with_reducible apply Keeps.update) | (with_reducible apply Keeps.ite) | split
    | (dsimp only)

theorem State.answerStore_keeps {s : State} {c : CoreId} {num : Nat} {r : Req} {a : Answer} (h0 : Keeps s₀ s) :
    Keeps s₀ (State.answerStore s c num r a) := by
  unfold State.answerStore
  try dsimp only
  repeat' first
    | (with_reducible intro _) | (with_reducible assumption) | (with_reducible apply State.updCore_keeps)
    | (with_reducible apply State.moved_keeps) | (with_reducible apply State.progFault_keeps)
    | (with_reducible apply State.pumpSeq_keeps) | (with_reducible apply State.settle_keeps)
    | (fail_if_no_progress with_reducible apply Keeps.update) | split | (dsimp only)

theorem State.respond_keeps {s : State} {n : Nat} {r : Req} {a : Answer} (h0 : Keeps s₀ s) :
    Keeps s₀ (State.respond s n r a) := by
  unfold State.respond
  try dsimp only
  repeat' first
    | (with_reducible intro _) | (with_reducible assumption) | (with_reducible apply State.strayResponse_keeps)
    | (with_reducible apply State.answerBus_keeps) | (with_reducible apply State.answerStream_keeps)
    | (with_reducible apply State.updCore_keeps) | (with_reducible apply State.moved_keeps)
    | (with_reducible apply State.seqFault_keeps) | (with_reducible apply State.answerStore_keeps)
    | (with_reducible apply State.enqueueFlit_keeps) | (fail_if_no_progress with_reducible apply Keeps.update)
    | (with_reducible apply Keeps.ite) | split | (dsimp only)

theorem State.answer_keeps {s : State} {n : Nat} {r : Req} {a : Answer} (h0 : Keeps s₀ s) :
    Keeps s₀ (State.answer s n r a) := by
  unfold State.answer
  try dsimp only
  repeat' first
    | (with_reducible intro _) | (with_reducible assumption) | (with_reducible apply State.respond_keeps)
    | (with_reducible apply State.quietCheck_keeps) | (with_reducible apply State.cpAnswered_keeps)
    | (fail_if_no_progress with_reducible apply Keeps.update) | split | (dsimp only)

theorem State.dropResponse_keeps {s : State} {p : PortId} {tag : Nat} {write : Bool} (h0 : Keeps s₀ s) :
    Keeps s₀ (State.dropResponse s p tag write) := by
  unfold State.dropResponse
  try dsimp only
  repeat' first
    | (with_reducible intro _) | (with_reducible assumption) | (with_reducible apply State.report_keeps)
    | (with_reducible apply Keeps.ite) | split | (dsimp only)

theorem State.offered_keeps {s : State} {p : PortId} {write : Bool} (h0 : Keeps s₀ s) :
    KeepsL s₀ (State.offered s p write) := by
  unfold State.offered
  dsimp only
  split
  · exact KeepsL.none
  · apply KeepsL.some
    dsimp only
    exact State.cuffTake_keeps h0
  · split
    · rename_i heq
      exact KeepsL.map fun _ => Keeps.of_eq (State.cuffSlot_keeps h0) heq
    · exact KeepsL.none

theorem State.readReturn_keeps {s : State} {p : PortId} {tag : Nat} {fail : Bool} (h0 : Keeps s₀ s) :
    Keeps s₀ (State.readReturn s p tag fail) := by
  unfold State.readReturn
  try dsimp only
  repeat' first
    | (with_reducible intro _) | (with_reducible assumption) | (with_reducible apply State.dropResponse_keeps)
    | (with_reducible apply State.answer_keeps) | (with_reducible apply State.draw_keeps)
    | (fail_if_no_progress with_reducible apply Keeps.update) | (with_reducible apply Keeps.ite)
    | (with_reducible refine Keeps.of_eq2 ?_ (by assumption)) | split | (dsimp only)

theorem State.transfer_keeps {s : State} {n : Nat} {write : Bool} (h0 : Keeps s₀ s) :
    Keeps s₀ (State.transfer s n write) := by
  unfold State.transfer
  try dsimp only
  repeat' first
    | (with_reducible intro _) | (with_reducible assumption) | (with_reducible apply State.answer_keeps)
    | (with_reducible apply State.ownRefuse_keeps) | (with_reducible apply State.offered_keeps)
    | (with_reducible apply State.setDie_keeps) | (fail_if_no_progress with_reducible apply Keeps.update)
    | (with_reducible apply Keeps.ite) | (with_reducible apply KeepsL.some)
    | (with_reducible refine KeepsL.of_eq ?_ (by assumption)) | split | (dsimp only)

theorem State.unanswered_keeps {s : State} {n : Nat} (h0 : Keeps s₀ s) :
    Keeps s₀ (State.unanswered s n) := by
  unfold State.unanswered
  try dsimp only
  repeat' first
    | (with_reducible intro _) | (with_reducible assumption) | (with_reducible apply State.setDie_keeps)
    | (with_reducible apply State.startEvent_keeps) | (with_reducible apply State.imageAbort_keeps)
    | (with_reducible apply State.streamAbort_keeps) | (with_reducible apply State.busDone_keeps)
    | (with_reducible apply State.abortReport_keeps) | (with_reducible apply State.seqFault_keeps)
    | (with_reducible apply State.progFault_keeps) | (with_reducible apply State.hdrFault_keeps)
    | (with_reducible apply State.cpAnswered_keeps) | (with_reducible apply State.answerBus_keeps)
    | (fail_if_no_progress with_reducible apply Keeps.update) | (with_reducible apply Keeps.ite) | split
    | (dsimp only)

theorem State.writeAccepted_keeps {s : State} {p : PortId} {tag : Nat} {fail : Bool} (h0 : Keeps s₀ s) :
    Keeps s₀ (State.writeAccepted s p tag fail) := by
  unfold State.writeAccepted
  try dsimp only
  repeat' first
    | (with_reducible intro _) | (with_reducible assumption) | (with_reducible apply State.dropResponse_keeps)
    | (with_reducible apply State.draw_keeps) | (with_reducible apply State.writeByte_keeps)
    | (with_reducible apply State.answer_keeps) | (fail_if_no_progress with_reducible apply Keeps.update)
    | (with_reducible apply Keeps.ite) | (with_reducible apply Keeps.foldl) | (with_reducible apply Keeps.foldl1)
    | (with_reducible refine Keeps.of_eq2 ?_ (by assumption)) | split | (dsimp only)

end Sys2Proof.Machine
end

