-- ==== Sys2Proof/Laws/KeepsLinks.lean ====
section
/-!
SUPPORT. Every operation of Machine/Links.lean keeps what every operation keeps.
-/
set_option linter.unreachableTactic false
set_option linter.unusedTactic false
namespace Sys2Proof.Machine

variable {s₀ : State}

theorem State.resend_keeps {s : State} {l : LinkId} {count : Nat} (h0 : Keeps s₀ s) :
    Keeps s₀ (State.resend s l count) := by
  unfold State.resend
  try dsimp only
  repeat' first
    | (with_reducible intro _) | (with_reducible assumption) | (with_reducible apply State.setLink_keeps)
    | (fail_if_no_progress with_reducible apply Keeps.update) | (dsimp only)

theorem State.retrain_keeps {s : State} {l : LinkId} (h0 : Keeps s₀ s) :
    Keeps s₀ (State.retrain s l) := by
  unfold State.retrain
  try dsimp only
  repeat' first
    | (with_reducible intro _) | (with_reducible assumption) | (with_reducible apply State.setLink_keeps)
    | (fail_if_no_progress with_reducible apply Keeps.update) | (with_reducible apply Keeps.foldl)
    | (with_reducible apply Keeps.foldl1) | (dsimp only)

theorem State.replayHeld_keeps {s : State} {l : LinkId} (h0 : Keeps s₀ s) :
    Keeps s₀ (State.replayHeld s l) := by
  unfold State.replayHeld
  try dsimp only
  repeat' first
    | (with_reducible intro _) | (with_reducible assumption) | (with_reducible apply State.setLink_keeps)
    | (with_reducible apply State.resend_keeps) | (with_reducible apply State.retrain_keeps)
    | (fail_if_no_progress with_reducible apply Keeps.update) | (with_reducible apply Keeps.ite) | split
    | (dsimp only)

theorem State.ackTimeout_keeps {s : State} {l : LinkId} (h0 : Keeps s₀ s) :
    Keeps s₀ (State.ackTimeout s l) := by
  unfold State.ackTimeout
  try dsimp only
  repeat' first
    | (with_reducible intro _) | (with_reducible assumption) | (with_reducible apply State.replayHeld_keeps)
    | (fail_if_no_progress with_reducible apply Keeps.update) | (with_reducible apply Keeps.ite) | split
    | (dsimp only)

theorem State.startAlign_keeps {s : State} {d : DieId} {periodic : Bool} (h0 : Keeps s₀ s) :
    Keeps s₀ (State.startAlign s d periodic) := by
  unfold State.startAlign
  try dsimp only
  repeat' first
    | (with_reducible intro _) | (with_reducible assumption) | (with_reducible apply State.setDie_keeps)
    | (fail_if_no_progress with_reducible apply Keeps.update) | (with_reducible apply Keeps.ite) | split
    | (dsimp only)

theorem State.alignComplete_keeps {s : State} {l : LinkId} (h0 : Keeps s₀ s) :
    Keeps s₀ (State.alignComplete s l) := by
  unfold State.alignComplete
  try dsimp only
  repeat' first
    | (with_reducible intro _) | (with_reducible assumption) | (with_reducible apply State.setLink_keeps)
    | (with_reducible apply State.report_keeps) | (with_reducible apply State.pumpDie_keeps)
    | (with_reducible apply State.pump_keeps) | (with_reducible apply State.resend_keeps)
    | (fail_if_no_progress with_reducible apply Keeps.update) | (with_reducible apply Keeps.ite)
    | (with_reducible apply Keeps.foldl) | (with_reducible apply Keeps.foldl1) | split | (dsimp only)

theorem State.reportUnreached_keeps {s : State} {d : DieId} {lost : Bool} (h0 : Keeps s₀ s) :
    Keeps s₀ (State.reportUnreached s d lost) := by
  unfold State.reportUnreached
  try dsimp only
  repeat' first
    | (with_reducible intro _) | (with_reducible assumption) | (with_reducible apply State.setDie_keeps)
    | (with_reducible apply State.report_keeps) | (fail_if_no_progress with_reducible apply Keeps.update)
    | (with_reducible apply Keeps.ite) | split | (dsimp only)

theorem State.computeRoutes_keeps {s : State} {d : DieId} (h0 : Keeps s₀ s) :
    Keeps s₀ (State.computeRoutes s d) := by
  unfold State.computeRoutes
  try dsimp only
  repeat' first
    | (with_reducible intro _) | (with_reducible assumption) | (with_reducible apply State.setDie_keeps)
    | (with_reducible apply State.reportUnreached_keeps) | (with_reducible apply State.pumpDie_keeps)
    | (with_reducible apply State.startAlign_keeps) | (fail_if_no_progress with_reducible apply Keeps.update)
    | (with_reducible apply Keeps.ite) | (with_reducible apply Keeps.foldl) | (with_reducible apply Keeps.foldl1)
    | split | (dsimp only)

theorem State.tellAll_keeps {s : State} {d : DieId} {known : List (Nat × List Nat)} (h0 : Keeps s₀ s) :
    Keeps s₀ (State.tellAll s d known) := by
  unfold State.tellAll
  try dsimp only
  repeat' first
    | (with_reducible intro _) | (with_reducible assumption) | (with_reducible apply State.enqueueFlit_keeps)
    | (with_reducible apply Keeps.foldl) | (with_reducible apply Keeps.foldl1) | (dsimp only)

theorem State.announce_keeps {s : State} {d : DieId} (h0 : Keeps s₀ s) :
    Keeps s₀ (State.announce s d) := by
  unfold State.announce
  try dsimp only
  repeat' first
    | (with_reducible intro _) | (with_reducible assumption) | (with_reducible apply State.setDie_keeps)
    | (with_reducible apply State.computeRoutes_keeps) | (with_reducible apply State.tellAll_keeps)
    | (fail_if_no_progress with_reducible apply Keeps.update) | (with_reducible apply Keeps.ite) | split
    | (dsimp only)

theorem State.startTraining_keeps {s : State} {l : LinkId} (h0 : Keeps s₀ s) :
    Keeps s₀ (State.startTraining s l) := by
  unfold State.startTraining
  try dsimp only
  repeat' first
    | (with_reducible intro _) | (with_reducible assumption) | (with_reducible apply State.setLink_keeps)
    | (fail_if_no_progress with_reducible apply Keeps.update) | (with_reducible apply Keeps.ite) | split
    | (dsimp only)

theorem State.linkDown_keeps {s : State} {l : LinkId} (h0 : Keeps s₀ s) :
    Keeps s₀ (State.linkDown s l) := by
  unfold State.linkDown
  try dsimp only
  repeat' first
    | (with_reducible intro _) | (with_reducible assumption) | (with_reducible apply State.setLink_keeps)
    | (with_reducible apply State.startTraining_keeps) | (fail_if_no_progress with_reducible apply Keeps.update)
    | (with_reducible apply Keeps.ite) | split | (dsimp only)

theorem State.linksReset_keeps {s : State} {d : DieId} (h0 : Keeps s₀ s) :
    Keeps s₀ (State.linksReset s d) := by
  unfold State.linksReset
  try dsimp only
  repeat' first
    | (with_reducible intro _) | (with_reducible assumption) | (with_reducible apply State.linkDown_keeps)
    | (with_reducible apply Keeps.foldl) | (with_reducible apply Keeps.foldl1) | split | (dsimp only)

theorem State.linksReleased_keeps {s : State} {d : DieId} (h0 : Keeps s₀ s) :
    Keeps s₀ (State.linksReleased s d) := by
  unfold State.linksReleased
  try dsimp only
  repeat' first
    | (with_reducible intro _) | (with_reducible assumption) | (with_reducible apply State.linkDown_keeps)
    | (with_reducible apply Keeps.foldl) | (with_reducible apply Keeps.foldl1) | split | (dsimp only)

theorem State.serveRemote_keeps {s : State} {d : DieId} {f : Flit} {write : Bool} {data : List (Nat × Byte)} (h0 : Keeps s₀ s) :
    Keeps s₀ (State.serveRemote s d f write data) := by
  unfold State.serveRemote
  try dsimp only
  repeat' first
    | (with_reducible intro _) | (with_reducible assumption) | (with_reducible apply State.addReq_keeps)
    | (dsimp only)

theorem State.respFlit_keeps {s : State} {d : DieId} {f : Flit} {a : Answer} (h0 : Keeps s₀ s) :
    Keeps s₀ (State.respFlit s d f a) := by
  unfold State.respFlit
  try dsimp only
  repeat' first
    | (with_reducible intro _) | (with_reducible assumption) | (with_reducible apply State.setDie_keeps)
    | (with_reducible apply State.setLink_keeps) | (with_reducible apply State.pumpDie_keeps)
    | (with_reducible apply State.answer_keeps) | (fail_if_no_progress with_reducible apply Keeps.update) | split
    | (dsimp only)

theorem State.learn_keeps {s : State} {d : DieId} {die : Nat} {no : Nat} {far : List Nat} (h0 : Keeps s₀ s) :
    Keeps s₀ (State.learn s d die no far) := by
  unfold State.learn
  try dsimp only
  repeat' first
    | (with_reducible intro _) | (with_reducible assumption) | (with_reducible apply State.announce_keeps)
    | (with_reducible apply State.setDie_keeps) | (with_reducible apply State.computeRoutes_keeps)
    | (with_reducible apply State.tellAll_keeps) | (fail_if_no_progress with_reducible apply Keeps.update)
    | (with_reducible apply Keeps.ite) | split | (dsimp only)

theorem State.consumeMsg_keeps {s : State} {d : DieId} {src : Nat} {m : Msg} (h0 : Keeps s₀ s) :
    Keeps s₀ (State.consumeMsg s d src m) := by
  unfold State.consumeMsg
  try dsimp only
  repeat' first
    | (with_reducible intro _) | (with_reducible assumption) | (with_reducible apply State.settle_keeps)
    | (with_reducible apply State.semResult_keeps) | (with_reducible apply State.learn_keeps)
    | (with_reducible apply State.setDie_keeps) | (with_reducible apply State.deliverMsg_keeps)
    | (fail_if_no_progress with_reducible apply Keeps.update) | (with_reducible apply Keeps.ite) | split
    | (dsimp only)

theorem State.consume_keeps {s : State} {l : LinkId} {f : Flit} (h0 : Keeps s₀ s) :
    Keeps s₀ (State.consume s l f) := by
  unfold State.consume
  try dsimp only
  repeat' first
    | (with_reducible intro _) | (with_reducible assumption) | (with_reducible apply State.serveRemote_keeps)
    | (with_reducible apply State.setLink_keeps) | (with_reducible apply State.respFlit_keeps)
    | (with_reducible apply State.consumeMsg_keeps) | (fail_if_no_progress with_reducible apply Keeps.update) | split
    | (dsimp only)

theorem State.failLink_keeps {s : State} {l : LinkId} (h0 : Keeps s₀ s) :
    Keeps s₀ (State.failLink s l) := by
  unfold State.failLink
  try dsimp only
  repeat' first
    | (with_reducible intro _) | (with_reducible assumption) | (with_reducible apply State.setLink_keeps)
    | (with_reducible apply State.freeVia_keeps) | (with_reducible apply State.answer_keeps)
    | (fail_if_no_progress with_reducible apply Keeps.update) | (with_reducible apply Keeps.foldl)
    | (with_reducible apply Keeps.foldl1) | split | (dsimp only)

theorem State.linkFailed_keeps {s : State} {l : LinkId} (h0 : Keeps s₀ s) :
    Keeps s₀ (State.linkFailed s l) := by
  unfold State.linkFailed
  try dsimp only
  repeat' first
    | (with_reducible intro _) | (with_reducible assumption) | (with_reducible apply State.report_keeps)
    | (with_reducible apply State.failLink_keeps) | (dsimp only)

theorem State.enableLink_keeps {s : State} {l : LinkId} (h0 : Keeps s₀ s) :
    Keeps s₀ (State.enableLink s l) := by
  unfold State.enableLink
  try dsimp only
  repeat' first
    | (with_reducible intro _) | (with_reducible assumption) | (with_reducible apply State.setLink_keeps)
    | (with_reducible apply State.linkFailed_keeps) | (with_reducible apply State.startTraining_keeps)
    | (fail_if_no_progress with_reducible apply Keeps.update) | (with_reducible apply Keeps.ite) | split
    | (dsimp only)

theorem State.reply_keeps {s : State} {l : LinkId} (h0 : Keeps s₀ s) :
    Keeps s₀ (State.reply s l) := by
  unfold State.reply
  try dsimp only
  repeat' first
    | (with_reducible intro _) | (with_reducible assumption) | (with_reducible apply State.pump_keeps)
    | (with_reducible apply State.sendIdle_keeps) | (with_reducible apply Keeps.ite) | split | (dsimp only)

theorem State.takeAck_keeps {s : State} {l : LinkId} {f : Flit} (h0 : Keeps s₀ s) :
    Keeps s₀ (State.takeAck s l f) := by
  unfold State.takeAck
  try dsimp only
  repeat' first
    | (with_reducible intro _) | (with_reducible assumption) | (with_reducible apply State.setLink_keeps)
    | (with_reducible apply State.replayHeld_keeps) | (fail_if_no_progress with_reducible apply Keeps.update)
    | (with_reducible apply Keeps.ite) | split | (dsimp only)

theorem State.goodFlit_keeps {s : State} {l : LinkId} {f : Flit} (h0 : Keeps s₀ s) :
    Keeps s₀ (State.goodFlit s l f) := by
  unfold State.goodFlit
  try dsimp only
  repeat' first
    | (with_reducible intro _) | (with_reducible assumption) | (with_reducible apply State.pump_keeps)
    | (with_reducible apply State.takeAck_keeps) | (with_reducible apply State.reply_keeps)
    | (with_reducible apply State.setLink_keeps) | (with_reducible apply State.enqueueFlit_keeps)
    | (with_reducible apply State.consume_keeps) | (fail_if_no_progress with_reducible apply Keeps.update)
    | (with_reducible apply Keeps.ite) | split | (dsimp only)

theorem State.flit_keeps {s : State} {l : LinkId} {raw : List Byte} (h0 : Keeps s₀ s) :
    Keeps s₀ (State.flit s l raw) := by
  unfold State.flit
  try dsimp only
  repeat' first
    | (with_reducible intro _) | (with_reducible assumption) | (with_reducible apply State.reply_keeps)
    | (with_reducible apply State.setLink_keeps) | (with_reducible apply State.goodFlit_keeps)
    | (fail_if_no_progress with_reducible apply Keeps.update) | (with_reducible apply Keeps.ite) | split
    | (dsimp only)

theorem State.identComplete_keeps {s : State} {l : LinkId} {lanes : List LaneSeen} (h0 : Keeps s₀ s) :
    Keeps s₀ (State.identComplete s l lanes) := by
  unfold State.identComplete
  try dsimp only
  repeat' first
    | (with_reducible intro _) | (with_reducible assumption) | (with_reducible apply State.setLink_keeps)
    | (fail_if_no_progress with_reducible apply Keeps.update) | (with_reducible apply Keeps.ite) | split
    | (dsimp only)

theorem State.topologyConflict_keeps {s : State} {d : DieId} {far : Nat} (h0 : Keeps s₀ s) :
    Keeps s₀ (State.topologyConflict s d far) := by
  unfold State.topologyConflict
  try dsimp only
  repeat' first
    | (with_reducible intro _) | (with_reducible assumption) | (with_reducible apply State.report_keeps)
    | (with_reducible apply State.setDie_keeps) | (fail_if_no_progress with_reducible apply Keeps.update)
    | (with_reducible apply Keeps.ite) | split | (dsimp only)

theorem State.phaseTimeout_keeps {s : State} {l : LinkId} (h0 : Keeps s₀ s) :
    Keeps s₀ (State.phaseTimeout s l) := by
  unfold State.phaseTimeout
  try dsimp only
  repeat' first
    | (with_reducible intro _) | (with_reducible assumption) | (with_reducible apply State.linkFailed_keeps)
    | (with_reducible apply State.setLink_keeps) | (fail_if_no_progress with_reducible apply Keeps.update)
    | (with_reducible apply Keeps.ite) | split | (dsimp only)

theorem State.phyFall_keeps {s : State} {l : LinkId} (h0 : Keeps s₀ s) :
    Keeps s₀ (State.phyFall s l) := by
  unfold State.phyFall
  try dsimp only
  repeat' first
    | (with_reducible intro _) | (with_reducible assumption) | (with_reducible apply State.setLink_keeps)
    | (with_reducible apply State.retrain_keeps) | (fail_if_no_progress with_reducible apply Keeps.update)
    | (with_reducible apply Keeps.ite) | split | (dsimp only)

theorem State.phyReady_keeps {s : State} {l : LinkId} (h0 : Keeps s₀ s) :
    Keeps s₀ (State.phyReady s l) := by
  unfold State.phyReady
  try dsimp only
  repeat' first
    | (with_reducible intro _) | (with_reducible assumption) | (with_reducible apply State.startTraining_keeps)
    | (with_reducible apply State.setLink_keeps) | (fail_if_no_progress with_reducible apply Keeps.update)
    | (dsimp only)

theorem State.reportComplete_keeps {s : State} {l : LinkId} {farRetired : List (BitVec 48)} {farDie : List (Fin 8)} {farLink : List (Fin 4)} (h0 : Keeps s₀ s) :
    Keeps s₀ (State.reportComplete s l farRetired farDie farLink) := by
  unfold State.reportComplete
  try dsimp only
  repeat' first
    | (with_reducible intro _) | (with_reducible assumption) | (with_reducible apply State.setLink_keeps)
    | (with_reducible apply State.topologyConflict_keeps) | (with_reducible apply State.failLink_keeps)
    | (with_reducible apply State.linkFailed_keeps) | (fail_if_no_progress with_reducible apply Keeps.update)
    | (with_reducible apply Keeps.ite) | split | (dsimp only)

theorem State.trainTimeout_keeps {s : State} {l : LinkId} (h0 : Keeps s₀ s) :
    Keeps s₀ (State.trainTimeout s l) := by
  unfold State.trainTimeout
  try dsimp only
  repeat' first
    | (with_reducible intro _) | (with_reducible assumption) | (with_reducible apply State.linkFailed_keeps)
    | (with_reducible apply Keeps.ite) | split | (dsimp only)

end Sys2Proof.Machine
end

