-- ==== Sys2Proof/Laws/KeepsMonitors.lean ====
section
/-!
SUPPORT. Every operation of Machine/Monitors.lean keeps what every operation keeps.
-/
set_option linter.unreachableTactic false
set_option linter.unusedTactic false
namespace Sys2Proof.Machine

variable {s₀ : State}

theorem State.hmCrown_keeps {s : State} {role : Byte} {strb : Byte} {d : DieId} {v : W64} (h0 : Keeps s₀ s) :
    Keeps s₀ (State.hmCrown s role strb d v) := by
  unfold State.hmCrown
  try dsimp only
  repeat' first
    | (with_reducible intro _) | (with_reducible assumption) | (with_reducible apply State.crownErr_keeps)
    | (with_reducible apply State.driverWrite_keeps) | (with_reducible apply State.hmWrite_keeps)
    | (with_reducible apply Keeps.ite) | split | (dsimp only)

theorem State.sample_keeps {s : State} {d : DieId} {i : Nat} {v : W32} (h0 : Keeps s₀ s) :
    Keeps s₀ (State.sample s d i v) := by
  unfold State.sample
  try dsimp only
  repeat' first
    | (with_reducible intro _) | (with_reducible assumption) | (with_reducible apply State.hmTake_keeps)
    | (with_reducible apply State.hmEvent_keeps) | (with_reducible apply State.setLink_keeps)
    | (fail_if_no_progress with_reducible apply Keeps.update) | (with_reducible apply Keeps.ite) | split
    | (dsimp only)

end Sys2Proof.Machine
end

