-- ==== Sys2Proof/Laws/KeepsNet.lean ====
section
/-!
SUPPORT. Every operation of Machine/Net.lean keeps what every operation keeps.
-/
set_option linter.unreachableTactic false
set_option linter.unusedTactic false
namespace Sys2Proof.Machine

variable {s₀ : State}

theorem State.onPtp_keeps {s : State} {d : DieId} {f : List Byte} {type : Nat} {act : PtpMsg → State} (h0 : Keeps s₀ s) (h4 : ∀ y0, Keeps s₀ (act y0)) :
    Keeps s₀ (State.onPtp s d f type act) := by
  unfold State.onPtp
  try dsimp only
  repeat' first
    | (with_reducible intro _) | (with_reducible assumption) | (with_reducible apply h4)
    | (with_reducible apply State.frameDropped_keeps) | (fail_if_no_progress with_reducible apply Keeps.update)
    | (with_reducible apply Keeps.ite) | split | (dsimp only)

theorem State.linkDelay_keeps {s : State} {d : DieId} {cfg : Nat} (h0 : Keeps s₀ s) :
    Keeps s₀ (State.linkDelay s d cfg).1 := by
  unfold State.linkDelay
  try dsimp only
  repeat' first
    | (with_reducible intro _) | (with_reducible assumption) | (with_reducible apply State.draw_keeps)
    | (with_reducible apply Keeps.ite) | (with_reducible apply Keeps.ite1)
    | (with_reducible refine Keeps.of_eq2 ?_ (by assumption)) | split | (dsimp only)

theorem State.lockRule_keeps {s : State} {d : DieId} {off : Int} (h0 : Keeps s₀ s) :
    Keeps s₀ (State.lockRule s d off) := by
  unfold State.lockRule
  try dsimp only
  repeat' first
    | (with_reducible intro _) | (with_reducible assumption) | (with_reducible apply State.setNet_keeps)
    | (with_reducible apply State.draw_keeps) | (with_reducible apply State.report_keeps)
    | (fail_if_no_progress with_reducible apply Keeps.update) | (with_reducible apply Keeps.ite)
    | (with_reducible refine Keeps.of_eq2 ?_ (by assumption)) | split | (dsimp only)

theorem State.syncAccepted_keeps {s : State} {d : DieId} {tr : Int} {time : Int} (h0 : Keeps s₀ s) :
    Keeps s₀ (State.syncAccepted s d tr time) := by
  unfold State.syncAccepted
  try dsimp only
  repeat' first
    | (with_reducible intro _) | (with_reducible assumption) | (with_reducible apply State.linkDelay_keeps)
    | (with_reducible apply State.lockRule_keeps) | (with_reducible apply State.setNet_keeps)
    | (fail_if_no_progress with_reducible apply Keeps.update) | (with_reducible apply Keeps.ite)
    | (with_reducible refine Keeps.of_eq ?_ (by assumption)) | split | (dsimp only)

theorem State.followUp_keeps {s : State} {d : DieId} {f : List Byte} (h0 : Keeps s₀ s) :
    Keeps s₀ (State.followUp s d f) := by
  unfold State.followUp
  try dsimp only
  repeat' first
    | (with_reducible intro _) | (with_reducible assumption) | (with_reducible apply State.onPtp_keeps)
    | (with_reducible apply State.setNet_keeps) | (with_reducible apply State.syncAccepted_keeps)
    | (fail_if_no_progress with_reducible apply Keeps.update) | (with_reducible apply Keeps.ite) | split
    | (dsimp only)

theorem State.syncTake_keeps {s : State} {d : DieId} {m : PtpMsg} {at' : Nat} {tr : Int} (h0 : Keeps s₀ s) :
    Keeps s₀ (State.syncTake s d m at' tr) := by
  unfold State.syncTake
  try dsimp only
  repeat' first
    | (with_reducible intro _) | (with_reducible assumption) | (with_reducible apply State.setNet_keeps)
    | (with_reducible apply State.syncAccepted_keeps) | (fail_if_no_progress with_reducible apply Keeps.update)
    | (with_reducible apply Keeps.ite) | split | (dsimp only)

theorem State.pdelayAnswer_keeps {s : State} {d : DieId} {m : PtpMsg} {tr : Int} (h0 : Keeps s₀ s) :
    Keeps s₀ (State.pdelayAnswer s d m tr) := by
  unfold State.pdelayAnswer
  try dsimp only
  repeat' first
    | (with_reducible intro _) | (with_reducible assumption) | (with_reducible apply State.setNet_keeps)
    | (fail_if_no_progress with_reducible apply Keeps.update) | (dsimp only)

theorem State.stampTaken_keeps {s : State} {d : DieId} {x : Nat × Int × List Byte} (h0 : Keeps s₀ s) :
    Keeps s₀ (State.stampTaken s d x) := by
  unfold State.stampTaken
  try dsimp only
  repeat' first
    | (with_reducible intro _) | (with_reducible assumption) | (with_reducible apply State.syncTake_keeps)
    | (with_reducible apply State.pdelayAnswer_keeps) | (with_reducible apply State.setNet_keeps)
    | (fail_if_no_progress with_reducible apply Keeps.update) | (with_reducible apply Keeps.ite) | split
    | (dsimp only)

theorem State.stampsTaken_keeps {s : State} {d : DieId} (h0 : Keeps s₀ s) :
    Keeps s₀ (State.stampsTaken s d) := by
  unfold State.stampsTaken
  try dsimp only
  repeat' first
    | (with_reducible intro _) | (with_reducible assumption) | (with_reducible apply State.stampTaken_keeps)
    | (with_reducible apply State.setNet_keeps) | (fail_if_no_progress with_reducible apply Keeps.update)
    | (with_reducible apply Keeps.ite) | (with_reducible apply Keeps.foldl) | (with_reducible apply Keeps.foldl1)
    | split | (dsimp only)

theorem State.onStamp_keeps {s : State} {d : DieId} {f : List Byte} {type : Nat} (h0 : Keeps s₀ s) :
    Keeps s₀ (State.onStamp s d f type) := by
  unfold State.onStamp
  try dsimp only
  repeat' first
    | (with_reducible intro _) | (with_reducible assumption) | (with_reducible apply State.onPtp_keeps)
    | (with_reducible apply State.setNet_keeps) | (with_reducible apply State.stampsTaken_keeps)
    | (fail_if_no_progress with_reducible apply Keeps.update) | (with_reducible apply Keeps.ite) | split
    | (dsimp only)

theorem State.pdelayFup_keeps {s : State} {d : DieId} {f : List Byte} (h0 : Keeps s₀ s) :
    Keeps s₀ (State.pdelayFup s d f) := by
  unfold State.pdelayFup
  try dsimp only
  repeat' first
    | (with_reducible intro _) | (with_reducible assumption) | (with_reducible apply State.onPtp_keeps)
    | (with_reducible apply State.setNet_keeps) | (fail_if_no_progress with_reducible apply Keeps.update)
    | (with_reducible apply Keeps.ite) | split | (dsimp only)

theorem State.pdelayReq_keeps {s : State} {d : DieId} {f : List Byte} (h0 : Keeps s₀ s) :
    Keeps s₀ (State.pdelayReq s d f) := by
  unfold State.pdelayReq
  try dsimp only
  repeat' first
    | (with_reducible intro _) | (with_reducible assumption) | (with_reducible apply State.onStamp_keeps)
    | (dsimp only)

theorem State.pdelayResp_keeps {s : State} {d : DieId} {f : List Byte} (h0 : Keeps s₀ s) :
    Keeps s₀ (State.pdelayResp s d f) := by
  unfold State.pdelayResp
  try dsimp only
  repeat' first
    | (with_reducible intro _) | (with_reducible assumption) | (with_reducible apply State.onStamp_keeps)
    | (dsimp only)

theorem State.pdelaySend_keeps {s : State} {d : DieId} (h0 : Keeps s₀ s) :
    Keeps s₀ (State.pdelaySend s d) := by
  unfold State.pdelaySend
  try dsimp only
  repeat' first
    | (with_reducible intro _) | (with_reducible assumption) | (with_reducible apply State.setNet_keeps)
    | (fail_if_no_progress with_reducible apply Keeps.update) | (with_reducible apply Keeps.ite) | split
    | (dsimp only)

theorem State.phyLink_keeps {s : State} {d : DieId} {up : Bool} (h0 : Keeps s₀ s) :
    Keeps s₀ (State.phyLink s d up) := by
  unfold State.phyLink
  try dsimp only
  repeat' first
    | (with_reducible intro _) | (with_reducible assumption) | (with_reducible apply State.setNet_keeps)
    | (fail_if_no_progress with_reducible apply Keeps.update) | (with_reducible apply Keeps.ite) | split
    | (dsimp only)

theorem State.rxDrop_keeps {s : State} {d : DieId} {f : List Byte} (h0 : Keeps s₀ s) :
    Keeps s₀ (State.rxDrop s d f) := by
  unfold State.rxDrop
  try dsimp only
  repeat' first
    | (with_reducible intro _) | (with_reducible assumption) | (with_reducible apply State.frameDropped_keeps)
    | (with_reducible apply Keeps.ite) | split | (dsimp only)

theorem State.sync_keeps {s : State} {d : DieId} {f : List Byte} (h0 : Keeps s₀ s) :
    Keeps s₀ (State.sync s d f) := by
  unfold State.sync
  try dsimp only
  repeat' first
    | (with_reducible intro _) | (with_reducible assumption) | (with_reducible apply State.onStamp_keeps)
    | (dsimp only)

theorem State.syncLost_keeps {s : State} {d : DieId} (h0 : Keeps s₀ s) :
    Keeps s₀ (State.syncLost s d) := by
  unfold State.syncLost
  try dsimp only
  repeat' first
    | (with_reducible intro _) | (with_reducible assumption) | (with_reducible apply State.report_keeps)
    | (with_reducible apply State.setNet_keeps) | (fail_if_no_progress with_reducible apply Keeps.update)
    | (with_reducible apply Keeps.ite) | split | (dsimp only)

theorem State.syncSend_keeps {s : State} {d : DieId} (h0 : Keeps s₀ s) :
    Keeps s₀ (State.syncSend s d) := by
  unfold State.syncSend
  try dsimp only
  repeat' first
    | (with_reducible intro _) | (with_reducible assumption) | (with_reducible apply State.setNet_keeps)
    | (fail_if_no_progress with_reducible apply Keeps.update) | (with_reducible apply Keeps.ite) | split
    | (dsimp only)

end Sys2Proof.Machine
end

