-- ==== Sys2Proof/Laws/KeepsPair.lean ====
section
/-!
SUPPORT. Every operation of Machine/Pair.lean keeps what every operation keeps.
-/
set_option linter.unreachableTactic false
set_option linter.unusedTactic false
namespace Sys2Proof.Machine

variable {s₀ : State}

theorem State.pairPass_keeps {s : State} {a : CoreId} {b : CoreId} (h0 : Keeps s₀ s) :
    Keeps s₀ (State.pairPass s a b) := by
  unfold State.pairPass
  try dsimp only
  repeat' first
    | (with_reducible intro _) | (with_reducible assumption) | (with_reducible apply State.updCore_keeps)
    | (with_reducible apply State.settle_keeps) | (fail_if_no_progress with_reducible apply Keeps.update)
    | (dsimp only)

theorem State.pairFault_keeps {s : State} {q : Nat} {lcore : Nat} {c : CoreId} {code : Nat} {point : Nat} (h0 : Keeps s₀ s) :
    Keeps s₀ (State.pairFault s q lcore c code point) := by
  unfold State.pairFault
  try dsimp only
  repeat' first
    | (with_reducible intro _) | (with_reducible assumption) | (with_reducible apply State.partFault_keeps)
    | (with_reducible apply State.stopPart_keeps) | (with_reducible apply State.report_keeps) | (dsimp only)

theorem State.pairCompare_keeps {s : State} {q : Nat} {lcore : Nat} (h0 : Keeps s₀ s) :
    Keeps s₀ (State.pairCompare s q lcore) := by
  unfold State.pairCompare
  try dsimp only
  repeat' first
    | (with_reducible intro _) | (with_reducible assumption) | (with_reducible apply State.pairPass_keeps)
    | (with_reducible apply State.pairFault_keeps) | (fail_if_no_progress with_reducible apply Keeps.update)
    | (with_reducible apply Keeps.ite) | split | (dsimp only)

theorem State.pairLate_keeps {s : State} {q : Nat} {lcore : Nat} (h0 : Keeps s₀ s) :
    Keeps s₀ (State.pairLate s q lcore) := by
  unfold State.pairLate
  try dsimp only
  repeat' first
    | (with_reducible intro _) | (with_reducible assumption) | (with_reducible apply State.pairFault_keeps)
    | (fail_if_no_progress with_reducible apply Keeps.update) | (with_reducible apply Keeps.ite) | split
    | (dsimp only)

end Sys2Proof.Machine
end

