-- ==== Sys2Proof/Laws/KeepsReset.lean ====
section
/-!
SUPPORT. Every operation of Machine/Reset.lean keeps what every operation keeps.
-/
set_option linter.unreachableTactic false
set_option linter.unusedTactic false
namespace Sys2Proof.Machine

variable {s₀ : State}

theorem State.ackReset_keeps {s : State} {c : CoreId} (h0 : Keeps s₀ s) :
    Keeps s₀ (State.ackReset s c) := by
  unfold State.ackReset
  try dsimp only
  repeat' first
    | (with_reducible intro _) | (with_reducible assumption) | (with_reducible apply State.sendMsg_keeps)
    | (with_reducible apply State.updCore_keeps) | (fail_if_no_progress with_reducible apply Keeps.update)
    | (with_reducible apply Keeps.ite) | split | (dsimp only)

theorem State.stampReset_keeps {s : State} {u : ResetUnit} (h0 : Keeps s₀ s) :
    Keeps s₀ (State.stampReset s u) := by
  unfold State.stampReset
  try dsimp only
  repeat' first
    | (with_reducible intro _) | (with_reducible assumption) | (with_reducible apply State.updCore_keeps)
    | (fail_if_no_progress with_reducible apply Keeps.update) | (with_reducible apply Keeps.foldl)
    | (with_reducible apply Keeps.foldl1) | split | (dsimp only)

theorem State.assertReset_keeps {s : State} {d : DieId} {n : Nat} (h0 : Keeps s₀ s) :
    Keeps s₀ (State.assertReset s d n) := by
  unfold State.assertReset
  try dsimp only
  repeat' first
    | (with_reducible intro _) | (with_reducible assumption) | (with_reducible apply State.setEsc_keeps)
    | (with_reducible apply State.stampReset_keeps) | (with_reducible apply State.failUnits_keeps)
    | (with_reducible apply State.eventRecord_keeps) | (with_reducible apply State.setCause_keeps)
    | (with_reducible apply State.linksReset_keeps) | (with_reducible apply State.resetCompute_keeps)
    | (with_reducible apply State.setDie_keeps) | (with_reducible apply State.clearUnit_keeps)
    | (with_reducible apply State.orphanReqs_keeps) | (with_reducible apply State.withdraw_keeps)
    | (fail_if_no_progress with_reducible apply Keeps.update) | split | (dsimp only)

theorem State.clusterRegion_keeps {s : State} {k : ClusterId} {r : RegionTodo} (h0 : Keeps s₀ s) :
    Keeps s₀ (State.clusterRegion s k r).1 := by
  unfold State.clusterRegion
  try dsimp only
  repeat' first
    | (with_reducible intro _) | (with_reducible assumption) | (with_reducible apply State.draw_keeps)
    | (fail_if_no_progress with_reducible apply Keeps.update) | (with_reducible apply KeepsO.bind)
    | (with_reducible refine Keeps.of_eq2 ?_ (by assumption)) | split | (dsimp only)

theorem State.resumeCompute_keeps {s : State} {d : DieId} (h0 : Keeps s₀ s) :
    Keeps s₀ (State.resumeCompute s d) := by
  unfold State.resumeCompute
  try dsimp only
  repeat' first
    | (with_reducible intro _) | (with_reducible assumption) | (with_reducible apply State.setDie_keeps)
    | (with_reducible apply State.invalAck_keeps) | (with_reducible apply State.sendMsg_keeps)
    | (with_reducible apply State.destroyWalk_keeps) | (with_reducible apply State.askSlot_keeps)
    | (fail_if_no_progress with_reducible apply Keeps.update) | (with_reducible apply Keeps.ite)
    | (with_reducible apply Keeps.foldl) | (with_reducible apply Keeps.foldl1) | split | (dsimp only)

theorem State.coresBack_keeps {s : State} {u : ResetUnit} (h0 : Keeps s₀ s) :
    Keeps s₀ (State.coresBack s u) := by
  unfold State.coresBack
  try dsimp only
  repeat' first
    | (with_reducible intro _) | (with_reducible assumption) | (with_reducible apply State.ackReset_keeps)
    | (with_reducible apply State.updCore_keeps) | (fail_if_no_progress with_reducible apply Keeps.update)
    | (with_reducible apply Keeps.ite) | (with_reducible apply Keeps.foldl) | (with_reducible apply Keeps.foldl1)
    | split | (dsimp only)

theorem State.computeBack_keeps {s : State} {d : DieId} (h0 : Keeps s₀ s) :
    Keeps s₀ (State.computeBack s d) := by
  unfold State.computeBack
  try dsimp only
  repeat' first
    | (with_reducible intro _) | (with_reducible assumption) | (with_reducible apply State.setDie_keeps)
    | (with_reducible apply State.resumeCompute_keeps) | (with_reducible apply State.startAlign_keeps)
    | (with_reducible apply State.linksReleased_keeps) | (with_reducible apply State.coresBack_keeps)
    | (fail_if_no_progress with_reducible apply Keeps.update) | split | (dsimp only)

theorem State.coreRegion_keeps {s : State} {c : CoreId} {r : RegionTodo} (h0 : Keeps s₀ s) :
    Keeps s₀ (State.coreRegion s c r).1 := by
  unfold State.coreRegion
  try dsimp only
  repeat' first
    | (with_reducible intro _) | (with_reducible assumption) | (with_reducible apply State.draw_keeps)
    | (fail_if_no_progress with_reducible apply Keeps.update)
    | (with_reducible refine Keeps.of_eq2 ?_ (by assumption)) | split | (dsimp only)

theorem State.dumpStatWrite_keeps {s : State} {d : DieId} {v : W64} {m : W64} (h0 : Keeps s₀ s) :
    Keeps s₀ (State.dumpStatWrite s d v m) := by
  unfold State.dumpStatWrite
  try dsimp only
  repeat' first
    | (with_reducible intro _) | (with_reducible assumption) | (with_reducible apply State.rsvdWrite_keeps)
    | (with_reducible apply State.setDie_keeps) | (fail_if_no_progress with_reducible apply Keeps.update)
    | (with_reducible apply Keeps.ite) | split | (dsimp only)

theorem State.cutoff_keeps {s : State} {d : DieId} {n : Nat} (h0 : Keeps s₀ s) :
    Keeps s₀ (State.cutoff s d n) := by
  unfold State.cutoff
  try dsimp only
  repeat' first
    | (with_reducible intro _) | (with_reducible assumption) | (with_reducible apply State.assertReset_keeps)
    | (with_reducible apply State.setEsc_keeps) | (fail_if_no_progress with_reducible apply Keeps.update)
    | (with_reducible apply Keeps.ite) | (with_reducible apply Keeps.foldl) | (with_reducible apply Keeps.foldl1)
    | split | (dsimp only)

theorem State.dumpFree_keeps {s : State} {role : Byte} {strb : Byte} {d : DieId} {v : W64} (h0 : Keeps s₀ s) :
    Keeps s₀ (State.dumpFree s role strb d v) := by
  unfold State.dumpFree
  try dsimp only
  repeat' first
    | (with_reducible intro _) | (with_reducible assumption) | (with_reducible apply State.crownErr_keeps)
    | (with_reducible apply State.driverWrite_keeps) | (with_reducible apply State.dumpStatWrite_keeps)
    | (with_reducible apply Keeps.ite) | split | (dsimp only)

theorem State.escOver_keeps {s : State} {d : DieId} {n : Nat} {e : Escalation} (h0 : Keeps s₀ s) :
    Keeps s₀ (State.escOver s d n e) := by
  unfold State.escOver
  try dsimp only
  repeat' first
    | (with_reducible intro _) | (with_reducible assumption) | (with_reducible apply State.setDie_keeps)
    | (with_reducible apply State.postIm_keeps) | (fail_if_no_progress with_reducible apply Keeps.update)
    | (with_reducible apply Keeps.ite) | split | (dsimp only)

theorem State.regionData_keeps {s : State} {d : DieId} {r : RegionTodo} (h0 : Keeps s₀ s) :
    Keeps s₀ (State.regionData s d r).1 := by
  unfold State.regionData
  try dsimp only
  repeat' first
    | (with_reducible intro _) | (with_reducible assumption) | (with_reducible apply State.draw_keeps)
    | (with_reducible apply State.clusterRegion_keeps) | (with_reducible apply State.coreRegion_keeps)
    | (fail_if_no_progress with_reducible apply Keeps.update) | (with_reducible refine Keeps.of_eq ?_ (by assumption))
    | (with_reducible refine Keeps.of_eq2 ?_ (by assumption)) | split | (dsimp only)

theorem State.regionDone_keeps {s : State} {d : DieId} {n : Nat} {path : Nat} {e : Escalation} {r : RegionTodo} (h0 : Keeps s₀ s) :
    Keeps s₀ (State.regionDone s d n path e r) := by
  unfold State.regionDone
  try dsimp only
  repeat' first
    | (with_reducible intro _) | (with_reducible assumption) | (with_reducible apply State.setEsc_keeps)
    | (with_reducible apply State.assertReset_keeps) | (fail_if_no_progress with_reducible apply Keeps.update)
    | (with_reducible apply Keeps.ite) | split | (dsimp only)

theorem State.regionLate_keeps {s : State} {d : DieId} {n : Nat} {path : Nat} (h0 : Keeps s₀ s) :
    Keeps s₀ (State.regionLate s d n path) := by
  unfold State.regionLate
  try dsimp only
  repeat' first
    | (with_reducible intro _) | (with_reducible assumption) | (with_reducible apply State.regionDone_keeps)
    | (fail_if_no_progress with_reducible apply Keeps.update) | (with_reducible apply Keeps.ite) | split
    | (dsimp only)

theorem State.regionRead_keeps {s : State} {d : DieId} {n : Nat} {path : Nat} (h0 : Keeps s₀ s) :
    Keeps s₀ (State.regionRead s d n path) := by
  unfold State.regionRead
  try dsimp only
  repeat' first
    | (with_reducible intro _) | (with_reducible assumption) | (with_reducible apply State.regionData_keeps)
    | (with_reducible apply State.regionDone_keeps) | (fail_if_no_progress with_reducible apply Keeps.update)
    | (with_reducible apply Keeps.ite) | (with_reducible refine Keeps.of_eq ?_ (by assumption)) | split | (dsimp only)

theorem State.resetCheck_keeps {s : State} {d : DieId} {n : Nat} (h0 : Keeps s₀ s) :
    Keeps s₀ (State.resetCheck s d n) := by
  unfold State.resetCheck
  try dsimp only
  repeat' first
    | (with_reducible intro _) | (with_reducible assumption) | (with_reducible apply State.escOver_keeps)
    | (with_reducible apply State.setDie_keeps) | (with_reducible apply State.computeBack_keeps)
    | (with_reducible apply State.monitorsBack_keeps) | (with_reducible apply State.coresBack_keeps)
    | (with_reducible apply State.quietCheck_keeps) | (fail_if_no_progress with_reducible apply Keeps.update)
    | (with_reducible apply Keeps.ite) | (with_reducible apply Keeps.ite1) | (with_reducible apply KeepsO.ite)
    | (with_reducible apply KeepsR.ite) | (with_reducible apply Keeps.foldl) | (with_reducible apply Keeps.foldl1)
    | (with_reducible apply KeepsO.some) | (with_reducible apply KeepsL.some) | (with_reducible apply KeepsR.swap)
    | (with_reducible apply KeepsR.pair) | (with_reducible apply KeepsR.map) | (with_reducible apply KeepsR.some)
    | (with_reducible apply KeepsO.getD) | (with_reducible apply KeepsO.bind) | (with_reducible apply KeepsOut.next)
    | (with_reducible exact Keeps.refl _) | (with_reducible exact KeepsOut.fault) | (with_reducible exact KeepsO.none)
    | (with_reducible exact KeepsL.none) | (with_reducible exact KeepsR.none)
    | (with_reducible refine Keeps.of_eq ?_ (by assumption)) | (with_reducible refine KeepsO.of_eq ?_ (by assumption))
    | (with_reducible refine KeepsL.of_eq ?_ (by assumption))
    | (with_reducible refine KeepsR.of_eq ?_ (by assumption))
    | (with_reducible refine Keeps.of_eq2 ?_ (by assumption)) | split | (dsimp only) | (dsimp only [id])
    | (dsimp +zetaDelta only)

theorem State.resetDeadline_keeps {s : State} {d : DieId} {n : Nat} (h0 : Keeps s₀ s) :
    Keeps s₀ (State.resetDeadline s d n) := by
  unfold State.resetDeadline
  try dsimp only
  repeat' first
    | (with_reducible intro _) | (with_reducible assumption) | (with_reducible apply State.absorb_keeps)
    | (with_reducible apply State.setEsc_keeps) | (with_reducible apply State.assertReset_keeps)
    | (with_reducible apply State.escOver_keeps) | (with_reducible apply State.reportFree_keeps)
    | (with_reducible apply State.setDie_keeps) | (fail_if_no_progress with_reducible apply Keeps.update)
    | (with_reducible apply Keeps.ite) | split | (dsimp only)

theorem State.slotBack_keeps {s : State} {r : Req} (h0 : Keeps s₀ s) :
    Keeps s₀ (State.slotBack s r) := by
  unfold State.slotBack
  try dsimp only
  repeat' first
    | (with_reducible intro _) | (with_reducible assumption) | (with_reducible apply State.quietCheck_keeps)
    | (with_reducible apply State.abortReport_keeps) | (with_reducible apply State.pumpDie_keeps)
    | (fail_if_no_progress with_reducible apply Keeps.update) | split | (dsimp only)

theorem State.slotTimeout_keeps {s : State} {d : DieId} {r : Nat} (h0 : Keeps s₀ s) :
    Keeps s₀ (State.slotTimeout s d r) := by
  unfold State.slotTimeout
  try dsimp only
  repeat' first
    | (with_reducible intro _) | (with_reducible assumption) | (with_reducible apply State.setDie_keeps)
    | (with_reducible apply State.slotBack_keeps) | (with_reducible apply State.setLink_keeps)
    | (fail_if_no_progress with_reducible apply Keeps.update) | (with_reducible apply Keeps.ite)
    | (with_reducible apply KeepsO.bind) | split | (dsimp only)

theorem State.watchdog_keeps {s : State} {u : ResetUnit} {counts : Nat} (h0 : Keeps s₀ s) :
    Keeps s₀ (State.watchdog s u counts) := by
  unfold State.watchdog
  try dsimp only
  repeat' first
    | (with_reducible intro _) | (with_reducible assumption) | (with_reducible apply State.startLadder_keeps)
    | (with_reducible apply Keeps.ite) | split | (dsimp only)

end Sys2Proof.Machine
end

