-- ==== Sys2Proof/Laws/KeepsStartup.lean ====
section
/-!
SUPPORT. Every operation of Machine/Startup.lean keeps what every operation keeps.
-/
set_option linter.unreachableTactic false
set_option linter.unusedTactic false
namespace Sys2Proof.Machine

variable {s₀ : State}

theorem State.blockRelease_keeps {s : State} {d : DieId} (h0 : Keeps s₀ s) :
    Keeps s₀ (State.blockRelease s d) := by
  unfold State.blockRelease
  try dsimp only
  repeat' first
    | (with_reducible intro _) | (with_reducible assumption) | (with_reducible apply State.setDie_keeps)
    | (with_reducible apply State.enterStage_keeps) | (with_reducible apply State.linkDown_keeps)
    | (fail_if_no_progress with_reducible apply Keeps.update) | (with_reducible apply Keeps.ite)
    | (with_reducible apply Keeps.foldl) | (with_reducible apply Keeps.foldl1) | split | (dsimp only)

theorem State.cutWrites_keeps {s : State} {d : DieId} (h0 : Keeps s₀ s) :
    Keeps s₀ (State.cutWrites s d) := by
  unfold State.cutWrites
  try dsimp only
  repeat' first
    | (with_reducible intro _) | (with_reducible assumption) | (with_reducible apply State.draw_keeps)
    | (with_reducible apply State.writeByte_keeps) | (fail_if_no_progress with_reducible apply Keeps.update)
    | (with_reducible apply Keeps.ite) | (with_reducible apply Keeps.foldl) | (with_reducible apply Keeps.foldl1)
    | (with_reducible refine Keeps.of_eq2 ?_ (by assumption)) | split | (dsimp only)

theorem State.cutErase_keeps {s : State} {d : DieId} {j : Journal} (h0 : Keeps s₀ s) :
    Keeps s₀ (State.cutErase s d j).1 := by
  unfold State.cutErase
  try dsimp only
  repeat' first
    | (with_reducible intro _) | (with_reducible assumption) | (with_reducible apply State.draw_keeps)
    | (fail_if_no_progress with_reducible apply Keeps.update) | (with_reducible apply Keeps.ite)
    | (with_reducible apply Keeps.ite1) | (with_reducible apply Keeps.foldl) | (with_reducible apply Keeps.foldl1)
    | (with_reducible refine Keeps.of_eq2 ?_ (by assumption)) | split | (dsimp only)

theorem State.eraseDie_keeps {s : State} {d : DieId} {j : Journal} (h0 : Keeps s₀ s) :
    Keeps s₀ (State.eraseDie s d j) := by
  unfold State.eraseDie
  try dsimp only
  repeat' first
    | (with_reducible intro _) | (with_reducible assumption) | (fail_if_no_progress with_reducible apply Keeps.update)
    | split | (dsimp only)

theorem State.eraseHost_keeps {s : State} (h0 : Keeps s₀ s) :
    Keeps s₀ (State.eraseHost s) := by
  unfold State.eraseHost
  try dsimp only
  repeat' first
    | (with_reducible intro _) | (with_reducible assumption) | (fail_if_no_progress with_reducible apply Keeps.update)
    | (dsimp only)

theorem State.blockReset_keeps {s : State} {d : DieId} (h0 : Keeps s₀ s) :
    Keeps s₀ (State.blockReset s d) := by
  unfold State.blockReset
  try dsimp only
  repeat' first
    | (with_reducible intro _) | (with_reducible assumption) | (with_reducible apply State.cutWrites_keeps)
    | (with_reducible apply State.tear_keeps) | (with_reducible apply State.cutErase_keeps)
    | (with_reducible apply State.eraseDie_keeps) | (with_reducible apply State.eraseHost_keeps)
    | (with_reducible apply Keeps.ite) | (with_reducible refine Keeps.of_eq ?_ (by assumption)) | split | (dsimp only)

theorem State.clearStores_keeps {s : State} {d : DieId} (h0 : Keeps s₀ s) :
    Keeps s₀ (State.clearStores s d) := by
  unfold State.clearStores
  try dsimp only
  repeat' first
    | (with_reducible intro _) | (with_reducible assumption) | (with_reducible apply State.updCore_keeps)
    | (with_reducible apply State.setCluster_keeps) | (fail_if_no_progress with_reducible apply Keeps.update)
    | (with_reducible apply Keeps.foldl) | (with_reducible apply Keeps.foldl1) | (dsimp only)

theorem State.enableUnits_keeps {s : State} {d : DieId} (h0 : Keeps s₀ s) :
    Keeps s₀ (State.enableUnits s d) := by
  unfold State.enableUnits
  try dsimp only
  repeat' first
    | (with_reducible intro _) | (with_reducible assumption) | (with_reducible apply State.updCore_keeps)
    | (with_reducible apply State.setCluster_keeps) | (fail_if_no_progress with_reducible apply Keeps.update)
    | (with_reducible apply Keeps.foldl) | (with_reducible apply Keeps.foldl1) | (dsimp only)

theorem State.computeRelease_keeps {s : State} {d : DieId} (h0 : Keeps s₀ s) :
    Keeps s₀ (State.computeRelease s d) := by
  unfold State.computeRelease
  try dsimp only
  repeat' first
    | (with_reducible intro _) | (with_reducible assumption) | (with_reducible apply State.setDie_keeps)
    | (with_reducible apply State.startAlign_keeps) | (with_reducible apply State.linksReleased_keeps)
    | (with_reducible apply State.coresBack_keeps) | (with_reducible apply State.enableUnits_keeps)
    | (with_reducible apply State.resumeCompute_keeps) | (with_reducible apply State.beginStartPlan_keeps)
    | (fail_if_no_progress with_reducible apply Keeps.update) | (with_reducible apply Keeps.ite) | split
    | (dsimp only)

theorem State.raiseReady_keeps {s : State} {d : DieId} (h0 : Keeps s₀ s) :
    Keeps s₀ (State.raiseReady s d) := by
  unfold State.raiseReady
  try dsimp only
  repeat' first
    | (with_reducible intro _) | (with_reducible assumption) | (with_reducible apply State.enterStage_keeps)
    | (with_reducible apply State.noteErr_keeps) | (with_reducible apply State.setDie_keeps)
    | (fail_if_no_progress with_reducible apply Keeps.update) | (dsimp only)

theorem State.hostDone_keeps {s : State} {role : Byte} {strb : Byte} {v : W64} (h0 : Keeps s₀ s) :
    Keeps s₀ (State.hostDone s role strb v) := by
  unfold State.hostDone
  try dsimp only
  repeat' first
    | (with_reducible intro _) | (with_reducible assumption) | (with_reducible apply State.driverWrite_keeps)
    | (with_reducible apply State.rsvdWrite_keeps) | (with_reducible apply State.setDie_keeps)
    | (with_reducible apply State.raiseReady_keeps) | (with_reducible apply State.sendMsg_keeps)
    | (fail_if_no_progress with_reducible apply Keeps.update) | (with_reducible apply Keeps.ite)
    | (with_reducible apply Keeps.foldl) | (with_reducible apply Keeps.foldl1) | split | (dsimp only)

theorem State.disableUnit_keeps {s : State} {d : DieId} {x2 : ResetUnit} (h0 : Keeps s₀ s) :
    Keeps s₀ (State.disableUnit s d x2) := by
  unfold State.disableUnit
  try dsimp only
  repeat' first
    | (with_reducible intro _) | (with_reducible assumption) | (with_reducible apply State.setArr_keeps)
    | (with_reducible apply State.setSteward_keeps) | (with_reducible apply State.journal_keeps)
    | (with_reducible apply State.updCore_keeps) | (with_reducible apply State.setCluster_keeps)
    | (fail_if_no_progress with_reducible apply Keeps.update) | (with_reducible apply Keeps.ite) | split
    | (dsimp only)

theorem State.linksEnd_keeps {s : State} {d : DieId} (h0 : Keeps s₀ s) :
    Keeps s₀ (State.linksEnd s d) := by
  unfold State.linksEnd
  try dsimp only
  repeat' first
    | (with_reducible intro _) | (with_reducible assumption) | (with_reducible apply State.draw_keeps)
    | (with_reducible apply State.topologyConflict_keeps) | (with_reducible apply State.setDie_keeps)
    | (with_reducible apply State.enterStage_keeps) | (with_reducible apply State.sendMsg_keeps)
    | (fail_if_no_progress with_reducible apply Keeps.update) | (with_reducible apply Keeps.ite)
    | (with_reducible refine Keeps.of_eq2 ?_ (by assumption)) | split | (dsimp only)

theorem State.loseEmpty_keeps {s : State} {d : DieId} (h0 : Keeps s₀ s) :
    Keeps s₀ (State.loseEmpty s d) := by
  unfold State.loseEmpty
  try dsimp only
  repeat' first
    | (with_reducible intro _) | (with_reducible assumption) | (with_reducible apply State.updCore_keeps)
    | (with_reducible apply State.setCluster_keeps) | (fail_if_no_progress with_reducible apply Keeps.update)
    | (with_reducible apply Keeps.ite) | (with_reducible apply Keeps.foldl) | (with_reducible apply Keeps.foldl1)
    | split | (dsimp only)

theorem State.planRelease_keeps {s : State} {d : DieId} (h0 : Keeps s₀ s) :
    Keeps s₀ (State.planRelease s d) := by
  unfold State.planRelease
  try dsimp only
  repeat' first
    | (with_reducible intro _) | (with_reducible assumption) | (with_reducible apply State.computeRelease_keeps)
    | (with_reducible apply Keeps.ite) | split | (dsimp only)

theorem State.rateWindow_keeps {s : State} {d : DieId} {rate : W16} (h0 : Keeps s₀ s) :
    Keeps s₀ (State.rateWindow s d rate) := by
  unfold State.rateWindow
  try dsimp only
  repeat' first
    | (with_reducible intro _) | (with_reducible assumption) | (with_reducible apply State.setDie_keeps)
    | (with_reducible apply State.hmEvent_keeps) | (with_reducible apply State.askPlan_keeps)
    | (with_reducible apply State.reportFree_keeps) | (fail_if_no_progress with_reducible apply Keeps.update)
    | (with_reducible apply Keeps.ite) | (with_reducible apply Keeps.foldl) | (with_reducible apply Keeps.foldl1)
    | split | (dsimp only)

theorem State.readiness_keeps {s : State} {m : Nat} (h0 : Keeps s₀ s) :
    Keeps s₀ (State.readiness s m) := by
  unfold State.readiness
  try dsimp only
  repeat' first
    | (with_reducible intro _) | (with_reducible assumption) | (with_reducible apply State.raiseReady_keeps)
    | (with_reducible apply State.takeMsg_keeps) | (fail_if_no_progress with_reducible apply Keeps.update)
    | (with_reducible apply Keeps.ite) | split | (dsimp only)

theorem State.selftest_keeps {s : State} {d : DieId} {fails : List ResetUnit} {dieFail : Nat} (h0 : Keeps s₀ s) :
    Keeps s₀ (State.selftest s d fails dieFail) := by
  unfold State.selftest
  try dsimp only
  repeat' first
    | (with_reducible intro _) | (with_reducible assumption) | (with_reducible apply State.disableUnit_keeps)
    | (with_reducible apply State.startFault_keeps) | (with_reducible apply State.report_keeps)
    | (with_reducible apply State.loseEmpty_keeps) | (with_reducible apply State.clearStores_keeps)
    | (with_reducible apply State.setDie_keeps) | (with_reducible apply State.enableLink_keeps)
    | (with_reducible apply State.enterStage_keeps) | (fail_if_no_progress with_reducible apply Keeps.update)
    | (with_reducible apply Keeps.ite) | (with_reducible apply Keeps.foldl) | (with_reducible apply Keeps.foldl1)
    | split | (dsimp only)

theorem State.stageReport_keeps {s : State} {m : Nat} (h0 : Keeps s₀ s) :
    Keeps s₀ (State.stageReport s m) := by
  unfold State.stageReport
  try dsimp only
  repeat' first
    | (with_reducible intro _) | (with_reducible assumption) | (with_reducible apply State.takeMsg_keeps)
    | (with_reducible apply State.enterStage_keeps) | (fail_if_no_progress with_reducible apply Keeps.update)
    | (with_reducible apply Keeps.ite) | split | (dsimp only)

theorem State.supplyDip_keeps {s : State} {d : DieId} (h0 : Keeps s₀ s) :
    Keeps s₀ (State.supplyDip s d) := by
  unfold State.supplyDip
  try dsimp only
  repeat' first
    | (with_reducible intro _) | (with_reducible assumption) | (with_reducible apply State.reportFree_keeps)
    | (with_reducible apply State.setDie_keeps) | (with_reducible apply State.linksReset_keeps)
    | (with_reducible apply State.resetCompute_keeps) | (fail_if_no_progress with_reducible apply Keeps.update)
    | (with_reducible apply Keeps.ite) | split | (dsimp only)

theorem State.supplyRecovery_keeps {s : State} {d : DieId} (h0 : Keeps s₀ s) :
    Keeps s₀ (State.supplyRecovery s d) := by
  unfold State.supplyRecovery
  try dsimp only
  repeat' first
    | (with_reducible intro _) | (with_reducible assumption) | (with_reducible apply State.setDie_keeps)
    | (with_reducible apply State.computeBack_keeps) | (with_reducible apply State.computeRelease_keeps)
    | (with_reducible apply State.enterStage_keeps) | (fail_if_no_progress with_reducible apply Keeps.update)
    | (with_reducible apply Keeps.ite) | split | (dsimp only)

end Sys2Proof.Machine
end

