-- ==== Sys2Proof/Laws/KeepsRegs.lean ====
section
/-!
SUPPORT. Every operation of Machine/Regs.lean keeps what every operation keeps.
-/
set_option linter.unreachableTactic false
set_option linter.unusedTactic false
namespace Sys2Proof.Machine

variable {s₀ : State}

theorem State.globalRead_keeps {s : State} {g : Nat} (h0 : Keeps s₀ s) :
    KeepsR s₀ (State.globalRead s g) := by
  unfold State.globalRead
  try dsimp only
  repeat' first
    | (with_reducible intro _) | (with_reducible assumption) | (fail_if_no_progress with_reducible apply Keeps.update)
    | (with_reducible apply Keeps.ite) | (with_reducible apply KeepsR.ite) | (with_reducible apply KeepsR.swap)
    | (with_reducible apply KeepsR.pair) | (with_reducible apply KeepsR.map) | (with_reducible apply KeepsR.some)
    | (with_reducible exact KeepsR.none) | split | (dsimp only)

theorem State.partRead_keeps {s : State} {p : Nat} {w : Nat} (h0 : Keeps s₀ s) :
    KeepsR s₀ (State.partRead s p w) := by
  unfold State.partRead
  try dsimp only
  repeat' first
    | (with_reducible intro _) | (with_reducible assumption) | (fail_if_no_progress with_reducible apply Keeps.update)
    | (with_reducible apply Keeps.ite) | (with_reducible apply KeepsR.ite) | (with_reducible apply KeepsR.swap)
    | (with_reducible apply KeepsR.pair) | (with_reducible apply KeepsR.map) | (with_reducible apply KeepsR.some)
    | (with_reducible exact KeepsR.none) | split | (dsimp only)

theorem State.dieRegRead_keeps {s : State} {d : DieId} {o : Nat} (h0 : Keeps s₀ s) :
    KeepsR s₀ (State.dieRegRead s d o) := by
  unfold State.dieRegRead
  try dsimp only
  repeat' first
    | (with_reducible intro _) | (with_reducible assumption) | (with_reducible apply State.setDie_keeps)
    | (with_reducible apply State.setNet_keeps) | (fail_if_no_progress with_reducible apply Keeps.update)
    | (with_reducible apply Keeps.ite) | (with_reducible apply KeepsR.ite) | (with_reducible apply KeepsR.swap)
    | (with_reducible apply KeepsR.pair) | (with_reducible apply KeepsR.map) | (with_reducible apply KeepsR.some)
    | (with_reducible exact KeepsR.none) | split | (dsimp only)

theorem State.storeErrRead_keeps {s : State} {d : DieId} {c : Nat} {j : Nat} (h0 : Keeps s₀ s) :
    Keeps s₀ (State.storeErrRead s d c j).2 := by
  unfold State.storeErrRead
  try dsimp only
  repeat' first
    | (with_reducible intro _) | (with_reducible assumption) | (with_reducible apply State.setCluster_keeps)
    | (with_reducible apply State.setCore_keeps) | (fail_if_no_progress with_reducible apply Keeps.update)
    | (with_reducible apply Keeps.ite) | split | (dsimp only)

theorem State.ovfWord_keeps {s : State} {d : DieId} {slot : Nat} {off : Nat} (h0 : Keeps s₀ s) :
    Keeps s₀ (State.ovfWord s d slot off).1 := by
  unfold State.ovfWord
  try dsimp only
  repeat' first
    | (with_reducible intro _) | (with_reducible assumption) | (with_reducible apply State.draw_keeps)
    | (fail_if_no_progress with_reducible apply Keeps.update)
    | (with_reducible refine Keeps.of_eq2 ?_ (by assumption)) | split | (dsimp only)

theorem State.dumpWord_keeps {s : State} {d : DieId} {off : Nat} (h0 : Keeps s₀ s) :
    Keeps s₀ (State.dumpWord s d off).1 := by
  unfold State.dumpWord
  try dsimp only
  repeat' first
    | (with_reducible intro _) | (with_reducible assumption) | (with_reducible apply State.draw_keeps)
    | (with_reducible apply Keeps.ite) | (with_reducible apply Keeps.ite1)
    | (with_reducible refine Keeps.of_eq2 ?_ (by assumption)) | split | (dsimp only)

theorem State.dieRead_keeps {s : State} {d : DieId} {o : Nat} (h0 : Keeps s₀ s) :
    KeepsR s₀ (State.dieRead s d o) := by
  unfold State.dieRead
  try dsimp only
  repeat' first
    | (with_reducible intro _) | (with_reducible assumption) | (with_reducible apply State.dieRegRead_keeps)
    | (with_reducible apply State.setLink_keeps) | (with_reducible apply State.setRegion_keeps)
    | (with_reducible apply State.storeErrRead_keeps) | (with_reducible apply State.ovfWord_keeps)
    | (with_reducible apply State.dumpWord_keeps) | (fail_if_no_progress with_reducible apply Keeps.update)
    | (with_reducible apply Keeps.ite) | (with_reducible apply KeepsR.ite) | (with_reducible apply KeepsR.swap)
    | (with_reducible apply KeepsR.pair) | (with_reducible apply KeepsR.map) | (with_reducible apply KeepsR.some)
    | (with_reducible exact KeepsR.none) | (with_reducible refine Keeps.of_eq ?_ (by assumption))
    | (with_reducible refine KeepsR.of_eq ?_ (by assumption))
    | (with_reducible refine Keeps.of_eq2 ?_ (by assumption)) | split | (dsimp only)

theorem State.crownReadAt_keeps {s : State} {role : Role} {o : Nat} (h0 : Keeps s₀ s) :
    KeepsR s₀ (State.crownReadAt s role o) := by
  unfold State.crownReadAt
  try dsimp only
  repeat' first
    | (with_reducible intro _) | (with_reducible assumption) | (with_reducible apply State.globalRead_keeps)
    | (with_reducible apply State.partRead_keeps) | (with_reducible apply State.dieRead_keeps)
    | (fail_if_no_progress with_reducible apply Keeps.update) | (with_reducible apply Keeps.ite)
    | (with_reducible apply KeepsR.ite) | (with_reducible apply KeepsR.swap) | (with_reducible apply KeepsR.pair)
    | (with_reducible apply KeepsR.map) | (with_reducible apply KeepsR.some) | (with_reducible exact KeepsR.none)
    | (with_reducible refine KeepsR.of_eq ?_ (by assumption)) | split | (dsimp only)

theorem State.crownTry_keeps {s : State} {strb : Byte} {allowed : Bool} {act : W64 → Option State} (h0 : Keeps s₀ s) (h3 : ∀ y0, KeepsO s₀ (act y0)) :
    Keeps s₀ (State.crownTry s strb allowed act) := by
  unfold State.crownTry
  try dsimp only
  repeat' first
    | (with_reducible intro _) | (with_reducible assumption) | (with_reducible apply h3)
    | (with_reducible apply State.crownErr_keeps) | (with_reducible apply State.crownOk_keeps)
    | (fail_if_no_progress with_reducible apply Keeps.update) | (with_reducible apply Keeps.ite)
    | (with_reducible apply Keeps.ite1) | (with_reducible apply KeepsO.ite) | (with_reducible apply KeepsR.ite)
    | (with_reducible apply Keeps.foldl) | (with_reducible apply Keeps.foldl1) | (with_reducible apply KeepsO.some)
    | (with_reducible apply KeepsL.some) | (with_reducible apply KeepsR.swap) | (with_reducible apply KeepsR.pair)
    | (with_reducible apply KeepsR.map) | (with_reducible apply KeepsR.some) | (with_reducible apply KeepsO.getD)
    | (with_reducible apply KeepsO.bind) | (with_reducible apply KeepsOut.next) | (with_reducible exact Keeps.refl _)
    | (with_reducible exact KeepsOut.fault) | (with_reducible exact KeepsO.none) | (with_reducible exact KeepsL.none)
    | (with_reducible exact KeepsR.none) | (with_reducible refine Keeps.of_eq ?_ (by assumption))
    | (with_reducible refine KeepsO.of_eq ?_ (by assumption))
    | (with_reducible refine KeepsL.of_eq ?_ (by assumption))
    | (with_reducible refine KeepsR.of_eq ?_ (by assumption))
    | (with_reducible refine Keeps.of_eq2 ?_ (by assumption)) | split | (dsimp only) | (dsimp only [id])
    | (dsimp +zetaDelta only)

theorem State.mailboxWrite_keeps {s : State} {k : Nat} {w : Nat} {v : W64} {mask : W64} (h0 : Keeps s₀ s) :
    KeepsO s₀ (State.mailboxWrite s k w v mask) := by
  unfold State.mailboxWrite
  try dsimp only
  repeat' first
    | (with_reducible intro _) | (with_reducible assumption) | (with_reducible apply State.setSteward_keeps)
    | (with_reducible apply State.rsvdWrite_keeps) | (fail_if_no_progress with_reducible apply Keeps.update)
    | (with_reducible apply Keeps.ite) | (with_reducible apply KeepsO.ite) | (with_reducible apply KeepsO.some)
    | (with_reducible exact KeepsO.none) | split | (dsimp only)

theorem State.tableWrite_keeps {s : State} {o : Nat} {v : W64} {m : W64} (h0 : Keeps s₀ s) :
    KeepsO s₀ (State.tableWrite s o v m) := by
  have key : ∀ (o : Nat) old used set, State.tableBase s o = some (old, used, set) → ∀ v, Keeps s₀ (set v) := by
    intro o old used set e v
    unfold State.tableBase at e
    split at e
    · cases e; exact Keeps.update h0
    · split at e
      · cases e; exact Keeps.update h0
      · split at e
        · cases e; exact Keeps.update h0
        · cases e
  unfold State.tableWrite
  split
  · exact KeepsO.none
  · rename_i old used set e
    split
    · exact KeepsO.none
    · exact KeepsO.some (State.rsvdWrite_keeps (key _ _ _ _ e _))

theorem State.ringBase_keeps {s : State} {p : Nat} {r : Nat} {v : W64} {m : W64} (h0 : Keeps s₀ s) :
    KeepsO s₀ (State.ringBase s p r v m) := by
  unfold State.ringBase
  try dsimp only
  repeat' first
    | (with_reducible intro _) | (with_reducible assumption) | (with_reducible apply State.setRing_keeps)
    | (fail_if_no_progress with_reducible apply Keeps.update) | (with_reducible apply Keeps.ite)
    | (with_reducible apply KeepsO.ite) | (with_reducible apply KeepsO.some) | (with_reducible exact KeepsO.none)
    | split | (dsimp only)

theorem State.ringCfgPut_keeps {s : State} {p : Nat} {r : Nat} {v : W64} {m : W64} (h0 : Keeps s₀ s) :
    KeepsO s₀ (State.ringCfgPut s p r v m) := by
  unfold State.ringCfgPut
  try dsimp only
  repeat' first
    | (with_reducible intro _) | (with_reducible assumption) | (with_reducible apply State.setRing_keeps)
    | (with_reducible apply State.rsvdWrite_keeps) | (fail_if_no_progress with_reducible apply Keeps.update)
    | (with_reducible apply Keeps.ite) | (with_reducible apply KeepsO.ite) | (with_reducible apply KeepsO.some)
    | (with_reducible exact KeepsO.none) | split | (dsimp only)

theorem State.ringRd_keeps {s : State} {p : Nat} {r : Nat} {v : W64} {m : W64} (h0 : Keeps s₀ s) :
    KeepsO s₀ (State.ringRd s p r v m) := by
  unfold State.ringRd
  try dsimp only
  repeat' first
    | (with_reducible intro _) | (with_reducible assumption) | (with_reducible apply State.setRing_keeps)
    | (fail_if_no_progress with_reducible apply Keeps.update) | (with_reducible apply Keeps.ite)
    | (with_reducible apply KeepsO.ite) | (with_reducible apply KeepsO.some) | (with_reducible exact KeepsO.none)
    | split | (dsimp only)

theorem State.ringWrite_keeps {s : State} {role : Byte} {strb : Byte} {p : Fin 16} {r : Nat} {reg : Nat} {v : W64} (h0 : Keeps s₀ s) :
    Keeps s₀ (State.ringWrite s role strb p r reg v) := by
  unfold State.ringWrite
  try dsimp only
  repeat' first
    | (with_reducible intro _) | (with_reducible assumption) | (with_reducible apply State.crownTry_keeps)
    | (with_reducible apply State.ringBase_keeps) | (with_reducible apply State.ringCfgPut_keeps)
    | (with_reducible apply State.ringRd_keeps) | (fail_if_no_progress with_reducible apply Keeps.update)
    | (with_reducible apply KeepsO.some) | (with_reducible exact KeepsO.none)
    | (with_reducible refine KeepsO.of_eq ?_ (by assumption)) | split | (dsimp only)

theorem State.ovfCtl_keeps {s : State} {d : DieId} {v : W64} {m : W64} (h0 : Keeps s₀ s) :
    Keeps s₀ (State.ovfCtl s d v m) := by
  unfold State.ovfCtl
  try dsimp only
  repeat' first
    | (with_reducible intro _) | (with_reducible assumption) | (with_reducible apply State.rsvdWrite_keeps)
    | (with_reducible apply State.setDie_keeps) | (fail_if_no_progress with_reducible apply Keeps.update)
    | (with_reducible apply Keeps.ite) | split | (dsimp only)

theorem State.dieWrite_keeps {s : State} {d : DieId} {o : Nat} {v : W64} {m : W64} (h0 : Keeps s₀ s) :
    KeepsO s₀ (State.dieWrite s d o v m) := by
  unfold State.dieWrite
  try dsimp only
  repeat' first
    | (with_reducible intro _) | (with_reducible assumption) | (with_reducible apply State.rsvdWrite_keeps)
    | (with_reducible apply State.setDie_keeps) | (with_reducible apply State.fqAnswer_keeps)
    | (with_reducible apply State.dumpStatWrite_keeps) | (with_reducible apply State.ovfCtl_keeps)
    | (with_reducible apply State.hmWrite_keeps) | (with_reducible apply State.setRegion_keeps)
    | (fail_if_no_progress with_reducible apply Keeps.update) | (with_reducible apply Keeps.ite)
    | (with_reducible apply KeepsO.ite) | (with_reducible apply KeepsO.some) | (with_reducible exact KeepsO.none)
    | split | (dsimp only)

theorem State.crownWrite_keeps {s : State} {role : Byte} {strb : Byte} {o : Nat} {v : W64} (h0 : Keeps s₀ s) :
    Keeps s₀ (State.crownWrite s role strb o v) := by
  unfold State.crownWrite
  try dsimp only
  repeat' first
    | (with_reducible intro _) | (with_reducible assumption) | (with_reducible apply State.crownTry_keeps)
    | (with_reducible apply State.mailboxWrite_keeps) | (with_reducible apply State.objWrite_keeps)
    | (with_reducible apply State.rsvdWrite_keeps) | (with_reducible apply State.hostDone_keeps)
    | (with_reducible apply State.tableWrite_keeps) | (with_reducible apply State.rootWrite_keeps)
    | (with_reducible apply State.ringWrite_keeps) | (with_reducible apply State.crownErr_keeps)
    | (with_reducible apply State.doorbell_keeps) | (with_reducible apply State.dieWrite_keeps)
    | (fail_if_no_progress with_reducible apply Keeps.update) | (with_reducible apply Keeps.ite)
    | (with_reducible apply KeepsO.some) | (with_reducible exact KeepsO.none)
    | (with_reducible refine KeepsO.of_eq ?_ (by assumption)) | split | (dsimp only)

end Sys2Proof.Machine
end

