-- ==== Sys2Proof/Laws/KeepsPorts.lean ====
section
/-!
SUPPORT. Every operation of Machine/Ports.lean keeps what every operation keeps.
-/
set_option linter.unreachableTactic false
set_option linter.unusedTactic false
namespace Sys2Proof.Machine

variable {s₀ : State}

theorem State.debugAccess_keeps {s : State} {d : DieId} {addr : W32} {write : Bool} {v : W64} (h0 : Keeps s₀ s) :
    Keeps s₀ (State.debugAccess s d addr write v) := by
  unfold State.debugAccess
  try dsimp only
  repeat' first
    | (with_reducible intro _) | (with_reducible assumption) | (with_reducible apply State.setDebug_keeps)
    | (with_reducible apply State.dieRead_keeps) | (with_reducible apply State.report_keeps)
    | (with_reducible apply State.dieWrite_keeps) | (fail_if_no_progress with_reducible apply Keeps.update)
    | (with_reducible apply Keeps.ite) | (with_reducible apply KeepsO.some) | (with_reducible exact KeepsO.none)
    | (with_reducible refine KeepsO.of_eq ?_ (by assumption))
    | (with_reducible refine KeepsR.of_eq ?_ (by assumption)) | split | (dsimp only)

theorem State.debugReset_keeps {s : State} {d : DieId} (h0 : Keeps s₀ s) :
    Keeps s₀ (State.debugReset s d) := by
  unfold State.debugReset
  try dsimp only
  repeat' first
    | (with_reducible intro _) | (with_reducible assumption) | (with_reducible apply State.setDebug_keeps)
    | (dsimp only)

theorem State.imTransfer_keeps {s : State} {d : DieId} (h0 : Keeps s₀ s) :
    Keeps s₀ (State.imTransfer s d) := by
  unfold State.imTransfer
  try dsimp only
  repeat' first
    | (with_reducible intro _) | (with_reducible assumption) | (fail_if_no_progress with_reducible apply Keeps.update)
    | split | (dsimp only)

theorem State.ovfFree_keeps {s : State} {role : Byte} {strb : Byte} {d : DieId} {v : W64} (h0 : Keeps s₀ s) :
    Keeps s₀ (State.ovfFree s role strb d v) := by
  unfold State.ovfFree
  try dsimp only
  repeat' first
    | (with_reducible intro _) | (with_reducible assumption) | (with_reducible apply State.crownErr_keeps)
    | (with_reducible apply State.driverWrite_keeps) | (with_reducible apply State.ovfCtl_keeps)
    | (with_reducible apply Keeps.ite) | split | (dsimp only)

theorem State.registerRead_keeps {s : State} {d : DieId} {role : Byte} {off : BitVec 28} (h0 : Keeps s₀ s) :
    Keeps s₀ (State.registerRead s d role off) := by
  unfold State.registerRead
  try dsimp only
  repeat' first
    | (with_reducible intro _) | (with_reducible assumption) | (with_reducible apply State.portErr_keeps)
    | (with_reducible apply State.crownErr_keeps) | (with_reducible apply State.crownReadAt_keeps)
    | (fail_if_no_progress with_reducible apply Keeps.update) | (with_reducible apply Keeps.ite)
    | (with_reducible refine KeepsR.of_eq ?_ (by assumption)) | split | (dsimp only)

theorem State.registerWrite_keeps {s : State} {d : DieId} {role : Byte} {strb : Byte} {off : BitVec 28} {v : W64} (h0 : Keeps s₀ s) :
    Keeps s₀ (State.registerWrite s d role strb off v) := by
  unfold State.registerWrite
  try dsimp only
  repeat' first
    | (with_reducible intro _) | (with_reducible assumption) | (with_reducible apply State.portErr_keeps)
    | (with_reducible apply State.crownWrite_keeps) | (with_reducible apply Keeps.ite) | split | (dsimp only)

theorem State.tableBaseWrite_keeps {s : State} {role : Byte} {strb : Byte} {off : BitVec 28} {v : W64} (h0 : Keeps s₀ s) :
    Keeps s₀ (State.tableBaseWrite s role strb off v) := by
  unfold State.tableBaseWrite
  try dsimp only
  repeat' first
    | (with_reducible intro _) | (with_reducible assumption) | (with_reducible apply State.crownWrite_keeps)
    | (with_reducible apply Keeps.ite) | split | (dsimp only)

end Sys2Proof.Machine
end

