-- ==== Sys2Proof/Laws/KeepsStw.lean ====
section
/-!
SUPPORT. Every operation of Machine/Stw.lean keeps what every operation keeps.
-/
set_option linter.unreachableTactic false
set_option linter.unusedTactic false
namespace Sys2Proof.Machine

variable {s₀ : State}

theorem State.answerRestarted_keeps {s : State} {d : DieId} (h0 : Keeps s₀ s) :
    Keeps s₀ (State.answerRestarted s d) := by
  unfold State.answerRestarted
  try dsimp only
  repeat' first
    | (with_reducible intro _) | (with_reducible assumption) | (with_reducible apply State.answerPath_keeps)
    | (fail_if_no_progress with_reducible apply Keeps.update) | (with_reducible apply Keeps.ite)
    | (with_reducible apply Keeps.foldl) | (with_reducible apply Keeps.foldl1) | split | (dsimp only)

theorem State.stewardRuns_keeps {s : State} {d : DieId} {mode : StwMode} {svn : W16} {version : W32} (h0 : Keeps s₀ s) :
    Keeps s₀ (State.stewardRuns s d mode svn version) := by
  unfold State.stewardRuns
  try dsimp only
  repeat' first
    | (with_reducible intro _) | (with_reducible assumption) | (with_reducible apply State.setSteward_keeps)
    | (with_reducible apply State.setNet_keeps) | (with_reducible apply State.enterStage_keeps)
    | (with_reducible apply State.answerRestarted_keeps) | (fail_if_no_progress with_reducible apply Keeps.update)
    | (with_reducible apply Keeps.ite) | split | (dsimp only)

theorem State.runRom_keeps {s : State} {d : DieId} {vfail : Nat} {code : Nat} (h0 : Keeps s₀ s) :
    Keeps s₀ (State.runRom s d vfail code) := by
  unfold State.runRom
  try dsimp only
  repeat' first
    | (with_reducible intro _) | (with_reducible assumption) | (with_reducible apply State.setSteward_keeps)
    | (with_reducible apply State.report_keeps) | (with_reducible apply State.stewardRuns_keeps)
    | (with_reducible apply State.startFault_keeps) | (fail_if_no_progress with_reducible apply Keeps.update)
    | (with_reducible apply Keeps.ite) | split | (dsimp only)

theorem State.imageCheckAt_keeps {s : State} {d : DieId} {flashOk : Bool} (h0 : Keeps s₀ s) :
    Keeps s₀ (State.imageCheckAt s d flashOk) := by
  unfold State.imageCheckAt
  try dsimp only
  repeat' first
    | (with_reducible intro _) | (with_reducible assumption) | (with_reducible apply State.setSteward_keeps)
    | (with_reducible apply State.runRom_keeps) | (with_reducible apply State.stewardRuns_keeps)
    | (fail_if_no_progress with_reducible apply Keeps.update) | (with_reducible apply Keeps.ite) | split
    | (dsimp only)

theorem State.readLatches_keeps {s : State} {d : DieId} (h0 : Keeps s₀ s) :
    Keeps s₀ (State.readLatches s d) := by
  unfold State.readLatches
  try dsimp only
  repeat' first
    | (with_reducible intro _) | (with_reducible assumption) | (with_reducible apply State.draw_keeps)
    | (fail_if_no_progress with_reducible apply Keeps.update) | (with_reducible apply Keeps.ite)
    | (with_reducible refine Keeps.of_eq2 ?_ (by assumption)) | split | (dsimp only)

theorem State.readback_keeps {s : State} {d : DieId} {sampled : BitVec 2} (h0 : Keeps s₀ s) :
    Keeps s₀ (State.readback s d sampled) := by
  unfold State.readback
  try dsimp only
  repeat' first
    | (with_reducible intro _) | (with_reducible assumption) | (with_reducible apply State.report_keeps)
    | (with_reducible apply Keeps.ite) | split | (dsimp only)

theorem State.stewardWatchdog_keeps {s : State} {d : DieId} (h0 : Keeps s₀ s) :
    Keeps s₀ (State.stewardWatchdog s d) := by
  unfold State.stewardWatchdog
  try dsimp only
  repeat' first
    | (with_reducible intro _) | (with_reducible assumption) | (with_reducible apply State.restartSteward_keeps)
    | (with_reducible apply State.report_keeps) | (with_reducible apply State.setSteward_keeps)
    | (fail_if_no_progress with_reducible apply Keeps.update) | (with_reducible apply Keeps.ite) | split
    | (dsimp only)

theorem State.supervise_keeps {s : State} {d : DieId} (h0 : Keeps s₀ s) :
    Keeps s₀ (State.supervise s d) := by
  unfold State.supervise
  try dsimp only
  repeat' first
    | (with_reducible intro _) | (with_reducible assumption) | (with_reducible apply State.setSteward_keeps)
    | (with_reducible apply State.stampsTaken_keeps) | (with_reducible apply State.readLatches_keeps)
    | (with_reducible apply State.beginPlan_keeps) | (fail_if_no_progress with_reducible apply Keeps.update)
    | (with_reducible apply Keeps.ite) | (with_reducible apply Keeps.foldl) | (with_reducible apply Keeps.foldl1)
    | split | (dsimp only)

end Sys2Proof.Machine
end

