-- ==== Sys2Proof/Laws/KeepsExec.lean ====
section
/-!
SUPPORT. Every command keeps what every operation keeps.
-/
set_option linter.unreachableTactic false
set_option linter.unusedTactic false
namespace Sys2Proof.Machine

variable {s₀ : State}

theorem execAdd_keeps {c : CoreId} {w : W32} {s : State} (h0 : Keeps s₀ s) :
    KeepsOut s₀ (execAdd c w s) := by
  unfold execAdd
  repeat' first
    | (with_reducible intro _) | (with_reducible assumption)
    | (with_reducible apply onCore_keeps)
    | (with_reducible apply State.scalar_keeps)
    | (with_reducible apply KeepsOut.next) | (with_reducible exact KeepsOut.fault) | split | (dsimp only)

theorem execSub_keeps {c : CoreId} {w : W32} {s : State} (h0 : Keeps s₀ s) :
    KeepsOut s₀ (execSub c w s) := by
  unfold execSub
  repeat' first
    | (with_reducible intro _) | (with_reducible assumption)
    | (with_reducible apply onCore_keeps)
    | (with_reducible apply State.scalar_keeps)
    | (with_reducible apply KeepsOut.next) | (with_reducible exact KeepsOut.fault) | split | (dsimp only)

theorem execAnd_keeps {c : CoreId} {w : W32} {s : State} (h0 : Keeps s₀ s) :
    KeepsOut s₀ (execAnd c w s) := by
  unfold execAnd
  repeat' first
    | (with_reducible intro _) | (with_reducible assumption)
    | (with_reducible apply onCore_keeps)
    | (with_reducible apply State.scalar_keeps)
    | (with_reducible apply KeepsOut.next) | (with_reducible exact KeepsOut.fault) | split | (dsimp only)

theorem execOr_keeps {c : CoreId} {w : W32} {s : State} (h0 : Keeps s₀ s) :
    KeepsOut s₀ (execOr c w s) := by
  unfold execOr
  repeat' first
    | (with_reducible intro _) | (with_reducible assumption)
    | (with_reducible apply onCore_keeps)
    | (with_reducible apply State.scalar_keeps)
    | (with_reducible apply KeepsOut.next) | (with_reducible exact KeepsOut.fault) | split | (dsimp only)

theorem execXor_keeps {c : CoreId} {w : W32} {s : State} (h0 : Keeps s₀ s) :
    KeepsOut s₀ (execXor c w s) := by
  unfold execXor
  repeat' first
    | (with_reducible intro _) | (with_reducible assumption)
    | (with_reducible apply onCore_keeps)
    | (with_reducible apply State.scalar_keeps)
    | (with_reducible apply KeepsOut.next) | (with_reducible exact KeepsOut.fault) | split | (dsimp only)

theorem execShl_keeps {c : CoreId} {w : W32} {s : State} (h0 : Keeps s₀ s) :
    KeepsOut s₀ (execShl c w s) := by
  unfold execShl
  repeat' first
    | (with_reducible intro _) | (with_reducible assumption)
    | (with_reducible apply onCore_keeps)
    | (with_reducible apply State.scalar_keeps)
    | (with_reducible apply KeepsOut.next) | (with_reducible exact KeepsOut.fault) | split | (dsimp only)

theorem execShr_keeps {c : CoreId} {w : W32} {s : State} (h0 : Keeps s₀ s) :
    KeepsOut s₀ (execShr c w s) := by
  unfold execShr
  repeat' first
    | (with_reducible intro _) | (with_reducible assumption)
    | (with_reducible apply onCore_keeps)
    | (with_reducible apply State.scalar_keeps)
    | (with_reducible apply KeepsOut.next) | (with_reducible exact KeepsOut.fault) | split | (dsimp only)

theorem execSra_keeps {c : CoreId} {w : W32} {s : State} (h0 : Keeps s₀ s) :
    KeepsOut s₀ (execSra c w s) := by
  unfold execSra
  repeat' first
    | (with_reducible intro _) | (with_reducible assumption)
    | (with_reducible apply onCore_keeps)
    | (with_reducible apply State.scalar_keeps)
    | (with_reducible apply KeepsOut.next) | (with_reducible exact KeepsOut.fault) | split | (dsimp only)

theorem execMul_keeps {c : CoreId} {w : W32} {s : State} (h0 : Keeps s₀ s) :
    KeepsOut s₀ (execMul c w s) := by
  unfold execMul
  repeat' first
    | (with_reducible intro _) | (with_reducible assumption)
    | (with_reducible apply onCore_keeps)
    | (with_reducible apply State.scalar_keeps)
    | (with_reducible apply KeepsOut.next) | (with_reducible exact KeepsOut.fault) | split | (dsimp only)

theorem execMulh_keeps {c : CoreId} {w : W32} {s : State} (h0 : Keeps s₀ s) :
    KeepsOut s₀ (execMulh c w s) := by
  unfold execMulh
  repeat' first
    | (with_reducible intro _) | (with_reducible assumption)
    | (with_reducible apply onCore_keeps)
    | (with_reducible apply State.scalar_keeps)
    | (with_reducible apply KeepsOut.next) | (with_reducible exact KeepsOut.fault) | split | (dsimp only)

theorem execMulhu_keeps {c : CoreId} {w : W32} {s : State} (h0 : Keeps s₀ s) :
    KeepsOut s₀ (execMulhu c w s) := by
  unfold execMulhu
  repeat' first
    | (with_reducible intro _) | (with_reducible assumption)
    | (with_reducible apply onCore_keeps)
    | (with_reducible apply State.scalar_keeps)
    | (with_reducible apply KeepsOut.next) | (with_reducible exact KeepsOut.fault) | split | (dsimp only)

theorem execMin_keeps {c : CoreId} {w : W32} {s : State} (h0 : Keeps s₀ s) :
    KeepsOut s₀ (execMin c w s) := by
  unfold execMin
  repeat' first
    | (with_reducible intro _) | (with_reducible assumption)
    | (with_reducible apply onCore_keeps)
    | (with_reducible apply State.scalar_keeps)
    | (with_reducible apply KeepsOut.next) | (with_reducible exact KeepsOut.fault) | split | (dsimp only)

theorem execMax_keeps {c : CoreId} {w : W32} {s : State} (h0 : Keeps s₀ s) :
    KeepsOut s₀ (execMax c w s) := by
  unfold execMax
  repeat' first
    | (with_reducible intro _) | (with_reducible assumption)
    | (with_reducible apply onCore_keeps)
    | (with_reducible apply State.scalar_keeps)
    | (with_reducible apply KeepsOut.next) | (with_reducible exact KeepsOut.fault) | split | (dsimp only)

theorem execMinu_keeps {c : CoreId} {w : W32} {s : State} (h0 : Keeps s₀ s) :
    KeepsOut s₀ (execMinu c w s) := by
  unfold execMinu
  repeat' first
    | (with_reducible intro _) | (with_reducible assumption)
    | (with_reducible apply onCore_keeps)
    | (with_reducible apply State.scalar_keeps)
    | (with_reducible apply KeepsOut.next) | (with_reducible exact KeepsOut.fault) | split | (dsimp only)

theorem execMaxu_keeps {c : CoreId} {w : W32} {s : State} (h0 : Keeps s₀ s) :
    KeepsOut s₀ (execMaxu c w s) := by
  unfold execMaxu
  repeat' first
    | (with_reducible intro _) | (with_reducible assumption)
    | (with_reducible apply onCore_keeps)
    | (with_reducible apply State.scalar_keeps)
    | (with_reducible apply KeepsOut.next) | (with_reducible exact KeepsOut.fault) | split | (dsimp only)

theorem execDivu_keeps {c : CoreId} {w : W32} {s : State} (h0 : Keeps s₀ s) :
    KeepsOut s₀ (execDivu c w s) := by
  unfold execDivu
  repeat' first
    | (with_reducible intro _) | (with_reducible assumption)
    | (with_reducible apply onCore_keeps)
    | (with_reducible apply State.scalar_keeps)
    | (with_reducible apply KeepsOut.next) | (with_reducible exact KeepsOut.fault) | split | (dsimp only)

theorem execRemu_keeps {c : CoreId} {w : W32} {s : State} (h0 : Keeps s₀ s) :
    KeepsOut s₀ (execRemu c w s) := by
  unfold execRemu
  repeat' first
    | (with_reducible intro _) | (with_reducible assumption)
    | (with_reducible apply onCore_keeps)
    | (with_reducible apply State.scalar_keeps)
    | (with_reducible apply KeepsOut.next) | (with_reducible exact KeepsOut.fault) | split | (dsimp only)

theorem execAddi_keeps {c : CoreId} {w : W32} {s : State} (h0 : Keeps s₀ s) :
    KeepsOut s₀ (execAddi c w s) := by
  unfold execAddi
  repeat' first
    | (with_reducible intro _) | (with_reducible assumption)
    | (with_reducible apply onCore_keeps)
    | (with_reducible apply State.scalar_keeps)
    | (with_reducible apply KeepsOut.next) | (with_reducible exact KeepsOut.fault) | split | (dsimp only)

theorem execAndi_keeps {c : CoreId} {w : W32} {s : State} (h0 : Keeps s₀ s) :
    KeepsOut s₀ (execAndi c w s) := by
  unfold execAndi
  repeat' first
    | (with_reducible intro _) | (with_reducible assumption)
    | (with_reducible apply onCore_keeps)
    | (with_reducible apply State.scalar_keeps)
    | (with_reducible apply KeepsOut.next) | (with_reducible exact KeepsOut.fault) | split | (dsimp only)

theorem execOri_keeps {c : CoreId} {w : W32} {s : State} (h0 : Keeps s₀ s) :
    KeepsOut s₀ (execOri c w s) := by
  unfold execOri
  repeat' first
    | (with_reducible intro _) | (with_reducible assumption)
    | (with_reducible apply onCore_keeps)
    | (with_reducible apply State.scalar_keeps)
    | (with_reducible apply KeepsOut.next) | (with_reducible exact KeepsOut.fault) | split | (dsimp only)

theorem execXori_keeps {c : CoreId} {w : W32} {s : State} (h0 : Keeps s₀ s) :
    KeepsOut s₀ (execXori c w s) := by
  unfold execXori
  repeat' first
    | (with_reducible intro _) | (with_reducible assumption)
    | (with_reducible apply onCore_keeps)
    | (with_reducible apply State.scalar_keeps)
    | (with_reducible apply KeepsOut.next) | (with_reducible exact KeepsOut.fault) | split | (dsimp only)

theorem execShli_keeps {c : CoreId} {w : W32} {s : State} (h0 : Keeps s₀ s) :
    KeepsOut s₀ (execShli c w s) := by
  unfold execShli
  repeat' first
    | (with_reducible intro _) | (with_reducible assumption)
    | (with_reducible apply onCore_keeps)
    | (with_reducible apply State.scalar_keeps)
    | (with_reducible apply KeepsOut.next) | (with_reducible exact KeepsOut.fault) | split | (dsimp only)

theorem execShri_keeps {c : CoreId} {w : W32} {s : State} (h0 : Keeps s₀ s) :
    KeepsOut s₀ (execShri c w s) := by
  unfold execShri
  repeat' first
    | (with_reducible intro _) | (with_reducible assumption)
    | (with_reducible apply onCore_keeps)
    | (with_reducible apply State.scalar_keeps)
    | (with_reducible apply KeepsOut.next) | (with_reducible exact KeepsOut.fault) | split | (dsimp only)

theorem execSrai_keeps {c : CoreId} {w : W32} {s : State} (h0 : Keeps s₀ s) :
    KeepsOut s₀ (execSrai c w s) := by
  unfold execSrai
  repeat' first
    | (with_reducible intro _) | (with_reducible assumption)
    | (with_reducible apply onCore_keeps)
    | (with_reducible apply State.scalar_keeps)
    | (with_reducible apply KeepsOut.next) | (with_reducible exact KeepsOut.fault) | split | (dsimp only)

theorem execMuli_keeps {c : CoreId} {w : W32} {s : State} (h0 : Keeps s₀ s) :
    KeepsOut s₀ (execMuli c w s) := by
  unfold execMuli
  repeat' first
    | (with_reducible intro _) | (with_reducible assumption)
    | (with_reducible apply onCore_keeps)
    | (with_reducible apply State.scalar_keeps)
    | (with_reducible apply KeepsOut.next) | (with_reducible exact KeepsOut.fault) | split | (dsimp only)

theorem execLi_keeps {c : CoreId} {w : W32} {s : State} (h0 : Keeps s₀ s) :
    KeepsOut s₀ (execLi c w s) := by
  unfold execLi
  repeat' first
    | (with_reducible intro _) | (with_reducible assumption)
    | (with_reducible apply onCore_keeps)
    | (with_reducible apply State.scalar_keeps)
    | (with_reducible apply KeepsOut.next) | (with_reducible exact KeepsOut.fault) | split | (dsimp only)

theorem execLis_keeps {c : CoreId} {w : W32} {s : State} (h0 : Keeps s₀ s) :
    KeepsOut s₀ (execLis c w s) := by
  unfold execLis
  repeat' first
    | (with_reducible intro _) | (with_reducible assumption)
    | (with_reducible apply onCore_keeps)
    | (with_reducible apply State.scalar_keeps)
    | (with_reducible apply KeepsOut.next) | (with_reducible exact KeepsOut.fault) | split | (dsimp only)

theorem execCmp_keeps {c : CoreId} {w : W32} {s : State} (h0 : Keeps s₀ s) :
    KeepsOut s₀ (execCmp c w s) := by
  unfold execCmp
  repeat' first
    | (with_reducible intro _) | (with_reducible assumption)
    | (with_reducible apply onCore_keeps)
    | (with_reducible apply State.scalar_keeps)
    | (with_reducible apply KeepsOut.next) | (with_reducible exact KeepsOut.fault) | split | (dsimp only)

theorem execCmpi_keeps {c : CoreId} {w : W32} {s : State} (h0 : Keeps s₀ s) :
    KeepsOut s₀ (execCmpi c w s) := by
  unfold execCmpi
  repeat' first
    | (with_reducible intro _) | (with_reducible assumption)
    | (with_reducible apply onCore_keeps)
    | (with_reducible apply State.scalar_keeps)
    | (with_reducible apply KeepsOut.next) | (with_reducible exact KeepsOut.fault) | split | (dsimp only)

theorem execPlog_keeps {c : CoreId} {w : W32} {s : State} (h0 : Keeps s₀ s) :
    KeepsOut s₀ (execPlog c w s) := by
  unfold execPlog
  repeat' first
    | (with_reducible intro _) | (with_reducible assumption)
    | (with_reducible apply onCore_keeps)
    | (with_reducible apply State.scalar_keeps)
    | (with_reducible apply KeepsOut.next) | (with_reducible exact KeepsOut.fault) | split | (dsimp only)

theorem execPrd_keeps {c : CoreId} {w : W32} {s : State} (h0 : Keeps s₀ s) :
    KeepsOut s₀ (execPrd c w s) := by
  unfold execPrd
  repeat' first
    | (with_reducible intro _) | (with_reducible assumption)
    | (with_reducible apply onCore_keeps)
    | (with_reducible apply State.scalar_keeps)
    | (with_reducible apply KeepsOut.next) | (with_reducible exact KeepsOut.fault) | split | (dsimp only)

theorem execPwr_keeps {c : CoreId} {w : W32} {s : State} (h0 : Keeps s₀ s) :
    KeepsOut s₀ (execPwr c w s) := by
  unfold execPwr
  repeat' first
    | (with_reducible intro _) | (with_reducible assumption)
    | (with_reducible apply onCore_keeps)
    | (with_reducible apply State.scalar_keeps)
    | (with_reducible apply KeepsOut.next) | (with_reducible exact KeepsOut.fault) | split | (dsimp only)

theorem execTime_keeps {c : CoreId} {w : W32} {s : State} (h0 : Keeps s₀ s) :
    KeepsOut s₀ (execTime c w s) := by
  unfold execTime
  repeat' first
    | (with_reducible intro _) | (with_reducible assumption)
    | (with_reducible apply onCore_keeps)
    | (with_reducible apply State.scalar_keeps)
    | (with_reducible apply KeepsOut.next) | (with_reducible exact KeepsOut.fault) | split | (dsimp only)

theorem execLdb_keeps {c : CoreId} {w : W32} {s : State} (h0 : Keeps s₀ s) :
    KeepsOut s₀ (execLdb c w s) := by
  unfold execLdb
  repeat' first
    | (with_reducible intro _) | (with_reducible assumption)
    | (with_reducible apply onCore_keeps)
    | (with_reducible apply State.scalar_keeps)
    | (with_reducible apply KeepsOut.next) | (with_reducible exact KeepsOut.fault) | split | (dsimp only)

theorem execLdbu_keeps {c : CoreId} {w : W32} {s : State} (h0 : Keeps s₀ s) :
    KeepsOut s₀ (execLdbu c w s) := by
  unfold execLdbu
  repeat' first
    | (with_reducible intro _) | (with_reducible assumption)
    | (with_reducible apply onCore_keeps)
    | (with_reducible apply State.scalar_keeps)
    | (with_reducible apply KeepsOut.next) | (with_reducible exact KeepsOut.fault) | split | (dsimp only)

theorem execLdh_keeps {c : CoreId} {w : W32} {s : State} (h0 : Keeps s₀ s) :
    KeepsOut s₀ (execLdh c w s) := by
  unfold execLdh
  repeat' first
    | (with_reducible intro _) | (with_reducible assumption)
    | (with_reducible apply onCore_keeps)
    | (with_reducible apply State.scalar_keeps)
    | (with_reducible apply KeepsOut.next) | (with_reducible exact KeepsOut.fault) | split | (dsimp only)

theorem execLdhu_keeps {c : CoreId} {w : W32} {s : State} (h0 : Keeps s₀ s) :
    KeepsOut s₀ (execLdhu c w s) := by
  unfold execLdhu
  repeat' first
    | (with_reducible intro _) | (with_reducible assumption)
    | (with_reducible apply onCore_keeps)
    | (with_reducible apply State.scalar_keeps)
    | (with_reducible apply KeepsOut.next) | (with_reducible exact KeepsOut.fault) | split | (dsimp only)

theorem execLdw_keeps {c : CoreId} {w : W32} {s : State} (h0 : Keeps s₀ s) :
    KeepsOut s₀ (execLdw c w s) := by
  unfold execLdw
  repeat' first
    | (with_reducible intro _) | (with_reducible assumption)
    | (with_reducible apply onCore_keeps)
    | (with_reducible apply State.scalar_keeps)
    | (with_reducible apply KeepsOut.next) | (with_reducible exact KeepsOut.fault) | split | (dsimp only)

theorem execLdwu_keeps {c : CoreId} {w : W32} {s : State} (h0 : Keeps s₀ s) :
    KeepsOut s₀ (execLdwu c w s) := by
  unfold execLdwu
  repeat' first
    | (with_reducible intro _) | (with_reducible assumption)
    | (with_reducible apply onCore_keeps)
    | (with_reducible apply State.scalar_keeps)
    | (with_reducible apply KeepsOut.next) | (with_reducible exact KeepsOut.fault) | split | (dsimp only)

theorem execLdd_keeps {c : CoreId} {w : W32} {s : State} (h0 : Keeps s₀ s) :
    KeepsOut s₀ (execLdd c w s) := by
  unfold execLdd
  repeat' first
    | (with_reducible intro _) | (with_reducible assumption)
    | (with_reducible apply onCore_keeps)
    | (with_reducible apply State.scalar_keeps)
    | (with_reducible apply KeepsOut.next) | (with_reducible exact KeepsOut.fault) | split | (dsimp only)

theorem execStb_keeps {c : CoreId} {w : W32} {s : State} (h0 : Keeps s₀ s) :
    KeepsOut s₀ (execStb c w s) := by
  unfold execStb
  repeat' first
    | (with_reducible intro _) | (with_reducible assumption)
    | (with_reducible apply onCore_keeps)
    | (with_reducible apply State.scalar_keeps)
    | (with_reducible apply KeepsOut.next) | (with_reducible exact KeepsOut.fault) | split | (dsimp only)

theorem execSth_keeps {c : CoreId} {w : W32} {s : State} (h0 : Keeps s₀ s) :
    KeepsOut s₀ (execSth c w s) := by
  unfold execSth
  repeat' first
    | (with_reducible intro _) | (with_reducible assumption)
    | (with_reducible apply onCore_keeps)
    | (with_reducible apply State.scalar_keeps)
    | (with_reducible apply KeepsOut.next) | (with_reducible exact KeepsOut.fault) | split | (dsimp only)

theorem execStw_keeps {c : CoreId} {w : W32} {s : State} (h0 : Keeps s₀ s) :
    KeepsOut s₀ (execStw c w s) := by
  unfold execStw
  repeat' first
    | (with_reducible intro _) | (with_reducible assumption)
    | (with_reducible apply onCore_keeps)
    | (with_reducible apply State.scalar_keeps)
    | (with_reducible apply KeepsOut.next) | (with_reducible exact KeepsOut.fault) | split | (dsimp only)

theorem execStd_keeps {c : CoreId} {w : W32} {s : State} (h0 : Keeps s₀ s) :
    KeepsOut s₀ (execStd c w s) := by
  unfold execStd
  repeat' first
    | (with_reducible intro _) | (with_reducible assumption)
    | (with_reducible apply onCore_keeps)
    | (with_reducible apply State.scalar_keeps)
    | (with_reducible apply KeepsOut.next) | (with_reducible exact KeepsOut.fault) | split | (dsimp only)

theorem execLdcd_keeps {c : CoreId} {w : W32} {s : State} (h0 : Keeps s₀ s) :
    KeepsOut s₀ (execLdcd c w s) := by
  unfold execLdcd
  repeat' first
    | (with_reducible intro _) | (with_reducible assumption)
    | (with_reducible apply onCore_keeps)
    | (with_reducible apply State.scalar_keeps)
    | (with_reducible apply KeepsOut.next) | (with_reducible exact KeepsOut.fault) | split | (dsimp only)

theorem execStcd_keeps {c : CoreId} {w : W32} {s : State} (h0 : Keeps s₀ s) :
    KeepsOut s₀ (execStcd c w s) := by
  unfold execStcd
  repeat' first
    | (with_reducible intro _) | (with_reducible assumption)
    | (with_reducible apply onCore_keeps)
    | (with_reducible apply State.scalar_keeps)
    | (with_reducible apply KeepsOut.next) | (with_reducible exact KeepsOut.fault) | split | (dsimp only)

theorem execFence_keeps {c : CoreId} {w : W32} {s : State} (h0 : Keeps s₀ s) :
    KeepsOut s₀ (execFence c w s) := by
  unfold execFence
  repeat' first
    | (with_reducible intro _) | (with_reducible assumption)
    | (with_reducible apply onCore_keeps)
    | (with_reducible apply State.scalar_keeps)
    | (with_reducible apply KeepsOut.next) | (with_reducible exact KeepsOut.fault) | split | (dsimp only)

theorem execBr_keeps {c : CoreId} {w : W32} {s : State} (h0 : Keeps s₀ s) :
    KeepsOut s₀ (execBr c w s) := by
  unfold execBr
  repeat' first
    | (with_reducible intro _) | (with_reducible assumption)
    | (with_reducible apply onCore_keeps)
    | (with_reducible apply State.scalar_keeps)
    | (with_reducible apply KeepsOut.next) | (with_reducible exact KeepsOut.fault) | split | (dsimp only)

theorem execCall_keeps {c : CoreId} {w : W32} {s : State} (h0 : Keeps s₀ s) :
    KeepsOut s₀ (execCall c w s) := by
  unfold execCall
  repeat' first
    | (with_reducible intro _) | (with_reducible assumption)
    | (with_reducible apply onCore_keeps)
    | (with_reducible apply State.scalar_keeps)
    | (with_reducible apply KeepsOut.next) | (with_reducible exact KeepsOut.fault) | split | (dsimp only)

theorem execCallr_keeps {c : CoreId} {w : W32} {s : State} (h0 : Keeps s₀ s) :
    KeepsOut s₀ (execCallr c w s) := by
  unfold execCallr
  repeat' first
    | (with_reducible intro _) | (with_reducible assumption)
    | (with_reducible apply onCore_keeps)
    | (with_reducible apply State.scalar_keeps)
    | (with_reducible apply KeepsOut.next) | (with_reducible exact KeepsOut.fault) | split | (dsimp only)

theorem execRet_keeps {c : CoreId} {w : W32} {s : State} (h0 : Keeps s₀ s) :
    KeepsOut s₀ (execRet c w s) := by
  unfold execRet
  repeat' first
    | (with_reducible intro _) | (with_reducible assumption)
    | (with_reducible apply onCore_keeps)
    | (with_reducible apply State.scalar_keeps)
    | (with_reducible apply KeepsOut.next) | (with_reducible exact KeepsOut.fault) | split | (dsimp only)

theorem execCrd_keeps {c : CoreId} {w : W32} {s : State} (h0 : Keeps s₀ s) :
    KeepsOut s₀ (execCrd c w s) := by
  unfold execCrd
  repeat' first
    | (with_reducible intro _) | (with_reducible assumption)
    | (with_reducible apply onCore_keeps)
    | (with_reducible apply State.scalar_keeps)
    | (with_reducible apply KeepsOut.next) | (with_reducible exact KeepsOut.fault) | split | (dsimp only)

theorem execCwr_keeps {c : CoreId} {w : W32} {s : State} (h0 : Keeps s₀ s) :
    KeepsOut s₀ (execCwr c w s) := by
  unfold execCwr
  repeat' first
    | (with_reducible intro _) | (with_reducible assumption)
    | (with_reducible apply onCore_keeps)
    | (with_reducible apply State.scalar_keeps)
    | (with_reducible apply KeepsOut.next) | (with_reducible exact KeepsOut.fault) | split | (dsimp only)

theorem execTrap_keeps {c : CoreId} {w : W32} {s : State} (h0 : Keeps s₀ s) :
    KeepsOut s₀ (execTrap c w s) := by
  unfold execTrap
  repeat' first
    | (with_reducible intro _) | (with_reducible assumption)
    | (with_reducible apply onCore_keeps)
    | (with_reducible apply State.scalar_keeps)
    | (with_reducible apply KeepsOut.next) | (with_reducible exact KeepsOut.fault) | split | (dsimp only)

theorem execYield_keeps {c : CoreId} {w : W32} {s : State} (h0 : Keeps s₀ s) :
    KeepsOut s₀ (execYield c w s) := by
  unfold execYield
  repeat' first
    | (with_reducible intro _) | (with_reducible assumption)
    | (with_reducible apply onCore_keeps)
    | (with_reducible apply State.scalar_keeps)
    | (with_reducible apply KeepsOut.next) | (with_reducible exact KeepsOut.fault) | split | (dsimp only)

theorem execEndCmd_keeps {c : CoreId} {w : W32} {s : State} (h0 : Keeps s₀ s) :
    KeepsOut s₀ (execEndCmd c w s) := by
  unfold execEndCmd
  repeat' first
    | (with_reducible intro _) | (with_reducible assumption)
    | (with_reducible apply onCore_keeps)
    | (with_reducible apply State.scalar_keeps)
    | (with_reducible apply KeepsOut.next) | (with_reducible exact KeepsOut.fault) | split | (dsimp only)

theorem execCodeViolation_keeps {u : ResetUnit} {s : State} (h0 : Keeps s₀ s) :
    KeepsOut s₀ (execCodeViolation u s) := by
  unfold execCodeViolation
  repeat' first
    | (with_reducible intro _) | (with_reducible assumption)
    | (with_reducible apply onUnit_keeps)
    | (with_reducible apply State.codeViolation_keeps)
    | (with_reducible apply KeepsOut.next) | (with_reducible exact KeepsOut.fault) | split | (dsimp only)

theorem execLaunchHeaderCheck_keeps {c : CoreId} {s : State} (h0 : Keeps s₀ s) :
    KeepsOut s₀ (execLaunchHeaderCheck c s) := by
  unfold execLaunchHeaderCheck
  repeat' first
    | (with_reducible intro _) | (with_reducible assumption)
    | (with_reducible apply onCore_keeps)
    | (with_reducible apply State.headerCheck_keeps)
    | (with_reducible apply KeepsOut.next) | (with_reducible exact KeepsOut.fault) | split | (dsimp only)

theorem execCodeBlockFetch_keeps {c : CoreId} {s : State} (h0 : Keeps s₀ s) :
    KeepsOut s₀ (execCodeBlockFetch c s) := by
  unfold execCodeBlockFetch
  repeat' first
    | (with_reducible intro _) | (with_reducible assumption)
    | (with_reducible apply onCore_keeps)
    | (with_reducible apply State.codeFetch_keeps)
    | (with_reducible apply KeepsOut.next) | (with_reducible exact KeepsOut.fault) | split | (dsimp only)

theorem execSequencerLoadReturn_keeps {c : CoreId} {s : State} (h0 : Keeps s₀ s) :
    KeepsOut s₀ (execSequencerLoadReturn c s) := by
  unfold execSequencerLoadReturn
  repeat' first
    | (with_reducible intro _) | (with_reducible assumption)
    | (with_reducible apply onCore_keeps)
    | (with_reducible apply State.loadReturn_keeps)
    | (with_reducible apply KeepsOut.next) | (with_reducible exact KeepsOut.fault) | split | (dsimp only)

theorem execArrMm_keeps {c : CoreId} {w : W32} {s : State} (h0 : Keeps s₀ s) :
    KeepsOut s₀ (execArrMm c w s) := by
  unfold execArrMm
  repeat' first
    | (with_reducible intro _) | (with_reducible assumption)
    | (with_reducible apply onCore_keeps)
    | (with_reducible apply State.engine_keeps)
    | (with_reducible apply KeepsOut.next) | (with_reducible exact KeepsOut.fault) | split | (dsimp only)

theorem execArrMmg_keeps {c : CoreId} {w : W32} {s : State} (h0 : Keeps s₀ s) :
    KeepsOut s₀ (execArrMmg c w s) := by
  unfold execArrMmg
  repeat' first
    | (with_reducible intro _) | (with_reducible assumption)
    | (with_reducible apply onCore_keeps)
    | (with_reducible apply State.engine_keeps)
    | (with_reducible apply KeepsOut.next) | (with_reducible exact KeepsOut.fault) | split | (dsimp only)

theorem execArrWfmt_keeps {c : CoreId} {w : W32} {s : State} (h0 : Keeps s₀ s) :
    KeepsOut s₀ (execArrWfmt c w s) := by
  unfold execArrWfmt
  repeat' first
    | (with_reducible intro _) | (with_reducible assumption)
    | (with_reducible apply onCore_keeps)
    | (with_reducible apply State.engine_keeps)
    | (with_reducible apply KeepsOut.next) | (with_reducible exact KeepsOut.fault) | split | (dsimp only)

theorem execArrWcfg_keeps {c : CoreId} {w : W32} {s : State} (h0 : Keeps s₀ s) :
    KeepsOut s₀ (execArrWcfg c w s) := by
  unfold execArrWcfg
  repeat' first
    | (with_reducible intro _) | (with_reducible assumption)
    | (with_reducible apply onCore_keeps)
    | (with_reducible apply State.engine_keeps)
    | (with_reducible apply KeepsOut.next) | (with_reducible exact KeepsOut.fault) | split | (dsimp only)

theorem execArrRfmt_keeps {c : CoreId} {w : W32} {s : State} (h0 : Keeps s₀ s) :
    KeepsOut s₀ (execArrRfmt c w s) := by
  unfold execArrRfmt
  repeat' first
    | (with_reducible intro _) | (with_reducible assumption)
    | (with_reducible apply onCore_keeps)
    | (with_reducible apply State.engine_keeps)
    | (with_reducible apply KeepsOut.next) | (with_reducible exact KeepsOut.fault) | split | (dsimp only)

theorem execArrRcfg_keeps {c : CoreId} {w : W32} {s : State} (h0 : Keeps s₀ s) :
    KeepsOut s₀ (execArrRcfg c w s) := by
  unfold execArrRcfg
  repeat' first
    | (with_reducible intro _) | (with_reducible assumption)
    | (with_reducible apply onCore_keeps)
    | (with_reducible apply State.engine_keeps)
    | (with_reducible apply KeepsOut.next) | (with_reducible exact KeepsOut.fault) | split | (dsimp only)

theorem execArrayIssue_keeps {a : ArrayId} {s : State} (h0 : Keeps s₀ s) :
    KeepsOut s₀ (execArrayIssue a s) := by
  unfold execArrayIssue
  repeat' first
    | (with_reducible intro _) | (with_reducible assumption)
    | (with_reducible apply onArray_keeps)
    | (with_reducible apply State.arrayIssue_keeps)
    | (with_reducible apply KeepsOut.next) | (with_reducible exact KeepsOut.fault) | split | (dsimp only)

theorem execGatherWindowExpiry_keeps {a : ArrayId} {s : State} (h0 : Keeps s₀ s) :
    KeepsOut s₀ (execGatherWindowExpiry a s) := by
  unfold execGatherWindowExpiry
  repeat' first
    | (with_reducible intro _) | (with_reducible assumption)
    | (with_reducible apply onArray_keeps)
    | (with_reducible apply State.gatherExpiry_keeps)
    | (with_reducible apply KeepsOut.next) | (with_reducible exact KeepsOut.fault) | split | (dsimp only)

theorem execArrayComplete_keeps {a : ArrayId} {s : State} (h0 : Keeps s₀ s) :
    KeepsOut s₀ (execArrayComplete a s) := by
  unfold execArrayComplete
  repeat' first
    | (with_reducible intro _) | (with_reducible assumption)
    | (with_reducible apply onArray_keeps)
    | (with_reducible apply State.quietCheck_keeps)
    | (with_reducible apply State.arrayComplete_keeps)
    | (with_reducible apply KeepsOut.next) | (with_reducible exact KeepsOut.fault) | split | (dsimp only)

theorem execIdleTimerExpiry_keeps {a : ArrayId} {s : State} (h0 : Keeps s₀ s) :
    KeepsOut s₀ (execIdleTimerExpiry a s) := by
  unfold execIdleTimerExpiry
  repeat' first
    | (with_reducible intro _) | (with_reducible assumption)
    | (with_reducible apply onArray_keeps)
    | (with_reducible apply State.idleExpiry_keeps)
    | (with_reducible apply KeepsOut.next) | (with_reducible exact KeepsOut.fault) | split | (dsimp only)

theorem execDensityChange_keeps {a : ArrayId} {s : State} (h0 : Keeps s₀ s) :
    KeepsOut s₀ (execDensityChange a s) := by
  unfold execDensityChange
  repeat' first
    | (with_reducible intro _) | (with_reducible assumption)
    | (with_reducible apply onArray_keeps)
    | (with_reducible apply State.densityChange_keeps)
    | (with_reducible apply KeepsOut.next) | (with_reducible exact KeepsOut.fault) | split | (dsimp only)

theorem execFillerPattern_keeps {a : ArrayId} {ok : Bool} {s : State} (h0 : Keeps s₀ s) :
    KeepsOut s₀ (execFillerPattern a ok s) := by
  unfold execFillerPattern
  repeat' first
    | (with_reducible intro _) | (with_reducible assumption)
    | (with_reducible apply onArray_keeps)
    | (with_reducible apply State.fillerDone_keeps)
    | (with_reducible apply KeepsOut.next) | (with_reducible exact KeepsOut.fault) | split | (dsimp only)

theorem execStrLd_keeps {c : CoreId} {w : W32} {s : State} (h0 : Keeps s₀ s) :
    KeepsOut s₀ (execStrLd c w s) := by
  unfold execStrLd
  repeat' first
    | (with_reducible intro _) | (with_reducible assumption)
    | (with_reducible apply onCore_keeps)
    | (with_reducible apply State.engine_keeps)
    | (with_reducible apply KeepsOut.next) | (with_reducible exact KeepsOut.fault) | split | (dsimp only)

theorem execStrSt_keeps {c : CoreId} {w : W32} {s : State} (h0 : Keeps s₀ s) :
    KeepsOut s₀ (execStrSt c w s) := by
  unfold execStrSt
  repeat' first
    | (with_reducible intro _) | (with_reducible assumption)
    | (with_reducible apply onCore_keeps)
    | (with_reducible apply State.engine_keeps)
    | (with_reducible apply KeepsOut.next) | (with_reducible exact KeepsOut.fault) | split | (dsimp only)

theorem execStrLdm_keeps {c : CoreId} {w : W32} {s : State} (h0 : Keeps s₀ s) :
    KeepsOut s₀ (execStrLdm c w s) := by
  unfold execStrLdm
  repeat' first
    | (with_reducible intro _) | (with_reducible assumption)
    | (with_reducible apply onCore_keeps)
    | (with_reducible apply State.engine_keeps)
    | (with_reducible apply KeepsOut.next) | (with_reducible exact KeepsOut.fault) | split | (dsimp only)

theorem execStrStm_keeps {c : CoreId} {w : W32} {s : State} (h0 : Keeps s₀ s) :
    KeepsOut s₀ (execStrStm c w s) := by
  unfold execStrStm
  repeat' first
    | (with_reducible intro _) | (with_reducible assumption)
    | (with_reducible apply onCore_keeps)
    | (with_reducible apply State.engine_keeps)
    | (with_reducible apply KeepsOut.next) | (with_reducible exact KeepsOut.fault) | split | (dsimp only)

theorem execStrXp_keeps {c : CoreId} {w : W32} {s : State} (h0 : Keeps s₀ s) :
    KeepsOut s₀ (execStrXp c w s) := by
  unfold execStrXp
  repeat' first
    | (with_reducible intro _) | (with_reducible assumption)
    | (with_reducible apply onCore_keeps)
    | (with_reducible apply State.engine_keeps)
    | (with_reducible apply KeepsOut.next) | (with_reducible exact KeepsOut.fault) | split | (dsimp only)

theorem execStrMld_keeps {c : CoreId} {w : W32} {s : State} (h0 : Keeps s₀ s) :
    KeepsOut s₀ (execStrMld c w s) := by
  unfold execStrMld
  repeat' first
    | (with_reducible intro _) | (with_reducible assumption)
    | (with_reducible apply onCore_keeps)
    | (with_reducible apply State.engine_keeps)
    | (with_reducible apply KeepsOut.next) | (with_reducible exact KeepsOut.fault) | split | (dsimp only)

theorem execStrMst_keeps {c : CoreId} {w : W32} {s : State} (h0 : Keeps s₀ s) :
    KeepsOut s₀ (execStrMst c w s) := by
  unfold execStrMst
  repeat' first
    | (with_reducible intro _) | (with_reducible assumption)
    | (with_reducible apply onCore_keeps)
    | (with_reducible apply State.engine_keeps)
    | (with_reducible apply KeepsOut.next) | (with_reducible exact KeepsOut.fault) | split | (dsimp only)

theorem execStrCvrd_keeps {c : CoreId} {w : W32} {s : State} (h0 : Keeps s₀ s) :
    KeepsOut s₀ (execStrCvrd c w s) := by
  unfold execStrCvrd
  repeat' first
    | (with_reducible intro _) | (with_reducible assumption)
    | (with_reducible apply onCore_keeps)
    | (with_reducible apply State.engine_keeps)
    | (with_reducible apply KeepsOut.next) | (with_reducible exact KeepsOut.fault) | split | (dsimp only)

theorem execStrCvwr_keeps {c : CoreId} {w : W32} {s : State} (h0 : Keeps s₀ s) :
    KeepsOut s₀ (execStrCvwr c w s) := by
  unfold execStrCvwr
  repeat' first
    | (with_reducible intro _) | (with_reducible assumption)
    | (with_reducible apply onCore_keeps)
    | (with_reducible apply State.engine_keeps)
    | (with_reducible apply KeepsOut.next) | (with_reducible exact KeepsOut.fault) | split | (dsimp only)

theorem execStreamIssue_keeps {c : CoreId} {s : State} (h0 : Keeps s₀ s) :
    KeepsOut s₀ (execStreamIssue c s) := by
  unfold execStreamIssue
  repeat' first
    | (with_reducible intro _) | (with_reducible assumption)
    | (with_reducible apply onCore_keeps)
    | (with_reducible apply State.streamIssue_keeps)
    | (with_reducible apply KeepsOut.next) | (with_reducible exact KeepsOut.fault) | split | (dsimp only)

theorem execStreamComplete_keeps {c : CoreId} {s : State} (h0 : Keeps s₀ s) :
    KeepsOut s₀ (execStreamComplete c s) := by
  unfold execStreamComplete
  repeat' first
    | (with_reducible intro _) | (with_reducible assumption)
    | (with_reducible apply onCore_keeps)
    | (with_reducible apply State.quietCheck_keeps)
    | (with_reducible apply State.streamComplete_keeps)
    | (with_reducible apply KeepsOut.next) | (with_reducible exact KeepsOut.fault) | split | (dsimp only)

theorem execVecVld_keeps {c : CoreId} {w : W32} {s : State} (h0 : Keeps s₀ s) :
    KeepsOut s₀ (execVecVld c w s) := by
  unfold execVecVld
  repeat' first
    | (with_reducible intro _) | (with_reducible assumption)
    | (with_reducible apply onCore_keeps)
    | (with_reducible apply State.engine_keeps)
    | (with_reducible apply KeepsOut.next) | (with_reducible exact KeepsOut.fault) | split | (dsimp only)

theorem execVecVst_keeps {c : CoreId} {w : W32} {s : State} (h0 : Keeps s₀ s) :
    KeepsOut s₀ (execVecVst c w s) := by
  unfold execVecVst
  repeat' first
    | (with_reducible intro _) | (with_reducible assumption)
    | (with_reducible apply onCore_keeps)
    | (with_reducible apply State.engine_keeps)
    | (with_reducible apply KeepsOut.next) | (with_reducible exact KeepsOut.fault) | split | (dsimp only)

theorem execVecVopf_keeps {c : CoreId} {w : W32} {s : State} (h0 : Keeps s₀ s) :
    KeepsOut s₀ (execVecVopf c w s) := by
  unfold execVecVopf
  repeat' first
    | (with_reducible intro _) | (with_reducible assumption)
    | (with_reducible apply onCore_keeps)
    | (with_reducible apply State.engine_keeps)
    | (with_reducible apply KeepsOut.next) | (with_reducible exact KeepsOut.fault) | split | (dsimp only)

theorem execVecVopb_keeps {c : CoreId} {w : W32} {s : State} (h0 : Keeps s₀ s) :
    KeepsOut s₀ (execVecVopb c w s) := by
  unfold execVecVopb
  repeat' first
    | (with_reducible intro _) | (with_reducible assumption)
    | (with_reducible apply onCore_keeps)
    | (with_reducible apply State.engine_keeps)
    | (with_reducible apply KeepsOut.next) | (with_reducible exact KeepsOut.fault) | split | (dsimp only)

theorem execVecVopi_keeps {c : CoreId} {w : W32} {s : State} (h0 : Keeps s₀ s) :
    KeepsOut s₀ (execVecVopi c w s) := by
  unfold execVecVopi
  repeat' first
    | (with_reducible intro _) | (with_reducible assumption)
    | (with_reducible apply onCore_keeps)
    | (with_reducible apply State.engine_keeps)
    | (with_reducible apply KeepsOut.next) | (with_reducible exact KeepsOut.fault) | split | (dsimp only)

theorem execVecVsfu_keeps {c : CoreId} {w : W32} {s : State} (h0 : Keeps s₀ s) :
    KeepsOut s₀ (execVecVsfu c w s) := by
  unfold execVecVsfu
  repeat' first
    | (with_reducible intro _) | (with_reducible assumption)
    | (with_reducible apply onCore_keeps)
    | (with_reducible apply State.engine_keeps)
    | (with_reducible apply KeepsOut.next) | (with_reducible exact KeepsOut.fault) | split | (dsimp only)

theorem execVecVred_keeps {c : CoreId} {w : W32} {s : State} (h0 : Keeps s₀ s) :
    KeepsOut s₀ (execVecVred c w s) := by
  unfold execVecVred
  repeat' first
    | (with_reducible intro _) | (with_reducible assumption)
    | (with_reducible apply onCore_keeps)
    | (with_reducible apply State.engine_keeps)
    | (with_reducible apply KeepsOut.next) | (with_reducible exact KeepsOut.fault) | split | (dsimp only)

theorem execVecVcvt_keeps {c : CoreId} {w : W32} {s : State} (h0 : Keeps s₀ s) :
    KeepsOut s₀ (execVecVcvt c w s) := by
  unfold execVecVcvt
  repeat' first
    | (with_reducible intro _) | (with_reducible assumption)
    | (with_reducible apply onCore_keeps)
    | (with_reducible apply State.engine_keeps)
    | (with_reducible apply KeepsOut.next) | (with_reducible exact KeepsOut.fault) | split | (dsimp only)

theorem execVecVbcst_keeps {c : CoreId} {w : W32} {s : State} (h0 : Keeps s₀ s) :
    KeepsOut s₀ (execVecVbcst c w s) := by
  unfold execVecVbcst
  repeat' first
    | (with_reducible intro _) | (with_reducible assumption)
    | (with_reducible apply onCore_keeps)
    | (with_reducible apply State.engine_keeps)
    | (with_reducible apply KeepsOut.next) | (with_reducible exact KeepsOut.fault) | split | (dsimp only)

theorem execVecVmovs_keeps {c : CoreId} {w : W32} {s : State} (h0 : Keeps s₀ s) :
    KeepsOut s₀ (execVecVmovs c w s) := by
  unfold execVecVmovs
  repeat' first
    | (with_reducible intro _) | (with_reducible assumption)
    | (with_reducible apply onCore_keeps)
    | (with_reducible apply State.engine_keeps)
    | (with_reducible apply KeepsOut.next) | (with_reducible exact KeepsOut.fault) | split | (dsimp only)

theorem execVecVsort_keeps {c : CoreId} {w : W32} {s : State} (h0 : Keeps s₀ s) :
    KeepsOut s₀ (execVecVsort c w s) := by
  unfold execVecVsort
  repeat' first
    | (with_reducible intro _) | (with_reducible assumption)
    | (with_reducible apply onCore_keeps)
    | (with_reducible apply State.engine_keeps)
    | (with_reducible apply KeepsOut.next) | (with_reducible exact KeepsOut.fault) | split | (dsimp only)

theorem execVecVbox_keeps {c : CoreId} {w : W32} {s : State} (h0 : Keeps s₀ s) :
    KeepsOut s₀ (execVecVbox c w s) := by
  unfold execVecVbox
  repeat' first
    | (with_reducible intro _) | (with_reducible assumption)
    | (with_reducible apply onCore_keeps)
    | (with_reducible apply State.engine_keeps)
    | (with_reducible apply KeepsOut.next) | (with_reducible exact KeepsOut.fault) | split | (dsimp only)

theorem execVecVnms_keeps {c : CoreId} {w : W32} {s : State} (h0 : Keeps s₀ s) :
    KeepsOut s₀ (execVecVnms c w s) := by
  unfold execVecVnms
  repeat' first
    | (with_reducible intro _) | (with_reducible assumption)
    | (with_reducible apply onCore_keeps)
    | (with_reducible apply State.engine_keeps)
    | (with_reducible apply KeepsOut.next) | (with_reducible exact KeepsOut.fault) | split | (dsimp only)

theorem execVectorIssue_keeps {c : CoreId} {s : State} (h0 : Keeps s₀ s) :
    KeepsOut s₀ (execVectorIssue c s) := by
  unfold execVectorIssue
  repeat' first
    | (with_reducible intro _) | (with_reducible assumption)
    | (with_reducible apply onCore_keeps)
    | (with_reducible apply State.vectorIssue_keeps)
    | (with_reducible apply KeepsOut.next) | (with_reducible exact KeepsOut.fault) | split | (dsimp only)

theorem execVectorComplete_keeps {c : CoreId} {s : State} (h0 : Keeps s₀ s) :
    KeepsOut s₀ (execVectorComplete c s) := by
  unfold execVectorComplete
  repeat' first
    | (with_reducible intro _) | (with_reducible assumption)
    | (with_reducible apply onCore_keeps)
    | (with_reducible apply State.quietCheck_keeps)
    | (with_reducible apply State.vectorComplete_keeps)
    | (with_reducible apply KeepsOut.next) | (with_reducible exact KeepsOut.fault) | split | (dsimp only)

theorem execSyncTdef_keeps {c : CoreId} {w : W32} {s : State} (h0 : Keeps s₀ s) :
    KeepsOut s₀ (execSyncTdef c w s) := by
  unfold execSyncTdef
  repeat' first
    | (with_reducible intro _) | (with_reducible assumption)
    | (with_reducible apply onCore_keeps)
    | (with_reducible apply State.engine_keeps)
    | (with_reducible apply KeepsOut.next) | (with_reducible exact KeepsOut.fault) | split | (dsimp only)

theorem execSyncTrel_keeps {c : CoreId} {w : W32} {s : State} (h0 : Keeps s₀ s) :
    KeepsOut s₀ (execSyncTrel c w s) := by
  unfold execSyncTrel
  repeat' first
    | (with_reducible intro _) | (with_reducible assumption)
    | (with_reducible apply onCore_keeps)
    | (with_reducible apply State.engine_keeps)
    | (with_reducible apply KeepsOut.next) | (with_reducible exact KeepsOut.fault) | split | (dsimp only)

theorem execSyncTstat_keeps {c : CoreId} {w : W32} {s : State} (h0 : Keeps s₀ s) :
    KeepsOut s₀ (execSyncTstat c w s) := by
  unfold execSyncTstat
  repeat' first
    | (with_reducible intro _) | (with_reducible assumption)
    | (with_reducible apply onCore_keeps)
    | (with_reducible apply State.engine_keeps)
    | (with_reducible apply KeepsOut.next) | (with_reducible exact KeepsOut.fault) | split | (dsimp only)

theorem execSyncPhase_keeps {c : CoreId} {w : W32} {s : State} (h0 : Keeps s₀ s) :
    KeepsOut s₀ (execSyncPhase c w s) := by
  unfold execSyncPhase
  repeat' first
    | (with_reducible intro _) | (with_reducible assumption)
    | (with_reducible apply onCore_keeps)
    | (with_reducible apply State.engine_keeps)
    | (with_reducible apply KeepsOut.next) | (with_reducible exact KeepsOut.fault) | split | (dsimp only)

theorem execSyncWait_keeps {c : CoreId} {w : W32} {s : State} (h0 : Keeps s₀ s) :
    KeepsOut s₀ (execSyncWait c w s) := by
  unfold execSyncWait
  repeat' first
    | (with_reducible intro _) | (with_reducible assumption)
    | (with_reducible apply onCore_keeps)
    | (with_reducible apply State.engine_keeps)
    | (with_reducible apply KeepsOut.next) | (with_reducible exact KeepsOut.fault) | split | (dsimp only)

theorem execSyncBar_keeps {c : CoreId} {w : W32} {s : State} (h0 : Keeps s₀ s) :
    KeepsOut s₀ (execSyncBar c w s) := by
  unfold execSyncBar
  repeat' first
    | (with_reducible intro _) | (with_reducible assumption)
    | (with_reducible apply onCore_keeps)
    | (with_reducible apply State.engine_keeps)
    | (with_reducible apply KeepsOut.next) | (with_reducible exact KeepsOut.fault) | split | (dsimp only)

theorem execSyncHpost_keeps {c : CoreId} {w : W32} {s : State} (h0 : Keeps s₀ s) :
    KeepsOut s₀ (execSyncHpost c w s) := by
  unfold execSyncHpost
  repeat' first
    | (with_reducible intro _) | (with_reducible assumption)
    | (with_reducible apply onCore_keeps)
    | (with_reducible apply State.engine_keeps)
    | (with_reducible apply KeepsOut.next) | (with_reducible exact KeepsOut.fault) | split | (dsimp only)

theorem execSyncHwait_keeps {c : CoreId} {w : W32} {s : State} (h0 : Keeps s₀ s) :
    KeepsOut s₀ (execSyncHwait c w s) := by
  unfold execSyncHwait
  repeat' first
    | (with_reducible intro _) | (with_reducible assumption)
    | (with_reducible apply onCore_keeps)
    | (with_reducible apply State.engine_keeps)
    | (with_reducible apply KeepsOut.next) | (with_reducible exact KeepsOut.fault) | split | (dsimp only)

theorem execSyncSacq_keeps {c : CoreId} {w : W32} {s : State} (h0 : Keeps s₀ s) :
    KeepsOut s₀ (execSyncSacq c w s) := by
  unfold execSyncSacq
  repeat' first
    | (with_reducible intro _) | (with_reducible assumption)
    | (with_reducible apply onCore_keeps)
    | (with_reducible apply State.engine_keeps)
    | (with_reducible apply KeepsOut.next) | (with_reducible exact KeepsOut.fault) | split | (dsimp only)

theorem execSyncStry_keeps {c : CoreId} {w : W32} {s : State} (h0 : Keeps s₀ s) :
    KeepsOut s₀ (execSyncStry c w s) := by
  unfold execSyncStry
  repeat' first
    | (with_reducible intro _) | (with_reducible assumption)
    | (with_reducible apply onCore_keeps)
    | (with_reducible apply State.engine_keeps)
    | (with_reducible apply KeepsOut.next) | (with_reducible exact KeepsOut.fault) | split | (dsimp only)

theorem execSyncSrel_keeps {c : CoreId} {w : W32} {s : State} (h0 : Keeps s₀ s) :
    KeepsOut s₀ (execSyncSrel c w s) := by
  unfold execSyncSrel
  repeat' first
    | (with_reducible intro _) | (with_reducible assumption)
    | (with_reducible apply onCore_keeps)
    | (with_reducible apply State.engine_keeps)
    | (with_reducible apply KeepsOut.next) | (with_reducible exact KeepsOut.fault) | split | (dsimp only)

theorem execSyncAlloc_keeps {c : CoreId} {w : W32} {s : State} (h0 : Keeps s₀ s) :
    KeepsOut s₀ (execSyncAlloc c w s) := by
  unfold execSyncAlloc
  repeat' first
    | (with_reducible intro _) | (with_reducible assumption)
    | (with_reducible apply onCore_keeps)
    | (with_reducible apply State.engine_keeps)
    | (with_reducible apply KeepsOut.next) | (with_reducible exact KeepsOut.fault) | split | (dsimp only)

theorem execSyncFree_keeps {c : CoreId} {w : W32} {s : State} (h0 : Keeps s₀ s) :
    KeepsOut s₀ (execSyncFree c w s) := by
  unfold execSyncFree
  repeat' first
    | (with_reducible intro _) | (with_reducible assumption)
    | (with_reducible apply onCore_keeps)
    | (with_reducible apply State.engine_keeps)
    | (with_reducible apply KeepsOut.next) | (with_reducible exact KeepsOut.fault) | split | (dsimp only)

theorem execSyncWgclm_keeps {c : CoreId} {w : W32} {s : State} (h0 : Keeps s₀ s) :
    KeepsOut s₀ (execSyncWgclm c w s) := by
  unfold execSyncWgclm
  repeat' first
    | (with_reducible intro _) | (with_reducible assumption)
    | (with_reducible apply onCore_keeps)
    | (with_reducible apply State.engine_keeps)
    | (with_reducible apply KeepsOut.next) | (with_reducible exact KeepsOut.fault) | split | (dsimp only)

theorem execSyncWgbind_keeps {c : CoreId} {w : W32} {s : State} (h0 : Keeps s₀ s) :
    KeepsOut s₀ (execSyncWgbind c w s) := by
  unfold execSyncWgbind
  repeat' first
    | (with_reducible intro _) | (with_reducible assumption)
    | (with_reducible apply onCore_keeps)
    | (with_reducible apply State.engine_keeps)
    | (with_reducible apply KeepsOut.next) | (with_reducible exact KeepsOut.fault) | split | (dsimp only)

theorem execSyncWgrel_keeps {c : CoreId} {w : W32} {s : State} (h0 : Keeps s₀ s) :
    KeepsOut s₀ (execSyncWgrel c w s) := by
  unfold execSyncWgrel
  repeat' first
    | (with_reducible intro _) | (with_reducible assumption)
    | (with_reducible apply onCore_keeps)
    | (with_reducible apply State.engine_keeps)
    | (with_reducible apply KeepsOut.next) | (with_reducible exact KeepsOut.fault) | split | (dsimp only)

theorem execLoadGrant_keeps {k : ClusterId} {s : State} (h0 : Keeps s₀ s) :
    KeepsOut s₀ (execLoadGrant k s) := by
  unfold execLoadGrant
  repeat' first
    | (with_reducible intro _) | (with_reducible assumption)
    | (with_reducible apply onCluster_keeps)
    | (with_reducible apply State.loadGrant_keeps)
    | (with_reducible apply KeepsOut.next) | (with_reducible exact KeepsOut.fault) | split | (dsimp only)

theorem execBarrierComplete_keeps {k : ClusterId} {b : Fin 8} {s : State} (h0 : Keeps s₀ s) :
    KeepsOut s₀ (execBarrierComplete k b s) := by
  unfold execBarrierComplete
  repeat' first
    | (with_reducible intro _) | (with_reducible assumption)
    | (with_reducible apply onCluster_keeps)
    | (with_reducible apply State.barrierComplete_keeps)
    | (with_reducible apply KeepsOut.next) | (with_reducible exact KeepsOut.fault) | split | (dsimp only)

theorem execHaloWaitMet_keeps {c : CoreId} {s : State} (h0 : Keeps s₀ s) :
    KeepsOut s₀ (execHaloWaitMet c s) := by
  unfold execHaloWaitMet
  repeat' first
    | (with_reducible intro _) | (with_reducible assumption)
    | (with_reducible apply onCore_keeps)
    | (with_reducible apply State.haloMet_keeps)
    | (with_reducible apply KeepsOut.next) | (with_reducible exact KeepsOut.fault) | split | (dsimp only)

theorem execSemaphoreGrant_keeps {sem : BitVec 12} {s : State} (h0 : Keeps s₀ s) :
    KeepsOut s₀ (execSemaphoreGrant sem s) := by
  unfold execSemaphoreGrant
  repeat' first
    | (with_reducible intro _) | (with_reducible assumption)
    | (with_reducible apply State.semGrant_keeps)
    | (with_reducible apply KeepsOut.next) | (with_reducible exact KeepsOut.fault) | split | (dsimp only)

theorem execPreemption_keeps {c : CoreId} {s : State} (h0 : Keeps s₀ s) :
    KeepsOut s₀ (execPreemption c s) := by
  unfold execPreemption
  repeat' first
    | (with_reducible intro _) | (with_reducible assumption)
    | (with_reducible apply onCore_keeps)
    | (with_reducible apply State.preempt_keeps)
    | (with_reducible apply KeepsOut.next) | (with_reducible exact KeepsOut.fault) | split | (dsimp only)

theorem execCoreResume_keeps {c : CoreId} {q : QueueId} {lcore : Nat} {s : State} (h0 : Keeps s₀ s) :
    KeepsOut s₀ (execCoreResume c q lcore s) := by
  unfold execCoreResume
  repeat' first
    | (with_reducible intro _) | (with_reducible assumption)
    | (with_reducible apply onCore_keeps)
    | (with_reducible apply State.resume_keeps)
    | (with_reducible apply KeepsOut.next) | (with_reducible exact KeepsOut.fault) | split | (dsimp only)

theorem execCoreImageSave_keeps {c : CoreId} {s : State} (h0 : Keeps s₀ s) :
    KeepsOut s₀ (execCoreImageSave c s) := by
  unfold execCoreImageSave
  repeat' first
    | (with_reducible intro _) | (with_reducible assumption)
    | (with_reducible apply onCore_keeps)
    | (with_reducible apply State.coreSave_keeps)
    | (with_reducible apply KeepsOut.next) | (with_reducible exact KeepsOut.fault) | split | (dsimp only)

theorem execMapStoreImageSave_keeps {k : ClusterId} {s : State} (h0 : Keeps s₀ s) :
    KeepsOut s₀ (execMapStoreImageSave k s) := by
  unfold execMapStoreImageSave
  repeat' first
    | (with_reducible intro _) | (with_reducible assumption)
    | (with_reducible apply onCluster_keeps)
    | (with_reducible apply State.mapSave_keeps)
    | (with_reducible apply KeepsOut.next) | (with_reducible exact KeepsOut.fault) | split | (dsimp only)

theorem execImageRestore_keeps {st : StoreId} {s : State} (h0 : Keeps s₀ s) :
    KeepsOut s₀ (execImageRestore st s) := by
  unfold execImageRestore
  repeat' first
    | (with_reducible intro _) | (with_reducible assumption)
    | (with_reducible apply State.onStore_keeps)
    | (with_reducible apply State.coreRestore_keeps)
    | (with_reducible apply State.mapRestore_keeps)
    | (with_reducible apply KeepsOut.next) | (with_reducible exact KeepsOut.fault) | split | (dsimp only)

theorem execStoreClear_keeps {st : StoreId} {s : State} (h0 : Keeps s₀ s) :
    KeepsOut s₀ (execStoreClear st s) := by
  unfold execStoreClear
  repeat' first
    | (with_reducible intro _) | (with_reducible assumption)
    | (with_reducible apply State.onStore_keeps)
    | (with_reducible apply State.clearStore_keeps)
    | (with_reducible apply KeepsOut.next) | (with_reducible exact KeepsOut.fault) | split | (dsimp only)

theorem execScrub_keeps {st : StoreId} {word : Nat} {s : State} (h0 : Keeps s₀ s) :
    KeepsOut s₀ (execScrub st word s) := by
  unfold execScrub
  repeat' first
    | (with_reducible intro _) | (with_reducible assumption)
    | (with_reducible apply State.onStore_keeps)
    | (with_reducible apply State.scrub_keeps)
    | (with_reducible apply KeepsOut.next) | (with_reducible exact KeepsOut.fault) | split | (dsimp only)

theorem execPeatReadRequestTransfer_keeps {r : Nat} {s : State} (h0 : Keeps s₀ s) :
    KeepsOut s₀ (execPeatReadRequestTransfer r s) := by
  unfold execPeatReadRequestTransfer
  repeat' first
    | (with_reducible intro _) | (with_reducible assumption)
    | (with_reducible apply State.transfer_keeps)
    | (with_reducible apply KeepsOut.next) | (with_reducible exact KeepsOut.fault) | split | (dsimp only)

theorem execPeatWriteRequestTransfer_keeps {r : Nat} {s : State} (h0 : Keeps s₀ s) :
    KeepsOut s₀ (execPeatWriteRequestTransfer r s) := by
  unfold execPeatWriteRequestTransfer
  repeat' first
    | (with_reducible intro _) | (with_reducible assumption)
    | (with_reducible apply State.transfer_keeps)
    | (with_reducible apply KeepsOut.next) | (with_reducible exact KeepsOut.fault) | split | (dsimp only)

theorem execPeatReadData_keeps {p : PortId} {tag : Nat} {fail : Bool} {s : State} (h0 : Keeps s₀ s) :
    KeepsOut s₀ (execPeatReadData p tag fail s) := by
  unfold execPeatReadData
  repeat' first
    | (with_reducible intro _) | (with_reducible assumption)
    | (with_reducible apply onDie_keeps)
    | (with_reducible apply State.readReturn_keeps)
    | (with_reducible apply KeepsOut.next) | (with_reducible exact KeepsOut.fault) | split | (dsimp only)

theorem execPeatWriteAcceptance_keeps {p : PortId} {tag : Nat} {fail : Bool} {s : State} (h0 : Keeps s₀ s) :
    KeepsOut s₀ (execPeatWriteAcceptance p tag fail s) := by
  unfold execPeatWriteAcceptance
  repeat' first
    | (with_reducible intro _) | (with_reducible assumption)
    | (with_reducible apply onDie_keeps)
    | (with_reducible apply State.writeAccepted_keeps)
    | (with_reducible apply KeepsOut.next) | (with_reducible exact KeepsOut.fault) | split | (dsimp only)

theorem execUnansweredRequest_keeps {r : Nat} {s : State} (h0 : Keeps s₀ s) :
    KeepsOut s₀ (execUnansweredRequest r s) := by
  unfold execUnansweredRequest
  repeat' first
    | (with_reducible intro _) | (with_reducible assumption)
    | (with_reducible apply State.unanswered_keeps)
    | (with_reducible apply KeepsOut.next) | (with_reducible exact KeepsOut.fault) | split | (dsimp only)

theorem execDoorbell_keeps {role : Byte} {strb : Byte} {q : QueueId} {wr : W64} {s : State} (h0 : Keeps s₀ s) :
    KeepsOut s₀ (execDoorbell role strb q wr s) := by
  unfold execDoorbell
  repeat' first
    | (with_reducible intro _) | (with_reducible assumption)
    | (with_reducible apply State.doorbell_keeps)
    | (with_reducible apply KeepsOut.next) | (with_reducible exact KeepsOut.fault) | split | (dsimp only)

theorem execDoorbellForward_keeps {m : Nat} {s : State} (h0 : Keeps s₀ s) :
    KeepsOut s₀ (execDoorbellForward m s) := by
  unfold execDoorbellForward
  repeat' first
    | (with_reducible intro _) | (with_reducible assumption)
    | (with_reducible apply State.doorbellForward_keeps)
    | (with_reducible apply KeepsOut.next) | (with_reducible exact KeepsOut.fault) | split | (dsimp only)

theorem execCommandAcceptance_keeps {q : QueueId} {s : State} (h0 : Keeps s₀ s) :
    KeepsOut s₀ (execCommandAcceptance q s) := by
  unfold execCommandAcceptance
  repeat' first
    | (with_reducible intro _) | (with_reducible assumption)
    | (with_reducible apply State.accept_keeps)
    | (with_reducible apply KeepsOut.next) | (with_reducible exact KeepsOut.fault) | split | (dsimp only)

theorem execNop_keeps {q : QueueId} {s : State} (h0 : Keeps s₀ s) :
    KeepsOut s₀ (execNop q s) := by
  unfold execNop
  repeat' first
    | (with_reducible intro _) | (with_reducible assumption)
    | (with_reducible apply State.opRow_keeps)
    | (with_reducible apply State.cmdDone_keeps)
    | (with_reducible apply KeepsOut.next) | (with_reducible exact KeepsOut.fault) | split | (dsimp only)

theorem execLaunch_keeps {q : QueueId} {s : State} (h0 : Keeps s₀ s) :
    KeepsOut s₀ (execLaunch q s) := by
  unfold execLaunch
  repeat' first
    | (with_reducible intro _) | (with_reducible assumption)
    | (with_reducible apply State.opRow_keeps)
    | (with_reducible apply State.launchStart_keeps)
    | (with_reducible apply KeepsOut.next) | (with_reducible exact KeepsOut.fault) | split | (dsimp only)

theorem execSignal_keeps {q : QueueId} {s : State} (h0 : Keeps s₀ s) :
    KeepsOut s₀ (execSignal q s) := by
  unfold execSignal
  repeat' first
    | (with_reducible intro _) | (with_reducible assumption)
    | (with_reducible apply State.opRow_keeps)
    | (with_reducible apply State.signalStart_keeps)
    | (with_reducible apply KeepsOut.next) | (with_reducible exact KeepsOut.fault) | split | (dsimp only)

theorem execWait_keeps {q : QueueId} {s : State} (h0 : Keeps s₀ s) :
    KeepsOut s₀ (execWait q s) := by
  unfold execWait
  repeat' first
    | (with_reducible intro _) | (with_reducible assumption)
    | (with_reducible apply State.opRow_keeps)
    | (with_reducible apply State.waitStart_keeps)
    | (with_reducible apply KeepsOut.next) | (with_reducible exact KeepsOut.fault) | split | (dsimp only)

theorem execTest_keeps {q : QueueId} {s : State} (h0 : Keeps s₀ s) :
    KeepsOut s₀ (execTest q s) := by
  unfold execTest
  repeat' first
    | (with_reducible intro _) | (with_reducible assumption)
    | (with_reducible apply State.opRow_keeps)
    | (with_reducible apply State.testRun_keeps)
    | (with_reducible apply KeepsOut.next) | (with_reducible exact KeepsOut.fault) | split | (dsimp only)

theorem execWriteCommand_keeps {q : QueueId} {s : State} (h0 : Keeps s₀ s) :
    KeepsOut s₀ (execWriteCommand q s) := by
  unfold execWriteCommand
  repeat' first
    | (with_reducible intro _) | (with_reducible assumption)
    | (with_reducible apply State.opRow_keeps)
    | (with_reducible apply State.writeRun_keeps)
    | (with_reducible apply KeepsOut.next) | (with_reducible exact KeepsOut.fault) | split | (dsimp only)

theorem execTimeCommand_keeps {q : QueueId} {s : State} (h0 : Keeps s₀ s) :
    KeepsOut s₀ (execTimeCommand q s) := by
  unfold execTimeCommand
  repeat' first
    | (with_reducible intro _) | (with_reducible assumption)
    | (with_reducible apply State.opRow_keeps)
    | (with_reducible apply State.timeRun_keeps)
    | (with_reducible apply KeepsOut.next) | (with_reducible exact KeepsOut.fault) | split | (dsimp only)

theorem execCallCommand_keeps {q : QueueId} {s : State} (h0 : Keeps s₀ s) :
    KeepsOut s₀ (execCallCommand q s) := by
  unfold execCallCommand
  repeat' first
    | (with_reducible intro _) | (with_reducible assumption)
    | (with_reducible apply State.opRow_keeps)
    | (with_reducible apply State.callRun_keeps)
    | (with_reducible apply KeepsOut.next) | (with_reducible exact KeepsOut.fault) | split | (dsimp only)

theorem execBreakCall_keeps {q : QueueId} {s : State} (h0 : Keeps s₀ s) :
    KeepsOut s₀ (execBreakCall q s) := by
  unfold execBreakCall
  repeat' first
    | (with_reducible intro _) | (with_reducible assumption)
    | (with_reducible apply State.opRow_keeps)
    | (with_reducible apply State.breakRun_keeps)
    | (with_reducible apply KeepsOut.next) | (with_reducible exact KeepsOut.fault) | split | (dsimp only)

theorem execInval_keeps {q : QueueId} {s : State} (h0 : Keeps s₀ s) :
    KeepsOut s₀ (execInval q s) := by
  unfold execInval
  repeat' first
    | (with_reducible intro _) | (with_reducible assumption)
    | (with_reducible apply State.opRow_keeps)
    | (with_reducible apply State.invalStart_keeps)
    | (with_reducible apply KeepsOut.next) | (with_reducible exact KeepsOut.fault) | split | (dsimp only)

theorem execWaitReread_keeps {q : QueueId} {s : State} (h0 : Keeps s₀ s) :
    KeepsOut s₀ (execWaitReread q s) := by
  unfold execWaitReread
  repeat' first
    | (with_reducible intro _) | (with_reducible assumption)
    | (with_reducible apply State.waitAgain_keeps)
    | (with_reducible apply KeepsOut.next) | (with_reducible exact KeepsOut.fault) | split | (dsimp only)

theorem execLaunchPlacement_keeps {q : QueueId} {d : DieId} {s : State} (h0 : Keeps s₀ s) :
    KeepsOut s₀ (execLaunchPlacement q d s) := by
  unfold execLaunchPlacement
  repeat' first
    | (with_reducible intro _) | (with_reducible assumption)
    | (with_reducible apply onDie_keeps)
    | (with_reducible apply State.placeLaunch_keeps)
    | (with_reducible apply KeepsOut.next) | (with_reducible exact KeepsOut.fault) | split | (dsimp only)

theorem execResidentSlotTake_keeps {d : DieId} {ctx : BitVec 14} {s : State} (h0 : Keeps s₀ s) :
    KeepsOut s₀ (execResidentSlotTake d ctx s) := by
  unfold execResidentSlotTake
  repeat' first
    | (with_reducible intro _) | (with_reducible assumption)
    | (with_reducible apply onDie_keeps)
    | (with_reducible apply State.slotTake_keeps)
    | (with_reducible apply KeepsOut.next) | (with_reducible exact KeepsOut.fault) | split | (dsimp only)

theorem execSliceExpiry_keeps {q : QueueId} {d : DieId} {s : State} (h0 : Keeps s₀ s) :
    KeepsOut s₀ (execSliceExpiry q d s) := by
  unfold execSliceExpiry
  repeat' first
    | (with_reducible intro _) | (with_reducible assumption)
    | (with_reducible apply onDie_keeps)
    | (with_reducible apply State.sliceEnd_keeps)
    | (with_reducible apply KeepsOut.next) | (with_reducible exact KeepsOut.fault) | split | (dsimp only)

theorem execCommandTimeout_keeps {q : QueueId} {s : State} (h0 : Keeps s₀ s) :
    KeepsOut s₀ (execCommandTimeout q s) := by
  unfold execCommandTimeout
  repeat' first
    | (with_reducible intro _) | (with_reducible assumption)
    | (with_reducible apply State.cmdTimeout_keeps)
    | (with_reducible apply KeepsOut.next) | (with_reducible exact KeepsOut.fault) | split | (dsimp only)

theorem execDrainExpiry_keeps {q : QueueId} {s : State} (h0 : Keeps s₀ s) :
    KeepsOut s₀ (execDrainExpiry q s) := by
  unfold execDrainExpiry
  repeat' first
    | (with_reducible intro _) | (with_reducible assumption)
    | (with_reducible apply State.drainEnd_keeps)
    | (with_reducible apply KeepsOut.next) | (with_reducible exact KeepsOut.fault) | split | (dsimp only)

theorem execLaunchComplete_keeps {q : QueueId} {s : State} (h0 : Keeps s₀ s) :
    KeepsOut s₀ (execLaunchComplete q s) := by
  unfold execLaunchComplete
  repeat' first
    | (with_reducible intro _) | (with_reducible assumption)
    | (with_reducible apply State.launchEnd_keeps)
    | (with_reducible apply KeepsOut.next) | (with_reducible exact KeepsOut.fault) | split | (dsimp only)

theorem execLossProcedure_keeps {ctx : BitVec 14} {s : State} (h0 : Keeps s₀ s) :
    KeepsOut s₀ (execLossProcedure ctx s) := by
  unfold execLossProcedure
  repeat' first
    | (with_reducible intro _) | (with_reducible assumption)
    | (with_reducible apply State.objNext_keeps)
    | (with_reducible apply State.lossStep_keeps)
    | (with_reducible apply KeepsOut.next) | (with_reducible exact KeepsOut.fault) | split | (dsimp only)

theorem execLaunchToDie0_keeps {m : Nat} {s : State} (h0 : Keeps s₀ s) :
    KeepsOut s₀ (execLaunchToDie0 m s) := by
  unfold execLaunchToDie0
  repeat' first
    | (with_reducible intro _) | (with_reducible assumption)
    | (with_reducible apply State.chooseDies_keeps)
    | (with_reducible apply KeepsOut.next) | (with_reducible exact KeepsOut.fault) | split | (dsimp only)

theorem execDistributionRecord_keeps {m : Nat} {s : State} (h0 : Keeps s₀ s) :
    KeepsOut s₀ (execDistributionRecord m s) := by
  unfold execDistributionRecord
  repeat' first
    | (with_reducible intro _) | (with_reducible assumption)
    | (with_reducible apply State.takeRecord_keeps)
    | (with_reducible apply KeepsOut.next) | (with_reducible exact KeepsOut.fault) | split | (dsimp only)

theorem execLaunchCountReached_keeps {q : QueueId} {d : DieId} {s : State} (h0 : Keeps s₀ s) :
    KeepsOut s₀ (execLaunchCountReached q d s) := by
  unfold execLaunchCountReached
  repeat' first
    | (with_reducible intro _) | (with_reducible assumption)
    | (with_reducible apply onDie_keeps)
    | (with_reducible apply State.countReached_keeps)
    | (with_reducible apply KeepsOut.next) | (with_reducible exact KeepsOut.fault) | split | (dsimp only)

theorem execPartEnded_keeps {m : Nat} {s : State} (h0 : Keeps s₀ s) :
    KeepsOut s₀ (execPartEnded m s) := by
  unfold execPartEnded
  repeat' first
    | (with_reducible intro _) | (with_reducible assumption)
    | (with_reducible apply State.partEnded_keeps)
    | (with_reducible apply KeepsOut.next) | (with_reducible exact KeepsOut.fault) | split | (dsimp only)

theorem execStop_keeps {m : Nat} {s : State} (h0 : Keeps s₀ s) :
    KeepsOut s₀ (execStop m s) := by
  unfold execStop
  repeat' first
    | (with_reducible intro _) | (with_reducible assumption)
    | (with_reducible apply State.stopHere_keeps)
    | (with_reducible apply KeepsOut.next) | (with_reducible exact KeepsOut.fault) | split | (dsimp only)

theorem execStopAcknowledgement_keeps {m : Nat} {s : State} (h0 : Keeps s₀ s) :
    KeepsOut s₀ (execStopAcknowledgement m s) := by
  unfold execStopAcknowledgement
  repeat' first
    | (with_reducible intro _) | (with_reducible assumption)
    | (with_reducible apply State.objNext_keeps)
    | (with_reducible apply State.stopAcked_keeps)
    | (with_reducible apply KeepsOut.next) | (with_reducible exact KeepsOut.fault) | split | (dsimp only)

theorem execSemaphoreRequest_keeps {m : Nat} {s : State} (h0 : Keeps s₀ s) :
    KeepsOut s₀ (execSemaphoreRequest m s) := by
  unfold execSemaphoreRequest
  repeat' first
    | (with_reducible intro _) | (with_reducible assumption)
    | (with_reducible apply State.semRequest_keeps)
    | (with_reducible apply KeepsOut.next) | (with_reducible exact KeepsOut.fault) | split | (dsimp only)

theorem execPool1Call_keeps {m : Nat} {s : State} (h0 : Keeps s₀ s) :
    KeepsOut s₀ (execPool1Call m s) := by
  unfold execPool1Call
  repeat' first
    | (with_reducible intro _) | (with_reducible assumption)
    | (with_reducible apply State.pool1_keeps)
    | (with_reducible apply KeepsOut.next) | (with_reducible exact KeepsOut.fault) | split | (dsimp only)

theorem execFenceSignal_keeps {n : Nat} {s : State} (h0 : Keeps s₀ s) :
    KeepsOut s₀ (execFenceSignal n s) := by
  unfold execFenceSignal
  repeat' first
    | (with_reducible intro _) | (with_reducible assumption)
    | (with_reducible apply State.fenceSignal_keeps)
    | (with_reducible apply KeepsOut.next) | (with_reducible exact KeepsOut.fault) | split | (dsimp only)

theorem execCtxCreate_keeps {role : Byte} {strb : Byte} {v : W64} {s : State} (h0 : Keeps s₀ s) :
    KeepsOut s₀ (execCtxCreate role strb v s) := by
  unfold execCtxCreate
  repeat' first
    | (with_reducible intro _) | (with_reducible assumption)
    | (with_reducible apply State.objRow_keeps)
    | (with_reducible apply KeepsOut.next) | (with_reducible exact KeepsOut.fault) | split | (dsimp only)

theorem execCtxAbort_keeps {role : Byte} {strb : Byte} {v : W64} {s : State} (h0 : Keeps s₀ s) :
    KeepsOut s₀ (execCtxAbort role strb v s) := by
  unfold execCtxAbort
  repeat' first
    | (with_reducible intro _) | (with_reducible assumption)
    | (with_reducible apply State.objRow_keeps)
    | (with_reducible apply KeepsOut.next) | (with_reducible exact KeepsOut.fault) | split | (dsimp only)

theorem execCtxDestroy_keeps {role : Byte} {strb : Byte} {v : W64} {s : State} (h0 : Keeps s₀ s) :
    KeepsOut s₀ (execCtxDestroy role strb v s) := by
  unfold execCtxDestroy
  repeat' first
    | (with_reducible intro _) | (with_reducible assumption)
    | (with_reducible apply State.objRow_keeps)
    | (with_reducible apply KeepsOut.next) | (with_reducible exact KeepsOut.fault) | split | (dsimp only)

theorem execQCreate_keeps {role : Byte} {strb : Byte} {v : W64} {s : State} (h0 : Keeps s₀ s) :
    KeepsOut s₀ (execQCreate role strb v s) := by
  unfold execQCreate
  repeat' first
    | (with_reducible intro _) | (with_reducible assumption)
    | (with_reducible apply State.objRow_keeps)
    | (with_reducible apply KeepsOut.next) | (with_reducible exact KeepsOut.fault) | split | (dsimp only)

theorem execQDestroy_keeps {role : Byte} {strb : Byte} {v : W64} {s : State} (h0 : Keeps s₀ s) :
    KeepsOut s₀ (execQDestroy role strb v s) := by
  unfold execQDestroy
  repeat' first
    | (with_reducible intro _) | (with_reducible assumption)
    | (with_reducible apply State.objRow_keeps)
    | (with_reducible apply KeepsOut.next) | (with_reducible exact KeepsOut.fault) | split | (dsimp only)

theorem execMoRegister_keeps {role : Byte} {strb : Byte} {v : W64} {s : State} (h0 : Keeps s₀ s) :
    KeepsOut s₀ (execMoRegister role strb v s) := by
  unfold execMoRegister
  repeat' first
    | (with_reducible intro _) | (with_reducible assumption)
    | (with_reducible apply State.objRow_keeps)
    | (with_reducible apply KeepsOut.next) | (with_reducible exact KeepsOut.fault) | split | (dsimp only)

theorem execMoDestroy_keeps {role : Byte} {strb : Byte} {v : W64} {s : State} (h0 : Keeps s₀ s) :
    KeepsOut s₀ (execMoDestroy role strb v s) := by
  unfold execMoDestroy
  repeat' first
    | (with_reducible intro _) | (with_reducible assumption)
    | (with_reducible apply State.objRow_keeps)
    | (with_reducible apply KeepsOut.next) | (with_reducible exact KeepsOut.fault) | split | (dsimp only)

theorem execMoRetireEnd_keeps {handle : BitVec 20} {s : State} (h0 : Keeps s₀ s) :
    KeepsOut s₀ (execMoRetireEnd handle s) := by
  unfold execMoRetireEnd
  repeat' first
    | (with_reducible intro _) | (with_reducible assumption)
    | (with_reducible apply State.objNext_keeps)
    | (with_reducible apply State.moRetire_keeps)
    | (with_reducible apply KeepsOut.next) | (with_reducible exact KeepsOut.fault) | split | (dsimp only)

theorem execSemCreate_keeps {role : Byte} {strb : Byte} {v : W64} {s : State} (h0 : Keeps s₀ s) :
    KeepsOut s₀ (execSemCreate role strb v s) := by
  unfold execSemCreate
  repeat' first
    | (with_reducible intro _) | (with_reducible assumption)
    | (with_reducible apply State.objRow_keeps)
    | (with_reducible apply KeepsOut.next) | (with_reducible exact KeepsOut.fault) | split | (dsimp only)

theorem execSemDestroy_keeps {role : Byte} {strb : Byte} {v : W64} {s : State} (h0 : Keeps s₀ s) :
    KeepsOut s₀ (execSemDestroy role strb v s) := by
  unfold execSemDestroy
  repeat' first
    | (with_reducible intro _) | (with_reducible assumption)
    | (with_reducible apply State.objRow_keeps)
    | (with_reducible apply KeepsOut.next) | (with_reducible exact KeepsOut.fault) | split | (dsimp only)

theorem execWalkEnd_keeps {d : DieId} {n : Nat} {s : State} (h0 : Keeps s₀ s) :
    KeepsOut s₀ (execWalkEnd d n s) := by
  unfold execWalkEnd
  repeat' first
    | (with_reducible intro _) | (with_reducible assumption)
    | (with_reducible apply onDie_keeps)
    | (with_reducible apply State.walkEnd_keeps)
    | (with_reducible apply KeepsOut.next) | (with_reducible exact KeepsOut.fault) | split | (dsimp only)

theorem execDeferredFaultPost_keeps {d : DieId} {s : State} (h0 : Keeps s₀ s) :
    KeepsOut s₀ (execDeferredFaultPost d s) := by
  unfold execDeferredFaultPost
  repeat' first
    | (with_reducible intro _) | (with_reducible assumption)
    | (with_reducible apply onDie_keeps)
    | (with_reducible apply State.postDeferred_keeps)
    | (with_reducible apply KeepsOut.next) | (with_reducible exact KeepsOut.fault) | split | (dsimp only)

theorem execRetry_keeps {role : Byte} {strb : Byte} {d : DieId} {v : W64} {s : State} (h0 : Keeps s₀ s) :
    KeepsOut s₀ (execRetry role strb d v s) := by
  unfold execRetry
  repeat' first
    | (with_reducible intro _) | (with_reducible assumption)
    | (with_reducible apply State.fqRow_keeps)
    | (with_reducible apply KeepsOut.next) | (with_reducible exact KeepsOut.fault) | split | (dsimp only)

theorem execFail_keeps {role : Byte} {strb : Byte} {d : DieId} {v : W64} {s : State} (h0 : Keeps s₀ s) :
    KeepsOut s₀ (execFail role strb d v s) := by
  unfold execFail
  repeat' first
    | (with_reducible intro _) | (with_reducible assumption)
    | (with_reducible apply State.fqRow_keeps)
    | (with_reducible apply KeepsOut.next) | (with_reducible exact KeepsOut.fault) | split | (dsimp only)

theorem execAck_keeps {role : Byte} {strb : Byte} {d : DieId} {v : W64} {s : State} (h0 : Keeps s₀ s) :
    KeepsOut s₀ (execAck role strb d v s) := by
  unfold execAck
  repeat' first
    | (with_reducible intro _) | (with_reducible assumption)
    | (with_reducible apply State.fqRow_keeps)
    | (with_reducible apply KeepsOut.next) | (with_reducible exact KeepsOut.fault) | split | (dsimp only)

theorem execReplay_keeps {d : DieId} {n : Nat} {s : State} (h0 : Keeps s₀ s) :
    KeepsOut s₀ (execReplay d n s) := by
  unfold execReplay
  repeat' first
    | (with_reducible intro _) | (with_reducible assumption)
    | (with_reducible apply onDie_keeps)
    | (with_reducible apply State.replay_keeps)
    | (with_reducible apply KeepsOut.next) | (with_reducible exact KeepsOut.fault) | split | (dsimp only)

theorem execHotPeriodExpiry_keeps {d : DieId} {s : State} (h0 : Keeps s₀ s) :
    KeepsOut s₀ (execHotPeriodExpiry d s) := by
  unfold execHotPeriodExpiry
  repeat' first
    | (with_reducible intro _) | (with_reducible assumption)
    | (with_reducible apply onDie_keeps)
    | (with_reducible apply State.hotPeriodEnd_keeps)
    | (with_reducible apply KeepsOut.next) | (with_reducible exact KeepsOut.fault) | split | (dsimp only)

theorem execPartRootCommit_keeps {role : Byte} {strb : Byte} {p : Fin 16} {v : W64} {s : State} (h0 : Keeps s₀ s) :
    KeepsOut s₀ (execPartRootCommit role strb p v s) := by
  unfold execPartRootCommit
  repeat' first
    | (with_reducible intro _) | (with_reducible assumption)
    | (with_reducible apply State.rootWrite_keeps)
    | (with_reducible apply KeepsOut.next) | (with_reducible exact KeepsOut.fault) | split | (dsimp only)

theorem execSegmentBlockLoad_keeps {d : DieId} {ctx : BitVec 14} {s : State} (h0 : Keeps s₀ s) :
    KeepsOut s₀ (execSegmentBlockLoad d ctx s) := by
  unfold execSegmentBlockLoad
  repeat' first
    | (with_reducible intro _) | (with_reducible assumption)
    | (with_reducible apply onDie_keeps)
    | (with_reducible apply State.loadSegs_keeps)
    | (with_reducible apply KeepsOut.next) | (with_reducible exact KeepsOut.fault) | split | (dsimp only)

theorem execInvalidation_keeps {m : Nat} {s : State} (h0 : Keeps s₀ s) :
    KeepsOut s₀ (execInvalidation m s) := by
  unfold execInvalidation
  repeat' first
    | (with_reducible intro _) | (with_reducible assumption)
    | (with_reducible apply State.invalidate_keeps)
    | (with_reducible apply KeepsOut.next) | (with_reducible exact KeepsOut.fault) | split | (dsimp only)

theorem execInvalidationAcknowledgement_keeps {d : DieId} {q : QueueId} {s : State} (h0 : Keeps s₀ s) :
    KeepsOut s₀ (execInvalidationAcknowledgement d q s) := by
  unfold execInvalidationAcknowledgement
  repeat' first
    | (with_reducible intro _) | (with_reducible assumption)
    | (with_reducible apply onDie_keeps)
    | (with_reducible apply State.objNext_keeps)
    | (with_reducible apply State.invalAckRow_keeps)
    | (with_reducible apply KeepsOut.next) | (with_reducible exact KeepsOut.fault) | split | (dsimp only)

theorem execFlit_keeps {l : LinkId} {raw : List Byte} {s : State} (h0 : Keeps s₀ s) :
    KeepsOut s₀ (execFlit l raw s) := by
  unfold execFlit
  repeat' first
    | (with_reducible intro _) | (with_reducible assumption)
    | (with_reducible apply onDie_keeps)
    | (with_reducible apply State.flit_keeps)
    | (with_reducible apply KeepsOut.next) | (with_reducible exact KeepsOut.fault) | split | (dsimp only)

theorem execAckTimeout_keeps {l : LinkId} {s : State} (h0 : Keeps s₀ s) :
    KeepsOut s₀ (execAckTimeout l s) := by
  unfold execAckTimeout
  repeat' first
    | (with_reducible intro _) | (with_reducible assumption)
    | (with_reducible apply onDie_keeps)
    | (with_reducible apply State.ackTimeout_keeps)
    | (with_reducible apply KeepsOut.next) | (with_reducible exact KeepsOut.fault) | split | (dsimp only)

theorem execMtPhyReady_keeps {l : LinkId} {s : State} (h0 : Keeps s₀ s) :
    KeepsOut s₀ (execMtPhyReady l s) := by
  unfold execMtPhyReady
  repeat' first
    | (with_reducible intro _) | (with_reducible assumption)
    | (with_reducible apply onDie_keeps)
    | (with_reducible apply State.phyReady_keeps)
    | (with_reducible apply KeepsOut.next) | (with_reducible exact KeepsOut.fault) | split | (dsimp only)

theorem execMtPhyReadyFall_keeps {l : LinkId} {s : State} (h0 : Keeps s₀ s) :
    KeepsOut s₀ (execMtPhyReadyFall l s) := by
  unfold execMtPhyReadyFall
  repeat' first
    | (with_reducible intro _) | (with_reducible assumption)
    | (with_reducible apply onDie_keeps)
    | (with_reducible apply State.phyFall_keeps)
    | (with_reducible apply KeepsOut.next) | (with_reducible exact KeepsOut.fault) | split | (dsimp only)

theorem execIdentComplete_keeps {l : LinkId} {lanes : List LaneSeen} {s : State} (h0 : Keeps s₀ s) :
    KeepsOut s₀ (execIdentComplete l lanes s) := by
  unfold execIdentComplete
  repeat' first
    | (with_reducible intro _) | (with_reducible assumption)
    | (with_reducible apply onDie_keeps)
    | (with_reducible apply State.identComplete_keeps)
    | (with_reducible apply KeepsOut.next) | (with_reducible exact KeepsOut.fault) | split | (dsimp only)

theorem execReportComplete_keeps {l : LinkId} {farRetired : List (BitVec 48)} {farDie : List (Fin 8)} {farLink : List (Fin 4)} {s : State} (h0 : Keeps s₀ s) :
    KeepsOut s₀ (execReportComplete l farRetired farDie farLink s) := by
  unfold execReportComplete
  repeat' first
    | (with_reducible intro _) | (with_reducible assumption)
    | (with_reducible apply onDie_keeps)
    | (with_reducible apply State.reportComplete_keeps)
    | (with_reducible apply KeepsOut.next) | (with_reducible exact KeepsOut.fault) | split | (dsimp only)

theorem execAlignComplete_keeps {l : LinkId} {s : State} (h0 : Keeps s₀ s) :
    KeepsOut s₀ (execAlignComplete l s) := by
  unfold execAlignComplete
  repeat' first
    | (with_reducible intro _) | (with_reducible assumption)
    | (with_reducible apply onDie_keeps)
    | (with_reducible apply State.alignComplete_keeps)
    | (with_reducible apply KeepsOut.next) | (with_reducible exact KeepsOut.fault) | split | (dsimp only)

theorem execTrainingPhaseTimeout_keeps {l : LinkId} {s : State} (h0 : Keeps s₀ s) :
    KeepsOut s₀ (execTrainingPhaseTimeout l s) := by
  unfold execTrainingPhaseTimeout
  repeat' first
    | (with_reducible intro _) | (with_reducible assumption)
    | (with_reducible apply onDie_keeps)
    | (with_reducible apply State.phaseTimeout_keeps)
    | (with_reducible apply KeepsOut.next) | (with_reducible exact KeepsOut.fault) | split | (dsimp only)

theorem execLinkTrainTimeout_keeps {l : LinkId} {s : State} (h0 : Keeps s₀ s) :
    KeepsOut s₀ (execLinkTrainTimeout l s) := by
  unfold execLinkTrainTimeout
  repeat' first
    | (with_reducible intro _) | (with_reducible assumption)
    | (with_reducible apply onDie_keeps)
    | (with_reducible apply State.trainTimeout_keeps)
    | (with_reducible apply KeepsOut.next) | (with_reducible exact KeepsOut.fault) | split | (dsimp only)

theorem execTopologyAnnouncement_keeps {d : DieId} {s : State} (h0 : Keeps s₀ s) :
    KeepsOut s₀ (execTopologyAnnouncement d s) := by
  unfold execTopologyAnnouncement
  repeat' first
    | (with_reducible intro _) | (with_reducible assumption)
    | (with_reducible apply onDie_keeps)
    | (with_reducible apply State.announce_keeps)
    | (with_reducible apply KeepsOut.next) | (with_reducible exact KeepsOut.fault) | split | (dsimp only)

theorem execAlignmentExchangeTimer_keeps {d : DieId} {s : State} (h0 : Keeps s₀ s) :
    KeepsOut s₀ (execAlignmentExchangeTimer d s) := by
  unfold execAlignmentExchangeTimer
  repeat' first
    | (with_reducible intro _) | (with_reducible assumption)
    | (with_reducible apply onDie_keeps)
    | (with_reducible apply State.alignSend_keeps)
    | (with_reducible apply KeepsOut.next) | (with_reducible exact KeepsOut.fault) | split | (dsimp only)

theorem execAlignmentRequest_keeps {m : Nat} {s : State} (h0 : Keeps s₀ s) :
    KeepsOut s₀ (execAlignmentRequest m s) := by
  unfold execAlignmentRequest
  repeat' first
    | (with_reducible intro _) | (with_reducible assumption)
    | (with_reducible apply State.alignReply_keeps)
    | (with_reducible apply KeepsOut.next) | (with_reducible exact KeepsOut.fault) | split | (dsimp only)

theorem execAlignmentAnswer_keeps {m : Nat} {s : State} (h0 : Keeps s₀ s) :
    KeepsOut s₀ (execAlignmentAnswer m s) := by
  unfold execAlignmentAnswer
  repeat' first
    | (with_reducible intro _) | (with_reducible assumption)
    | (with_reducible apply State.alignAnswer_keeps)
    | (with_reducible apply KeepsOut.next) | (with_reducible exact KeepsOut.fault) | split | (dsimp only)

theorem execCounterHoldEnd_keeps {d : DieId} {s : State} (h0 : Keeps s₀ s) :
    KeepsOut s₀ (execCounterHoldEnd d s) := by
  unfold execCounterHoldEnd
  repeat' first
    | (with_reducible intro _) | (with_reducible assumption)
    | (with_reducible apply onDie_keeps)
    | (with_reducible apply State.holdEnd_keeps)
    | (with_reducible apply KeepsOut.next) | (with_reducible exact KeepsOut.fault) | split | (dsimp only)

theorem execPeriodicAlignmentCheck_keeps {d : DieId} {s : State} (h0 : Keeps s₀ s) :
    KeepsOut s₀ (execPeriodicAlignmentCheck d s) := by
  unfold execPeriodicAlignmentCheck
  repeat' first
    | (with_reducible intro _) | (with_reducible assumption)
    | (with_reducible apply onDie_keeps)
    | (with_reducible apply State.alignCheck_keeps)
    | (with_reducible apply KeepsOut.next) | (with_reducible exact KeepsOut.fault) | split | (dsimp only)

theorem execAlignmentTimeout_keeps {d : DieId} {s : State} (h0 : Keeps s₀ s) :
    KeepsOut s₀ (execAlignmentTimeout d s) := by
  unfold execAlignmentTimeout
  repeat' first
    | (with_reducible intro _) | (with_reducible assumption)
    | (with_reducible apply onDie_keeps)
    | (with_reducible apply State.alignTimeout_keeps)
    | (with_reducible apply KeepsOut.next) | (with_reducible exact KeepsOut.fault) | split | (dsimp only)

theorem execPulseInput_keeps {d : DieId} {s : State} (h0 : Keeps s₀ s) :
    KeepsOut s₀ (execPulseInput d s) := by
  unfold execPulseInput
  repeat' first
    | (with_reducible intro _) | (with_reducible assumption)
    | (with_reducible apply onDie_keeps)
    | (with_reducible apply State.pulse_keeps)
    | (with_reducible apply KeepsOut.next) | (with_reducible exact KeepsOut.fault) | split | (dsimp only)

theorem execStageReport_keeps {m : Nat} {s : State} (h0 : Keeps s₀ s) :
    KeepsOut s₀ (execStageReport m s) := by
  unfold execStageReport
  repeat' first
    | (with_reducible intro _) | (with_reducible assumption)
    | (with_reducible apply State.stageReport_keeps)
    | (with_reducible apply KeepsOut.next) | (with_reducible exact KeepsOut.fault) | split | (dsimp only)

theorem execLinksEnd_keeps {d : DieId} {s : State} (h0 : Keeps s₀ s) :
    KeepsOut s₀ (execLinksEnd d s) := by
  unfold execLinksEnd
  repeat' first
    | (with_reducible intro _) | (with_reducible assumption)
    | (with_reducible apply onDie_keeps)
    | (with_reducible apply State.linksEnd_keeps)
    | (with_reducible apply KeepsOut.next) | (with_reducible exact KeepsOut.fault) | split | (dsimp only)

theorem execReadinessReport_keeps {m : Nat} {s : State} (h0 : Keeps s₀ s) :
    KeepsOut s₀ (execReadinessReport m s) := by
  unfold execReadinessReport
  repeat' first
    | (with_reducible intro _) | (with_reducible assumption)
    | (with_reducible apply State.readiness_keeps)
    | (with_reducible apply KeepsOut.next) | (with_reducible exact KeepsOut.fault) | split | (dsimp only)

theorem execHostDone_keeps {role : Byte} {strb : Byte} {v : W64} {s : State} (h0 : Keeps s₀ s) :
    KeepsOut s₀ (execHostDone role strb v s) := by
  unfold execHostDone
  repeat' first
    | (with_reducible intro _) | (with_reducible assumption)
    | (with_reducible apply State.hostDone_keeps)
    | (with_reducible apply KeepsOut.next) | (with_reducible exact KeepsOut.fault) | split | (dsimp only)

theorem execSelftestVerdict_keeps {d : DieId} {fails : List ResetUnit} {dieFail : Nat} {s : State} (h0 : Keeps s₀ s) :
    KeepsOut s₀ (execSelftestVerdict d fails dieFail s) := by
  unfold execSelftestVerdict
  repeat' first
    | (with_reducible intro _) | (with_reducible assumption)
    | (with_reducible apply onDie_keeps)
    | (with_reducible apply State.selftest_keeps)
    | (with_reducible apply KeepsOut.next) | (with_reducible exact KeepsOut.fault) | split | (dsimp only)

theorem execComputePartRelease_keeps {d : DieId} {s : State} (h0 : Keeps s₀ s) :
    KeepsOut s₀ (execComputePartRelease d s) := by
  unfold execComputePartRelease
  repeat' first
    | (with_reducible intro _) | (with_reducible assumption)
    | (with_reducible apply onDie_keeps)
    | (with_reducible apply State.planRelease_keeps)
    | (with_reducible apply KeepsOut.next) | (with_reducible exact KeepsOut.fault) | split | (dsimp only)

theorem execRateWindow_keeps {d : DieId} {rate : W16} {s : State} (h0 : Keeps s₀ s) :
    KeepsOut s₀ (execRateWindow d rate s) := by
  unfold execRateWindow
  repeat' first
    | (with_reducible intro _) | (with_reducible assumption)
    | (with_reducible apply onDie_keeps)
    | (with_reducible apply State.rateWindow_keeps)
    | (with_reducible apply KeepsOut.next) | (with_reducible exact KeepsOut.fault) | split | (dsimp only)

theorem execSupplyDip_keeps {d : DieId} {s : State} (h0 : Keeps s₀ s) :
    KeepsOut s₀ (execSupplyDip d s) := by
  unfold execSupplyDip
  repeat' first
    | (with_reducible intro _) | (with_reducible assumption)
    | (with_reducible apply onDie_keeps)
    | (with_reducible apply State.supplyDip_keeps)
    | (with_reducible apply KeepsOut.next) | (with_reducible exact KeepsOut.fault) | split | (dsimp only)

theorem execSupplyRecovery_keeps {d : DieId} {s : State} (h0 : Keeps s₀ s) :
    KeepsOut s₀ (execSupplyRecovery d s) := by
  unfold execSupplyRecovery
  repeat' first
    | (with_reducible intro _) | (with_reducible assumption)
    | (with_reducible apply onDie_keeps)
    | (with_reducible apply State.supplyRecovery_keeps)
    | (with_reducible apply KeepsOut.next) | (with_reducible exact KeepsOut.fault) | split | (dsimp only)

theorem execTimebaseLost_keeps {d : DieId} {s : State} (h0 : Keeps s₀ s) :
    KeepsOut s₀ (execTimebaseLost d s) := by
  unfold execTimebaseLost
  repeat' first
    | (with_reducible intro _) | (with_reducible assumption)
    | (with_reducible apply onDie_keeps)
    | (with_reducible apply State.timebaseLost_keeps)
    | (with_reducible apply KeepsOut.next) | (with_reducible exact KeepsOut.fault) | split | (dsimp only)

theorem execTimebaseResume_keeps {d : DieId} {s : State} (h0 : Keeps s₀ s) :
    KeepsOut s₀ (execTimebaseResume d s) := by
  unfold execTimebaseResume
  repeat' first
    | (with_reducible intro _) | (with_reducible assumption)
    | (with_reducible apply onDie_keeps)
    | (with_reducible apply State.timebaseResume_keeps)
    | (with_reducible apply KeepsOut.next) | (with_reducible exact KeepsOut.fault) | split | (dsimp only)

theorem execTimebaseStable_keeps {d : DieId} {s : State} (h0 : Keeps s₀ s) :
    KeepsOut s₀ (execTimebaseStable d s) := by
  unfold execTimebaseStable
  repeat' first
    | (with_reducible intro _) | (with_reducible assumption)
    | (with_reducible apply onDie_keeps)
    | (with_reducible apply State.timebaseStable_keeps)
    | (with_reducible apply KeepsOut.next) | (with_reducible exact KeepsOut.fault) | split | (dsimp only)

theorem execWatchdogExpiry_keeps {u : ResetUnit} {counts : Nat} {s : State} (h0 : Keeps s₀ s) :
    KeepsOut s₀ (execWatchdogExpiry u counts s) := by
  unfold execWatchdogExpiry
  repeat' first
    | (with_reducible intro _) | (with_reducible assumption)
    | (with_reducible apply State.watchdog_keeps)
    | (with_reducible apply KeepsOut.next) | (with_reducible exact KeepsOut.fault) | split | (dsimp only)

theorem execResetDeadline_keeps {d : DieId} {n : Nat} {s : State} (h0 : Keeps s₀ s) :
    KeepsOut s₀ (execResetDeadline d n s) := by
  unfold execResetDeadline
  repeat' first
    | (with_reducible intro _) | (with_reducible assumption)
    | (with_reducible apply onDie_keeps)
    | (with_reducible apply State.resetDeadline_keeps)
    | (with_reducible apply KeepsOut.next) | (with_reducible exact KeepsOut.fault) | split | (dsimp only)

theorem execResetCheck_keeps {d : DieId} {n : Nat} {s : State} (h0 : Keeps s₀ s) :
    KeepsOut s₀ (execResetCheck d n s) := by
  unfold execResetCheck
  repeat' first
    | (with_reducible intro _) | (with_reducible assumption)
    | (with_reducible apply onDie_keeps)
    | (with_reducible apply State.resetCheck_keeps)
    | (with_reducible apply KeepsOut.next) | (with_reducible exact KeepsOut.fault) | split | (dsimp only)

theorem execRegionReadTimeout_keeps {d : DieId} {n : Nat} {path : Nat} {s : State} (h0 : Keeps s₀ s) :
    KeepsOut s₀ (execRegionReadTimeout d n path s) := by
  unfold execRegionReadTimeout
  repeat' first
    | (with_reducible intro _) | (with_reducible assumption)
    | (with_reducible apply onDie_keeps)
    | (with_reducible apply State.regionLate_keeps)
    | (with_reducible apply KeepsOut.next) | (with_reducible exact KeepsOut.fault) | split | (dsimp only)

theorem execCollectionCutoff_keeps {d : DieId} {n : Nat} {s : State} (h0 : Keeps s₀ s) :
    KeepsOut s₀ (execCollectionCutoff d n s) := by
  unfold execCollectionCutoff
  repeat' first
    | (with_reducible intro _) | (with_reducible assumption)
    | (with_reducible apply onDie_keeps)
    | (with_reducible apply State.cutoff_keeps)
    | (with_reducible apply KeepsOut.next) | (with_reducible exact KeepsOut.fault) | split | (dsimp only)

theorem execBoundarySlotTimeout_keeps {d : DieId} {r : Nat} {s : State} (h0 : Keeps s₀ s) :
    KeepsOut s₀ (execBoundarySlotTimeout d r s) := by
  unfold execBoundarySlotTimeout
  repeat' first
    | (with_reducible intro _) | (with_reducible assumption)
    | (with_reducible apply onDie_keeps)
    | (with_reducible apply State.slotTimeout_keeps)
    | (with_reducible apply KeepsOut.next) | (with_reducible exact KeepsOut.fault) | split | (dsimp only)

theorem execDumpFree_keeps {role : Byte} {strb : Byte} {d : DieId} {v : W64} {s : State} (h0 : Keeps s₀ s) :
    KeepsOut s₀ (execDumpFree role strb d v s) := by
  unfold execDumpFree
  repeat' first
    | (with_reducible intro _) | (with_reducible assumption)
    | (with_reducible apply State.dumpFree_keeps)
    | (with_reducible apply KeepsOut.next) | (with_reducible exact KeepsOut.fault) | split | (dsimp only)

theorem execDieResetReplan_keeps {d : DieId} {s : State} (h0 : Keeps s₀ s) :
    KeepsOut s₀ (execDieResetReplan d s) := by
  unfold execDieResetReplan
  repeat' first
    | (with_reducible intro _) | (with_reducible assumption)
    | (with_reducible apply onDie_keeps)
    | (with_reducible apply State.dieReplan_keeps)
    | (with_reducible apply KeepsOut.next) | (with_reducible exact KeepsOut.fault) | split | (dsimp only)

theorem execPairComparison_keeps {q : QueueId} {lcore : Nat} {s : State} (h0 : Keeps s₀ s) :
    KeepsOut s₀ (execPairComparison q lcore s) := by
  unfold execPairComparison
  repeat' first
    | (with_reducible intro _) | (with_reducible assumption)
    | (with_reducible apply State.pairCompare_keeps)
    | (with_reducible apply KeepsOut.next) | (with_reducible exact KeepsOut.fault) | split | (dsimp only)

theorem execPairWaitExpiry_keeps {q : QueueId} {lcore : Nat} {s : State} (h0 : Keeps s₀ s) :
    KeepsOut s₀ (execPairWaitExpiry q lcore s) := by
  unfold execPairWaitExpiry
  repeat' first
    | (with_reducible intro _) | (with_reducible assumption)
    | (with_reducible apply State.pairLate_keeps)
    | (with_reducible apply KeepsOut.next) | (with_reducible exact KeepsOut.fault) | split | (dsimp only)

theorem execReadbackMismatch_keeps {d : DieId} {sampled : BitVec 2} {s : State} (h0 : Keeps s₀ s) :
    KeepsOut s₀ (execReadbackMismatch d sampled s) := by
  unfold execReadbackMismatch
  repeat' first
    | (with_reducible intro _) | (with_reducible assumption)
    | (with_reducible apply onDie_keeps)
    | (with_reducible apply State.readback_keeps)
    | (with_reducible apply KeepsOut.next) | (with_reducible exact KeepsOut.fault) | split | (dsimp only)

theorem execSupervisionCycle_keeps {d : DieId} {s : State} (h0 : Keeps s₀ s) :
    KeepsOut s₀ (execSupervisionCycle d s) := by
  unfold execSupervisionCycle
  repeat' first
    | (with_reducible intro _) | (with_reducible assumption)
    | (with_reducible apply onDie_keeps)
    | (with_reducible apply State.supervise_keeps)
    | (with_reducible apply KeepsOut.next) | (with_reducible exact KeepsOut.fault) | split | (dsimp only)

theorem execEmberMeasurement_keeps {d : DieId} {region : Nat} {mon : Nat} {reading : Byte} {s : State} (h0 : Keeps s₀ s) :
    KeepsOut s₀ (execEmberMeasurement d region mon reading s) := by
  unfold execEmberMeasurement
  repeat' first
    | (with_reducible intro _) | (with_reducible assumption)
    | (with_reducible apply onDie_keeps)
    | (with_reducible apply State.ember_keeps)
    | (with_reducible apply KeepsOut.next) | (with_reducible exact KeepsOut.fault) | split | (dsimp only)

theorem execMonitorFailure_keeps {d : DieId} {region : Nat} {mon : Nat} {s : State} (h0 : Keeps s₀ s) :
    KeepsOut s₀ (execMonitorFailure d region mon s) := by
  unfold execMonitorFailure
  repeat' first
    | (with_reducible intro _) | (with_reducible assumption)
    | (with_reducible apply onDie_keeps)
    | (with_reducible apply State.monitorFailed_keeps)
    | (with_reducible apply KeepsOut.next) | (with_reducible exact KeepsOut.fault) | split | (dsimp only)

theorem execPeriodicReplan_keeps {d : DieId} {s : State} (h0 : Keeps s₀ s) :
    KeepsOut s₀ (execPeriodicReplan d s) := by
  unfold execPeriodicReplan
  repeat' first
    | (with_reducible intro _) | (with_reducible assumption)
    | (with_reducible apply onDie_keeps)
    | (with_reducible apply State.periodicPlan_keeps)
    | (with_reducible apply KeepsOut.next) | (with_reducible exact KeepsOut.fault) | split | (dsimp only)

theorem execVreqStep_keeps {d : DieId} {s : State} (h0 : Keeps s₀ s) :
    KeepsOut s₀ (execVreqStep d s) := by
  unfold execVreqStep
  repeat' first
    | (with_reducible intro _) | (with_reducible assumption)
    | (with_reducible apply onDie_keeps)
    | (with_reducible apply State.vreqStep_keeps)
    | (with_reducible apply KeepsOut.next) | (with_reducible exact KeepsOut.fault) | split | (dsimp only)

theorem execSlackRecord_keeps {d : DieId} {s : State} (h0 : Keeps s₀ s) :
    KeepsOut s₀ (execSlackRecord d s) := by
  unfold execSlackRecord
  repeat' first
    | (with_reducible intro _) | (with_reducible assumption)
    | (with_reducible apply onDie_keeps)
    | (with_reducible apply State.slackHour_keeps)
    | (with_reducible apply KeepsOut.next) | (with_reducible exact KeepsOut.fault) | split | (dsimp only)

theorem execImageCheck_keeps {d : DieId} {flashOk : Bool} {s : State} (h0 : Keeps s₀ s) :
    KeepsOut s₀ (execImageCheck d flashOk s) := by
  unfold execImageCheck
  repeat' first
    | (with_reducible intro _) | (with_reducible assumption)
    | (with_reducible apply onDie_keeps)
    | (with_reducible apply State.imageCheckAt_keeps)
    | (with_reducible apply KeepsOut.next) | (with_reducible exact KeepsOut.fault) | split | (dsimp only)

theorem execRecover_keeps {d : DieId} {path : DPath} {s : State} (h0 : Keeps s₀ s) :
    KeepsOut s₀ (execRecover d path s) := by
  unfold execRecover
  repeat' first
    | (with_reducible intro _) | (with_reducible assumption)
    | (with_reducible apply onDie_keeps)
    | (with_reducible apply State.serve_keeps)
    | (with_reducible apply KeepsOut.next) | (with_reducible exact KeepsOut.fault) | split | (dsimp only)

theorem execStewardWatchdog_keeps {d : DieId} {s : State} (h0 : Keeps s₀ s) :
    KeepsOut s₀ (execStewardWatchdog d s) := by
  unfold execStewardWatchdog
  repeat' first
    | (with_reducible intro _) | (with_reducible assumption)
    | (with_reducible apply onDie_keeps)
    | (with_reducible apply State.stewardWatchdog_keeps)
    | (with_reducible apply KeepsOut.next) | (with_reducible exact KeepsOut.fault) | split | (dsimp only)

theorem execDictRead_keeps {d : DieId} {path : DPath} {s : State} (h0 : Keeps s₀ s) :
    KeepsOut s₀ (execDictRead d path s) := by
  unfold execDictRead
  repeat' first
    | (with_reducible intro _) | (with_reducible assumption)
    | (with_reducible apply onDie_keeps)
    | (with_reducible apply State.serve_keeps)
    | (with_reducible apply KeepsOut.next) | (with_reducible exact KeepsOut.fault) | split | (dsimp only)

theorem execDictWrite_keeps {d : DieId} {path : DPath} {s : State} (h0 : Keeps s₀ s) :
    KeepsOut s₀ (execDictWrite d path s) := by
  unfold execDictWrite
  repeat' first
    | (with_reducible intro _) | (with_reducible assumption)
    | (with_reducible apply onDie_keeps)
    | (with_reducible apply State.serve_keeps)
    | (with_reducible apply KeepsOut.next) | (with_reducible exact KeepsOut.fault) | split | (dsimp only)

theorem execDictCommit_keeps {d : DieId} {path : DPath} {s : State} (h0 : Keeps s₀ s) :
    KeepsOut s₀ (execDictCommit d path s) := by
  unfold execDictCommit
  repeat' first
    | (with_reducible intro _) | (with_reducible assumption)
    | (with_reducible apply onDie_keeps)
    | (with_reducible apply State.serve_keeps)
    | (with_reducible apply KeepsOut.next) | (with_reducible exact KeepsOut.fault) | split | (dsimp only)

theorem execDictAbort_keeps {d : DieId} {path : DPath} {s : State} (h0 : Keeps s₀ s) :
    KeepsOut s₀ (execDictAbort d path s) := by
  unfold execDictAbort
  repeat' first
    | (with_reducible intro _) | (with_reducible assumption)
    | (with_reducible apply onDie_keeps)
    | (with_reducible apply State.serve_keeps)
    | (with_reducible apply KeepsOut.next) | (with_reducible exact KeepsOut.fault) | split | (dsimp only)

theorem execDictDescribe_keeps {d : DieId} {path : DPath} {s : State} (h0 : Keeps s₀ s) :
    KeepsOut s₀ (execDictDescribe d path s) := by
  unfold execDictDescribe
  repeat' first
    | (with_reducible intro _) | (with_reducible assumption)
    | (with_reducible apply onDie_keeps)
    | (with_reducible apply State.serve_keeps)
    | (with_reducible apply KeepsOut.next) | (with_reducible exact KeepsOut.fault) | split | (dsimp only)

theorem execImgErase_keeps {d : DieId} {path : DPath} {s : State} (h0 : Keeps s₀ s) :
    KeepsOut s₀ (execImgErase d path s) := by
  unfold execImgErase
  repeat' first
    | (with_reducible intro _) | (with_reducible assumption)
    | (with_reducible apply onDie_keeps)
    | (with_reducible apply State.serve_keeps)
    | (with_reducible apply KeepsOut.next) | (with_reducible exact KeepsOut.fault) | split | (dsimp only)

theorem execImgWrite_keeps {d : DieId} {path : DPath} {s : State} (h0 : Keeps s₀ s) :
    KeepsOut s₀ (execImgWrite d path s) := by
  unfold execImgWrite
  repeat' first
    | (with_reducible intro _) | (with_reducible assumption)
    | (with_reducible apply onDie_keeps)
    | (with_reducible apply State.serve_keeps)
    | (with_reducible apply KeepsOut.next) | (with_reducible exact KeepsOut.fault) | split | (dsimp only)

theorem execBoot_keeps {d : DieId} {path : DPath} {s : State} (h0 : Keeps s₀ s) :
    KeepsOut s₀ (execBoot d path s) := by
  unfold execBoot
  repeat' first
    | (with_reducible intro _) | (with_reducible assumption)
    | (with_reducible apply onDie_keeps)
    | (with_reducible apply State.serve_keeps)
    | (with_reducible apply KeepsOut.next) | (with_reducible exact KeepsOut.fault) | split | (dsimp only)

theorem execDapFrame_keeps {d : DieId} {frame : List Byte} {s : State} (h0 : Keeps s₀ s) :
    KeepsOut s₀ (execDapFrame d frame s) := by
  unfold execDapFrame
  repeat' first
    | (with_reducible intro _) | (with_reducible assumption)
    | (with_reducible apply onDie_keeps)
    | (with_reducible apply State.dapFrame_keeps)
    | (with_reducible apply KeepsOut.next) | (with_reducible exact KeepsOut.fault) | split | (dsimp only)

theorem execSessionTimeout_keeps {d : DieId} {group : Byte} {s : State} (h0 : Keeps s₀ s) :
    KeepsOut s₀ (execSessionTimeout d group s) := by
  unfold execSessionTimeout
  repeat' first
    | (with_reducible intro _) | (with_reducible assumption)
    | (with_reducible apply onDie_keeps)
    | (with_reducible apply State.sessionEnd_keeps)
    | (with_reducible apply KeepsOut.next) | (with_reducible exact KeepsOut.fault) | split | (dsimp only)

theorem execJournalRecordWrite_keeps {d : DieId} {ok : Bool} {s : State} (h0 : Keeps s₀ s) :
    KeepsOut s₀ (execJournalRecordWrite d ok s) := by
  unfold execJournalRecordWrite
  repeat' first
    | (with_reducible intro _) | (with_reducible assumption)
    | (with_reducible apply onDie_keeps)
    | (with_reducible apply State.recordWrite_keeps)
    | (with_reducible apply KeepsOut.next) | (with_reducible exact KeepsOut.fault) | split | (dsimp only)

theorem execJournalReplay_keeps {d : DieId} {s : State} (h0 : Keeps s₀ s) :
    KeepsOut s₀ (execJournalReplay d s) := by
  unfold execJournalReplay
  repeat' first
    | (with_reducible intro _) | (with_reducible assumption)
    | (with_reducible apply onDie_keeps)
    | (with_reducible apply State.journalReplay_keeps)
    | (with_reducible apply KeepsOut.next) | (with_reducible exact KeepsOut.fault) | split | (dsimp only)

theorem execCompaction_keeps {d : DieId} {s : State} (h0 : Keeps s₀ s) :
    KeepsOut s₀ (execCompaction d s) := by
  unfold execCompaction
  repeat' first
    | (with_reducible intro _) | (with_reducible assumption)
    | (with_reducible apply onDie_keeps)
    | (with_reducible apply State.compaction_keeps)
    | (with_reducible apply KeepsOut.next) | (with_reducible exact KeepsOut.fault) | split | (dsimp only)

theorem execSectorErase_keeps {d : DieId} {s : State} (h0 : Keeps s₀ s) :
    KeepsOut s₀ (execSectorErase d s) := by
  unfold execSectorErase
  repeat' first
    | (with_reducible intro _) | (with_reducible assumption)
    | (with_reducible apply onDie_keeps)
    | (with_reducible apply State.sectorErase_keeps)
    | (with_reducible apply KeepsOut.next) | (with_reducible exact KeepsOut.fault) | split | (dsimp only)

theorem execJrnClear_keeps {d : DieId} {path : DPath} {s : State} (h0 : Keeps s₀ s) :
    KeepsOut s₀ (execJrnClear d path s) := by
  unfold execJrnClear
  repeat' first
    | (with_reducible intro _) | (with_reducible assumption)
    | (with_reducible apply onDie_keeps)
    | (with_reducible apply State.serve_keeps)
    | (with_reducible apply KeepsOut.next) | (with_reducible exact KeepsOut.fault) | split | (dsimp only)

theorem execSyncMessage_keeps {d : DieId} {frame : List Byte} {s : State} (h0 : Keeps s₀ s) :
    KeepsOut s₀ (execSyncMessage d frame s) := by
  unfold execSyncMessage
  repeat' first
    | (with_reducible intro _) | (with_reducible assumption)
    | (with_reducible apply onDie_keeps)
    | (with_reducible apply State.sync_keeps)
    | (with_reducible apply KeepsOut.next) | (with_reducible exact KeepsOut.fault) | split | (dsimp only)

theorem execFollowUp_keeps {d : DieId} {frame : List Byte} {s : State} (h0 : Keeps s₀ s) :
    KeepsOut s₀ (execFollowUp d frame s) := by
  unfold execFollowUp
  repeat' first
    | (with_reducible intro _) | (with_reducible assumption)
    | (with_reducible apply onDie_keeps)
    | (with_reducible apply State.followUp_keeps)
    | (with_reducible apply KeepsOut.next) | (with_reducible exact KeepsOut.fault) | split | (dsimp only)

theorem execPdelayReq_keeps {d : DieId} {frame : List Byte} {s : State} (h0 : Keeps s₀ s) :
    KeepsOut s₀ (execPdelayReq d frame s) := by
  unfold execPdelayReq
  repeat' first
    | (with_reducible intro _) | (with_reducible assumption)
    | (with_reducible apply onDie_keeps)
    | (with_reducible apply State.pdelayReq_keeps)
    | (with_reducible apply KeepsOut.next) | (with_reducible exact KeepsOut.fault) | split | (dsimp only)

theorem execPdelayResp_keeps {d : DieId} {frame : List Byte} {s : State} (h0 : Keeps s₀ s) :
    KeepsOut s₀ (execPdelayResp d frame s) := by
  unfold execPdelayResp
  repeat' first
    | (with_reducible intro _) | (with_reducible assumption)
    | (with_reducible apply onDie_keeps)
    | (with_reducible apply State.pdelayResp_keeps)
    | (with_reducible apply KeepsOut.next) | (with_reducible exact KeepsOut.fault) | split | (dsimp only)

theorem execPdelayRespFollowUp_keeps {d : DieId} {frame : List Byte} {s : State} (h0 : Keeps s₀ s) :
    KeepsOut s₀ (execPdelayRespFollowUp d frame s) := by
  unfold execPdelayRespFollowUp
  repeat' first
    | (with_reducible intro _) | (with_reducible assumption)
    | (with_reducible apply onDie_keeps)
    | (with_reducible apply State.pdelayFup_keeps)
    | (with_reducible apply KeepsOut.next) | (with_reducible exact KeepsOut.fault) | split | (dsimp only)

theorem execSyncInterval_keeps {d : DieId} {s : State} (h0 : Keeps s₀ s) :
    KeepsOut s₀ (execSyncInterval d s) := by
  unfold execSyncInterval
  repeat' first
    | (with_reducible intro _) | (with_reducible assumption)
    | (with_reducible apply onDie_keeps)
    | (with_reducible apply State.syncSend_keeps)
    | (with_reducible apply KeepsOut.next) | (with_reducible exact KeepsOut.fault) | split | (dsimp only)

theorem execPdelayInterval_keeps {d : DieId} {s : State} (h0 : Keeps s₀ s) :
    KeepsOut s₀ (execPdelayInterval d s) := by
  unfold execPdelayInterval
  repeat' first
    | (with_reducible intro _) | (with_reducible assumption)
    | (with_reducible apply onDie_keeps)
    | (with_reducible apply State.pdelaySend_keeps)
    | (with_reducible apply KeepsOut.next) | (with_reducible exact KeepsOut.fault) | split | (dsimp only)

theorem execSyncLost_keeps {d : DieId} {s : State} (h0 : Keeps s₀ s) :
    KeepsOut s₀ (execSyncLost d s) := by
  unfold execSyncLost
  repeat' first
    | (with_reducible intro _) | (with_reducible assumption)
    | (with_reducible apply onDie_keeps)
    | (with_reducible apply State.syncLost_keeps)
    | (with_reducible apply KeepsOut.next) | (with_reducible exact KeepsOut.fault) | split | (dsimp only)

theorem execTimeSet_keeps {d : DieId} {path : DPath} {s : State} (h0 : Keeps s₀ s) :
    KeepsOut s₀ (execTimeSet d path s) := by
  unfold execTimeSet
  repeat' first
    | (with_reducible intro _) | (with_reducible assumption)
    | (with_reducible apply onDie_keeps)
    | (with_reducible apply State.serve_keeps)
    | (with_reducible apply KeepsOut.next) | (with_reducible exact KeepsOut.fault) | split | (dsimp only)

theorem execTimeAdj_keeps {d : DieId} {path : DPath} {s : State} (h0 : Keeps s₀ s) :
    KeepsOut s₀ (execTimeAdj d path s) := by
  unfold execTimeAdj
  repeat' first
    | (with_reducible intro _) | (with_reducible assumption)
    | (with_reducible apply onDie_keeps)
    | (with_reducible apply State.serve_keeps)
    | (with_reducible apply KeepsOut.next) | (with_reducible exact KeepsOut.fault) | split | (dsimp only)

theorem execRestep_keeps {d : DieId} {path : DPath} {s : State} (h0 : Keeps s₀ s) :
    KeepsOut s₀ (execRestep d path s) := by
  unfold execRestep
  repeat' first
    | (with_reducible intro _) | (with_reducible assumption)
    | (with_reducible apply onDie_keeps)
    | (with_reducible apply State.serve_keeps)
    | (with_reducible apply KeepsOut.next) | (with_reducible exact KeepsOut.fault) | split | (dsimp only)

theorem execSecondAdvance_keeps {d : DieId} {s : State} (h0 : Keeps s₀ s) :
    KeepsOut s₀ (execSecondAdvance d s) := by
  unfold execSecondAdvance
  repeat' first
    | (with_reducible intro _) | (with_reducible assumption)
    | (with_reducible apply onDie_keeps)
    | (with_reducible apply State.secondAdvance_keeps)
    | (with_reducible apply KeepsOut.next) | (with_reducible exact KeepsOut.fault) | split | (dsimp only)

theorem execPpsOutFall_keeps {d : DieId} {s : State} (h0 : Keeps s₀ s) :
    KeepsOut s₀ (execPpsOutFall d s) := by
  unfold execPpsOutFall
  repeat' first
    | (with_reducible intro _) | (with_reducible assumption)
    | (with_reducible apply onDie_keeps)
    | (with_reducible apply State.ppsFall_keeps)
    | (with_reducible apply KeepsOut.next) | (with_reducible exact KeepsOut.fault) | split | (dsimp only)

theorem execLinkUp_keeps {d : DieId} {up : Bool} {s : State} (h0 : Keeps s₀ s) :
    KeepsOut s₀ (execLinkUp d up s) := by
  unfold execLinkUp
  repeat' first
    | (with_reducible intro _) | (with_reducible assumption)
    | (with_reducible apply onDie_keeps)
    | (with_reducible apply State.phyLink_keeps)
    | (with_reducible apply KeepsOut.next) | (with_reducible exact KeepsOut.fault) | split | (dsimp only)

theorem execMonitorSample_keeps {d : DieId} {m : Fin 32} {v : W32} {s : State} (h0 : Keeps s₀ s) :
    KeepsOut s₀ (execMonitorSample d m v s) := by
  unfold execMonitorSample
  repeat' first
    | (with_reducible intro _) | (with_reducible assumption)
    | (with_reducible apply onDie_keeps)
    | (with_reducible apply State.sample_keeps)
    | (with_reducible apply KeepsOut.next) | (with_reducible exact KeepsOut.fault) | split | (dsimp only)

theorem execSnapMask_keeps {role : Byte} {strb : Byte} {d : DieId} {v : W64} {s : State} (h0 : Keeps s₀ s) :
    KeepsOut s₀ (execSnapMask role strb d v s) := by
  unfold execSnapMask
  repeat' first
    | (with_reducible intro _) | (with_reducible assumption)
    | (with_reducible apply State.hmCrown_keeps)
    | (with_reducible apply KeepsOut.next) | (with_reducible exact KeepsOut.fault) | split | (dsimp only)

theorem execClearMask_keeps {role : Byte} {strb : Byte} {d : DieId} {v : W64} {s : State} (h0 : Keeps s₀ s) :
    KeepsOut s₀ (execClearMask role strb d v s) := by
  unfold execClearMask
  repeat' first
    | (with_reducible intro _) | (with_reducible assumption)
    | (with_reducible apply State.hmCrown_keeps)
    | (with_reducible apply KeepsOut.next) | (with_reducible exact KeepsOut.fault) | split | (dsimp only)

theorem execInterruptMessage_keeps {d : DieId} {s : State} (h0 : Keeps s₀ s) :
    KeepsOut s₀ (execInterruptMessage d s) := by
  unfold execInterruptMessage
  repeat' first
    | (with_reducible intro _) | (with_reducible assumption)
    | (with_reducible apply onDie_keeps)
    | (with_reducible apply State.imTransfer_keeps)
    | (with_reducible apply KeepsOut.next) | (with_reducible exact KeepsOut.fault) | split | (dsimp only)

theorem execBlkRstNAssert_keeps {d : DieId} {s : State} (h0 : Keeps s₀ s) :
    KeepsOut s₀ (execBlkRstNAssert d s) := by
  unfold execBlkRstNAssert
  repeat' first
    | (with_reducible intro _) | (with_reducible assumption)
    | (with_reducible apply onDie_keeps)
    | (with_reducible apply State.blockReset_keeps)
    | (with_reducible apply KeepsOut.next) | (with_reducible exact KeepsOut.fault) | split | (dsimp only)

theorem execBlkRstNRelease_keeps {d : DieId} {s : State} (h0 : Keeps s₀ s) :
    KeepsOut s₀ (execBlkRstNRelease d s) := by
  unfold execBlkRstNRelease
  repeat' first
    | (with_reducible intro _) | (with_reducible assumption)
    | (with_reducible apply onDie_keeps)
    | (with_reducible apply State.blockRelease_keeps)
    | (with_reducible apply KeepsOut.next) | (with_reducible exact KeepsOut.fault) | split | (dsimp only)

theorem execDbgData_keeps {d : DieId} {addr : W32} {write : Bool} {v : W64} {s : State} (h0 : Keeps s₀ s) :
    KeepsOut s₀ (execDbgData d addr write v s) := by
  unfold execDbgData
  repeat' first
    | (with_reducible intro _) | (with_reducible assumption)
    | (with_reducible apply onDie_keeps)
    | (with_reducible apply State.debugAccess_keeps)
    | (with_reducible apply KeepsOut.next) | (with_reducible exact KeepsOut.fault) | split | (dsimp only)

theorem execDbgTrstN_keeps {d : DieId} {s : State} (h0 : Keeps s₀ s) :
    KeepsOut s₀ (execDbgTrstN d s) := by
  unfold execDbgTrstN
  repeat' first
    | (with_reducible intro _) | (with_reducible assumption)
    | (with_reducible apply onDie_keeps)
    | (with_reducible apply State.debugReset_keeps)
    | (with_reducible apply KeepsOut.next) | (with_reducible exact KeepsOut.fault) | split | (dsimp only)

theorem execTableBaseWrite_keeps {role : Byte} {strb : Byte} {off : BitVec 28} {v : W64} {s : State} (h0 : Keeps s₀ s) :
    KeepsOut s₀ (execTableBaseWrite role strb off v s) := by
  unfold execTableBaseWrite
  repeat' first
    | (with_reducible intro _) | (with_reducible assumption)
    | (with_reducible apply State.tableBaseWrite_keeps)
    | (with_reducible apply KeepsOut.next) | (with_reducible exact KeepsOut.fault) | split | (dsimp only)

theorem execRingBaseWrite_keeps {role : Byte} {strb : Byte} {p : Fin 16} {r : Byte} {v : W64} {s : State} (h0 : Keeps s₀ s) :
    KeepsOut s₀ (execRingBaseWrite role strb p r v s) := by
  unfold execRingBaseWrite
  repeat' first
    | (with_reducible intro _) | (with_reducible assumption)
    | (with_reducible apply State.ringWrite_keeps)
    | (with_reducible apply KeepsOut.next) | (with_reducible exact KeepsOut.fault) | split | (dsimp only)

theorem execRingCfgWrite_keeps {role : Byte} {strb : Byte} {p : Fin 16} {r : Byte} {v : W64} {s : State} (h0 : Keeps s₀ s) :
    KeepsOut s₀ (execRingCfgWrite role strb p r v s) := by
  unfold execRingCfgWrite
  repeat' first
    | (with_reducible intro _) | (with_reducible assumption)
    | (with_reducible apply State.ringWrite_keeps)
    | (with_reducible apply KeepsOut.next) | (with_reducible exact KeepsOut.fault) | split | (dsimp only)

theorem execRingRdWrite_keeps {role : Byte} {strb : Byte} {p : Fin 16} {r : Byte} {v : W64} {s : State} (h0 : Keeps s₀ s) :
    KeepsOut s₀ (execRingRdWrite role strb p r v s) := by
  unfold execRingRdWrite
  repeat' first
    | (with_reducible intro _) | (with_reducible assumption)
    | (with_reducible apply State.ringWrite_keeps)
    | (with_reducible apply KeepsOut.next) | (with_reducible exact KeepsOut.fault) | split | (dsimp only)

theorem execOvfCtlFree_keeps {role : Byte} {strb : Byte} {d : DieId} {v : W64} {s : State} (h0 : Keeps s₀ s) :
    KeepsOut s₀ (execOvfCtlFree role strb d v s) := by
  unfold execOvfCtlFree
  repeat' first
    | (with_reducible intro _) | (with_reducible assumption)
    | (with_reducible apply State.ovfFree_keeps)
    | (with_reducible apply KeepsOut.next) | (with_reducible exact KeepsOut.fault) | split | (dsimp only)

theorem execRegisterWrite_keeps {d : DieId} {role : Byte} {strb : Byte} {off : BitVec 28} {v : W64} {s : State} (h0 : Keeps s₀ s) :
    KeepsOut s₀ (execRegisterWrite d role strb off v s) := by
  unfold execRegisterWrite
  repeat' first
    | (with_reducible intro _) | (with_reducible assumption)
    | (with_reducible apply onDie_keeps)
    | (with_reducible apply State.registerWrite_keeps)
    | (with_reducible apply KeepsOut.next) | (with_reducible exact KeepsOut.fault) | split | (dsimp only)

theorem execTimebaseRisingEdge_keeps {d : DieId} {s : State} (h0 : Keeps s₀ s) :
    KeepsOut s₀ (execTimebaseRisingEdge d s) := by
  unfold execTimebaseRisingEdge
  repeat' first
    | (with_reducible intro _) | (with_reducible assumption)
    | (with_reducible apply onDie_keeps)
    | (with_reducible apply State.edge_keeps)
    | (with_reducible apply KeepsOut.next) | (with_reducible exact KeepsOut.fault) | split | (dsimp only)

theorem execRegisterRead_keeps {d : DieId} {role : Byte} {off : BitVec 28} {s : State} (h0 : Keeps s₀ s) :
    KeepsOut s₀ (execRegisterRead d role off s) := by
  unfold execRegisterRead
  repeat' first
    | (with_reducible intro _) | (with_reducible assumption)
    | (with_reducible apply onDie_keeps)
    | (with_reducible apply State.registerRead_keeps)
    | (with_reducible apply KeepsOut.next) | (with_reducible exact KeepsOut.fault) | split | (dsimp only)

theorem execRxDrop_keeps {d : DieId} {frame : List Byte} {s : State} (h0 : Keeps s₀ s) :
    KeepsOut s₀ (execRxDrop d frame s) := by
  unfold execRxDrop
  repeat' first
    | (with_reducible intro _) | (with_reducible assumption)
    | (with_reducible apply onDie_keeps)
    | (with_reducible apply State.rxDrop_keeps)
    | (with_reducible apply KeepsOut.next) | (with_reducible exact KeepsOut.fault) | split | (dsimp only)

theorem execPool1Result_keeps {m : Nat} {s : State} (h0 : Keeps s₀ s) :
    KeepsOut s₀ (execPool1Result m s) := by
  unfold execPool1Result
  repeat' first
    | (with_reducible intro _) | (with_reducible assumption)
    | (with_reducible apply State.pool1Result_keeps)
    | (with_reducible apply KeepsOut.next) | (with_reducible exact KeepsOut.fault) | split | (dsimp only)

theorem execFenceSignalResult_keeps {n : Nat} {s : State} (h0 : Keeps s₀ s) :
    KeepsOut s₀ (execFenceSignalResult n s) := by
  unfold execFenceSignalResult
  repeat' first
    | (with_reducible intro _) | (with_reducible assumption)
    | (with_reducible apply State.objNext_keeps)
    | (with_reducible apply State.fenceResult_keeps)
    | (with_reducible apply KeepsOut.next) | (with_reducible exact KeepsOut.fault) | split | (dsimp only)

theorem execRegionRead_keeps {d : DieId} {n : Nat} {path : Nat} {s : State} (h0 : Keeps s₀ s) :
    KeepsOut s₀ (execRegionRead d n path s) := by
  unfold execRegionRead
  repeat' first
    | (with_reducible intro _) | (with_reducible assumption)
    | (with_reducible apply onDie_keeps)
    | (with_reducible apply State.regionRead_keeps)
    | (with_reducible apply KeepsOut.next) | (with_reducible exact KeepsOut.fault) | split | (dsimp only)

end Sys2Proof.Machine
end

