-- ==== Sys2Proof/Laws/State.lean ====
section
/-!
SUPPORT. The laws of the state's updates: what each leaves alone, field by field and record by record, and that a record
reads as it was last written. No later proof unfolds an update.
-/
namespace Sys2Proof.Machine.State

/-! `setDie` writes `dies` and nothing else. -/

@[simp] theorem setDie_pending (s : State) (d : DieId) (v : Die) : (s.setDie d v).pending = s.pending := rfl
@[simp] theorem setDie_build (s : State) (d : DieId) (v : Die) : (s.setDie d v).build = s.build := rfl
@[simp] theorem setDie_straps (s : State) (d : DieId) (v : Die) : (s.setDie d v).straps = s.straps := rfl
@[simp] theorem setDie_clusters (s : State) (d : DieId) (v : Die) : (s.setDie d v).clusters = s.clusters := rfl
@[simp] theorem setDie_cores (s : State) (d : DieId) (v : Die) : (s.setDie d v).cores = s.cores := rfl
@[simp] theorem setDie_links (s : State) (d : DieId) (v : Die) : (s.setDie d v).links = s.links := rfl
@[simp] theorem setDie_stewards (s : State) (d : DieId) (v : Die) : (s.setDie d v).stewards = s.stewards := rfl
@[simp] theorem setDie_nets (s : State) (d : DieId) (v : Die) : (s.setDie d v).nets = s.nets := rfl
@[simp] theorem setDie_debugs (s : State) (d : DieId) (v : Die) : (s.setDie d v).debugs = s.debugs := rfl
@[simp] theorem setDie_monitors (s : State) (d : DieId) (v : Die) : (s.setDie d v).monitors = s.monitors := rfl
@[simp] theorem setDie_ctxs (s : State) (d : DieId) (v : Die) : (s.setDie d v).ctxs = s.ctxs := rfl
@[simp] theorem setDie_queues (s : State) (d : DieId) (v : Die) : (s.setDie d v).queues = s.queues := rfl
@[simp] theorem setDie_mos (s : State) (d : DieId) (v : Die) : (s.setDie d v).mos = s.mos := rfl
@[simp] theorem setDie_sems (s : State) (d : DieId) (v : Die) : (s.setDie d v).sems = s.sems := rfl
@[simp] theorem setDie_launches (s : State) (d : DieId) (v : Die) : (s.setDie d v).launches = s.launches := rfl
@[simp] theorem setDie_fences (s : State) (d : DieId) (v : Die) : (s.setDie d v).fences = s.fences := rfl
@[simp] theorem setDie_fenceNext (s : State) (d : DieId) (v : Die) : (s.setDie d v).fenceNext = s.fenceNext := rfl
@[simp] theorem setDie_msgs (s : State) (d : DieId) (v : Die) : (s.setDie d v).msgs = s.msgs := rfl
@[simp] theorem setDie_msgNext (s : State) (d : DieId) (v : Die) : (s.setDie d v).msgNext = s.msgNext := rfl
@[simp] theorem setDie_reqs (s : State) (d : DieId) (v : Die) : (s.setDie d v).reqs = s.reqs := rfl
@[simp] theorem setDie_reqNext (s : State) (d : DieId) (v : Die) : (s.setDie d v).reqNext = s.reqNext := rfl
@[simp] theorem setDie_ctxTbl (s : State) (d : DieId) (v : Die) : (s.setDie d v).ctxTbl = s.ctxTbl := rfl
@[simp] theorem setDie_moTbl (s : State) (d : DieId) (v : Die) : (s.setDie d v).moTbl = s.moTbl := rfl
@[simp] theorem setDie_qTbl (s : State) (d : DieId) (v : Die) : (s.setDie d v).qTbl = s.qTbl := rfl
@[simp] theorem setDie_objReq (s : State) (d : DieId) (v : Die) : (s.setDie d v).objReq = s.objReq := rfl
@[simp] theorem setDie_objHeld (s : State) (d : DieId) (v : Die) : (s.setDie d v).objHeld = s.objHeld := rfl
@[simp] theorem setDie_objOvf (s : State) (d : DieId) (v : Die) : (s.setDie d v).objOvf = s.objOvf := rfl
@[simp] theorem setDie_partRoot (s : State) (d : DieId) (v : Die) : (s.setDie d v).partRoot = s.partRoot := rfl
@[simp] theorem setDie_rootInval (s : State) (d : DieId) (v : Die) : (s.setDie d v).rootInval = s.rootInval := rfl
@[simp] theorem setDie_rings (s : State) (d : DieId) (v : Die) : (s.setDie d v).rings = s.rings := rfl
@[simp] theorem setDie_caps (s : State) (d : DieId) (v : Die) : (s.setDie d v).caps = s.caps := rfl
@[simp] theorem setDie_capFixed (s : State) (d : DieId) (v : Die) : (s.setDie d v).capFixed = s.capFixed := rfl
@[simp] theorem setDie_crown (s : State) (d : DieId) (v : Die) : (s.setDie d v).crown = s.crown := rfl
@[simp] theorem setDie_crId (s : State) (d : DieId) (v : Die) : (s.setDie d v).crId = s.crId := rfl
@[simp] theorem setDie_im (s : State) (d : DieId) (v : Die) : (s.setDie d v).im = s.im := rfl
@[simp] theorem setDie_imSent (s : State) (d : DieId) (v : Die) : (s.setDie d v).imSent = s.imSent := rfl
@[simp] theorem setDie_mem (s : State) (d : DieId) (v : Die) : (s.setDie d v).mem = s.mem := rfl
@[simp] theorem setDie_freeNext (s : State) (d : DieId) (v : Die) : (s.setDie d v).freeNext = s.freeNext := rfl
@[simp] theorem setDie_cluster_of (s : State) (d : DieId) (v : Die) (x : ClusterId) : (s.setDie d v).cluster x = s.cluster x := rfl
@[simp] theorem setDie_core_of (s : State) (d : DieId) (v : Die) (x : CoreId) : (s.setDie d v).core x = s.core x := rfl
@[simp] theorem setDie_link_of (s : State) (d : DieId) (v : Die) (x : LinkId) : (s.setDie d v).link x = s.link x := rfl
@[simp] theorem setDie_steward_of (s : State) (d : DieId) (v : Die) (x : DieId) : (s.setDie d v).steward x = s.steward x := rfl
@[simp] theorem setDie_net_of (s : State) (d : DieId) (v : Die) (x : DieId) : (s.setDie d v).net x = s.net x := rfl
@[simp] theorem setDie_debug_of (s : State) (d : DieId) (v : Die) (x : DieId) : (s.setDie d v).debug x = s.debug x := rfl
@[simp] theorem setDie_monitor_of (s : State) (d : DieId) (v : Die) (x : DieId) (i : Nat) : (s.setDie d v).monitor x i = s.monitor x i := rfl
@[simp] theorem setDie_ctx_of (s : State) (d : DieId) (v : Die) (x : Nat) : (s.setDie d v).ctx x = s.ctx x := rfl
@[simp] theorem setDie_queue_of (s : State) (d : DieId) (v : Die) (x : QueueId) : (s.setDie d v).queue x = s.queue x := rfl
@[simp] theorem setDie_mo_of (s : State) (d : DieId) (v : Die) (x : Nat) : (s.setDie d v).mo x = s.mo x := rfl
@[simp] theorem setDie_sema_of (s : State) (d : DieId) (v : Die) (x : Nat) : (s.setDie d v).sema x = s.sema x := rfl
@[simp] theorem setDie_ring_of (s : State) (d : DieId) (v : Die) (x y : Nat) : (s.setDie d v).ring x y = s.ring x y := rfl
@[simp] theorem setDie_strap_of (s : State) (d : DieId) (v : Die) (x : DieId) : (s.setDie d v).strap x = s.strap x := rfl
@[simp] theorem setDie_readByte_of (s : State) (d : DieId) (v : Die) (x : Nat) : (s.setDie d v).readByte x = s.readByte x := rfl
@[simp] theorem setDie_hasDie_of (s : State) (d : DieId) (v : Die) (x : DieId) : (s.setDie d v).hasDie x = s.hasDie x := rfl
@[simp] theorem setDie_hasCluster_of (s : State) (d : DieId) (v : Die) (x : ClusterId) : (s.setDie d v).hasCluster x = s.hasCluster x := rfl
@[simp] theorem setDie_hasCore_of (s : State) (d : DieId) (v : Die) (x : CoreId) : (s.setDie d v).hasCore x = s.hasCore x := rfl
@[simp] theorem setDie_hasArray_of (s : State) (d : DieId) (v : Die) (x : ArrayId) : (s.setDie d v).hasArray x = s.hasArray x := rfl

/-! `setCluster` writes `clusters` and nothing else. -/

@[simp] theorem setCluster_pending (s : State) (k : ClusterId) (v : Cluster) : (s.setCluster k v).pending = s.pending := rfl
@[simp] theorem setCluster_build (s : State) (k : ClusterId) (v : Cluster) : (s.setCluster k v).build = s.build := rfl
@[simp] theorem setCluster_straps (s : State) (k : ClusterId) (v : Cluster) : (s.setCluster k v).straps = s.straps := rfl
@[simp] theorem setCluster_dies (s : State) (k : ClusterId) (v : Cluster) : (s.setCluster k v).dies = s.dies := rfl
@[simp] theorem setCluster_cores (s : State) (k : ClusterId) (v : Cluster) : (s.setCluster k v).cores = s.cores := rfl
@[simp] theorem setCluster_links (s : State) (k : ClusterId) (v : Cluster) : (s.setCluster k v).links = s.links := rfl
@[simp] theorem setCluster_stewards (s : State) (k : ClusterId) (v : Cluster) : (s.setCluster k v).stewards = s.stewards := rfl
@[simp] theorem setCluster_nets (s : State) (k : ClusterId) (v : Cluster) : (s.setCluster k v).nets = s.nets := rfl
@[simp] theorem setCluster_debugs (s : State) (k : ClusterId) (v : Cluster) : (s.setCluster k v).debugs = s.debugs := rfl
@[simp] theorem setCluster_monitors (s : State) (k : ClusterId) (v : Cluster) : (s.setCluster k v).monitors = s.monitors := rfl
@[simp] theorem setCluster_ctxs (s : State) (k : ClusterId) (v : Cluster) : (s.setCluster k v).ctxs = s.ctxs := rfl
@[simp] theorem setCluster_queues (s : State) (k : ClusterId) (v : Cluster) : (s.setCluster k v).queues = s.queues := rfl
@[simp] theorem setCluster_mos (s : State) (k : ClusterId) (v : Cluster) : (s.setCluster k v).mos = s.mos := rfl
@[simp] theorem setCluster_sems (s : State) (k : ClusterId) (v : Cluster) : (s.setCluster k v).sems = s.sems := rfl
@[simp] theorem setCluster_launches (s : State) (k : ClusterId) (v : Cluster) : (s.setCluster k v).launches = s.launches := rfl
@[simp] theorem setCluster_fences (s : State) (k : ClusterId) (v : Cluster) : (s.setCluster k v).fences = s.fences := rfl
@[simp] theorem setCluster_fenceNext (s : State) (k : ClusterId) (v : Cluster) : (s.setCluster k v).fenceNext = s.fenceNext := rfl
@[simp] theorem setCluster_msgs (s : State) (k : ClusterId) (v : Cluster) : (s.setCluster k v).msgs = s.msgs := rfl
@[simp] theorem setCluster_msgNext (s : State) (k : ClusterId) (v : Cluster) : (s.setCluster k v).msgNext = s.msgNext := rfl
@[simp] theorem setCluster_reqs (s : State) (k : ClusterId) (v : Cluster) : (s.setCluster k v).reqs = s.reqs := rfl
@[simp] theorem setCluster_reqNext (s : State) (k : ClusterId) (v : Cluster) : (s.setCluster k v).reqNext = s.reqNext := rfl
@[simp] theorem setCluster_ctxTbl (s : State) (k : ClusterId) (v : Cluster) : (s.setCluster k v).ctxTbl = s.ctxTbl := rfl
@[simp] theorem setCluster_moTbl (s : State) (k : ClusterId) (v : Cluster) : (s.setCluster k v).moTbl = s.moTbl := rfl
@[simp] theorem setCluster_qTbl (s : State) (k : ClusterId) (v : Cluster) : (s.setCluster k v).qTbl = s.qTbl := rfl
@[simp] theorem setCluster_objReq (s : State) (k : ClusterId) (v : Cluster) : (s.setCluster k v).objReq = s.objReq := rfl
@[simp] theorem setCluster_objHeld (s : State) (k : ClusterId) (v : Cluster) : (s.setCluster k v).objHeld = s.objHeld := rfl
@[simp] theorem setCluster_objOvf (s : State) (k : ClusterId) (v : Cluster) : (s.setCluster k v).objOvf = s.objOvf := rfl
@[simp] theorem setCluster_partRoot (s : State) (k : ClusterId) (v : Cluster) : (s.setCluster k v).partRoot = s.partRoot := rfl
@[simp] theorem setCluster_rootInval (s : State) (k : ClusterId) (v : Cluster) : (s.setCluster k v).rootInval = s.rootInval := rfl
@[simp] theorem setCluster_rings (s : State) (k : ClusterId) (v : Cluster) : (s.setCluster k v).rings = s.rings := rfl
@[simp] theorem setCluster_caps (s : State) (k : ClusterId) (v : Cluster) : (s.setCluster k v).caps = s.caps := rfl
@[simp] theorem setCluster_capFixed (s : State) (k : ClusterId) (v : Cluster) : (s.setCluster k v).capFixed = s.capFixed := rfl
@[simp] theorem setCluster_crown (s : State) (k : ClusterId) (v : Cluster) : (s.setCluster k v).crown = s.crown := rfl
@[simp] theorem setCluster_crId (s : State) (k : ClusterId) (v : Cluster) : (s.setCluster k v).crId = s.crId := rfl
@[simp] theorem setCluster_im (s : State) (k : ClusterId) (v : Cluster) : (s.setCluster k v).im = s.im := rfl
@[simp] theorem setCluster_imSent (s : State) (k : ClusterId) (v : Cluster) : (s.setCluster k v).imSent = s.imSent := rfl
@[simp] theorem setCluster_mem (s : State) (k : ClusterId) (v : Cluster) : (s.setCluster k v).mem = s.mem := rfl
@[simp] theorem setCluster_freeNext (s : State) (k : ClusterId) (v : Cluster) : (s.setCluster k v).freeNext = s.freeNext := rfl
@[simp] theorem setCluster_die_of (s : State) (k : ClusterId) (v : Cluster) (x : DieId) : (s.setCluster k v).die x = s.die x := rfl
@[simp] theorem setCluster_core_of (s : State) (k : ClusterId) (v : Cluster) (x : CoreId) : (s.setCluster k v).core x = s.core x := rfl
@[simp] theorem setCluster_link_of (s : State) (k : ClusterId) (v : Cluster) (x : LinkId) : (s.setCluster k v).link x = s.link x := rfl
@[simp] theorem setCluster_steward_of (s : State) (k : ClusterId) (v : Cluster) (x : DieId) : (s.setCluster k v).steward x = s.steward x := rfl
@[simp] theorem setCluster_net_of (s : State) (k : ClusterId) (v : Cluster) (x : DieId) : (s.setCluster k v).net x = s.net x := rfl
@[simp] theorem setCluster_debug_of (s : State) (k : ClusterId) (v : Cluster) (x : DieId) : (s.setCluster k v).debug x = s.debug x := rfl
@[simp] theorem setCluster_monitor_of (s : State) (k : ClusterId) (v : Cluster) (x : DieId) (i : Nat) : (s.setCluster k v).monitor x i = s.monitor x i := rfl
@[simp] theorem setCluster_ctx_of (s : State) (k : ClusterId) (v : Cluster) (x : Nat) : (s.setCluster k v).ctx x = s.ctx x := rfl
@[simp] theorem setCluster_queue_of (s : State) (k : ClusterId) (v : Cluster) (x : QueueId) : (s.setCluster k v).queue x = s.queue x := rfl
@[simp] theorem setCluster_mo_of (s : State) (k : ClusterId) (v : Cluster) (x : Nat) : (s.setCluster k v).mo x = s.mo x := rfl
@[simp] theorem setCluster_sema_of (s : State) (k : ClusterId) (v : Cluster) (x : Nat) : (s.setCluster k v).sema x = s.sema x := rfl
@[simp] theorem setCluster_ring_of (s : State) (k : ClusterId) (v : Cluster) (x y : Nat) : (s.setCluster k v).ring x y = s.ring x y := rfl
@[simp] theorem setCluster_strap_of (s : State) (k : ClusterId) (v : Cluster) (x : DieId) : (s.setCluster k v).strap x = s.strap x := rfl
@[simp] theorem setCluster_readByte_of (s : State) (k : ClusterId) (v : Cluster) (x : Nat) : (s.setCluster k v).readByte x = s.readByte x := rfl
@[simp] theorem setCluster_hasDie_of (s : State) (k : ClusterId) (v : Cluster) (x : DieId) : (s.setCluster k v).hasDie x = s.hasDie x := rfl
@[simp] theorem setCluster_hasCluster_of (s : State) (k : ClusterId) (v : Cluster) (x : ClusterId) : (s.setCluster k v).hasCluster x = s.hasCluster x := rfl
@[simp] theorem setCluster_hasCore_of (s : State) (k : ClusterId) (v : Cluster) (x : CoreId) : (s.setCluster k v).hasCore x = s.hasCore x := rfl
@[simp] theorem setCluster_hasArray_of (s : State) (k : ClusterId) (v : Cluster) (x : ArrayId) : (s.setCluster k v).hasArray x = s.hasArray x := rfl

/-! `setCore` writes `cores` and nothing else. -/

@[simp] theorem setCore_pending (s : State) (c : CoreId) (v : Core) : (s.setCore c v).pending = s.pending := rfl
@[simp] theorem setCore_build (s : State) (c : CoreId) (v : Core) : (s.setCore c v).build = s.build := rfl
@[simp] theorem setCore_straps (s : State) (c : CoreId) (v : Core) : (s.setCore c v).straps = s.straps := rfl
@[simp] theorem setCore_dies (s : State) (c : CoreId) (v : Core) : (s.setCore c v).dies = s.dies := rfl
@[simp] theorem setCore_clusters (s : State) (c : CoreId) (v : Core) : (s.setCore c v).clusters = s.clusters := rfl
@[simp] theorem setCore_links (s : State) (c : CoreId) (v : Core) : (s.setCore c v).links = s.links := rfl
@[simp] theorem setCore_stewards (s : State) (c : CoreId) (v : Core) : (s.setCore c v).stewards = s.stewards := rfl
@[simp] theorem setCore_nets (s : State) (c : CoreId) (v : Core) : (s.setCore c v).nets = s.nets := rfl
@[simp] theorem setCore_debugs (s : State) (c : CoreId) (v : Core) : (s.setCore c v).debugs = s.debugs := rfl
@[simp] theorem setCore_monitors (s : State) (c : CoreId) (v : Core) : (s.setCore c v).monitors = s.monitors := rfl
@[simp] theorem setCore_ctxs (s : State) (c : CoreId) (v : Core) : (s.setCore c v).ctxs = s.ctxs := rfl
@[simp] theorem setCore_queues (s : State) (c : CoreId) (v : Core) : (s.setCore c v).queues = s.queues := rfl
@[simp] theorem setCore_mos (s : State) (c : CoreId) (v : Core) : (s.setCore c v).mos = s.mos := rfl
@[simp] theorem setCore_sems (s : State) (c : CoreId) (v : Core) : (s.setCore c v).sems = s.sems := rfl
@[simp] theorem setCore_launches (s : State) (c : CoreId) (v : Core) : (s.setCore c v).launches = s.launches := rfl
@[simp] theorem setCore_fences (s : State) (c : CoreId) (v : Core) : (s.setCore c v).fences = s.fences := rfl
@[simp] theorem setCore_fenceNext (s : State) (c : CoreId) (v : Core) : (s.setCore c v).fenceNext = s.fenceNext := rfl
@[simp] theorem setCore_msgs (s : State) (c : CoreId) (v : Core) : (s.setCore c v).msgs = s.msgs := rfl
@[simp] theorem setCore_msgNext (s : State) (c : CoreId) (v : Core) : (s.setCore c v).msgNext = s.msgNext := rfl
@[simp] theorem setCore_reqs (s : State) (c : CoreId) (v : Core) : (s.setCore c v).reqs = s.reqs := rfl
@[simp] theorem setCore_reqNext (s : State) (c : CoreId) (v : Core) : (s.setCore c v).reqNext = s.reqNext := rfl
@[simp] theorem setCore_ctxTbl (s : State) (c : CoreId) (v : Core) : (s.setCore c v).ctxTbl = s.ctxTbl := rfl
@[simp] theorem setCore_moTbl (s : State) (c : CoreId) (v : Core) : (s.setCore c v).moTbl = s.moTbl := rfl
@[simp] theorem setCore_qTbl (s : State) (c : CoreId) (v : Core) : (s.setCore c v).qTbl = s.qTbl := rfl
@[simp] theorem setCore_objReq (s : State) (c : CoreId) (v : Core) : (s.setCore c v).objReq = s.objReq := rfl
@[simp] theorem setCore_objHeld (s : State) (c : CoreId) (v : Core) : (s.setCore c v).objHeld = s.objHeld := rfl
@[simp] theorem setCore_objOvf (s : State) (c : CoreId) (v : Core) : (s.setCore c v).objOvf = s.objOvf := rfl
@[simp] theorem setCore_partRoot (s : State) (c : CoreId) (v : Core) : (s.setCore c v).partRoot = s.partRoot := rfl
@[simp] theorem setCore_rootInval (s : State) (c : CoreId) (v : Core) : (s.setCore c v).rootInval = s.rootInval := rfl
@[simp] theorem setCore_rings (s : State) (c : CoreId) (v : Core) : (s.setCore c v).rings = s.rings := rfl
@[simp] theorem setCore_caps (s : State) (c : CoreId) (v : Core) : (s.setCore c v).caps = s.caps := rfl
@[simp] theorem setCore_capFixed (s : State) (c : CoreId) (v : Core) : (s.setCore c v).capFixed = s.capFixed := rfl
@[simp] theorem setCore_crown (s : State) (c : CoreId) (v : Core) : (s.setCore c v).crown = s.crown := rfl
@[simp] theorem setCore_crId (s : State) (c : CoreId) (v : Core) : (s.setCore c v).crId = s.crId := rfl
@[simp] theorem setCore_im (s : State) (c : CoreId) (v : Core) : (s.setCore c v).im = s.im := rfl
@[simp] theorem setCore_imSent (s : State) (c : CoreId) (v : Core) : (s.setCore c v).imSent = s.imSent := rfl
@[simp] theorem setCore_mem (s : State) (c : CoreId) (v : Core) : (s.setCore c v).mem = s.mem := rfl
@[simp] theorem setCore_freeNext (s : State) (c : CoreId) (v : Core) : (s.setCore c v).freeNext = s.freeNext := rfl
@[simp] theorem setCore_die_of (s : State) (c : CoreId) (v : Core) (x : DieId) : (s.setCore c v).die x = s.die x := rfl
@[simp] theorem setCore_cluster_of (s : State) (c : CoreId) (v : Core) (x : ClusterId) : (s.setCore c v).cluster x = s.cluster x := rfl
@[simp] theorem setCore_link_of (s : State) (c : CoreId) (v : Core) (x : LinkId) : (s.setCore c v).link x = s.link x := rfl
@[simp] theorem setCore_steward_of (s : State) (c : CoreId) (v : Core) (x : DieId) : (s.setCore c v).steward x = s.steward x := rfl
@[simp] theorem setCore_net_of (s : State) (c : CoreId) (v : Core) (x : DieId) : (s.setCore c v).net x = s.net x := rfl
@[simp] theorem setCore_debug_of (s : State) (c : CoreId) (v : Core) (x : DieId) : (s.setCore c v).debug x = s.debug x := rfl
@[simp] theorem setCore_monitor_of (s : State) (c : CoreId) (v : Core) (x : DieId) (i : Nat) : (s.setCore c v).monitor x i = s.monitor x i := rfl
@[simp] theorem setCore_ctx_of (s : State) (c : CoreId) (v : Core) (x : Nat) : (s.setCore c v).ctx x = s.ctx x := rfl
@[simp] theorem setCore_queue_of (s : State) (c : CoreId) (v : Core) (x : QueueId) : (s.setCore c v).queue x = s.queue x := rfl
@[simp] theorem setCore_mo_of (s : State) (c : CoreId) (v : Core) (x : Nat) : (s.setCore c v).mo x = s.mo x := rfl
@[simp] theorem setCore_sema_of (s : State) (c : CoreId) (v : Core) (x : Nat) : (s.setCore c v).sema x = s.sema x := rfl
@[simp] theorem setCore_ring_of (s : State) (c : CoreId) (v : Core) (x y : Nat) : (s.setCore c v).ring x y = s.ring x y := rfl
@[simp] theorem setCore_strap_of (s : State) (c : CoreId) (v : Core) (x : DieId) : (s.setCore c v).strap x = s.strap x := rfl
@[simp] theorem setCore_readByte_of (s : State) (c : CoreId) (v : Core) (x : Nat) : (s.setCore c v).readByte x = s.readByte x := rfl
@[simp] theorem setCore_hasDie_of (s : State) (c : CoreId) (v : Core) (x : DieId) : (s.setCore c v).hasDie x = s.hasDie x := rfl
@[simp] theorem setCore_hasCluster_of (s : State) (c : CoreId) (v : Core) (x : ClusterId) : (s.setCore c v).hasCluster x = s.hasCluster x := rfl
@[simp] theorem setCore_hasCore_of (s : State) (c : CoreId) (v : Core) (x : CoreId) : (s.setCore c v).hasCore x = s.hasCore x := rfl
@[simp] theorem setCore_hasArray_of (s : State) (c : CoreId) (v : Core) (x : ArrayId) : (s.setCore c v).hasArray x = s.hasArray x := rfl

/-! `setLink` writes `links` and nothing else. -/

@[simp] theorem setLink_pending (s : State) (l : LinkId) (v : Link) : (s.setLink l v).pending = s.pending := rfl
@[simp] theorem setLink_build (s : State) (l : LinkId) (v : Link) : (s.setLink l v).build = s.build := rfl
@[simp] theorem setLink_straps (s : State) (l : LinkId) (v : Link) : (s.setLink l v).straps = s.straps := rfl
@[simp] theorem setLink_dies (s : State) (l : LinkId) (v : Link) : (s.setLink l v).dies = s.dies := rfl
@[simp] theorem setLink_clusters (s : State) (l : LinkId) (v : Link) : (s.setLink l v).clusters = s.clusters := rfl
@[simp] theorem setLink_cores (s : State) (l : LinkId) (v : Link) : (s.setLink l v).cores = s.cores := rfl
@[simp] theorem setLink_stewards (s : State) (l : LinkId) (v : Link) : (s.setLink l v).stewards = s.stewards := rfl
@[simp] theorem setLink_nets (s : State) (l : LinkId) (v : Link) : (s.setLink l v).nets = s.nets := rfl
@[simp] theorem setLink_debugs (s : State) (l : LinkId) (v : Link) : (s.setLink l v).debugs = s.debugs := rfl
@[simp] theorem setLink_monitors (s : State) (l : LinkId) (v : Link) : (s.setLink l v).monitors = s.monitors := rfl
@[simp] theorem setLink_ctxs (s : State) (l : LinkId) (v : Link) : (s.setLink l v).ctxs = s.ctxs := rfl
@[simp] theorem setLink_queues (s : State) (l : LinkId) (v : Link) : (s.setLink l v).queues = s.queues := rfl
@[simp] theorem setLink_mos (s : State) (l : LinkId) (v : Link) : (s.setLink l v).mos = s.mos := rfl
@[simp] theorem setLink_sems (s : State) (l : LinkId) (v : Link) : (s.setLink l v).sems = s.sems := rfl
@[simp] theorem setLink_launches (s : State) (l : LinkId) (v : Link) : (s.setLink l v).launches = s.launches := rfl
@[simp] theorem setLink_fences (s : State) (l : LinkId) (v : Link) : (s.setLink l v).fences = s.fences := rfl
@[simp] theorem setLink_fenceNext (s : State) (l : LinkId) (v : Link) : (s.setLink l v).fenceNext = s.fenceNext := rfl
@[simp] theorem setLink_msgs (s : State) (l : LinkId) (v : Link) : (s.setLink l v).msgs = s.msgs := rfl
@[simp] theorem setLink_msgNext (s : State) (l : LinkId) (v : Link) : (s.setLink l v).msgNext = s.msgNext := rfl
@[simp] theorem setLink_reqs (s : State) (l : LinkId) (v : Link) : (s.setLink l v).reqs = s.reqs := rfl
@[simp] theorem setLink_reqNext (s : State) (l : LinkId) (v : Link) : (s.setLink l v).reqNext = s.reqNext := rfl
@[simp] theorem setLink_ctxTbl (s : State) (l : LinkId) (v : Link) : (s.setLink l v).ctxTbl = s.ctxTbl := rfl
@[simp] theorem setLink_moTbl (s : State) (l : LinkId) (v : Link) : (s.setLink l v).moTbl = s.moTbl := rfl
@[simp] theorem setLink_qTbl (s : State) (l : LinkId) (v : Link) : (s.setLink l v).qTbl = s.qTbl := rfl
@[simp] theorem setLink_objReq (s : State) (l : LinkId) (v : Link) : (s.setLink l v).objReq = s.objReq := rfl
@[simp] theorem setLink_objHeld (s : State) (l : LinkId) (v : Link) : (s.setLink l v).objHeld = s.objHeld := rfl
@[simp] theorem setLink_objOvf (s : State) (l : LinkId) (v : Link) : (s.setLink l v).objOvf = s.objOvf := rfl
@[simp] theorem setLink_partRoot (s : State) (l : LinkId) (v : Link) : (s.setLink l v).partRoot = s.partRoot := rfl
@[simp] theorem setLink_rootInval (s : State) (l : LinkId) (v : Link) : (s.setLink l v).rootInval = s.rootInval := rfl
@[simp] theorem setLink_rings (s : State) (l : LinkId) (v : Link) : (s.setLink l v).rings = s.rings := rfl
@[simp] theorem setLink_caps (s : State) (l : LinkId) (v : Link) : (s.setLink l v).caps = s.caps := rfl
@[simp] theorem setLink_capFixed (s : State) (l : LinkId) (v : Link) : (s.setLink l v).capFixed = s.capFixed := rfl
@[simp] theorem setLink_crown (s : State) (l : LinkId) (v : Link) : (s.setLink l v).crown = s.crown := rfl
@[simp] theorem setLink_crId (s : State) (l : LinkId) (v : Link) : (s.setLink l v).crId = s.crId := rfl
@[simp] theorem setLink_im (s : State) (l : LinkId) (v : Link) : (s.setLink l v).im = s.im := rfl
@[simp] theorem setLink_imSent (s : State) (l : LinkId) (v : Link) : (s.setLink l v).imSent = s.imSent := rfl
@[simp] theorem setLink_mem (s : State) (l : LinkId) (v : Link) : (s.setLink l v).mem = s.mem := rfl
@[simp] theorem setLink_freeNext (s : State) (l : LinkId) (v : Link) : (s.setLink l v).freeNext = s.freeNext := rfl
@[simp] theorem setLink_die_of (s : State) (l : LinkId) (v : Link) (x : DieId) : (s.setLink l v).die x = s.die x := rfl
@[simp] theorem setLink_cluster_of (s : State) (l : LinkId) (v : Link) (x : ClusterId) : (s.setLink l v).cluster x = s.cluster x := rfl
@[simp] theorem setLink_core_of (s : State) (l : LinkId) (v : Link) (x : CoreId) : (s.setLink l v).core x = s.core x := rfl
@[simp] theorem setLink_steward_of (s : State) (l : LinkId) (v : Link) (x : DieId) : (s.setLink l v).steward x = s.steward x := rfl
@[simp] theorem setLink_net_of (s : State) (l : LinkId) (v : Link) (x : DieId) : (s.setLink l v).net x = s.net x := rfl
@[simp] theorem setLink_debug_of (s : State) (l : LinkId) (v : Link) (x : DieId) : (s.setLink l v).debug x = s.debug x := rfl
@[simp] theorem setLink_monitor_of (s : State) (l : LinkId) (v : Link) (x : DieId) (i : Nat) : (s.setLink l v).monitor x i = s.monitor x i := rfl
@[simp] theorem setLink_ctx_of (s : State) (l : LinkId) (v : Link) (x : Nat) : (s.setLink l v).ctx x = s.ctx x := rfl
@[simp] theorem setLink_queue_of (s : State) (l : LinkId) (v : Link) (x : QueueId) : (s.setLink l v).queue x = s.queue x := rfl
@[simp] theorem setLink_mo_of (s : State) (l : LinkId) (v : Link) (x : Nat) : (s.setLink l v).mo x = s.mo x := rfl
@[simp] theorem setLink_sema_of (s : State) (l : LinkId) (v : Link) (x : Nat) : (s.setLink l v).sema x = s.sema x := rfl
@[simp] theorem setLink_ring_of (s : State) (l : LinkId) (v : Link) (x y : Nat) : (s.setLink l v).ring x y = s.ring x y := rfl
@[simp] theorem setLink_strap_of (s : State) (l : LinkId) (v : Link) (x : DieId) : (s.setLink l v).strap x = s.strap x := rfl
@[simp] theorem setLink_readByte_of (s : State) (l : LinkId) (v : Link) (x : Nat) : (s.setLink l v).readByte x = s.readByte x := rfl
@[simp] theorem setLink_hasDie_of (s : State) (l : LinkId) (v : Link) (x : DieId) : (s.setLink l v).hasDie x = s.hasDie x := rfl
@[simp] theorem setLink_hasCluster_of (s : State) (l : LinkId) (v : Link) (x : ClusterId) : (s.setLink l v).hasCluster x = s.hasCluster x := rfl
@[simp] theorem setLink_hasCore_of (s : State) (l : LinkId) (v : Link) (x : CoreId) : (s.setLink l v).hasCore x = s.hasCore x := rfl
@[simp] theorem setLink_hasArray_of (s : State) (l : LinkId) (v : Link) (x : ArrayId) : (s.setLink l v).hasArray x = s.hasArray x := rfl

/-! `setSteward` writes `stewards` and nothing else. -/

@[simp] theorem setSteward_pending (s : State) (d : DieId) (v : Steward) : (s.setSteward d v).pending = s.pending := rfl
@[simp] theorem setSteward_build (s : State) (d : DieId) (v : Steward) : (s.setSteward d v).build = s.build := rfl
@[simp] theorem setSteward_straps (s : State) (d : DieId) (v : Steward) : (s.setSteward d v).straps = s.straps := rfl
@[simp] theorem setSteward_dies (s : State) (d : DieId) (v : Steward) : (s.setSteward d v).dies = s.dies := rfl
@[simp] theorem setSteward_clusters (s : State) (d : DieId) (v : Steward) : (s.setSteward d v).clusters = s.clusters := rfl
@[simp] theorem setSteward_cores (s : State) (d : DieId) (v : Steward) : (s.setSteward d v).cores = s.cores := rfl
@[simp] theorem setSteward_links (s : State) (d : DieId) (v : Steward) : (s.setSteward d v).links = s.links := rfl
@[simp] theorem setSteward_nets (s : State) (d : DieId) (v : Steward) : (s.setSteward d v).nets = s.nets := rfl
@[simp] theorem setSteward_debugs (s : State) (d : DieId) (v : Steward) : (s.setSteward d v).debugs = s.debugs := rfl
@[simp] theorem setSteward_monitors (s : State) (d : DieId) (v : Steward) : (s.setSteward d v).monitors = s.monitors := rfl
@[simp] theorem setSteward_ctxs (s : State) (d : DieId) (v : Steward) : (s.setSteward d v).ctxs = s.ctxs := rfl
@[simp] theorem setSteward_queues (s : State) (d : DieId) (v : Steward) : (s.setSteward d v).queues = s.queues := rfl
@[simp] theorem setSteward_mos (s : State) (d : DieId) (v : Steward) : (s.setSteward d v).mos = s.mos := rfl
@[simp] theorem setSteward_sems (s : State) (d : DieId) (v : Steward) : (s.setSteward d v).sems = s.sems := rfl
@[simp] theorem setSteward_launches (s : State) (d : DieId) (v : Steward) : (s.setSteward d v).launches = s.launches := rfl
@[simp] theorem setSteward_fences (s : State) (d : DieId) (v : Steward) : (s.setSteward d v).fences = s.fences := rfl
@[simp] theorem setSteward_fenceNext (s : State) (d : DieId) (v : Steward) : (s.setSteward d v).fenceNext = s.fenceNext := rfl
@[simp] theorem setSteward_msgs (s : State) (d : DieId) (v : Steward) : (s.setSteward d v).msgs = s.msgs := rfl
@[simp] theorem setSteward_msgNext (s : State) (d : DieId) (v : Steward) : (s.setSteward d v).msgNext = s.msgNext := rfl
@[simp] theorem setSteward_reqs (s : State) (d : DieId) (v : Steward) : (s.setSteward d v).reqs = s.reqs := rfl
@[simp] theorem setSteward_reqNext (s : State) (d : DieId) (v : Steward) : (s.setSteward d v).reqNext = s.reqNext := rfl
@[simp] theorem setSteward_ctxTbl (s : State) (d : DieId) (v : Steward) : (s.setSteward d v).ctxTbl = s.ctxTbl := rfl
@[simp] theorem setSteward_moTbl (s : State) (d : DieId) (v : Steward) : (s.setSteward d v).moTbl = s.moTbl := rfl
@[simp] theorem setSteward_qTbl (s : State) (d : DieId) (v : Steward) : (s.setSteward d v).qTbl = s.qTbl := rfl
@[simp] theorem setSteward_objReq (s : State) (d : DieId) (v : Steward) : (s.setSteward d v).objReq = s.objReq := rfl
@[simp] theorem setSteward_objHeld (s : State) (d : DieId) (v : Steward) : (s.setSteward d v).objHeld = s.objHeld := rfl
@[simp] theorem setSteward_objOvf (s : State) (d : DieId) (v : Steward) : (s.setSteward d v).objOvf = s.objOvf := rfl
@[simp] theorem setSteward_partRoot (s : State) (d : DieId) (v : Steward) : (s.setSteward d v).partRoot = s.partRoot := rfl
@[simp] theorem setSteward_rootInval (s : State) (d : DieId) (v : Steward) : (s.setSteward d v).rootInval = s.rootInval := rfl
@[simp] theorem setSteward_rings (s : State) (d : DieId) (v : Steward) : (s.setSteward d v).rings = s.rings := rfl
@[simp] theorem setSteward_caps (s : State) (d : DieId) (v : Steward) : (s.setSteward d v).caps = s.caps := rfl
@[simp] theorem setSteward_capFixed (s : State) (d : DieId) (v : Steward) : (s.setSteward d v).capFixed = s.capFixed := rfl
@[simp] theorem setSteward_crown (s : State) (d : DieId) (v : Steward) : (s.setSteward d v).crown = s.crown := rfl
@[simp] theorem setSteward_crId (s : State) (d : DieId) (v : Steward) : (s.setSteward d v).crId = s.crId := rfl
@[simp] theorem setSteward_im (s : State) (d : DieId) (v : Steward) : (s.setSteward d v).im = s.im := rfl
@[simp] theorem setSteward_imSent (s : State) (d : DieId) (v : Steward) : (s.setSteward d v).imSent = s.imSent := rfl
@[simp] theorem setSteward_mem (s : State) (d : DieId) (v : Steward) : (s.setSteward d v).mem = s.mem := rfl
@[simp] theorem setSteward_freeNext (s : State) (d : DieId) (v : Steward) : (s.setSteward d v).freeNext = s.freeNext := rfl
@[simp] theorem setSteward_die_of (s : State) (d : DieId) (v : Steward) (x : DieId) : (s.setSteward d v).die x = s.die x := rfl
@[simp] theorem setSteward_cluster_of (s : State) (d : DieId) (v : Steward) (x : ClusterId) : (s.setSteward d v).cluster x = s.cluster x := rfl
@[simp] theorem setSteward_core_of (s : State) (d : DieId) (v : Steward) (x : CoreId) : (s.setSteward d v).core x = s.core x := rfl
@[simp] theorem setSteward_link_of (s : State) (d : DieId) (v : Steward) (x : LinkId) : (s.setSteward d v).link x = s.link x := rfl
@[simp] theorem setSteward_net_of (s : State) (d : DieId) (v : Steward) (x : DieId) : (s.setSteward d v).net x = s.net x := rfl
@[simp] theorem setSteward_debug_of (s : State) (d : DieId) (v : Steward) (x : DieId) : (s.setSteward d v).debug x = s.debug x := rfl
@[simp] theorem setSteward_monitor_of (s : State) (d : DieId) (v : Steward) (x : DieId) (i : Nat) : (s.setSteward d v).monitor x i = s.monitor x i := rfl
@[simp] theorem setSteward_ctx_of (s : State) (d : DieId) (v : Steward) (x : Nat) : (s.setSteward d v).ctx x = s.ctx x := rfl
@[simp] theorem setSteward_queue_of (s : State) (d : DieId) (v : Steward) (x : QueueId) : (s.setSteward d v).queue x = s.queue x := rfl
@[simp] theorem setSteward_mo_of (s : State) (d : DieId) (v : Steward) (x : Nat) : (s.setSteward d v).mo x = s.mo x := rfl
@[simp] theorem setSteward_sema_of (s : State) (d : DieId) (v : Steward) (x : Nat) : (s.setSteward d v).sema x = s.sema x := rfl
@[simp] theorem setSteward_ring_of (s : State) (d : DieId) (v : Steward) (x y : Nat) : (s.setSteward d v).ring x y = s.ring x y := rfl
@[simp] theorem setSteward_strap_of (s : State) (d : DieId) (v : Steward) (x : DieId) : (s.setSteward d v).strap x = s.strap x := rfl
@[simp] theorem setSteward_readByte_of (s : State) (d : DieId) (v : Steward) (x : Nat) : (s.setSteward d v).readByte x = s.readByte x := rfl
@[simp] theorem setSteward_hasDie_of (s : State) (d : DieId) (v : Steward) (x : DieId) : (s.setSteward d v).hasDie x = s.hasDie x := rfl
@[simp] theorem setSteward_hasCluster_of (s : State) (d : DieId) (v : Steward) (x : ClusterId) : (s.setSteward d v).hasCluster x = s.hasCluster x := rfl
@[simp] theorem setSteward_hasCore_of (s : State) (d : DieId) (v : Steward) (x : CoreId) : (s.setSteward d v).hasCore x = s.hasCore x := rfl
@[simp] theorem setSteward_hasArray_of (s : State) (d : DieId) (v : Steward) (x : ArrayId) : (s.setSteward d v).hasArray x = s.hasArray x := rfl

/-! `setNet` writes `nets` and nothing else. -/

@[simp] theorem setNet_pending (s : State) (d : DieId) (v : NetTime) : (s.setNet d v).pending = s.pending := rfl
@[simp] theorem setNet_build (s : State) (d : DieId) (v : NetTime) : (s.setNet d v).build = s.build := rfl
@[simp] theorem setNet_straps (s : State) (d : DieId) (v : NetTime) : (s.setNet d v).straps = s.straps := rfl
@[simp] theorem setNet_dies (s : State) (d : DieId) (v : NetTime) : (s.setNet d v).dies = s.dies := rfl
@[simp] theorem setNet_clusters (s : State) (d : DieId) (v : NetTime) : (s.setNet d v).clusters = s.clusters := rfl
@[simp] theorem setNet_cores (s : State) (d : DieId) (v : NetTime) : (s.setNet d v).cores = s.cores := rfl
@[simp] theorem setNet_links (s : State) (d : DieId) (v : NetTime) : (s.setNet d v).links = s.links := rfl
@[simp] theorem setNet_stewards (s : State) (d : DieId) (v : NetTime) : (s.setNet d v).stewards = s.stewards := rfl
@[simp] theorem setNet_debugs (s : State) (d : DieId) (v : NetTime) : (s.setNet d v).debugs = s.debugs := rfl
@[simp] theorem setNet_monitors (s : State) (d : DieId) (v : NetTime) : (s.setNet d v).monitors = s.monitors := rfl
@[simp] theorem setNet_ctxs (s : State) (d : DieId) (v : NetTime) : (s.setNet d v).ctxs = s.ctxs := rfl
@[simp] theorem setNet_queues (s : State) (d : DieId) (v : NetTime) : (s.setNet d v).queues = s.queues := rfl
@[simp] theorem setNet_mos (s : State) (d : DieId) (v : NetTime) : (s.setNet d v).mos = s.mos := rfl
@[simp] theorem setNet_sems (s : State) (d : DieId) (v : NetTime) : (s.setNet d v).sems = s.sems := rfl
@[simp] theorem setNet_launches (s : State) (d : DieId) (v : NetTime) : (s.setNet d v).launches = s.launches := rfl
@[simp] theorem setNet_fences (s : State) (d : DieId) (v : NetTime) : (s.setNet d v).fences = s.fences := rfl
@[simp] theorem setNet_fenceNext (s : State) (d : DieId) (v : NetTime) : (s.setNet d v).fenceNext = s.fenceNext := rfl
@[simp] theorem setNet_msgs (s : State) (d : DieId) (v : NetTime) : (s.setNet d v).msgs = s.msgs := rfl
@[simp] theorem setNet_msgNext (s : State) (d : DieId) (v : NetTime) : (s.setNet d v).msgNext = s.msgNext := rfl
@[simp] theorem setNet_reqs (s : State) (d : DieId) (v : NetTime) : (s.setNet d v).reqs = s.reqs := rfl
@[simp] theorem setNet_reqNext (s : State) (d : DieId) (v : NetTime) : (s.setNet d v).reqNext = s.reqNext := rfl
@[simp] theorem setNet_ctxTbl (s : State) (d : DieId) (v : NetTime) : (s.setNet d v).ctxTbl = s.ctxTbl := rfl
@[simp] theorem setNet_moTbl (s : State) (d : DieId) (v : NetTime) : (s.setNet d v).moTbl = s.moTbl := rfl
@[simp] theorem setNet_qTbl (s : State) (d : DieId) (v : NetTime) : (s.setNet d v).qTbl = s.qTbl := rfl
@[simp] theorem setNet_objReq (s : State) (d : DieId) (v : NetTime) : (s.setNet d v).objReq = s.objReq := rfl
@[simp] theorem setNet_objHeld (s : State) (d : DieId) (v : NetTime) : (s.setNet d v).objHeld = s.objHeld := rfl
@[simp] theorem setNet_objOvf (s : State) (d : DieId) (v : NetTime) : (s.setNet d v).objOvf = s.objOvf := rfl
@[simp] theorem setNet_partRoot (s : State) (d : DieId) (v : NetTime) : (s.setNet d v).partRoot = s.partRoot := rfl
@[simp] theorem setNet_rootInval (s : State) (d : DieId) (v : NetTime) : (s.setNet d v).rootInval = s.rootInval := rfl
@[simp] theorem setNet_rings (s : State) (d : DieId) (v : NetTime) : (s.setNet d v).rings = s.rings := rfl
@[simp] theorem setNet_caps (s : State) (d : DieId) (v : NetTime) : (s.setNet d v).caps = s.caps := rfl
@[simp] theorem setNet_capFixed (s : State) (d : DieId) (v : NetTime) : (s.setNet d v).capFixed = s.capFixed := rfl
@[simp] theorem setNet_crown (s : State) (d : DieId) (v : NetTime) : (s.setNet d v).crown = s.crown := rfl
@[simp] theorem setNet_crId (s : State) (d : DieId) (v : NetTime) : (s.setNet d v).crId = s.crId := rfl
@[simp] theorem setNet_im (s : State) (d : DieId) (v : NetTime) : (s.setNet d v).im = s.im := rfl
@[simp] theorem setNet_imSent (s : State) (d : DieId) (v : NetTime) : (s.setNet d v).imSent = s.imSent := rfl
@[simp] theorem setNet_mem (s : State) (d : DieId) (v : NetTime) : (s.setNet d v).mem = s.mem := rfl
@[simp] theorem setNet_freeNext (s : State) (d : DieId) (v : NetTime) : (s.setNet d v).freeNext = s.freeNext := rfl
@[simp] theorem setNet_die_of (s : State) (d : DieId) (v : NetTime) (x : DieId) : (s.setNet d v).die x = s.die x := rfl
@[simp] theorem setNet_cluster_of (s : State) (d : DieId) (v : NetTime) (x : ClusterId) : (s.setNet d v).cluster x = s.cluster x := rfl
@[simp] theorem setNet_core_of (s : State) (d : DieId) (v : NetTime) (x : CoreId) : (s.setNet d v).core x = s.core x := rfl
@[simp] theorem setNet_link_of (s : State) (d : DieId) (v : NetTime) (x : LinkId) : (s.setNet d v).link x = s.link x := rfl
@[simp] theorem setNet_steward_of (s : State) (d : DieId) (v : NetTime) (x : DieId) : (s.setNet d v).steward x = s.steward x := rfl
@[simp] theorem setNet_debug_of (s : State) (d : DieId) (v : NetTime) (x : DieId) : (s.setNet d v).debug x = s.debug x := rfl
@[simp] theorem setNet_monitor_of (s : State) (d : DieId) (v : NetTime) (x : DieId) (i : Nat) : (s.setNet d v).monitor x i = s.monitor x i := rfl
@[simp] theorem setNet_ctx_of (s : State) (d : DieId) (v : NetTime) (x : Nat) : (s.setNet d v).ctx x = s.ctx x := rfl
@[simp] theorem setNet_queue_of (s : State) (d : DieId) (v : NetTime) (x : QueueId) : (s.setNet d v).queue x = s.queue x := rfl
@[simp] theorem setNet_mo_of (s : State) (d : DieId) (v : NetTime) (x : Nat) : (s.setNet d v).mo x = s.mo x := rfl
@[simp] theorem setNet_sema_of (s : State) (d : DieId) (v : NetTime) (x : Nat) : (s.setNet d v).sema x = s.sema x := rfl
@[simp] theorem setNet_ring_of (s : State) (d : DieId) (v : NetTime) (x y : Nat) : (s.setNet d v).ring x y = s.ring x y := rfl
@[simp] theorem setNet_strap_of (s : State) (d : DieId) (v : NetTime) (x : DieId) : (s.setNet d v).strap x = s.strap x := rfl
@[simp] theorem setNet_readByte_of (s : State) (d : DieId) (v : NetTime) (x : Nat) : (s.setNet d v).readByte x = s.readByte x := rfl
@[simp] theorem setNet_hasDie_of (s : State) (d : DieId) (v : NetTime) (x : DieId) : (s.setNet d v).hasDie x = s.hasDie x := rfl
@[simp] theorem setNet_hasCluster_of (s : State) (d : DieId) (v : NetTime) (x : ClusterId) : (s.setNet d v).hasCluster x = s.hasCluster x := rfl
@[simp] theorem setNet_hasCore_of (s : State) (d : DieId) (v : NetTime) (x : CoreId) : (s.setNet d v).hasCore x = s.hasCore x := rfl
@[simp] theorem setNet_hasArray_of (s : State) (d : DieId) (v : NetTime) (x : ArrayId) : (s.setNet d v).hasArray x = s.hasArray x := rfl

/-! `setDebug` writes `debugs` and nothing else. -/

@[simp] theorem setDebug_pending (s : State) (d : DieId) (v : Debug) : (s.setDebug d v).pending = s.pending := rfl
@[simp] theorem setDebug_build (s : State) (d : DieId) (v : Debug) : (s.setDebug d v).build = s.build := rfl
@[simp] theorem setDebug_straps (s : State) (d : DieId) (v : Debug) : (s.setDebug d v).straps = s.straps := rfl
@[simp] theorem setDebug_dies (s : State) (d : DieId) (v : Debug) : (s.setDebug d v).dies = s.dies := rfl
@[simp] theorem setDebug_clusters (s : State) (d : DieId) (v : Debug) : (s.setDebug d v).clusters = s.clusters := rfl
@[simp] theorem setDebug_cores (s : State) (d : DieId) (v : Debug) : (s.setDebug d v).cores = s.cores := rfl
@[simp] theorem setDebug_links (s : State) (d : DieId) (v : Debug) : (s.setDebug d v).links = s.links := rfl
@[simp] theorem setDebug_stewards (s : State) (d : DieId) (v : Debug) : (s.setDebug d v).stewards = s.stewards := rfl
@[simp] theorem setDebug_nets (s : State) (d : DieId) (v : Debug) : (s.setDebug d v).nets = s.nets := rfl
@[simp] theorem setDebug_monitors (s : State) (d : DieId) (v : Debug) : (s.setDebug d v).monitors = s.monitors := rfl
@[simp] theorem setDebug_ctxs (s : State) (d : DieId) (v : Debug) : (s.setDebug d v).ctxs = s.ctxs := rfl
@[simp] theorem setDebug_queues (s : State) (d : DieId) (v : Debug) : (s.setDebug d v).queues = s.queues := rfl
@[simp] theorem setDebug_mos (s : State) (d : DieId) (v : Debug) : (s.setDebug d v).mos = s.mos := rfl
@[simp] theorem setDebug_sems (s : State) (d : DieId) (v : Debug) : (s.setDebug d v).sems = s.sems := rfl
@[simp] theorem setDebug_launches (s : State) (d : DieId) (v : Debug) : (s.setDebug d v).launches = s.launches := rfl
@[simp] theorem setDebug_fences (s : State) (d : DieId) (v : Debug) : (s.setDebug d v).fences = s.fences := rfl
@[simp] theorem setDebug_fenceNext (s : State) (d : DieId) (v : Debug) : (s.setDebug d v).fenceNext = s.fenceNext := rfl
@[simp] theorem setDebug_msgs (s : State) (d : DieId) (v : Debug) : (s.setDebug d v).msgs = s.msgs := rfl
@[simp] theorem setDebug_msgNext (s : State) (d : DieId) (v : Debug) : (s.setDebug d v).msgNext = s.msgNext := rfl
@[simp] theorem setDebug_reqs (s : State) (d : DieId) (v : Debug) : (s.setDebug d v).reqs = s.reqs := rfl
@[simp] theorem setDebug_reqNext (s : State) (d : DieId) (v : Debug) : (s.setDebug d v).reqNext = s.reqNext := rfl
@[simp] theorem setDebug_ctxTbl (s : State) (d : DieId) (v : Debug) : (s.setDebug d v).ctxTbl = s.ctxTbl := rfl
@[simp] theorem setDebug_moTbl (s : State) (d : DieId) (v : Debug) : (s.setDebug d v).moTbl = s.moTbl := rfl
@[simp] theorem setDebug_qTbl (s : State) (d : DieId) (v : Debug) : (s.setDebug d v).qTbl = s.qTbl := rfl
@[simp] theorem setDebug_objReq (s : State) (d : DieId) (v : Debug) : (s.setDebug d v).objReq = s.objReq := rfl
@[simp] theorem setDebug_objHeld (s : State) (d : DieId) (v : Debug) : (s.setDebug d v).objHeld = s.objHeld := rfl
@[simp] theorem setDebug_objOvf (s : State) (d : DieId) (v : Debug) : (s.setDebug d v).objOvf = s.objOvf := rfl
@[simp] theorem setDebug_partRoot (s : State) (d : DieId) (v : Debug) : (s.setDebug d v).partRoot = s.partRoot := rfl
@[simp] theorem setDebug_rootInval (s : State) (d : DieId) (v : Debug) : (s.setDebug d v).rootInval = s.rootInval := rfl
@[simp] theorem setDebug_rings (s : State) (d : DieId) (v : Debug) : (s.setDebug d v).rings = s.rings := rfl
@[simp] theorem setDebug_caps (s : State) (d : DieId) (v : Debug) : (s.setDebug d v).caps = s.caps := rfl
@[simp] theorem setDebug_capFixed (s : State) (d : DieId) (v : Debug) : (s.setDebug d v).capFixed = s.capFixed := rfl
@[simp] theorem setDebug_crown (s : State) (d : DieId) (v : Debug) : (s.setDebug d v).crown = s.crown := rfl
@[simp] theorem setDebug_crId (s : State) (d : DieId) (v : Debug) : (s.setDebug d v).crId = s.crId := rfl
@[simp] theorem setDebug_im (s : State) (d : DieId) (v : Debug) : (s.setDebug d v).im = s.im := rfl
@[simp] theorem setDebug_imSent (s : State) (d : DieId) (v : Debug) : (s.setDebug d v).imSent = s.imSent := rfl
@[simp] theorem setDebug_mem (s : State) (d : DieId) (v : Debug) : (s.setDebug d v).mem = s.mem := rfl
@[simp] theorem setDebug_freeNext (s : State) (d : DieId) (v : Debug) : (s.setDebug d v).freeNext = s.freeNext := rfl
@[simp] theorem setDebug_die_of (s : State) (d : DieId) (v : Debug) (x : DieId) : (s.setDebug d v).die x = s.die x := rfl
@[simp] theorem setDebug_cluster_of (s : State) (d : DieId) (v : Debug) (x : ClusterId) : (s.setDebug d v).cluster x = s.cluster x := rfl
@[simp] theorem setDebug_core_of (s : State) (d : DieId) (v : Debug) (x : CoreId) : (s.setDebug d v).core x = s.core x := rfl
@[simp] theorem setDebug_link_of (s : State) (d : DieId) (v : Debug) (x : LinkId) : (s.setDebug d v).link x = s.link x := rfl
@[simp] theorem setDebug_steward_of (s : State) (d : DieId) (v : Debug) (x : DieId) : (s.setDebug d v).steward x = s.steward x := rfl
@[simp] theorem setDebug_net_of (s : State) (d : DieId) (v : Debug) (x : DieId) : (s.setDebug d v).net x = s.net x := rfl
@[simp] theorem setDebug_monitor_of (s : State) (d : DieId) (v : Debug) (x : DieId) (i : Nat) : (s.setDebug d v).monitor x i = s.monitor x i := rfl
@[simp] theorem setDebug_ctx_of (s : State) (d : DieId) (v : Debug) (x : Nat) : (s.setDebug d v).ctx x = s.ctx x := rfl
@[simp] theorem setDebug_queue_of (s : State) (d : DieId) (v : Debug) (x : QueueId) : (s.setDebug d v).queue x = s.queue x := rfl
@[simp] theorem setDebug_mo_of (s : State) (d : DieId) (v : Debug) (x : Nat) : (s.setDebug d v).mo x = s.mo x := rfl
@[simp] theorem setDebug_sema_of (s : State) (d : DieId) (v : Debug) (x : Nat) : (s.setDebug d v).sema x = s.sema x := rfl
@[simp] theorem setDebug_ring_of (s : State) (d : DieId) (v : Debug) (x y : Nat) : (s.setDebug d v).ring x y = s.ring x y := rfl
@[simp] theorem setDebug_strap_of (s : State) (d : DieId) (v : Debug) (x : DieId) : (s.setDebug d v).strap x = s.strap x := rfl
@[simp] theorem setDebug_readByte_of (s : State) (d : DieId) (v : Debug) (x : Nat) : (s.setDebug d v).readByte x = s.readByte x := rfl
@[simp] theorem setDebug_hasDie_of (s : State) (d : DieId) (v : Debug) (x : DieId) : (s.setDebug d v).hasDie x = s.hasDie x := rfl
@[simp] theorem setDebug_hasCluster_of (s : State) (d : DieId) (v : Debug) (x : ClusterId) : (s.setDebug d v).hasCluster x = s.hasCluster x := rfl
@[simp] theorem setDebug_hasCore_of (s : State) (d : DieId) (v : Debug) (x : CoreId) : (s.setDebug d v).hasCore x = s.hasCore x := rfl
@[simp] theorem setDebug_hasArray_of (s : State) (d : DieId) (v : Debug) (x : ArrayId) : (s.setDebug d v).hasArray x = s.hasArray x := rfl

/-! `setMonitor` writes `monitors` and nothing else. -/

@[simp] theorem setMonitor_pending (s : State) (d : DieId) (m : Nat) (v : Monitor) : (s.setMonitor d m v).pending = s.pending := rfl
@[simp] theorem setMonitor_build (s : State) (d : DieId) (m : Nat) (v : Monitor) : (s.setMonitor d m v).build = s.build := rfl
@[simp] theorem setMonitor_straps (s : State) (d : DieId) (m : Nat) (v : Monitor) : (s.setMonitor d m v).straps = s.straps := rfl
@[simp] theorem setMonitor_dies (s : State) (d : DieId) (m : Nat) (v : Monitor) : (s.setMonitor d m v).dies = s.dies := rfl
@[simp] theorem setMonitor_clusters (s : State) (d : DieId) (m : Nat) (v : Monitor) : (s.setMonitor d m v).clusters = s.clusters := rfl
@[simp] theorem setMonitor_cores (s : State) (d : DieId) (m : Nat) (v : Monitor) : (s.setMonitor d m v).cores = s.cores := rfl
@[simp] theorem setMonitor_links (s : State) (d : DieId) (m : Nat) (v : Monitor) : (s.setMonitor d m v).links = s.links := rfl
@[simp] theorem setMonitor_stewards (s : State) (d : DieId) (m : Nat) (v : Monitor) : (s.setMonitor d m v).stewards = s.stewards := rfl
@[simp] theorem setMonitor_nets (s : State) (d : DieId) (m : Nat) (v : Monitor) : (s.setMonitor d m v).nets = s.nets := rfl
@[simp] theorem setMonitor_debugs (s : State) (d : DieId) (m : Nat) (v : Monitor) : (s.setMonitor d m v).debugs = s.debugs := rfl
@[simp] theorem setMonitor_ctxs (s : State) (d : DieId) (m : Nat) (v : Monitor) : (s.setMonitor d m v).ctxs = s.ctxs := rfl
@[simp] theorem setMonitor_queues (s : State) (d : DieId) (m : Nat) (v : Monitor) : (s.setMonitor d m v).queues = s.queues := rfl
@[simp] theorem setMonitor_mos (s : State) (d : DieId) (m : Nat) (v : Monitor) : (s.setMonitor d m v).mos = s.mos := rfl
@[simp] theorem setMonitor_sems (s : State) (d : DieId) (m : Nat) (v : Monitor) : (s.setMonitor d m v).sems = s.sems := rfl
@[simp] theorem setMonitor_launches (s : State) (d : DieId) (m : Nat) (v : Monitor) : (s.setMonitor d m v).launches = s.launches := rfl
@[simp] theorem setMonitor_fences (s : State) (d : DieId) (m : Nat) (v : Monitor) : (s.setMonitor d m v).fences = s.fences := rfl
@[simp] theorem setMonitor_fenceNext (s : State) (d : DieId) (m : Nat) (v : Monitor) : (s.setMonitor d m v).fenceNext = s.fenceNext := rfl
@[simp] theorem setMonitor_msgs (s : State) (d : DieId) (m : Nat) (v : Monitor) : (s.setMonitor d m v).msgs = s.msgs := rfl
@[simp] theorem setMonitor_msgNext (s : State) (d : DieId) (m : Nat) (v : Monitor) : (s.setMonitor d m v).msgNext = s.msgNext := rfl
@[simp] theorem setMonitor_reqs (s : State) (d : DieId) (m : Nat) (v : Monitor) : (s.setMonitor d m v).reqs = s.reqs := rfl
@[simp] theorem setMonitor_reqNext (s : State) (d : DieId) (m : Nat) (v : Monitor) : (s.setMonitor d m v).reqNext = s.reqNext := rfl
@[simp] theorem setMonitor_ctxTbl (s : State) (d : DieId) (m : Nat) (v : Monitor) : (s.setMonitor d m v).ctxTbl = s.ctxTbl := rfl
@[simp] theorem setMonitor_moTbl (s : State) (d : DieId) (m : Nat) (v : Monitor) : (s.setMonitor d m v).moTbl = s.moTbl := rfl
@[simp] theorem setMonitor_qTbl (s : State) (d : DieId) (m : Nat) (v : Monitor) : (s.setMonitor d m v).qTbl = s.qTbl := rfl
@[simp] theorem setMonitor_objReq (s : State) (d : DieId) (m : Nat) (v : Monitor) : (s.setMonitor d m v).objReq = s.objReq := rfl
@[simp] theorem setMonitor_objHeld (s : State) (d : DieId) (m : Nat) (v : Monitor) : (s.setMonitor d m v).objHeld = s.objHeld := rfl
@[simp] theorem setMonitor_objOvf (s : State) (d : DieId) (m : Nat) (v : Monitor) : (s.setMonitor d m v).objOvf = s.objOvf := rfl
@[simp] theorem setMonitor_partRoot (s : State) (d : DieId) (m : Nat) (v : Monitor) : (s.setMonitor d m v).partRoot = s.partRoot := rfl
@[simp] theorem setMonitor_rootInval (s : State) (d : DieId) (m : Nat) (v : Monitor) : (s.setMonitor d m v).rootInval = s.rootInval := rfl
@[simp] theorem setMonitor_rings (s : State) (d : DieId) (m : Nat) (v : Monitor) : (s.setMonitor d m v).rings = s.rings := rfl
@[simp] theorem setMonitor_caps (s : State) (d : DieId) (m : Nat) (v : Monitor) : (s.setMonitor d m v).caps = s.caps := rfl
@[simp] theorem setMonitor_capFixed (s : State) (d : DieId) (m : Nat) (v : Monitor) : (s.setMonitor d m v).capFixed = s.capFixed := rfl
@[simp] theorem setMonitor_crown (s : State) (d : DieId) (m : Nat) (v : Monitor) : (s.setMonitor d m v).crown = s.crown := rfl
@[simp] theorem setMonitor_crId (s : State) (d : DieId) (m : Nat) (v : Monitor) : (s.setMonitor d m v).crId = s.crId := rfl
@[simp] theorem setMonitor_im (s : State) (d : DieId) (m : Nat) (v : Monitor) : (s.setMonitor d m v).im = s.im := rfl
@[simp] theorem setMonitor_imSent (s : State) (d : DieId) (m : Nat) (v : Monitor) : (s.setMonitor d m v).imSent = s.imSent := rfl
@[simp] theorem setMonitor_mem (s : State) (d : DieId) (m : Nat) (v : Monitor) : (s.setMonitor d m v).mem = s.mem := rfl
@[simp] theorem setMonitor_freeNext (s : State) (d : DieId) (m : Nat) (v : Monitor) : (s.setMonitor d m v).freeNext = s.freeNext := rfl
@[simp] theorem setMonitor_die_of (s : State) (d : DieId) (m : Nat) (v : Monitor) (x : DieId) : (s.setMonitor d m v).die x = s.die x := rfl
@[simp] theorem setMonitor_cluster_of (s : State) (d : DieId) (m : Nat) (v : Monitor) (x : ClusterId) : (s.setMonitor d m v).cluster x = s.cluster x := rfl
@[simp] theorem setMonitor_core_of (s : State) (d : DieId) (m : Nat) (v : Monitor) (x : CoreId) : (s.setMonitor d m v).core x = s.core x := rfl
@[simp] theorem setMonitor_link_of (s : State) (d : DieId) (m : Nat) (v : Monitor) (x : LinkId) : (s.setMonitor d m v).link x = s.link x := rfl
@[simp] theorem setMonitor_steward_of (s : State) (d : DieId) (m : Nat) (v : Monitor) (x : DieId) : (s.setMonitor d m v).steward x = s.steward x := rfl
@[simp] theorem setMonitor_net_of (s : State) (d : DieId) (m : Nat) (v : Monitor) (x : DieId) : (s.setMonitor d m v).net x = s.net x := rfl
@[simp] theorem setMonitor_debug_of (s : State) (d : DieId) (m : Nat) (v : Monitor) (x : DieId) : (s.setMonitor d m v).debug x = s.debug x := rfl
@[simp] theorem setMonitor_ctx_of (s : State) (d : DieId) (m : Nat) (v : Monitor) (x : Nat) : (s.setMonitor d m v).ctx x = s.ctx x := rfl
@[simp] theorem setMonitor_queue_of (s : State) (d : DieId) (m : Nat) (v : Monitor) (x : QueueId) : (s.setMonitor d m v).queue x = s.queue x := rfl
@[simp] theorem setMonitor_mo_of (s : State) (d : DieId) (m : Nat) (v : Monitor) (x : Nat) : (s.setMonitor d m v).mo x = s.mo x := rfl
@[simp] theorem setMonitor_sema_of (s : State) (d : DieId) (m : Nat) (v : Monitor) (x : Nat) : (s.setMonitor d m v).sema x = s.sema x := rfl
@[simp] theorem setMonitor_ring_of (s : State) (d : DieId) (m : Nat) (v : Monitor) (x y : Nat) : (s.setMonitor d m v).ring x y = s.ring x y := rfl
@[simp] theorem setMonitor_strap_of (s : State) (d : DieId) (m : Nat) (v : Monitor) (x : DieId) : (s.setMonitor d m v).strap x = s.strap x := rfl
@[simp] theorem setMonitor_readByte_of (s : State) (d : DieId) (m : Nat) (v : Monitor) (x : Nat) : (s.setMonitor d m v).readByte x = s.readByte x := rfl
@[simp] theorem setMonitor_hasDie_of (s : State) (d : DieId) (m : Nat) (v : Monitor) (x : DieId) : (s.setMonitor d m v).hasDie x = s.hasDie x := rfl
@[simp] theorem setMonitor_hasCluster_of (s : State) (d : DieId) (m : Nat) (v : Monitor) (x : ClusterId) : (s.setMonitor d m v).hasCluster x = s.hasCluster x := rfl
@[simp] theorem setMonitor_hasCore_of (s : State) (d : DieId) (m : Nat) (v : Monitor) (x : CoreId) : (s.setMonitor d m v).hasCore x = s.hasCore x := rfl
@[simp] theorem setMonitor_hasArray_of (s : State) (d : DieId) (m : Nat) (v : Monitor) (x : ArrayId) : (s.setMonitor d m v).hasArray x = s.hasArray x := rfl

/-! `setCtx` writes `ctxs` and nothing else. -/

@[simp] theorem setCtx_pending (s : State) (n : Nat) (v : Ctx) : (s.setCtx n v).pending = s.pending := rfl
@[simp] theorem setCtx_build (s : State) (n : Nat) (v : Ctx) : (s.setCtx n v).build = s.build := rfl
@[simp] theorem setCtx_straps (s : State) (n : Nat) (v : Ctx) : (s.setCtx n v).straps = s.straps := rfl
@[simp] theorem setCtx_dies (s : State) (n : Nat) (v : Ctx) : (s.setCtx n v).dies = s.dies := rfl
@[simp] theorem setCtx_clusters (s : State) (n : Nat) (v : Ctx) : (s.setCtx n v).clusters = s.clusters := rfl
@[simp] theorem setCtx_cores (s : State) (n : Nat) (v : Ctx) : (s.setCtx n v).cores = s.cores := rfl
@[simp] theorem setCtx_links (s : State) (n : Nat) (v : Ctx) : (s.setCtx n v).links = s.links := rfl
@[simp] theorem setCtx_stewards (s : State) (n : Nat) (v : Ctx) : (s.setCtx n v).stewards = s.stewards := rfl
@[simp] theorem setCtx_nets (s : State) (n : Nat) (v : Ctx) : (s.setCtx n v).nets = s.nets := rfl
@[simp] theorem setCtx_debugs (s : State) (n : Nat) (v : Ctx) : (s.setCtx n v).debugs = s.debugs := rfl
@[simp] theorem setCtx_monitors (s : State) (n : Nat) (v : Ctx) : (s.setCtx n v).monitors = s.monitors := rfl
@[simp] theorem setCtx_queues (s : State) (n : Nat) (v : Ctx) : (s.setCtx n v).queues = s.queues := rfl
@[simp] theorem setCtx_mos (s : State) (n : Nat) (v : Ctx) : (s.setCtx n v).mos = s.mos := rfl
@[simp] theorem setCtx_sems (s : State) (n : Nat) (v : Ctx) : (s.setCtx n v).sems = s.sems := rfl
@[simp] theorem setCtx_launches (s : State) (n : Nat) (v : Ctx) : (s.setCtx n v).launches = s.launches := rfl
@[simp] theorem setCtx_fences (s : State) (n : Nat) (v : Ctx) : (s.setCtx n v).fences = s.fences := rfl
@[simp] theorem setCtx_fenceNext (s : State) (n : Nat) (v : Ctx) : (s.setCtx n v).fenceNext = s.fenceNext := rfl
@[simp] theorem setCtx_msgs (s : State) (n : Nat) (v : Ctx) : (s.setCtx n v).msgs = s.msgs := rfl
@[simp] theorem setCtx_msgNext (s : State) (n : Nat) (v : Ctx) : (s.setCtx n v).msgNext = s.msgNext := rfl
@[simp] theorem setCtx_reqs (s : State) (n : Nat) (v : Ctx) : (s.setCtx n v).reqs = s.reqs := rfl
@[simp] theorem setCtx_reqNext (s : State) (n : Nat) (v : Ctx) : (s.setCtx n v).reqNext = s.reqNext := rfl
@[simp] theorem setCtx_ctxTbl (s : State) (n : Nat) (v : Ctx) : (s.setCtx n v).ctxTbl = s.ctxTbl := rfl
@[simp] theorem setCtx_moTbl (s : State) (n : Nat) (v : Ctx) : (s.setCtx n v).moTbl = s.moTbl := rfl
@[simp] theorem setCtx_qTbl (s : State) (n : Nat) (v : Ctx) : (s.setCtx n v).qTbl = s.qTbl := rfl
@[simp] theorem setCtx_objReq (s : State) (n : Nat) (v : Ctx) : (s.setCtx n v).objReq = s.objReq := rfl
@[simp] theorem setCtx_objHeld (s : State) (n : Nat) (v : Ctx) : (s.setCtx n v).objHeld = s.objHeld := rfl
@[simp] theorem setCtx_objOvf (s : State) (n : Nat) (v : Ctx) : (s.setCtx n v).objOvf = s.objOvf := rfl
@[simp] theorem setCtx_partRoot (s : State) (n : Nat) (v : Ctx) : (s.setCtx n v).partRoot = s.partRoot := rfl
@[simp] theorem setCtx_rootInval (s : State) (n : Nat) (v : Ctx) : (s.setCtx n v).rootInval = s.rootInval := rfl
@[simp] theorem setCtx_rings (s : State) (n : Nat) (v : Ctx) : (s.setCtx n v).rings = s.rings := rfl
@[simp] theorem setCtx_caps (s : State) (n : Nat) (v : Ctx) : (s.setCtx n v).caps = s.caps := rfl
@[simp] theorem setCtx_capFixed (s : State) (n : Nat) (v : Ctx) : (s.setCtx n v).capFixed = s.capFixed := rfl
@[simp] theorem setCtx_crown (s : State) (n : Nat) (v : Ctx) : (s.setCtx n v).crown = s.crown := rfl
@[simp] theorem setCtx_crId (s : State) (n : Nat) (v : Ctx) : (s.setCtx n v).crId = s.crId := rfl
@[simp] theorem setCtx_im (s : State) (n : Nat) (v : Ctx) : (s.setCtx n v).im = s.im := rfl
@[simp] theorem setCtx_imSent (s : State) (n : Nat) (v : Ctx) : (s.setCtx n v).imSent = s.imSent := rfl
@[simp] theorem setCtx_mem (s : State) (n : Nat) (v : Ctx) : (s.setCtx n v).mem = s.mem := rfl
@[simp] theorem setCtx_freeNext (s : State) (n : Nat) (v : Ctx) : (s.setCtx n v).freeNext = s.freeNext := rfl
@[simp] theorem setCtx_die_of (s : State) (n : Nat) (v : Ctx) (x : DieId) : (s.setCtx n v).die x = s.die x := rfl
@[simp] theorem setCtx_cluster_of (s : State) (n : Nat) (v : Ctx) (x : ClusterId) : (s.setCtx n v).cluster x = s.cluster x := rfl
@[simp] theorem setCtx_core_of (s : State) (n : Nat) (v : Ctx) (x : CoreId) : (s.setCtx n v).core x = s.core x := rfl
@[simp] theorem setCtx_link_of (s : State) (n : Nat) (v : Ctx) (x : LinkId) : (s.setCtx n v).link x = s.link x := rfl
@[simp] theorem setCtx_steward_of (s : State) (n : Nat) (v : Ctx) (x : DieId) : (s.setCtx n v).steward x = s.steward x := rfl
@[simp] theorem setCtx_net_of (s : State) (n : Nat) (v : Ctx) (x : DieId) : (s.setCtx n v).net x = s.net x := rfl
@[simp] theorem setCtx_debug_of (s : State) (n : Nat) (v : Ctx) (x : DieId) : (s.setCtx n v).debug x = s.debug x := rfl
@[simp] theorem setCtx_monitor_of (s : State) (n : Nat) (v : Ctx) (x : DieId) (i : Nat) : (s.setCtx n v).monitor x i = s.monitor x i := rfl
@[simp] theorem setCtx_queue_of (s : State) (n : Nat) (v : Ctx) (x : QueueId) : (s.setCtx n v).queue x = s.queue x := rfl
@[simp] theorem setCtx_mo_of (s : State) (n : Nat) (v : Ctx) (x : Nat) : (s.setCtx n v).mo x = s.mo x := rfl
@[simp] theorem setCtx_sema_of (s : State) (n : Nat) (v : Ctx) (x : Nat) : (s.setCtx n v).sema x = s.sema x := rfl
@[simp] theorem setCtx_ring_of (s : State) (n : Nat) (v : Ctx) (x y : Nat) : (s.setCtx n v).ring x y = s.ring x y := rfl
@[simp] theorem setCtx_strap_of (s : State) (n : Nat) (v : Ctx) (x : DieId) : (s.setCtx n v).strap x = s.strap x := rfl
@[simp] theorem setCtx_readByte_of (s : State) (n : Nat) (v : Ctx) (x : Nat) : (s.setCtx n v).readByte x = s.readByte x := rfl
@[simp] theorem setCtx_hasDie_of (s : State) (n : Nat) (v : Ctx) (x : DieId) : (s.setCtx n v).hasDie x = s.hasDie x := rfl
@[simp] theorem setCtx_hasCluster_of (s : State) (n : Nat) (v : Ctx) (x : ClusterId) : (s.setCtx n v).hasCluster x = s.hasCluster x := rfl
@[simp] theorem setCtx_hasCore_of (s : State) (n : Nat) (v : Ctx) (x : CoreId) : (s.setCtx n v).hasCore x = s.hasCore x := rfl
@[simp] theorem setCtx_hasArray_of (s : State) (n : Nat) (v : Ctx) (x : ArrayId) : (s.setCtx n v).hasArray x = s.hasArray x := rfl

/-! `setQueue` writes `queues` and nothing else. -/

@[simp] theorem setQueue_pending (s : State) (q : QueueId) (v : Queue) : (s.setQueue q v).pending = s.pending := rfl
@[simp] theorem setQueue_build (s : State) (q : QueueId) (v : Queue) : (s.setQueue q v).build = s.build := rfl
@[simp] theorem setQueue_straps (s : State) (q : QueueId) (v : Queue) : (s.setQueue q v).straps = s.straps := rfl
@[simp] theorem setQueue_dies (s : State) (q : QueueId) (v : Queue) : (s.setQueue q v).dies = s.dies := rfl
@[simp] theorem setQueue_clusters (s : State) (q : QueueId) (v : Queue) : (s.setQueue q v).clusters = s.clusters := rfl
@[simp] theorem setQueue_cores (s : State) (q : QueueId) (v : Queue) : (s.setQueue q v).cores = s.cores := rfl
@[simp] theorem setQueue_links (s : State) (q : QueueId) (v : Queue) : (s.setQueue q v).links = s.links := rfl
@[simp] theorem setQueue_stewards (s : State) (q : QueueId) (v : Queue) : (s.setQueue q v).stewards = s.stewards := rfl
@[simp] theorem setQueue_nets (s : State) (q : QueueId) (v : Queue) : (s.setQueue q v).nets = s.nets := rfl
@[simp] theorem setQueue_debugs (s : State) (q : QueueId) (v : Queue) : (s.setQueue q v).debugs = s.debugs := rfl
@[simp] theorem setQueue_monitors (s : State) (q : QueueId) (v : Queue) : (s.setQueue q v).monitors = s.monitors := rfl
@[simp] theorem setQueue_ctxs (s : State) (q : QueueId) (v : Queue) : (s.setQueue q v).ctxs = s.ctxs := rfl
@[simp] theorem setQueue_mos (s : State) (q : QueueId) (v : Queue) : (s.setQueue q v).mos = s.mos := rfl
@[simp] theorem setQueue_sems (s : State) (q : QueueId) (v : Queue) : (s.setQueue q v).sems = s.sems := rfl
@[simp] theorem setQueue_launches (s : State) (q : QueueId) (v : Queue) : (s.setQueue q v).launches = s.launches := rfl
@[simp] theorem setQueue_fences (s : State) (q : QueueId) (v : Queue) : (s.setQueue q v).fences = s.fences := rfl
@[simp] theorem setQueue_fenceNext (s : State) (q : QueueId) (v : Queue) : (s.setQueue q v).fenceNext = s.fenceNext := rfl
@[simp] theorem setQueue_msgs (s : State) (q : QueueId) (v : Queue) : (s.setQueue q v).msgs = s.msgs := rfl
@[simp] theorem setQueue_msgNext (s : State) (q : QueueId) (v : Queue) : (s.setQueue q v).msgNext = s.msgNext := rfl
@[simp] theorem setQueue_reqs (s : State) (q : QueueId) (v : Queue) : (s.setQueue q v).reqs = s.reqs := rfl
@[simp] theorem setQueue_reqNext (s : State) (q : QueueId) (v : Queue) : (s.setQueue q v).reqNext = s.reqNext := rfl
@[simp] theorem setQueue_ctxTbl (s : State) (q : QueueId) (v : Queue) : (s.setQueue q v).ctxTbl = s.ctxTbl := rfl
@[simp] theorem setQueue_moTbl (s : State) (q : QueueId) (v : Queue) : (s.setQueue q v).moTbl = s.moTbl := rfl
@[simp] theorem setQueue_qTbl (s : State) (q : QueueId) (v : Queue) : (s.setQueue q v).qTbl = s.qTbl := rfl
@[simp] theorem setQueue_objReq (s : State) (q : QueueId) (v : Queue) : (s.setQueue q v).objReq = s.objReq := rfl
@[simp] theorem setQueue_objHeld (s : State) (q : QueueId) (v : Queue) : (s.setQueue q v).objHeld = s.objHeld := rfl
@[simp] theorem setQueue_objOvf (s : State) (q : QueueId) (v : Queue) : (s.setQueue q v).objOvf = s.objOvf := rfl
@[simp] theorem setQueue_partRoot (s : State) (q : QueueId) (v : Queue) : (s.setQueue q v).partRoot = s.partRoot := rfl
@[simp] theorem setQueue_rootInval (s : State) (q : QueueId) (v : Queue) : (s.setQueue q v).rootInval = s.rootInval := rfl
@[simp] theorem setQueue_rings (s : State) (q : QueueId) (v : Queue) : (s.setQueue q v).rings = s.rings := rfl
@[simp] theorem setQueue_caps (s : State) (q : QueueId) (v : Queue) : (s.setQueue q v).caps = s.caps := rfl
@[simp] theorem setQueue_capFixed (s : State) (q : QueueId) (v : Queue) : (s.setQueue q v).capFixed = s.capFixed := rfl
@[simp] theorem setQueue_crown (s : State) (q : QueueId) (v : Queue) : (s.setQueue q v).crown = s.crown := rfl
@[simp] theorem setQueue_crId (s : State) (q : QueueId) (v : Queue) : (s.setQueue q v).crId = s.crId := rfl
@[simp] theorem setQueue_im (s : State) (q : QueueId) (v : Queue) : (s.setQueue q v).im = s.im := rfl
@[simp] theorem setQueue_imSent (s : State) (q : QueueId) (v : Queue) : (s.setQueue q v).imSent = s.imSent := rfl
@[simp] theorem setQueue_mem (s : State) (q : QueueId) (v : Queue) : (s.setQueue q v).mem = s.mem := rfl
@[simp] theorem setQueue_freeNext (s : State) (q : QueueId) (v : Queue) : (s.setQueue q v).freeNext = s.freeNext := rfl
@[simp] theorem setQueue_die_of (s : State) (q : QueueId) (v : Queue) (x : DieId) : (s.setQueue q v).die x = s.die x := rfl
@[simp] theorem setQueue_cluster_of (s : State) (q : QueueId) (v : Queue) (x : ClusterId) : (s.setQueue q v).cluster x = s.cluster x := rfl
@[simp] theorem setQueue_core_of (s : State) (q : QueueId) (v : Queue) (x : CoreId) : (s.setQueue q v).core x = s.core x := rfl
@[simp] theorem setQueue_link_of (s : State) (q : QueueId) (v : Queue) (x : LinkId) : (s.setQueue q v).link x = s.link x := rfl
@[simp] theorem setQueue_steward_of (s : State) (q : QueueId) (v : Queue) (x : DieId) : (s.setQueue q v).steward x = s.steward x := rfl
@[simp] theorem setQueue_net_of (s : State) (q : QueueId) (v : Queue) (x : DieId) : (s.setQueue q v).net x = s.net x := rfl
@[simp] theorem setQueue_debug_of (s : State) (q : QueueId) (v : Queue) (x : DieId) : (s.setQueue q v).debug x = s.debug x := rfl
@[simp] theorem setQueue_monitor_of (s : State) (q : QueueId) (v : Queue) (x : DieId) (i : Nat) : (s.setQueue q v).monitor x i = s.monitor x i := rfl
@[simp] theorem setQueue_ctx_of (s : State) (q : QueueId) (v : Queue) (x : Nat) : (s.setQueue q v).ctx x = s.ctx x := rfl
@[simp] theorem setQueue_mo_of (s : State) (q : QueueId) (v : Queue) (x : Nat) : (s.setQueue q v).mo x = s.mo x := rfl
@[simp] theorem setQueue_sema_of (s : State) (q : QueueId) (v : Queue) (x : Nat) : (s.setQueue q v).sema x = s.sema x := rfl
@[simp] theorem setQueue_ring_of (s : State) (q : QueueId) (v : Queue) (x y : Nat) : (s.setQueue q v).ring x y = s.ring x y := rfl
@[simp] theorem setQueue_strap_of (s : State) (q : QueueId) (v : Queue) (x : DieId) : (s.setQueue q v).strap x = s.strap x := rfl
@[simp] theorem setQueue_readByte_of (s : State) (q : QueueId) (v : Queue) (x : Nat) : (s.setQueue q v).readByte x = s.readByte x := rfl
@[simp] theorem setQueue_hasDie_of (s : State) (q : QueueId) (v : Queue) (x : DieId) : (s.setQueue q v).hasDie x = s.hasDie x := rfl
@[simp] theorem setQueue_hasCluster_of (s : State) (q : QueueId) (v : Queue) (x : ClusterId) : (s.setQueue q v).hasCluster x = s.hasCluster x := rfl
@[simp] theorem setQueue_hasCore_of (s : State) (q : QueueId) (v : Queue) (x : CoreId) : (s.setQueue q v).hasCore x = s.hasCore x := rfl
@[simp] theorem setQueue_hasArray_of (s : State) (q : QueueId) (v : Queue) (x : ArrayId) : (s.setQueue q v).hasArray x = s.hasArray x := rfl

/-! `setMo` writes `mos` and nothing else. -/

@[simp] theorem setMo_pending (s : State) (h : Nat) (v : MemObj) : (s.setMo h v).pending = s.pending := rfl
@[simp] theorem setMo_build (s : State) (h : Nat) (v : MemObj) : (s.setMo h v).build = s.build := rfl
@[simp] theorem setMo_straps (s : State) (h : Nat) (v : MemObj) : (s.setMo h v).straps = s.straps := rfl
@[simp] theorem setMo_dies (s : State) (h : Nat) (v : MemObj) : (s.setMo h v).dies = s.dies := rfl
@[simp] theorem setMo_clusters (s : State) (h : Nat) (v : MemObj) : (s.setMo h v).clusters = s.clusters := rfl
@[simp] theorem setMo_cores (s : State) (h : Nat) (v : MemObj) : (s.setMo h v).cores = s.cores := rfl
@[simp] theorem setMo_links (s : State) (h : Nat) (v : MemObj) : (s.setMo h v).links = s.links := rfl
@[simp] theorem setMo_stewards (s : State) (h : Nat) (v : MemObj) : (s.setMo h v).stewards = s.stewards := rfl
@[simp] theorem setMo_nets (s : State) (h : Nat) (v : MemObj) : (s.setMo h v).nets = s.nets := rfl
@[simp] theorem setMo_debugs (s : State) (h : Nat) (v : MemObj) : (s.setMo h v).debugs = s.debugs := rfl
@[simp] theorem setMo_monitors (s : State) (h : Nat) (v : MemObj) : (s.setMo h v).monitors = s.monitors := rfl
@[simp] theorem setMo_ctxs (s : State) (h : Nat) (v : MemObj) : (s.setMo h v).ctxs = s.ctxs := rfl
@[simp] theorem setMo_queues (s : State) (h : Nat) (v : MemObj) : (s.setMo h v).queues = s.queues := rfl
@[simp] theorem setMo_sems (s : State) (h : Nat) (v : MemObj) : (s.setMo h v).sems = s.sems := rfl
@[simp] theorem setMo_launches (s : State) (h : Nat) (v : MemObj) : (s.setMo h v).launches = s.launches := rfl
@[simp] theorem setMo_fences (s : State) (h : Nat) (v : MemObj) : (s.setMo h v).fences = s.fences := rfl
@[simp] theorem setMo_fenceNext (s : State) (h : Nat) (v : MemObj) : (s.setMo h v).fenceNext = s.fenceNext := rfl
@[simp] theorem setMo_msgs (s : State) (h : Nat) (v : MemObj) : (s.setMo h v).msgs = s.msgs := rfl
@[simp] theorem setMo_msgNext (s : State) (h : Nat) (v : MemObj) : (s.setMo h v).msgNext = s.msgNext := rfl
@[simp] theorem setMo_reqs (s : State) (h : Nat) (v : MemObj) : (s.setMo h v).reqs = s.reqs := rfl
@[simp] theorem setMo_reqNext (s : State) (h : Nat) (v : MemObj) : (s.setMo h v).reqNext = s.reqNext := rfl
@[simp] theorem setMo_ctxTbl (s : State) (h : Nat) (v : MemObj) : (s.setMo h v).ctxTbl = s.ctxTbl := rfl
@[simp] theorem setMo_moTbl (s : State) (h : Nat) (v : MemObj) : (s.setMo h v).moTbl = s.moTbl := rfl
@[simp] theorem setMo_qTbl (s : State) (h : Nat) (v : MemObj) : (s.setMo h v).qTbl = s.qTbl := rfl
@[simp] theorem setMo_objReq (s : State) (h : Nat) (v : MemObj) : (s.setMo h v).objReq = s.objReq := rfl
@[simp] theorem setMo_objHeld (s : State) (h : Nat) (v : MemObj) : (s.setMo h v).objHeld = s.objHeld := rfl
@[simp] theorem setMo_objOvf (s : State) (h : Nat) (v : MemObj) : (s.setMo h v).objOvf = s.objOvf := rfl
@[simp] theorem setMo_partRoot (s : State) (h : Nat) (v : MemObj) : (s.setMo h v).partRoot = s.partRoot := rfl
@[simp] theorem setMo_rootInval (s : State) (h : Nat) (v : MemObj) : (s.setMo h v).rootInval = s.rootInval := rfl
@[simp] theorem setMo_rings (s : State) (h : Nat) (v : MemObj) : (s.setMo h v).rings = s.rings := rfl
@[simp] theorem setMo_caps (s : State) (h : Nat) (v : MemObj) : (s.setMo h v).caps = s.caps := rfl
@[simp] theorem setMo_capFixed (s : State) (h : Nat) (v : MemObj) : (s.setMo h v).capFixed = s.capFixed := rfl
@[simp] theorem setMo_crown (s : State) (h : Nat) (v : MemObj) : (s.setMo h v).crown = s.crown := rfl
@[simp] theorem setMo_crId (s : State) (h : Nat) (v : MemObj) : (s.setMo h v).crId = s.crId := rfl
@[simp] theorem setMo_im (s : State) (h : Nat) (v : MemObj) : (s.setMo h v).im = s.im := rfl
@[simp] theorem setMo_imSent (s : State) (h : Nat) (v : MemObj) : (s.setMo h v).imSent = s.imSent := rfl
@[simp] theorem setMo_mem (s : State) (h : Nat) (v : MemObj) : (s.setMo h v).mem = s.mem := rfl
@[simp] theorem setMo_freeNext (s : State) (h : Nat) (v : MemObj) : (s.setMo h v).freeNext = s.freeNext := rfl
@[simp] theorem setMo_die_of (s : State) (h : Nat) (v : MemObj) (x : DieId) : (s.setMo h v).die x = s.die x := rfl
@[simp] theorem setMo_cluster_of (s : State) (h : Nat) (v : MemObj) (x : ClusterId) : (s.setMo h v).cluster x = s.cluster x := rfl
@[simp] theorem setMo_core_of (s : State) (h : Nat) (v : MemObj) (x : CoreId) : (s.setMo h v).core x = s.core x := rfl
@[simp] theorem setMo_link_of (s : State) (h : Nat) (v : MemObj) (x : LinkId) : (s.setMo h v).link x = s.link x := rfl
@[simp] theorem setMo_steward_of (s : State) (h : Nat) (v : MemObj) (x : DieId) : (s.setMo h v).steward x = s.steward x := rfl
@[simp] theorem setMo_net_of (s : State) (h : Nat) (v : MemObj) (x : DieId) : (s.setMo h v).net x = s.net x := rfl
@[simp] theorem setMo_debug_of (s : State) (h : Nat) (v : MemObj) (x : DieId) : (s.setMo h v).debug x = s.debug x := rfl
@[simp] theorem setMo_monitor_of (s : State) (h : Nat) (v : MemObj) (x : DieId) (i : Nat) : (s.setMo h v).monitor x i = s.monitor x i := rfl
@[simp] theorem setMo_ctx_of (s : State) (h : Nat) (v : MemObj) (x : Nat) : (s.setMo h v).ctx x = s.ctx x := rfl
@[simp] theorem setMo_queue_of (s : State) (h : Nat) (v : MemObj) (x : QueueId) : (s.setMo h v).queue x = s.queue x := rfl
@[simp] theorem setMo_sema_of (s : State) (h : Nat) (v : MemObj) (x : Nat) : (s.setMo h v).sema x = s.sema x := rfl
@[simp] theorem setMo_ring_of (s : State) (h : Nat) (v : MemObj) (x y : Nat) : (s.setMo h v).ring x y = s.ring x y := rfl
@[simp] theorem setMo_strap_of (s : State) (h : Nat) (v : MemObj) (x : DieId) : (s.setMo h v).strap x = s.strap x := rfl
@[simp] theorem setMo_readByte_of (s : State) (h : Nat) (v : MemObj) (x : Nat) : (s.setMo h v).readByte x = s.readByte x := rfl
@[simp] theorem setMo_hasDie_of (s : State) (h : Nat) (v : MemObj) (x : DieId) : (s.setMo h v).hasDie x = s.hasDie x := rfl
@[simp] theorem setMo_hasCluster_of (s : State) (h : Nat) (v : MemObj) (x : ClusterId) : (s.setMo h v).hasCluster x = s.hasCluster x := rfl
@[simp] theorem setMo_hasCore_of (s : State) (h : Nat) (v : MemObj) (x : CoreId) : (s.setMo h v).hasCore x = s.hasCore x := rfl
@[simp] theorem setMo_hasArray_of (s : State) (h : Nat) (v : MemObj) (x : ArrayId) : (s.setMo h v).hasArray x = s.hasArray x := rfl

/-! `setSema` writes `sems` and nothing else. -/

@[simp] theorem setSema_pending (s : State) (n : Nat) (v : Sema) : (s.setSema n v).pending = s.pending := rfl
@[simp] theorem setSema_build (s : State) (n : Nat) (v : Sema) : (s.setSema n v).build = s.build := rfl
@[simp] theorem setSema_straps (s : State) (n : Nat) (v : Sema) : (s.setSema n v).straps = s.straps := rfl
@[simp] theorem setSema_dies (s : State) (n : Nat) (v : Sema) : (s.setSema n v).dies = s.dies := rfl
@[simp] theorem setSema_clusters (s : State) (n : Nat) (v : Sema) : (s.setSema n v).clusters = s.clusters := rfl
@[simp] theorem setSema_cores (s : State) (n : Nat) (v : Sema) : (s.setSema n v).cores = s.cores := rfl
@[simp] theorem setSema_links (s : State) (n : Nat) (v : Sema) : (s.setSema n v).links = s.links := rfl
@[simp] theorem setSema_stewards (s : State) (n : Nat) (v : Sema) : (s.setSema n v).stewards = s.stewards := rfl
@[simp] theorem setSema_nets (s : State) (n : Nat) (v : Sema) : (s.setSema n v).nets = s.nets := rfl
@[simp] theorem setSema_debugs (s : State) (n : Nat) (v : Sema) : (s.setSema n v).debugs = s.debugs := rfl
@[simp] theorem setSema_monitors (s : State) (n : Nat) (v : Sema) : (s.setSema n v).monitors = s.monitors := rfl
@[simp] theorem setSema_ctxs (s : State) (n : Nat) (v : Sema) : (s.setSema n v).ctxs = s.ctxs := rfl
@[simp] theorem setSema_queues (s : State) (n : Nat) (v : Sema) : (s.setSema n v).queues = s.queues := rfl
@[simp] theorem setSema_mos (s : State) (n : Nat) (v : Sema) : (s.setSema n v).mos = s.mos := rfl
@[simp] theorem setSema_launches (s : State) (n : Nat) (v : Sema) : (s.setSema n v).launches = s.launches := rfl
@[simp] theorem setSema_fences (s : State) (n : Nat) (v : Sema) : (s.setSema n v).fences = s.fences := rfl
@[simp] theorem setSema_fenceNext (s : State) (n : Nat) (v : Sema) : (s.setSema n v).fenceNext = s.fenceNext := rfl
@[simp] theorem setSema_msgs (s : State) (n : Nat) (v : Sema) : (s.setSema n v).msgs = s.msgs := rfl
@[simp] theorem setSema_msgNext (s : State) (n : Nat) (v : Sema) : (s.setSema n v).msgNext = s.msgNext := rfl
@[simp] theorem setSema_reqs (s : State) (n : Nat) (v : Sema) : (s.setSema n v).reqs = s.reqs := rfl
@[simp] theorem setSema_reqNext (s : State) (n : Nat) (v : Sema) : (s.setSema n v).reqNext = s.reqNext := rfl
@[simp] theorem setSema_ctxTbl (s : State) (n : Nat) (v : Sema) : (s.setSema n v).ctxTbl = s.ctxTbl := rfl
@[simp] theorem setSema_moTbl (s : State) (n : Nat) (v : Sema) : (s.setSema n v).moTbl = s.moTbl := rfl
@[simp] theorem setSema_qTbl (s : State) (n : Nat) (v : Sema) : (s.setSema n v).qTbl = s.qTbl := rfl
@[simp] theorem setSema_objReq (s : State) (n : Nat) (v : Sema) : (s.setSema n v).objReq = s.objReq := rfl
@[simp] theorem setSema_objHeld (s : State) (n : Nat) (v : Sema) : (s.setSema n v).objHeld = s.objHeld := rfl
@[simp] theorem setSema_objOvf (s : State) (n : Nat) (v : Sema) : (s.setSema n v).objOvf = s.objOvf := rfl
@[simp] theorem setSema_partRoot (s : State) (n : Nat) (v : Sema) : (s.setSema n v).partRoot = s.partRoot := rfl
@[simp] theorem setSema_rootInval (s : State) (n : Nat) (v : Sema) : (s.setSema n v).rootInval = s.rootInval := rfl
@[simp] theorem setSema_rings (s : State) (n : Nat) (v : Sema) : (s.setSema n v).rings = s.rings := rfl
@[simp] theorem setSema_caps (s : State) (n : Nat) (v : Sema) : (s.setSema n v).caps = s.caps := rfl
@[simp] theorem setSema_capFixed (s : State) (n : Nat) (v : Sema) : (s.setSema n v).capFixed = s.capFixed := rfl
@[simp] theorem setSema_crown (s : State) (n : Nat) (v : Sema) : (s.setSema n v).crown = s.crown := rfl
@[simp] theorem setSema_crId (s : State) (n : Nat) (v : Sema) : (s.setSema n v).crId = s.crId := rfl
@[simp] theorem setSema_im (s : State) (n : Nat) (v : Sema) : (s.setSema n v).im = s.im := rfl
@[simp] theorem setSema_imSent (s : State) (n : Nat) (v : Sema) : (s.setSema n v).imSent = s.imSent := rfl
@[simp] theorem setSema_mem (s : State) (n : Nat) (v : Sema) : (s.setSema n v).mem = s.mem := rfl
@[simp] theorem setSema_freeNext (s : State) (n : Nat) (v : Sema) : (s.setSema n v).freeNext = s.freeNext := rfl
@[simp] theorem setSema_die_of (s : State) (n : Nat) (v : Sema) (x : DieId) : (s.setSema n v).die x = s.die x := rfl
@[simp] theorem setSema_cluster_of (s : State) (n : Nat) (v : Sema) (x : ClusterId) : (s.setSema n v).cluster x = s.cluster x := rfl
@[simp] theorem setSema_core_of (s : State) (n : Nat) (v : Sema) (x : CoreId) : (s.setSema n v).core x = s.core x := rfl
@[simp] theorem setSema_link_of (s : State) (n : Nat) (v : Sema) (x : LinkId) : (s.setSema n v).link x = s.link x := rfl
@[simp] theorem setSema_steward_of (s : State) (n : Nat) (v : Sema) (x : DieId) : (s.setSema n v).steward x = s.steward x := rfl
@[simp] theorem setSema_net_of (s : State) (n : Nat) (v : Sema) (x : DieId) : (s.setSema n v).net x = s.net x := rfl
@[simp] theorem setSema_debug_of (s : State) (n : Nat) (v : Sema) (x : DieId) : (s.setSema n v).debug x = s.debug x := rfl
@[simp] theorem setSema_monitor_of (s : State) (n : Nat) (v : Sema) (x : DieId) (i : Nat) : (s.setSema n v).monitor x i = s.monitor x i := rfl
@[simp] theorem setSema_ctx_of (s : State) (n : Nat) (v : Sema) (x : Nat) : (s.setSema n v).ctx x = s.ctx x := rfl
@[simp] theorem setSema_queue_of (s : State) (n : Nat) (v : Sema) (x : QueueId) : (s.setSema n v).queue x = s.queue x := rfl
@[simp] theorem setSema_mo_of (s : State) (n : Nat) (v : Sema) (x : Nat) : (s.setSema n v).mo x = s.mo x := rfl
@[simp] theorem setSema_ring_of (s : State) (n : Nat) (v : Sema) (x y : Nat) : (s.setSema n v).ring x y = s.ring x y := rfl
@[simp] theorem setSema_strap_of (s : State) (n : Nat) (v : Sema) (x : DieId) : (s.setSema n v).strap x = s.strap x := rfl
@[simp] theorem setSema_readByte_of (s : State) (n : Nat) (v : Sema) (x : Nat) : (s.setSema n v).readByte x = s.readByte x := rfl
@[simp] theorem setSema_hasDie_of (s : State) (n : Nat) (v : Sema) (x : DieId) : (s.setSema n v).hasDie x = s.hasDie x := rfl
@[simp] theorem setSema_hasCluster_of (s : State) (n : Nat) (v : Sema) (x : ClusterId) : (s.setSema n v).hasCluster x = s.hasCluster x := rfl
@[simp] theorem setSema_hasCore_of (s : State) (n : Nat) (v : Sema) (x : CoreId) : (s.setSema n v).hasCore x = s.hasCore x := rfl
@[simp] theorem setSema_hasArray_of (s : State) (n : Nat) (v : Sema) (x : ArrayId) : (s.setSema n v).hasArray x = s.hasArray x := rfl

/-! `setRing` writes `rings` and nothing else. -/

@[simp] theorem setRing_pending (s : State) (p r : Nat) (v : Ring) : (s.setRing p r v).pending = s.pending := rfl
@[simp] theorem setRing_build (s : State) (p r : Nat) (v : Ring) : (s.setRing p r v).build = s.build := rfl
@[simp] theorem setRing_straps (s : State) (p r : Nat) (v : Ring) : (s.setRing p r v).straps = s.straps := rfl
@[simp] theorem setRing_dies (s : State) (p r : Nat) (v : Ring) : (s.setRing p r v).dies = s.dies := rfl
@[simp] theorem setRing_clusters (s : State) (p r : Nat) (v : Ring) : (s.setRing p r v).clusters = s.clusters := rfl
@[simp] theorem setRing_cores (s : State) (p r : Nat) (v : Ring) : (s.setRing p r v).cores = s.cores := rfl
@[simp] theorem setRing_links (s : State) (p r : Nat) (v : Ring) : (s.setRing p r v).links = s.links := rfl
@[simp] theorem setRing_stewards (s : State) (p r : Nat) (v : Ring) : (s.setRing p r v).stewards = s.stewards := rfl
@[simp] theorem setRing_nets (s : State) (p r : Nat) (v : Ring) : (s.setRing p r v).nets = s.nets := rfl
@[simp] theorem setRing_debugs (s : State) (p r : Nat) (v : Ring) : (s.setRing p r v).debugs = s.debugs := rfl
@[simp] theorem setRing_monitors (s : State) (p r : Nat) (v : Ring) : (s.setRing p r v).monitors = s.monitors := rfl
@[simp] theorem setRing_ctxs (s : State) (p r : Nat) (v : Ring) : (s.setRing p r v).ctxs = s.ctxs := rfl
@[simp] theorem setRing_queues (s : State) (p r : Nat) (v : Ring) : (s.setRing p r v).queues = s.queues := rfl
@[simp] theorem setRing_mos (s : State) (p r : Nat) (v : Ring) : (s.setRing p r v).mos = s.mos := rfl
@[simp] theorem setRing_sems (s : State) (p r : Nat) (v : Ring) : (s.setRing p r v).sems = s.sems := rfl
@[simp] theorem setRing_launches (s : State) (p r : Nat) (v : Ring) : (s.setRing p r v).launches = s.launches := rfl
@[simp] theorem setRing_fences (s : State) (p r : Nat) (v : Ring) : (s.setRing p r v).fences = s.fences := rfl
@[simp] theorem setRing_fenceNext (s : State) (p r : Nat) (v : Ring) : (s.setRing p r v).fenceNext = s.fenceNext := rfl
@[simp] theorem setRing_msgs (s : State) (p r : Nat) (v : Ring) : (s.setRing p r v).msgs = s.msgs := rfl
@[simp] theorem setRing_msgNext (s : State) (p r : Nat) (v : Ring) : (s.setRing p r v).msgNext = s.msgNext := rfl
@[simp] theorem setRing_reqs (s : State) (p r : Nat) (v : Ring) : (s.setRing p r v).reqs = s.reqs := rfl
@[simp] theorem setRing_reqNext (s : State) (p r : Nat) (v : Ring) : (s.setRing p r v).reqNext = s.reqNext := rfl
@[simp] theorem setRing_ctxTbl (s : State) (p r : Nat) (v : Ring) : (s.setRing p r v).ctxTbl = s.ctxTbl := rfl
@[simp] theorem setRing_moTbl (s : State) (p r : Nat) (v : Ring) : (s.setRing p r v).moTbl = s.moTbl := rfl
@[simp] theorem setRing_qTbl (s : State) (p r : Nat) (v : Ring) : (s.setRing p r v).qTbl = s.qTbl := rfl
@[simp] theorem setRing_objReq (s : State) (p r : Nat) (v : Ring) : (s.setRing p r v).objReq = s.objReq := rfl
@[simp] theorem setRing_objHeld (s : State) (p r : Nat) (v : Ring) : (s.setRing p r v).objHeld = s.objHeld := rfl
@[simp] theorem setRing_objOvf (s : State) (p r : Nat) (v : Ring) : (s.setRing p r v).objOvf = s.objOvf := rfl
@[simp] theorem setRing_partRoot (s : State) (p r : Nat) (v : Ring) : (s.setRing p r v).partRoot = s.partRoot := rfl
@[simp] theorem setRing_rootInval (s : State) (p r : Nat) (v : Ring) : (s.setRing p r v).rootInval = s.rootInval := rfl
@[simp] theorem setRing_caps (s : State) (p r : Nat) (v : Ring) : (s.setRing p r v).caps = s.caps := rfl
@[simp] theorem setRing_capFixed (s : State) (p r : Nat) (v : Ring) : (s.setRing p r v).capFixed = s.capFixed := rfl
@[simp] theorem setRing_crown (s : State) (p r : Nat) (v : Ring) : (s.setRing p r v).crown = s.crown := rfl
@[simp] theorem setRing_crId (s : State) (p r : Nat) (v : Ring) : (s.setRing p r v).crId = s.crId := rfl
@[simp] theorem setRing_im (s : State) (p r : Nat) (v : Ring) : (s.setRing p r v).im = s.im := rfl
@[simp] theorem setRing_imSent (s : State) (p r : Nat) (v : Ring) : (s.setRing p r v).imSent = s.imSent := rfl
@[simp] theorem setRing_mem (s : State) (p r : Nat) (v : Ring) : (s.setRing p r v).mem = s.mem := rfl
@[simp] theorem setRing_freeNext (s : State) (p r : Nat) (v : Ring) : (s.setRing p r v).freeNext = s.freeNext := rfl
@[simp] theorem setRing_die_of (s : State) (p r : Nat) (v : Ring) (x : DieId) : (s.setRing p r v).die x = s.die x := rfl
@[simp] theorem setRing_cluster_of (s : State) (p r : Nat) (v : Ring) (x : ClusterId) : (s.setRing p r v).cluster x = s.cluster x := rfl
@[simp] theorem setRing_core_of (s : State) (p r : Nat) (v : Ring) (x : CoreId) : (s.setRing p r v).core x = s.core x := rfl
@[simp] theorem setRing_link_of (s : State) (p r : Nat) (v : Ring) (x : LinkId) : (s.setRing p r v).link x = s.link x := rfl
@[simp] theorem setRing_steward_of (s : State) (p r : Nat) (v : Ring) (x : DieId) : (s.setRing p r v).steward x = s.steward x := rfl
@[simp] theorem setRing_net_of (s : State) (p r : Nat) (v : Ring) (x : DieId) : (s.setRing p r v).net x = s.net x := rfl
@[simp] theorem setRing_debug_of (s : State) (p r : Nat) (v : Ring) (x : DieId) : (s.setRing p r v).debug x = s.debug x := rfl
@[simp] theorem setRing_monitor_of (s : State) (p r : Nat) (v : Ring) (x : DieId) (i : Nat) : (s.setRing p r v).monitor x i = s.monitor x i := rfl
@[simp] theorem setRing_ctx_of (s : State) (p r : Nat) (v : Ring) (x : Nat) : (s.setRing p r v).ctx x = s.ctx x := rfl
@[simp] theorem setRing_queue_of (s : State) (p r : Nat) (v : Ring) (x : QueueId) : (s.setRing p r v).queue x = s.queue x := rfl
@[simp] theorem setRing_mo_of (s : State) (p r : Nat) (v : Ring) (x : Nat) : (s.setRing p r v).mo x = s.mo x := rfl
@[simp] theorem setRing_sema_of (s : State) (p r : Nat) (v : Ring) (x : Nat) : (s.setRing p r v).sema x = s.sema x := rfl
@[simp] theorem setRing_strap_of (s : State) (p r : Nat) (v : Ring) (x : DieId) : (s.setRing p r v).strap x = s.strap x := rfl
@[simp] theorem setRing_readByte_of (s : State) (p r : Nat) (v : Ring) (x : Nat) : (s.setRing p r v).readByte x = s.readByte x := rfl
@[simp] theorem setRing_hasDie_of (s : State) (p r : Nat) (v : Ring) (x : DieId) : (s.setRing p r v).hasDie x = s.hasDie x := rfl
@[simp] theorem setRing_hasCluster_of (s : State) (p r : Nat) (v : Ring) (x : ClusterId) : (s.setRing p r v).hasCluster x = s.hasCluster x := rfl
@[simp] theorem setRing_hasCore_of (s : State) (p r : Nat) (v : Ring) (x : CoreId) : (s.setRing p r v).hasCore x = s.hasCore x := rfl
@[simp] theorem setRing_hasArray_of (s : State) (p r : Nat) (v : Ring) (x : ArrayId) : (s.setRing p r v).hasArray x = s.hasArray x := rfl

/-! `setLaunch` writes `launches` and nothing else. -/

@[simp] theorem setLaunch_pending (s : State) (q : Nat) (v : Launch) : (s.setLaunch q v).pending = s.pending := rfl
@[simp] theorem setLaunch_build (s : State) (q : Nat) (v : Launch) : (s.setLaunch q v).build = s.build := rfl
@[simp] theorem setLaunch_straps (s : State) (q : Nat) (v : Launch) : (s.setLaunch q v).straps = s.straps := rfl
@[simp] theorem setLaunch_dies (s : State) (q : Nat) (v : Launch) : (s.setLaunch q v).dies = s.dies := rfl
@[simp] theorem setLaunch_clusters (s : State) (q : Nat) (v : Launch) : (s.setLaunch q v).clusters = s.clusters := rfl
@[simp] theorem setLaunch_cores (s : State) (q : Nat) (v : Launch) : (s.setLaunch q v).cores = s.cores := rfl
@[simp] theorem setLaunch_links (s : State) (q : Nat) (v : Launch) : (s.setLaunch q v).links = s.links := rfl
@[simp] theorem setLaunch_stewards (s : State) (q : Nat) (v : Launch) : (s.setLaunch q v).stewards = s.stewards := rfl
@[simp] theorem setLaunch_nets (s : State) (q : Nat) (v : Launch) : (s.setLaunch q v).nets = s.nets := rfl
@[simp] theorem setLaunch_debugs (s : State) (q : Nat) (v : Launch) : (s.setLaunch q v).debugs = s.debugs := rfl
@[simp] theorem setLaunch_monitors (s : State) (q : Nat) (v : Launch) : (s.setLaunch q v).monitors = s.monitors := rfl
@[simp] theorem setLaunch_ctxs (s : State) (q : Nat) (v : Launch) : (s.setLaunch q v).ctxs = s.ctxs := rfl
@[simp] theorem setLaunch_queues (s : State) (q : Nat) (v : Launch) : (s.setLaunch q v).queues = s.queues := rfl
@[simp] theorem setLaunch_mos (s : State) (q : Nat) (v : Launch) : (s.setLaunch q v).mos = s.mos := rfl
@[simp] theorem setLaunch_sems (s : State) (q : Nat) (v : Launch) : (s.setLaunch q v).sems = s.sems := rfl
@[simp] theorem setLaunch_fences (s : State) (q : Nat) (v : Launch) : (s.setLaunch q v).fences = s.fences := rfl
@[simp] theorem setLaunch_fenceNext (s : State) (q : Nat) (v : Launch) : (s.setLaunch q v).fenceNext = s.fenceNext := rfl
@[simp] theorem setLaunch_msgs (s : State) (q : Nat) (v : Launch) : (s.setLaunch q v).msgs = s.msgs := rfl
@[simp] theorem setLaunch_msgNext (s : State) (q : Nat) (v : Launch) : (s.setLaunch q v).msgNext = s.msgNext := rfl
@[simp] theorem setLaunch_reqs (s : State) (q : Nat) (v : Launch) : (s.setLaunch q v).reqs = s.reqs := rfl
@[simp] theorem setLaunch_reqNext (s : State) (q : Nat) (v : Launch) : (s.setLaunch q v).reqNext = s.reqNext := rfl
@[simp] theorem setLaunch_ctxTbl (s : State) (q : Nat) (v : Launch) : (s.setLaunch q v).ctxTbl = s.ctxTbl := rfl
@[simp] theorem setLaunch_moTbl (s : State) (q : Nat) (v : Launch) : (s.setLaunch q v).moTbl = s.moTbl := rfl
@[simp] theorem setLaunch_qTbl (s : State) (q : Nat) (v : Launch) : (s.setLaunch q v).qTbl = s.qTbl := rfl
@[simp] theorem setLaunch_objReq (s : State) (q : Nat) (v : Launch) : (s.setLaunch q v).objReq = s.objReq := rfl
@[simp] theorem setLaunch_objHeld (s : State) (q : Nat) (v : Launch) : (s.setLaunch q v).objHeld = s.objHeld := rfl
@[simp] theorem setLaunch_objOvf (s : State) (q : Nat) (v : Launch) : (s.setLaunch q v).objOvf = s.objOvf := rfl
@[simp] theorem setLaunch_partRoot (s : State) (q : Nat) (v : Launch) : (s.setLaunch q v).partRoot = s.partRoot := rfl
@[simp] theorem setLaunch_rootInval (s : State) (q : Nat) (v : Launch) : (s.setLaunch q v).rootInval = s.rootInval := rfl
@[simp] theorem setLaunch_rings (s : State) (q : Nat) (v : Launch) : (s.setLaunch q v).rings = s.rings := rfl
@[simp] theorem setLaunch_caps (s : State) (q : Nat) (v : Launch) : (s.setLaunch q v).caps = s.caps := rfl
@[simp] theorem setLaunch_capFixed (s : State) (q : Nat) (v : Launch) : (s.setLaunch q v).capFixed = s.capFixed := rfl
@[simp] theorem setLaunch_crown (s : State) (q : Nat) (v : Launch) : (s.setLaunch q v).crown = s.crown := rfl
@[simp] theorem setLaunch_crId (s : State) (q : Nat) (v : Launch) : (s.setLaunch q v).crId = s.crId := rfl
@[simp] theorem setLaunch_im (s : State) (q : Nat) (v : Launch) : (s.setLaunch q v).im = s.im := rfl
@[simp] theorem setLaunch_imSent (s : State) (q : Nat) (v : Launch) : (s.setLaunch q v).imSent = s.imSent := rfl
@[simp] theorem setLaunch_mem (s : State) (q : Nat) (v : Launch) : (s.setLaunch q v).mem = s.mem := rfl
@[simp] theorem setLaunch_freeNext (s : State) (q : Nat) (v : Launch) : (s.setLaunch q v).freeNext = s.freeNext := rfl
@[simp] theorem setLaunch_die_of (s : State) (q : Nat) (v : Launch) (x : DieId) : (s.setLaunch q v).die x = s.die x := rfl
@[simp] theorem setLaunch_cluster_of (s : State) (q : Nat) (v : Launch) (x : ClusterId) : (s.setLaunch q v).cluster x = s.cluster x := rfl
@[simp] theorem setLaunch_core_of (s : State) (q : Nat) (v : Launch) (x : CoreId) : (s.setLaunch q v).core x = s.core x := rfl
@[simp] theorem setLaunch_link_of (s : State) (q : Nat) (v : Launch) (x : LinkId) : (s.setLaunch q v).link x = s.link x := rfl
@[simp] theorem setLaunch_steward_of (s : State) (q : Nat) (v : Launch) (x : DieId) : (s.setLaunch q v).steward x = s.steward x := rfl
@[simp] theorem setLaunch_net_of (s : State) (q : Nat) (v : Launch) (x : DieId) : (s.setLaunch q v).net x = s.net x := rfl
@[simp] theorem setLaunch_debug_of (s : State) (q : Nat) (v : Launch) (x : DieId) : (s.setLaunch q v).debug x = s.debug x := rfl
@[simp] theorem setLaunch_monitor_of (s : State) (q : Nat) (v : Launch) (x : DieId) (i : Nat) : (s.setLaunch q v).monitor x i = s.monitor x i := rfl
@[simp] theorem setLaunch_ctx_of (s : State) (q : Nat) (v : Launch) (x : Nat) : (s.setLaunch q v).ctx x = s.ctx x := rfl
@[simp] theorem setLaunch_queue_of (s : State) (q : Nat) (v : Launch) (x : QueueId) : (s.setLaunch q v).queue x = s.queue x := rfl
@[simp] theorem setLaunch_mo_of (s : State) (q : Nat) (v : Launch) (x : Nat) : (s.setLaunch q v).mo x = s.mo x := rfl
@[simp] theorem setLaunch_sema_of (s : State) (q : Nat) (v : Launch) (x : Nat) : (s.setLaunch q v).sema x = s.sema x := rfl
@[simp] theorem setLaunch_ring_of (s : State) (q : Nat) (v : Launch) (x y : Nat) : (s.setLaunch q v).ring x y = s.ring x y := rfl
@[simp] theorem setLaunch_strap_of (s : State) (q : Nat) (v : Launch) (x : DieId) : (s.setLaunch q v).strap x = s.strap x := rfl
@[simp] theorem setLaunch_readByte_of (s : State) (q : Nat) (v : Launch) (x : Nat) : (s.setLaunch q v).readByte x = s.readByte x := rfl
@[simp] theorem setLaunch_hasDie_of (s : State) (q : Nat) (v : Launch) (x : DieId) : (s.setLaunch q v).hasDie x = s.hasDie x := rfl
@[simp] theorem setLaunch_hasCluster_of (s : State) (q : Nat) (v : Launch) (x : ClusterId) : (s.setLaunch q v).hasCluster x = s.hasCluster x := rfl
@[simp] theorem setLaunch_hasCore_of (s : State) (q : Nat) (v : Launch) (x : CoreId) : (s.setLaunch q v).hasCore x = s.hasCore x := rfl
@[simp] theorem setLaunch_hasArray_of (s : State) (q : Nat) (v : Launch) (x : ArrayId) : (s.setLaunch q v).hasArray x = s.hasArray x := rfl

/-! `setArr` writes `cores` and nothing else. -/

@[simp] theorem setArr_pending (s : State) (a : ArrayId) (v : Arr) : (s.setArr a v).pending = s.pending := rfl
@[simp] theorem setArr_build (s : State) (a : ArrayId) (v : Arr) : (s.setArr a v).build = s.build := rfl
@[simp] theorem setArr_straps (s : State) (a : ArrayId) (v : Arr) : (s.setArr a v).straps = s.straps := rfl
@[simp] theorem setArr_dies (s : State) (a : ArrayId) (v : Arr) : (s.setArr a v).dies = s.dies := rfl
@[simp] theorem setArr_clusters (s : State) (a : ArrayId) (v : Arr) : (s.setArr a v).clusters = s.clusters := rfl
@[simp] theorem setArr_links (s : State) (a : ArrayId) (v : Arr) : (s.setArr a v).links = s.links := rfl
@[simp] theorem setArr_stewards (s : State) (a : ArrayId) (v : Arr) : (s.setArr a v).stewards = s.stewards := rfl
@[simp] theorem setArr_nets (s : State) (a : ArrayId) (v : Arr) : (s.setArr a v).nets = s.nets := rfl
@[simp] theorem setArr_debugs (s : State) (a : ArrayId) (v : Arr) : (s.setArr a v).debugs = s.debugs := rfl
@[simp] theorem setArr_monitors (s : State) (a : ArrayId) (v : Arr) : (s.setArr a v).monitors = s.monitors := rfl
@[simp] theorem setArr_ctxs (s : State) (a : ArrayId) (v : Arr) : (s.setArr a v).ctxs = s.ctxs := rfl
@[simp] theorem setArr_queues (s : State) (a : ArrayId) (v : Arr) : (s.setArr a v).queues = s.queues := rfl
@[simp] theorem setArr_mos (s : State) (a : ArrayId) (v : Arr) : (s.setArr a v).mos = s.mos := rfl
@[simp] theorem setArr_sems (s : State) (a : ArrayId) (v : Arr) : (s.setArr a v).sems = s.sems := rfl
@[simp] theorem setArr_launches (s : State) (a : ArrayId) (v : Arr) : (s.setArr a v).launches = s.launches := rfl
@[simp] theorem setArr_fences (s : State) (a : ArrayId) (v : Arr) : (s.setArr a v).fences = s.fences := rfl
@[simp] theorem setArr_fenceNext (s : State) (a : ArrayId) (v : Arr) : (s.setArr a v).fenceNext = s.fenceNext := rfl
@[simp] theorem setArr_msgs (s : State) (a : ArrayId) (v : Arr) : (s.setArr a v).msgs = s.msgs := rfl
@[simp] theorem setArr_msgNext (s : State) (a : ArrayId) (v : Arr) : (s.setArr a v).msgNext = s.msgNext := rfl
@[simp] theorem setArr_reqs (s : State) (a : ArrayId) (v : Arr) : (s.setArr a v).reqs = s.reqs := rfl
@[simp] theorem setArr_reqNext (s : State) (a : ArrayId) (v : Arr) : (s.setArr a v).reqNext = s.reqNext := rfl
@[simp] theorem setArr_ctxTbl (s : State) (a : ArrayId) (v : Arr) : (s.setArr a v).ctxTbl = s.ctxTbl := rfl
@[simp] theorem setArr_moTbl (s : State) (a : ArrayId) (v : Arr) : (s.setArr a v).moTbl = s.moTbl := rfl
@[simp] theorem setArr_qTbl (s : State) (a : ArrayId) (v : Arr) : (s.setArr a v).qTbl = s.qTbl := rfl
@[simp] theorem setArr_objReq (s : State) (a : ArrayId) (v : Arr) : (s.setArr a v).objReq = s.objReq := rfl
@[simp] theorem setArr_objHeld (s : State) (a : ArrayId) (v : Arr) : (s.setArr a v).objHeld = s.objHeld := rfl
@[simp] theorem setArr_objOvf (s : State) (a : ArrayId) (v : Arr) : (s.setArr a v).objOvf = s.objOvf := rfl
@[simp] theorem setArr_partRoot (s : State) (a : ArrayId) (v : Arr) : (s.setArr a v).partRoot = s.partRoot := rfl
@[simp] theorem setArr_rootInval (s : State) (a : ArrayId) (v : Arr) : (s.setArr a v).rootInval = s.rootInval := rfl
@[simp] theorem setArr_rings (s : State) (a : ArrayId) (v : Arr) : (s.setArr a v).rings = s.rings := rfl
@[simp] theorem setArr_caps (s : State) (a : ArrayId) (v : Arr) : (s.setArr a v).caps = s.caps := rfl
@[simp] theorem setArr_capFixed (s : State) (a : ArrayId) (v : Arr) : (s.setArr a v).capFixed = s.capFixed := rfl
@[simp] theorem setArr_crown (s : State) (a : ArrayId) (v : Arr) : (s.setArr a v).crown = s.crown := rfl
@[simp] theorem setArr_crId (s : State) (a : ArrayId) (v : Arr) : (s.setArr a v).crId = s.crId := rfl
@[simp] theorem setArr_im (s : State) (a : ArrayId) (v : Arr) : (s.setArr a v).im = s.im := rfl
@[simp] theorem setArr_imSent (s : State) (a : ArrayId) (v : Arr) : (s.setArr a v).imSent = s.imSent := rfl
@[simp] theorem setArr_mem (s : State) (a : ArrayId) (v : Arr) : (s.setArr a v).mem = s.mem := rfl
@[simp] theorem setArr_freeNext (s : State) (a : ArrayId) (v : Arr) : (s.setArr a v).freeNext = s.freeNext := rfl
@[simp] theorem setArr_die_of (s : State) (a : ArrayId) (v : Arr) (x : DieId) : (s.setArr a v).die x = s.die x := rfl
@[simp] theorem setArr_cluster_of (s : State) (a : ArrayId) (v : Arr) (x : ClusterId) : (s.setArr a v).cluster x = s.cluster x := rfl
@[simp] theorem setArr_link_of (s : State) (a : ArrayId) (v : Arr) (x : LinkId) : (s.setArr a v).link x = s.link x := rfl
@[simp] theorem setArr_steward_of (s : State) (a : ArrayId) (v : Arr) (x : DieId) : (s.setArr a v).steward x = s.steward x := rfl
@[simp] theorem setArr_net_of (s : State) (a : ArrayId) (v : Arr) (x : DieId) : (s.setArr a v).net x = s.net x := rfl
@[simp] theorem setArr_debug_of (s : State) (a : ArrayId) (v : Arr) (x : DieId) : (s.setArr a v).debug x = s.debug x := rfl
@[simp] theorem setArr_monitor_of (s : State) (a : ArrayId) (v : Arr) (x : DieId) (i : Nat) : (s.setArr a v).monitor x i = s.monitor x i := rfl
@[simp] theorem setArr_ctx_of (s : State) (a : ArrayId) (v : Arr) (x : Nat) : (s.setArr a v).ctx x = s.ctx x := rfl
@[simp] theorem setArr_queue_of (s : State) (a : ArrayId) (v : Arr) (x : QueueId) : (s.setArr a v).queue x = s.queue x := rfl
@[simp] theorem setArr_mo_of (s : State) (a : ArrayId) (v : Arr) (x : Nat) : (s.setArr a v).mo x = s.mo x := rfl
@[simp] theorem setArr_sema_of (s : State) (a : ArrayId) (v : Arr) (x : Nat) : (s.setArr a v).sema x = s.sema x := rfl
@[simp] theorem setArr_ring_of (s : State) (a : ArrayId) (v : Arr) (x y : Nat) : (s.setArr a v).ring x y = s.ring x y := rfl
@[simp] theorem setArr_strap_of (s : State) (a : ArrayId) (v : Arr) (x : DieId) : (s.setArr a v).strap x = s.strap x := rfl
@[simp] theorem setArr_readByte_of (s : State) (a : ArrayId) (v : Arr) (x : Nat) : (s.setArr a v).readByte x = s.readByte x := rfl
@[simp] theorem setArr_hasDie_of (s : State) (a : ArrayId) (v : Arr) (x : DieId) : (s.setArr a v).hasDie x = s.hasDie x := rfl
@[simp] theorem setArr_hasCluster_of (s : State) (a : ArrayId) (v : Arr) (x : ClusterId) : (s.setArr a v).hasCluster x = s.hasCluster x := rfl
@[simp] theorem setArr_hasCore_of (s : State) (a : ArrayId) (v : Arr) (x : CoreId) : (s.setArr a v).hasCore x = s.hasCore x := rfl
@[simp] theorem setArr_hasArray_of (s : State) (a : ArrayId) (v : Arr) (x : ArrayId) : (s.setArr a v).hasArray x = s.hasArray x := rfl

/-! `writeByte` writes `mem` and nothing else. -/

@[simp] theorem writeByte_pending (s : State) (pa : Nat) (b : Byte) : (s.writeByte pa b).pending = s.pending := rfl
@[simp] theorem writeByte_build (s : State) (pa : Nat) (b : Byte) : (s.writeByte pa b).build = s.build := rfl
@[simp] theorem writeByte_straps (s : State) (pa : Nat) (b : Byte) : (s.writeByte pa b).straps = s.straps := rfl
@[simp] theorem writeByte_dies (s : State) (pa : Nat) (b : Byte) : (s.writeByte pa b).dies = s.dies := rfl
@[simp] theorem writeByte_clusters (s : State) (pa : Nat) (b : Byte) : (s.writeByte pa b).clusters = s.clusters := rfl
@[simp] theorem writeByte_cores (s : State) (pa : Nat) (b : Byte) : (s.writeByte pa b).cores = s.cores := rfl
@[simp] theorem writeByte_links (s : State) (pa : Nat) (b : Byte) : (s.writeByte pa b).links = s.links := rfl
@[simp] theorem writeByte_stewards (s : State) (pa : Nat) (b : Byte) : (s.writeByte pa b).stewards = s.stewards := rfl
@[simp] theorem writeByte_nets (s : State) (pa : Nat) (b : Byte) : (s.writeByte pa b).nets = s.nets := rfl
@[simp] theorem writeByte_debugs (s : State) (pa : Nat) (b : Byte) : (s.writeByte pa b).debugs = s.debugs := rfl
@[simp] theorem writeByte_monitors (s : State) (pa : Nat) (b : Byte) : (s.writeByte pa b).monitors = s.monitors := rfl
@[simp] theorem writeByte_ctxs (s : State) (pa : Nat) (b : Byte) : (s.writeByte pa b).ctxs = s.ctxs := rfl
@[simp] theorem writeByte_queues (s : State) (pa : Nat) (b : Byte) : (s.writeByte pa b).queues = s.queues := rfl
@[simp] theorem writeByte_mos (s : State) (pa : Nat) (b : Byte) : (s.writeByte pa b).mos = s.mos := rfl
@[simp] theorem writeByte_sems (s : State) (pa : Nat) (b : Byte) : (s.writeByte pa b).sems = s.sems := rfl
@[simp] theorem writeByte_launches (s : State) (pa : Nat) (b : Byte) : (s.writeByte pa b).launches = s.launches := rfl
@[simp] theorem writeByte_fences (s : State) (pa : Nat) (b : Byte) : (s.writeByte pa b).fences = s.fences := rfl
@[simp] theorem writeByte_fenceNext (s : State) (pa : Nat) (b : Byte) : (s.writeByte pa b).fenceNext = s.fenceNext := rfl
@[simp] theorem writeByte_msgs (s : State) (pa : Nat) (b : Byte) : (s.writeByte pa b).msgs = s.msgs := rfl
@[simp] theorem writeByte_msgNext (s : State) (pa : Nat) (b : Byte) : (s.writeByte pa b).msgNext = s.msgNext := rfl
@[simp] theorem writeByte_reqs (s : State) (pa : Nat) (b : Byte) : (s.writeByte pa b).reqs = s.reqs := rfl
@[simp] theorem writeByte_reqNext (s : State) (pa : Nat) (b : Byte) : (s.writeByte pa b).reqNext = s.reqNext := rfl
@[simp] theorem writeByte_ctxTbl (s : State) (pa : Nat) (b : Byte) : (s.writeByte pa b).ctxTbl = s.ctxTbl := rfl
@[simp] theorem writeByte_moTbl (s : State) (pa : Nat) (b : Byte) : (s.writeByte pa b).moTbl = s.moTbl := rfl
@[simp] theorem writeByte_qTbl (s : State) (pa : Nat) (b : Byte) : (s.writeByte pa b).qTbl = s.qTbl := rfl
@[simp] theorem writeByte_objReq (s : State) (pa : Nat) (b : Byte) : (s.writeByte pa b).objReq = s.objReq := rfl
@[simp] theorem writeByte_objHeld (s : State) (pa : Nat) (b : Byte) : (s.writeByte pa b).objHeld = s.objHeld := rfl
@[simp] theorem writeByte_objOvf (s : State) (pa : Nat) (b : Byte) : (s.writeByte pa b).objOvf = s.objOvf := rfl
@[simp] theorem writeByte_partRoot (s : State) (pa : Nat) (b : Byte) : (s.writeByte pa b).partRoot = s.partRoot := rfl
@[simp] theorem writeByte_rootInval (s : State) (pa : Nat) (b : Byte) : (s.writeByte pa b).rootInval = s.rootInval := rfl
@[simp] theorem writeByte_rings (s : State) (pa : Nat) (b : Byte) : (s.writeByte pa b).rings = s.rings := rfl
@[simp] theorem writeByte_caps (s : State) (pa : Nat) (b : Byte) : (s.writeByte pa b).caps = s.caps := rfl
@[simp] theorem writeByte_capFixed (s : State) (pa : Nat) (b : Byte) : (s.writeByte pa b).capFixed = s.capFixed := rfl
@[simp] theorem writeByte_crown (s : State) (pa : Nat) (b : Byte) : (s.writeByte pa b).crown = s.crown := rfl
@[simp] theorem writeByte_crId (s : State) (pa : Nat) (b : Byte) : (s.writeByte pa b).crId = s.crId := rfl
@[simp] theorem writeByte_im (s : State) (pa : Nat) (b : Byte) : (s.writeByte pa b).im = s.im := rfl
@[simp] theorem writeByte_imSent (s : State) (pa : Nat) (b : Byte) : (s.writeByte pa b).imSent = s.imSent := rfl
@[simp] theorem writeByte_freeNext (s : State) (pa : Nat) (b : Byte) : (s.writeByte pa b).freeNext = s.freeNext := rfl
@[simp] theorem writeByte_die_of (s : State) (pa : Nat) (b : Byte) (x : DieId) : (s.writeByte pa b).die x = s.die x := rfl
@[simp] theorem writeByte_cluster_of (s : State) (pa : Nat) (b : Byte) (x : ClusterId) : (s.writeByte pa b).cluster x = s.cluster x := rfl
@[simp] theorem writeByte_core_of (s : State) (pa : Nat) (b : Byte) (x : CoreId) : (s.writeByte pa b).core x = s.core x := rfl
@[simp] theorem writeByte_link_of (s : State) (pa : Nat) (b : Byte) (x : LinkId) : (s.writeByte pa b).link x = s.link x := rfl
@[simp] theorem writeByte_steward_of (s : State) (pa : Nat) (b : Byte) (x : DieId) : (s.writeByte pa b).steward x = s.steward x := rfl
@[simp] theorem writeByte_net_of (s : State) (pa : Nat) (b : Byte) (x : DieId) : (s.writeByte pa b).net x = s.net x := rfl
@[simp] theorem writeByte_debug_of (s : State) (pa : Nat) (b : Byte) (x : DieId) : (s.writeByte pa b).debug x = s.debug x := rfl
@[simp] theorem writeByte_monitor_of (s : State) (pa : Nat) (b : Byte) (x : DieId) (i : Nat) : (s.writeByte pa b).monitor x i = s.monitor x i := rfl
@[simp] theorem writeByte_ctx_of (s : State) (pa : Nat) (b : Byte) (x : Nat) : (s.writeByte pa b).ctx x = s.ctx x := rfl
@[simp] theorem writeByte_queue_of (s : State) (pa : Nat) (b : Byte) (x : QueueId) : (s.writeByte pa b).queue x = s.queue x := rfl
@[simp] theorem writeByte_mo_of (s : State) (pa : Nat) (b : Byte) (x : Nat) : (s.writeByte pa b).mo x = s.mo x := rfl
@[simp] theorem writeByte_sema_of (s : State) (pa : Nat) (b : Byte) (x : Nat) : (s.writeByte pa b).sema x = s.sema x := rfl
@[simp] theorem writeByte_ring_of (s : State) (pa : Nat) (b : Byte) (x y : Nat) : (s.writeByte pa b).ring x y = s.ring x y := rfl
@[simp] theorem writeByte_strap_of (s : State) (pa : Nat) (b : Byte) (x : DieId) : (s.writeByte pa b).strap x = s.strap x := rfl
@[simp] theorem writeByte_hasDie_of (s : State) (pa : Nat) (b : Byte) (x : DieId) : (s.writeByte pa b).hasDie x = s.hasDie x := rfl
@[simp] theorem writeByte_hasCluster_of (s : State) (pa : Nat) (b : Byte) (x : ClusterId) : (s.writeByte pa b).hasCluster x = s.hasCluster x := rfl
@[simp] theorem writeByte_hasCore_of (s : State) (pa : Nat) (b : Byte) (x : CoreId) : (s.writeByte pa b).hasCore x = s.hasCore x := rfl
@[simp] theorem writeByte_hasArray_of (s : State) (pa : Nat) (b : Byte) (x : ArrayId) : (s.writeByte pa b).hasArray x = s.hasArray x := rfl

/-! `postIm` writes `im` and nothing else. -/

@[simp] theorem postIm_pending (s : State) (d : DieId) (vec : Nat) (k : W32) : (s.postIm d vec k).pending = s.pending := rfl
@[simp] theorem postIm_build (s : State) (d : DieId) (vec : Nat) (k : W32) : (s.postIm d vec k).build = s.build := rfl
@[simp] theorem postIm_straps (s : State) (d : DieId) (vec : Nat) (k : W32) : (s.postIm d vec k).straps = s.straps := rfl
@[simp] theorem postIm_dies (s : State) (d : DieId) (vec : Nat) (k : W32) : (s.postIm d vec k).dies = s.dies := rfl
@[simp] theorem postIm_clusters (s : State) (d : DieId) (vec : Nat) (k : W32) : (s.postIm d vec k).clusters = s.clusters := rfl
@[simp] theorem postIm_cores (s : State) (d : DieId) (vec : Nat) (k : W32) : (s.postIm d vec k).cores = s.cores := rfl
@[simp] theorem postIm_links (s : State) (d : DieId) (vec : Nat) (k : W32) : (s.postIm d vec k).links = s.links := rfl
@[simp] theorem postIm_stewards (s : State) (d : DieId) (vec : Nat) (k : W32) : (s.postIm d vec k).stewards = s.stewards := rfl
@[simp] theorem postIm_nets (s : State) (d : DieId) (vec : Nat) (k : W32) : (s.postIm d vec k).nets = s.nets := rfl
@[simp] theorem postIm_debugs (s : State) (d : DieId) (vec : Nat) (k : W32) : (s.postIm d vec k).debugs = s.debugs := rfl
@[simp] theorem postIm_monitors (s : State) (d : DieId) (vec : Nat) (k : W32) : (s.postIm d vec k).monitors = s.monitors := rfl
@[simp] theorem postIm_ctxs (s : State) (d : DieId) (vec : Nat) (k : W32) : (s.postIm d vec k).ctxs = s.ctxs := rfl
@[simp] theorem postIm_queues (s : State) (d : DieId) (vec : Nat) (k : W32) : (s.postIm d vec k).queues = s.queues := rfl
@[simp] theorem postIm_mos (s : State) (d : DieId) (vec : Nat) (k : W32) : (s.postIm d vec k).mos = s.mos := rfl
@[simp] theorem postIm_sems (s : State) (d : DieId) (vec : Nat) (k : W32) : (s.postIm d vec k).sems = s.sems := rfl
@[simp] theorem postIm_launches (s : State) (d : DieId) (vec : Nat) (k : W32) : (s.postIm d vec k).launches = s.launches := rfl
@[simp] theorem postIm_fences (s : State) (d : DieId) (vec : Nat) (k : W32) : (s.postIm d vec k).fences = s.fences := rfl
@[simp] theorem postIm_fenceNext (s : State) (d : DieId) (vec : Nat) (k : W32) : (s.postIm d vec k).fenceNext = s.fenceNext := rfl
@[simp] theorem postIm_msgs (s : State) (d : DieId) (vec : Nat) (k : W32) : (s.postIm d vec k).msgs = s.msgs := rfl
@[simp] theorem postIm_msgNext (s : State) (d : DieId) (vec : Nat) (k : W32) : (s.postIm d vec k).msgNext = s.msgNext := rfl
@[simp] theorem postIm_reqs (s : State) (d : DieId) (vec : Nat) (k : W32) : (s.postIm d vec k).reqs = s.reqs := rfl
@[simp] theorem postIm_reqNext (s : State) (d : DieId) (vec : Nat) (k : W32) : (s.postIm d vec k).reqNext = s.reqNext := rfl
@[simp] theorem postIm_ctxTbl (s : State) (d : DieId) (vec : Nat) (k : W32) : (s.postIm d vec k).ctxTbl = s.ctxTbl := rfl
@[simp] theorem postIm_moTbl (s : State) (d : DieId) (vec : Nat) (k : W32) : (s.postIm d vec k).moTbl = s.moTbl := rfl
@[simp] theorem postIm_qTbl (s : State) (d : DieId) (vec : Nat) (k : W32) : (s.postIm d vec k).qTbl = s.qTbl := rfl
@[simp] theorem postIm_objReq (s : State) (d : DieId) (vec : Nat) (k : W32) : (s.postIm d vec k).objReq = s.objReq := rfl
@[simp] theorem postIm_objHeld (s : State) (d : DieId) (vec : Nat) (k : W32) : (s.postIm d vec k).objHeld = s.objHeld := rfl
@[simp] theorem postIm_objOvf (s : State) (d : DieId) (vec : Nat) (k : W32) : (s.postIm d vec k).objOvf = s.objOvf := rfl
@[simp] theorem postIm_partRoot (s : State) (d : DieId) (vec : Nat) (k : W32) : (s.postIm d vec k).partRoot = s.partRoot := rfl
@[simp] theorem postIm_rootInval (s : State) (d : DieId) (vec : Nat) (k : W32) : (s.postIm d vec k).rootInval = s.rootInval := rfl
@[simp] theorem postIm_rings (s : State) (d : DieId) (vec : Nat) (k : W32) : (s.postIm d vec k).rings = s.rings := rfl
@[simp] theorem postIm_caps (s : State) (d : DieId) (vec : Nat) (k : W32) : (s.postIm d vec k).caps = s.caps := rfl
@[simp] theorem postIm_capFixed (s : State) (d : DieId) (vec : Nat) (k : W32) : (s.postIm d vec k).capFixed = s.capFixed := rfl
@[simp] theorem postIm_crown (s : State) (d : DieId) (vec : Nat) (k : W32) : (s.postIm d vec k).crown = s.crown := rfl
@[simp] theorem postIm_crId (s : State) (d : DieId) (vec : Nat) (k : W32) : (s.postIm d vec k).crId = s.crId := rfl
@[simp] theorem postIm_imSent (s : State) (d : DieId) (vec : Nat) (k : W32) : (s.postIm d vec k).imSent = s.imSent := rfl
@[simp] theorem postIm_mem (s : State) (d : DieId) (vec : Nat) (k : W32) : (s.postIm d vec k).mem = s.mem := rfl
@[simp] theorem postIm_freeNext (s : State) (d : DieId) (vec : Nat) (k : W32) : (s.postIm d vec k).freeNext = s.freeNext := rfl
@[simp] theorem postIm_die_of (s : State) (d : DieId) (vec : Nat) (k : W32) (x : DieId) : (s.postIm d vec k).die x = s.die x := rfl
@[simp] theorem postIm_cluster_of (s : State) (d : DieId) (vec : Nat) (k : W32) (x : ClusterId) : (s.postIm d vec k).cluster x = s.cluster x := rfl
@[simp] theorem postIm_core_of (s : State) (d : DieId) (vec : Nat) (k : W32) (x : CoreId) : (s.postIm d vec k).core x = s.core x := rfl
@[simp] theorem postIm_link_of (s : State) (d : DieId) (vec : Nat) (k : W32) (x : LinkId) : (s.postIm d vec k).link x = s.link x := rfl
@[simp] theorem postIm_steward_of (s : State) (d : DieId) (vec : Nat) (k : W32) (x : DieId) : (s.postIm d vec k).steward x = s.steward x := rfl
@[simp] theorem postIm_net_of (s : State) (d : DieId) (vec : Nat) (k : W32) (x : DieId) : (s.postIm d vec k).net x = s.net x := rfl
@[simp] theorem postIm_debug_of (s : State) (d : DieId) (vec : Nat) (k : W32) (x : DieId) : (s.postIm d vec k).debug x = s.debug x := rfl
@[simp] theorem postIm_monitor_of (s : State) (d : DieId) (vec : Nat) (k : W32) (x : DieId) (i : Nat) : (s.postIm d vec k).monitor x i = s.monitor x i := rfl
@[simp] theorem postIm_ctx_of (s : State) (d : DieId) (vec : Nat) (k : W32) (x : Nat) : (s.postIm d vec k).ctx x = s.ctx x := rfl
@[simp] theorem postIm_queue_of (s : State) (d : DieId) (vec : Nat) (k : W32) (x : QueueId) : (s.postIm d vec k).queue x = s.queue x := rfl
@[simp] theorem postIm_mo_of (s : State) (d : DieId) (vec : Nat) (k : W32) (x : Nat) : (s.postIm d vec k).mo x = s.mo x := rfl
@[simp] theorem postIm_sema_of (s : State) (d : DieId) (vec : Nat) (k : W32) (x : Nat) : (s.postIm d vec k).sema x = s.sema x := rfl
@[simp] theorem postIm_ring_of (s : State) (d : DieId) (vec : Nat) (k : W32) (x y : Nat) : (s.postIm d vec k).ring x y = s.ring x y := rfl
@[simp] theorem postIm_strap_of (s : State) (d : DieId) (vec : Nat) (k : W32) (x : DieId) : (s.postIm d vec k).strap x = s.strap x := rfl
@[simp] theorem postIm_readByte_of (s : State) (d : DieId) (vec : Nat) (k : W32) (x : Nat) : (s.postIm d vec k).readByte x = s.readByte x := rfl
@[simp] theorem postIm_hasDie_of (s : State) (d : DieId) (vec : Nat) (k : W32) (x : DieId) : (s.postIm d vec k).hasDie x = s.hasDie x := rfl
@[simp] theorem postIm_hasCluster_of (s : State) (d : DieId) (vec : Nat) (k : W32) (x : ClusterId) : (s.postIm d vec k).hasCluster x = s.hasCluster x := rfl
@[simp] theorem postIm_hasCore_of (s : State) (d : DieId) (vec : Nat) (k : W32) (x : CoreId) : (s.postIm d vec k).hasCore x = s.hasCore x := rfl
@[simp] theorem postIm_hasArray_of (s : State) (d : DieId) (vec : Nat) (k : W32) (x : ArrayId) : (s.postIm d vec k).hasArray x = s.hasArray x := rfl

/-! Draws of a free value. -/

@[simp] theorem draw_pending (s : State) : s.draw.2.pending = s.pending := rfl
@[simp] theorem draw_build (s : State) : s.draw.2.build = s.build := rfl
@[simp] theorem draw_straps (s : State) : s.draw.2.straps = s.straps := rfl
@[simp] theorem draw_dies (s : State) : s.draw.2.dies = s.dies := rfl
@[simp] theorem draw_clusters (s : State) : s.draw.2.clusters = s.clusters := rfl
@[simp] theorem draw_cores (s : State) : s.draw.2.cores = s.cores := rfl
@[simp] theorem draw_links (s : State) : s.draw.2.links = s.links := rfl
@[simp] theorem draw_stewards (s : State) : s.draw.2.stewards = s.stewards := rfl
@[simp] theorem draw_nets (s : State) : s.draw.2.nets = s.nets := rfl
@[simp] theorem draw_debugs (s : State) : s.draw.2.debugs = s.debugs := rfl
@[simp] theorem draw_monitors (s : State) : s.draw.2.monitors = s.monitors := rfl
@[simp] theorem draw_ctxs (s : State) : s.draw.2.ctxs = s.ctxs := rfl
@[simp] theorem draw_queues (s : State) : s.draw.2.queues = s.queues := rfl
@[simp] theorem draw_mos (s : State) : s.draw.2.mos = s.mos := rfl
@[simp] theorem draw_sems (s : State) : s.draw.2.sems = s.sems := rfl
@[simp] theorem draw_launches (s : State) : s.draw.2.launches = s.launches := rfl
@[simp] theorem draw_fences (s : State) : s.draw.2.fences = s.fences := rfl
@[simp] theorem draw_fenceNext (s : State) : s.draw.2.fenceNext = s.fenceNext := rfl
@[simp] theorem draw_msgs (s : State) : s.draw.2.msgs = s.msgs := rfl
@[simp] theorem draw_msgNext (s : State) : s.draw.2.msgNext = s.msgNext := rfl
@[simp] theorem draw_reqs (s : State) : s.draw.2.reqs = s.reqs := rfl
@[simp] theorem draw_reqNext (s : State) : s.draw.2.reqNext = s.reqNext := rfl
@[simp] theorem draw_ctxTbl (s : State) : s.draw.2.ctxTbl = s.ctxTbl := rfl
@[simp] theorem draw_moTbl (s : State) : s.draw.2.moTbl = s.moTbl := rfl
@[simp] theorem draw_qTbl (s : State) : s.draw.2.qTbl = s.qTbl := rfl
@[simp] theorem draw_objReq (s : State) : s.draw.2.objReq = s.objReq := rfl
@[simp] theorem draw_objHeld (s : State) : s.draw.2.objHeld = s.objHeld := rfl
@[simp] theorem draw_objOvf (s : State) : s.draw.2.objOvf = s.objOvf := rfl
@[simp] theorem draw_partRoot (s : State) : s.draw.2.partRoot = s.partRoot := rfl
@[simp] theorem draw_rootInval (s : State) : s.draw.2.rootInval = s.rootInval := rfl
@[simp] theorem draw_rings (s : State) : s.draw.2.rings = s.rings := rfl
@[simp] theorem draw_caps (s : State) : s.draw.2.caps = s.caps := rfl
@[simp] theorem draw_capFixed (s : State) : s.draw.2.capFixed = s.capFixed := rfl
@[simp] theorem draw_crown (s : State) : s.draw.2.crown = s.crown := rfl
@[simp] theorem draw_crId (s : State) : s.draw.2.crId = s.crId := rfl
@[simp] theorem draw_im (s : State) : s.draw.2.im = s.im := rfl
@[simp] theorem draw_imSent (s : State) : s.draw.2.imSent = s.imSent := rfl
@[simp] theorem draw_mem (s : State) : s.draw.2.mem = s.mem := rfl
@[simp] theorem draw_freeNext (s : State) : s.draw.2.freeNext = s.freeNext + 1 := rfl

/-! Keys tell units apart. -/

theorem clusterKey_inj {a b : ClusterId} (h : a.key = b.key) : a = b := by
  obtain ⟨⟨d, hd⟩, ⟨c, hc⟩⟩ := a
  obtain ⟨⟨e, he⟩, ⟨f, hf⟩⟩ := b
  simp only [ClusterId.key] at h
  simp only [ClusterId.mk.injEq, Fin.mk.injEq]
  omega

theorem coreKey_inj {a b : CoreId} (h : a.key = b.key) : a = b := by
  obtain ⟨⟨d, hd⟩, ⟨c, hc⟩, ⟨i, hi⟩⟩ := a
  obtain ⟨⟨e, he⟩, ⟨f, hf⟩, ⟨j, hj⟩⟩ := b
  simp only [CoreId.key] at h
  simp only [CoreId.mk.injEq, Fin.mk.injEq]
  omega

theorem linkKey_inj {a b : LinkId} (h : a.key = b.key) : a = b := by
  obtain ⟨⟨d, hd⟩, ⟨c, hc⟩⟩ := a
  obtain ⟨⟨e, he⟩, ⟨f, hf⟩⟩ := b
  simp only [LinkId.key] at h
  simp only [LinkId.mk.injEq, Fin.mk.injEq]
  omega

theorem queueKey_inj {a b : QueueId} (h : a.key = b.key) : a = b := by
  obtain ⟨⟨d, hd⟩, x⟩ := a
  obtain ⟨⟨e, he⟩, y⟩ := b
  simp only [QueueId.key] at h
  have hx := x.isLt
  have hy := y.isLt
  simp only [QueueId.mk.injEq, Fin.mk.injEq]
  exact ⟨by omega, BitVec.eq_of_toNat_eq (by omega)⟩

/-! A record reads as it was last written, and writing one leaves the others alone. -/

@[simp] theorem die_setDie (s : State) (d : DieId) (v : Die) : (s.setDie d v).die d = v := by simp [setDie, die]
theorem die_setDie_other (s : State) (d e : DieId) v (h : e ≠ d) : (s.setDie d v).die e = s.die e := by
  simp only [setDie, die]
  exact SMap.get_put_other _ _ _ (fun g => h (Fin.ext g))
@[simp] theorem cluster_setCluster (s : State) (d : ClusterId) (v : Cluster) : (s.setCluster d v).cluster d = v := by simp [setCluster, cluster]
theorem cluster_setCluster_other (s : State) (d e : ClusterId) v (h : e ≠ d) : (s.setCluster d v).cluster e = s.cluster e := by
  simp only [setCluster, cluster]
  exact SMap.get_put_other _ _ _ (fun g => h (clusterKey_inj g))
@[simp] theorem core_setCore (s : State) (d : CoreId) (v : Core) : (s.setCore d v).core d = v := by simp [setCore, core]
theorem core_setCore_other (s : State) (d e : CoreId) v (h : e ≠ d) : (s.setCore d v).core e = s.core e := by
  simp only [setCore, core]
  exact SMap.get_put_other _ _ _ (fun g => h (coreKey_inj g))
@[simp] theorem link_setLink (s : State) (d : LinkId) (v : Link) : (s.setLink d v).link d = v := by simp [setLink, link]
theorem link_setLink_other (s : State) (d e : LinkId) v (h : e ≠ d) : (s.setLink d v).link e = s.link e := by
  simp only [setLink, link]
  exact SMap.get_put_other _ _ _ (fun g => h (linkKey_inj g))
@[simp] theorem steward_setSteward (s : State) (d : DieId) (v : Steward) : (s.setSteward d v).steward d = v := by simp [setSteward, steward]
theorem steward_setSteward_other (s : State) (d e : DieId) v (h : e ≠ d) : (s.setSteward d v).steward e = s.steward e := by
  simp only [setSteward, steward]
  exact SMap.get_put_other _ _ _ (fun g => h (Fin.ext g))
@[simp] theorem net_setNet (s : State) (d : DieId) (v : NetTime) : (s.setNet d v).net d = v := by simp [setNet, net]
theorem net_setNet_other (s : State) (d e : DieId) v (h : e ≠ d) : (s.setNet d v).net e = s.net e := by
  simp only [setNet, net]
  exact SMap.get_put_other _ _ _ (fun g => h (Fin.ext g))
@[simp] theorem debug_setDebug (s : State) (d : DieId) (v : Debug) : (s.setDebug d v).debug d = v := by simp [setDebug, debug]
theorem debug_setDebug_other (s : State) (d e : DieId) v (h : e ≠ d) : (s.setDebug d v).debug e = s.debug e := by
  simp only [setDebug, debug]
  exact SMap.get_put_other _ _ _ (fun g => h (Fin.ext g))
@[simp] theorem ctx_setCtx (s : State) (d : Nat) (v : Ctx) : (s.setCtx d v).ctx d = v := by simp [setCtx, ctx]
theorem ctx_setCtx_other (s : State) (d e : Nat) v (h : e ≠ d) : (s.setCtx d v).ctx e = s.ctx e := by
  simp only [setCtx, ctx]
  exact SMap.get_put_other _ _ _ (fun g => h (id g))
@[simp] theorem queue_setQueue (s : State) (d : QueueId) (v : Queue) : (s.setQueue d v).queue d = v := by simp [setQueue, queue]
theorem queue_setQueue_other (s : State) (d e : QueueId) v (h : e ≠ d) : (s.setQueue d v).queue e = s.queue e := by
  simp only [setQueue, queue]
  exact SMap.get_put_other _ _ _ (fun g => h (queueKey_inj g))
@[simp] theorem mo_setMo (s : State) (d : Nat) (v : MemObj) : (s.setMo d v).mo d = v := by simp [setMo, mo]
theorem mo_setMo_other (s : State) (d e : Nat) v (h : e ≠ d) : (s.setMo d v).mo e = s.mo e := by
  simp only [setMo, mo]
  exact SMap.get_put_other _ _ _ (fun g => h (id g))
@[simp] theorem sema_setSema (s : State) (d : Nat) (v : Sema) : (s.setSema d v).sema d = v := by simp [setSema, sema]
theorem sema_setSema_other (s : State) (d e : Nat) v (h : e ≠ d) : (s.setSema d v).sema e = s.sema e := by
  simp only [setSema, sema]
  exact SMap.get_put_other _ _ _ (fun g => h (id g))
@[simp] theorem monitor_setMonitor (s : State) (d : DieId) (m : Nat) (v : Monitor) :
    (s.setMonitor d m v).monitor d m = v := by simp [setMonitor, monitor]
@[simp] theorem ring_setRing (s : State) (p r : Nat) (v : Ring) : (s.setRing p r v).ring p r = v := by
  simp [setRing, ring]
@[simp] theorem arr_setArr (s : State) (a : ArrayId) (v : Arr) : (s.setArr a v).arr a = v := by
  rw [arr, setArr, core_setCore]
  exact SMap.get_put_same _ _ _ _
@[simp] theorem launch_setLaunch (s : State) (q : Nat) (v : Launch) : (s.setLaunch q v).launches.find? q = some v := by
  simp [setLaunch]
@[simp] theorem readByte_writeByte (s : State) (pa : Nat) (b : Byte) : (s.writeByte pa b).readByte pa = b := by
  simp [writeByte, readByte]
theorem readByte_writeByte_other (s : State) {pa x : Nat} (b : Byte) (h : x ≠ pa) :
    (s.writeByte pa b).readByte x = s.readByte x := by
  simp only [writeByte, readByte]
  exact SMap.get_setD_other _ _ _ h

/-- A write of several bytes leaves every address outside them alone. -/
theorem readByte_writeBytes_other (s : State) (pa : Nat) (bs : List Byte) (x : Nat)
    (h : x < pa ∨ pa + bs.length ≤ x) : (s.writeBytes pa bs).readByte x = s.readByte x := by
  induction bs generalizing s pa with
  | nil => rfl
  | cons b bs ih =>
    simp only [List.length_cons] at h
    simp only [writeBytes]
    rw [ih (s.writeByte pa b) (pa + 1) (by omega)]
    exact readByte_writeByte_other s b (by omega)

/-- A byte that nothing has written reads 0 (log entry 3). -/
theorem readByte_unlisted (s : State) (x : Nat) (h : s.mem.find? x = none) : s.readByte x = 0 := by
  simp [readByte, SMap.get, h]

end Sys2Proof.Machine.State
end

