-- ==== Sys2Proof/Laws/Seq.lean ====
section
/-!
SUPPORT. What a sequencer does with the instruction at its PC, once: the check of R99, the guard, the comparison of the
pair (R106) and the trap, under `Takes`.
-/
namespace Sys2Proof.Machine

/-- A guard is true exactly when the model's guard function says so. -/
theorem guard_of_guardTrue {r : SeqRegs} {w : W32} (h : GuardTrue r w) : r.guard w = true := by
  unfold GuardTrue bits at h
  have e : field w.toNat 31 31 = if bitAt w.toNat 31 = true then 1 else 0 := by
    simp only [field, bitAt, Nat.testBit, Nat.shiftRight_eq_div_pow, Nat.one_and_eq_mod_two]
    norm_num
    split <;> omega
  simp only [SeqRegs.guard, SeqRegs.pred, guardPred, guardNeg]
  rw [e] at h
  by_cases hb : bitAt w.toNat 31 = true <;> by_cases hp : bitAt r.p.toNat (field w.toNat 30 28) = true <;>
    by_cases hz : field w.toNat 30 28 = 0 <;> simp_all

theorem not_guard_of_guardFalse {r : SeqRegs} {w : W32} (h : ¬ GuardTrue r w) : r.guard w = false := by
  unfold GuardTrue bits at h
  have e : field w.toNat 31 31 = if bitAt w.toNat 31 = true then 1 else 0 := by
    simp only [field, bitAt, Nat.testBit, Nat.shiftRight_eq_div_pow, Nat.one_and_eq_mod_two]
    norm_num
    split <;> omega
  simp only [SeqRegs.guard, SeqRegs.pred, guardPred, guardNeg]
  rw [e] at h
  by_cases hb : bitAt w.toNat 31 = true <;> by_cases hp : bitAt r.p.toNat (field w.toNat 30 28) = true <;>
    by_cases hz : field w.toNat 30 28 = 0 <;> simp_all

namespace Takes

variable {s : State} {c : CoreId} {w : W32} {u op : Nat}

theorem canTake (h : Takes s c w u op) : s.canTake c = true := by simp [State.canTake, h.runs, h.free]

theorem opOf_scalar (h : Takes s c w 0 op) (l : scalarListed op = true) : opOf w = some (0, op) := by
  have hu : unitOf w = 0 := h.unit
  have ho : opField w = op := by unfold opField; simpa using h.opcode
  simp [opOf, hu, ho, l]

theorem opOf_engine (h : Takes s c w u op) (hu : u ≠ 0) (l : engineListed u op = true) : opOf w = some (u, op) := by
  have hu' : unitOf w = u := h.unit
  have ho : eopField w = op := by unfold eopField; simpa [hu] using h.opcode
  simp [opOf, hu', ho, l, hu]

/-- The inputs that the pair of a core receives. -/
def inputs (s : State) (c : CoreId) (w : W32) : SeqIn :=
  { time := (s.die c.die).count, creg := s.cregValue c (fCreg w) }

/-- A word that passes the check of R99 has its effect on both sequencers where its guard is true. -/
theorem seqRow {enc : W32 → Bool} {eff : SeqIn → SeqRegs → Eff} {after : State → Eff → Eff → State}
    (h : Takes s c w u op) (hop : opOf w = some (u, op)) (he : enc w = true) (hg : (s.core c).seq.guard w = true) :
    s.seqRow c w u op enc eff after =
      match (eff (inputs s c w) (s.core c).seq).trap with
      | some t => s.seqFault c 0 t.1 t.2.1 t.2.2 w
      | none => after s (eff (inputs s c w) (s.core c).seq) (eff (inputs s c w) (s.core c).seq) := by
  have hpc : ¬ (s.core c).codeWords ≤ (s.core c).seq.pc.toNat := by have := h.inside; omega
  have ht : s.twinsAgree c = true := by simp [State.twinsAgree, h.twins]
  simp only [State.seqRow, h.canTake, hpc, h.word, hop, he, h.twins, hg, ht]
  simp
  rfl

/-- Where its guard is false it only goes on to the next instruction. -/
theorem seqRow_guardFalse {enc : W32 → Bool} {eff : SeqIn → SeqRegs → Eff} {after : State → Eff → Eff → State}
    (h : Takes s c w u op) (hop : opOf w = some (u, op)) (he : enc w = true) (hg : (s.core c).seq.guard w = false) :
    s.seqRow c w u op enc eff after = after s (s.core c).seq.goOn (s.core c).seq.goOn := by
  have hpc : ¬ (s.core c).codeWords ≤ (s.core c).seq.pc.toNat := by have := h.inside; omega
  have ht : s.twinsAgree c = true := by simp [State.twinsAgree, h.twins]
  simp only [State.seqRow, h.canTake, hpc, h.word, hop, he, h.twins, hg, ht]
  simp [SeqRegs.goOn]

/-- A word with a reserved field set raises F-0501, whatever its guard. -/
theorem seqRow_reserved {enc : W32 → Bool} {eff : SeqIn → SeqRegs → Eff} {after : State → Eff → Eff → State}
    (h : Takes s c w u op) (hop : opOf w = some (u, op)) (he : enc w = false) :
    s.seqRow c w u op enc eff after = s.seqFault c 0 0x0501 0 0 w := by
  have hpc : ¬ (s.core c).codeWords ≤ (s.core c).seq.pc.toNat := by have := h.inside; omega
  simp only [State.seqRow, h.canTake, hpc, h.word, hop, he]
  simp

end Takes

/-- Both sequencers take an effect of a pair that agrees. -/
theorem commit_withPair {s : State} {c : CoreId} (a : Eff) (ht : (s.core c).twin = (s.core c).seq) :
    s.commit c a a = s.withPair c (a.apply (s.core c).seq) := by
  simp only [State.commit, State.updCore, State.withPair, ht]

@[simp] theorem read_zero (r : SeqRegs) : r.read 0 = 0 := rfl

theorem read_write (r : SeqRegs) (rd n : Nat) (v : W64) :
    (r.write rd v).read n = if n = rd ∧ n ≠ 0 then v else r.read n := by
  unfold SeqRegs.write SeqRegs.read
  by_cases h0 : rd = 0
  · subst h0
    by_cases hn : n = 0 <;> simp [hn]
  · by_cases hn : n = 0
    · simp [hn]
    · by_cases he : n = rd
      · subst he
        simp [hn]
      · simp [h0, hn, he, SMap.get_setD_other _ _ _ he]

/-- An effect that writes one register and goes on. -/
theorem wrote_result (r : SeqRegs) (rd : Nat) (v : W64) (e : Eff) (h : e.rd = (r.result rd v).rd) (hp : e.p = r.p)
    (hpc : e.pc = r.pc + 1) (hs : e.stack = .keep) : Wrote r (e.apply r) rd v := by
  have hw : ∀ x : SeqRegs, ∀ n,
      ({ x with p := e.p, pc := e.pc, stack := e.stack.apply x.stack } : SeqRegs).read n = x.read n :=
    fun _ _ => rfl
  simp only [SeqRegs.result] at h
  constructor
  · intro h0
    simp only [Eff.apply, h, hw]
    rw [read_write]
    simp [h0]
  · rfl
  · intro n hn
    simp only [Eff.apply, h, hw]
    rw [read_write]
    simp [hn]
  · simp only [Eff.apply, hp]
  · simp only [Eff.apply, hpc]
  · simp only [Eff.apply, hs, h, StackOp.apply]
    unfold SeqRegs.write
    split <;> rfl

end Sys2Proof.Machine
end

