-- ==== Sys2Proof/Machine/Pins.lean ====
section
/-!
DEFINITION. The output signals of the ports, as what State holds gives them: the levels of Tables 25-2, 25-4, 25-5 and 25-7 to
25-9 in every condition of Table 25-11 (R454 to R473). No command reads them.
-/
namespace Sys2Proof.Machine

/-- The 32-bit IDCODE of the debug port (Table 25-9). -/
def idcode : W32 := 0x030119A7

/-- The state that DBG_TMS takes the test access port to at an edge of DBG_TCK (IEEE 1149.1).
PRESUMED, log entry 60. -/
def TapState.next (t : TapState) (tms : Bool) : TapState :=
  match t, tms with
  | .reset, true => .reset
  | .reset, false => .idle
  | .idle, true => .selectDr
  | .idle, false => .idle
  | .selectDr, true => .selectIr
  | .selectDr, false => .captureDr
  | .captureDr, true => .exit1Dr
  | .captureDr, false => .shiftDr
  | .shiftDr, true => .exit1Dr
  | .shiftDr, false => .shiftDr
  | .exit1Dr, true => .updateDr
  | .exit1Dr, false => .pauseDr
  | .pauseDr, true => .exit2Dr
  | .pauseDr, false => .pauseDr
  | .exit2Dr, true => .updateDr
  | .exit2Dr, false => .shiftDr
  | .updateDr, true => .selectDr
  | .updateDr, false => .idle
  | .selectIr, true => .reset
  | .selectIr, false => .captureIr
  | .captureIr, true => .exit1Ir
  | .captureIr, false => .shiftIr
  | .shiftIr, true => .exit1Ir
  | .shiftIr, false => .shiftIr
  | .exit1Ir, true => .updateIr
  | .exit1Ir, false => .pauseIr
  | .pauseIr, true => .exit2Ir
  | .pauseIr, false => .pauseIr
  | .exit2Ir, true => .updateIr
  | .exit2Ir, false => .shiftIr
  | .updateIr, true => .selectDr
  | .updateIr, false => .idle

/-- The data register that the instruction register selects, with its length, as Capture-DR loads it: codes other than those of
Table 25-9 select BYPASS, and a bypass register captures 0 (IEEE 1149.1). PRESUMED, log entry 60. -/
def Debug.capture (g : Debug) : Nat × Nat :=
  if g.ir = 0x1 then (32, idcode.toNat)
  else if g.ir = 0x2 then (32, g.addr.toNat)
  else if g.ir = 0x3 then (66, place (bit g.err) 65 + place (bit g.write) 64 + g.data.toNat)
  else (1, 0)

/-- Whether a command is a Crown request (R459). -/
def isCrown : Instr → Bool
  | .doorbell _ _ _ _ | .ctxCreate _ _ _ | .ctxAbort _ _ _ | .ctxDestroy _ _ _ | .qCreate _ _ _ | .qDestroy _ _ _
  | .moRegister _ _ _ | .moDestroy _ _ _ | .semCreate _ _ _ | .semDestroy _ _ _ | .retry _ _ _ _ | .fail _ _ _ _
  | .ack _ _ _ _ | .partRootCommit _ _ _ _ | .hostDone _ _ _ | .dumpFree _ _ _ _ | .snapMask _ _ _ _
  | .clearMask _ _ _ _ | .tableBaseWrite _ _ _ _ | .ringBaseWrite _ _ _ _ _ | .ringCfgWrite _ _ _ _ _
  | .ringRdWrite _ _ _ _ _ | .ovfCtlFree _ _ _ _ | .registerWrite _ _ _ _ _ | .registerRead _ _ _ => true
  | _ => false

/-- Sixteen bits on each of 48 lanes: lane j is in bits 16j + 15 to 16j (R462). -/
def onLanes (word : Nat → W16) : BitVec 768 :=
  (List.range 48).foldl (fun v j => v ||| ((word j).zeroExtend 768 <<< (16 * j))) 0

/-- The identity word of a transmit lane (R317). -/
def identWord (k : Nat) : W16 := BitVec.ofNat 16 (place 0xA 12 + place (k % 64) 6 + (63 - k % 64))

/-- A flit on the transmit lanes of a link: logical lane i carries its bytes 2i and 2i + 1, the payload first, and a spare lane 0
(R310, R311). The spec gives no order of bytes over the lanes. DESIGN CHOICE, log entry 88. -/
def flitLanes (lanes : List Nat) (raw : List Byte) : BitVec 768 :=
  onLanes fun j =>
    match lanes.findIdx? fun k => decide (k = j) with
    | some i => BitVec.ofNat 16 (fieldAt raw (2 * i) 2)
    | none => 0

namespace State

/-- The die's ports are out of block reset. -/
def portsUp (s : State) (d : DieId) : Bool := decide ((s.die d).stage ≠ .held)

/-- A Peat path's OFFER, and with it GRAN, TAG, PART, CTX, DATA and BMASK of the request that is offered (Table 25-2, R455). -/
def ptOffer (s : State) (p : PortId) (write : Bool) : Bool := s.portsUp p.die && (s.offered p write).isSome
def ptGran (s : State) (p : PortId) (write : Bool) : BitVec 46 :=
  match s.offered p write with
  | some (_, _, r, _) => BitVec.ofNat 46 (r.pa / 64)
  | none => 0
def ptTag (s : State) (p : PortId) (write : Bool) : BitVec 10 :=
  match s.offered p write with
  | some (_, _, _, tag) => BitVec.ofNat 10 tag
  | none => 0
def ptPart (s : State) (p : PortId) (write : Bool) : BitVec 4 :=
  match s.offered p write with
  | some (_, _, r, _) => BitVec.ofNat 4 r.partition
  | none => 0
def ptCtx (s : State) (p : PortId) (write : Bool) : BitVec 14 :=
  match s.offered p write with
  | some (_, _, r, _) => BitVec.ofNat 14 r.ctx
  | none => 0
def ptData (s : State) (p : PortId) : BitVec 512 :=
  match s.offered p true with
  | some (_, _, r, _) => r.data.foldl (fun (v : BitVec 512) (b : Nat × Byte) => v ||| (b.2.zeroExtend 512 <<< (8 * (b.1 % 64)))) 0
  | none => 0
def ptBmask (s : State) (p : PortId) : BitVec 64 :=
  match s.offered p true with
  | some (_, _, r, _) => r.data.foldl (fun (v : BitVec 64) (b : Nat × Byte) => v ||| (1#64 <<< (b.1 % 64))) 0
  | none => 0

/-- CR_REQ_READY: fewer than 16 Crown requests are held, which are those of the queue of commands (R459). -/
def crReqReady (s : State) : Bool := s.portsUp die0 && decide ((s.pending.countP isCrown) < 16)

/-- CR_RSP_ID, CR_RDATA and CR_RSP_ERR of the last response (Table 25-4). -/
def crRsp (s : State) : Byte × W64 × Bool := (s.crId, s.crown.data, s.crown.err)

/-- The interrupt messages that a die holds, at most 64, and those whose sources wait for room (R461). DEDUCED, log entry 88. -/
def imHeld (s : State) (d : DieId) : List (W16 × W32) := (s.im.get [] d.val).take 64
def imWaiting (s : State) (d : DieId) : List (W16 × W32) := (s.im.get [] d.val).drop 64

/-- IM_VALID, and IM_VEC with IM_DATA. -/
def imValid (s : State) (d : DieId) : Bool := s.portsUp d && !(s.imHeld d).isEmpty
def imMessage (s : State) (d : DieId) : W16 × W32 := (s.imHeld d).headD (0, 0)

/-- MT_TRAIN: from the enabling of the link until it is FAILED, UNUSED or reset (R462, R463). -/
def mtTrain (s : State) (l : LinkId) : Bool :=
  let k := s.link l
  s.portsUp l.die && k.enabled && decide (k.st ≠ .failed) && decide (k.st ≠ .unused)

/-- MT_TXD: identity words in IDENT, the flit that was sent last while flits cross, and 0 on a link that is not used (R317, R462,
R463). What a link in another state sends is not laid out; it is 0 here. DESIGN CHOICE, log entry 88. -/
def mtTxd (s : State) (l : LinkId) : BitVec 768 :=
  let k := s.link l
  if !s.mtTrain l then 0
  else
    match k.st with
    | .ident => onLanes identWord
    | .active => (k.held.getLast?.map fun h => flitLanes k.txLanes h.1.raw).getD 0
    | _ => 0

/-- MAC_TX_EN: frames leave (R435). -/
def macTxEn (s : State) (d : DieId) : Bool := s.portsUp d && decide ((s.die d).macMode < 2) && !(s.net d).tx.isEmpty

/-- XS_CS_N between two accesses, and XS_RST_N (Table 25-11): a flash access is made whole within a step. -/
def xsCsN (_ : State) (_ : DieId) : Bool := true
def xsRstN (s : State) (d : DieId) : Bool := s.portsUp d

/-- PWR_VREQ (R467) and PPS_OUT (R440). -/
def pwrVreq (s : State) (d : DieId) : Byte := if s.portsUp d then BitVec.ofNat 8 (s.steward d).vreq else 0x64
def ppsOut (s : State) (d : DieId) : Bool := s.portsUp d && (s.net d).pps

/-- SAFE_ERR_P with SAFE_ERR_N, SAFE_HB, SAFE_SSR, which is low-active, and READY (Tables 25-8, 25-11). -/
def safeErr (s : State) (d : DieId) : BitVec 2 := if s.portsUp d then errPins (s.errDriven d) else errPins true
def safeHb (s : State) (d : DieId) : Bool := s.portsUp d && (s.steward d).safety.hb
def safeSsr (s : State) (d : DieId) : Bool := s.portsUp d && !s.ssrAsserted d
def readyOut (s : State) (d : DieId) : Bool := s.portsUp d && s.readyHigh d

/-- DBG_TDO in Capture-DR: the lowest bit of the data register that the instruction selects, which is shifted out first (IEEE
1149.1). -/
def dbgTdo (s : State) (d : DieId) : Bool := bitAt (s.debug d).capture.2 0

end State

end Sys2Proof.Machine
end

