-- ==== Sys2Proof/Tests/Slice0.lean ====
section
/-!
SUPPORT. Tests of this model: the checks of WellFormed refuse ill-formed commands, every statement's hypotheses are met by
a concrete state, and a few results worked out from the spec by hand.
-/
namespace Sys2Proof.Tests

-- One thread checks the tests one after another: each would otherwise wait on a thread of its own.
set_option Elab.async false
open Sys2Proof Sys2Proof.Machine

/-- Die 0, its first cluster, cores and array, and a queue. -/
def d0 : DieId := 0
def d1 : DieId := 1
def k0 : ClusterId := ⟨0, 0⟩
def c0 : CoreId := ⟨0, 0, 0⟩
def c1 : CoreId := ⟨0, 0, 1⟩
def a0 : ArrayId := ⟨c0, 0⟩
def q0 : QueueId := ⟨0, 3⟩
def l0 : LinkId := ⟨0, 0⟩

/-- The first core runs a one-word program. -/
def runs (w : W32) (f : Core → Core := id) (s : State := State.reset) : State :=
  s.setCore c0 (f { run := .running, code := ⟨[(0, w)]⟩, codeWords := 1 })

/-- A scalar word of an opcode, and an engine word of a unit and opcode, with the other fields. -/
def scalarW (op : Nat) (rest : Nat := 0) : W32 := BitVec.ofNat 32 (op * 2 ^ 19 + rest)
def engineW (u op : Nat) (rest : Nat := 0) : W32 := BitVec.ofNat 32 (u * 2 ^ 25 + op * 2 ^ 20 + rest)

theorem takes_iff (s : State) (c : CoreId) (w : W32) (u op : Nat) : Takes s c w u op ↔
    s.hasCore c = true ∧ (s.core c).run = .running ∧ (s.core c).stall = .none ∧ (s.core c).twin = (s.core c).seq ∧
    (s.core c).seq.pc.toNat < (s.core c).codeWords ∧ (s.core c).code.find? (s.core c).seq.pc.toNat = some w ∧
    field w.toNat 27 25 = u ∧ (if u = 0 then field w.toNat 24 19 else field w.toNat 24 20) = op :=
  ⟨fun h => ⟨h.here, h.runs, h.free, h.twins, h.inside, h.word, h.unit, h.opcode⟩,
   fun ⟨a, b, c, d, e, f, g, h⟩ => ⟨a, b, c, d, e, f, g, h⟩⟩

theorem syncTakes_iff (s : State) (c : CoreId) (w : W32) (op : Nat) : SyncTakes s c w op ↔
    Takes s c w 5 op ∧ GuardTrue (s.core c).seq w ∧ Calm s c ∧ s.isPaired c = false :=
  ⟨fun h => ⟨h.takes, h.guard, h.calm, h.alone⟩, fun ⟨a, b, c, d⟩ => ⟨a, b, c, d⟩⟩

theorem serves_iff (s : State) (p : DPath) (i : Nat) (kind : DKind) (r : List Byte) : Serves s p i kind r ↔
    s.hasDie State.die0 = true ∧ p.mailbox = some i ∧ s.waitingReq State.die0 p = some r ∧
    s.stewardServes State.die0 = true ∧ dKind r = kind ∧ s.dictTurn State.die0 p = true ∧
    s.notOffered State.die0 p r = false ∧ 100000000 ≤ s.bucketNow State.die0 p ∧ s.dictCheck State.die0 p r = 0 :=
  ⟨fun h => ⟨h.die, h.box, h.waits, h.open', h.isKind, h.turn, h.offered, h.token, h.checks⟩,
   fun ⟨a, b, c, d, e, f, g, h, i⟩ => ⟨a, b, c, d, e, f, g, h, i⟩⟩

theorem hears_iff (s : State) (d : DieId) (f : List Byte) (m : PtpMsg) (type : Nat) : Hears s d f m type ↔
    s.hasDie d = true ∧ (s.die d).stage ≠ .held ∧ s.macAccepts d f = true ∧ (etherType f).1 = 0x88F7 ∧ ptpOf f = some m ∧
    m.type = type ∧ ntRole (s.objVal d 0x2D01 0) ≠ 0 ∧ s.caroriRuns d = true :=
  ⟨fun h => ⟨h.die, h.stage, h.accepts, h.ether, h.msg, h.isType, h.role', h.runs⟩,
   fun ⟨a, b, c, d, e, f, g, h⟩ => ⟨a, b, c, d, e, f, g, h⟩⟩

/-- What the next state of a command satisfies; false where the command stops. -/
def nextIs (o : Host.Outcome State Fault Refusal) (p : State → Bool) : Bool :=
  match o with
  | .next t => p t
  | _ => false

/-! Witnesses: each theorem shows a state and operands that meet a statement's hypotheses together. -/

theorem test_wit_StepRunsTheFrontCommand :
    ({ State.reset with pending := [.nop q0] } : State).pending = .nop q0 :: [] ∧ State.reset.pending = [] := by decide

theorem test_wit_StepKeepsTheInvariant :
    State.reset.build.legal = true ∧ State.reset.mem.wfD 0 = true ∧
      nextIs (step { State.reset with pending := [.sessionTimeout d0 1] }) (fun t => decide (t = State.reset)) = true := by
  decide +kernel

theorem test_wit_CommandsKeepQueueAndPackage :
    nextIs (exec (.sessionTimeout d0 1) State.reset) (fun t => decide (t = State.reset)) = true := by decide +kernel

theorem test_wit_WellFormedCommandsAlwaysAnswer : (Instr.nop q0).wf State.reset.build = true := by decide +kernel

theorem test_wit_ScalarArithmetic :
    (∀ e ∈ registerForms, Takes (runs (scalarW e.2.1)) c0 (scalarW e.2.1) 0 e.2.1 ∧
      GuardTrue ((runs (scalarW e.2.1)).core c0).seq (scalarW e.2.1) ∧ bits (scalarW e.2.1) 3 0 = 0) ∧
    (∀ e ∈ immediateForms, Takes (runs (scalarW e.2.1)) c0 (scalarW e.2.1) 0 e.2.1 ∧
      GuardTrue ((runs (scalarW e.2.1)).core c0).seq (scalarW e.2.1) ∧
      (e.2.2.1 = true → bits (scalarW e.2.1) 8 6 = 0)) ∧
    (∀ op ∈ [0x19, 0x1A], Takes (runs (scalarW op)) c0 (scalarW op) 0 op ∧
      GuardTrue ((runs (scalarW op)).core c0).seq (scalarW op)) := by
  simp only [takes_iff, GuardTrue]; decide +kernel

theorem test_wit_ComparesAndPredicates :
    (∀ op ∈ [0x1B, 0x1C, 0x1D, 0x1E, 0x1F, 0x20], Takes (runs (scalarW op)) c0 (scalarW op) 0 op ∧
      GuardTrue ((runs (scalarW op)).core c0).seq (scalarW op) ∧ bits (scalarW op) 18 0 = 0) := by
  simp only [takes_iff, GuardTrue]; decide +kernel

theorem test_wit_SequencerOperandFaults :
    (∀ op ∈ [0x31, 0x32], Takes (runs (scalarW op) fun k => { k with seq := jumped {} 0 (List.replicate 16 0), twin := jumped {} 0 (List.replicate 16 0) }) c0 (scalarW op) 0 op ∧
      GuardTrue (jumped {} 0 (List.replicate 16 0)) (scalarW op) ∧ bits (scalarW op) 18 14 = 0) ∧
    (∀ op ∈ [0x33, 0x36], Takes (runs (scalarW op)) c0 (scalarW op) 0 op ∧
      GuardTrue ((runs (scalarW op)).core c0).seq (scalarW op) ∧ bits (scalarW op) 18 0 = 0) ∧
    (∀ op ∈ [0x23, 0x24, 0x25, 0x26, 0x27, 0x29, 0x2A, 0x2B], Takes (runs (scalarW op 0x200) fun k => { k with
        seq := { s := ⟨[(1, 1)]⟩ }, twin := { s := ⟨[(1, 1)]⟩ } }) c0 (scalarW op 0x200) 0 op ∧
      (SeqRegs.read { s := ⟨[(1, 1)]⟩ } (bits (scalarW op 0x200) 13 9)).toNat % 2 ≠ 0) := by
  simp only [takes_iff, GuardTrue]; decide +kernel

/-- A core with an operand register at a value. -/
def withReg (n : Nat) (v : W64) (k : Core) : Core := { k with seq := { s := ⟨[(n, v)]⟩ }, twin := { s := ⟨[(n, v)]⟩ } }

/-- A launch of one core on die 0, of context 0 and queue `q0`. -/
def launch0 : Launch := { ctx := 0, partition := 0, cmd := List.replicate 64 0, pos := 0 }

/-- The first core runs a word for the launch of queue `q0`, whose context is RESIDENT. -/
def runsFor (w : W32) (f : Core → Core := id) : State :=
  runs w (fun k => f { k with part := some 3 })
    { State.reset with launches := ⟨[(3, launch0)]⟩, ctxs := ⟨[(0, { st := .resident })]⟩ }

theorem test_wit_TrapRecordAndTwinMismatch :
    (Takes (runsFor (scalarW 0x36)) c0 (scalarW 0x36) 0 0x36 ∧
      GuardTrue ((runsFor (scalarW 0x36)).core c0).seq (scalarW 0x36) ∧ bits (scalarW 0x36) 18 14 = 0 ∧
      ((runsFor (scalarW 0x36)).core c0).part = some 3 ∧ (queueOf 3).die = c0.die ∧
      (runsFor (scalarW 0x36)).launches.find? 3 = some launch0 ∧ launch0.fault = none ∧
      ((runsFor (scalarW 0x36)).ctx launch0.ctx).st = .resident) ∧
    (Takes (runs 0) c0 0 0 0 ∧ bits 0 3 0 = 0 ∧ bits 0 31 28 = 0) := by
  simp only [takes_iff, GuardTrue]; decide +kernel

theorem test_wit_ControlRegisters :
    (∀ op ∈ [0x34, 0x35], ∀ n ∈ [0, 1, 0xF, 0x10, 0x13], Takes (runs (scalarW op n)) c0 (scalarW op n) 0 op ∧
      GuardTrue ((runs (scalarW op n)).core c0).seq (scalarW op n) ∧ bits (scalarW op n) 18 9 = 0 ∧
      bits (scalarW op n) 8 0 = n) ∧
    ((runs 0).core c0).seq.stack.length ≤ 16 ∧ ((runs 0).core c0).sems.length ≤ 4 ∧
    (runs 0).physArray c0 0 = some a0 ∧ ((runs 0).physArray c0 3).isSome = true := by
  simp only [takes_iff, GuardTrue]; decide +kernel

/-- The dies map every address below 2^48 to the same physical address of die 0, for partition 0. -/
def mapped (s : State) : State := s.setDie d0 { s.die d0 with
  l2 := [{ partition := 0, va := 0, len := 2 ^ 48, pa := 0, r := true, w := true, x := true, cnt := false }] }

/-- The value of a result that is no error. -/
def okVal {ε α : Type} : Except ε α → Option α
  | .ok a => some a
  | .error _ => none

/-- What an access finds: the physical address and the range of a hit. -/
def hitOf : Xlate → Option (Nat × Nat)
  | .hit pa r => some (pa, r)
  | _ => none

theorem test_wit_LoadsRequestAndReturn :
    (∀ e ∈ loadForms, Takes (mapped (runs (scalarW e.2.1 0x200) (withReg 1 64))) c0 (scalarW e.2.1 0x200) 0 e.2.1 ∧
      GuardTrue ((mapped (runs (scalarW e.2.1 0x200) (withReg 1 64))).core c0).seq (scalarW e.2.1 0x200) ∧
      (accessAddress (mapped (runs (scalarW e.2.1 0x200) (withReg 1 64))) c0 (scalarW e.2.1 0x200) e.2.2.1).toNat = 64 ∧
      hitOf ((mapped (runs (scalarW e.2.1 0x200) (withReg 1 64))).xlate 0 (c0.key * 2 + 1) 0 0 64 .read) = some (64, 0) ∧
      64 / 2 ^ 49 = c0.die.val) ∧
    ((runs 0 fun k => { k with stall := .load 1 4 true 64 (some [1, 2, 3, 4]) }).core c0).stall =
      .load 1 4 true 64 (some [1, 2, 3, 4]) := by
  simp only [takes_iff, GuardTrue]; decide +kernel

theorem test_wit_StoresSendTheirBytes :
    (∀ e ∈ storeForms, Takes (mapped (runs (scalarW e.2.1 0x200) (withReg 1 64))) c0 (scalarW e.2.1 0x200) 0 e.2.1 ∧
      GuardTrue ((mapped (runs (scalarW e.2.1 0x200) (withReg 1 64))).core c0).seq (scalarW e.2.1 0x200) ∧
      (accessAddress (mapped (runs (scalarW e.2.1 0x200) (withReg 1 64))) c0 (scalarW e.2.1 0x200) e.2.2).toNat = 64 ∧
      ((mapped (runs (scalarW e.2.1 0x200) (withReg 1 64))).core c0).runB = false ∧
      (mapped (runs (scalarW e.2.1 0x200) (withReg 1 64))).isPaired c0 = false ∧
      hitOf ((mapped (runs (scalarW e.2.1 0x200) (withReg 1 64))).xlate 0 (c0.key * 2 + 1) 0 0 64 .write) = some (64, 0)) := by
  simp only [takes_iff, GuardTrue]; decide +kernel

theorem test_wit_CoreStoreLoadAndStore :
    ∀ op ∈ [0x2C, 0x2D], ∀ n ∈ [0, 1048568, 1048576, 4], Takes (runs (scalarW op 0x200) (withReg 1 (BitVec.ofNat 64 n))) c0 (scalarW op 0x200) 0 op ∧
      GuardTrue ((runs (scalarW op 0x200) (withReg 1 (BitVec.ofNat 64 n))).core c0).seq (scalarW op 0x200) ∧
      ((runs (scalarW op 0x200) (withReg 1 (BitVec.ofNat 64 n))).core c0).store.bad = [] ∧
      ((runs (scalarW op 0x200) (withReg 1 (BitVec.ofNat 64 n))).core c0).store.single = [] ∧
      accessAddress (runs (scalarW op 0x200) (withReg 1 (BitVec.ofNat 64 n))) c0 (scalarW op 0x200) 8 = BitVec.ofNat 64 n := by
  simp only [takes_iff, GuardTrue]; decide +kernel

theorem test_wit_FenceYieldAndEnd :
    (∀ op ∈ [0x2E, 0x37, 0x38], Takes (runsFor (scalarW op)) c0 (scalarW op) 0 op ∧
      GuardTrue ((runsFor (scalarW op)).core c0).seq (scalarW op) ∧ bits (scalarW op) 18 0 = 0 ∧
      Calm (runsFor (scalarW op)) c0 ∧ (runsFor (scalarW op)).isPaired c0 = false ∧
      ((runsFor (scalarW op)).core c0).sems = [] ∧ ((runsFor (scalarW op)).core c0).stores = [] ∧
      (runsFor (scalarW op)).launches.find? 3 = some launch0) ∧
    Takes (runs (scalarW 0x37) fun k => { k with sems := [5] }) c0 (scalarW 0x37) 0 0x37 := by
  simp only [takes_iff, GuardTrue, Calm]; decide +kernel

theorem test_wit_EngineInstructionsAreQueued :
    (∀ x ∈ [(2, 0, 0x45), (4, 8, 0), (5, 0, 0), (5, 7, 0), (2, 4, 0)],
      Takes (runs (engineW x.1 x.2.1 x.2.2)) c0 (engineW x.1 x.2.1 x.2.2) x.1 x.2.1 ∧
      GuardTrue ((runs (engineW x.1 x.2.1 x.2.2)).core c0).seq (engineW x.1 x.2.1 x.2.2) ∧
      ((runs (engineW x.1 x.2.1 x.2.2)).core c0).phase = .compute ∧
      (runs (engineW x.1 x.2.1 x.2.2)).physArray c0 0 = some a0 ∧
      ((runs (engineW x.1 x.2.1 x.2.2)).arr a0).queue.length < 4) ∧
    Takes (runs (engineW 3 0) fun k => { k with phase := .load }) c0 (engineW 3 0) 3 0 ∧
    encodingOk { cmd := .arrMm, unit := 2, op := 0, phase := some .compute, writes := some (5, 0) } (engineW 2 0 0x45) ∧
    encodingOk { cmd := .vecVbcst, unit := 4, op := 8, phase := some .compute, zero := [(9, 0)], rs1 := some (14, 10) }
      (engineW 4 8) ∧
    dispatchOk (runs (engineW 4 8)) c0 (engineW 4 8)
      { cmd := .vecVbcst, unit := 4, op := 8, phase := some .compute, zero := [(9, 0)], rs1 := some (14, 10) } ∧
    queueOpen (runs (engineW 4 8)) c0 (engineW 4 8) { cmd := .vecVbcst, unit := 4, op := 8 } := by
  simp only [takes_iff, GuardTrue]
  refine ⟨by decide +kernel, by decide +kernel, ⟨by decide, trivial⟩, ⟨by decide, trivial⟩, ?_, ?_⟩
  · exact ⟨fun p h => by cases h; decide, fun _ h => absurd h (by decide), fun h => absurd h (by decide),
      fun h => absurd h (by decide), fun h => absurd h (by decide)⟩
  · exact ⟨fun h => absurd h (by decide), fun h => absurd h (by decide), fun _ => by decide, fun h => absurd h (by decide)⟩

theorem test_wit_DispatchPhaseAndFullQueue :
    (Takes (runs (engineW 4 8) fun k => { k with phase := .load }) c0 (engineW 4 8) 4 8 ∧
      ((runs (engineW 4 8) fun k => { k with phase := .load }).core c0).phase ≠ .compute) ∧
    Takes (runs (engineW 4 8) fun k => { k with vecQ := List.replicate 8 { ord := 0, pc := 0, word := 0 } }) c0 (engineW 4 8) 4 8 ∧
    ((runs (engineW 4 8) fun k => { k with vecQ := List.replicate 8 { ord := 0, pc := 0, word := 0 } }).core c0).vecQ.length = 8 := by
  simp only [takes_iff]; decide +kernel

theorem test_wit_FalseGuardOnlyAdvances :
    (∀ n ∈ [0x80000000, 0x10000000], Takes (runs (BitVec.ofNat 32 n)) c0 (BitVec.ofNat 32 n) 0 0 ∧
      bits (BitVec.ofNat 32 n) 3 0 = 0 ∧ ¬ GuardTrue ((runs (BitVec.ofNat 32 n)).core c0).seq (BitVec.ofNat 32 n)) := by
  simp only [takes_iff, GuardTrue]; decide +kernel

theorem test_wit_ReservedEncodingsFault :
    (Takes (runs (scalarW 0 1)) c0 (scalarW 0 1) 0 0 ∧ bits (scalarW 0 1) 3 0 ≠ 0) ∧
    ∀ u ∈ [1, 6, 7], Takes (runs (engineW u 0)) c0 (engineW u 0) u 0 := by
  simp only [takes_iff]; decide +kernel

theorem test_wit_BranchesCallsAndFetchBounds :
    (∀ op ∈ [0x30, 0x31, 0x32], Takes (runs (scalarW op)) c0 (scalarW op) 0 op ∧
      GuardTrue ((runs (scalarW op)).core c0).seq (scalarW op) ∧ bits (scalarW op) 18 14 = 0 ∧
      ((runs (scalarW op)).core c0).seq.stack.length < 16) ∧
    Takes (runs (scalarW 0x33) fun k => { k with seq := jumped {} 0 [7], twin := jumped {} 0 [7] }) c0 (scalarW 0x33) 0 0x33 ∧
    ((runs 0 fun k => { k with codeWords := 0 }).core c0).codeWords ≤ 0 := by
  simp only [takes_iff, GuardTrue]; decide +kernel

theorem test_wit_TokenInstructions :
    (∀ op ∈ [0, 1, 2], SyncTakes (runs (engineW 5 op)) c0 (engineW 5 op) op ∧ bits (engineW 5 op) 19 0 = 0) ∧
    Token.descOk 0 0 64 = false ∧
    Token.descOk (BitVec.ofNat 64 (1 * 2 ^ 41 + 16 * 2 ^ 20)) (BitVec.ofNat 64 (2 ^ 32 + 1)) 16 = true := by
  simp only [syncTakes_iff, takes_iff, GuardTrue, Calm]; decide +kernel

theorem test_wit_PhaseAndWait :
    ∀ x ∈ [(3, 0x20), (3, 0), (4, 0), (4, 0xF0)], SyncTakes (runs (engineW 5 x.1 x.2)) c0 (engineW 5 x.1 x.2) x.1 ∧
      bits (engineW 5 x.1 x.2) 19 10 = 0 ∧ bits (engineW 5 x.1 x.2) 3 0 = 0 ∧
      ((runs (engineW 5 x.1 x.2)).core c0).phase = .compute ∧ (runs (engineW 5 x.1 x.2)).holdsGrant c0 = false ∧
      ((runs (engineW 5 x.1 x.2)).core c0).grantReq = false := by
  simp only [syncTakes_iff, takes_iff, GuardTrue, Calm]; decide +kernel

theorem test_wit_HaloCountersAndBarrier :
    ∀ op ∈ [5, 6, 7], SyncTakes (runs (engineW 5 op)) c0 (engineW 5 op) op ∧ bits (engineW 5 op) 19 0 = 0 ∧
      ((runs (engineW 5 op)).core c0).haloWaiting = false ∧ ((runs (engineW 5 op)).core c0).atBarrier = none ∧
      ((runs (engineW 5 op)).core c0).stores = [] := by
  simp only [syncTakes_iff, takes_iff, GuardTrue, Calm]; decide +kernel

/-- The first cluster holds one allocation of pool 0. -/
def allocated (s : State) : State := s.setCluster k0 { s.cluster k0 with allocs := [(1, 2)] }

theorem test_wit_AllocationAndGenerators :
    (SyncTakes (runs (engineW 5 11 0x400) (withReg 1 6291456)) c0 (engineW 5 11 0x400) 11 ∧
      ((runs (engineW 5 11 0x400) (withReg 1 6291456)).cluster k0).allocs = [] ∧
      ((runs (engineW 5 11 0x400) (withReg 1 6291456)).cluster k0).msStatic = 0 ∧
      ((runs (engineW 5 11 0x400) (withReg 1 6291456)).core c0).seq.read 1 = 6291456) ∧
    (SyncTakes (allocated (runs (engineW 5 12 0x400) (withReg 1 2048))) c0 (engineW 5 12 0x400) 12 ∧
      ((allocated (runs (engineW 5 12 0x400) (withReg 1 2048))).cluster k0).allocs = [(1, 2)] ∧
      (((allocated (runs (engineW 5 12 0x400) (withReg 1 2048))).core c0).seq.read 1).toNat = 2048 * 1) ∧
    SyncTakes (runs (engineW 5 13)) c0 (engineW 5 13) 13 ∧ (runs (engineW 5 13)).claimable c0 = some 0 := by
  simp only [syncTakes_iff, takes_iff, GuardTrue, Calm]; decide +kernel


/-- What a whole access of a unit read, where it neither faulted nor failed. -/
def dmaOk : DmaRes → Option (List Byte)
  | .ok bs => some bs
  | _ => none

/-- A read and a write of a unit of a die, every request of which has been answered: the read with the given bytes. -/
def readBack (d : DieId) (o : Owner) (pa : Nat) (bs : List Byte) (s : State) : State :=
  let all := List.replicate (pa % 64) 0 ++ bs ++ List.replicate 64 0
  let b : BusAcc := { owner := o, pa := pa, n := bs.length, write := false, reqs :=
    (List.range ((pa % 64 + bs.length + 63) / 64)).map fun i => (1000000 + i, some (.data ((all.drop (64 * i)).take 64))) }
  s.setDie d { s.die d with bus := b :: (s.die d).bus }
def writeBack (d : DieId) (o : Owner) (pa : Nat) (bs : List Byte) (s : State) : State :=
  let b : BusAcc := { owner := o, pa := pa, n := bs.length, write := true, data := bs, reqs :=
    (List.range ((pa % 64 + bs.length + 63) / 64)).map fun i => (1000000 + i, some .accepted) }
  s.setDie d { s.die d with bus := b :: (s.die d).bus }

/-- Bytes of device memory from an address. -/
def poke (a : Nat) (bs : List Byte) (s : State) : State := s.writeBytes a bs

/-- An engine instruction of a word, the first in the order of dispatch. -/
def eins (w : W32) (reads writes : List Nat) : EInstr :=
  { ord := 0, pc := 0, word := w, reads := reads, writes := writes }

/-- Tokens 1 and 2 PRESENT and token 3 EMPTY, each one element. -/
def tokens3 : SMap Token :=
  let t : Token := { region := BitVec.ofNat 64 (2 ^ 41 + 16 * 2 ^ 20), shape := BitVec.ofNat 64 (2 ^ 32 + 1) }
  ⟨[(1, { t with st := .present }), (2, { t with st := .present }), (3, t)]⟩

def mmWord : W32 := engineW 2 0 0x1083

/-- The first array with an ARR.MM at the head of its queue, in its group, or running. -/
def arrAt (f : Arr → Arr) : State := runs 0 fun k => { k with tokens := tokens3, csBytes := 64, arrs := ⟨[(0, f {})]⟩ }

theorem test_wit_ArrayIssueAndCompletion :
    (let s := arrAt fun a => { a with queue := [eins mmWord [1, 2] [3]] }
     s.hasArray a0 = true ∧ (s.core c0).run = .running ∧ (s.core c0).phase = .compute ∧
      (s.arr a0).queue = [eins mmWord [1, 2] [3]] ∧ (s.arr a0).run = [] ∧ (s.arr a0).group = [] ∧ bits mmWord 24 20 = 0 ∧
      (s.core c0).mmReady (s.arr a0).fmt (eins mmWord [1, 2] [3]) = true ∧
      (s.core c0).mmFault (s.arr a0).fmt (s.arr a0).cfg mmWord = none) ∧
    (let s := arrAt fun a => { a with group := [eins mmWord [1, 2] [3]] }
     (s.arr a0).group ≠ [] ∧ (s.arr a0).run = [] ∧ min 2000 (field (s.arr a0).cfg.toNat 11 0) ≤ s.since 0 (s.arr a0).groupAt) ∧
    (let s := arrAt fun a => { a with run := [eins mmWord [1, 2] [3]] }
     (s.arr a0).run = [eins mmWord [1, 2] [3]] ∧
      (s.mmRunAll a0 (s.arr a0).runFmt (s.arr a0).runCfg [eins mmWord [1, 2] [3]]).2 = none) := by
  decide +kernel

/-- A die's record changed by a function. -/
def atDie (f : Die → Die) (s : State) : State := s.setDie d0 (f (s.die d0))

theorem test_wit_ArrayControllerAndFiller :
    (let s := atDie (fun k => { k with ticks := 200 }) (arrAt fun a => { a with mode := .fill })
     s.hasArray a0 = true ∧ (s.arr a0).run = [] ∧ (s.arr a0).mode = .fill ∧ 200 ≤ s.since 0 (s.arr a0).idleAt ∧
      (s.arr a0).fillerFail = false) ∧
    (let s := atDie (fun k => { k with ticks := 12 }) (arrAt fun a => { a with mode := .fillDown, density := 1 })
     (s.arr a0).mode = .fillDown ∧ 12 ≤ s.since 0 (s.arr a0).densityAt ∧
      (s.arr a0).entryLevel - 8 * s.since 0 (s.arr a0).modeAt / 100 < (s.arr a0).density) := by
  decide +kernel

/-- A stream descriptor of one element at address 0x1000. -/
def desc0 : List Byte :=
  let b := bytesLE 8 0x1000 ++ bytesLE 4 0 ++ (List.replicate 5 (bytesLE 4 1)).flatten ++ bytesLE 8 0 ++
    List.replicate 52 0
  b ++ bytesLE 4 (crc32c b).toNat

/-- The first core in LOAD with the grant, for a launch with one descriptor. -/
def streamAt (f : Core → Core) : State :=
  let s := runs 0 (fun k => f { k with part := some 3, phase := .load, tokens := tokens3, csBytes := 64 })
    { State.reset with launches := ⟨[(3, { launch0 with sdt := desc0 })]⟩, ctxs := ⟨[(0, { st := .resident })]⟩ }
  mapped (s.setCluster k0 { s.cluster k0 with holder := some 0 })

def ldWord : W32 := engineW 3 0 (3 * 2 ^ 14)

theorem test_wit_StreamIssueAndCompletion :
    (let o : Owner := .stream c0.key 0
     let s := readBack 0 o 0 desc0 (streamAt fun k => { k with strQ := [eins ldWord [] [3]] })
     let x := s.readVa 0 o (s.corePartition c0) (s.coreCtx c0) ((s.sdtAddr c0 + 0) % 2 ^ 64) 96 .read false
     let sdt := (s.sdtOf c0).take 0 ++ desc0 ++ (s.sdtOf c0).drop (0 + 96)
     s.hasCore c0 = true ∧ (s.core c0).run = .running ∧ (s.core c0).strQ = [eins ldWord [] [3]] ∧ (s.core c0).strRun = [] ∧
      (s.core c0).strAbort = none ∧ bits ldWord 24 20 < 8 ∧ (s.core c0).readsOk (eins ldWord [] [3]) = true ∧
      (s.core c0).writesOk (eins ldWord [] [3]) [.empty] = true ∧ s.holdsGrant c0 = true ∧
      s.transHeld 0 (.stream c0.key 0) = false ∧ 0 + 96 ≤ (s.sdtOf c0).length ∧
      s.streamRoom c0 o (s.coreQueue c0) 4 false = true ∧
      dmaOk x.2 = some desc0 ∧ x.1.core c0 = s.core c0 ∧ streamFault sdt (eins ldWord [] [3]) = none ∧
      (streamChecks (s.core c0) sdt (eins ldWord [] [3])).findSome? (·.2) = none ∧
      (match (((x.1.busDone 0 o).updCore c0 fun k => { k with strQ := [] }).streamPrep c0 (eins ldWord [] [3]) sdt).2 with
        | .ok _ => true | _ => false) = true) ∧
    (let r : StreamRun := { ins := eins ldWord [] [3], d0 := desc0, buf := ⟨[(0x1000, 7)]⟩ }
     let s := streamAt fun k => { k with strRun := [r] }
     s.streamReady c0 = some r ∧ (s.streamFinish c0 r).2 = none) := by
  decide +kernel

theorem test_wit_VectorIssueAndCompletion :
    (let s := runs 0 fun k => { k with vecQ := [eins (engineW 4 8) [] []] }
     s.hasCore c0 = true ∧ (s.core c0).vecQ = [eins (engineW 4 8) [] []] ∧ vecReady (s.core c0) (eins (engineW 4 8) [] []) = true ∧
      vecCountOk (engineW 4 8) 0 = true ∧ (vecChecks (s.core c0) (eins (engineW 4 8) [] [])).findSome? (·.2) = none ∧
      (s.core c0).phase = .compute) ∧
    (∀ x ∈ [(8, 0x8000), (9, 0x8400)],
      let i := eins (engineW 4 x.1 x.2) [] []
      let s := runs 0 fun k => { k with vecRun := [i], stall := .engine 0 }
      (s.core c0).vecRun = [i] ∧ (s.vecFinish c0 i).2 = none ∧ bits i.word 24 20 = x.1 ∧ (s.core c0).stall = .engine i.ord ∧
      bits i.word 19 15 ≠ 0) := by
  decide +kernel

/-- A good image header and a good code block. -/
def header0 : List Byte :=
  let b := bytesLE 4 0x5058424D ++ bytesLE 2 3 ++ bytesLE 2 0 ++ bytesLE 4 64 ++ bytesLE 4 1 ++ bytesLE 4 0 ++ bytesLE 4 64 ++
    List.replicate 36 0
  b ++ bytesLE 4 (crc32c b).toNat
def block0 : List Byte :=
  let b := bytesLE 4 0x80000000 ++ List.replicate 2044 0
  let t := bytesLE 4 (addrTag 0x1040).toNat
  b ++ bytesLE 4 (crc32c (b ++ t)).toNat ++ t

/-- The first core reads its header from 0x1000, or wants its first code block from 0x1040. -/
def imageAt (bs : List Byte) (at' : Nat) (f : Core → Core) : State :=
  readBack 0 (.fetch c0.key) at' bs (mapped { runsFor 0 f with launches := ⟨[(3, { launch0 with count := some 9 })]⟩ })

theorem test_wit_LaunchHeaderAndEntry :
    (let s := imageAt header0 0x1000 fun k => { k with run := .header, image := 0x1000 }
     s.hasCore c0 = true ∧ (s.core c0).run = .header ∧ s.transHeld 0 (.fetch c0.key) = false ∧
      (s.core c0).image.toNat % 64 = 0 ∧
      dmaOk (s.readVa 0 (.fetch c0.key) (s.corePartition c0) (s.coreCtx c0) 0x1000 64 .fetch false).2 = some header0 ∧
      (s.readVa 0 (.fetch c0.key) (s.corePartition c0) (s.coreCtx c0) 0x1000 64 .fetch false).1.core c0 = s.core c0 ∧
      hdrBad header0 = none ∧ (s.core c0).part = some 3 ∧
      ((s.readVa 0 (.fetch c0.key) (s.corePartition c0) (s.coreCtx c0) 0x1000 64 .fetch false).1.launches.find? 3).map (·.count) =
        some (some 9)) ∧
    (let s := imageAt header0 0x1000 fun k => { k with run := .header, image := 0x1001 }
     (s.core c0).run = .header ∧ s.transHeld 0 (.fetch c0.key) = false ∧ (s.core c0).image.toNat % 64 ≠ 0) := by
  decide +kernel

set_option maxRecDepth 100000 in
theorem test_wit_CodeBlocksEnterTheBuffer :
    (let s := imageAt block0 0x1040 fun k => { k with image := 0x1000, codeOff := 64, code := {} }
     s.hasCore c0 = true ∧ s.wantedBlock c0 = some 0 ∧ s.transHeld 0 (.fetch c0.key) = false ∧
      dmaOk (s.readVa 0 (.fetch c0.key) (s.corePartition c0) (s.coreCtx c0) 0x1040 2056 .fetch false).2 = some block0 ∧
      blockCheck block0 (addrTag 0x1040) = none) ∧
    (let s := imageAt (List.replicate 2056 1) 0x1040 fun k => { k with image := 0x1000, codeOff := 64, code := {} }
     s.wantedBlock c0 = some 0 ∧
      ((dmaOk (s.readVa 0 (.fetch c0.key) (s.corePartition c0) (s.coreCtx c0) 0x1040 2056 .fetch false).2).map
        fun b => (blockCheck b (addrTag 0x1040)).isSome) = some true) := by
  decide +kernel

theorem test_wit_CodeViolationsStartTheLadder :
    (∀ l ∈ [[], [{ unit := .cluster k0, start := .cluster k0, code := 0, level := .cluster, t0 := 0, from' := 0, dump :=
        { level := 0, die := 0, unit := 0, cause := 0, t0 := 0, seqno := 0 } }]],
      let s := atDie (fun k => { k with computeReset := false, escalations := l }) State.reset
      s.hasCore c0 = true ∧ s.hasDie d0 = true ∧ s.outOfService (.core c0) = false ∧ (s.die d0).computeReset = false ∧
        (l = [] ∨ ∃ e ∈ (s.die d0).escalations, (e.unit.atLevel e.level).contains (.core c0) = true)) ∧
    (let s := atDie (fun k => { k with computeReset := true }) State.reset
     s.hasDie d0 = true ∧ s.outOfService (.die d0) = true) := by decide +kernel

/-- Two cores of a launch, of logical cores 0 and 1, ask for the load grant. -/
def asking : State :=
  let l : Launch := { launch0 with cores := [{ lcore := 0, ldie := 0, lcl := 0 }, { lcore := 1, ldie := 0, lcl := 0 }] }
  let k : Core := { run := .running, part := some 3, grantReq := true }
  (({ State.reset with launches := ⟨[(3, l)]⟩ } : State).setCore c0 { k with lcore := 1 }).setCore c1 k

theorem test_wit_GrantsAndSynchronisationWaits :
    (let s := runs 0 fun k => { k with grantReq := true }
     s.hasCluster k0 = true ∧ (s.cluster k0).holder = none ∧
      ((s.clusterCores k0).filter s.asksGrant) = [c0]) ∧
    (asking.lcoreInCluster c1 < asking.lcoreInCluster c0 ∧
      ((asking.clusterCores k0).filter asking.asksGrant) = [c0, c1]) ∧
    ((runs 0).setCluster k0 { holder := some 1 }).hasCluster k0 = true ∧
    (((runs 0).setCluster k0 { holder := some 1 }).cluster k0).holder ≠ none ∧
    (let s := runs 0 fun k => { k with atBarrier := some 7, syncQ := [eins (engineW 5 5 0x70) [] []], stall := .engine 0 }
     ((s.clusterCores k0).filter fun d => decide ((s.core d).atBarrier = some 7) && decide ((s.core d).run = .running)) = [c0] ∧
      (s.clusterPeers c0).length = 0 ∧ (s.core c0).stall = .engine 0) ∧
    (let s := runs 0 fun k => { k with haloWaiting := true, syncQ := [eins (engineW 5 7 0x70) [] []], stall := .engine 0 }
     (s.core c0).haloWaiting = true ∧ 0 ≤ (s.halo c0 7 - (0 : W64).truncate 32).toInt) ∧
    (let s : State := atDie (fun k => { k with computeReset := false })
       { State.reset with sems := ⟨[(5, { used := true, units := 1, waiters := [0] })]⟩ }
     (s.die State.die0).computeReset = false ∧ (s.sema 5).waiters = [0] ∧ (s.sema 5).holders.length < (s.sema 5).units) := by
  decide +kernel

/-- A die whose command processor places launches, with a slot for context 0. -/
def readyDie (f : Die → Die := id) (s : State) : State :=
  s.setDie d0 (f { s.die d0 with stage := .ready, computeReset := false, slots := [⟨0, 0, []⟩] })

/-- Logical core 0 and its cluster, preempted with its state kept in the first core. -/
def keptCore : LogCore := { lcore := 0, ldie := 0, lcl := 0, preempted := true, keptAt := some c0 }
def keptLaunch : Launch :=
  { launch0 with
    dies := [0], saveHeld := true, parts := ⟨[(0, .started)]⟩, cores := [keptCore],
    clusters := [⟨0, 0, some k0, some k0, false, 0, 0, false⟩] }
def keptState : State :=
  let s := readyDie id (runs 0 (fun k => { k with run := .idle, part := some 3 })
    { State.reset with launches := ⟨[(3, keptLaunch)]⟩, ctxs := ⟨[(0, { st := .resident })]⟩ })
  s.setCluster k0 { s.cluster k0 with occupant := some (clusterKey 3 0 0 false) }

theorem test_wit_PreemptionAndResumption :
    (let s := runsFor 0 fun k => { k with stall := .yield, ypend := true }
     s.hasCore c0 = true ∧ s.atPreemption c0 = true ∧ s.isPaired c0 = false ∧ (s.core c0).part = some 3 ∧
      s.launches.find? 3 = some launch0) ∧
    (keptState.hasCore c0 = true ∧ keptState.launches.find? q0.key = some keptLaunch ∧
      (keptState.cluster k0).occupant = some (clusterKey q0.key 0 0 false) ∧ keptState.turn d0 = some (q0.key, true) ∧
      keptState.schedOpen d0 = true ∧ (keptState.slotOf d0 0).isSome = true) := by
  decide +kernel


/-- CRC-32C of the 2,052 zero bytes of a block of zeros with tag 0. -/
def zeroChk : Nat := 2099837875

/-- The blocks of the first core's image: its state block alone, with the trailer. -/
def imageOf (s : State) (l : Launch) : List (List Byte) :=
  guarded (s.nextGen l) (imageBlocks [] ++ imageBlocks (s.stateBlock c0))

set_option maxRecDepth 100000 in
theorem test_wit_ImagesAreSavedAndRestored :
    (∀ held ∈ [false, true],
      let s := mapped keptState
      let s := if held then s else writeBack 0 (s.imageOwner (.core c0) 0) 0 ((imageOf s keptLaunch).getD 0 []) s
      let t := (s.csRead c0 0 (roundUp (s.core c0).csBytes 2048)).1
      s.hasCore c0 = true ∧ (s.core c0).part = some 3 ∧ s.launches.find? 3 = some keptLaunch ∧ keptLaunch.fault = none ∧
        keptLaunch.cores = [keptCore] ∧ keptCore.keptAt = some c0 ∧ keptCore.preempted = true ∧ (s.core c0).img = none ∧
        (s.csRead c0 0 (roundUp (s.core c0).csBytes 2048)).2 = ([], none) ∧
        ((t.takeGen keptLaunch).putBlocks (.core c0) 3 keptLaunch (s.coreImageAt keptLaunch keptCore) (imageOf s keptLaunch) 0).2 =
          if held then (0, .wait) else (1, .done)) := by
  decide +kernel

set_option maxRecDepth 100000 in
theorem test_wit_MapImagesAreSaved :
    (let y : LogCluster := ⟨0, 0, none, some k0, false, 0, 0, false⟩
     let l : Launch := { keptLaunch with clusters := [y] }
     let s : State := mapped { keptState with launches := ⟨[(3, l)]⟩ }
     let s := writeBack 0 (s.imageOwner (.map k0) 0) 0 ((guarded (s.nextGen l) (imageBlocks (s.clusterBlock k0))).getD 0 []) s
     let r := s.mapBlocks k0 (State.mapOffsets (s.cluster k0).msStatic (s.cluster k0).allocs)
     s.hasCluster k0 = true ∧ (s.cluster k0).occupant = some (clusterKey 3 0 0 false) ∧ s.launches.find? 3 = some l ∧ l.clusters = [y] ∧
      (s.cluster k0).img = none ∧ r.2 = ([], none) ∧
      ((r.1.takeGen l).putBlocks (.map k0) 3 l (s.mapImageAt l y)
        (guarded (s.nextGen l) ([] ++ imageBlocks (s.clusterBlock k0))) 0).2 = (1, .done)) := by
  decide +kernel

set_option maxRecDepth 100000 in
theorem test_wit_ImagesAreRestored :
    let x : LogCore := { lcore := 0, ldie := 0, lcl := 0, preempted := true, at? := some c0, saved := true }
    let l : Launch := { keptLaunch with cores := [x] }
    let s : State := mapped { keptState with launches := ⟨[(3, l)]⟩ }
    let s := readBack 0 (s.imageOwner (.core c0) 0) 0 (List.replicate 2048 0 ++ bytesLE 4 zeroChk ++ bytesLE 4 0) s
    (s.core c0).part = some 3 ∧ s.launches.find? 3 = some l ∧ l.cores = [x] ∧ (s.core c0).img = none ∧
      (s.getBlocks (.core c0) 3 l (s.coreImageAt l x) x.gen (ceilDiv x.csBytes 2048 + 1) 0).2.2 = .done := by
  decide +kernel

theorem test_wit_StoreClearAndScrub :
    (let s := State.reset.setCore c0 { lastPartition := some 3, store := { single := [65535], bad := [0] } }
     s.hasCore c0 = true ∧ (s.core c0).part = none ∧ (s.core c0).lastPartition ≠ none ∧ 65535 ∉ (s.core c0).store.bad ∧
      65535 ∈ (s.core c0).store.single ∧ 0 ∈ (s.core c0).store.bad) ∧
    (let s := State.reset.setCluster k0 { lastPartition := some 3 }
     s.hasCluster k0 = true ∧ (s.cluster k0).occupant = none ∧ (s.cluster k0).lastPartition ≠ none) := by
  decide +kernel

/-- A request of the first core's sequencer at an address, in a state. -/
def req0 (write : Bool) (pa : Nat) (st : ReqState := .waiting) : Req :=
  { owner := if write then .seqStore 0 0 else .seqLoad 0, die := 0, partition := 0, ctx := 0, queue := 3, va := pa, pa := pa,
    write := write, data := if write then [(63, 9)] else [], st := st }
def withReq (r : Req) : State := { runs 0 with reqs := ⟨[(4, r)]⟩ }

theorem test_wit_PeatTransfers :
    (∀ w ∈ [false, true],
      let r := req0 w 0x40
      let s := withReq r
      s.reqs.find? 4 = some r ∧ r.st = .waiting ∧ r.write = w ∧ s.inTurn 4 r = true ∧
        s.ownAdmits (State.servingPort r).die r.pa r.partition r.ctx = true ∧ s.freeTag (State.servingPort r) w = some 0 ∧
        (let p := State.servingPort r
         let path := peatPath p.port.val r.write
         let l := s.offerFor p r.write
         (∀ e ∈ l, e.2.ahead = false) ∧
          (s.cuffSlot p.die path ((l.map (·.2.partition)).eraseDups)).2 = some r.partition ∧
          nextAfter ((s.die p.die).cuffReq.get 0 (path * 16 + r.partition))
            ((l.filter fun e => decide (e.2.partition = r.partition)).map fun e => State.requester e.2) =
              some (State.requester r) ∧
          l.find? (fun e => decide (e.2.partition = r.partition) && decide (State.requester e.2 = State.requester r)) =
            some (4, r))) ∧
    (let r : Req := { req0 false 0x40 with ahead := true }
     (withReq r).offerFor (State.servingPort r) false = [(4, r)]) ∧
    (let r := req0 false 0x40
     let s := (withReq r).setSteward d0 { dict := ⟨[(0x2C0001, 0)]⟩ }
     s.reqs.find? 4 = some r ∧ s.inTurn 4 r = true ∧
      s.ownAdmits (State.servingPort r).die r.pa r.partition r.ctx = false) := by
  decide +kernel

theorem test_wit_PeatAnswers :
    (let r := req0 false 0x40 (.port 0 1 5)
     let s := { (runs 0 fun k => { k with stall := .load 1 8 true 0x40 none }) with reqs := ⟨[(4, r)]⟩ }
     s.hasDie d0 = true ∧ s.byTag ⟨0, 1⟩ 5 false = some (4, r) ∧ r.owner = .seqLoad 0 ∧
      ((s.die r.die).orphans.any fun o => decide (o.req = 4)) = false ∧ s.busOwns r.die 4 = false ∧
      (s.core (coreOf 0)).stall = .load 1 8 true 0x40 none) ∧
    (let r := req0 true 0x7F (.port 0 1 511)
     (withReq r).byTag ⟨0, 1⟩ 511 true = some (4, r) ∧ (r.data.map (·.1)).Nodup) ∧
    (let r : Req := { req0 false 0x40 (.port 0 1 5) with sent := true }
     let s := atDie (fun k => { k with ticks := 1000, computeReset := false }) (withReq r)
     s.reqs.find? 4 = some r ∧ (s.die (coreOf 0).die).computeReset = false ∧ r.st = .port 0 1 5 ∧ r.gone = false ∧ (s.die (coreOf 0).die).escalations = [] ∧ 1000 ≤ s.since r.die r.sentAt ∧
      ((s.die r.die).orphans.any fun o => decide (o.req = 4)) = false) := by
  decide +kernel

/-- A command of an opcode with the rest of its header, and its next three words. -/
def cmdOf (op : Nat) (hdr x1 x2 x3 : Nat := 0) : List Byte :=
  bytesLE 8 (op + 0x100 + hdr) ++ bytesLE 8 x1 ++ bytesLE 8 x2 ++ bytesLE 8 x3

/-- Queue `q0` with one accepted command, its context RESIDENT with a slot, on a ready die. -/
def queueAt (b : List Byte) (f : Queue → Queue := id) (g : Ctx → Ctx := id) : State :=
  mapped (readyDie id { State.reset with
    build := { dies := 1 }
    queues := ⟨[(3, f { st := .opened, fill := 64, accptr := 64, accepted := [⟨32, b, [(0x2000, cmdOf 0)], [], []⟩] })]⟩
    ctxs := ⟨[(0, g { st := .resident })]⟩ })

theorem test_wit_MayStart : ∀ n ∈ List.range 10, n ≠ 8 →
    let s := queueAt (cmdOf n)
    s.mayRun q0 n = some (cmdOf n) ∧ (s.queue q0).accepted = [⟨32, cmdOf n, [(0x2000, cmdOf 0)], [], []⟩] ∧
      (s.queue q0).frames = [] ∧ (s.queue q0).guardOk (cmdOf n) = true ∧
      (queueAt (cmdOf n 0x1000000)).mayRun q0 n = some (cmdOf n 0x1000000) ∧
      ((queueAt (cmdOf n 0x1000000)).queue q0).guardOk (cmdOf n 0x1000000) = false := by
  decide +kernel

theorem test_wit_QueueCommandsComplete :
    (let b := cmdOf 4 0x2000000 0x3000
     let s := readBack 0 (.command 3) 0x3000 (List.replicate 8 1) (queueAt b)
     s.mayRun q0 4 = some b ∧
      dmaOk ((s.startTimer q0 b).readVa 0 (.command q0.key) (s.queuePart q0) (s.queue q0).ctx 0x3000 (cmdWide b) .read true).2 =
        some (List.replicate 8 1)) ∧
    (∀ op ∈ [5, 6], let b := cmdOf op 0 0x3000 7
     let s := writeBack 0 (.command 3) 0x3000 (bytesLE 8 7) (queueAt b)
     s.mayRun q0 op = some b ∧
      (((s.die q0.die).bus.find? fun y => decide (y.owner = .command q0.key)).map (·.data)) = some (bytesLE 8 7) ∧
      dmaOk ((s.startTimer q0 b).writeVa 0 (.command q0.key) (s.queuePart q0) (s.queue q0).ctx 0x3000 (bytesLE 8 7) true).2 =
        some []) ∧
    (let s := queueAt (cmdOf 7) fun k => { k with frames := [⟨cmdOf 8, 0, 0⟩] }
     s.mayRun q0 8 = some (cmdOf 8) ∧ (s.queue q0).guardOk (cmdOf 8) = true ∧ (s.queue q0).frames = [⟨cmdOf 8, 0, 0⟩]) := by
  decide +kernel

/-- A LAUNCH of one core on one cluster of one die, its image at 0x1000. -/
def launchCmd (dies : Nat) : List Byte :=
  bytesLE 8 0x201 ++ bytesLE 8 0x1000 ++ List.replicate 16 0 ++ bytesLE 2 0 ++ [1, BitVec.ofNat 8 dies, 1, 0] ++
    List.replicate 26 0

theorem test_wit_CommandsThatWait :
    (let s : State := { queueAt (cmdOf 2 0 0x4000 7) with mos := ⟨[(9, { st := .live, isFence := true, base := 0x4000, length := 16 })]⟩ }
     s.mayRun q0 2 = some (cmdOf 2 0 0x4000 7) ∧ s.fenceOk (s.queuePart q0) 0x4000 = true) ∧
    (let b := cmdOf 3 0x10000000 0x3000
     let s := queueAt b
     s.mayRun q0 3 = some b ∧ s.busHas d0 (.command q0.key) = false ∧
      (((((s.startTimer q0 b).updQueue q0 fun k => { k with wait := .cond }).updQueue q0 fun k =>
        { k with readAt := (s.die 0).ticks, reread := false }).readVa 0 (.command q0.key) (s.queuePart q0) (s.queue q0).ctx 0x3000
        (cmdWide b) .read true).2 = .wait)) ∧
    (let b := cmdOf 6 0 0x3000 7
     let s := queueAt b
     s.mayRun q0 6 = some b ∧ s.busHas d0 (.command q0.key) = false ∧
      ((s.startTimer q0 b).writeVa 0 (.command q0.key) (s.queuePart q0) (s.queue q0).ctx 0x3000
        (bytesLE 8 (s.die 0).count.toNat) true).2 = .wait) ∧
    (∀ x ∈ [(0, true), (0x10000000, false)],
     let b := cmdOf 3 x.1 0x3000
     let s := readBack 0 (.command 3) 0x3000 (List.replicate 8 0) (queueAt b fun k => { k with wait := .cond, cmd := b })
     s.cpRuns d0 = true ∧ (s.queue q0).wait = .cond ∧ (s.queue q0).stopping = none ∧
      (s.ctx (s.queue q0).ctx).st = .resident ∧ s.transHeld 0 (.command q0.key) = false ∧ s.busHas d0 (.command q0.key) = true ∧
      (s.queue q0).accepted = [⟨32, b, [(0x2000, cmdOf 0)], [], []⟩] ∧ (s.queue q0).frames = [] ∧
      dmaOk (s.readVa 0 (.command q0.key) (s.queuePart q0) (s.queue q0).ctx 0x3000 (cmdWide b) .read true).2 =
        some (List.replicate 8 0) ∧ State.condHolds b (ofBytesLE (List.replicate 8 0)) = x.2) ∧
    (let s := queueAt (launchCmd 1) id fun c => { c with saveSize := 7376896 }
     s.mayRun q0 1 = some (launchCmd 1) ∧ lcDies (launchCmd 1) = 1 ∧
      State.savePart (launchCmd 1) ≤ (s.ctx (s.queue q0).ctx).saveSize.toNat) ∧
    (let s := queueAt (launchCmd 1) id fun c => { c with saveSize := 7376895 }
     s.mayRun q0 1 = some (launchCmd 1) ∧ (s.ctx (s.queue q0).ctx).saveSize.toNat < State.savePart (launchCmd 1) ∧
      s.launchesOf (s.queue q0).ctx = []) ∧
    (queueAt (cmdOf 9)).build.dies = 1 := by
  decide +kernel

theorem test_wit_DoorbellsAndAcceptance :
    (∀ n ∈ [96, 4128],
      let s := queueAt (cmdOf 0) fun k => { k with doneptr := 32 }
      roleOf 0x10 = some .driver ∧ s.crownOpen = true ∧ s.hasDie q0.die = true ∧ q0.die = State.die0 ∧
        (s.queue q0).st = .opened ∧ (s.queue q0).fill < BitVec.ofNat 64 n ∧ (BitVec.ofNat 64 n : W64).toNat % 32 = 0 ∧
        (BitVec.ofNat 64 n : W64).toNat ≤ (s.queue q0).doneptr.toNat + 2 ^ (s.queue q0).ringLog2 ∧
        (s.ctx (s.queue q0).ctx).st ≠ .lost) ∧
    (let s : State := { queueAt (cmdOf 0) with msgs := ⟨[(0, (0, 1, .doorbell q0.key 96))]⟩ }
     s.msgAt 0 = some (0, 1, .doorbell q0.key 96)) ∧
    ((64 : W64) ≤ ((queueAt (cmdOf 0)).queue q0).fill ∧ ((queueAt (cmdOf 0)).die State.die0).stage ≠ .held) ∧
    (let s := queueAt (cmdOf 0) fun k => { k with accptr := 0, accepted := [], fill := 32 }
     let t := readBack 0 (.accept 3) 0 (cmdOf 0) s
     s.mayAccept q0 = true ∧ (match (s.acceptRead q0).2 with | .error .wait => true | _ => false) = true ∧
      t.mayAccept q0 = true ∧
      (match t.acceptRead q0 with
        | (u, .ok (some a)) => (u.pinNeed d0 (t.queuePart q0) q0.key (acceptWindows a)).isNone
        | _ => false) = true) ∧
    (let b := cmdOf 5 0 0x3000
     let s := queueAt (cmdOf 0) fun k => { k with accptr := 0, accepted := [], fill := 32 }
     let e : RangeEnt := { partition := 0, va := 0, len := 4096, pa := 0, r := true, w := true, x := true, cnt := false }
     let t := atDie (fun k => { k with l2 := [e], roots := ⟨[(0, 0x4000000000000000)]⟩ }) (readBack 0 (.accept 3) 0 b s)
     t.mayAccept q0 = true ∧
      (match t.acceptRead q0 with
        | (u, .ok (some a)) => u.pinNeed d0 (t.queuePart q0) q0.key (acceptWindows a)
        | _ => none) = some 0x3000) := by
  decide +kernel

/-- A launch of one core in progress for queue `q0`, in a state of its part. -/
def partLaunch (p : PartState) (f : Launch → Launch := id) : Launch :=
  f { launch0 with
      cmd := launchCmd 1, dies := [0], parts := ⟨[(0, p)]⟩, saveHeld := true
      cores := [⟨0, 0, 0, false, none, none, false, false, false, 0, 0, 0, 0, 0⟩]
      clusters := [⟨0, 0, none, none, false, 0, 0, false⟩] }
def launching (l : Launch) (f : Queue → Queue := id) : State :=
  { queueAt (launchCmd 1) (fun k => f { k with wait := .launch }) with launches := ⟨[(3, l)]⟩ }

theorem test_wit_LaunchesArePlacedAndEnd :
    (let s := atDie (fun k => { k with slotWait := [5] }) ((queueAt (cmdOf 0)).setCtx 5 { st := .ready })
     s.hasDie d0 = true ∧ s.cpRuns d0 = true ∧ s.slotTurn d0 = some (5 : BitVec 14).toNat ∧ (s.ctx 5).st = .ready ∧ (s.die d0).slots.length < 48 ∧
      rootMode ((s.die d0).roots.get 0 (s.ctx 5).partition) ≠ 2) ∧
    (let l := partLaunch .pending
     let s := launching l
     s.launches.find? q0.key = some l ∧ s.turn d0 = some (q0.key, true) ∧ s.schedOpen d0 = true ∧ l.ldieOf d0 = some 0 ∧
      l.parts.find? 0 = some .pending ∧ (s.slotOf d0 l.ctx).isSome = true ∧ l.count = none ∧
      s.bestCluster d0 l.partition (lcCores l.cmd) = some k0 ∧ (s.freeCores l.partition k0).head? = some c0) ∧
    (let l := partLaunch .placed fun l => { l with count := some 9 }
     let s := atDie (fun k => { k with count := 9 }) (launching l)
     s.launches.find? q0.key = some l ∧ l.ldieOf d0 = some 0 ∧ l.parts.find? 0 = some .placed ∧ 9 ≤ (s.die d0).count ∧
      (launching l).launches.find? q0.key = some l ∧ ((launching l).die d0).count < 9) ∧
    (let l := partLaunch .started fun l => { l with placedAt := ⟨[(0, 0)]⟩ }
     let m := partLaunch .pending fun l => { l with cmd := (launchCmd 1).set 0x22 5 }
     let s := atDie (fun k => { k with ticks := 0xFFFFFF }) { launching l with launches := ⟨[(3, l), (4, m)]⟩ }
     (l.ldieOf d0).bind l.placedAt.find? = some 0 ∧ s.sliceOf l.partition ≤ s.since d0 0 ∧
      ((s.waitingOn d0).any fun e => decide (e.2.partition = l.partition) && decide (e.1 ≠ q0.key) &&
        !s.canGo e.1 d0) = true) ∧
    (let l := partLaunch .ended
     let s := launching l
     l.dies ≠ [] ∧ (∀ i, i < l.dies.length → l.parts.find? i = some .ended) ∧ l.fault = none ∧
      (s.queue q0).stopping = none ∧ (s.ctx l.ctx).st ≠ .lost ∧ (s.queue q0).frames = []) := by
  decide +kernel

/-- A control message numbered 0 at die 0 from itself. -/
def withMsg (m : Msg) (s : State) : State := { s with msgs := ⟨[(0, (0, 0, m))]⟩, msgNext := 1 }

/-- A good distribution record for queue `q0`, and one with a wrong check value. -/
def distRec (ok : Bool) : List Byte :=
  let b := List.replicate 8 0 ++ bytesLE 4 3 ++ List.replicate 112 0
  b ++ bytesLE 4 (if ok then (crc32c b).toNat else 0)

theorem test_wit_MultiDieLaunches :
    (let l := partLaunch .pending
     let s := withMsg (.launch 3) (launching l)
     s.msgAt 0 = some (0, 0, .launch 3) ∧ s.launches.find? 3 = some l ∧ l.fault = none ∧ s.cpRuns State.die0 = true ∧
      lcDies l.cmd ≤ ((s.affineDies l.cmd).filter fun e =>
        s.reaches State.die0 e.val && s.cpRuns e && (decide (e = State.die0) || (s.die e).aligned) &&
          s.dieFits l.cmd e).length) ∧
    (∀ ok ∈ [true, false],
      let s := withMsg (.dist (distRec ok)) (launching (partLaunch .pending))
      s.msgAt 0 = some (d0.val, 0, .dist (distRec ok)) ∧ 0 ≠ s.msgNext ∧ s.cpRuns d0 = true ∧
        (decide ((crc32c ((distRec ok).take 0x7C)).toNat = fieldAt (distRec ok) 0x7C 4) = ok) ∧
        fieldAt (distRec ok) 8 4 = 3 ∧ (queueOf 3).die = d0 ∧
        s.pinNeed d0 0 3 ((sdtEntries (partLaunch .pending).sdt).filterMap descWindow) = none) ∧
    (let l := partLaunch .pending fun l => { l with sdt := desc0 }
     let s := withMsg (.dist (distRec true)) (launching l)
     let s := atDie (fun k => { k with l2 := [], roots := ⟨[(0, 0x4000000000000000)]⟩ }) s
     s.cpRuns d0 = true ∧ s.launches.find? (fieldAt (distRec true) 8 4) = some l ∧
      s.pinNeed d0 l.partition 3 ((sdtEntries l.sdt).filterMap descWindow) = some 0x1000 ∧ s.transHeld d0 (.pin 3) = false) ∧
    (let l := partLaunch .started
     let s := withMsg (.partEnded 3 0 (some ({ code := 0x0507 }, 9))) (launching l)
     s.msgAt 0 = some (0, 0, .partEnded 3 0 (some ({ code := 0x0507 }, 9))) ∧ s.launches.find? 3 = some l ∧ l.fault = none ∧
      (s.ctx l.ctx).st = .resident ∧
      (withMsg (.partEnded 3 0 none) s).msgAt 0 = some (0, 0, .partEnded 3 0 none)) := by
  decide +kernel

/-- The launch of queue `q0` holds the first core, in a state of the core. -/
def held (k : Core) (f : Queue → Queue := id) : State :=
  (launching (partLaunch .started) f).setCore c0 { k with part := some 3 }

theorem test_wit_StopsAndLosses :
    (let s := atDie (fun k => { k with ticks := 9 }) (held { run := .running } fun k => { k with timeout := 9, timed := true })
     (s.queue q0).st = .opened ∧ (s.queue q0).stopping = none ∧ (s.queue q0).timeout ≠ 0 ∧ (s.queue q0).wait = .launch ∧
      (s.ctx (s.queue q0).ctx).st ≠ .lost ∧ (s.queue q0).timeout.toNat ≤ (s.queue q0).elapsed (s.die 0).ticks ∧
      s.launches.find? 3 = some (partLaunch .started) ∧
      ((s.cores.entries.filter fun e => decide (e.2.part = some 3) && decide (e.2.run ≠ .idle) &&
        !e.2.stopAcked).map (·.1)) = [0]) ∧
    (let s := atDie (fun k => { k with ticks := 9 }) (queueAt (cmdOf 3) fun k => { k with timeout := 9, timed := true, wait := .cond })
     (s.queue q0).wait = .cond ∧ (s.queue q0).destroyTag = none ∧ (s.ctx (s.queue q0).ctx).st = .resident ∧
      (s.queue q0).timeout.toNat ≤ (s.queue q0).elapsed (s.die 0).ticks ∧ s.cpOut q0.key = false ∧
      ({ s with reqs := ⟨[(4, { req0 false 0x40 with owner := .command 3 })]⟩ } : State).cpOut q0.key = true) ∧
    (let s := atDie (fun k => { k with ticks := 2000 }) (held { run := .stopped, vecRun := [eins 0 [] []] } fun k => { k with stopping := some 0 })
     (s.queue q0).stopping = some 0 ∧ (s.queue q0).drained = false ∧ 2000 ≤ s.since 0 0 ∧
      ((s.cores.entries.filter fun e => decide (e.2.part = some q0.key)).map fun e => coreOf e.1).flatMap s.busyEngines =
        [.vector c0]) ∧
    (let s := withMsg (.stop 3) (held { run := .running })
     s.msgAt 0 = some (c0.die.val, 0, .stop q0.key) ∧ s.launchCores q0.key c0.die = [c0] ∧ (s.core c0).run = .running) ∧
    (let s := withMsg (.stopAck 3 0) (held { run := .stopped } fun k => { k with stopping := some 0, stopWait := [0] })
     s.msgAt 0 = some (0, 0, .stopAck q0.key 0) ∧ (s.queue q0).stopping.isSome = true ∧ (s.queue q0).stopWait = [0] ∧
      (s.queue q0).destroyTag = none ∧ (s.ctx (s.queue q0).ctx).st = .resident) ∧
    (let s : State := { State.reset with ctxs := ⟨[(5, { st := .lost, losing := some 1 })]⟩ }
     (s.ctx 5).losing = some 1 ∧ (∀ d : DieId, (s.die d).evWait = []) ∧ s.faultsOpen 5 = false ∧
      (s.postLost 5).lossReady 5 = true ∧ (s.ctx 5).st = .lost ∧ (∀ e ∈ s.queues.entries, e.2.ctx ≠ 5) ∧
      (∀ r ∈ s.objHeld, r.op ≠ 2)) ∧
    (let s : State := readyDie id { State.reset with
      ctxs := ⟨[(5, { st := .lost, losing := some 1, posted := true })]⟩
      queues := ⟨[(3, { st := .opened, ctx := 5 })]⟩ }
     let t := ((s.postLost 5).launchesOf 5).foldl (fun t k => t.endLaunch k true) (s.postLost 5)
     (∀ d : DieId, (s.die d).evWait = []) ∧ s.faultsOpen 5 = false ∧ (s.postLost 5).lossReady 5 = true ∧ t.ctxQueues 5 = [q0] ∧ (t.walkLost q0).2 = true ∧ (t.walkLost q0).1.ctxQueues 5 = [q0] ∧
      ((t.walkLost q0).1.queue q0).stopping = none ∧ (∀ r ∈ (t.walkLost q0).1.objHeld, r.op ≠ 2)) := by
  decide +kernel

/-- The first core waits for an answer of die 0; semaphore 5 of partition 0 has two units. -/
def asker (k : Core := {}) (x : Sema := { used := true, gen := 1, units := 2 }) : State :=
  { held { k with run := .running, remoteWait := true } with sems := ⟨[(5, x)]⟩ }

/-- A context heap of one MiB at 0x100000, in memory object 1. -/
def heapState : State :=
  { (asker.setCtx 0 { st := .resident, heap := 1 }) with
    mos := ⟨[(1, { st := .live, isHeap := true, base := 0x100000, length := 0x100000 })]⟩ }

/-- Fence signal 0 on its way to the 16 bytes at 0x4000, with a value. -/
def sig0 (v : W64) : FenceSig := { va := 0x4000, value := v, status := 0, ctx := 0, queue := 3, src := 0, pa := some 0x4000 }
def fenceAt (f : FenceSig) : State :=
  { withMsg (.fence 0) (queueAt (cmdOf 2) fun k => { k with wait := .fence }) with fences := ⟨[(0, f)]⟩ }

theorem test_wit_RemoteServices :
    (∀ k ∈ [0, 1, 2], (withMsg (.semReq 0 k 0x10005) asker).msgAt 0 = some (0, 0, .semReq 0 k 0x10005)) ∧
    ((asker.die State.die0).computeReset = false ∧ (asker.sema 5).waiters = [] ∧ asker.semIndex 0x10005 = some 5 ∧ asker.asks (coreOf 0) = true ∧
      (asker.sema 5).holders.length + (asker.sema 5).waiters.length < (asker.sema 5).units) ∧
    (let s := asker {} { used := true, gen := 1, units := 2, holders := [7, 8] }
     s.semIndex 0x10005 = some 5 ∧ (s.sema 5).units ≤ (s.sema 5).holders.length + (s.sema 5).waiters.length) ∧
    (let s := asker {} { used := true, gen := 1, units := 2, waiters := [7] }
     s.semIndex 0x10005 = some 5 ∧ s.asks (coreOf 0) = true ∧ (s.sema 5).waiters ≠ []) ∧
    (let s := writeBack 0 (.pool1 0) 0x100000 [12, 0, 0, 0]
       (readBack 0 (.pool1 0) 0x100000 [0, 0, 0, 0] (withMsg (.pool1 0 false 65536) heapState))
     let x := s.readVa State.die0 (.pool1 0) (s.corePartition (coreOf 0)) (s.coreCtx (coreOf 0)) 0x100000 4 .read false
     s.asks (coreOf 0) = true ∧ (s.ctx (s.coreCtx (coreOf 0))).heap = 1 ∧ min ((s.mo 1).length.toNat / 65536) 262144 = 16 ∧
      s.transHeld State.die0 (.pool1 0) = false ∧
      s.cpRuns State.die0 = true ∧ s.poolBusy 0 = false ∧ dmaOk x.2 = some [0, 0, 0, 0] ∧
      (State.poolCall 0x100000 16 [0, 0, 0, 0] false 65536).2 = (true, some [12, 0, 0, 0]) ∧
      dmaOk (x.1.writeVa State.die0 (.pool1 0) (s.corePartition (coreOf 0)) (s.coreCtx (coreOf 0)) 0x100000 [12, 0, 0, 0] false).2 =
        some [] ∧ 0 ≠ s.msgNext) ∧
    (let i := eins (engineW 5 11) [] []
     let s := withMsg (.pool1Res 0 false 65536 true) (asker { syncQ := [i], stall := .engine 0 })
     s.asks (coreOf 0) = true ∧ (s.core (coreOf 0)).syncQ = [i] ∧ (s.core (coreOf 0)).stall = .engine i.ord) := by
  decide +kernel

theorem test_wit_FenceSignals :
    (∀ wrote ∈ [false, true],
     let s := readBack 0 (.fence 0) 0x4000 (List.replicate 16 0) (fenceAt (sig0 1))
     let s := if wrote then writeBack 0 (.fence 0) 0x4000 (bytesLE 8 1 ++ bytesLE 4 0) s else s
     let x := s.busRead d0 (.fence 0) (s.ctx 0).partition 0 0x4000 0x4000 16 noRange true
     s.msgFor (.fence 0) = some (0, d0.val) ∧ s.cpRuns d0 = true ∧ s.fences.find? 0 = some (sig0 1) ∧
      s.fenceBusy d0 0 0x4000 = false ∧ x.2 = .ok (List.replicate 16 0) ∧
      0 ≤ signed 64 ((1 : W64) - BitVec.ofNat 64 (fieldAt (List.replicate 16 0) 0 8)).toNat ∧
      (x.1.busWrite d0 (.fence 0) (s.ctx 0).partition 0 0x4000 0x4000 (bytesLE 8 1 ++ bytesLE 4 0) noRange true).2 =
        if wrote then .ok [] else .wait) ∧
    ((fenceAt (sig0 1)).busRead d0 (.fence 0) 0 0 0x4000 0x4000 16 noRange true).2 = .wait ∧
    (let s := readBack 0 (.fence 0) 0x4000 (List.replicate 16 0) (fenceAt (sig0 0xFFFFFFFFFFFFFFFF))
     s.msgFor (.fence 0) = some (0, d0.val) ∧
      (s.busRead d0 (.fence 0) (s.ctx 0).partition 0 0x4000 0x4000 16 noRange true).2 = .ok (List.replicate 16 0) ∧
      signed 64 ((0xFFFFFFFFFFFFFFFF : W64) - BitVec.ofNat 64 (fieldAt (List.replicate 16 0) 0 8)).toNat < 0) := by
  decide +kernel

theorem test_wit_FenceResults :
    (∀ b ∈ [false, true],
      let f : FenceSig := { sig0 1 with result := some b }
      let s := withMsg (.fenceRes 0) (fenceAt f)
      s.msgFor (.fenceRes 0) = some (0, 0) ∧ s.cpRuns (dieOf f.src) = true ∧ s.fences.find? 0 = some f ∧ f.queue = q0.key ∧
        f.exec = true ∧ f.bad = false ∧ f.ev = none ∧ (s.queue q0).wait = .fence ∧ (s.queue q0).stopping = none ∧
        (s.queue q0).frames = []) ∧
    (∀ waits ∈ [false, true],
      let f : FenceSig := { sig0 1 with result := some true }
      let s := withMsg (.fenceRes 0) (fenceAt f)
      let s : State := { s with rings := ⟨[(0, { base := 0x40000, enable := true, log2 := 6 })]⟩ }
      let try' := fun s : State => (s.takeMsg 0).tryEvent (dieOf f.src) (s.ctx f.ctx).partition (s.ctx f.ctx).evring
        (State.fenceRec f f.cookie (bytesLE 8 f.time.toNat))
      let s := if waits then s else s.setDie d0 { s.die d0 with bus := ((try' s).1.die d0).bus.map fun b =>
        { b with reqs := b.reqs.map fun x => (x.1, some .accepted) } }
      (try' s).2 = none ∧ (((try' s).1.die d0).evWait.any fun x => decide (x.1 = s.eventNext)) = waits) ∧
    (let s : State := { atDie (fun k => { k with ticks := 1000 }) (fenceAt (sig0 1)) with msgs := {} }
     s.msgFor (.fenceRes 0) = none ∧ s.cpRuns (dieOf 0) = true ∧ s.fences.find? 0 = some (sig0 1) ∧
      1000 ≤ s.since (dieOf 0) (sig0 1).sentAt ∧ (sig0 1).exec = true ∧ (sig0 1).ev = none ∧ (s.ctx 0).st = .resident) := by
  decide +kernel

/-- The request block with ARG0 in its second word; the first word of a request of an operation on an object. -/
def block (arg : Nat) (s : State) : State := { s with objReq := List.replicate 8 0 ++ bytesLE 8 arg ++ List.replicate 16 0 }
def reqW (op index : Nat) : W64 := BitVec.ofNat 64 (op + index * 2 ^ 32)

theorem test_wit_Submits : ∀ op ∈ List.range 10,
    let s := block 0 (queueAt (cmdOf 0))
    roleOf 0x10 = some .driver ∧ s.crownOpen = true ∧ strobes 0xFF = some (BitVec.allOnes 64) ∧
      bitAt (BitVec.allOnes 64).toNat 63 = true ∧ s.objHeld.length < 64 ∧
      reqOfBlock (putCovered s.objReq 0 (reqW op 5) (BitVec.allOnes 64)) =
        { op := op, tag := 0, index := 5, arg0 := 0, rsvOk := true } ∧
      s.objHeld = [] := by
  decide +kernel

/-- The driver's tables at 0x10000, 0x300000 and 0x400000, and an entry's bytes in memory. -/
def tables (s : State) : State := { s with ctxTbl := 0x10000, moTbl := 0x400000, qTbl := ⟨[(0, 0x300000)]⟩ }

theorem test_wit_ObjectsAreCreated :
    (let s := tables (queueAt (cmdOf 0))
     let s := poke (s.ctxEntry 5 + 4) [255, 255, 255, 255] s
     let e := s.readBytes (s.ctxEntry 5) 128
     (s.ctx 5).st = .free ∧ s.partEnabled (fieldAt e 0 2) = true ∧ fieldAt e 8 8 % 2048 = 0 ∧ fieldAt e 0x10 8 % 2048 = 0 ∧
      fieldAt e 0x40 64 = 0 ∧ fieldAt e 4 4 = 0xFFFFFFFF) ∧
    (∀ n ∈ [12, 24],
     let s := (tables (queueAt (cmdOf 0))).setCtx 0 { st := .ready }
     let q : QueueId := ⟨0, 5⟩
     let s := poke (s.queueEntry q + 3) [BitVec.ofNat 8 n] s
     let e := s.readBytes (s.queueEntry q) 64
     q.key = 5 ∧ (s.queue q).st = .free ∧ fieldAt e 0 2 < 16384 ∧ (s.ctx (fieldAt e 0 2)).st = .ready ∧ fieldAt e 3 1 = n ∧
      fieldAt e 4 2 ≤ 64 ∧ fieldAt e 6 2 = 0 ∧ fieldAt e 8 8 % 2 ^ fieldAt e 3 1 = 0 ∧ fieldAt e 0x14 4 = 0 ∧
      fieldAt e 0x28 24 = 0) ∧
    (let s := tables (queueAt (cmdOf 0))
     let s := poke (s.moEntry 5 + 0x10) [16] s
     let e := s.readBytes (s.moEntry 5) 64
     (s.mo 5).st = .free ∧ s.partEnabled (fieldAt e 4 2) = true ∧ fieldAt e 6 1 < 4 ∧ fieldAt e 8 8 % 16 = 0 ∧
      fieldAt e 0x10 8 = 16 ∧ fieldAt e 0x18 8 = 0) ∧
    (let s := block 1 (queueAt (cmdOf 0))
     field (1 : W64).toNat 63 20 = 0 ∧ field (1 : W64).toNat 15 0 ≠ 0 ∧ s.partEnabled (field (1 : W64).toNat 19 16) = true ∧
      ((List.range 4096).find? fun j => !(s.sema j).used) = some 0) := by
  decide +kernel

theorem test_wit_ObjectsAreDestroyed :
    (let s := (queueAt (cmdOf 0)).setCtx 5 { st := .resident }
     (s.ctx 5).st = .resident ∧ (s.ctx 5).st ≠ .free ∧ (s.ctx 5).losing = none ∧ s.ctxQueues 5 = []) ∧
    (let s := queueAt (cmdOf 0) fun k => { k with accepted := [], doneptr := 64 }
     (s.queue q0).st = .opened ∧ (s.queue q0).stopping = none ∧ (s.queue q0).wait = .none ∧ (s.queue q0).frames = [] ∧
      (s.queue q0).accepted = [] ∧ (s.queue q0).fill = (s.queue q0).doneptr ∧ (s.ctx (s.queue q0).ctx).losing = none ∧ s.cpRuns q0.die = true ∧
      s.cpOut q0.key = false) ∧
    (let s := held { run := .running }
     (s.queue q0).wait = .launch ∧ (s.queue q0).accepted.length = 1 ∧ (s.queue q0).fill.toNat ≤ 32 + 32 ∧
      (s.ctx (s.queue q0).ctx).losing = none ∧ s.cpRuns q0.die = true ∧ s.launches.find? q0.key = some (partLaunch .started) ∧
      ((s.cores.entries.filter fun e => decide (e.2.part = some q0.key) && decide (e.2.run ≠ .idle) &&
        !e.2.stopAcked).map (·.1)) = [0]) ∧
    (let s : State := { tables (queueAt (cmdOf 0)) with mos := ⟨[(5, { st := .live }), (6, { st := .retiring })]⟩ }
     (s.mo 5).st = .live ∧ fieldAt (s.readBytes (s.moEntry 5) 4) 0 4 = 0 ∧ (s.mo 6).st = .retiring) ∧
    (let s : State := { queueAt (cmdOf 0) with sems := ⟨[(5, { used := true, gen := 1 }), (6, { used := true, gen := 1, holders := [0] })]⟩ }
     field (0x10005 : W64).toNat 63 32 = 0 ∧ field (0x10005 : W64).toNat 11 0 = 5 ∧ (s.sema 5).used = true ∧
      (s.sema 5).gen.toNat = field (0x10005 : W64).toNat 31 16 ∧ (s.sema 5).partition = field (0x10005 : W64).toNat 15 12 ∧
      (s.sema 5).holders = [] ∧ (s.sema 5).waiters = [] ∧ (s.sema (field (0x10006 : W64).toNat 11 0)).holders ≠ []) := by
  decide +kernel


/-- A write of FQ_RESP that answers slot 0 with an action. -/
def respW (action : Nat) : W64 := BitVec.ofNat 64 (action * 2 ^ 30)

/-- Slot 0 of the fault queue holds a record of the first core's load. -/
def faulted (hot : Bool) : State := atDie (fun k => { k with
    fq := ⟨[(0, { hot := hot, accs := if hot then [] else [(.seqLoad 0, 0x5000, 0, 0)] })]⟩ })
  (queueAt (cmdOf 0))

theorem test_wit_Answers : ∀ a ∈ [1, 2, 3],
    roleOf 0x10 = some .driver ∧ (faulted (a = 3)).crownOpen = true ∧ strobes 0xFF = some (BitVec.allOnes 64) ∧
      bitAt (BitVec.allOnes 64).toNat 0 = true ∧ (faulted (a = 3)).hasDie d0 = true ∧
      respW a &&& BitVec.allOnes 64 &&& fqRsv = 0 ∧ fqAction (respW a).toNat = a ∧
      ((faulted (a = 3)).answered d0 (respW a).toNat).isSome = true ∧
      ((faulted (a = 3)).answered d0 (respW a + 1).toNat) = none := by
  decide +kernel

/-- A walk for a unit's access at 0x5000, over a table of one entry at 0x8000, which has been read. -/
def walk0 (o : Owner) : Walk := ⟨0, 0x5000, [(o, 0x5000, 0, 0)], 0x8000, 1, []⟩
def walking (o : Owner) (flags : Nat) : State :=
  readBack 0 (.walk 0 5) 0x8000 (bytesLE 8 0x5000 ++ bytesLE 8 0x1000 ++ bytesLE 8 0x9000 ++ bytesLE 8 flags)
    (atDie (fun k => { k with walks := [walk0 o] }) (queueAt (cmdOf 0)))

theorem test_wit_TranslationFaultsAreServed :
    (∀ o ∈ [Owner.seqLoad 0, Owner.pin 3],
      let s := walking o 0xF
      let bare := atDie (fun k => { k with walks := [walk0 o] }) (queueAt (cmdOf 0))
      s.hasDie d0 = true ∧ (s.die d0).walks[0]? = some (walk0 o) ∧ (walk0 o).spans = [] ∧ o.isPin = decide (o = .pin 3) ∧
        (s.tableWalk d0 (walkOwner (walk0 o)) 0 0x8000 1 0x5000).2 =
          .found { partition := 0, va := 0x5000, len := 0x1000, pa := 0x9000, r := true, w := true, x := true, cnt := false } ∧
        ((walking o 0).tableWalk d0 (walkOwner (walk0 o)) 0 0x8000 1 0x5000).2 = .fault .unmapped ∧
        (bare.die d0).walks[0]? = some (walk0 o) ∧ (bare.tableWalk d0 (walkOwner (walk0 o)) 0 0x8000 1 0x5000).2 = .wait) ∧
    (let w : FqWait := ⟨.unmapped, 0, 0, .seqLoad 0, 0x5000, 0, 0⟩
     let s := atDie (fun k => { k with fqWait := [w] }) (queueAt (cmdOf 0))
     (s.die d0).fqWait = [w] ∧ s.freeSlot d0 = some 0 ∧ s.mergeSlot d0 w.cause w.partition w.va w.range = none) ∧
    ((faulted false).answered d0 (respW 2).toNat).map (·.accs) = some [(.seqLoad 0, 0x5000, 0, 0)] ∧
    (let s := atDie (fun k => { k with replays := [(.seqLoad 0, 0x5000, 0, 0)] }) (queueAt (cmdOf 0))
     (s.die d0).replays[0]? = some (.seqLoad 0, 0x5000, 0, 0)) := by
  decide +kernel

/-- Partition 0 in KINDLING mode, its table at 0x8000, context 0 RESIDENT. -/
def kindling : State := atDie (fun k => { k with roots := ⟨[(0, 0x8000000000008000)]⟩ }) (queueAt (cmdOf 9) fun k => { k with wait := .inval [0] })

theorem test_wit_RootsAndInvalidation :
    (let s := atDie (fun k => { k with ticks := 100000 }) (queueAt (cmdOf 0))
     s.hasDie d0 = true ∧ 100 * max 1 (s.die d0).hotPeriod.toNat ≤ s.since d0 (s.die d0).hotAt) ∧
    (∀ x ∈ [(0x4000000000000000, 1), (0xC000000000000000, 3)],
      rootMode (BitVec.ofNat 64 (((queueAt (cmdOf 0)).partRoot.get 0 15).toNat / 2 ^ 64) ++
        (BitVec.ofNat 64 x.1 &&& ~~~rootRsvLow)) = x.2) ∧
    (rootMode ((kindling.die d0).roots.get 0 (kindling.ctx (0 : BitVec 14).toNat).partition) = 2 ∧
      (kindling.slotOf d0 0).isSome = true ∧
      (∀ x ∈ [(List.replicate 256 0, none), ((List.replicate 256 0).set 255 1, some 7)],
        let s := readBack 0 (.segs 0 0) 0x8000 x.1 kindling
        (match (s.readSegs d0 0 0).2 with | .ok b => decide (b = x.1) | _ => false) = true ∧ segBad x.1 = x.2) ∧
      (match (kindling.readSegs d0 0 0).2 with | .wait => true | _ => false) = true ∧
      (kindling.ctx 0).st = .resident) := by
  decide +kernel

theorem test_wit_Invalidations :
    (∀ read ∈ [false, true],
      let s := withMsg (.inval 3 0 0 0) kindling
      let s := if read then readBack 0 (.segs 0 1) 0x8000 (List.replicate 256 0) s else s
      let mine := (s.die d0).slots.filter fun x => decide ((s.ctx x.ctx).partition = 0)
      s.msgAt 0 = some (d0.val, 0, .inval 3 0 0 0) ∧ s.cpRuns d0 = true ∧ mine ≠ [] ∧
        (mine.foldl (fun (acc : State × Bool) x =>
          ((acc.1.segsRead d0 x.ctx (0 + 1)).1, acc.2 && (acc.1.segsRead d0 x.ctx (0 + 1)).2)) (s, true)).2 = read) ∧
    (let s := atDie (fun k => { k with invals := [(3, 0, [7], [8])] }) kindling
     s.hasDie q0.die = true ∧ s.cpRuns q0.die = true ∧ s.msgFor (.invalAck q0.key q0.die.val) = none ∧
      ((s.die q0.die).invals.find? fun e => decide (e.1 = q0.key)) = some (3, 0, [7], [8]) ∧ s.reqs.find? 7 = none ∧
      s.fences.find? 8 = none ∧
      (s.queue q0).wait = .inval [q0.die.val] ∧ (s.queue q0).stopping = none ∧ (s.queue q0).frames = []) ∧
    (let s := withMsg (.invalAck 3 1) (queueAt (cmdOf 9) fun k => { k with wait := .inval [1, 0] })
     s.msgFor (.invalAck q0.key d1.val) = some (0, 0) ∧ (s.queue q0).wait = .inval [d1.val, d0.val]) := by
  decide +kernel

/-- Link 0 of die 0, in a state. -/
def linkAt (x : Link) : State := ({ State.reset with straps := ⟨[(0, { dieId := some 0 })]⟩ } : State).setLink l0 x
def wrFlit (seq : Nat) : Flit := { body := .wr [9], dst := 0, src := 1, seq := seq, tag := 4, addr := 0x40 }

theorem test_wit_LinksCarryFlits :
    (let s := linkAt { st := .active, wire := [wrFlit 0] }
     s.hasDie l0.die = true ∧ (s.link l0).st = .active ∧ flitBad [0] = true ∧ (s.link l0).wire = [wrFlit 0] ∧
      (wrFlit 0).body ≠ .idle ∧ (wrFlit 0).seq = (s.link l0).rxSeq ∧ (wrFlit 0).dst = l0.die.val ∧ (wrFlit 0).nak = none ∧
      (wrFlit 1023).seq ≠ (s.link l0).rxSeq ∧ (wrFlit 0).body = .wr [9]) ∧
    (let f : Flit := { body := .ctl (.readiness 5), dst := 0, src := 1 }
     f.body = .ctl (.readiness 5) ∧ f.seq = (linkAt { st := .active, wire := [f] } |>.link l0).rxSeq ∧ f.dst = l0.die.val ∧
      f.nak = none) ∧
    (let f : Flit := { body := .ctl (.distA [1]), dst := 0, src := 1 }
     let g : Flit := { f with body := .ctl (.distB [2]) }
     let s := atDie (fun k => { k with distHalf := ⟨[(1, [1])]⟩ }) (linkAt { st := .active, wire := [g] })
     f.body = .ctl (.distA [1]) ∧ f.seq = (linkAt { st := .active, wire := [f] } |>.link l0).rxSeq ∧ f.nak = none ∧
      g.seq = (s.link l0).rxSeq ∧ (s.die l0.die).distHalf.find? g.src = some [1]) ∧
    (let s := atDie (fun k => { k with ticks := 200 }) (linkAt { st := .active, farDie := 1, held := [(wrFlit 0, 0, 2)] })
     (∀ x ∈ (s.link l0).held, x.2.2 < 3) ∧ (s.link l0).held = [(wrFlit 0, 0, 2)] ∧ 200 ≤ s.since l0.die 0 ∧ (s.link l0).replayAt = [] ∧ s.farEnd l0 ≠ l0) := by
  decide +kernel

theorem test_wit_LinksTrain :
    ((linkAt { enabled := true }).link l0).st = .down ∧ ((linkAt { enabled := true }).link l0).enabled = true ∧
    (let s := linkAt { st := .ident, step := .ident, phyReady := true }
     (s.link l0).st = .ident ∧ (s.link l0).step = .ident ∧ (List.replicate 48 (⟨0, false⟩ : LaneSeen)).length = 48) ∧
    (let s := linkAt { st := .report, step := .report }
     (s.link l0).st = .report ∧ (1 : Fin 8).val ≠ (s.die l0.die).number ∧ (0 : Fin 8).val = (s.die l0.die).number ∧
      (let rs : List (BitVec 48) := List.replicate 24 3 ++ List.replicate 22 0
       let ds : List (Fin 8) := List.replicate 24 1 ++ List.replicate 22 0
       let ls : List (Fin 4) := List.replicate 24 2 ++ List.replicate 22 0
       (rs.zip (ds.zip ls)).length < 2 * (rs.zip (ds.zip ls)).count (3, 1, 2)) ∧
      popcount 48 (s.link l0).retired.toNat ≤ 2 ∧ popcount 48 (3 : BitVec 48).toNat ≤ 2 ∧ (s.link l0).e2e = {}) ∧
    2 < popcount 48 ((linkAt { st := .report, step := .report, retired := 7 }).link l0).retired.toNat ∧
    (let s := atDie (fun k => { k with ticks := 5000000, stage := .links }) (linkAt { st := .align, step := .align, restarts := 2 })
     (s.link l0).st = .align ∧ (s.link l0).step = .align ∧ (s.link l0).training = true ∧ 2 ≤ (s.link l0).restarts ∧
      20 ≤ (s.die l0.die).ticks - (s.link l0).phaseAt ∧ (s.die l0.die).stage = .links ∧
      5000000 ≤ s.since l0.die (s.die l0.die).stageAt ∧
      ((linkAt { st := .align, restarts := 1 }).link l0).restarts < 2) ∧
    (State.reset.setDie d1 { stage := .ready }).hasDie d1 = true ∧ ((State.reset.setDie d1 { stage := .ready }).die d1).stage ≠ .held ∧
    (let f : Flit := { body := .ctl (.topology 1 3 [0]), dst := 0, src := 1 }
     let s := linkAt { st := .active, wire := [f] }
     s.hasDie l0.die = true ∧ (s.link l0).st = .active ∧ f.body = .ctl (.topology 1 3 [0]) ∧ f.seq = (s.link l0).rxSeq ∧
      f.dst = l0.die.val ∧ f.nak = none ∧ 1 ≠ l0.die.val ∧ (s.die l0.die).topologyNo.get 0 1 < 3) := by
  decide +kernel

/-- Die 1 with its record changed; it has a route to die 0. -/
def atDie1 (f : Die → Die) (s : State := State.reset) : State :=
  s.setDie d1 (f { s.die d1 with stage := .ready, routes := ⟨[(0, 0)]⟩ })

theorem test_wit_CountersRunAndAlign :
    (State.reset.setDie d0 { stage := .boot }).hasDie d0 = true ∧ ((State.reset.setDie d0 { stage := .boot }).die d0).holding < 2 ∧
    2 ≤ ((atDie1 fun k => { k with holding := 2 }).die d1).holding ∧
    (let s := atDie1 id
     (s.net d1).stepTo = none ∧ (s.net d1).stepBy = none ∧ (s.net d1).adjNext = none ∧ (s.net d1).adj = 0 ∧
      (s.net d1).nsFrac + 10 * 2 ^ 32 < secondUnits) ∧
    ((atDie1 fun k => { k with holding := 1 }).die d1).holding = 1 ∧
    (∀ n ∈ [0, 1],
      let s := atDie1 fun k => { k with onRing := true, holding := n }
      s.hasDie d1 = true ∧ (s.die d1).stage ≠ .held ∧ (s.die d1).onRing = true ∧ s.reaches d1 0 = true ∧ d1 ≠ State.die0 ∧
        (s.die d1).holding = n) ∧
    (let s : State := { atDie1 (fun k => { k with aligning := true, alignNext := 1 }) with
        msgs := ⟨[(0, (1, 0, .alignAns 0 0 9))]⟩, msgNext := 1 }
     s.msgAt 0 = some (d1.val, 0, .alignAns 0 0 9) ∧ (s.die d1).aligning = true ∧
      (s.die d1).exchanges.length < (s.die d1).alignNext ∧ (s.die d1).exchanges.length = 0) ∧
    (let s := (atDie1 fun k => { k with ticks := 100000 }).setSteward d1 { mode := .carori }
     (s.steward d1).mode = .carori ∧ (s.die d1).onRing = false ∧ 100000 ≤ s.since d1 (s.die d1).resumeAt) ∧
    (∀ n ∈ [0, 15],
      let s := atDie1 fun k => { k with aligning := true, alignNext := n, ticks := 10 }
      (s.die d1).aligning = true ∧ (s.die d1).alignNext < 16 ∧ ((s.die d1).alignNext = 0 ∨ 10 ≤ s.since d1 (s.die d1).alignAt)) ∧
    (withMsg (.alignReq 3 9) (atDie1 id)).msgAt 0 = some (0, 0, .alignReq 3 9) ∧
    (let x : Exchange := ⟨4, 9, 6⟩
     let s : State := { atDie1 (fun k => { k with
        aligning := true, alignNext := 16, exchanges := List.replicate 15 x, count := 8 }) with
        msgs := ⟨[(0, (1, 0, .alignAns 15 0 9))]⟩ }
     s.msgAt 0 = some (d1.val, 0, .alignAns 15 0 9) ∧ (s.die d1).exchanges.length = 15 ∧ (s.die d1).alignPeriodic = false ∧
      bestExchange ((s.die d1).exchanges ++ [⟨0, 9, (s.die d1).count⟩]) = some x ∧ 0 < x.offset ∧ (⟨4, 0, 6⟩ : Exchange).offset < 0) ∧
    (let s := atDie1 fun k => { k with aligning := true, alignNext := 1, ticks := 1000 }
     (s.die d1).exchanges.length < (s.die d1).alignNext ∧ (s.die d1).exchanges.length < 15 ∧ 1000 ≤ s.since d1 (s.die d1).alignAt) ∧
    (let s := atDie1 fun k => { k with aligned := true, ticks := 100000000 }
     (s.die d1).aligned = true ∧ (s.die d1).aligning = false ∧ 100000000 ≤ s.since d1 (s.die d1).periodAt) ∧
    (let s := (atDie1 id).setNet d1 { history := [(1, 2), (3, 4)] }
     (s.net d1).history = [(1, 2), (3, 4)]) := by
  decide +kernel


/-- A package of one die, its first cluster enabled, with die 0's record changed. -/
def oneDie (f : Die → Die) : State := atDie f { State.reset with build := { dies := 1, clusters := 1, cores := 1, arrays := 1 } }

/-- Die 1 with a link that has ended its training, and routes to every die. -/
def linksDone (f : Die → Die) : State :=
  [0, 1, 2, 3].foldl (fun s (i : Fin 4) => s.setLink ⟨d1, i⟩ { st := .failed })
    (atDie1 (s := { State.reset with build := { State.reset.build with dies := 2 } }) (fun k => f { k with number := 1, stage := .links, routes := ⟨(List.range 8).map fun n => (n, 0)⟩, aligned := true }))

theorem test_wit_StartUpStages :
    State.reset.hasDie State.die0 = true ∧ (∀ e ∈ State.reset.reqs.entries, e.2.die = d0 → e.2.write = false) ∧
    (∀ e ∈ (withReq (req0 false 64)).reqs.entries, e.2.die = d0 → e.2.write = false) ∧
    (State.reset.die d0).stage = .held ∧
    (let s := oneDie fun k => { k with stage := .plan }
     s.hasDie d0 = true ∧ (s.die d0).stage = .plan ∧ (s.die d0).computeReset = true ∧ (s.die d0).awaitPlan = false ∧
      (s.die d0).heldSupply = false ∧ (s.die d0).heldLadder = false ∧ (s.die d0).invals = []) ∧
    (let s := oneDie fun k => { k with stage := .selftest, computeReset := false }
     (s.die d0).stage = .selftest ∧ (s.die d0).computeReset = false ∧ (s.die d0).awaitPlan = false ∧ a0.core.die = d0 ∧
      s.hasArray a0 = true ∧ s.unitOn (.array a0) = true) ∧
    (let s := linksDone id
     s.hasDie d1 = true ∧ d1 ≠ State.die0 ∧ (s.die d1).stage = .links ∧ (s.die d1).reported = false ∧
      (s.die d1).stopped = false ∧ (s.die d1).linkConflict = false ∧ (s.die d1).aligned = true ∧
      (∀ i : Fin 4, s.linkSettled ⟨d1, i⟩ = true) ∧ s.hasDie d0 = true ∧ s.reaches d1 d0.val = true ∧ (s.die d0).number = 0 ∧ s.reaches d1 d1.val = true ∧
      (s.die d1).number = 1 ∧ s.build.dies = 2) ∧
    (let s := withMsg (.stage 65535 64 256 0 0 false) State.reset
     s.msgAt 0 = some (0, 0, .stage 65535 64 256 0 0 false) ∧ s.capFixed = false) ∧
    (let s := oneDie fun k => { k with stage := .hostInit }
     roleOf 0x10 = some .driver ∧ (s.die State.die0).stage = .hostInit ∧ s.hostReady = true ∧
      (atDie (fun k => { k with stage := .hostInit, routes := {} }) State.reset).hostReady = false) ∧
    (let s := withMsg (.readiness 5) (oneDie fun k => { k with stage := .hostInit })
     s.msgAt 0 = some (d0.val, 0, .readiness 5) ∧ (s.die d0).stage = .hostInit ∧ (s.die d0).stopped = false) := by
  decide +kernel

theorem test_wit_SupplyAndRate :
    (let s := oneDie fun k => { k with stage := .boot }
     s.hasDie d0 = true ∧ (s.die d0).stage ≠ .held ∧ (s.die d0).heldSupply = false ∧ (s.die d0).computeReset = true) ∧
    ((oneDie fun k => { k with stage := .ready, computeReset := false }).die d0).computeReset = false ∧
    (let s := oneDie fun k => { k with stage := .boot, heldSupply := true }
     (s.die d0).heldSupply = true ∧ (s.die d0).stage = .boot) ∧
    (let s := oneDie fun k => { k with stage := .links, heldSupply := true }
     (s.die d0).heldSupply = true ∧ (s.die d0).stage = .links ∧ (s.die d0).heldLadder = false ∧
      (s.die d0).dieReset = false ∧ (s.die d0).invals = []) ∧
    (let s := oneDie fun k => { k with stage := .ready, computeReset := false, ticks := 1000 }
     (s.die d0).computeReset = false ∧ 1000 ≤ s.since d0 (s.die d0).windowAt ∧
      (1199 : W16).toNat < 1200 ∧ 0x3C ≤ (s.steward d0).vreq ∧ 1200 ≤ (1200 : W16).toNat) := by
  decide +kernel

/-- An escalation on die 0 at a level, with regions left to read; the die has run for a number of ticks. -/
def escAt (l : ResetLevel) (u : ResetUnit) (todo : List RegionTodo) (ticks : Nat) (resetAt : Option Nat := none) : Escalation × State :=
  let x : Dump := { level := 1, die := 0, unit := 0, cause := 0x1801, t0 := 0, seqno := 0 }
  let e : Escalation := { unit := u, start := u, code := 0x1801, level := l, t0 := 0, from' := 0, todo := todo, resetAt := resetAt, dump := x }
  (e, oneDie fun k => { k with stage := .ready, computeReset := false, ticks := ticks, escalations := [e] })

/-- Two regions of one core, on two paths: its tokens, and its store's error register. -/
def todo2 : List RegionTodo := [{ path := 2, id := 0x02, unit := 0, len := 1024 }, { path := 3, id := 0x06, unit := 0, len := 16 }]

theorem test_wit_ResetLadderAndDumps :
    (let u : ResetUnit := .array a0
     let s := arrAt fun a => { a with run := [eins mmWord [] []] }
     let s := atDie (fun k => { k with computeReset := false, ticks := 500 }) s
     s.hasUnit u = true ∧ (s.die u.dieId).computeReset = false ∧ s.objVal u.dieId 0x2A30 0 ≤ 500 ∧ s.watched u 500 = true ∧ (s.die u.dieId).escalations = []) ∧
    (let p := escAt .core (.core c0) todo2 199
     let e := p.1
     let s := p.2
     let r : RegionTodo := { path := 2, id := 0x02, unit := 0, len := 1024 }
     s.hasDie d0 = true ∧ s.esc d0 0 = some e ∧ (e.todo.find? fun r => decide (r.path = 2)) = some r ∧ e.resetAt = none ∧
      s.since d0 (e.pathAt.get 0 2) < 200 ∧ e.todo.erase r ≠ [] ∧ e.kept = true ∧
      (s.regionData d0 r).1.dumpOthers d0 e.dump.seqno + State.dumpBytes e.dump + State.regionBytes (s.regionData d0 r).2.length
        ≤ 524288) ∧
    (let p := escAt .core (.core c0) todo2 200
     200 ≤ p.2.since d0 (p.1.pathAt.get 0 2) ∧ p.2.dumpOthers d0 p.1.dump.seqno + State.dumpBytes p.1.dump + State.regionBytes 0 ≤ 524288) ∧
    (∀ x ∈ [(ResetLevel.engine, 800), (.core, 1600), (.cluster, 3600), (.die, 10000)],
      (escAt x.1 (.core c0) todo2 x.2).1.level.collect ≤ (escAt x.1 (.core c0) todo2 x.2).2.since d0 0) ∧
    (let p := escAt .engine (.array a0) todo2 2000
     2000 ≤ p.2.since d0 p.1.t0 ∧ p.2.regionsLeft (p.1.unit.atLevel ResetLevel.core) p.1.dump ≠ [] ∧
      (p.1.unit.atLevel ResetLevel.core).level = .core ∧
      (∀ x ∈ (p.2.die d0).escalations, ¬ x.dump.seqno ≠ p.1.dump.seqno)) ∧
    (let p := escAt .die (.die d0) [] 40000
     p.2.esc d0 0 = some p.1 ∧ p.1.level = .die ∧ 40000 ≤ p.2.since d0 p.1.t0) ∧
    (let p := escAt .core (.core c0) [] 1600 (some 1500)
     let s := p.2.setCore c0 { run := .reset }
     s.esc d0 0 = some p.1 ∧ p.1.resetAt.isSome = true ∧ p.1.unit = .core c0 ∧ s.hasCore c0 = true ∧
      (s.core c0).run = .reset ∧ p.1.kept = true) ∧
    (let o : Orphan := ⟨5, some 0⟩
     let s := oneDie fun k => { k with ticks := 1000, orphans := [o] }
     ((s.die d0).orphans.find? fun o => decide (o.req = 5)) = some o ∧ o.at' = some 0 ∧ 1000 ≤ s.since d0 0 ∧ s.reqs.find? 5 = none ∧
      (let r := req0 true 64 (.port 0 1 5)
       ({ s with reqs := ⟨[(5, r)]⟩ } : State).reqs.find? 5 = some r ∧ r.st = .port 0 1 5)) ∧
    (let x := (escAt .core (.core c0) [] 0).1.dump
     let s := oneDie fun k => { k with stage := .ready, dumps := [x] }
     roleOf 0x10 = some .driver ∧ s.crownOpen = true ∧ (s.die d0).dumps = x :: []) ∧
    (let s := (oneDie fun k => { k with stage := .ready, awaitPlan := true, computeReset := false }).setSteward d0
       { mode := .carori, journal := { replayed := true } }
     s.caroriRuns d0 = true ∧ (s.die d0).awaitPlan = true ∧ (s.die d0).computeReset = false ∧ (s.die d0).stage = .ready) := by
  decide +kernel

/-- Both runs of logical core 0, on the first two cores; run A at a comparison point since tick 0. -/
def paired (ka kb : Core) (pa pb : Nat) : State :=
  let x : LogCore := { lcore := 0, ldie := 0, lcl := 0, at? := some c0, points := pa }
  let y : LogCore := { x with runB := true, at? := some c1, points := pb }
  (({ atDie (fun k => { k with ticks := 200000000 }) State.reset with
      launches := ⟨[(3, { launch0 with cores := [x, y] })]⟩ } : State).setCore c0 ka).setCore c1 kb

theorem test_wit_PairedRunsAreCompared :
    (let s := paired { pairPoint := some 0 } { pairPoint := some 9 } 2 2
     (s.pairRuns q0.key 0).map (fun p => (p.1.2, p.2.2)) = some (c0, c1) ∧ c0 ≠ c1 ∧ s.atPoint c0 = true ∧ s.atPoint c1 = true ∧
      ((s.pairRuns q0.key 0).map fun p => p.1.1.points == p.2.1.points) = some true ∧
      (s.core c0).psStr = (s.core c1).psStr ∧ (s.core c0).psSeq = (s.core c1).psSeq) ∧
    (let s := paired { pairPoint := some 0, psSeq := 1 } { pairPoint := some 9 } 2 2
     (s.core c0).psSeq ≠ (s.core c1).psSeq ∧ s.atPoint c0 = true ∧ s.atPoint c1 = true) ∧
    (let s := paired { pairPoint := some 0 } {} 2 1
     s.atPoint c0 = true ∧ ((s.pairRuns q0.key 0).map fun p => decide (p.2.1.points < p.1.1.points)) = some true ∧
      (s.core c0).pairPoint = some 0 ∧ s.objVal c0.die 0x2A41 0 ≤ s.since c0.die 0 ∧ c0.die = q0.die ∧
      (s.launches.find? q0.key).isSome = true ∧ ((s.launches.find? q0.key).map fun l => l.fault.isNone) = some true) ∧
    (∀ x ∈ [0, 3], ∀ b ∈ [false, true], BitVec.ofNat 2 x ≠ errPins b) ∧ State.reset.hasDie d0 = true ∧
    4 ≤ (oneDie fun k => { k with ticks := 4 }).since d0 ((oneDie fun k => { k with ticks := 4 }).steward d0).safety.errAt := by
  decide +kernel

/-- A steward that runs Carori with its journal replayed, on a package of one die that has run for a number of ticks. -/
def stewardAt (ticks : Nat) (f : Steward → Steward := id) (g : Die → Die := id) : State :=
  (oneDie fun k => g { k with stage := .ready, computeReset := false, ticks := ticks }).setSteward d0
    (f { mode := .carori, journal := { replayed := true } })

theorem test_wit_MarginsAreSupervised :
    (let s := stewardAt 48000 fun k => { k with journal := {} }
     s.hasDie d0 = true ∧ (s.steward d0).mode = .carori ∧ 48000 ≤ s.since d0 (s.steward d0).safety.hbAt ∧
      (s.steward d0).journal.replayed = false ∧
      (stewardAt 47999).since d0 ((stewardAt 47999).steward d0).safety.hbAt < 48000) ∧
    (let s := stewardAt 10000
     (∀ r ∈ [0, 3], s.hasMonitor d0 r 0 = true ∧ r < 64 ∧
      s.emberInterval d0 r ≤ s.since d0 ((s.region d0 r).readAt.get 0 0) ∧ (s.region d0 r).plan = none) ∧
      8 ≤ slackInt 8 ∧ slackInt 7 < 8 ∧ slackInt 0x80 < 8) ∧
    (let s := stewardAt 1000 fun k => { k with regions := ⟨[(0, { plan := some .startup, fresh := [20, 15, 20] })]⟩ }
     s.hasMonitor d0 0 0 = true ∧ 1000 ≤ s.since d0 ((s.region d0 0).readAt.get 0 0) ∧ (s.region d0 0).plan = some .startup ∧
      s.caroriRuns d0 = true ∧ (s.region d0 0).fresh = [20, 15, 20] ∧ 8 ≤ slackInt 15 ∧ slackInt 15 < 16 ∧
      (s.region d0 0).code < 63 ∧ (s.region d0 0).down = false) ∧
    (∀ x ∈ [(0, 0), (67, 1)], (stewardAt 20000).hasMonitor d0 x.1 x.2 = true ∧
      2 * (stewardAt 20000).emberInterval d0 x.1 ≤ (stewardAt 20000).since d0 (((stewardAt 20000).region d0 x.1).readAt.get 0 x.2) ∧
      ((stewardAt 20000).region d0 x.1).plan = none ∧ ((stewardAt 20000).region d0 x.1).monFail = false) ∧
    (let s := stewardAt 60000000000
     s.caroriRuns d0 = true ∧ (s.die d0).computeReset = false ∧ (s.die d0).awaitPlan = false ∧
      60000000000 ≤ s.since d0 (s.steward d0).periodicAt ∧
      (∀ r ∈ s.regionsOn d0, (s.region d0 r).fresh = [] ∧ (s.region d0 r).plan = none ∧ (s.region d0 r).asked = none ∧
        (s.region d0 r).monFail = false) ∧ s.regionsOn d0 ≠ []) ∧
    (∀ n ∈ [0x3C, 0x65],
      let s := stewardAt 100 fun k => { k with vtarget := n }
      (s.steward d0).vreq ≠ (s.steward d0).vtarget ∧ 100 ≤ s.since d0 (s.steward d0).vreqAt) ∧
    (let s := stewardAt 360000000000
     s.caroriRuns d0 = true ∧ 360000000000 ≤ s.since d0 (s.steward d0).hourAt) := by
  decide +kernel

/-- A request block (Table 21-3), and die 0's steward with it in a mailbox. -/
def reqBlock (op index sub group off value : Nat) : List Byte :=
  bytesLE 1 op ++ bytesLE 1 sub ++ bytesLE 2 index ++ bytesLE 2 0x1234 ++ bytesLE 1 group ++ [0] ++ bytesLE 8 off ++ bytesLE 16 value
def boxAt (box : Nat) (r : List Byte) (f : Steward → Steward := id) : State :=
  stewardAt 1000 fun k => f { k with supDone := true, mailboxes := ⟨[(box, { req := r, busy := true })]⟩ }

/-- The safety manager's requests for the rows that have an object of their own. -/
def safetyRow : List (Nat × DKind × Nat) :=
  [(0x2D05, .timeSet, 5 * 2 ^ 48), (0x2D06, .timeAdj, 0x80000000), (0x2D07, .restep, 0xA5), (0x1012, .recover, 0x5A),
   (0x2F02, .jrnClear, 0xC3)]

theorem test_wit_DictionaryReads : ∀ x ∈ [(0x2D08, 0), (0x2A20, 0), (0x2F00, 0)],
    Serves (boxAt 0 (reqBlock 1 x.1 x.2 0 0 0)) .driver 0 .read (reqBlock 1 x.1 x.2 0 0 0) ∧
      (objOf (boxAt 0 []) (reqBlock 1 x.1 x.2 0 0 0)).isSome = true := by
  simp only [serves_iff]
  decide +kernel

theorem test_wit_DictionaryWrites :
    Serves (boxAt 0 (reqBlock 2 0x2A50 0 0 0 0x3C)) .driver 0 .write (reqBlock 2 0x2A50 0 0 0 0x3C) ∧
    ((objOf (boxAt 0 []) (reqBlock 2 0x2A50 0 0 0 0x3C)).map fun a => decide (a.type ≠ 6 ∧ a.group ≠ 0)) = some true ∧
    Serves (boxAt 0 (reqBlock 5 0x2B0F 1 0 0 0)) .driver 0 .describe (reqBlock 5 0x2B0F 1 0 0 0) ∧
    (objOf (boxAt 0 []) (reqBlock 5 0x2B0F 1 0 0 0)).isSome = true := by
  simp only [serves_iff]
  decide +kernel

theorem test_wit_DictionarySessions :
    Serves (boxAt 0 (reqBlock 3 0 0 1 0 0)) .driver 0 .commit (reqBlock 3 0 0 1 0 0) ∧
    ((boxAt 0 []).steward State.die0).sessions.find? (dGroup (reqBlock 3 0 0 1 0 0)) = none ∧
    Serves (boxAt 17 (reqBlock 4 0 0 1 0 0)) (.partition 15) 17 .abort (reqBlock 4 0 0 1 0 0) := by
  simp only [serves_iff]
  decide +kernel

/-- The driver's session of a group, with one staged value. -/
def session (g key v : Nat) (k : Steward) : Steward :=
  { k with sessions := ⟨[(g, { path := .driver, at' := 900, staged := ⟨[(key, BitVec.ofNat 128 v)]⟩ })]⟩ }

theorem test_wit_CommitTakesEffectAsASet :
    (∀ x ∈ [(0x10, 0x2B0001, partCfg0 + 0x100, true, true), (1, 0x2A5000, 0x3C, true, false), (1, 0x2A5100, 0xA0, false, false)],
      let r := reqBlock 3 0 0 x.1 0 0
      let s := boxAt 0 r (session x.1 x.2.1 x.2.2.1)
      Serves s .driver 0 .commit r ∧
        ((s.steward State.die0).sessions.find? (dGroup r)).map (fun y =>
          (s.commitOk State.die0 (dGroup r) y DRole.driver, decide (keptObjs s (dGroup r) y = []))) =
            some (x.2.2.2.1, x.2.2.2.2)) ∧
    (boxAt 0 []).hasDie d0 = true ∧ ((boxAt 0 []).steward State.die0).journal.readOnly = false ∧
    ((boxAt 0 []).steward State.die0).journal.unusable = false ∧
    100000000 ≤ ((boxAt 0 []).steward State.die0).journal.budget ((boxAt 0 []).die State.die0).ticks := by
  simp only [serves_iff]
  decide +kernel

theorem test_wit_CommitRecordIsWritten :
    let r := reqBlock 3 0 0 1 0 0
    let rec' : JrnRec := { kind := 1, payload := [9, 9], after := .commit .driver [(0x2A5000, 0x3C)] 1 false }
    let s := boxAt 0 r fun k => session 1 0x2A5000 0x3C { k with
      serving := some .driver, journal := { k.journal with gen := 1, next := 5, append := 0x1FFFFF - 0xFF, queue := [rec'] } }
    State.nextRec (s.steward d0).journal = some rec' ∧ s.waitingReq d0 .driver = some r ∧ (s.steward d0).mode = .carori ∧
      (s.steward d0).journal.replayed = true ∧ (s.steward d0).journal.gen ≠ 0 ∧ (s.steward d0).journal.readOnly = false ∧
      (s.steward d0).journal.unusable = false ∧
      (let bs := recBytes (s.steward d0).journal.gen (s.steward d0).journal.next rec'.kind rec'.payload
       (s.steward d0).journal.recordAt bs.length + bs.length ≤ 0x200000) := by
  decide +kernel

theorem test_wit_DictionarySafety : ∀ x ∈ safetyRow,
    Serves (boxAt 1 (reqBlock 2 x.1 0 0 0 x.2.2) fun k => { k with dict := ⟨[(0x2D0100, 0)]⟩ }) .safety 1 x.2.1
      (reqBlock 2 x.1 0 0 0 x.2.2) ∧
    ((objOf (boxAt 1 []) (reqBlock 2 x.1 0 0 0 x.2.2)).map fun a => decide (a.type ≠ 6 ∧ a.group = 0 ∧ a.persistent = false)) =
      some true ∧ ((boxAt 1 []).die State.die0).stage = .ready := by
  simp only [serves_iff]
  decide +kernel

theorem test_wit_DictionaryImage : ∀ x ∈ [(0x10, DKind.imgErase, 0), (0x11, .imgWrite, 1048816), (0x12, .boot, 0)],
    Serves (boxAt 0 (reqBlock x.1 0 0 0 x.2.2 0) fun k => { k with mode := .rom }) .driver 0 x.2.1
      (reqBlock x.1 0 0 0 x.2.2 0) := by
  simp only [serves_iff]
  decide +kernel

theorem test_wit_DictionaryRefusals :
    (let r := reqBlock 2 0x2A50 0 0 0 0x3B
     let s := boxAt 0 r
     s.waitingReq State.die0 .driver = some r ∧ s.stewardServes State.die0 = true ∧ dKind r = .write ∧
      s.dictTurn State.die0 .driver = true ∧ s.notOffered State.die0 .driver r = false ∧
      100000000 ≤ s.bucketNow State.die0 .driver ∧ s.dictCheck State.die0 .driver r = 1) ∧
    (let r := reqBlock 2 0x2A50 0 0 0 0x3C
     let s := boxAt 0 r fun k => { k with buckets := ⟨[(1, { tokens := 99999999, at' := 1000 })]⟩ }
     s.waitingReq State.die0 .driver = some r ∧ s.stewardServes State.die0 = true ∧ s.dictTurn State.die0 .driver = true ∧
      s.notOffered State.die0 .driver r = false ∧ s.bucketNow State.die0 .driver < 100000000) := by
  decide +kernel

/-- A DAP request of key 0 with SEQ 9 and an empty request block, under a key of value 5, as it comes to die 0; the AES-CMAC value
and the FCS are those that OpenSSL and zlib compute. -/
def dapHead : List Byte := [2, 0, 0, 0, 0, 5, 7, 7, 7, 7, 7, 7, 0x88, 0xB5]
def dapBody : List Byte := [1, 1, 0, 0, 9, 0, 0, 0, 0, 0, 0, 0, 0, 0, 0, 0] ++ List.replicate 32 0
def dapPay : List Byte := dapBody ++
  [0x4D, 0x66, 0x9A, 0xD6, 0x5F, 0x75, 0x6D, 0x57, 0xCA, 0x2A, 0x41, 0xF3, 0xD4, 0x52, 0x66, 0x33]
def dapReq : List Byte := dapHead ++ dapPay ++ [0x50, 0x75, 0x1F, 0x72]
def dapState : State := stewardAt 1000 fun k => { k with
  dict := ⟨[(0x1E0000, 5), (0x2D0200, 0x020000000005)]⟩, dap := ⟨[(0, { rxRes := 2057 })]⟩ }

theorem test_wit_DapFrames :
    dapState.hasDie d0 = true ∧ (dapState.die d0).stage ≠ .held ∧ dapState.caroriRuns d0 = true ∧
    dapState.objVal d0 0x1E00 0 ≠ 0 ∧ (9 : Nat) + 2048 ≤ (((dapState.steward d0).dap.get {} 0).rxRes).toNat ∧
    ((dapState.steward d0).dap.get {} 0).rxHigh.toNat < 9 ∧ ((dapState.steward d0).dap.get {} 0).queue.length +
      ((dapState.steward d0).dap.get {} 0).held.length < 32 ∧ dapState.reserving d0 0 = false ∧
    (stewardAt 1000).objVal d0 (0x1E00 + 1 % 2) 0 = 0 ∧ (stewardAt 1000).caroriRuns d0 = true := by
  decide +kernel

theorem test_wit_DapFrameBytes :
    (etherType dapReq).1 = 0x88B5 ∧ (dapReq.drop (etherType dapReq).2.2).take 64 = dapPay ∧
    dapReq.length = 82 ∧ (etherType dapReq).2.2 = 14 ∧ fieldAt dapPay 0 1 = 1 ∧ fieldAt dapPay 1 1 = 1 ∧ fieldAt dapPay 2 1 = 0 ∧
    fieldAt dapPay 3 1 = 0 ∧ fieldAt dapPay 12 4 = 0 ∧ fieldAt dapPay 4 8 = 9 := by
  decide +kernel

/-- R409, R431: the frame's MAC is AES-CMAC of its header and request block, and its FCS is right. -/
theorem test_wit_DapFrameMac : dapPay.drop 0x30 =
    dapMac (BitVec.ofNat 128 (dapState.objVal d0 0x1E00 0)) (dapReq.take 6) ((dapReq.drop 6).take 6) dapPay := by
  decide +kernel

theorem test_wit_DapFrameAccepted : dapState.macAccepts d0 dapReq = true := by
  decide +kernel

/-- A journal with one sealed bank of a generation and no record, replayed where asked. -/
def bankAt (replayed : Bool) (f : Journal → Journal := id) : Journal :=
  f { ({ } : Journal).program 0x200000 (Journal.header 7 |>.set 8 0 |>.set 9 0 |>.set 10 0 |>.set 11 0) with
    replayed := replayed, bank := 0, gen := if replayed then 7 else 0, append := 0x1000 }

theorem test_wit_StewardAndJournal :
    (let s := (oneDie fun k => { k with stage := .boot }).setSteward d0 {}
     s.hasDie d0 = true ∧ (s.steward d0).mode = .checking ∧ (s.die d0).stage = .boot ∧ (s.steward d0).journal.jobs = [] ∧
      (s.steward d0).forceRom = false ∧ imageVfail d0 (s.steward d0).journal ≠ 0) ∧
    (let s := stewardAt 200000
     (s.steward d0).mode = .carori ∧ (s.die d0).stage = .ready ∧ 200000 ≤ s.since d0 (s.steward d0).supAt) ∧
    (let x : Session := { path := .driver, at' := 0 }
     let s := stewardAt 100000000 fun k => { k with sessions := ⟨[(255, x)]⟩ }
     (s.steward d0).sessions.find? (255 : Byte).toNat = some x ∧ 100000000 ≤ s.since d0 x.at') ∧
    (let r : JrnRec := { kind := 4, payload := [1] }
     let s := stewardAt 0 fun k => { k with journal := bankAt true fun j => { j with queue := [r] } }
     State.nextRec (s.steward d0).journal = some r ∧ r.after = .none ∧ r.tries < 2 ∧ (s.steward d0).mode = .carori ∧
      (s.steward d0).journal.unusable = false ∧
      (s.steward d0).journal.replayed = true ∧ (s.steward d0).journal.gen ≠ 0 ∧ (s.steward d0).journal.readOnly = false ∧
      (s.steward d0).journal.recordAt (recBytes 7 1 4 [1]).length + (recBytes 7 1 4 [1]).length ≤ 0x200000) ∧
    (let s := ((oneDie fun k => { k with stage := .replay }).setSteward d0 { mode := .carori, journal := bankAt false })
     (s.steward d0).mode = .carori ∧ (s.steward d0).journal.replayed = false ∧
      (s.steward d0).journal.active = some (0, 7) ∧ (s.steward d0).journal.unusable = false ∧ (s.die d0).stage = .replay) ∧
    (let s := ((oneDie fun k => { k with stage := .replay }).setSteward d0 { mode := .carori })
     (s.steward d0).journal.replayed = false ∧ (s.steward d0).journal.active = none ∧
      (s.steward d0).journal.unusable = false ∧ (s.die d0).stage = .replay) ∧
    (let s := stewardAt 0 fun k => { k with journal := bankAt true fun j => { j with erased := true } }
     (s.steward d0).journal.erased = true ∧ (s.steward d0).journal.replayed = true ∧ (s.steward d0).journal.gen ≠ 0 ∧
      (s.steward d0).journal.readOnly = false) ∧
    (∀ l ∈ [[0, 1, 2], [1023]],
      let s := stewardAt 0 fun k => { k with journal := { jobs := [(.compact, l)] } }
      (s.steward d0).journal.jobs = (.compact, l) :: [] ∧ (s.steward d0).journal.readOnly = false) ∧
    (let s := stewardAt 0 fun k => { k with journal := { jobs := [(.compact, [0, 1])], readOnly := true } }
     (s.steward d0).journal.jobs = (.compact, [0, 1]) :: [] ∧ (s.steward d0).journal.readOnly = true) := by
  decide +kernel

/-- A gPTP frame of a type with its first flag byte, sequence number and body, written out byte by byte, and its message. -/
def gptp (type flag seq : Nat) (body : List Byte) : List Byte :=
  etherFrame ([0x01, 0x80, 0xC2, 0, 0, 0x0E, 2, 0, 0, 0, 0, 9, 0x88, 0xF7] ++
    [BitVec.ofNat 8 (0x10 + type), 0x12, 0, 44, 0, 0, BitVec.ofNat 8 flag, 8] ++ List.replicate 12 0 ++
    [2, 0, 0, 0xFF, 0xFE, 0, 0, 9, 0, 1, 0, BitVec.ofNat 8 seq, 0, 0] ++ body)
def gptpMsg (type : Nat) (two : Bool) (seq secs : Nat) (asked : List Byte) : PtpMsg :=
  { type := type, twoStep := two, corr := 0, seqId := seq, time := secs * second16,
    source := [2, 0, 0, 0xFF, 0xFE, 0, 0, 9, 0, 1], asked := asked }

/-- A timestamp of one second, and the port identity of die 0 in the tests. -/
def oneSec : List Byte := [0, 0, 0, 0, 0, 1, 0, 0, 0, 0]
def myPort : List Byte := [2, 0, 0, 0xFF, 0xFE, 0, 0, 5, 0, 1]

/-- Die 0 takes part in network time: NT_CFG's value, its MAC address 02-00-00-00-00-05, and its network time. -/
def netAt (cfg : Nat) (ticks : Nat := 1000) (f : NetTime → NetTime := id) : State :=
  let s := stewardAt ticks fun k => { k with dict := ⟨[(0x2D0100, BitVec.ofNat 128 cfg), (0x2D0200, 0x020000000005)]⟩ }
  s.setNet d0 (f { s.net d0 with secs := 2 })

theorem test_wit_NetworkSync :
    (let f := gptp 0 2 7 (List.replicate 10 0)
     Hears (netAt 1) d0 f (gptpMsg 0 true 7 0 (f.drop 58)) 0 ∧ ntRole ((netAt 1).objVal d0 0x2D01 0) = 1 ∧
      ((netAt 1).net d0).stepEdge ≤ ((netAt 1).net d0).edges ∧ ((netAt 1).net d0).tsQueue = []) ∧
    (∀ b ∈ [false, true],
      let f := gptp 0 0 7 oneSec
      let s := netAt 5 1000 fun n => { n with stepped := b, edges := 3, stepEdge := 3 }
      Hears s d0 f (gptpMsg 0 false 7 1 (f.drop 58)) 0 ∧ ntRole (s.objVal d0 0x2D01 0) = 1 ∧
        ntStatic (s.objVal d0 0x2D01 0) = true ∧ (s.net d0).stepEdge ≤ (s.net d0).edges ∧ (s.net d0).tsQueue = [] ∧
        (s.net d0).stepped = b) ∧
    (∀ e ∈ [4, 5],
      let f := gptp 8 0 7 oneSec
      let w : SyncWait := { seqId := 7, tr := 0, corr := 0, at' := e }
      let s := netAt 1 1000 fun n => { n with waiting := some w, edges := 6, stepEdge := 5 }
      Hears s d0 f (gptpMsg 8 false 7 1 (f.drop 58)) 8 ∧ ntRole (s.objVal d0 0x2D01 0) = 1 ∧ (s.net d0).waiting = some w ∧
        w.seqId = (gptpMsg 8 false 7 1 (f.drop 58)).seqId ∧ decide (w.at' < (s.net d0).stepEdge) = (e == 4)) := by
  simp only [hears_iff]
  refine ⟨?_, ?_, ?_⟩ <;> decide +kernel

theorem test_wit_NetworkDelay :
    (Hears (netAt 2) d0 (gptp 2 0 7 (List.replicate 20 0)) (gptpMsg 2 false 7 0 (List.replicate 10 0)) 2 ∧
      ((netAt 2).net d0).tsQueue = []) ∧
    (let s := netAt 1 1000 fun n => { n with pdelayT1 := some 5 }
     let m := gptpMsg 3 true 0 1 myPort
     Hears s d0 (gptp 3 2 0 (oneSec ++ myPort)) m 3 ∧ s.pdelayMine d0 m = true ∧ (s.net d0).tsQueue = []) ∧
    (let s := netAt 1 1000 fun n => { n with pdelayT1 := some 5, pdelayT2 := some 6, pdelayT4 := some 9 }
     let m := gptpMsg 10 false 0 1 myPort
     Hears s d0 (gptp 10 0 0 (oneSec ++ myPort)) m 10 ∧ s.pdelayMine d0 m = true ∧ (s.net d0).pdelayT1 = some 5 ∧
      (s.net d0).pdelayT2 = some 6 ∧ (s.net d0).pdelayT4 = some 9) := by
  simp only [hears_iff]
  decide +kernel

theorem test_wit_NetworkClock :
    (let s := netAt 0x00FD0002 12500000
     s.hasDie d0 = true ∧ s.caroriRuns d0 = true ∧ ntRole (s.objVal d0 0x2D01 0) = 2 ∧ (s.die d0).macMode < 2 ∧
      ntSyncCounts (s.objVal d0 0x2D01 0) ≤ s.since d0 (s.net d0).sentSyncAt) ∧
    (let s := netAt 0x00FD0001 100000000
     s.caroriRuns d0 = true ∧ ntRole (s.objVal d0 0x2D01 0) = 1 ∧ ntStatic (s.objVal d0 0x2D01 0) = false ∧
      ntPdelayCounts (s.objVal d0 0x2D01 0) ≤ s.since d0 (s.net d0).sentPdelayAt ∧ (s.net d0).syncDown = false ∧
      3 * ntSyncCounts (s.objVal d0 0x2D01 0) ≤ s.since d0 (s.net d0).syncAt) ∧
    (let s := netAt 1 10000000 fun n => { n with secDue := some (5, 3), stepped := true, pps := true }
     (s.net d0).secDue = some (5, 3) ∧ (s.net d0).stepped = true ∧ (s.net d0).ppsLast < 3 ∧ (s.net d0).pps = true ∧
      10000000 ≤ s.since d0 (s.net d0).ppsAt) ∧
    (netAt 1).macAccepts d0 [] = false ∧ (netAt 1).macAccepts d0 ((gptp 0 2 7 oneSec).set 63 0) = false ∧
    ((netAt 1).die d0).stage ≠ .held := by
  decide +kernel

/-- A die with a monitor 31 of a configuration. -/
def watching (cfg : W64) (events : Nat) (ticks : Nat) (last : Option Nat := none) : State :=
  (stewardAt ticks).setMonitor d0 31 { cfg := cfg, events := events, lastAt := last }

theorem test_wit_MonitorGives : ∀ x ∈ [((0x03000000 : W64), 0, some 5), (0x03000100, 1, some 8), (0x06000000, 2, none),
    (0x07000000, 2, some 1008), (0x07100300, 7, some 1008)],
    (watching x.1 x.2.1 2008 x.2.2).hasDie d0 = true ∧ ((watching x.1 x.2.1 2008 x.2.2).die d0).stage ≠ .held ∧
      Gives (watching x.1 x.2.1 2008 x.2.2) d0 ((watching x.1 x.2.1 2008 x.2.2).monitor d0 31) := by
  have h : ∀ (s : State) (m : Monitor), Gives s d0 m ↔
      (m.src = 3 ∧ (m.div ≠ 0 ∨ m.lastAt.all (fun t => decide (t + 1 < (s.die d0).ticks)) = true)) ∨
      ((m.src = 6 ∨ (m.src = 7 ∧ (m.sel = 16 ∨ m.sel < s.build.clusters))) ∧
        m.lastAt.all (fun t => decide (1000 ≤ s.since d0 t)) = true) := by
    intro s m
    unfold Gives
    cases m.lastAt <;> simp
  simp only [h]
  decide +kernel

theorem test_wit_MonitorsAndPins :
    ((watching 0x03000000 0 2008 (some 5)).monitor d0 31).events % 2 ^ ((watching 0x03000000 0 2008).monitor d0 31).div = 0 ∧
    ((watching 0x03000100 1 2008 (some 8)).monitor d0 31).events % 2 ^ ((watching 0x03000100 1 2008).monitor d0 31).div ≠ 0 ∧
    (let s := (watching 0x04030000 3 2008).setLink ⟨d0, 3⟩ { st := .active, hmAt := 1008, hmReplays := 9 }
     (s.monitor d0 31).src = 4 ∧ (⟨d0, 3⟩ : LinkId) = ⟨d0, Fin.ofNat 4 (s.monitor d0 31).sel⟩ ∧
      (s.link ⟨d0, 3⟩).st ≠ .unused ∧ 1000 ≤ s.since d0 (s.link ⟨d0, 3⟩).hmAt ∧
      (s.monitor d0 31).events % 2 ^ (s.monitor d0 31).div = 0) ∧
    ((watching 0x08000000 0 2008).monitor d0 31).src ∉ [3, 4, 6, 7] ∧
    roleOf 0x10 = some .driver ∧ (stewardAt 9).crownOpen = true ∧
    ({ stewardAt 9 with im := ⟨[(0, [(3, 4), (5, 6)])]⟩ } : State).im.get [] d0.val = (3, 4) :: [(5, 6)] ∧
    (let s := stewardAt 9
     bitAt (0x10 : W32).toNat 31 = false ∧ field (0x10 : W32).toNat 27 3 * 8 < 0x1000000 ∧ (s.die d0).stage ≠ .held ∧
      (s.dieRead d0 (field (0x10 : W32).toNat 27 3 * 8)).isSome = true) ∧
    State.reset.hasDie d0 = true ∧ (State.reset.die d0).stage = .held := by
  decide +kernel

theorem test_wit_RegistersOfTheCrownPort :
    (let s := stewardAt 9
     roleOf 0x10 = some .driver ∧ s.crownOpen = true ∧ (∀ e ∈ s.ctxs.entries, e.2.st = .free) ∧
      (0x000FFFFFFFFFF000 : W64) &&& 0xFFF0000000000FFF = 0) ∧
    (let c : Ctx := { st := .ready }
     let s : State := { stewardAt 9 with ctxs := ⟨[(16383, c)]⟩ }
     s.crownOpen = true ∧ (16383, c) ∈ s.ctxs.entries ∧ c.st ≠ .free) ∧
    ((stewardAt 9).ring (15 : Fin 16).val (255 : Byte).toNat).enable = false ∧ (0x1000 : W64).toNat % 4096 = 0 ∧
    (({ stewardAt 9 with rings := ⟨[(0, { enable := true })]⟩ } : State).ring 0 0).enable = true ∧
    (∀ n ∈ [0x46, 0xD0], 6 ≤ field (BitVec.ofNat 64 n).toNat 4 0 ∧ field (BitVec.ofNat 64 n).toNat 4 0 ≤ 16 ∧
      bitAt (BitVec.ofNat 64 n).toNat 6 = true) ∧
    (let s : State := { stewardAt 9 with rings := ⟨[(0, { enable := true, wr := 9, rd := 5 })]⟩ }
     roleOf 0x00 = some (.partition 0) ∧ s.crownOpen = true ∧ (s.ring (0 : Fin 16).val (0 : Byte).toNat).rd ≤ 5 ∧
      (5 : W64) ≤ (s.ring 0 0).wr ∧ (s.ring 0 0).rd ≤ 9 ∧ (9 : W64) ≤ (s.ring 0 0).wr ∧ (s.ring 0 0).wr < 10) ∧
    (let s := stewardAt 9 id fun k => { k with ovf := [{ type := 1, ctx := 0, queue := 0 }] }
     s.hasDie d0 = true ∧ s.crownOpen = true ∧ (s.die d0).ovf ≠ [] ∧ (s.die d0).computeReset = false) ∧
    (∀ b ∈ [false, true], (stewardAt 9 id fun k => { k with computeReset := b }).crownOpen = true ∧
      ((stewardAt 9 id fun k => { k with computeReset := b }).die d0).computeReset = b) ∧
    ((stewardAt 9).die State.die0).stage ≠ .held ∧
    ((stewardAt 9).steward State.die0 |>.mailboxes.get {} 0).busy = false ∧ roleOf 0x11 ≠ some .driver ∧
    State.reset.hasDie d1 = true ∧ d1 ≠ State.die0 := by
  decide +kernel

/-! Results worked out by hand from the spec's rules, each on one command or one operation. -/

/-- The first core's registers s1 and s2, and what an operation on them leaves in s3. -/
def twoRegs (a b : W64) (k : Core) : Core := { k with seq := { s := ⟨[(1, a), (2, b)]⟩ }, twin := { s := ⟨[(1, a), (2, b)]⟩ } }
def leaves (mk : CoreId → W32 → Instr) (op : Nat) (a b v : W64) : Bool :=
  nextIs (exec (mk c0 (scalarW op 0xC220)) (runs (scalarW op 0xC220) (twoRegs a b))) fun t => (t.core c0).seq.read 3 == v

/-- R100: addition wraps, comparisons of MIN are signed and those of MINU are not. -/
theorem test_add_wraps : leaves .add 0x00 0xFFFFFFFFFFFFFFFF 2 1 = true := by decide +kernel
theorem test_sub_wraps : leaves .sub 0x01 0 1 0xFFFFFFFFFFFFFFFF = true := by decide +kernel
theorem test_sra_keeps_sign : leaves .sra 0x07 0x8000000000000000 63 0xFFFFFFFFFFFFFFFF = true := by decide +kernel
theorem test_mulh_signed : leaves .mulh 0x09 0xFFFFFFFFFFFFFFFF 2 0xFFFFFFFFFFFFFFFF = true := by decide +kernel
theorem test_mulhu_unsigned : leaves .mulhu 0x0A 0xFFFFFFFFFFFFFFFF 2 1 = true := by decide +kernel
theorem test_min_signed : leaves .min 0x0B 0xFFFFFFFFFFFFFFFF 2 0xFFFFFFFFFFFFFFFF = true := by decide +kernel
theorem test_minu_unsigned : leaves .minu 0x0D 0xFFFFFFFFFFFFFFFF 2 2 = true := by decide +kernel
theorem test_remu : leaves .remu 0x10 17 5 2 = true := by decide +kernel

/-- R94: a write of s0 is discarded, and the pc still advances. -/
theorem test_s0_discards : nextIs (exec (.addi c0 (scalarW 0x11 0x5)) (runs (scalarW 0x11 0x5)))
    (fun t => (t.core c0).seq.read 0 == 0 && (t.core c0).seq.pc == 1) = true := by decide +kernel

/-- R114, Table 05-6: TRAP 5 stops the core and fails the launch with F-0507 and its operand as INFO. -/
theorem test_trap_record : nextIs (exec (.trap c0 (scalarW 0x36 5)) (runsFor (scalarW 0x36 5)))
    (fun t => decide ((t.core c0).run = .stopped) && decide ((t.launches.find? 3).map (·.fault) = some (some
      { code := 0x0507, pc := 0, insn := (scalarW 0x36 5).toNat, info := 5, prog := true }))) = true := by decide +kernel

/-- Table 03-1 and R58: the largest E4M3 and E5M2 values, a tie of BF16 to even, and 65520 beyond the range of FP16. -/
theorem test_e4m3_max : toF32 (e4m3.decode 0x7E) = 0x43E00000 := by decide +kernel
theorem test_e5m2_max : toF32 (e5m2.decode 0x7B) = 0x47600000 := by decide +kernel
theorem test_bf16_tie : toB16 (fp32.decode 0x3F808000) = 0x3F800000 ∧ toB16 (fp32.decode 0x3F818000) = 0x3F820000 := by
  decide +kernel
theorem test_fp16_overflow : fp16.rne (.fin false 65520 0) = 0x7C00 := by decide +kernel

/-- R194, R196, R200: a vector sum, an integer shift by a count modulo 32, and conversions that saturate. -/
theorem test_vopf_add : vopFloat toF32 0x00 0x3F800000 0x40000000 0 = 0x40400000 := by decide +kernel
theorem test_vopi_sra : vopInt 0x0A 0x80000000 33 0 = 0xC0000000 := by decide +kernel
theorem test_f2i_saturates : f2i 0x4F000000 = 0x7FFFFFFF ∧ f2i 0x7FC00000 = 0 := by decide +kernel
theorem test_i2f_negative : i2f 0xFFFFFFFF = 0xBF800000 := by decide +kernel

/-- R198: exact points of the special functions. -/
theorem test_sfu_exact : sfu 0x00 0x40400000 = 0x41000000 ∧ sfu 0x04 0x40800000 = 0x3E800000 ∧ sfu 0x05 0x40800000 = 0x3F000000 ∧
    sfu 0x08 0 = 0x3F000000 := by decide +kernel

/-- R326: CRC-32C of the nine digits; the FCS of the same bytes (IEEE 802.3). -/
theorem test_crc32c : crc32c [0x31, 0x32, 0x33, 0x34, 0x35, 0x36, 0x37, 0x38, 0x39] = 0xE3069283 := by decide +kernel
theorem test_fcs : fcs [0x31, 0x32, 0x33, 0x34, 0x35, 0x36, 0x37, 0x38, 0x39] = bytesLE 4 0xCBF43926 := by decide +kernel

/-- R456: the port of an address is bits 10:8 exclusive-or bits 13:11. -/
theorem test_port_of_address : portOf 0x700 = 7 ∧ portOf 0x800 = 1 ∧ portOf 0x3F00 = 0 := by decide +kernel

/-- R37, R433: an edge advances the counter by one and the device time by 10 ns. -/
theorem test_edge : nextIs (exec (.timebaseRisingEdge d0) (stewardAt 9 id fun k => { k with count := 41 }))
    (fun t => (t.die d0).count == 42 && (t.die d0).ticks == 10 && (t.net d0).nsFrac == 10 * 2 ^ 32) = true := by decide +kernel

/-- R460: a role that the port does not list reads nothing. -/
theorem test_role_reserved : roleOf 0x12 = none ∧ nextIs (exec (.registerRead d0 0x12 0x40) (stewardAt 9))
    (fun t => decide (t.crown = ⟨true, 0⟩)) = true := by decide +kernel

/-- The checks of WellFormed refuse an ill-formed command each. -/
def small : Build := { dies := 2, clusters := 3, cores := 2, arrays := 1 }
theorem test_wf_die : (Instr.linksEnd 2).wf small = false ∧ (Instr.linksEnd 1).wf small = true := by decide +kernel
theorem test_wf_cluster : (Instr.loadGrant ⟨1, 3⟩).wf small = false ∧ (Instr.loadGrant ⟨1, 2⟩).wf small = true := by decide +kernel
theorem test_wf_core : (Instr.add ⟨0, 0, 2⟩ 0).wf small = false ∧ (Instr.add ⟨0, 0, 1⟩ 0).wf small = true := by decide +kernel
theorem test_wf_array : (Instr.arrayIssue ⟨c0, 1⟩).wf small = false ∧ (Instr.arrayIssue ⟨c0, 0⟩).wf small = true := by
  decide +kernel
theorem test_wf_store : (Instr.storeClear (.map ⟨2, 0⟩)).wf small = false ∧
    (Instr.storeClear (.core ⟨0, 0, 3⟩)).wf small = false ∧ (Instr.storeClear (.map ⟨1, 2⟩)).wf small = true := by decide +kernel
theorem test_wf_unit : (Instr.codeViolation (.vector ⟨0, 3, 0⟩)).wf small = false ∧
    (Instr.codeViolation (.die 2)).wf small = false ∧ (Instr.codeViolation (.gen ⟨0, 2⟩ 3)).wf small = true := by decide +kernel
theorem test_wf_role : (Instr.ctxCreate 32 0xFF 1).wf small = false ∧ (Instr.ctxCreate 31 0xFF 1).wf small = true := by
  decide +kernel
theorem test_wf_offset : (Instr.registerRead 0 0 0x1004).wf small = false ∧ (Instr.registerRead 0 0 0x1008).wf small = true := by
  decide +kernel
theorem test_wf_flit : (Instr.flit l0 [0]).wf small = false ∧ (Instr.flit l0 []).wf small = true ∧
    (Instr.flit l0 (List.replicate 92 0)).wf small = true := by decide +kernel
theorem test_wf_lanes : (Instr.identComplete l0 []).wf small = false ∧
    (Instr.identComplete l0 (List.replicate 48 ⟨0, true⟩)).wf small = true := by decide +kernel
theorem test_wf_region : (Instr.monitorFailure 0 68 0).wf small = false ∧ (Instr.monitorFailure 0 63 1).wf small = false ∧
    (Instr.monitorFailure 0 67 1).wf small = true := by decide +kernel
theorem test_wf_word : (Instr.scrub (.core c0) 65536).wf small = false ∧ (Instr.scrub (.map k0) 393216).wf small = false ∧
    (Instr.scrub (.map k0) 393215).wf small = true := by decide +kernel
theorem test_wf_fails : (Instr.selftestVerdict 0 [.array a0, .core ⟨1, 0, 2⟩] 0).wf small = false ∧
    (Instr.selftestVerdict 0 [.array a0] 0).wf small = true := by decide +kernel
theorem test_build_legal : ({ arrays := 3 } : Build).legal = false ∧ ({ dies := 9 } : Build).legal = false ∧
    small.legal = true := by decide +kernel

/-- No word spells a command. -/
theorem test_no_word : decodeTableWord 32 0 = none := rfl

end Sys2Proof.Tests
end

section
/-!
PROOFS. The scope of the block (00_scope.md): what every command and every step keeps, and that a command stops only
at a unit that the build does not have.
-/
namespace Sys2Proof.Machine

/-! ### What commands and steps keep -/

/-- Every command keeps what every operation keeps, by the law of its own definition. -/
theorem exec_keeps (i : Instr) (s : State) : KeepsOut s (exec i s) := by
  cases i with
  | add => exact execAdd_keeps (.refl s)
  | sub => exact execSub_keeps (.refl s)
  | and => exact execAnd_keeps (.refl s)
  | or => exact execOr_keeps (.refl s)
  | xor => exact execXor_keeps (.refl s)
  | shl => exact execShl_keeps (.refl s)
  | shr => exact execShr_keeps (.refl s)
  | sra => exact execSra_keeps (.refl s)
  | mul => exact execMul_keeps (.refl s)
  | mulh => exact execMulh_keeps (.refl s)
  | mulhu => exact execMulhu_keeps (.refl s)
  | min => exact execMin_keeps (.refl s)
  | max => exact execMax_keeps (.refl s)
  | minu => exact execMinu_keeps (.refl s)
  | maxu => exact execMaxu_keeps (.refl s)
  | divu => exact execDivu_keeps (.refl s)
  | remu => exact execRemu_keeps (.refl s)
  | addi => exact execAddi_keeps (.refl s)
  | andi => exact execAndi_keeps (.refl s)
  | ori => exact execOri_keeps (.refl s)
  | xori => exact execXori_keeps (.refl s)
  | shli => exact execShli_keeps (.refl s)
  | shri => exact execShri_keeps (.refl s)
  | srai => exact execSrai_keeps (.refl s)
  | muli => exact execMuli_keeps (.refl s)
  | li => exact execLi_keeps (.refl s)
  | lis => exact execLis_keeps (.refl s)
  | cmp => exact execCmp_keeps (.refl s)
  | cmpi => exact execCmpi_keeps (.refl s)
  | plog => exact execPlog_keeps (.refl s)
  | prd => exact execPrd_keeps (.refl s)
  | pwr => exact execPwr_keeps (.refl s)
  | time => exact execTime_keeps (.refl s)
  | ldb => exact execLdb_keeps (.refl s)
  | ldbu => exact execLdbu_keeps (.refl s)
  | ldh => exact execLdh_keeps (.refl s)
  | ldhu => exact execLdhu_keeps (.refl s)
  | ldw => exact execLdw_keeps (.refl s)
  | ldwu => exact execLdwu_keeps (.refl s)
  | ldd => exact execLdd_keeps (.refl s)
  | stb => exact execStb_keeps (.refl s)
  | sth => exact execSth_keeps (.refl s)
  | stw => exact execStw_keeps (.refl s)
  | std => exact execStd_keeps (.refl s)
  | ldcd => exact execLdcd_keeps (.refl s)
  | stcd => exact execStcd_keeps (.refl s)
  | fence => exact execFence_keeps (.refl s)
  | br => exact execBr_keeps (.refl s)
  | call => exact execCall_keeps (.refl s)
  | callr => exact execCallr_keeps (.refl s)
  | ret => exact execRet_keeps (.refl s)
  | crd => exact execCrd_keeps (.refl s)
  | cwr => exact execCwr_keeps (.refl s)
  | trap => exact execTrap_keeps (.refl s)
  | yield => exact execYield_keeps (.refl s)
  | endCmd => exact execEndCmd_keeps (.refl s)
  | codeViolation => exact execCodeViolation_keeps (.refl s)
  | launchHeaderCheck => exact execLaunchHeaderCheck_keeps (.refl s)
  | codeBlockFetch => exact execCodeBlockFetch_keeps (.refl s)
  | sequencerLoadReturn => exact execSequencerLoadReturn_keeps (.refl s)
  | arrMm => exact execArrMm_keeps (.refl s)
  | arrMmg => exact execArrMmg_keeps (.refl s)
  | arrWfmt => exact execArrWfmt_keeps (.refl s)
  | arrWcfg => exact execArrWcfg_keeps (.refl s)
  | arrRfmt => exact execArrRfmt_keeps (.refl s)
  | arrRcfg => exact execArrRcfg_keeps (.refl s)
  | arrayIssue => exact execArrayIssue_keeps (.refl s)
  | gatherWindowExpiry => exact execGatherWindowExpiry_keeps (.refl s)
  | arrayComplete => exact execArrayComplete_keeps (.refl s)
  | idleTimerExpiry => exact execIdleTimerExpiry_keeps (.refl s)
  | densityChange => exact execDensityChange_keeps (.refl s)
  | fillerPattern => exact execFillerPattern_keeps (.refl s)
  | strLd => exact execStrLd_keeps (.refl s)
  | strSt => exact execStrSt_keeps (.refl s)
  | strLdm => exact execStrLdm_keeps (.refl s)
  | strStm => exact execStrStm_keeps (.refl s)
  | strXp => exact execStrXp_keeps (.refl s)
  | strMld => exact execStrMld_keeps (.refl s)
  | strMst => exact execStrMst_keeps (.refl s)
  | strCvrd => exact execStrCvrd_keeps (.refl s)
  | strCvwr => exact execStrCvwr_keeps (.refl s)
  | streamIssue => exact execStreamIssue_keeps (.refl s)
  | streamComplete => exact execStreamComplete_keeps (.refl s)
  | vecVld => exact execVecVld_keeps (.refl s)
  | vecVst => exact execVecVst_keeps (.refl s)
  | vecVopf => exact execVecVopf_keeps (.refl s)
  | vecVopb => exact execVecVopb_keeps (.refl s)
  | vecVopi => exact execVecVopi_keeps (.refl s)
  | vecVsfu => exact execVecVsfu_keeps (.refl s)
  | vecVred => exact execVecVred_keeps (.refl s)
  | vecVcvt => exact execVecVcvt_keeps (.refl s)
  | vecVbcst => exact execVecVbcst_keeps (.refl s)
  | vecVmovs => exact execVecVmovs_keeps (.refl s)
  | vecVsort => exact execVecVsort_keeps (.refl s)
  | vecVbox => exact execVecVbox_keeps (.refl s)
  | vecVnms => exact execVecVnms_keeps (.refl s)
  | vectorIssue => exact execVectorIssue_keeps (.refl s)
  | vectorComplete => exact execVectorComplete_keeps (.refl s)
  | syncTdef => exact execSyncTdef_keeps (.refl s)
  | syncTrel => exact execSyncTrel_keeps (.refl s)
  | syncTstat => exact execSyncTstat_keeps (.refl s)
  | syncPhase => exact execSyncPhase_keeps (.refl s)
  | syncWait => exact execSyncWait_keeps (.refl s)
  | syncBar => exact execSyncBar_keeps (.refl s)
  | syncHpost => exact execSyncHpost_keeps (.refl s)
  | syncHwait => exact execSyncHwait_keeps (.refl s)
  | syncSacq => exact execSyncSacq_keeps (.refl s)
  | syncStry => exact execSyncStry_keeps (.refl s)
  | syncSrel => exact execSyncSrel_keeps (.refl s)
  | syncAlloc => exact execSyncAlloc_keeps (.refl s)
  | syncFree => exact execSyncFree_keeps (.refl s)
  | syncWgclm => exact execSyncWgclm_keeps (.refl s)
  | syncWgbind => exact execSyncWgbind_keeps (.refl s)
  | syncWgrel => exact execSyncWgrel_keeps (.refl s)
  | loadGrant => exact execLoadGrant_keeps (.refl s)
  | barrierComplete => exact execBarrierComplete_keeps (.refl s)
  | haloWaitMet => exact execHaloWaitMet_keeps (.refl s)
  | semaphoreGrant => exact execSemaphoreGrant_keeps (.refl s)
  | preemption => exact execPreemption_keeps (.refl s)
  | coreResume => exact execCoreResume_keeps (.refl s)
  | coreImageSave => exact execCoreImageSave_keeps (.refl s)
  | mapStoreImageSave => exact execMapStoreImageSave_keeps (.refl s)
  | imageRestore => exact execImageRestore_keeps (.refl s)
  | storeClear => exact execStoreClear_keeps (.refl s)
  | scrub => exact execScrub_keeps (.refl s)
  | peatReadRequestTransfer => exact execPeatReadRequestTransfer_keeps (.refl s)
  | peatWriteRequestTransfer => exact execPeatWriteRequestTransfer_keeps (.refl s)
  | peatReadData => exact execPeatReadData_keeps (.refl s)
  | peatWriteAcceptance => exact execPeatWriteAcceptance_keeps (.refl s)
  | unansweredRequest => exact execUnansweredRequest_keeps (.refl s)
  | doorbell => exact execDoorbell_keeps (.refl s)
  | doorbellForward => exact execDoorbellForward_keeps (.refl s)
  | commandAcceptance => exact execCommandAcceptance_keeps (.refl s)
  | nop => exact execNop_keeps (.refl s)
  | launch => exact execLaunch_keeps (.refl s)
  | signal => exact execSignal_keeps (.refl s)
  | wait => exact execWait_keeps (.refl s)
  | test => exact execTest_keeps (.refl s)
  | writeCommand => exact execWriteCommand_keeps (.refl s)
  | timeCommand => exact execTimeCommand_keeps (.refl s)
  | callCommand => exact execCallCommand_keeps (.refl s)
  | breakCall => exact execBreakCall_keeps (.refl s)
  | inval => exact execInval_keeps (.refl s)
  | waitReread => exact execWaitReread_keeps (.refl s)
  | launchPlacement => exact execLaunchPlacement_keeps (.refl s)
  | residentSlotTake => exact execResidentSlotTake_keeps (.refl s)
  | sliceExpiry => exact execSliceExpiry_keeps (.refl s)
  | commandTimeout => exact execCommandTimeout_keeps (.refl s)
  | drainExpiry => exact execDrainExpiry_keeps (.refl s)
  | launchComplete => exact execLaunchComplete_keeps (.refl s)
  | lossProcedure => exact execLossProcedure_keeps (.refl s)
  | launchToDie0 => exact execLaunchToDie0_keeps (.refl s)
  | distributionRecord => exact execDistributionRecord_keeps (.refl s)
  | launchCountReached => exact execLaunchCountReached_keeps (.refl s)
  | partEnded => exact execPartEnded_keeps (.refl s)
  | stop => exact execStop_keeps (.refl s)
  | stopAcknowledgement => exact execStopAcknowledgement_keeps (.refl s)
  | semaphoreRequest => exact execSemaphoreRequest_keeps (.refl s)
  | pool1Call => exact execPool1Call_keeps (.refl s)
  | fenceSignal => exact execFenceSignal_keeps (.refl s)
  | ctxCreate => exact execCtxCreate_keeps (.refl s)
  | ctxAbort => exact execCtxAbort_keeps (.refl s)
  | ctxDestroy => exact execCtxDestroy_keeps (.refl s)
  | qCreate => exact execQCreate_keeps (.refl s)
  | qDestroy => exact execQDestroy_keeps (.refl s)
  | moRegister => exact execMoRegister_keeps (.refl s)
  | moDestroy => exact execMoDestroy_keeps (.refl s)
  | moRetireEnd => exact execMoRetireEnd_keeps (.refl s)
  | semCreate => exact execSemCreate_keeps (.refl s)
  | semDestroy => exact execSemDestroy_keeps (.refl s)
  | walkEnd => exact execWalkEnd_keeps (.refl s)
  | deferredFaultPost => exact execDeferredFaultPost_keeps (.refl s)
  | retry => exact execRetry_keeps (.refl s)
  | fail => exact execFail_keeps (.refl s)
  | ack => exact execAck_keeps (.refl s)
  | replay => exact execReplay_keeps (.refl s)
  | hotPeriodExpiry => exact execHotPeriodExpiry_keeps (.refl s)
  | partRootCommit => exact execPartRootCommit_keeps (.refl s)
  | segmentBlockLoad => exact execSegmentBlockLoad_keeps (.refl s)
  | invalidation => exact execInvalidation_keeps (.refl s)
  | invalidationAcknowledgement => exact execInvalidationAcknowledgement_keeps (.refl s)
  | flit => exact execFlit_keeps (.refl s)
  | ackTimeout => exact execAckTimeout_keeps (.refl s)
  | mtPhyReady => exact execMtPhyReady_keeps (.refl s)
  | mtPhyReadyFall => exact execMtPhyReadyFall_keeps (.refl s)
  | identComplete => exact execIdentComplete_keeps (.refl s)
  | reportComplete => exact execReportComplete_keeps (.refl s)
  | alignComplete => exact execAlignComplete_keeps (.refl s)
  | trainingPhaseTimeout => exact execTrainingPhaseTimeout_keeps (.refl s)
  | linkTrainTimeout => exact execLinkTrainTimeout_keeps (.refl s)
  | topologyAnnouncement => exact execTopologyAnnouncement_keeps (.refl s)
  | alignmentExchangeTimer => exact execAlignmentExchangeTimer_keeps (.refl s)
  | alignmentRequest => exact execAlignmentRequest_keeps (.refl s)
  | alignmentAnswer => exact execAlignmentAnswer_keeps (.refl s)
  | counterHoldEnd => exact execCounterHoldEnd_keeps (.refl s)
  | periodicAlignmentCheck => exact execPeriodicAlignmentCheck_keeps (.refl s)
  | alignmentTimeout => exact execAlignmentTimeout_keeps (.refl s)
  | pulseInput => exact execPulseInput_keeps (.refl s)
  | stageReport => exact execStageReport_keeps (.refl s)
  | linksEnd => exact execLinksEnd_keeps (.refl s)
  | readinessReport => exact execReadinessReport_keeps (.refl s)
  | hostDone => exact execHostDone_keeps (.refl s)
  | selftestVerdict => exact execSelftestVerdict_keeps (.refl s)
  | computePartRelease => exact execComputePartRelease_keeps (.refl s)
  | rateWindow => exact execRateWindow_keeps (.refl s)
  | supplyDip => exact execSupplyDip_keeps (.refl s)
  | supplyRecovery => exact execSupplyRecovery_keeps (.refl s)
  | timebaseLost => exact execTimebaseLost_keeps (.refl s)
  | timebaseResume => exact execTimebaseResume_keeps (.refl s)
  | timebaseStable => exact execTimebaseStable_keeps (.refl s)
  | watchdogExpiry => exact execWatchdogExpiry_keeps (.refl s)
  | resetDeadline => exact execResetDeadline_keeps (.refl s)
  | resetCheck => exact execResetCheck_keeps (.refl s)
  | regionReadTimeout => exact execRegionReadTimeout_keeps (.refl s)
  | collectionCutoff => exact execCollectionCutoff_keeps (.refl s)
  | boundarySlotTimeout => exact execBoundarySlotTimeout_keeps (.refl s)
  | dumpFree => exact execDumpFree_keeps (.refl s)
  | dieResetReplan => exact execDieResetReplan_keeps (.refl s)
  | pairComparison => exact execPairComparison_keeps (.refl s)
  | pairWaitExpiry => exact execPairWaitExpiry_keeps (.refl s)
  | readbackMismatch => exact execReadbackMismatch_keeps (.refl s)
  | supervisionCycle => exact execSupervisionCycle_keeps (.refl s)
  | emberMeasurement => exact execEmberMeasurement_keeps (.refl s)
  | monitorFailure => exact execMonitorFailure_keeps (.refl s)
  | periodicReplan => exact execPeriodicReplan_keeps (.refl s)
  | vreqStep => exact execVreqStep_keeps (.refl s)
  | slackRecord => exact execSlackRecord_keeps (.refl s)
  | imageCheck => exact execImageCheck_keeps (.refl s)
  | recover => exact execRecover_keeps (.refl s)
  | stewardWatchdog => exact execStewardWatchdog_keeps (.refl s)
  | dictRead => exact execDictRead_keeps (.refl s)
  | dictWrite => exact execDictWrite_keeps (.refl s)
  | dictCommit => exact execDictCommit_keeps (.refl s)
  | dictAbort => exact execDictAbort_keeps (.refl s)
  | dictDescribe => exact execDictDescribe_keeps (.refl s)
  | imgErase => exact execImgErase_keeps (.refl s)
  | imgWrite => exact execImgWrite_keeps (.refl s)
  | boot => exact execBoot_keeps (.refl s)
  | dapFrame => exact execDapFrame_keeps (.refl s)
  | sessionTimeout => exact execSessionTimeout_keeps (.refl s)
  | journalRecordWrite => exact execJournalRecordWrite_keeps (.refl s)
  | journalReplay => exact execJournalReplay_keeps (.refl s)
  | compaction => exact execCompaction_keeps (.refl s)
  | sectorErase => exact execSectorErase_keeps (.refl s)
  | jrnClear => exact execJrnClear_keeps (.refl s)
  | syncMessage => exact execSyncMessage_keeps (.refl s)
  | followUp => exact execFollowUp_keeps (.refl s)
  | pdelayReq => exact execPdelayReq_keeps (.refl s)
  | pdelayResp => exact execPdelayResp_keeps (.refl s)
  | pdelayRespFollowUp => exact execPdelayRespFollowUp_keeps (.refl s)
  | syncInterval => exact execSyncInterval_keeps (.refl s)
  | pdelayInterval => exact execPdelayInterval_keeps (.refl s)
  | syncLost => exact execSyncLost_keeps (.refl s)
  | timeSet => exact execTimeSet_keeps (.refl s)
  | timeAdj => exact execTimeAdj_keeps (.refl s)
  | restep => exact execRestep_keeps (.refl s)
  | secondAdvance => exact execSecondAdvance_keeps (.refl s)
  | ppsOutFall => exact execPpsOutFall_keeps (.refl s)
  | linkUp => exact execLinkUp_keeps (.refl s)
  | monitorSample => exact execMonitorSample_keeps (.refl s)
  | snapMask => exact execSnapMask_keeps (.refl s)
  | clearMask => exact execClearMask_keeps (.refl s)
  | interruptMessage => exact execInterruptMessage_keeps (.refl s)
  | blkRstNAssert => exact execBlkRstNAssert_keeps (.refl s)
  | blkRstNRelease => exact execBlkRstNRelease_keeps (.refl s)
  | dbgData => exact execDbgData_keeps (.refl s)
  | dbgTrstN => exact execDbgTrstN_keeps (.refl s)
  | tableBaseWrite => exact execTableBaseWrite_keeps (.refl s)
  | ringBaseWrite => exact execRingBaseWrite_keeps (.refl s)
  | ringCfgWrite => exact execRingCfgWrite_keeps (.refl s)
  | ringRdWrite => exact execRingRdWrite_keeps (.refl s)
  | ovfCtlFree => exact execOvfCtlFree_keeps (.refl s)
  | registerWrite => exact execRegisterWrite_keeps (.refl s)
  | timebaseRisingEdge => exact execTimebaseRisingEdge_keeps (.refl s)
  | registerRead => exact execRegisterRead_keeps (.refl s)
  | rxDrop => exact execRxDrop_keeps (.refl s)
  | pool1Result => exact execPool1Result_keeps (.refl s)
  | fenceSignalResult => exact execFenceSignalResult_keeps (.refl s)
  | regionRead => exact execRegionRead_keeps (.refl s)

theorem keeps_of_exec_next {i : Instr} {s t : State} (h : exec i s = .next t) : Keeps s t :=
  KeepsOut.elim (h ▸ exec_keeps i s)

theorem Keeps.sameWorld {s t : State} (h : Keeps s t) : SameWorld s t := ⟨h.pending, h.build, h.straps⟩

theorem Keeps.inv {s t : State} (h : Keeps s t) (hs : s.Inv) : t.Inv := by
  obtain ⟨legal, canonical⟩ := hs
  exact ⟨h.build.symm ▸ legal, h.mem canonical⟩

/-- All that a step can do: idle on an empty queue, or run the command at the front on the state with the queue's rest. -/
theorem step_next_cases {s t : State} (h : step s = .next t) :
    (s.pending = [] ∧ t = s) ∨
      ∃ c cs, s.pending = c :: cs ∧ exec c { s with pending := cs } = .next t := by
  unfold step at h
  split at h
  next idle =>
    cases h
    exact .inl ⟨idle, rfl⟩
  next c cs front => exact .inr ⟨c, cs, front, h⟩

/-- A step keeps what commands keep, but for the command that it takes off the queue. -/
theorem keeps_of_step_next {s t : State} (h : step s = .next t) : Keeps { s with pending := s.pending.tail } t := by
  obtain ⟨idle, rfl⟩ | ⟨c, cs, front, run⟩ := step_next_cases h
  · exact ⟨by simp [idle], rfl, rfl, id⟩
  · rw [front]
    exact keeps_of_exec_next run

/-! ### When a command answers -/

/-- The outcome is a next state, or else `p` fails and the machine has stopped with `noSuchUnit`. -/
inductive AnswersIf (p : Bool) : Host.Outcome State Fault Refusal → Prop where
  | next (t : State) : AnswersIf p (.next t)
  | stop (h : p = false) : AnswersIf p (.fault .noSuchUnit)

namespace AnswersIf

variable {p : Bool} {o : Host.Outcome State Fault Refusal}

theorem exists_next (h : AnswersIf p o) (hp : p = true) : ∃ t, o = .next t := by
  cases h with
  | next t => exact ⟨t, rfl⟩
  | stop hf => simp [hf] at hp

theorem ne_refused (h : AnswersIf p o) (r : Refusal) : o ≠ .refused r := by
  cases h <;> nofun

theorem of_fault {f : Fault} (h : AnswersIf p (.fault f)) : f = .noSuchUnit ∧ p = false := by
  cases h with
  | stop hf => exact ⟨rfl, hf⟩

/-- A command behind the check `g` answers wherever the check holds. -/
theorem of_guard {g : Bool} (t : State) (hg : p = true → g = true) :
    AnswersIf p (if g then .next t else .fault .noSuchUnit) := by
  cases g with
  | true => exact .next t
  | false => exact .stop (by simpa using hg)

end AnswersIf

section
variable {p : Bool} {s t : State}

theorem onDie_answersIf {d : DieId} (h : p = true → s.hasDie d = true) : AnswersIf p (onDie s d t) := .of_guard t h
theorem onCluster_answersIf {k : ClusterId} (h : p = true → s.hasCluster k = true) : AnswersIf p (onCluster s k t) :=
  .of_guard t h
theorem onCore_answersIf {c : CoreId} (h : p = true → s.hasCore c = true) : AnswersIf p (onCore s c t) := .of_guard t h
theorem onArray_answersIf {a : ArrayId} (h : p = true → s.hasArray a = true) : AnswersIf p (onArray s a t) :=
  .of_guard t h

/-- The build's check of a reset unit is the state's, kind by kind. -/
theorem hasUnit_build (s : State) (u : ResetUnit) : s.build.hasUnit u = s.hasUnit u := by
  cases u <;> rfl

theorem onStore_answersIf {st : StoreId} (h : p = true → s.build.hasStore st = true) :
    AnswersIf p (s.onStore st t) := by
  cases st with
  | core c => exact onCore_answersIf h
  | map k => exact onCluster_answersIf h

theorem onUnit_answersIf {u : ResetUnit} (h : p = true → s.build.hasUnit u = true) : AnswersIf p (onUnit s u t) :=
  .of_guard t fun hp => (hasUnit_build s u).symm.trans (h hp)

end

/-- Every command answers a next state where it is well formed for the build: `exec` checks one unit that the command
names, or none, and `Instr.wf` asks for that unit among the rest. -/
theorem exec_answersIf (i : Instr) (s : State) : AnswersIf (i.wf s.build) (exec i s) := by
  cases i with
  -- commands that check no unit
  | semaphoreGrant | peatReadRequestTransfer | peatWriteRequestTransfer | unansweredRequest | doorbell |
    doorbellForward | commandAcceptance | nop | launch | signal | wait | test | writeCommand | timeCommand |
    callCommand | breakCall | inval | waitReread | commandTimeout | drainExpiry | launchComplete |
    lossProcedure | launchToDie0 | distributionRecord | partEnded | stop | stopAcknowledgement |
    semaphoreRequest | pool1Call | fenceSignal | ctxCreate | ctxAbort | ctxDestroy | qCreate | qDestroy |
    moRegister | moDestroy | moRetireEnd | semCreate | semDestroy | retry | fail | ack | partRootCommit |
    invalidation | alignmentRequest | alignmentAnswer | stageReport | readinessReport | hostDone | dumpFree |
    pairComparison | pairWaitExpiry | snapMask | clearMask | tableBaseWrite | ringBaseWrite | ringCfgWrite |
    ringRdWrite | ovfCtlFree | pool1Result | fenceSignalResult =>
    exact .next _
  -- commands on a core, a cluster or an array
  | add | sub | and | or | xor | shl | shr | sra | mul | mulh | mulhu | min | max | minu | maxu | divu | remu |
    addi | andi | ori | xori | shli | shri | srai | muli | li | lis | cmp | cmpi | plog | prd | pwr | time |
    ldb | ldbu | ldh | ldhu | ldw | ldwu | ldd | stb | sth | stw | std | ldcd | stcd | fence | br | call |
    callr | ret | crd | cwr | trap | yield | endCmd | launchHeaderCheck | codeBlockFetch | sequencerLoadReturn |
    arrMm | arrMmg | arrWfmt | arrWcfg | arrRfmt | arrRcfg | strLd | strSt | strLdm | strStm | strXp | strMld |
    strMst | strCvrd | strCvwr | streamIssue | streamComplete | vecVld | vecVst | vecVopf | vecVopb | vecVopi |
    vecVsfu | vecVred | vecVcvt | vecVbcst | vecVmovs | vecVsort | vecVbox | vecVnms | vectorIssue |
    vectorComplete | syncTdef | syncTrel | syncTstat | syncPhase | syncWait | syncBar | syncHpost | syncHwait |
    syncSacq | syncStry | syncSrel | syncAlloc | syncFree | syncWgclm | syncWgbind | syncWgrel | haloWaitMet |
    preemption | coreImageSave =>
    exact onCore_answersIf id
  | coreResume => exact onCore_answersIf Bool.and_elim_left
  | loadGrant | barrierComplete | mapStoreImageSave => exact onCluster_answersIf id
  | arrayIssue | gatherWindowExpiry | arrayComplete | idleTimerExpiry | densityChange | fillerPattern =>
    exact onArray_answersIf id
  -- commands on a store or on a reset unit
  | imageRestore | storeClear => exact onStore_answersIf id
  | scrub => exact onStore_answersIf Bool.and_elim_left
  | codeViolation | watchdogExpiry => exact onUnit_answersIf id
  -- commands on a die, alone or beside other checks
  | peatReadData | peatWriteAcceptance | residentSlotTake | walkEnd | deferredFaultPost | replay |
    hotPeriodExpiry | segmentBlockLoad | ackTimeout | mtPhyReady | mtPhyReadyFall | reportComplete |
    alignComplete | trainingPhaseTimeout | linkTrainTimeout | topologyAnnouncement | alignmentExchangeTimer |
    counterHoldEnd | periodicAlignmentCheck | alignmentTimeout | pulseInput | linksEnd | computePartRelease |
    rateWindow | supplyDip | supplyRecovery | timebaseLost | timebaseResume | timebaseStable | resetDeadline |
    resetCheck | regionReadTimeout | collectionCutoff | boundarySlotTimeout | dieResetReplan |
    readbackMismatch | supervisionCycle | periodicReplan | vreqStep | slackRecord | imageCheck | recover |
    stewardWatchdog | dictRead | dictWrite | dictCommit | dictAbort | dictDescribe | imgErase | imgWrite |
    boot | dapFrame | sessionTimeout | journalRecordWrite | journalReplay | compaction | sectorErase |
    jrnClear | syncMessage | followUp | pdelayReq | pdelayResp | pdelayRespFollowUp | syncInterval |
    pdelayInterval | syncLost | timeSet | timeAdj | restep | secondAdvance | ppsOutFall | linkUp |
    monitorSample | interruptMessage | blkRstNAssert | blkRstNRelease | dbgData | dbgTrstN |
    timebaseRisingEdge | rxDrop | regionRead =>
    exact onDie_answersIf id
  | invalidationAcknowledgement | flit | identComplete | selftestVerdict | emberMeasurement | monitorFailure =>
    exact onDie_answersIf Bool.and_elim_left
  | launchPlacement | sliceExpiry | launchCountReached => exact onDie_answersIf Bool.and_elim_right
  | registerWrite | registerRead => exact onDie_answersIf (Bool.and_elim_left ∘ Bool.and_elim_left)

/-! ### The statements -/

/-- Settles O2: the build of `State.reset` is the largest of Table 00-1, and its memory lists nothing. -/
theorem resetMeetsTheInvariant : Obligations.ResetMeetsTheInvariant := by
  unfold Obligations.ResetMeetsTheInvariant State.Inv
  exact ⟨by decide, by decide⟩

/-- Settles O3: the invariant speaks of what every command keeps, and not of the queue. -/
theorem stepKeepsTheInvariant : Obligations.StepKeepsTheInvariant := by
  intro s t hs h
  exact (keeps_of_step_next h).inv hs

/-- Settles O4, by the law that every command keeps these fields. -/
theorem commandsKeepQueueAndPackage : Obligations.CommandsKeepQueueAndPackage := by
  refine ⟨fun _ _ _ h => (keeps_of_exec_next h).sameWorld, fun s t h => ?_⟩
  obtain ⟨pending, build, straps⟩ := (keeps_of_step_next h).sameWorld
  exact ⟨pending, build, straps⟩

/-- Settles O5: a command's one check, of a unit that it names, is part of its well-formedness. -/
theorem wellFormedCommandsAlwaysAnswer : Obligations.WellFormedCommandsAlwaysAnswer := by
  refine ⟨fun c s => (exec_answersIf c s).exists_next, fun c s => (exec_answersIf c s).ne_refused, fun c s f h => ?_⟩
  have answers := exec_answersIf c s
  rw [h] at answers
  exact answers.of_fault

end Sys2Proof.Machine
end

section
/-!
PROOFS. The load grant, barriers, halo waits and the semaphores' service (01_architecture.md, R18; R144 to R146).
-/
namespace Sys2Proof.Machine

namespace State

/-! ### A core's record changed, and the end of a blocking instruction -/

section
variable (s : State) (c : CoreId) (i : EInstr) (f : SeqRegs → SeqRegs)

@[simp] theorem core_updCore (g : Core → Core) : (s.updCore c g).core c = g (s.core c) := by simp [updCore]

@[simp] theorem cluster_updCore (g : Core → Core) (k : ClusterId) : (s.updCore c g).cluster k = s.cluster k := rfl

/-- The core that waited for the instruction goes on; everything but its sequencers and its watchdog stays as it is. -/
theorem core_retire (h : (s.core c).stall = .engine i.ord) :
    (s.retire c i f).core c = { s.core c with
      stall := .none, seq := f (s.core c).seq, twin := f (s.core c).twin, progAt := (s.die c.die).ticks } := by
  simp [retire, moved, h]

/-- The core that waited for an instruction of the synchronisation queue goes on, and waits on no halo counter. -/
theorem core_syncDone (h : (s.core c).stall = .engine i.ord) :
    (s.syncDone c i f).core c = { s.core c with
      syncQ := (s.core c).syncQ.filter fun q => decide (q.ord ≠ i.ord), remoteWait := false, haloWaiting := false
      stall := .none, seq := f (s.core c).seq, twin := f (s.core c).twin, progAt := (s.die c.die).ticks } := by
  rw [syncDone, core_retire _ _ _ _ (by simpa using h)]
  simp [updCore]

/-- The end of a wait only asks for the load grant. -/
theorem core_waitOver : ∃ g, (s.waitOver c).core c = { s.core c with grantReq := g } := by
  unfold waitOver
  split
  · exact ⟨true, by simp⟩
  · exact ⟨_, rfl⟩

/-- What a core that has waited is like when its wait is over: it is stalled no more, and waits on no halo counter; its place at
a barrier is as it was. -/
theorem core_syncDone_waitOver (h : (s.core c).stall = .engine i.ord) :
    let u := (s.syncDone c i f).waitOver c
    (u.core c).stall = .none ∧ (u.core c).haloWaiting = false ∧ (u.core c).atBarrier = (s.core c).atBarrier := by
  obtain ⟨g, hg⟩ := core_waitOver (s.syncDone c i f) c
  simp [hg, core_syncDone s c i f h]

end

/-! ### The load grant -/

/-- The core of two that the grant goes to: the one with the lower logical index, the earlier one of two alike. -/
def betterAsk (s : State) (b : Option CoreId) (c : CoreId) : Option CoreId :=
  match b with
  | none => some c
  | some d => if s.lcoreInCluster c < s.lcoreInCluster d then some c else some d

/-- The grant passes to a core of a free cluster. -/
def grantTo (s : State) (k : ClusterId) (c : CoreId) : State :=
  (s.setCluster k { s.cluster k with holder := some c.core }).updCore c fun k => { k with grantReq := false }

variable {s : State} {k : ClusterId} {c : CoreId}

theorem holdsGrant_grantTo (h : c.cluster = k) : (s.grantTo k c).holdsGrant c = true := by
  simp [holdsGrant, grantTo, h]

theorem grantReq_grantTo : ((s.grantTo k c).core c).grantReq = false := by simp [grantTo]

/-- The grant of a free cluster goes to the core that the comparison of all that ask leaves (R18). -/
theorem loadGrant_free (free : (s.cluster k).holder = none)
    (h : ((s.clusterCores k).filter s.asksGrant).foldl s.betterAsk none = some c) :
    s.loadGrant k = (s.grantTo k c).settle c := by
  simp only [loadGrant, free]
  change (match ((s.clusterCores k).filter s.asksGrant).foldl s.betterAsk none with
    | none => s
    | some c => (s.grantTo k c).settle c) = _
  rw [h]

theorem loadGrant_held (held : (s.cluster k).holder ≠ none) : s.loadGrant k = s := by
  simp [loadGrant, Option.isSome_iff_ne_none.mpr held]

/-! ### Barriers and halo counters -/

/-- Counts that are all equal to the first one pass the barrier's comparison. -/
theorem all_eq_headD_range {α : Type} [DecidableEq α] {g : Nat → α} {d : α} {n : Nat} (h : ∀ m, m < n → g m = g 0) :
    (((List.range n).map g).all fun v => decide (v = ((List.range n).map g).headD d)) = true := by
  cases n with
  | zero => rfl
  | succ n => simpa [List.range_succ_eq_map] using fun m hm => h (m + 1) (by omega)

/-- A barrier at which one core of a cluster waits, and that all have reached equally often, completes for it (R144). -/
theorem barrierComplete_one {b : Nat} {i : EInstr} {rest : List EInstr}
    (waits : ((s.clusterCores k).filter fun d =>
      decide ((s.core d).atBarrier = some b) && decide ((s.core d).run = .running)) = [c])
    (head : (s.core c).syncQ = i :: rest)
    (even : ∀ n, n < (s.clusterPeers c).length →
      (s.cluster k).arrivals.get 0 (b * 4 + n) = (s.cluster k).arrivals.get 0 (b * 4)) :
    s.barrierComplete k b =
      (((s.updCore c fun k => { k with atBarrier := none }).syncDone c i id).waitOver c).settle c := by
  have level := all_eq_headD_range (g := fun n => (s.cluster k).arrivals.get 0 (b * 4 + n)) (d := 0) even
  simp only [barrierComplete, waits, level, if_true, List.foldl_cons, List.foldl_nil, head]

/-- The comparison of counters modulo 2^32 (R101) is that of their difference with 0. -/
theorem wge_of_sub_nonneg {a b : W32} (h : 0 ≤ (a - b).toInt) : wge 32 a.toNat b.toNat = true := by
  have ha := a.isLt
  have hb := b.isLt
  rw [BitVec.toInt_eq_toNat_cond, BitVec.toNat_sub] at h
  apply decide_eq_true
  unfold signed wrap
  omega

/-- A core whose halo counter has come goes on (R145). -/
theorem haloMet_met {i : EInstr} {rest : List EInstr} (running : (s.core c).run = .running)
    (head : (s.core c).syncQ = i :: rest) (waiting : (s.core c).haloWaiting = true)
    (met : 0 ≤ (s.halo c (bits i.word 9 4) - i.x1.truncate 32).toInt) :
    s.haloMet c = ((s.syncDone c i id).waitOver c).settle c := by
  have come : wge 32 (s.halo c (fIdx i.word)).toNat (i.x1.toNat % 2 ^ 32) = true := by
    simpa [fIdx, bits] using wge_of_sub_nonneg met
  simp only [haloMet, head, waiting, running, come, decide_true, Bool.and_self, if_true]

/-! ### Semaphores -/

/-- A semaphore with a free unit grants it to the first core in line (R146). -/
theorem semGrant_free {n core : Nat} {rest : List Nat} (up : (s.die die0).computeReset = false)
    (line : (s.sema n).waiters = core :: rest) (free : (s.sema n).holders.length < (s.sema n).units) :
    s.semGrant n = (s.setSema n { s.sema n with
      holders := (s.sema n).holders ++ [core], waiters := rest }).semAnswer (coreOf core) true := by
  simp [semGrant, line, up, free]

end State

/-- Settles O31: the grant goes to the least of the cores that ask, and what ends a wait releases the core before it settles. -/
theorem grantsAndSynchronisationWaits : Obligations.GrantsAndSynchronisationWaits := by
  unfold Obligations.GrantsAndSynchronisationWaits
  refine ⟨⟨?one, ?two, ?held⟩, ?barrier, ?halo, ?semaphore⟩
  case one =>
    intro s k c hk free ck asks
    refine ⟨s.grantTo k c, ?_, State.holdsGrant_grantTo ck, State.grantReq_grantTo⟩
    have best : ((s.clusterCores k).filter s.asksGrant).foldl s.betterAsk none = some c := by rw [asks]; rfl
    simp [exec, execLoadGrant, onCluster, hk, State.loadGrant_free free best]
  case two =>
    intro s k c d hk free ck _ less asks
    refine ⟨s.grantTo k c, ?_, State.holdsGrant_grantTo ck⟩
    have best : ((s.clusterCores k).filter s.asksGrant).foldl s.betterAsk none = some c := by
      simp [asks, State.betterAsk, less]
    simp [exec, execLoadGrant, onCluster, hk, State.loadGrant_free free best]
  case held =>
    intro s k hk held
    simp [exec, execLoadGrant, onCluster, hk, State.loadGrant_held held]
  case barrier =>
    intro s c b i rest hk waits head stalled even
    refine ⟨((s.updCore c fun k => { k with atBarrier := none }).syncDone c i id).waitOver c, ?_, ?_⟩
    · simp [exec, execBarrierComplete, onCluster, hk, State.barrierComplete_one waits head even]
    · obtain ⟨free, _, away⟩ := State.core_syncDone_waitOver (s.updCore c fun k => { k with atBarrier := none }) c i id
        (by simpa using stalled)
      exact ⟨by simpa using away, free⟩
  case halo =>
    intro s c i rest hc running head waiting stalled met
    obtain ⟨free, ended, _⟩ := State.core_syncDone_waitOver s c i id stalled
    refine ⟨(s.syncDone c i id).waitOver c, ?_, ended, free⟩
    simp [exec, execHaloWaitMet, onCore, hc, State.haloMet_met running head waiting met]
  case semaphore =>
    intro s n core rest up line free
    exact ⟨s.setSema n.toNat { s.sema n.toNat with holders := (s.sema n.toNat).holders ++ [core], waiters := rest },
      congrArg Host.Outcome.next (State.semGrant_free up line free), by simp, by simp⟩

end Sys2Proof.Machine
end

section
/-!
SUPPORT. What the transport of control messages, flits, requests and event records leaves alone: the host's objects, the
launches in progress and device memory (R164 to R167, R251, R286 to R295, R308 to R315, R319). A request carries its bytes; memory
takes them at its Peat port.
-/
namespace Sys2Proof.Machine

/-- The host's objects, the launches in progress, and device memory. -/
structure Objects where
  ctxs : SMap Ctx
  queues : SMap Queue
  mos : SMap MemObj
  sems : SMap Sema
  launches : SMap Launch
  mem : SMap Byte

namespace State

def objects (s : State) : Objects := ⟨s.ctxs, s.queues, s.mos, s.sems, s.launches, s.mem⟩

variable {s t : State}

theorem launches_of_objects (h : t.objects = s.objects) : t.launches = s.launches := congrArg Objects.launches h
theorem mem_of_objects (h : t.objects = s.objects) : t.mem = s.mem := congrArg Objects.mem h
theorem ctx_of_objects (h : t.objects = s.objects) (n : Nat) : t.ctx n = s.ctx n :=
  congrArg (fun o => o.ctxs.get {} n) h

/-- What every step of a fold leaves alone, the fold leaves alone. -/
theorem objects_foldl {α : Type} {f : State → α → State} (h : ∀ s a, (f s a).objects = s.objects) (l : List α) (s : State) :
    (l.foldl f s).objects = s.objects := by
  induction l generalizing s with
  | nil => rfl
  | cons a l ih => exact (ih _).trans (h s a)

theorem objects_foldl_fst {α β : Type} {f : State × β → α → State × β} (h : ∀ p a, (f p a).1.objects = p.1.objects)
    (l : List α) (p : State × β) : (l.foldl f p).1.objects = p.1.objects := by
  induction l generalizing p with
  | nil => rfl
  | cons a l ih => exact (ih _).trans (h p a)

theorem objects_of_eq {β : Type} {p : State × β} {b : β} (e : p = (t, b)) (h : p.1.objects = s.objects) :
    t.objects = s.objects := by
  rw [e] at h
  exact h

variable (s : State) (d : DieId)

/-! Records of units. -/

@[simp] theorem objects_setDie (v : Die) : (s.setDie d v).objects = s.objects := rfl
@[simp] theorem objects_setLink (l : LinkId) (v : Link) : (s.setLink l v).objects = s.objects := rfl
@[simp] theorem objects_addReq (r : Req) : (s.addReq r).objects = s.objects := rfl
@[simp] theorem objects_deliverMsg (src dst : Nat) (m : Msg) : (s.deliverMsg src dst m).objects = s.objects := rfl

/-! Faults reported to a steward (R380, R381, R421). -/

@[simp] theorem objects_setCause (bitNo code : Nat) (ssr : Bool) : (s.setCause d bitNo code ssr).objects = s.objects := rfl

@[simp] theorem objects_eventRecord (code info : Nat) : (s.eventRecord d code info).objects = s.objects := by
  unfold eventRecord
  dsimp only
  split
  · split <;> rfl
  · rfl

@[simp] theorem objects_report (code info : Nat) : (s.report d code info).objects = s.objects := by
  unfold report
  dsimp only
  split <;> split <;> simp

/-! The Cuffs (R167, R273). -/

@[simp] theorem objects_setCuffB (path p : Nat) (v : Int) : (s.setCuffB d path p v).objects = s.objects := rfl

@[simp] theorem objects_cuffRefill (path n : Nat) : (s.cuffRefill d path n).objects = s.objects := by
  refine (objects_foldl (fun t p => ?_) _ _).trans (objects_setDie s d _)
  split <;> simp

@[simp] theorem objects_cuffTake (path p n : Nat) (ahead : Bool) : (s.cuffTake d path p n ahead).objects = s.objects := by
  unfold cuffTake
  dsimp only
  split
  · rfl
  · split <;> simp

@[simp] theorem objects_cuffSlot (path : Nat) (ready : List Nat) : (s.cuffSlot d path ready).1.objects = s.objects := by
  unfold cuffSlot
  dsimp only
  split
  · simp
  · simp
  · split <;> simp

/-! The transmitter of a link (R311 to R315). -/

section
variable (l : LinkId)

@[simp] theorem objects_nextRequest (p : Nat) (reqs : List Flit) : (s.nextRequest l p reqs).1.objects = s.objects := by
  unfold nextRequest
  dsimp only
  split <;> simp

@[simp] theorem objects_nextFlit : (s.nextFlit l).1.objects = s.objects := by
  unfold nextFlit
  dsimp only
  split
  · split <;> simp
  · split
    · rfl
    · split
      · simp
      · split
        · rfl
        · split
          next t p h => exact (objects_nextRequest t l p _).trans (objects_of_eq h (objects_cuffSlot ..))
          next t h => exact objects_of_eq h (objects_cuffSlot ..)

@[simp] theorem objects_sendIdle : (s.sendIdle l).objects = s.objects := by
  unfold sendIdle
  dsimp only
  split <;> rfl

@[simp] theorem objects_freeVia (f : Flit) : (s.freeVia d f).objects = s.objects := by
  unfold freeVia
  split <;> simp

@[simp] theorem objects_stampSent (f : Flit) : (s.stampSent d f).objects = s.objects := by
  unfold stampSent
  split
  · rfl
  · split
    · rfl
    · split <;> rfl

@[simp] theorem objects_pumpOne : (s.pumpOne l).objects = s.objects := by
  unfold pumpOne
  dsimp only
  split
  · rfl
  · split
    next t h => exact objects_of_eq h (objects_nextFlit s l)
    next t f h => simpa using objects_of_eq h (objects_nextFlit s l)

@[simp] theorem objects_pumpN (n : Nat) : (s.pumpN l n).objects = s.objects := by
  induction n generalizing s with
  | zero => rfl
  | succ n ih => simp [pumpN, ih]

@[simp] theorem objects_enqueueFlit (f : Flit) : (s.enqueueFlit l f).objects = s.objects := by
  simp [enqueueFlit, pump]

end

@[simp] theorem objects_sendMsg (src dst : DieId) (m : Msg) : (s.sendMsg src dst m).objects = s.objects := by
  unfold sendMsg
  split
  · simp
  · split
    · simp
    · exact objects_foldl (fun t m => objects_enqueueFlit t _ _) _ s

/-! Requests to memory and translation (R284 to R291, R295, R299, R303). -/

@[simp] theorem objects_postRecord (slot : Nat) (r : FqRec) : (s.postRecord d slot r).objects = s.objects := rfl

@[simp] theorem objects_hotCount (partition ctx range n : Nat) :
    (s.hotCount d partition ctx range n).objects = s.objects := by
  unfold hotCount
  dsimp only
  split
  · rfl
  · split
    · rfl
    · split
      · rfl
      · split
        · split <;> simp
        · simp

@[simp] theorem objects_sendReq (r : Req) : (s.sendReq d r).1.objects = s.objects := by
  unfold sendReq
  dsimp only
  split
  · simp
  · split
    · rfl
    · split
      · simp
      · split
        · rfl
        · split
          · rfl
          · refine (objects_foldl (fun t m => objects_enqueueFlit t _ _) _ _).trans ?_
            simp

@[simp] theorem objects_withdraw (p : Owner → Bool) : (s.withdraw d p).objects = s.objects := rfl

@[simp] theorem objects_startWalk (o : Owner) (partition ctx va : Nat) (acc : Access) :
    (s.startWalk d o partition ctx va acc).objects = s.objects := by
  unfold startWalk
  dsimp only
  split
  · rfl
  · split <;> rfl

@[simp] theorem objects_touch (key partition ctx va : Nat) : (s.touch d key partition ctx va).objects = s.objects := by
  unfold touch
  split <;> rfl

@[simp] theorem objects_faultAccess (cause : FaultCause) (range : Nat) (o : Owner) (partition ctx va : Nat) (acc : Access) :
    (s.faultAccess d cause range o partition ctx va acc).objects = s.objects := by
  unfold faultAccess
  dsimp only
  split
  · rfl
  · split <;> rfl

@[simp] theorem objects_busAccess (partition ctx range : Nat) (ahead : Bool) (b : BusAcc) :
    (s.busAccess d partition ctx range ahead b).1.objects = s.objects := by
  unfold busAccess
  dsimp only
  split
  · rfl
  · refine (objects_setDie _ d _).trans (objects_foldl_fst (fun p i => ?_) _ _)
    split
    · rfl
    · split
      next t h => exact objects_of_eq h (objects_sendReq ..)
      next => rfl
      next t h =>
        have refused : t.objects = p.1.objects := objects_of_eq h (objects_sendReq ..)
        exact refused

@[simp] theorem objects_busRead (o : Owner) (partition ctx va pa n range : Nat) (ahead : Bool) :
    (s.busRead d o partition ctx va pa n range ahead).1.objects = s.objects := objects_busAccess ..

@[simp] theorem objects_busWrite (o : Owner) (partition ctx va pa : Nat) (bs : List Byte) (range : Nat) (ahead : Bool) :
    (s.busWrite d o partition ctx va pa bs range ahead).1.objects = s.objects := objects_busAccess ..

@[simp] theorem objects_busDone (o : Owner) : (s.busDone d o).objects = s.objects := rfl

@[simp] theorem objects_xlateSegs (o : Owner) (partition ctx va : Nat) (acc : Access) :
    (s.xlateSegs d o partition ctx va acc).1.objects = s.objects := by
  unfold xlateSegs
  dsimp only
  split
  next t h => exact objects_of_eq h (objects_busRead ..)
  next t _ h => exact objects_of_eq h (objects_busRead ..)
  next t blk h =>
    have read : t.objects = s.objects := objects_of_eq h (objects_busRead ..)
    split
    · exact read
    · split
      · exact read
      · split
        · exact read
        · split <;> exact read

@[simp] theorem objects_xlateNow (o : Owner) (partition ctx va : Nat) (acc : Access) :
    (s.xlateNow d o partition ctx va acc).1.objects = s.objects := by
  unfold xlateNow
  split
  · rfl
  · split
    · split <;> simp
    · split <;> simp
    · simp
    · rfl

/-! Event records (R251, R275). -/

@[simp] theorem objects_writeEvent (p r : Nat) (rec : EventRec) (n : Nat) :
    (s.writeEvent d p r rec n).1.objects = s.objects := by
  unfold writeEvent
  dsimp only
  split
  · rfl
  · split
    next t pa range h =>
      have found := objects_of_eq h (objects_xlateNow ..)
      split
      next u _ hw =>
        have written : u.objects = s.objects := objects_of_eq hw ((objects_busWrite ..).trans found)
        split <;> exact written
      next u _ hw =>
        have failed : u.objects = s.objects := objects_of_eq hw ((objects_busWrite ..).trans found)
        exact failed
      next u hw => exact objects_of_eq hw ((objects_busWrite ..).trans found)
    next t c range h => exact (objects_faultAccess ..).trans (objects_of_eq h (objects_xlateNow ..))
    next t h => exact objects_of_eq h (objects_xlateNow ..)
    next t _ _ h =>
      have lost : t.objects = s.objects := objects_of_eq h (objects_xlateNow ..)
      exact lost

@[simp] theorem objects_waitEvent (n p r : Nat) (rec : EventRec) : (s.waitEvent d n p r rec).objects = s.objects := rfl

@[simp] theorem objects_tryEvent (p r : Nat) (rec : EventRec) : (s.tryEvent d p r rec).1.objects = s.objects := by
  unfold tryEvent
  dsimp only
  split
  · simp
  · split
    next t h => exact objects_of_eq h (objects_writeEvent ..)
    next t h => exact (objects_waitEvent ..).trans (objects_of_eq h (objects_writeEvent ..))
    next t _ _ h => exact objects_of_eq h (objects_writeEvent ..)

@[simp] theorem objects_logUndeliverable (p : Nat) (rec : EventRec) :
    (s.logUndeliverable d p rec).objects = s.objects := by
  have log : (s.logOverflow d rec).objects = s.objects := by
    unfold logOverflow
    dsimp only
    split <;> rfl
  exact (objects_tryEvent ..).trans log

/-! The stop of a launch, and what a lost context gives up (R113, R181, R295, R322). -/

@[simp] theorem objects_stopCore (c : CoreId) : (s.stopCore c).objects = s.objects := rfl

@[simp] theorem objects_stopPart (q : Nat) : (s.stopPart q d).objects = s.objects :=
  objects_foldl objects_stopCore _ _

@[simp] theorem objects_stopLaunch (q : Nat) : (s.stopLaunch q).objects = s.objects :=
  (objects_foldl (fun t _ => objects_sendMsg t _ _ _) _ _).trans (objects_stopPart s _ q)

@[simp] theorem objects_dropEvents (p : Nat × Nat × Nat × EventRec → Bool) : (s.dropEvents d p).objects = s.objects := rfl

@[simp] theorem objects_withdrawCtx (n : Nat) : (s.withdrawCtx n).objects = s.objects :=
  (objects_foldl (fun t d => objects_withdraw t d _) _ _).trans (objects_foldl (fun t d => objects_dropEvents t d _) _ s)

@[simp] theorem objects_dirtyStores (n : Nat) : (s.dirtyStores n).objects = s.objects := rfl

/-! A context's table entry: its write changes that context and memory (R232, R236). -/

@[simp] theorem launches_writeBytes (pa : Nat) (bs : List Byte) :
    (s.writeBytes pa bs).launches = s.launches := by
  induction bs generalizing s pa with
  | nil => rfl
  | cons b bs ih => simp [writeBytes, ih]

@[simp] theorem ctx_writeBytes (pa : Nat) (bs : List Byte) (n : Nat) :
    (s.writeBytes pa bs).ctx n = s.ctx n := by
  induction bs generalizing s pa with
  | nil => rfl
  | cons b bs ih => simp [writeBytes, ih]

@[simp] theorem launches_putCtx (n : Nat) (c : Ctx) : (s.putCtx n c).launches = s.launches := by
  simp [putCtx, syncCtx]

@[simp] theorem ctx_putCtx (n : Nat) (c : Ctx) : (s.putCtx n c).ctx n = c := by simp [putCtx, syncCtx]

end State
end Sys2Proof.Machine
end

section
/-!
PROOFS. Launches on several dies: the choice of the dies, distribution records and parts that end (01_architecture.md, R15, R20;
R321, R322, R347).
-/
namespace Sys2Proof.Machine

/-- A state that differs from another in the records of dies only: there the translations that a die holds and pins, and the
contexts that ask it for a slot, are kept. -/
def OnlyDies (s t : State) : Prop := ∃ k, t = { s with dies := k }

namespace OnlyDies

variable {s t : State} {d : DieId}

theorem refl (s : State) : OnlyDies s s := ⟨s.dies, rfl⟩

theorem setDie (h : OnlyDies s t) (v : Die) : OnlyDies s (t.setDie d v) := by
  obtain ⟨k, rfl⟩ := h
  exact ⟨_, rfl⟩

theorem objects (h : OnlyDies s t) : t.objects = s.objects := by
  obtain ⟨k, rfl⟩ := h
  rfl

theorem msgAt (h : OnlyDies s t) (m : Nat) : t.msgAt m = s.msgAt m := by
  obtain ⟨k, rfl⟩ := h
  rfl

theorem pinEntry (h : OnlyDies s t) (e : RangeEnt) (tag : Nat × Nat) : OnlyDies s (t.pinEntry d e tag) := by
  unfold State.pinEntry
  dsimp only
  split
  · exact h
  · split
    · exact h
    · exact h.setDie _

theorem pinFrom (p : Nat) (tag : Nat × Nat) (hi fuel va : Nat) (h : OnlyDies s t) :
    OnlyDies s (t.pinFrom d p tag hi fuel va) := by
  induction fuel generalizing t va with
  | zero => exact h
  | succ fuel ih =>
    unfold State.pinFrom
    split
    · exact h
    · split
      · exact ih _ (h.pinEntry _ _)
      · exact ih _ h
      · exact h

theorem foldl {α : Type} {f : State → α → State} (k : ∀ u a, OnlyDies s u → OnlyDies s (f u a)) (l : List α)
    (h : OnlyDies s t) : OnlyDies s (l.foldl f t) := by
  induction l generalizing t with
  | nil => exact h
  | cons a l ih => exact ih (k t a h)

theorem pinAll (h : OnlyDies s t) (p : Nat) (tag : Nat × Nat) (ws : List (Nat × Nat)) :
    OnlyDies s (t.pinAll d p tag ws) := by
  unfold State.pinAll
  dsimp only
  split
  · exact h.setDie _
  · exact (foldl (fun u w => pinFrom p tag _ _ _) ws h).setDie _

theorem askSlot (h : OnlyDies s t) (ctx : Nat) : OnlyDies s (t.askSlot d ctx) := by
  unfold State.askSlot
  dsimp only
  split
  · exact h
  · exact h.setDie _

end OnlyDies

namespace State

variable {s : State} {m dst src q : Nat} {l : Launch}

/-! ### A launch that fails -/

/-- The LOST record of a fault outside a program is posted: of the objects, the context only notes that (R247, R251). -/
theorem objects_postLost_outside (s : State) (n : Nat) (out : (s.ctx n).lossRecord.prog = false) :
    (s.postLost n).objects =
      if (s.ctx n).posted then s.objects else (s.putCtx n { s.ctx n with posted := true }).objects := by
  unfold postLost
  simp only [out, Bool.false_eq_true, if_false]
  split
  · rfl
  · split
    next t h => exact objects_of_eq h (objects_tryEvent ..)
    next t _ h => exact (objects_logUndeliverable ..).trans (objects_of_eq h (objects_tryEvent ..))

/-- After that the launches are as they were, and the context but for the note. -/
theorem postLost_outside (s : State) (n : Nat) (out : (s.ctx n).lossRecord.prog = false) :
    (s.postLost n).launches = s.launches ∧ ∃ b, (s.postLost n).ctx n = { s.ctx n with posted := b } := by
  have objs := objects_postLost_outside s n out
  split at objs
  · exact ⟨launches_of_objects objs, _, ctx_of_objects objs n⟩
  · exact ⟨(launches_of_objects objs).trans (launches_putCtx ..), true, (ctx_of_objects objs n).trans (ctx_putCtx ..)⟩

section
variable (s : State) (home : DieId) (n code cls : Nat) (rec : FaultRec)

/-- A live context becomes LOST: beside the table entry, only the LOST record of a fault outside a program can change objects;
the rest tells the steward, the schedulers and the launch's cores (R247). -/
theorem objects_lose (live : ¬((s.ctx n).st = .free ∨ (s.ctx n).st = .lost)) :
    ∃ t : State, t.objects = (s.putCtx n { s.ctx n with
        st := .lost, lossStatus := BitVec.ofNat 32 (code * 65536 + cls), lossRecord := rec, losing := some cls }).objects ∧
      (s.lose home n code cls rec).objects = (if rec.prog then t else t.postLost n).objects := by
  unfold lose
  simp only [live, if_false]
  refine ⟨_, ?_, (objects_foldl objects_stopLaunch _ _).trans ((objects_withdrawCtx ..).trans (objects_dirtyStores ..))⟩
  refine (objects_foldl (fun t d => objects_setDie t d _) _ _).trans ?_
  split
  · split <;> simp
  · rfl

/-- A live context that becomes LOST reads so, with the status and the record of its loss; the launches are as they were. -/
theorem lose_live (live : ¬((s.ctx n).st = .free ∨ (s.ctx n).st = .lost)) :
    let t := s.lose home n code cls rec
    t.launches = s.launches ∧ (t.ctx n).st = .lost ∧ (t.ctx n).lossStatus = BitVec.ofNat 32 (code * 65536 + cls) ∧
      (t.ctx n).lossRecord = rec := by
  obtain ⟨t, lost, objs⟩ := objects_lose s home n code cls rec live
  have launches : t.launches = s.launches := (launches_of_objects lost).trans (launches_putCtx ..)
  have ctx := (ctx_of_objects lost n).trans (ctx_putCtx ..)
  dsimp only
  rw [launches_of_objects objs, ctx_of_objects objs]
  split
  · exact ⟨launches, by simp [ctx]⟩
  next out =>
    obtain ⟨kept, b, posted⟩ := postLost_outside t n (by simpa [ctx] using out)
    exact ⟨kept.trans launches, by simp [posted, ctx]⟩

/-- A launch without a fault takes the record of the first one, loses its context and stops (R113, R322). -/
theorem failLaunch_first {l : Launch} (q : Nat) (count : W64) (found : s.launches.find? q = some l)
    (good : l.fault = none) :
    s.failLaunch q rec count = ((s.setLaunch q { l with fault := some rec, faultAt := count }).lose
      (queueOf q).die l.ctx rec.code 1 rec).stopLaunch q := by
  simp [failLaunch, found, good]

end

/-- A part that has failed fails its launch, which loses its context (R20, R322). -/
theorem partEnded_failed {i : Nat} {f : FaultRec} {n : W64} (msg : s.msgAt m = some (dst, src, .partEnded q i (some (f, n))))
    (found : s.launches.find? q = some l) (good : l.fault = none) (live : (s.ctx l.ctx).st = .resident) :
    let t := s.partEnded m
    t.launches.find? q = some { l with parts := l.parts.put i .failed, fault := some f, faultAt := n } ∧
      (t.ctx l.ctx).st = .lost ∧ (t.ctx l.ctx).lossStatus = BitVec.ofNat 32 (f.code * 65536 + 1) ∧
      (t.ctx l.ctx).lossRecord = f := by
  have taken : (s.takeMsg m).launches.find? q = some l := found
  simp only [partEnded, msg, taken]
  rw [failLaunch_first (l := { l with parts := l.parts.put i .failed }) _ f q n (launch_setLaunch ..) good]
  have stopped (u : State) : (u.stopLaunch q).objects = u.objects := objects_stopLaunch u q
  rw [launches_of_objects (stopped _), ctx_of_objects (stopped _)]
  obtain ⟨launches, lost⟩ := lose_live (((s.takeMsg m).setLaunch q { l with parts := l.parts.put i .failed }).setLaunch q
    { l with parts := l.parts.put i .failed, fault := some f, faultAt := n }) (queueOf q).die l.ctx f.code 1 f
    (by rw [setLaunch_ctx_of, setLaunch_ctx_of]; simp [show (s.takeMsg m).ctx l.ctx = s.ctx l.ctx from rfl, live])
  exact ⟨by rw [launches]; exact launch_setLaunch .., lost⟩

/-- A part that has ended is recorded (R322). -/
theorem partEnded_ended {i : Nat} (msg : s.msgAt m = some (dst, src, .partEnded q i none))
    (found : s.launches.find? q = some l) :
    s.partEnded m = (s.takeMsg m).setLaunch q { l with parts := l.parts.put i .ended } := by
  have taken : (s.takeMsg m).launches.find? q = some l := found
  simp only [partEnded, msg, partOver, taken]

/-! ### Die 0's choice -/

/-- The dies that may take part in a launch, the lowest first (R321, R345). -/
def mayTake (s : State) (b : List Byte) : List DieId :=
  (s.affineDies b).filter fun d => s.dieQualifies d && s.dieFits b d

/-- Die 0 takes the lowest dies of those and the launch count; the distribution records that it sends change no object (R15, R321,
R347). -/
theorem objects_chooseDies (msg : s.msgAt m = some (dst, src, .launch q)) (runs : s.cpRuns die0 = true)
    (found : s.launches.find? q = some l) (good : l.fault = none) (enough : lcDies l.cmd ≤ (s.mayTake l.cmd).length) :
    (s.chooseDies m).objects = (s.setLaunch q { l with
      dies := ((s.mayTake l.cmd).take (lcDies l.cmd)).map (·.val)
      count := some ((s.die die0).count + BitVec.ofNat 64 (s.objVal die0 0x2A20 0)) }).objects := by
  have taken : (s.takeMsg m).launches.find? q = some l := found
  have fits : ¬ ((s.takeMsg m).mayTake l.cmd).length < lcDies l.cmd := Nat.not_lt.mpr enough
  unfold mayTake at fits
  simp only [chooseDies, msg, runs, taken, good, fits]
  exact objects_foldl (fun t i => objects_sendMsg t _ _ _) _ _

/-! ### Distribution records -/

section
variable {r : Nat} {d : DieId} {rec : List Byte}

theorem dieOf_val (d : DieId) : dieOf d.val = d := by simp [dieOf]

/-- A distribution record whose CRC fails is told to the home die (R321). -/
theorem takeRecord_corrupt (msg : s.msgAt m = some (d.val, r, .dist rec)) (runs : s.cpRuns d = true)
    (bad : (crc32c (rec.take 0x7C)).toNat ≠ fieldAt rec 0x7C 4) :
    s.takeRecord m = (s.takeMsg m).sendMsg d (queueOf (fieldAt rec 8 4)).die
      (.partEnded (fieldAt rec 8 4) (fieldAt rec 0xE 1) (some (.outside 0x1504 d.val, (s.die d).count))) := by
  simp only [takeRecord, msg, dieOf_val, runs, Bool.not_true, Bool.false_eq_true, if_false]
  exact if_pos bad

/-- One whose launch needs a walk first starts it, unless its walk is under way (R158, R286). -/
theorem takeRecord_walk {va : Nat} (msg : s.msgAt m = some (d.val, r, .dist rec)) (runs : s.cpRuns d = true)
    (good : (crc32c (rec.take 0x7C)).toNat = fieldAt rec 0x7C 4) (found : s.launches.find? (fieldAt rec 8 4) = some l)
    (need : s.pinNeed d l.partition (fieldAt rec 8 4) ((sdtEntries l.sdt).filterMap descWindow) = some va) :
    s.takeRecord m = if s.transHeld d (.pin (fieldAt rec 8 4)) then s
      else s.startWalk d (.pin (fieldAt rec 8 4)) l.partition l.ctx va .read := by
  have taken : (s.takeMsg m).launches.find? (fieldAt rec 8 4) = some l := found
  simp only [takeRecord, msg, dieOf_val, runs, good, taken, need, Bool.not_true, Bool.false_eq_true, ne_eq, not_true,
    if_false]

/-- One that needs no walk has a part that waits; beside it, the message is gone and only dies change (R321). -/
theorem takeRecord_pending (msg : s.msgAt m = some (d.val, r, .dist rec)) (runs : s.cpRuns d = true)
    (good : (crc32c (rec.take 0x7C)).toNat = fieldAt rec 0x7C 4) (found : s.launches.find? (fieldAt rec 8 4) = some l)
    (need : s.pinNeed d l.partition (fieldAt rec 8 4) ((sdtEntries l.sdt).filterMap descWindow) = none) :
    OnlyDies ((s.takeMsg m).setLaunch (fieldAt rec 8 4) { l with parts := l.parts.put (fieldAt rec 0xE 1) .pending })
      (s.takeRecord m) := by
  have taken : (s.takeMsg m).launches.find? (fieldAt rec 8 4) = some l := found
  simp only [takeRecord, msg, dieOf_val, runs, good, taken, need, Bool.not_true, Bool.false_eq_true, ne_eq, not_true,
    if_false]
  exact ((OnlyDies.refl _).pinAll _ _ _).askSlot _

end

end State

/-- Settles O41: the messages that a launch's dies send one another change no object, so that what stays is the record of the
launch, and for a failed part the loss of its context. -/
theorem multiDieLaunches : Obligations.MultiDieLaunches := by
  unfold Obligations.MultiDieLaunches
  refine ⟨?choice, ?pending, ?walk, ?corrupt, ?ended, ?failed⟩
  case choice =>
    intro s m d r q l msg found good runs ok enough
    have objs := State.objects_chooseDies msg runs found good enough
    refine ⟨s.chooseDies m, rfl, (State.mem_of_objects objs).trans (State.setLaunch_mem ..), ?_⟩
    exact (congrArg (·.find? q) (State.launches_of_objects objs)).trans (State.launch_setLaunch ..)
  case pending =>
    intro s m r d rec l msg runs good found need
    have only := State.takeRecord_pending msg runs good found need
    refine ⟨s.takeRecord m, { l with parts := l.parts.put (fieldAt rec 0xE 1) .pending }, rfl, ?_, by simp, ?_, ?_⟩
    · rw [State.launches_of_objects only.objects, State.launch_setLaunch]
    · rw [only.msgAt]
      exact SMap.find?_erase_same ..
    · exact (State.mem_of_objects only.objects).trans (State.setLaunch_mem ..)
  case walk =>
    intro s m r va d rec l msg runs good found need free
    simp [exec, execDistributionRecord, State.takeRecord_walk msg runs good found need, free]
  case corrupt =>
    intro s m r d rec msg _ runs bad home
    refine ⟨s.takeRecord m, rfl, ?_, ?_⟩
    · simp [State.takeRecord_corrupt msg runs bad, home, State.sendMsg, State.deliverMsg, State.msgAt, State.takeMsg]
    · rw [State.takeRecord_corrupt msg runs bad]
      exact State.launches_of_objects (State.objects_sendMsg ..)
  case ended =>
    intro s m d r q i l msg found
    refine ⟨s.partEnded m, { l with parts := l.parts.put i .ended }, rfl, ?_, by simp, rfl, ?_⟩
    · rw [State.partEnded_ended msg found, State.launch_setLaunch]
    · rw [State.partEnded_ended msg found]
      rfl
  case failed =>
    intro s m d r q i l f n msg found good live
    obtain ⟨launch, lost⟩ := State.partEnded_failed msg found good live
    exact ⟨s.partEnded m, _, rfl, launch, by simp, rfl, lost⟩

end Sys2Proof.Machine
end

section
/-!
SUPPORT. What the work on a die leaves alone: where start-up, resets and the timebase have brought it. Control messages,
requests, event records, the loss of a context and the stop of a queue change what a die holds for them, and nothing of that
(R164 to R167, R247, R251, R274, R284 to R297, R308 to R315).
-/
namespace Sys2Proof.Machine

/-- Where start-up, resets and the timebase have brought a die. -/
structure Standing where
  stage : Stage
  startRestarts : Byte
  computeReset : Bool
  heldSupply : Bool
  heldLadder : Bool
  ticks : Nat
  count : W64
  aligned : Bool
  alignNext : Nat
  alignAt : Nat

def Die.standing (k : Die) : Standing :=
  ⟨k.stage, k.startRestarts, k.computeReset, k.heldSupply, k.heldLadder, k.ticks, k.count, k.aligned, k.alignNext,
    k.alignAt⟩

theorem SMap.find?_mapVals {β γ : Type} (m : SMap β) (f : β → γ) (k : Nat) :
    (m.mapVals f).find? k = (m.find? k).map f := by
  obtain ⟨l⟩ := m
  simp only [mapVals, find?]
  induction l with
  | nil => rfl
  | cons e l ih =>
    simp only [List.map_cons, lookup]
    split
    · rfl
    · exact ih

namespace State

/-- The standing of every die. -/
def standing (s : State) (d : DieId) : Standing := (s.die d).standing

section
variable (s : State) (d : DieId)

theorem die_stage : (s.die d).stage = (s.standing d).stage := rfl
theorem die_startRestarts : (s.die d).startRestarts = (s.standing d).startRestarts := rfl
theorem die_computeReset : (s.die d).computeReset = (s.standing d).computeReset := rfl
theorem die_heldSupply : (s.die d).heldSupply = (s.standing d).heldSupply := rfl
theorem die_alignNext : (s.die d).alignNext = (s.standing d).alignNext := rfl
theorem die_alignAt : (s.die d).alignAt = (s.standing d).alignAt := rfl

end

variable {s t : State}

/-- What every step of a fold leaves alone, the fold leaves alone. -/
theorem standing_foldl {α : Type} {f : State → α → State} (h : ∀ s a, (f s a).standing = s.standing) (l : List α)
    (s : State) : (l.foldl f s).standing = s.standing :=
  List.foldlRecOn l f (motive := fun t => t.standing = s.standing) rfl fun t same a _ => (h t a).trans same

theorem standing_foldl_fst {α β : Type} {f : State × β → α → State × β}
    (h : ∀ p a, (f p a).1.standing = p.1.standing) (l : List α) (p : State × β) : (l.foldl f p).1.standing = p.1.standing :=
  List.foldlRecOn l f (motive := fun q => q.1.standing = p.1.standing) rfl fun q same a _ => (h q a).trans same

theorem standing_of_eq {β : Type} {p : State × β} {b : β} (e : p = (t, b)) (h : p.1.standing = s.standing) :
    t.standing = s.standing := by
  rw [e] at h
  exact h

theorem standing_of_dies (h : t.dies = s.dies) : t.standing = s.standing := by
  unfold standing die
  rw [h]

theorem standing_of_die (h : ∀ e, t.die e = s.die e) : t.standing = s.standing := funext fun e => congrArg Die.standing (h e)

/-- A die's record replaced by one with its standing. -/
theorem standing_setDie {d : DieId} {v : Die} (same : t.standing = s.standing) (h : v.standing = t.standing d) :
    (t.setDie d v).standing = s.standing := by
  refine Eq.trans (funext fun e => ?_) same
  by_cases he : e = d
  · subst he
    simpa [standing] using h
  · simp [standing, die_setDie_other t d e v he]

variable (s : State) (d : DieId)

/-- The same change of every die's record. -/
theorem standing_mapDies (f : Die → Die) (h : ∀ k, (f k).standing = k.standing) :
    ({ s with dies := s.dies.mapVals f } : State).standing = s.standing := by
  funext e
  simp only [standing, die, SMap.get, SMap.find?_mapVals]
  cases s.dies.find? e.val with
  | none => rfl
  | some k => exact h k

/-! Records outside the dies. -/

@[simp] theorem standing_setLink (l : LinkId) (v : Link) : (s.setLink l v).standing = s.standing := rfl
@[simp] theorem standing_setQueue (q : QueueId) (k : Queue) : (s.setQueue q k).standing = s.standing := rfl
@[simp] theorem standing_updQueue (q : QueueId) (f : Queue → Queue) : (s.updQueue q f).standing = s.standing := rfl
@[simp] theorem standing_addReq (r : Req) : (s.addReq r).standing = s.standing := rfl
@[simp] theorem standing_deliverMsg (src dst : Nat) (m : Msg) : (s.deliverMsg src dst m).standing = s.standing := rfl
@[simp] theorem standing_fences (f : SMap FenceSig) : ({ s with fences := f } : State).standing = s.standing := rfl

/-! Faults reported to a steward (R380, R381, R421). -/

@[simp] theorem standing_setCause (bitNo code : Nat) (ssr : Bool) : (s.setCause d bitNo code ssr).standing = s.standing := rfl

@[simp] theorem die_eventRecord (code info : Nat) (e : DieId) : (s.eventRecord d code info).die e = s.die e := by
  unfold eventRecord
  dsimp only
  split
  · split <;> rfl
  · rfl

@[simp] theorem die_report (code info : Nat) (e : DieId) : (s.report d code info).die e = s.die e := by
  unfold report
  dsimp only
  split <;> split
  · exact die_eventRecord ..
  · exact die_eventRecord ..
  · rfl
  · rfl

@[simp] theorem standing_report (code info : Nat) : (s.report d code info).standing = s.standing :=
  standing_of_die (die_report s d code info)

@[simp] theorem standing_eventRecord (code info : Nat) : (s.eventRecord d code info).standing = s.standing :=
  standing_of_die (die_eventRecord s d code info)

/-! The Cuffs (R167, R273). -/

@[simp] theorem standing_setCuffB (path p : Nat) (v : Int) : (s.setCuffB d path p v).standing = s.standing :=
  standing_setDie rfl rfl

/-- The partition served last at a Cuff is noted. -/
@[simp] theorem standing_cuffLast (m : SMap Nat) : (s.setDie d { s.die d with cuffLast := m }).standing = s.standing :=
  standing_setDie rfl rfl

@[simp] theorem standing_cuffRefill (path n : Nat) : (s.cuffRefill d path n).standing = s.standing := by
  refine (standing_foldl (fun t p => ?_) _ _).trans (standing_setDie rfl rfl)
  split <;> simp

@[simp] theorem standing_cuffTake (path p n : Nat) (ahead : Bool) : (s.cuffTake d path p n ahead).standing = s.standing := by
  unfold cuffTake
  dsimp only
  split
  · rfl
  · split <;> simp

@[simp] theorem standing_cuffSlot (path : Nat) (ready : List Nat) : (s.cuffSlot d path ready).1.standing = s.standing := by
  unfold cuffSlot
  dsimp only
  split
  · simp
  · simp
  · split <;> simp

/-! The transmitter of a link (R311 to R315). -/

section
variable (l : LinkId)

@[simp] theorem standing_nextRequest (p : Nat) (reqs : List Flit) : (s.nextRequest l p reqs).1.standing = s.standing := by
  unfold nextRequest
  dsimp only
  split
  · rfl
  · exact standing_setDie rfl rfl

@[simp] theorem standing_nextFlit : (s.nextFlit l).1.standing = s.standing := by
  unfold nextFlit
  dsimp only
  split
  · split <;> simp
  · split
    · rfl
    · split
      · simp
      · split
        · rfl
        · split
          next t p h => exact (standing_nextRequest t l p _).trans (standing_of_eq h (standing_cuffSlot ..))
          next t h => exact standing_of_eq h (standing_cuffSlot ..)

@[simp] theorem standing_sendIdle : (s.sendIdle l).standing = s.standing := by
  unfold sendIdle
  dsimp only
  split <;> rfl

@[simp] theorem standing_freeVia (f : Flit) : (s.freeVia d f).standing = s.standing := by
  unfold freeVia
  split <;> simp

@[simp] theorem standing_stampSent (f : Flit) : (s.stampSent d f).standing = s.standing := by
  unfold stampSent
  split
  · rfl
  · split
    · rfl
    · split <;> rfl

@[simp] theorem standing_pumpOne : (s.pumpOne l).standing = s.standing := by
  unfold pumpOne
  dsimp only
  split
  · rfl
  · split
    next t h => exact standing_of_eq h (standing_nextFlit s l)
    next t f h => simpa using standing_of_eq h (standing_nextFlit s l)

@[simp] theorem standing_pumpN (n : Nat) : (s.pumpN l n).standing = s.standing := by
  induction n generalizing s with
  | zero => rfl
  | succ n ih => simp [pumpN, ih]

@[simp] theorem standing_enqueueFlit (f : Flit) : (s.enqueueFlit l f).standing = s.standing := by
  simp [enqueueFlit, pump]

end

@[simp] theorem standing_sendMsg (src dst : DieId) (m : Msg) : (s.sendMsg src dst m).standing = s.standing := by
  unfold sendMsg
  split
  · rfl
  · split
    · simp
    · exact standing_foldl (fun t m => standing_enqueueFlit t _ _) _ s

/-! Requests to memory and translation (R284 to R291, R295, R299, R303). -/

@[simp] theorem standing_postRecord (slot : Nat) (r : FqRec) : (s.postRecord d slot r).standing = s.standing :=
  standing_setDie rfl rfl

@[simp] theorem standing_hotCount (partition ctx range n : Nat) :
    (s.hotCount d partition ctx range n).standing = s.standing := by
  unfold hotCount
  dsimp only
  split
  · rfl
  · split
    · rfl
    · split
      · exact standing_setDie rfl rfl
      · split
        · split
          · exact (standing_postRecord ..).trans (standing_setDie rfl rfl)
          · exact standing_setDie rfl rfl
        · exact standing_setDie (standing_setDie rfl rfl) rfl

@[simp] theorem standing_sendReq (r : Req) : (s.sendReq d r).1.standing = s.standing := by
  unfold sendReq
  dsimp only
  split
  · rfl
  · split
    · rfl
    · split
      · simp
      · split
        · rfl
        · split
          · rfl
          · refine (standing_foldl (fun t m => standing_enqueueFlit t _ _) _ _).trans ?_
            simp

@[simp] theorem standing_withdraw (p : Owner → Bool) : (s.withdraw d p).standing = s.standing := standing_setDie rfl rfl

@[simp] theorem standing_startWalk (o : Owner) (partition ctx va : Nat) (acc : Access) :
    (s.startWalk d o partition ctx va acc).standing = s.standing := by
  unfold startWalk
  dsimp only
  split
  · exact standing_setDie rfl rfl
  · split <;> exact standing_setDie rfl rfl

@[simp] theorem standing_touch (key partition ctx va : Nat) : (s.touch d key partition ctx va).standing = s.standing := by
  unfold touch
  split
  · rfl
  · exact standing_setDie rfl rfl

@[simp] theorem standing_faultAccess (cause : FaultCause) (range : Nat) (o : Owner) (partition ctx va : Nat) (acc : Access) :
    (s.faultAccess d cause range o partition ctx va acc).standing = s.standing := by
  unfold faultAccess
  dsimp only
  split
  · exact standing_setDie rfl rfl
  · split
    · exact standing_postRecord ..
    · exact standing_setDie rfl rfl

@[simp] theorem standing_busAccess (partition ctx range : Nat) (ahead : Bool) (b : BusAcc) :
    (s.busAccess d partition ctx range ahead b).1.standing = s.standing := by
  unfold busAccess
  dsimp only
  split
  · rfl
  · refine standing_setDie (standing_foldl_fst (fun p i => ?_) _ _) rfl
    split
    · rfl
    · split
      next t h => exact standing_of_eq h (standing_sendReq ..)
      next => rfl
      next t h =>
        have refused : t.standing = p.1.standing := standing_of_eq h (standing_sendReq ..)
        exact refused

@[simp] theorem standing_busRead (o : Owner) (partition ctx va pa n range : Nat) (ahead : Bool) :
    (s.busRead d o partition ctx va pa n range ahead).1.standing = s.standing := standing_busAccess ..

@[simp] theorem standing_busWrite (o : Owner) (partition ctx va pa : Nat) (bs : List Byte) (range : Nat) (ahead : Bool) :
    (s.busWrite d o partition ctx va pa bs range ahead).1.standing = s.standing := standing_busAccess ..

@[simp] theorem standing_busDone (o : Owner) : (s.busDone d o).standing = s.standing := standing_setDie rfl rfl

@[simp] theorem standing_xlateSegs (o : Owner) (partition ctx va : Nat) (acc : Access) :
    (s.xlateSegs d o partition ctx va acc).1.standing = s.standing := by
  unfold xlateSegs
  dsimp only
  split
  next t h => exact standing_of_eq h (standing_busRead ..)
  next t _ h => exact standing_of_eq h (standing_busRead ..)
  next t blk h =>
    have read : t.standing = s.standing := standing_of_eq h (standing_busRead ..)
    split
    · exact read
    · split
      · exact read
      · split
        · exact read
        · split <;> exact read

@[simp] theorem standing_xlateNow (o : Owner) (partition ctx va : Nat) (acc : Access) :
    (s.xlateNow d o partition ctx va acc).1.standing = s.standing := by
  unfold xlateNow
  split
  · rfl
  · split
    · split <;> simp
    · split <;> simp
    · simp
    · rfl

/-! Event records (R251, R275). -/

@[simp] theorem standing_writeEvent (p r : Nat) (rec : EventRec) (n : Nat) :
    (s.writeEvent d p r rec n).1.standing = s.standing := by
  unfold writeEvent
  dsimp only
  split
  · rfl
  · split
    next t pa range h =>
      have found := standing_of_eq h (standing_xlateNow ..)
      split
      next u _ hw =>
        have written : u.standing = s.standing := standing_of_eq hw ((standing_busWrite ..).trans found)
        split <;> exact (standing_busDone ..).trans written
      next u _ hw => exact (standing_busDone ..).trans (standing_of_eq hw ((standing_busWrite ..).trans found))
      next u hw => exact standing_of_eq hw ((standing_busWrite ..).trans found)
    next t c range h => exact (standing_faultAccess ..).trans (standing_of_eq h (standing_xlateNow ..))
    next t h => exact standing_of_eq h (standing_xlateNow ..)
    next t _ _ h => exact (standing_busDone ..).trans (standing_of_eq h (standing_xlateNow ..))

@[simp] theorem standing_waitEvent (n p r : Nat) (rec : EventRec) : (s.waitEvent d n p r rec).standing = s.standing :=
  standing_setDie (standing_setDie rfl rfl) rfl

@[simp] theorem standing_tryEvent (p r : Nat) (rec : EventRec) : (s.tryEvent d p r rec).1.standing = s.standing := by
  unfold tryEvent
  dsimp only
  split
  · simp
  · split
    next t h => exact standing_of_eq h (standing_writeEvent ..)
    next t h => exact (standing_waitEvent ..).trans (standing_of_eq h (standing_writeEvent ..))
    next t _ _ h => exact standing_of_eq h (standing_writeEvent ..)

@[simp] theorem standing_logUndeliverable (p : Nat) (rec : EventRec) :
    (s.logUndeliverable d p rec).standing = s.standing := by
  have log : (s.logOverflow d rec).standing = s.standing := by
    unfold logOverflow
    dsimp only
    split <;> exact standing_setDie rfl rfl
  exact (standing_tryEvent ..).trans log

@[simp] theorem standing_dropEvents (p : Nat × Nat × Nat × EventRec → Bool) : (s.dropEvents d p).standing = s.standing :=
  standing_setDie (standing_withdraw ..) rfl

/-! Table entries in device memory (R232, R240, R241). -/

@[simp] theorem standing_writeBytes (pa : Nat) (bs : List Byte) : (s.writeBytes pa bs).standing = s.standing := by
  induction bs generalizing s pa with
  | nil => rfl
  | cons b bs ih => exact ih ..

@[simp] theorem standing_putCtx (n : Nat) (c : Ctx) : (s.putCtx n c).standing = s.standing := by
  simp only [putCtx, syncCtx, standing_writeBytes]
  rfl

@[simp] theorem standing_putMo (h : Nat) (m : MemObj) : (s.putMo h m).standing = s.standing := by
  simp only [putMo, syncMo, standing_writeBytes]
  rfl

@[simp] theorem standing_syncQueue (q : QueueId) : (s.syncQueue q).standing = s.standing := by
  simp only [syncQueue, standing_writeBytes]

@[simp] theorem standing_putQueue (q : QueueId) (k : Queue) : (s.putQueue q k).standing = s.standing :=
  standing_syncQueue ..

@[simp] theorem standing_dropRefs (hs : List Nat) : (s.dropRefs d hs).standing = s.standing := by
  fun_induction dropRefs s d hs with
  | case1 => rfl
  | case2 s h hs m ih => exact ih.trans (standing_putMo ..)

@[simp] theorem standing_unpin (tag : Nat × Nat) : (s.unpin tag).standing = s.standing :=
  standing_mapDies s _ fun _ => rfl

/-! The stop of a launch, and what a lost context gives up (R113, R181, R247, R295, R322). -/

@[simp] theorem standing_stopCore (c : CoreId) : (s.stopCore c).standing = s.standing := standing_withdraw ..

@[simp] theorem standing_withdrawImages (q : Nat) : (s.withdrawImages q d).standing = s.standing := standing_withdraw ..

@[simp] theorem standing_stopPart (q : Nat) : (s.stopPart q d).standing = s.standing :=
  (standing_withdrawImages ..).trans (standing_foldl standing_stopCore _ _)

@[simp] theorem standing_stopLaunch (q : Nat) : (s.stopLaunch q).standing = s.standing :=
  (standing_foldl (fun t _ => standing_sendMsg t _ _ _) _ _).trans (standing_stopPart ..)

@[simp] theorem standing_withdrawCtx (n : Nat) : (s.withdrawCtx n).standing = s.standing := by
  refine (standing_of_dies rfl).trans ((standing_foldl (fun t d => standing_withdraw t d _) _ _).trans ?_)
  exact standing_foldl (fun t d => standing_dropEvents t d _) _ s

@[simp] theorem standing_dirtyStores (n : Nat) : (s.dirtyStores n).standing = s.standing := rfl

@[simp] theorem standing_postLost (n : Nat) : (s.postLost n).standing = s.standing := by
  unfold postLost
  dsimp only
  split
  · rfl
  · split
    next t h => exact standing_of_eq h ((standing_tryEvent ..).trans (standing_putCtx ..))
    next t _ h =>
      exact (standing_logUndeliverable ..).trans (standing_of_eq h ((standing_tryEvent ..).trans (standing_putCtx ..)))

@[simp] theorem standing_lose (home : DieId) (n code cls : Nat) (rec : FaultRec) :
    (s.lose home n code cls rec).standing = s.standing := by
  unfold lose
  dsimp only
  split
  · rfl
  · refine (standing_foldl standing_stopLaunch _ _).trans ?_
    rw [standing_withdrawCtx, standing_dirtyStores]
    have waits (t : State) (l : List DieId) : (l.foldl (fun s d =>
        s.setDie d { s.die d with slotWait := (s.die d).slotWait.filter (· ≠ n) }) t).standing = t.standing :=
      standing_foldl (fun u e => by exact standing_setDie rfl rfl) l t
    split
    · rw [waits]
      split
      · split <;> simp
      · simp
    · rw [standing_postLost, waits]
      split
      · split <;> simp
      · simp

@[simp] theorem standing_eventFailed (p : Nat) (rec : EventRec) (code info : Nat) :
    (s.eventFailed d p rec code info).standing = s.standing := by
  unfold eventFailed
  split <;> simp

@[simp] theorem standing_postEvent (p r : Nat) (rec : EventRec) : (s.postEvent d p r rec).standing = s.standing := by
  unfold postEvent
  split
  next t h => exact standing_of_eq h (standing_tryEvent ..)
  next t _ _ h => exact (standing_eventFailed ..).trans (standing_of_eq h (standing_tryEvent ..))

@[simp] theorem standing_objEvent (r : ObjReq) (p ctx queue result : Nat) (value : W64) :
    (s.objEvent r p ctx queue result value).standing = s.standing := standing_postEvent ..

/-! The end of a launch, and the stop of a queue (R248, R266, R274, R297). -/

@[simp] theorem standing_holdCores : (s.holdCores d).standing = s.standing := by
  unfold holdCores
  split
  · rfl
  · exact standing_setDie rfl rfl

@[simp] theorem standing_endLaunch (q : Nat) (lost : Bool) : (s.endLaunch q lost).standing = s.standing := by
  refine (standing_foldl standing_holdCores _ _).trans (Eq.trans ?_
    (standing_foldl (fun t d => standing_withdrawImages t d q) s.allDies s))
  exact standing_mapDies _ _ fun _ => rfl

@[simp] theorem standing_stopDone (q : QueueId) : (s.stopDone q).standing = s.standing := by
  unfold stopDone
  dsimp only
  split
  · rfl
  · split
    · simp
    · have freed (t : State) (l : List Accepted) :
          (l.foldl (fun s a => (s.dropRefs q.die a.refs).unpin (q.key, a.pos)) t).standing = t.standing :=
        standing_foldl (fun _ _ => by simp) l t
      split <;> simp [freed]

@[simp] theorem standing_dropInval (q : QueueId) : (s.dropInval q).standing = s.standing :=
  standing_mapDies s _ fun _ => rfl

@[simp] theorem standing_retryEvents : s.retryEvents.standing = s.standing := by
  refine standing_foldl_fst (fun p e => ?_) _ _
  dsimp only
  split
  · rfl
  · split
    next u h => exact standing_setDie (standing_of_eq h (standing_writeEvent ..)) rfl
    next u h => exact standing_of_eq h (standing_writeEvent ..)
    next u _ _ h => exact (standing_eventFailed ..).trans (standing_setDie (standing_of_eq h (standing_writeEvent ..)) rfl)

@[simp] theorem standing_beginStop (q : QueueId) : (s.beginStop q).standing = s.standing := by
  unfold beginStop
  dsimp only
  split
  · simp
  · rw [standing_stopDone, standing_foldl fun t _ => standing_sendMsg t _ _ _, standing_retryEvents, standing_dropInval,
      standing_fences, standing_dropEvents, standing_withdraw, standing_setQueue]

@[simp] theorem standing_stopAck (q : QueueId) (unit : Nat) : (s.stopAck q unit).standing = s.standing :=
  standing_stopDone ..

/-! The commands of a ring that is walked without execution, and their signals (R245, R248, R274). -/

@[simp] theorem standing_fenceXlate (n : Nat) (f : FenceSig) : (s.fenceXlate d n f).1.standing = s.standing := by
  unfold fenceXlate
  dsimp only
  split
  next t _ _ h => exact (standing_xlateNow ..).trans (standing_of_eq h (standing_xlateNow ..))
  next => exact standing_xlateNow ..

@[simp] theorem standing_fenceSend (n : Nat) : (s.fenceSend n).standing = s.standing := by
  unfold fenceSend
  split
  · rfl
  · dsimp only
    split
    next t pa range h =>
      have found : t.standing = s.standing := standing_of_eq h (standing_fenceXlate ..)
      split
      · rw [standing_sendMsg, standing_fences]
        split <;> simp [found]
      · exact (standing_sendMsg ..).trans ((standing_report ..).trans ((standing_busDone ..).trans found))
    next t c r h => exact (standing_faultAccess ..).trans (standing_of_eq h (standing_fenceXlate ..))
    next t h => exact standing_of_eq h (standing_fenceXlate ..)
    next t code info h =>
      have found : t.standing = s.standing := standing_of_eq h (standing_fenceXlate ..)
      split
      · exact (standing_sendMsg ..).trans ((standing_busDone ..).trans found)
      · exact (standing_lose ..).trans ((standing_busDone ..).trans found)

@[simp] theorem standing_walkSignal (f : FenceSig) : (s.walkSignal f).1.standing = s.standing := by
  unfold walkSignal
  split
  · simp [fenceLost]
  · exact (standing_fenceSend _ _).trans (standing_of_dies rfl)

@[simp] theorem standing_walkSend (q : QueueId) (status : W32) (l : List (W64 × W64)) :
    (s.walkSend q status l).1.standing = s.standing := by
  induction l generalizing s with
  | nil => rfl
  | cons x xs ih =>
    unfold walkSend
    dsimp only
    split
    · rfl
    · split
      next t h => exact standing_of_eq h (standing_walkSignal ..)
      next t h => exact (ih _).trans ((standing_updQueue ..).trans (standing_of_eq h (standing_walkSignal ..)))

@[simp] theorem standing_xlatePieces (o : Owner) (p ctx : Nat) (acc : Access) (l : List (Nat × Nat)) :
    (s.xlatePieces d o p ctx acc l).1.standing = s.standing := by
  induction l generalizing s with
  | nil => rfl
  | cons e es ih =>
    unfold xlatePieces
    split
    next t pa r h =>
      have found : t.standing = s.standing := standing_of_eq h (standing_xlateNow ..)
      split
      next u l hl => exact standing_of_eq hl ((ih t).trans found)
      next u x hl => exact standing_of_eq hl ((ih t).trans found)
    next t c r h => exact standing_of_eq h (standing_xlateNow ..)
    next t h => exact standing_of_eq h (standing_xlateNow ..)
    next t code info h =>
      have found : t.standing = s.standing := standing_of_eq h (standing_xlateNow ..)
      split
      · exact found
      · exact (standing_lose ..).trans found

@[simp] theorem standing_readVa (o : Owner) (p ctx va n : Nat) (acc : Access) (ahead : Bool) :
    (s.readVa d o p ctx va n acc ahead).1.standing = s.standing := by
  unfold readVa
  split
  next t x h => exact standing_of_eq h (standing_xlatePieces ..)
  next t l h =>
    refine (standing_foldl_fst (fun p e => ?_) l _).trans (standing_of_eq h (standing_xlatePieces ..))
    split
    · split
      next u x hr => exact standing_of_eq hr (standing_busRead ..)
      next u x hr => exact standing_of_eq hr (standing_busRead ..)
      next u hr => exact standing_of_eq hr (standing_busRead ..)
    · rfl

@[simp] theorem standing_walkRead (q : QueueId) (va n : Nat) : (s.walkRead q va n).1.standing = s.standing := by
  unfold walkRead
  dsimp only
  split
  next t bs h => exact standing_of_eq h (standing_readVa ..)
  next t h => exact standing_of_eq h (standing_readVa ..)
  next t a h => exact standing_of_eq h (standing_readVa ..)
  next t c r a h =>
    have read : t.standing = s.standing := standing_of_eq h (standing_readVa ..)
    split
    · exact read
    · exact (standing_faultAccess ..).trans read

@[simp] theorem standing_walkCmd (q : QueueId) : (s.walkCmd q).1.standing = s.standing := by
  unfold walkCmd
  dsimp only
  split
  · rfl
  · split
    next t h => exact standing_of_eq h (standing_walkRead ..)
    next t h => exact standing_of_eq h (standing_walkRead ..)
    next t b h =>
      have head : t.standing = s.standing := standing_of_eq h (standing_walkRead ..)
      split
      · exact head
      · split
        · exact head
        · split
          next u hb => exact standing_of_eq hb ((standing_walkRead ..).trans head)
          next u hb => exact standing_of_eq hb ((standing_walkRead ..).trans head)
          next u b hb => exact standing_of_eq hb ((standing_walkRead ..).trans head)

@[simp] theorem standing_walkFree (q : QueueId) (lo hi : Nat) : (s.walkFree q lo hi).standing = s.standing := by
  refine (standing_updQueue ..).trans (standing_foldl (fun t a => ?_) _ s)
  simp

@[simp] theorem standing_walkTo (q : QueueId) (pos : Nat) : (s.walkTo q pos).standing = s.standing :=
  (standing_putQueue ..).trans (standing_busDone ..)

@[simp] theorem standing_walkBuf (q : QueueId) (bufs : List (Nat × List Byte)) (depth : Nat) (span : Nat × Nat) :
    (s.walkBuf q bufs depth span).1.standing = s.standing := by
  induction depth generalizing s span with
  | zero => rfl
  | succ depth ih =>
    unfold walkBuf
    have read (t : State) (e : Option (Nat × List Byte)) (off n : Nat) : (match e with
        | some e => (t, WalkGet.ok ((e.2.drop off).take n))
        | none => t.walkRead q (span.1 + off) n).1.standing = t.standing := by
      cases e
      · exact standing_walkRead ..
      · rfl
    refine standing_foldl_fst (fun p e => ?_) _ _
    dsimp only
    split
    next t l off =>
      split
      · rfl
      · split
        next u h => exact standing_of_eq h (read ..)
        next u h => exact standing_of_eq h (read ..)
        next u b h =>
          have head : u.standing = t.standing := standing_of_eq h (read ..)
          split
          · exact head
          · split
            next v hb => exact standing_of_eq hb ((read ..).trans head)
            next v hb => exact standing_of_eq hb ((read ..).trans head)
            next v b hb =>
              have whole : v.standing = t.standing := standing_of_eq hb ((read ..).trans head)
              split
              · exact whole
              · split
                · split
                  next w l' hw => exact standing_of_eq hw ((ih ..).trans whole)
                  next w l' hw => exact standing_of_eq hw ((ih ..).trans whole)
                · exact whole
    next => rfl

@[simp] theorem standing_walkSignals (q : QueueId) (a : Accepted) : (s.walkSignals q a).1.standing = s.standing := by
  unfold walkSignals
  split
  · rfl
  · split
    · exact standing_walkBuf ..
    · rfl

@[simp] theorem standing_walkRing (q : QueueId) (status : W32) (fuel : Nat) :
    (s.walkRing q status fuel).1.standing = s.standing := by
  induction fuel generalizing s with
  | zero => rfl
  | succ fuel ih =>
    unfold walkRing
    dsimp only
    split
    · rfl
    · split
      next t h => exact standing_of_eq h (standing_walkCmd ..)
      next t h =>
        exact (standing_walkTo ..).trans ((standing_updQueue ..).trans ((standing_walkFree ..).trans
          (standing_of_eq h (standing_walkCmd ..))))
      next t h => exact (standing_busDone ..).trans (standing_of_eq h (standing_walkCmd ..))
      next t a h =>
        have signals : ((t.walkFree q a.pos (a.pos + 1)).walkSignals q a).1.standing = s.standing :=
          (standing_walkSignals ..).trans ((standing_walkFree ..).trans (standing_of_eq h (standing_walkCmd ..)))
        split
        next v hv => exact standing_of_eq hv ((standing_walkSend ..).trans signals)
        next v hv =>
          have sent : v.standing = s.standing := standing_of_eq hv ((standing_walkSend ..).trans signals)
          split
          · exact sent
          · exact (ih _).trans ((standing_walkTo ..).trans sent)

@[simp] theorem standing_destroyWalk (q : QueueId) : (s.destroyWalk q).standing = s.standing := by
  unfold destroyWalk
  dsimp only
  split
  · rfl
  · split
    next t h =>
      exact (standing_beginStop ..).trans ((standing_updQueue ..).trans (standing_of_eq h (standing_walkRing ..)))
    next t h => exact standing_of_eq h (standing_walkRing ..)

/-! What a die takes up again when its compute part has left reset (R353, R362, R363, Table 15-4). -/

@[simp] theorem standing_askSlot (ctx : Nat) : (s.askSlot d ctx).standing = s.standing := by
  unfold askSlot
  dsimp only
  split
  · rfl
  · exact standing_setDie rfl rfl

@[simp] theorem standing_ringDone (q : QueueId) : (s.ringDone q).standing = s.standing := by
  unfold ringDone
  split
  · rfl
  · simp

@[simp] theorem standing_ranOn (ctx : Nat) : (s.ranOn d ctx).standing = s.standing := standing_setDie rfl rfl

@[simp] theorem standing_cmdDone (q : QueueId) (len : Nat) : (s.cmdDone q len).standing = s.standing := by
  unfold cmdDone
  dsimp only
  split <;> split <;> simp

@[simp] theorem standing_invalAck (q : QueueId) : (s.invalAck q d).standing = s.standing := by
  unfold invalAck
  dsimp only
  split
  · split
    · rfl
    · have root (c : Prop) [Decidable c] (m : SMap Bool) :
          (if c then ({ s with rootInval := m } : State) else s).standing = s.standing := by split <;> rfl
      split
      · exact (standing_stopAck ..).trans (root _ _)
      · exact (standing_cmdDone ..).trans (root _ _)
  · rfl

@[simp] theorem standing_resumeCompute : (s.resumeCompute d).standing = s.standing := by
  refine (standing_foldl (fun t e => ?queue) _ _).trans
    ((standing_foldl (fun t e => ?ack) _ _).trans (standing_setDie rfl rfl))
  case ack =>
    dsimp only
    split <;> simp
  case queue =>
    dsimp only
    split
    · rfl
    · split
      · simp
      · split <;> simp

@[simp] theorem standing_ackReset (c : CoreId) : (s.ackReset c).standing = s.standing := by
  unfold ackReset
  dsimp only
  split
  · rfl
  · split
    · exact standing_sendMsg ..
    · rfl

@[simp] theorem standing_coresBack (u : ResetUnit) : (s.coresBack u).standing = s.standing :=
  standing_foldl (fun t c => standing_ackReset (t.updCore c _) c) _ s

@[simp] theorem standing_linkDown (l : LinkId) : (s.linkDown l).standing = s.standing := by
  unfold linkDown startTraining
  dsimp only
  split
  · rfl
  · split <;> rfl

@[simp] theorem standing_linksReleased : (s.linksReleased d).standing = s.standing :=
  standing_foldl standing_linkDown _ s

@[simp] theorem standing_setRegion (r : Nat) (v : Region) : (s.setRegion d r v).standing = s.standing := rfl

@[simp] theorem standing_startPlans : (s.startPlans d).standing = s.standing := by
  unfold startPlans
  dsimp only
  split
  · rfl
  · refine standing_foldl (fun t r => ?_) _ s
    split <;> rfl

@[simp] theorem standing_beginStartPlan : (s.beginStartPlan d).standing = s.standing :=
  (standing_startPlans ..).trans ((standing_foldl (fun t _ => standing_setRegion t d _ _) _ _).trans rfl)

@[simp] theorem standing_setCluster (k : ClusterId) (v : Cluster) : (s.setCluster k v).standing = s.standing := rfl

@[simp] theorem standing_enableUnits : (s.enableUnits d).standing = s.standing := by
  refine standing_foldl (fun t k => ?_) _ s
  dsimp only
  rw [standing_setCluster]
  exact standing_foldl (fun u c => by exact standing_of_dies rfl) _ t

/-! An alignment that starts, or waits to start, and the release of the compute part (R343, R353, R402). -/

/-- The same state, or one with another record of the alignment of a die. -/
def Realigns (d : DieId) (s t : State) : Prop :=
  t = s ∨ ∃ a p n x u, t = s.setDie d { s.die d with
    aligning := a, alignPeriodic := p, alignNext := n, exchanges := x, alignDue := u }

theorem startAlign_realigns (periodic : Bool) : Realigns d s (s.startAlign d periodic) := by
  unfold startAlign
  dsimp only
  split
  · exact .inl rfl
  · split
    · exact .inr ⟨_, _, _, _, _, rfl⟩
    · exact .inr ⟨_, _, _, _, _, rfl⟩

theorem alignAgain_realigns : Realigns d s (s.alignAgain d) := by
  unfold alignAgain
  split
  · exact startAlign_realigns s d false
  · exact .inl rfl

namespace Realigns

variable {s d} (h : Realigns d s t)
include h

theorem die : ∃ a p n x u, t.die d =
    { s.die d with aligning := a, alignPeriodic := p, alignNext := n, exchanges := x, alignDue := u } := by
  obtain rfl | ⟨a, p, n, x, u, rfl⟩ := h
  · exact ⟨_, _, _, _, _, rfl⟩
  · exact ⟨a, p, n, x, u, die_setDie ..⟩

theorem die_other {e : DieId} (other : e ≠ d) : t.die e = s.die e := by
  obtain rfl | ⟨_, _, _, _, _, rfl⟩ := h
  · rfl
  · exact die_setDie_other _ _ _ _ other

theorem mem : t.mem = s.mem := by obtain rfl | ⟨_, _, _, _, _, rfl⟩ := h <;> rfl
theorem cores : t.cores = s.cores := by obtain rfl | ⟨_, _, _, _, _, rfl⟩ := h <;> rfl
theorem net (e : DieId) : t.net e = s.net e := by obtain rfl | ⟨_, _, _, _, _, rfl⟩ := h <;> rfl

theorem standing : ∃ n, t.standing d = { s.standing d with alignNext := n } := by
  obtain ⟨a, p, n, x, u, record⟩ := h.die
  exact ⟨n, by rw [State.standing, record]; rfl⟩

end Realigns

/-- What a release does about units, links and the alignment leaves the rest of the standing alone. -/
theorem standing_released : ∃ n,
    ((((s.enableUnits d).coresBack (.die d)).linksReleased d).startAlign d false).standing d =
      { s.standing d with alignNext := n } := by
  obtain ⟨n, same⟩ := (startAlign_realigns (((s.enableUnits d).coresBack (.die d)).linksReleased d) d false).standing
  exact ⟨n, same.trans (by simp)⟩

/-- The compute part is out of reset; the stage, what holds the part, and the count of restarts are as they were. -/
theorem standing_computeRelease : ∃ n, (s.computeRelease d).standing d = { s.standing d with
    computeReset := false, aligned := (s.die d).aligned || decide (d = die0), alignNext := n } := by
  have start (t : State) : (if t.caroriRuns d then t.beginStartPlan d else t).standing = t.standing := by
    split <;> simp
  unfold computeRelease
  dsimp only
  rw [start, standing_resumeCompute]
  generalize released : s.setDie d _ = u
  obtain ⟨n, same⟩ := standing_released u d
  refine ⟨n, same.trans ?_⟩
  rw [← released, standing, die_setDie]
  rfl

end State
end Sys2Proof.Machine
end

section
/-!
SUPPORT. Reports to the steward, samples of the monitors and requests for a plan: what they set, and the die's record that they
leave alone (R380, R381, R390, R447, Table 19-3).
-/
namespace Sys2Proof.Machine
namespace State

variable (s : State) (d : DieId)

/-! Reports whose INFO is free, and the outputs that a report sets. -/

@[simp] theorem die_reportFree (code : Nat) (e : DieId) : (s.reportFree d code).die e = s.die e := die_report ..

theorem cores_report (code info : Nat) : (s.report d code info).cores = s.cores := by
  have record (t : State) : (t.eventRecord d code info).cores = t.cores := by
    unfold eventRecord
    dsimp only
    split
    · split <;> rfl
    · rfl
  unfold report
  dsimp only
  split <;> split
  · exact record _
  · exact record _
  · rfl
  · rfl

/-- The journal's record of an event leaves the safety outputs alone. -/
theorem safety_eventRecord (code info : Nat) : ((s.eventRecord d code info).steward d).safety = (s.steward d).safety := by
  unfold eventRecord eventRecord.fresh journal
  dsimp only
  split
  · split <;> simp
  · simp

theorem bitAt_or_two_pow {n b : Nat} (c : BitVec n) (h : b < n) : bitAt (c ||| BitVec.ofNat n (2 ^ b)).toNat b = true := by
  have fits : 2 ^ b % 2 ^ n = 2 ^ b := Nat.mod_eq_of_lt (Nat.pow_lt_pow_right Nat.one_lt_two h)
  rw [bitAt, BitVec.toNat_or, BitVec.toNat_ofNat, fits, Nat.testBit_or, Nat.testBit_two_pow_self, Bool.or_true]

theorem safety_setCause {b : Nat} (code : Nat) (ssr : Bool) (hb : b < 13) :
    let f := ((s.setCause d b code ssr).steward d).safety
    bitAt f.causes.toNat b = true ∧ f.ssrLatch = ((s.steward d).safety.ssrLatch || ssr) := by
  simp only [setCause, steward_setSteward, and_true]
  exact bitAt_or_two_pow _ hb

/-- A report sets the CAUSE bit of its code, and SSR_LATCH where the code does (Table 19-3). -/
theorem safety_report {code b : Nat} {ssr : Bool} (info : Nat) (cause : causeOf code = (some b, ssr)) (hb : b < 13) :
    let f := ((s.report d code info).steward d).safety
    bitAt f.causes.toNat b = true ∧ f.ssrLatch = ((s.steward d).safety.ssrLatch || ssr) := by
  unfold report
  simp only [cause]
  split
  · rw [safety_eventRecord]
    exact safety_setCause s d code ssr hb
  · exact safety_setCause s d code ssr hb

/-- The same of a report whose INFO is free. -/
theorem safety_reportFree {code b : Nat} {ssr : Bool} (cause : causeOf code = (some b, ssr)) (hb : b < 13) :
    let f := ((s.reportFree d code).steward d).safety
    bitAt f.causes.toNat b = true ∧ f.ssrLatch = ((s.steward d).safety.ssrLatch || ssr) :=
  safety_report _ d _ cause hb

theorem cores_reportFree (code : Nat) : (s.reportFree d code).cores = s.cores := cores_report ..

/-! The monitors take a sample, and a plan is asked for: neither changes a die's record. -/

theorem die_draw (e : DieId) : s.draw.2.die e = s.die e := rfl

theorem die_hmTake (i : Nat) (v : W32) (e : DieId) : (s.hmTake d i v).die e = s.die e := by
  simp only [hmTake, apply_ite (fun t : State => t.die e), setMonitor_die_of, die_draw, ite_self]

@[simp] theorem die_hmEvent (src : Nat) (sel : Nat → Bool) (v : W32) (e : DieId) :
    (s.hmEvent d src sel v).die e = s.die e := by
  refine List.foldlRecOn _ _ (motive := fun t : State => t.die e = s.die e) rfl fun t same i _ => ?_
  dsimp only
  split
  · exact (die_hmTake ..).trans same
  · exact same

/-- The region alone notes that a plan is asked for. -/
theorem askPlan_keeps_die_and_safety (kind : PlanKind) (r : Nat) : (∀ e, (s.askPlan d kind r).die e = s.die e) ∧
    ((s.askPlan d kind r).steward d).safety = (s.steward d).safety := by
  unfold askPlan
  dsimp only
  split
  · exact ⟨fun _ => rfl, rfl⟩
  · exact ⟨fun _ => rfl, by simp [setRegion]⟩

theorem askPlans_keep_die_and_safety (kind : PlanKind) (rs : List Nat) :
    (∀ e, (rs.foldl (fun s r => s.askPlan d kind r) s).die e = s.die e) ∧
      ((rs.foldl (fun s r => s.askPlan d kind r) s).steward d).safety = (s.steward d).safety := by
  refine List.foldlRecOn rs _
    (motive := fun t : State => (∀ e, t.die e = s.die e) ∧ (t.steward d).safety = (s.steward d).safety)
    ⟨fun _ => rfl, rfl⟩ fun t same r _ => ?_
  obtain ⟨die, safety⟩ := askPlan_keeps_die_and_safety t d kind r
  exact ⟨fun e => (die e).trans (same.1 e), safety.trans same.2⟩

end State
end Sys2Proof.Machine
end

section
/-!
PROOFS. The supply and the rate monitor (02_handshake_fabric.md, R31, R33; R476, R485).
-/
namespace Sys2Proof.Machine

namespace State

variable {s : State} {d : DieId}

/-- The state in which a dip of the supply has been noted and reported: the compute part is not reset yet (R31). -/
def dipNoted (s : State) (d : DieId) : State := (s.setDie d { s.die d with heldSupply := true }).reportFree d 0x0203

theorem supplyDip_held (on : (s.die d).stage ≠ .held) (up : (s.die d).heldSupply = false)
    (rst : (s.die d).computeReset = true) :
    s.supplyDip d = s.dipNoted d := by
  simp [supplyDip, dipNoted, on, up, rst]

theorem supplyDip_released (on : (s.die d).stage ≠ .held) (up : (s.die d).heldSupply = false)
    (out : (s.die d).computeReset = false) : s.supplyDip d = ((s.dipNoted d).resetCompute d).linksReset d := by
  simp [supplyDip, dipNoted, on, up, out]

variable (s d)

theorem die_dipNoted : (s.dipNoted d).die d = { s.die d with heldSupply := true } := by simp [dipNoted]

theorem safety_dipNoted : bitAt ((s.dipNoted d).steward d).safety.causes.toNat 3 = true ∧
    ((s.dipNoted d).steward d).safety.ssrLatch = true := by
  obtain ⟨cause, latch⟩ :=
    safety_reportFree (s.setDie d { s.die d with heldSupply := true }) d (code := 0x0203) rfl (by decide)
  exact ⟨cause, latch.trans (Bool.or_true _)⟩

theorem cores_dipNoted : (s.dipNoted d).cores = s.cores := cores_reportFree ..

variable {s d}

/-- A supply that recovers before the compute part was first released only lifts the hold (R31, R476). -/
theorem supplyRecovery_boot (held : (s.die d).heldSupply = true) (boot : (s.die d).stage = .boot) :
    s.supplyRecovery d = s.setDie d { s.die d with heldSupply := false } := by
  simp [supplyRecovery, held, boot]

/-- The state in which a die is back in PLAN, with the restart counted, before its compute part is released (R485). -/
def backInPlan (s : State) (d : DieId) : State :=
  ((s.setDie d { s.die d with heldSupply := false }).setDie d { s.die d with
    heldSupply := false, startRestarts := satInc (s.die d).startRestarts, reported := false }).enterStage d .plan

/-- One that recovers in LINKS goes back to PLAN and releases the compute part (R31, R485). -/
theorem supplyRecovery_links (held : (s.die d).heldSupply = true) (links : (s.die d).stage = .links)
    (ladder : (s.die d).heldLadder = false) (reset : (s.die d).dieReset = false) :
    s.supplyRecovery d = (s.backInPlan d).computeRelease d := by
  simp [supplyRecovery, backInPlan, held, links, ladder, reset]

theorem standing_backInPlan (s : State) (d : DieId) : (s.backInPlan d).standing d = { s.standing d with
    heldSupply := false, stage := .plan, startRestarts := satInc (s.die d).startRestarts } := by
  simp only [backInPlan, enterStage, standing, die_setDie]
  rfl

/-- A window's rate is below 1,200 at a request of 0x3C or more (R33). -/
def rateLow (s : State) (d : DieId) (rate : W16) : Bool := decide (rate.toNat < 1200) && decide (0x3C ≤ (s.steward d).vreq)

/-- The die's record when a window has noted its rate. -/
def rateDie (s : State) (d : DieId) (rate : W16) : Die := { s.die d with
  rate := rate
  rateMin := if rate.toNat < (s.die d).rateMin.toNat then rate else (s.die d).rateMin
  belowFloor := (s.die d).belowFloor || s.rateLow d rate
  windowAt := (s.die d).ticks }

/-- The state in which the rate of a window has been noted, and taken as a sample. -/
def rateNoted (s : State) (d : DieId) (rate : W16) : State :=
  (s.setDie d (s.rateDie d rate)).hmEvent d 5 (fun n => decide (n = 0)) (rate.truncate 32)

section
variable {rate : W16} (out : (s.die d).computeReset = false) (full : 1000 ≤ s.since d (s.die d).windowAt)
include out full

/-- A complete window is noted; a low rate is reported, and a plan asked for in every region (R33, R381). -/
theorem rateWindow_complete : s.rateWindow d rate =
    if s.rateLow d rate then ((s.rateNoted d rate).regionsOn d).foldl (fun s r => s.askPlan d .periodic r)
      ((s.rateNoted d rate).reportFree d 0x0202)
    else s.rateNoted d rate := by
  simp [rateWindow, rateNoted, rateDie, rateLow, out, Nat.not_lt.mpr full]

theorem die_rateWindow : (s.rateWindow d rate).die d = s.rateDie d rate := by
  have noted : (s.rateNoted d rate).die d = s.rateDie d rate := by simp [rateNoted]
  rw [rateWindow_complete out full]
  split
  · rw [(askPlans_keep_die_and_safety _ d _ _).1, die_reportFree, noted]
  · exact noted

theorem cause_rateWindow (low : s.rateLow d rate = true) :
    bitAt ((s.rateWindow d rate).steward d).safety.causes.toNat 4 = true := by
  rw [rateWindow_complete out full, if_pos low, (askPlans_keep_die_and_safety ..).2]
  exact (safety_reportFree (s.rateNoted d rate) d (code := 0x0202) rfl (by decide)).1

end

end State

section
variable {s : State} {d : DieId} (h : s.hasDie d = true)
include h

theorem exec_supplyDip : exec (.supplyDip d) s = .next (s.supplyDip d) := by
  simp [exec, execSupplyDip, onDie, h]

theorem exec_supplyRecovery : exec (.supplyRecovery d) s = .next (s.supplyRecovery d) := by
  simp [exec, execSupplyRecovery, onDie, h]

theorem exec_rateWindow (rate : W16) : exec (.rateWindow d rate) s = .next (s.rateWindow d rate) := by
  simp [exec, execRateWindow, onDie, h]

end

/-- Settles O52: each command's effect is one lemma; what a release of the compute part does beside leaves the die's standing
alone. -/
theorem supplyAndRate : Obligations.SupplyAndRate := by
  unfold Obligations.SupplyAndRate
  refine ⟨?dipHeld, ?dipReleased, ?recoveryBoot, ?recoveryLinks, ?window⟩
  case dipHeld =>
    intro s d hd on up rst
    obtain ⟨cause, latch⟩ := State.safety_dipNoted s d
    refine ⟨s.dipNoted d, ?_, ?_, ?_, cause, latch⟩
    · rw [exec_supplyDip hd, State.supplyDip_held on up rst]
    · rw [State.die_dipNoted]
    · rw [State.die_dipNoted]
      exact rst
  case dipReleased =>
    intro s d hd on up out
    obtain ⟨cause, latch⟩ := State.safety_dipNoted s d
    refine ⟨s.dipNoted d, ?_, ?_, cause, latch, State.cores_dipNoted ..⟩
    · rw [exec_supplyDip hd, State.supplyDip_released on up out]
    · rw [State.die_dipNoted]
  case recoveryBoot =>
    intro s d hd held boot
    refine ⟨s.setDie d { s.die d with heldSupply := false }, ?_, ?_⟩
    · rw [exec_supplyRecovery hd, State.supplyRecovery_boot held boot]
    · simp [boot]
  case recoveryLinks =>
    intro s d hd held links ladder reset _
    obtain ⟨n, released⟩ := State.standing_computeRelease (s.backInPlan d) d
    rw [State.standing_backInPlan] at released
    refine ⟨(s.backInPlan d).computeRelease d, ?_, ?_, ?_, ?_, ?_⟩
    · rw [exec_supplyRecovery hd, State.supplyRecovery_links held links ladder reset]
    · rw [State.die_heldSupply, released]
    · rw [State.die_stage, released]
    · rw [State.die_computeReset, released]
    · rw [State.die_startRestarts, released]
  case window =>
    intro s d rate hd out full
    refine ⟨s.rateWindow d rate, exec_rateWindow hd rate, ?_⟩
    rw [State.die_rateWindow out full]
    refine ⟨rfl, ?lowest, rfl, fun slow high => ?low, fun fast => ?fast⟩
    case lowest =>
      simp only [State.rateDie]
      split <;> omega
    case low =>
      have low : s.rateLow d rate = true := by simp [State.rateLow, slow, high]
      exact ⟨by simp [State.rateDie, low], State.cause_rateWindow out full low⟩
    case fast =>
      simp [State.rateDie, State.rateLow, Nat.not_lt.mpr fast]

end Sys2Proof.Machine
end

section
/-!
PROOFS. Timebase edges and the alignment of the counters (02_handshake_fabric.md, R37, R39; R312, R343 to R345, R441).
-/
namespace Sys2Proof.Machine

section
variable {s : State} {d : DieId} (h : s.hasDie d = true)
include h

theorem exec_timebaseRisingEdge : exec (.timebaseRisingEdge d) s = .next (s.edge d) := by
  simp [exec, execTimebaseRisingEdge, onDie, h]

theorem exec_counterHoldEnd : exec (.counterHoldEnd d) s = .next (s.holdEnd d) := by
  simp [exec, execCounterHoldEnd, onDie, h]

theorem exec_timebaseLost : exec (.timebaseLost d) s = .next (s.timebaseLost d) := by
  simp [exec, execTimebaseLost, onDie, h]

theorem exec_timebaseResume : exec (.timebaseResume d) s = .next (s.timebaseResume d) := by
  simp [exec, execTimebaseResume, onDie, h]

theorem exec_timebaseStable : exec (.timebaseStable d) s = .next (s.timebaseStable d) := by
  simp [exec, execTimebaseStable, onDie, h]

theorem exec_alignmentExchangeTimer : exec (.alignmentExchangeTimer d) s = .next (s.alignSend d) := by
  simp [exec, execAlignmentExchangeTimer, onDie, h]

theorem exec_periodicAlignmentCheck : exec (.periodicAlignmentCheck d) s = .next (s.alignCheck d) := by
  simp [exec, execPeriodicAlignmentCheck, onDie, h]

theorem exec_alignmentTimeout : exec (.alignmentTimeout d) s = .next (s.alignTimeout d) := by
  simp [exec, execAlignmentTimeout, onDie, h]

theorem exec_pulseInput : exec (.pulseInput d) s = .next (s.pulse d) := by
  simp [exec, execPulseInput, onDie, h]

end

theorem exec_alignmentRequest (s : State) (m : Nat) : exec (.alignmentRequest m) s = .next (s.alignReply m) := rfl

theorem exec_alignmentAnswer (s : State) (m : Nat) : exec (.alignmentAnswer m) s = .next (s.alignAnswer m) := rfl

/-! ### The edge -/

/-- The masks of the monitors that a die's register has taken act at this count (R451). -/
def Die.masksAct (k : Die) : Die := { k with hmSnapNow := k.hmSnap, hmClearNow := k.hmClear, hmSnap := 0, hmClear := 0 }

/-- A die's record at an edge: the counter advances, or holds (R37, R343). -/
def Die.edge (k : Die) : Die :=
  if 2 ≤ k.holding then { k with holding := k.holding - 1 }
  else { k.holdOver with ticks := k.ticks + 1, count := k.count + 1 }

theorem Die.edge_holds {k : Die} (h : 2 ≤ k.holding) : k.edge = { k with holding := k.holding - 1 } := if_pos h

theorem Die.edge_counts {k : Die} (h : k.holding < 2) :
    k.edge = { k.holdOver with ticks := k.ticks + 1, count := k.count + 1 } :=
  if_neg (Nat.not_le.mpr h)

/-- A die's record with an offset applied to its counter: a step forward, or a hold (R343 step 5). -/
def Die.applyOffset (k : Die) (o : Int) : Die := { k with
  count := if 0 < o then k.count + BitVec.ofInt 64 o else k.count
  holding := if o < 0 then (-o).toNat + 1 else k.holding
  lastOffset := BitVec.ofInt 32 o
  realigns := if k.alignedOnce then satInc k.realigns else k.realigns
  alignedOnce := true }

/-- Without a step or an adjustment, device time advances by 10 ns within the second (R433). -/
theorem NetTime.edge_plain {n : NetTime} (before after : W64) (stepTo : n.stepTo = none) (stepBy : n.stepBy = none)
    (next : n.adjNext = none) (adj : n.adj = 0) (within : n.nsFrac + 10 * 2 ^ 32 < secondUnits) :
    (n.edge before after).nsFrac = n.nsFrac + 10 * 2 ^ 32 ∧ (n.edge before after).secs = n.secs := by
  have rate : (10 * 2 ^ 32 + signed 32 (0 : W32).toNat).toNat = 10 * 2 ^ 32 := by decide
  simp only [edge, stepTo, stepBy, next, adj, Option.getD_none, rate, decide_eq_false (Nat.not_le.mpr within)]
  exact ⟨rfl, rfl⟩

namespace State

variable {s : State} {d : DieId}

/-- A fold of changes of monitors changes monitors only. -/
theorem foldl_monitors {f : State → Nat → State} (step : ∀ t i, f t i = t ∨ ∃ m, f t i = t.setMonitor d i m)
    (l : List Nat) : ∃ ms, l.foldl f s = { s with monitors := ms } := by
  refine List.foldlRecOn l f (motive := fun t => ∃ ms, t = { s with monitors := ms }) ⟨_, rfl⟩
    fun t ⟨ms, same⟩ i _ => ?_
  rcases step t i with kept | ⟨m, put⟩
  · exact ⟨ms, kept.trans same⟩
  · rw [put, same]
    exact ⟨_, rfl⟩

/-- The masks that act at an edge change the monitors and the die's record of them (R451). -/
theorem monitorsEdge_eq (s : State) (d : DieId) (count : W64) :
    ∃ ms, s.monitorsEdge d count = ({ s with monitors := ms } : State).setDie d (s.die d).masksAct := by
  refine Exists.imp (fun ms h => congrArg (fun t : State => t.setDie d (s.die d).masksAct) h)
    (foldl_monitors (d := d) (fun t i => ?_) (List.range 32))
  dsimp only
  split
  · exact .inl rfl
  · exact .inr ⟨_, rfl⟩

/-- The state at an edge, before an alignment that waited for the end of a hold: monitors, the die's record and device time
have changed. -/
def edged (s : State) (d : DieId) (ms : SMap Monitor) : State :=
  ((({ s with monitors := ms } : State).setDie d (s.die d).masksAct).setDie d (s.die d).masksAct.edge).setNet d
    ((s.net d).edge (s.die d).count (s.die d).masksAct.edge.count)

/-- At an edge a die that runs does that; an alignment that waited for the end of a hold starts (R343). -/
theorem edge_realigns (on : (s.die d).stage ≠ .held) : ∃ ms, Realigns d (s.edged d ms) (s.edge d) := by
  obtain ⟨ms, h⟩ := monitorsEdge_eq s d (s.die d).count
  have running : s.edge d = if (s.die d).holding = 1 then (s.edged d ms).alignAgain d else s.edged d ms := by
    simp only [State.edge, on, if_false, h, die_setDie]
    rfl
  refine ⟨ms, ?_⟩
  rw [running]
  split
  · exact alignAgain_realigns ..
  · exact .inl rfl

theorem die_edged (ms : SMap Monitor) : (s.edged d ms).die d = (s.die d).masksAct.edge := by simp [edged]

theorem die_edged_other (ms : SMap Monitor) {e : DieId} (h : e ≠ d) : (s.edged d ms).die e = s.die e := by
  simp only [edged, setNet_die_of, die_setDie_other _ _ _ _ h]
  rfl

theorem net_edged (ms : SMap Monitor) :
    (s.edged d ms).net d = (s.net d).edge (s.die d).count (s.die d).masksAct.edge.count := by simp [edged]

/-! ### A hold, and the loss of the timebase -/

theorem holdEnd_holding (h : (s.die d).holding = 1) : s.holdEnd d = (s.setDie d (s.die d).holdOver).alignAgain d := by
  simp [holdEnd, h]

/-- The loss of the timebase, reported: the counter follows the ring oscillator (R39). -/
def tbLost (s : State) (d : DieId) : State :=
  (s.setDie d { s.die d with onRing := true, tbLostFlag := true }).reportFree d 0x0201

theorem timebaseLost_running (on : (s.die d).stage ≠ .held) (ring : (s.die d).onRing = false) :
    s.timebaseLost d = (s.tbLost d).setSteward d { (s.tbLost d).steward d with
      safety := { ((s.tbLost d).steward d).safety with f0201 := true } } := by
  simp [timebaseLost, tbLost, on, ring]

theorem die_tbLost : (s.tbLost d).die d = { s.die d with onRing := true, tbLostFlag := true } := by simp [tbLost]

theorem cause_tbLost : bitAt ((s.tbLost d).steward d).safety.causes.toNat 5 = true :=
  (safety_reportFree _ d (code := 0x0201) rfl (by decide)).1

/-- The timebase is back: the counter follows its edges again (R39). -/
def tbBack (s : State) (d : DieId) : State := s.setDie d { s.die d with onRing := false, resumeAt := (s.die d).ticks }

theorem timebaseResume_onRing (on : (s.die d).stage ≠ .held) (ring : (s.die d).onRing = true) :
    s.timebaseResume d = (s.tbBack d).startAlign d false := by
  simp [timebaseResume, tbBack, on, ring]

theorem die_tbBack : (s.tbBack d).die d = { s.die d with onRing := false, resumeAt := (s.die d).ticks } := die_setDie ..

theorem reaches_tbBack (e : Nat) : (s.tbBack d).reaches d e = s.reaches d e := by simp [reaches, die_tbBack]

/-- An alignment starts on a die other than die 0 that reaches die 0 and whose counter runs (R343). -/
theorem startAlign_starts (other : d ≠ die0) (reached : s.reaches d 0 = true) (runs : (s.die d).holding = 0)
    (periodic : Bool) : s.startAlign d periodic = s.setDie d { s.die d with
      aligning := true, alignPeriodic := periodic, alignNext := 0, exchanges := [], alignDue := false } := by
  simp [startAlign, other, reached, runs]

/-- Where die 0 is not reached, or the counter holds, it stays due. -/
theorem startAlign_waits (other : d ≠ die0) (wait : s.reaches d 0 = false ∨ (s.die d).holding ≠ 0) :
    s.startAlign d false = s.setDie d { s.die d with aligning := false, exchanges := [], alignDue := true } := by
  have waits : (!s.reaches d 0) = true ∨ (s.die d).holding ≠ 0 := by simpa using wait
  simp only [startAlign, other, if_false, if_pos waits, Bool.not_false, Bool.or_true]

theorem timebaseStable_stable (mode : (s.steward d).mode = .carori) (ring : (s.die d).onRing = false)
    (time : 100000 ≤ s.since d (s.die d).resumeAt) : s.timebaseStable d = s.setSteward d { s.steward d with
      safety := { (s.steward d).safety with f0201 := false } } := by
  simp [timebaseStable, mode, ring, Nat.not_lt.mpr time]

/-! ### The exchanges of an alignment -/

theorem alignSend_due (aligning : (s.die d).aligning = true) (more : (s.die d).alignNext < 16)
    (time : (s.die d).alignNext = 0 ∨ 10 ≤ s.since d (s.die d).alignAt) :
    s.alignSend d = (s.setDie d { s.die d with
      alignNext := (s.die d).alignNext + 1, alignAt := (s.die d).ticks }).sendMsg d die0
        (.alignReq (s.die d).alignNext (s.die d).count) := by
  have due : ¬((s.die d).alignNext ≠ 0 ∧ s.since d (s.die d).alignAt < 10) := by omega
  simp [alignSend, aligning, Nat.not_le.mpr more, due]

theorem alignReply_req {m dst src i : Nat} {a : W64} (msg : s.msgAt m = some (dst, src, .alignReq i a)) :
    s.alignReply m = (s.takeMsg m).sendMsg die0 (dieOf src) (.alignAns i a (s.die die0).count) := by
  simp [alignReply, msg]

/-! The answers. -/

section
variable {m r i : Nat} {a b : W64}

/-- The state in which an answer has been taken and its exchange recorded (R343). -/
def answerTaken (s : State) (m : Nat) (d : DieId) (a b : W64) : State :=
  (s.takeMsg m).setDie d { s.die d with exchanges := (s.die d).exchanges ++ [⟨a, b, (s.die d).count⟩] }

theorem die_answerTaken : (s.answerTaken m d a b).die d =
    { s.die d with exchanges := (s.die d).exchanges ++ [⟨a, b, (s.die d).count⟩] } := die_setDie ..

section
variable (msg : s.msgAt m = some (d.val, r, .alignAns i a b)) (aligning : (s.die d).aligning = true)
  (awaited : (s.die d).exchanges.length < (s.die d).alignNext) (next : i = (s.die d).exchanges.length)
include msg aligning awaited next

theorem alignAnswer_next : s.alignAnswer m =
    if (s.die d).exchanges.length + 1 < 16 then s.answerTaken m d a b else (s.answerTaken m d a b).alignDone d := by
  have kept : (s.takeMsg m).die d = s.die d := rfl
  simp [alignAnswer, answerTaken, msg, dieOf_val, kept, aligning, Nat.not_le.mpr awaited, next]

theorem alignAnswer_more (more : i < 15) : s.alignAnswer m = s.answerTaken m d a b := by
  rw [alignAnswer_next msg aligning awaited next, if_pos (by omega)]

theorem alignAnswer_last (last : i = 15) : s.alignAnswer m = (s.answerTaken m d a b).alignDone d := by
  rw [alignAnswer_next msg aligning awaited next, if_neg (by omega)]

end

end

theorem applyOffset_eq (o : Int) : s.applyOffset d o = s.setDie d ((s.die d).applyOffset o) := rfl

/-- The offset of the best exchange is applied to the counter; a step leaves the die ALIGNED, a hold when it is over (R343). -/
theorem die_alignDone {x : Exchange} (best : bestExchange (s.die d).exchanges = some x)
    (first : (s.die d).alignPeriodic = false) : (s.alignDone d).die d =
      { ({ s.die d with aligning := false, periodAt := (s.die d).ticks, exchanges := [] } : Die).applyOffset x.offset with
        aligned := decide (0 ≤ x.offset), alignAfter := decide (x.offset < 0) } := by
  simp [alignDone, best, first, applyOffset_eq]

/-! ### The check of every second, and its timeout -/

theorem alignCheck_due (other : d ≠ die0) (aligned : (s.die d).aligned = true) (idle : (s.die d).aligning = false)
    (time : 100000000 ≤ s.since d (s.die d).periodAt) : s.alignCheck d = s.setDie d { s.die d with
      aligning := true, alignPeriodic := true, alignNext := 0, exchanges := [], periodAt := (s.die d).ticks } := by
  simp [alignCheck, other, aligned, idle, Nat.not_lt.mpr time]

/-- The die's record when an answer has not come (R345). -/
def alignLost (s : State) (d : DieId) : State :=
  s.setDie d { s.die d with aligning := false, aligned := false, alignAfter := false, exchanges := [] }

theorem alignTimeout_late (aligning : (s.die d).aligning = true) (awaited : (s.die d).exchanges.length < (s.die d).alignNext)
    (time : 1000 ≤ s.since d (s.die d).alignAt) : s.alignTimeout d = (s.alignLost d).report d 0x1702 d.val := by
  simp [alignTimeout, alignLost, aligning, Nat.not_le.mpr awaited, Nat.not_lt.mpr time]

/-! ### A pulse -/

theorem pulse_captures {x y : W64 × BitVec 96} (history : (s.net d).history = [x, y]) :
    s.pulse d = (s.setDie d { s.die d with gcCap := y.1 }).setNet d { s.net d with ppsIn := y.2 } := by
  simp [pulse, history]

end State

/-- Settles O50: at an edge the die's record is that of `Die.edge`, but for an alignment that waited; every other command's
effect is one equation. -/
theorem countersRunAndAlign : Obligations.CountersRunAndAlign := by
  unfold Obligations.CountersRunAndAlign
  refine ⟨?counts, ?holds, ?device, ?holdEnd, ?lost, ?resume, ?stable, ?request, ?due, ?reply, ?replyOwn, ?answer, ?last,
    ?check, ?timeout, ?pulse⟩
  case counts =>
    intro s d hd on free
    obtain ⟨ms, realigns⟩ := State.edge_realigns on
    obtain ⟨_, _, _, _, _, die⟩ := realigns.die
    have counts := Die.edge_counts (k := (s.die d).masksAct) free
    refine ⟨s.edge d, exec_timebaseRisingEdge hd, ?_, ?_, fun e other => ?_, realigns.mem, realigns.cores⟩
    · rw [die, State.die_edged, counts]
      rfl
    · rw [die, State.die_edged, counts]
      rfl
    · rw [realigns.die_other other, State.die_edged_other ms other]
  case holds =>
    intro s d hd on held
    obtain ⟨ms, realigns⟩ := State.edge_realigns on
    obtain ⟨_, _, _, _, _, die⟩ := realigns.die
    refine ⟨s.edge d, exec_timebaseRisingEdge hd, ?_⟩
    rw [die, State.die_edged, Die.edge_holds (k := (s.die d).masksAct) held]
    exact ⟨rfl, rfl, rfl⟩
  case device =>
    intro s d hd on stepTo stepBy next adj within
    obtain ⟨ms, realigns⟩ := State.edge_realigns on
    refine ⟨s.edge d, exec_timebaseRisingEdge hd, ?_⟩
    rw [realigns.net, State.net_edged]
    exact NetTime.edge_plain _ _ stepTo stepBy next adj within
  case holdEnd =>
    intro s d hd holds
    obtain ⟨_, _, _, _, _, die⟩ := (State.alignAgain_realigns (s.setDie d (s.die d).holdOver) d).die
    rw [← State.holdEnd_holding holds, State.die_setDie] at die
    refine ⟨s.holdEnd d, exec_counterHoldEnd hd, ?_⟩
    rw [die]
    exact ⟨rfl, rfl, fun after => by simp [Die.holdOver, after]⟩
  case lost =>
    intro s d hd on ring
    refine ⟨_, (exec_timebaseLost hd).trans (congrArg _ (State.timebaseLost_running on ring)), ?_⟩
    simp [State.die_tbLost, State.cause_tbLost]
  case resume =>
    intro s d hd on ring other reached runs
    refine ⟨s.timebaseResume d, exec_timebaseResume hd, ?_⟩
    rw [State.timebaseResume_onRing on ring, State.startAlign_starts other (by rw [State.reaches_tbBack, reached])
      (by rw [State.die_tbBack]; exact runs), State.die_setDie, State.die_tbBack]
    exact ⟨rfl, rfl, rfl, rfl, rfl⟩
  case stable =>
    intro s d hd mode ring time
    refine ⟨s.timebaseStable d, exec_timebaseStable hd, ?_⟩
    rw [State.timebaseStable_stable mode ring time, State.steward_setSteward]
    exact ⟨rfl, rfl⟩
  case request =>
    intro s d hd aligning more time
    refine ⟨s.alignSend d, exec_alignmentExchangeTimer hd, ?_⟩
    rw [State.alignSend_due aligning more time, State.die_alignNext, State.die_alignAt, State.standing_sendMsg, State.standing,
      State.die_setDie]
    exact ⟨rfl, rfl⟩
  case due =>
    intro s d hd on ring other wait
    refine ⟨s.timebaseResume d, exec_timebaseResume hd, ?_⟩
    rw [State.timebaseResume_onRing on ring,
      State.startAlign_waits other (by rw [State.reaches_tbBack, State.die_tbBack]; exact wait),
      State.die_setDie, State.die_tbBack]
    exact ⟨rfl, rfl, rfl, rfl⟩
  case reply =>
    intro s m d src i a msg
    rw [exec_alignmentRequest, State.alignReply_req msg]
  case replyOwn =>
    intro s m d i a msg other
    refine ⟨s.alignReply m, exec_alignmentRequest s m, ?_⟩
    rw [State.alignReply_req msg]
    exact ⟨(SMap.find?_put_other _ _ other).trans (SMap.find?_erase_same ..), SMap.find?_put_same ..⟩
  case answer =>
    intro s m r i d a b msg aligning awaited next more
    refine ⟨s.alignAnswer m, exec_alignmentAnswer s m, ?_⟩
    rw [State.alignAnswer_more msg aligning awaited next more, State.die_answerTaken]
    exact ⟨rfl, rfl⟩
  case last =>
    intro s m r i d a b x msg aligning sent taken last first best
    refine ⟨s.alignAnswer m, exec_alignmentAnswer s m, ?_⟩
    rw [State.alignAnswer_last msg aligning (by omega) (by omega) last, State.die_alignDone (x := x)
      (by rw [State.die_answerTaken]; exact best) (by rw [State.die_answerTaken]; exact first), State.die_answerTaken]
    refine ⟨rfl, rfl, rfl, rfl, fun step => if_pos step, fun hold => ⟨if_neg (by omega), if_pos hold⟩⟩
  case check =>
    intro s d hd other aligned idle time
    refine ⟨s.alignCheck d, exec_periodicAlignmentCheck hd, ?_⟩
    rw [State.alignCheck_due other aligned idle time, State.die_setDie]
    exact ⟨rfl, rfl, rfl, aligned⟩
  case timeout =>
    intro s d hd aligning awaited time
    refine ⟨s.alignTimeout d, exec_alignmentTimeout hd, ?_⟩
    rw [State.alignTimeout_late aligning awaited time, State.die_report, State.alignLost, State.die_setDie]
    exact ⟨rfl, rfl, (State.safety_report _ d d.val (code := 0x1702) rfl (by decide)).1⟩
  case pulse =>
    intro s d x y hd history
    refine ⟨s.pulse d, exec_pulseInput hd, ?_⟩
    rw [State.pulse_captures history]
    simp

end Sys2Proof.Machine
end

section
/-!
PROOFS. The matrix arrays: issue, gather window and completion of their operations, the array controller and the filler
(04_matrix_arrays.md, R73, R74, R78, R79, R82 to R85).
-/
namespace Sys2Proof.Machine

section
variable {s : State} {a : ArrayId} (h : s.hasArray a = true)
include h

theorem exec_arrayIssue : exec (.arrayIssue a) s = .next (s.arrayIssue a) := by
  simp [exec, execArrayIssue, onArray, h]

theorem exec_gatherWindowExpiry : exec (.gatherWindowExpiry a) s = .next (s.gatherExpiry a) := by
  simp [exec, execGatherWindowExpiry, onArray, h]

theorem exec_arrayComplete : exec (.arrayComplete a) s = .next ((s.arrayComplete a).quietCheck a.core) := by
  simp [exec, execArrayComplete, onArray, h]

theorem exec_idleTimerExpiry : exec (.idleTimerExpiry a) s = .next (s.idleExpiry a) := by
  simp [exec, execIdleTimerExpiry, onArray, h]

theorem exec_densityChange : exec (.densityChange a) s = .next (s.densityChange a) := by
  simp [exec, execDensityChange, onArray, h]

theorem exec_fillerPattern (ok : Bool) : exec (.fillerPattern a ok) s = .next (s.fillerDone a ok) := by
  simp [exec, execFillerPattern, onArray, h]

end

/-! ### Tokens, and the record of an array -/

namespace Core

variable (k : Core) (t : Nat) (st : TokState)

@[simp] theorem arrs_setTokState : (k.setTokState t st).arrs = k.arrs := rfl

@[simp] theorem st_setTokState : ((k.setTokState t st).tok t).st = st := by
  simp [setTokState, setTok, tok]

/-- Giving states to the output tokens of several instructions leaves the arrays alone. -/
@[simp] theorem arrs_foldl_setTokState (is : List EInstr) :
    (is.foldl (fun k i => k.setTokState (fTC i.word) st) k).arrs = k.arrs :=
  List.foldlRecOn is _ (motive := fun x : Core => x.arrs = k.arrs) rfl fun x same i _ =>
    (arrs_setTokState x (fTC i.word) st).trans same

end Core

namespace State

theorem arr_of_cores {s t : State} (same : t.cores = s.cores) (a : ArrayId) : t.arr a = s.arr a := by
  unfold arr core
  rw [same]

section
variable (s : State) (a : ArrayId)

/-- An array reads as the record of its core has it, whatever else of the core changes. -/
theorem arr_updCore {g : Core → Core} (same : (g (s.core a.core)).arrs = (s.core a.core).arrs) :
    (s.updCore a.core g).arr a = s.arr a := by
  unfold arr
  rw [core_updCore, same]

/-- An array's record is no part of its core's tokens. -/
@[simp] theorem tok_setArr (v : Arr) (n : Nat) : ((s.setArr a v).core a.core).tok n = (s.core a.core).tok n := by
  simp [setArr, Core.tok]

/-- Ordering overlapping stores touches the core store and its notes of overlaps, and no token. -/
@[simp] theorem tok_unorder (c : CoreId) (i : EInstr) (n : Nat) :
    ((s.unorder c i).core c).tok n = (s.core c).tok n := by
  unfold unorder
  dsimp only
  split
  · rfl
  · rw [core_updCore]
    rfl

end

/-! ### Issue, the gather window, and completion -/

/-- The state in which an array runs the ARR.MM that stood at the head of its queue (R73, R76). -/
def mmIssued (s : State) (a : ArrayId) (i : EInstr) (rest : List EInstr) : State :=
  (s.setArr a { ((s.arr a).start [(s.core a.core).latch i] (s.die a.core.die).ticks) with queue := rest }).updCore a.core
    fun k => k.setTokState (fTC i.word) .filling

/-- The state in which the results of an array's one instruction are written: its output token is PRESENT, and the array is
idle (R74). -/
def mmWritten (t : State) (a : ArrayId) (i : EInstr) (now : Nat) : State :=
  ((t.updCore a.core fun k => k.setTokState (fTC i.word) .present).unorder a.core i).updArr a
    fun y => { (y.onComplete now) with run := [] }

section
variable {s : State} {a : ArrayId}

/-- A legal ARR.MM that is ready issues on an idle array of a core in COMPUTE (R73). -/
theorem arrayIssue_mm {i : EInstr} {rest : List EInstr} (running : (s.core a.core).run = .running)
    (compute : (s.core a.core).phase = .compute) (head : (s.arr a).queue = i :: rest) (idle : (s.arr a).run = [])
    (alone : (s.arr a).group = []) (mm : isMM i.word = true) (ready : (s.core a.core).mmReady (s.arr a).fmt i = true)
    (legal : (s.core a.core).mmFault (s.arr a).fmt (s.arr a).cfg i.word = none) :
    s.arrayIssue a = (s.mmIssued a i rest).settle a.core := by
  simp [arrayIssue, mmIssued, running, compute, head, idle, alone, mm, ready, legal]

theorem arr_mmIssued (i : EInstr) (rest : List EInstr) : (s.mmIssued a i rest).arr a =
    { ((s.arr a).start [(s.core a.core).latch i] (s.die a.core.die).ticks) with queue := rest } := by
  rw [mmIssued, arr_updCore _ _ (Core.arrs_setTokState ..), arr_setArr]

theorem st_mmIssued (i : EInstr) (rest : List EInstr) :
    (((s.mmIssued a i rest).core a.core).tok (fTC i.word)).st = .filling := by
  simp [mmIssued]

/-- The window of an open group expires (R79). -/
theorem gatherExpiry_due (opened : (s.arr a).group ≠ [])
    (due : min 2000 (field (s.arr a).cfg.toNat 11 0) ≤ s.since a.core.die (s.arr a).groupAt) :
    s.gatherExpiry a = (s.groupIssue a).settle a.core := by
  simp [gatherExpiry, opened, Nat.not_lt.mpr due]

section
variable (opened : (s.arr a).group ≠ []) (idle : (s.arr a).run = [])
include opened idle

/-- An open group issues on an idle array, each member with the window bound to its stationary token now (R79, R80). -/
theorem groupIssue_open : s.groupIssue a =
    (s.setArr a { ((s.arr a).start ((s.arr a).group.map (s.core a.core).latch) (s.die a.core.die).ticks) with
      group := [] }).updCore a.core
      fun k => (s.arr a).group.foldl (fun k i => k.setTokState (fTC i.word) .filling) k := by
  simp [groupIssue, opened, idle]

theorem arr_groupIssue : (s.groupIssue a).arr a =
    { ((s.arr a).start ((s.arr a).group.map (s.core a.core).latch) (s.die a.core.die).ticks) with group := [] } := by
  rw [groupIssue_open opened idle, arr_updCore _ _ (Core.arrs_foldl_setTokState ..), arr_setArr]

theorem mem_groupIssue : (s.groupIssue a).mem = s.mem := by
  rw [groupIssue_open opened idle]
  rfl

end

/-- An operation of one instruction completes when its results can be written (R74). -/
theorem arrayComplete_one {t : State} {i : EInstr} (busy : (s.arr a).run = [i])
    (written : s.mmRunAll a (s.arr a).runFmt (s.arr a).runCfg [i] = (t, none)) :
    s.arrayComplete a = (t.mmWritten a i (s.die a.core.die).ticks).settle a.core := by
  simp [arrayComplete, mmWritten, busy, written]

theorem run_mmWritten (i : EInstr) (now : Nat) : ((s.mmWritten a i now).arr a).run = [] := by
  rw [mmWritten, updArr, arr_setArr]

theorem st_mmWritten (i : EInstr) (now : Nat) :
    (((s.mmWritten a i now).core a.core).tok (fTC i.word)).st = .present := by
  simp [mmWritten, updArr]

/-! ### The controller and the filler -/

/-- The idle timer in FILL takes the controller to FILL_DOWN, from the full density (R82). -/
theorem idleExpiry_fill (idle : (s.arr a).run = []) (fill : (s.arr a).mode = .fill)
    (due : 200 ≤ s.since a.core.die (s.arr a).idleAt) :
    s.idleExpiry a = s.setArr a { s.arr a with
      mode := .fillDown, modeAt := (s.die a.core.die).ticks, entryLevel := 8,
      before := some (.fill, (s.arr a).modeAt, (s.arr a).entryLevel) } := by
  simp [idleExpiry, idle, fill, due]

end

end State

/-- An array in FILL_DOWN whose density has gone down by one: at 0 it is QUIET (R82, R83). -/
def Arr.densityDown (x : Arr) (now : Nat) : Arr := { x with
  density := x.density - 1
  densityAt := now
  mode := if x.density - 1 = 0 then .quiet else .fillDown
  modeAt := if x.density - 1 = 0 then now else x.modeAt }

namespace State

/-- The array after a filler pattern has completed and been checked (R84, R85). -/
def fillerNoted (s : State) (a : ArrayId) (ok : Bool) : State :=
  (s.setArr a { s.arr a with
    fpass := (s.arr a).fpass + 1
    latches := some s.freeNext
    pattern := ((s.arr a).pattern + 1) % 32
    fillerFail := (s.arr a).fillerFail || !ok
    failPat := if !ok && !(s.arr a).fillerFail then (s.arr a).pattern else (s.arr a).failPat }).draw.2

/-- The state in which a pattern that failed has been reported as well, with an INFO that the spec does not state (R85). -/
def fillerReported (s : State) (a : ArrayId) : State :=
  let r := (s.fillerNoted a false).draw
  r.2.report a.core.die 0x0410 (Config.freeNat r.1 % 2 ^ 64)

variable {s : State} {a : ArrayId}

/-- In FILL_DOWN, a density above the level due goes down by one, 12 counts after its last change (R83). -/
theorem densityChange_down (mode : (s.arr a).mode = .fillDown) (apart : 12 ≤ s.since a.core.die (s.arr a).densityAt)
    (above : (s.arr a).entryLevel - 8 * s.since a.core.die (s.arr a).modeAt / 100 < (s.arr a).density) :
    s.densityChange a = s.setArr a ((s.arr a).densityDown (s.die a.core.die).ticks) := by
  have due : densityDue (s.arr a) (s.since a.core.die (s.arr a).modeAt) =
      (s.arr a).entryLevel - 8 * s.since a.core.die (s.arr a).modeAt / 100 := by simp [densityDue, mode]
  rw [← due] at above
  by_cases last : (s.arr a).density - 1 = 0 <;>
    simp [densityChange, Arr.densityDown, mode, Nat.not_lt.mpr apart, above.ne, Nat.not_lt.mpr above.le, last]

section
variable (idle : (s.arr a).run = []) (fill : (s.arr a).mode = .fill)
include idle fill

theorem fillerDone_passes : s.fillerDone a true = s.fillerNoted a true := by
  simp [fillerDone, fillerNoted, idle, fill]

/-- One that fails is reported, and its array, where that is new, recorded as failed and journalled (R85). -/
theorem fillerDone_fails : s.fillerDone a false =
    let t := s.fillerReported a
    let k := t.steward a.core.die
    let u := t.setSteward a.core.die { k with failedArrays := k.failedArrays ++ [a.key] }
    if k.failedArrays.contains a.key then t else u.journal a.core.die 0x08 (u.unitMask a.core.die) := by
  have works : ¬ (!(s.arr a).run.isEmpty ∨
      !((s.arr a).mode = .ramp ∨ (s.arr a).mode = .fill ∨ (s.arr a).mode = .fillDown)) := by simp [idle, fill]
  exact if_neg works

theorem cores_fillerDone_fails : (s.fillerDone a false).cores = (s.fillerNoted a false).cores := by
  rw [fillerDone_fails idle fill]
  dsimp only
  split
  · exact cores_report ..
  · exact cores_report ..

end

end State

/-- Settles O24: an issue and a completion are one equation each, and nothing after it in the command but `settle` and
`quietCheck`. -/
theorem arrayIssueAndCompletion : Obligations.ArrayIssueAndCompletion := by
  unfold Obligations.ArrayIssueAndCompletion
  refine ⟨⟨?issue, ?window⟩, ?complete⟩
  case issue =>
    intro s a i rest ha running compute head idle alone op ready legal
    have mm : isMM i.word = true := decide_eq_true op
    refine ⟨s.mmIssued a i rest,
      (exec_arrayIssue ha).trans (congrArg _ (State.arrayIssue_mm running compute head idle alone mm ready legal)), ?_⟩
    rw [State.arr_mmIssued]
    exact ⟨rfl, rfl, rfl, rfl, State.st_mmIssued .., rfl⟩
  case window =>
    intro s a ha opened idle due
    refine ⟨s.groupIssue a, (exec_gatherWindowExpiry ha).trans (congrArg _ (State.gatherExpiry_due opened due)), ?_⟩
    rw [State.arr_groupIssue opened idle]
    exact ⟨rfl, rfl, State.mem_groupIssue opened idle⟩
  case complete =>
    intro s t a i ha busy written
    refine ⟨t.mmWritten a i (s.die a.core.die).ticks, ?_, State.run_mmWritten .., State.st_mmWritten ..⟩
    rw [exec_arrayComplete ha, State.arrayComplete_one busy written]

/-- Settles O25: each change of the controller and of the filler is an equation for the array's record; what a failed
pattern reports changes no core. -/
theorem arrayControllerAndFiller : Obligations.ArrayControllerAndFiller := by
  unfold Obligations.ArrayControllerAndFiller
  refine ⟨?idle, ?density, ?passes, ?fails⟩
  case idle =>
    intro s a ha idle fill due
    rw [exec_idleTimerExpiry ha, State.idleExpiry_fill idle fill due]
  case density =>
    intro s a ha mode apart above
    refine ⟨_, (exec_densityChange ha).trans (congrArg _ (State.densityChange_down mode apart above)), ?_⟩
    rw [State.arr_setArr]
    exact ⟨Nat.sub_add_cancel (Nat.one_le_of_lt above), fun zero => if_pos zero, rfl⟩
  case passes =>
    intro s a ha idle fill
    rw [exec_fillerPattern ha, State.fillerDone_passes idle fill]
    simp [State.fillerNoted]
  case fails =>
    intro s a ha idle fill
    refine ⟨s.fillerDone a false, exec_fillerPattern ha false, ?_⟩
    have noted : (s.fillerNoted a false).arr a = _ := State.arr_setArr s a _
    rw [State.arr_of_cores (State.cores_fillerDone_fails idle fill), noted]
    exact ⟨Bool.or_true _, fun first => by simp [first]⟩

end Sys2Proof.Machine
end

section
/-!
PROOFS. Dispatch of the engine instructions: the table of chapter 6 and the model's definitions, the checks at dispatch and the
queues (06_engine_instructions.md, R115 to R117, R123).
-/
namespace Sys2Proof.Machine

/-! ### The table of the engine instructions and the model's definitions of them -/

/-- The definition that `exec` gives an engine instruction is the one that chapter 6 lists. -/
structure Models (e : EngineForm) (d : EngineDef) : Prop where
  exec : ∀ c w s, exec (e.cmd c w) s = onCore s c (s.engine c w d)
  enc : ∀ w, encodingOk e w → d.enc w = true
  listed : engineListed e.unit e.op = true := by rfl
  unit : d.unit = e.unit := by rfl
  op : d.op = e.op := by rfl
  blocking : d.blocking = e.blocking := by rfl
  phase : d.phase = e.phase := by rfl
  rs1 : ∀ s c w, (s.core c).seq.read (d.rs1 w) = operandOf s c w e.rs1 := by intros; rfl
  rs2 : ∀ s c w, (s.core c).seq.read (d.rs2 w) = operandOf s c w e.rs2 := by intros; rfl
  reads : ∀ w, d.reads w = (e.reads.map fun f => bits w f.1 f.2).toList := by intros; rfl
  writes : ∀ w, d.writes w = (e.writes.map fun f => bits w f.1 f.2).toList := by intros; rfl

theorem arrayForms_models : ∀ e ∈ arrayForms, ∃ d, Models e d := by
  simp only [arrayForms, List.forall_mem_cons]
  refine ⟨?_, ?_, ?_, ?_, ?_, ?_, by simp⟩ <;> exact ⟨_, {
    exec := fun _ _ _ => rfl
    enc := by simp [encodingOk, bits, encAT, encArW, encArR, zeroBits] }⟩

theorem streamForms_models : ∀ e ∈ streamForms, ∃ d, Models e d := by
  simp only [streamForms, List.forall_mem_cons]
  refine ⟨?_, ?_, ?_, ?_, ?_, ?_, ?_, ?_, ?_, by simp⟩ <;> exact ⟨_, {
    exec := fun _ _ _ => rfl
    enc := by simp +contextual [encodingOk, bits, encSD, encSDpair, encCvrd, encCvwr, fCh, zeroBits] }⟩

/-- MODE is two bits of the low three. -/
theorem fMode_mod_four (w : W32) : fMode w % 4 = bits w 1 0 := by
  simp only [fMode, bits, field]
  omega

theorem fIdx_lt (w : W32) : fIdx w < 64 := Nat.mod_lt _ (by decide)

theorem vectorForms_models : ∀ e ∈ vectorForms, ∃ d, Models e d := by
  simp only [vectorForms, List.forall_mem_cons]
  refine ⟨?_, ?_, ?_, ?_, ?_, ?_, ?_, ?_, ?_, ?_, ?_, ?_, ?_, by simp⟩ <;> exact ⟨_, {
    exec := fun _ _ _ => rfl
    enc := by
      simp [encodingOk, encAT, encVld, encVst, encVopf, encVopi, encVsfu, encVred, encVcvt, encVbcst, encVmovs, encVsort,
        encVnms, fMode_mod_four, zeroBits] <;> grind [bits, fFn] }⟩

theorem syncForms_models : ∀ e ∈ syncForms, ∃ d, Models e d := by
  simp only [syncForms, List.forall_mem_cons]
  refine ⟨?_, ?_, ?_, ?_, ?_, ?_, ?_, ?_, ?_, ?_, ?_, ?_, ?_, ?_, ?_, ?_, by simp⟩ <;> exact ⟨_, {
    exec := fun _ _ _ => rfl
    enc := by
      simp [encodingOk, encYR, encYT, fIdx_lt, zeroBits]
      grind [bits, fIdx] }⟩

theorem engineForms_models {e : EngineForm} (he : e ∈ engineForms) : ∃ d, Models e d := by
  simp only [engineForms, List.mem_append] at he
  obtain ((array | stream) | vector) | sync := he
  · exact arrayForms_models e array
  · exact streamForms_models e stream
  · exact vectorForms_models e vector
  · exact syncForms_models e sync

/-! ### Dispatch -/

namespace State

/-- An engine instruction as it enters its queue (R116, R123). -/
def entryOf (s : State) (c : CoreId) (w : W32) (d : EngineDef) : EInstr :=
  { ord := (s.core c).ordNext, pc := (s.core c).seq.pc, word := w
    x1 := (s.core c).seq.read (d.rs1 w), x2 := (s.core c).seq.read (d.rs2 w)
    reads := if d.unit = 2 ∧ d.op ≤ 1 then s.mmClaims c w else d.reads w, writes := d.writes w
    stores := (s.core c).storeNext }

/-- The state in which the sequencer has passed an engine instruction on: it has gone on to the next one, or waits. -/
def passed (s : State) (c : CoreId) (w : W32) (d : EngineDef) : State :=
  (s.withPair c (wentOn s c)).updCore c fun k => { k with
    ordNext := k.ordNext + 1
    stall := if d.blocking then .engine (s.core c).ordNext else k.stall
    sems := if d.unit = 5 ∧ d.op = 0x0A then k.sems.erase ((s.core c).seq.read (d.rs1 w)).toNat else k.sems }

/-- The state in which an engine instruction has entered its queue. -/
def queued (s : State) (c : CoreId) (w : W32) (d : EngineDef) : State := (s.passed c w d).enqueue c (s.entryOf c w d)

end State

/-- The effect of an engine instruction on its sequencer: it goes on, with its registers read for the engine. -/
def EngineDef.passOn (d : EngineDef) (w : W32) (r : SeqRegs) : Eff :=
  { r.goOn with req := .engine (r.read (d.rs1 w)) (r.read (d.rs2 w)) }

section
variable {e : EngineForm} {d : EngineDef} {s : State} {c : CoreId} {w : W32}

theorem Models.unit_cases (m : Models e d) : e.unit = 2 ∨ e.unit = 3 ∨ e.unit = 4 ∨ e.unit = 5 := by
  have listed := m.listed
  unfold engineListed at listed
  split at listed <;> simp_all

theorem Models.unit_ne_zero (m : Models e d) : e.unit ≠ 0 := by
  obtain u | u | u | u := m.unit_cases <;> simp [u]

/-- Dispatch of the effect of an engine instruction: the fault of a check, nothing while the queue is full, or a place in the
queue. -/
theorem dispatch_passOn (twins : (s.core c).twin = (s.core c).seq) :
    let x := d.passOn w (s.core c).seq
    s.dispatch c w d x x ((s.core c).seq.read (d.rs1 w)) ((s.core c).seq.read (d.rs2 w)) =
      match s.dispatchFault c w d ((s.core c).seq.read (d.rs1 w)) with
      | some f => s.seqFault c f.1 f.2.1 0 f.2.2 w
      | none => if s.queueFull c w then s else (s.queued c w d).settle c := by
  dsimp only [State.dispatch]
  rw [commit_withPair _ twins]
  rfl

/-- What an engine instruction comes to where its guard is true. -/
theorem exec_engine (m : Models e d) (h : Takes s c w e.unit e.op) (hg : GuardTrue (s.core c).seq w)
    (he : encodingOk e w) : exec (e.cmd c w) s = .next (
      match s.dispatchFault c w d (operandOf s c w e.rs1) with
      | some f => s.seqFault c f.1 f.2.1 0 f.2.2 w
      | none => if s.queueFull c w then s else (s.queued c w d).settle c) := by
  rw [m.exec, onCore, if_pos h.here, State.engine, m.unit, m.op,
    h.seqRow (h.opOf_engine m.unit_ne_zero m.listed) (m.enc w he) (guard_of_guardTrue hg), ← m.rs1]
  exact congrArg _ (dispatch_passOn h.twins)

/-- A phase that Table 06-2 does not give the instruction comes first, with its code in INFO (R117). -/
theorem dispatchFault_phase {p : Phase} (m : Models e d) (x : W64) (of : e.phase = some p) (other : (s.core c).phase ≠ p) :
    s.dispatchFault c w d x = some (e.unit, 0x0603, (s.core c).phase.code) := by
  have apart : d.phase.any (· ≠ (s.core c).phase) = true := by simp [m.phase, of, other.symm]
  rw [State.dispatchFault, if_pos apart, m.unit]

/-- An instruction that passes the checks of R108, R117, R146 and R498 raises no fault at dispatch. -/
theorem dispatchFault_none (m : Models e d) (ok : dispatchOk s c w e) :
    s.dispatchFault c w d (operandOf s c w e.rs1) = none := by
  obtain ⟨phase, tokens, units, valid, holds⟩ := ok
  have here : ¬ d.phase.any (· ≠ (s.core c).phase) = true := by
    rw [m.phase]
    intro any
    obtain ⟨p, of, apart⟩ := (Option.any_eq_true ..).mp any
    exact of_decide_eq_true apart (phase p of).symm
  rw [State.dispatchFault, m.unit, m.op, if_neg here, if_neg fun h => tokens h.1 h.2.1 h.2.2,
    if_neg fun h => Nat.not_le.mpr (units h.1 h.2.1) h.2.2, if_neg fun h => by simp [valid h.1 h.2.1 h.2.2.1] at h,
    if_neg fun h => by simp [holds h.1 h.2.1] at h]

/-- The queue that an instruction would enter is full, or open. -/
theorem queueFull_iff (m : Models e d) (u : unitOf w = e.unit) : s.queueFull c w = true ↔ ¬ queueOpen s c w e := by
  have logical : fLA w = bits w 19 18 := rfl
  obtain v | v | v | v := m.unit_cases
  · cases la : s.physArray c (bits w 19 18) <;> simp [State.queueFull, queueOpen, u, v, logical, la]
  · simp [State.queueFull, queueOpen, u, v]
  · simp [State.queueFull, queueOpen, u, v]
  · simp [State.queueFull, queueOpen, u, v]

end

/-! ### The state in which an instruction has entered its queue -/

namespace State

section
variable {s : State} {c : CoreId}

theorem core_of_physArray {la : Nat} {a : ArrayId} (h : s.physArray c la = some a) : a.core = c := by
  unfold physArray at h
  dsimp only at h
  split at h
  · contradiction
  · exact congrArg ArrayId.core (Option.some.inj h).symm

/-- The physical arrays depend on the build, the enabled arrays of the core and its run. -/
theorem physArray_congr {t : State} (build : t.build = s.build) (runB : (t.core c).runB = (s.core c).runB)
    (enabled : ∀ i, ((t.core c).arrs.get {} i).enabled = ((s.core c).arrs.get {} i).enabled) (la : Nat) :
    t.physArray c la = s.physArray c la := by
  simp only [physArray, enabledArrays, build, runB, enabled]

/-- A change of the record of an array that keeps it enabled, or not, keeps the physical arrays. -/
theorem physArray_updArr {a : ArrayId} (f : Arr → Arr) (same : (f (s.arr a)).enabled = (s.arr a).enabled) (la : Nat) :
    (s.updArr a f).physArray a.core la = s.physArray a.core la := by
  have core : (s.updArr a f).core a.core = { s.core a.core with arrs := (s.core a.core).arrs.put a.arr.val (f (s.arr a)) } :=
    core_setCore ..
  refine physArray_congr (s := s) (t := s.updArr a f) rfl (by rw [core]) (fun i => ?_) la
  rw [core]
  by_cases h : i = a.arr.val
  · rw [h, SMap.get_put_same]
    exact same
  · rw [SMap.get_put_other _ _ _ h]

theorem enqueue_array {i : EInstr} {a : ArrayId} (unit : unitOf i.word = 2) (la : s.physArray c (fLA i.word) = some a) :
    s.enqueue c i = s.updArr a fun x => { x with queue := x.queue ++ [i] } := by
  simp only [enqueue, unit, la]

/-- Entering a queue changes a core's queues and arrays and nothing else of it. -/
theorem core_enqueue (s : State) (c : CoreId) (i : EInstr) : ∃ as str vec sync,
    (s.enqueue c i).core c = { s.core c with arrs := as, strQ := str, vecQ := vec, syncQ := sync } := by
  unfold enqueue
  split
  · split
    next a la =>
      rw [← core_of_physArray la]
      exact ⟨_, _, _, _, core_setCore ..⟩
    next => exact ⟨_, _, _, _, rfl⟩
  all_goals exact ⟨_, _, _, _, core_updCore ..⟩

/-- Entering a queue changes no more than the cores. -/
theorem enqueue_mem (s : State) (c : CoreId) (i : EInstr) : (s.enqueue c i).mem = s.mem := by
  unfold enqueue
  split
  · split <;> rfl
  all_goals rfl

theorem enqueue_clusters (s : State) (c : CoreId) (i : EInstr) : (s.enqueue c i).clusters = s.clusters := by
  unfold enqueue
  split
  · split <;> rfl
  all_goals rfl

theorem core_enqueue_other {b : CoreId} (s : State) (i : EInstr) (h : b ≠ c) : (s.enqueue c i).core b = s.core b := by
  unfold enqueue
  split
  · split
    next a la => exact core_setCore_other _ _ _ _ (core_of_physArray la ▸ h)
    next => rfl
  all_goals exact core_setCore_other _ _ _ _ h

end

section
variable (s : State) (c : CoreId) (w : W32) (d : EngineDef)

/-- The record of the core whose sequencer has passed an instruction on. -/
theorem core_passed : (s.passed c w d).core c = { s.core c with
    seq := wentOn s c, twin := wentOn s c, progAt := (s.die c.die).ticks
    ordNext := (s.core c).ordNext + 1
    stall := if d.blocking then .engine (s.core c).ordNext else (s.core c).stall
    sems := if d.unit = 5 ∧ d.op = 0x0A then (s.core c).sems.erase ((s.core c).seq.read (d.rs1 w)).toNat
      else (s.core c).sems } := by
  simp [passed, withPair]

theorem core_passed_other {b : CoreId} (h : b ≠ c) : (s.passed c w d).core b = s.core b := by
  rw [passed, updCore, core_setCore_other _ _ _ _ h, withPair, core_setCore_other _ _ _ _ h]

theorem arr_passed (a : ArrayId) (h : a.core = c) : (s.passed c w d).arr a = s.arr a := by
  simp only [arr, h, core_passed]

theorem physArray_passed (la : Nat) : (s.passed c w d).physArray c la = s.physArray c la :=
  physArray_congr (s := s) (t := s.passed c w d) rfl (by rw [core_passed]) (fun _ => by rw [core_passed]) la

end

end State

section
variable {e : EngineForm} {d : EngineDef} {s : State} {c : CoreId} {w : W32}

/-- The queue of an instruction's engine holds it last, where it had room. -/
theorem queueFor_queued (m : Models e d) (u : unitOf w = e.unit) (room : queueOpen s c w e) :
    queueFor (s.queued c w d) c w e = queueFor s c w e ++ [s.entryOf c w d] := by
  have v : unitOf (s.entryOf c w d).word = e.unit := u
  obtain array | stream | vector | sync := m.unit_cases
  · obtain ⟨a, la, -⟩ := room.1 array
    obtain rfl := State.core_of_physArray la
    have passed : (s.passed a.core w d).physArray a.core (fLA w) = some a := (State.physArray_passed ..).trans la
    have enters : s.queued a.core w d = (s.passed a.core w d).updArr a
        fun x => { x with queue := x.queue ++ [s.entryOf a.core w d] } :=
      State.enqueue_array (v.trans array) passed
    have still : (s.queued a.core w d).physArray a.core (bits w 19 18) = some a := by
      rw [enters]
      exact (State.physArray_updArr _ rfl _).trans passed
    simp only [queueFor, array, if_true, still, la]
    rw [enters, State.updArr, State.arr_setArr, State.arr_passed _ _ _ _ _ rfl]
  · simp [queueFor, State.queued, State.enqueue, v, stream, State.core_passed]
  · simp [queueFor, State.queued, State.enqueue, v, vector, State.core_passed]
  · simp [queueFor, State.queued, State.enqueue, v, sync, State.core_passed]

end

/-- Settles O16: of the checks at dispatch the phase comes first, and with a full queue the state stays as it is. -/
theorem dispatchPhaseAndFullQueue : Obligations.DispatchPhaseAndFullQueue := by
  unfold Obligations.DispatchPhaseAndFullQueue
  refine ⟨?phase, ?full⟩
  case phase =>
    intro e he s c w p takes guard enc of other
    obtain ⟨d, m⟩ := engineForms_models he
    rw [exec_engine m takes guard enc, dispatchFault_phase m _ of other]
    rfl
  case full =>
    intro e he s c w takes guard enc ok full
    obtain ⟨d, m⟩ := engineForms_models he
    rw [exec_engine m takes guard enc, dispatchFault_none m ok]
    exact congrArg _ (if_pos ((queueFull_iff m takes.unit).mpr full))

/-- Settles O15: what passes the checks at dispatch enters its queue, and entering a queue touches nothing but the queue. -/
theorem engineInstructionsAreQueued : Obligations.EngineInstructionsAreQueued := by
  unfold Obligations.EngineInstructionsAreQueued
  intro e he s c w takes guard enc ok room
  obtain ⟨d, m⟩ := engineForms_models he
  obtain ⟨as, str, vec, sync, core⟩ := State.core_enqueue (s.passed c w d) c (s.entryOf c w d)
  refine ⟨s.queued c w d, s.entryOf c w d, ?exec, queueFor_queued m takes.unit room, rfl, rfl, rfl, m.rs1 .., m.rs2 ..,
    ?reads, m.writes w, ?_⟩
  case exec =>
    have opened : ¬ s.queueFull c w = true := fun full => (queueFull_iff m takes.unit).mp full room
    rw [exec_engine m takes guard enc, dispatchFault_none m ok]
    exact congrArg _ (if_neg opened)
  case reads =>
    intro other
    rw [← m.unit] at other
    simp [State.entryOf, other, m.reads]
  have record : (s.queued c w d).core c = _ := core
  rw [record, State.core_passed, m.blocking, takes.free]
  exact ⟨rfl, rfl, rfl, rfl, rfl, State.enqueue_mem .., State.enqueue_clusters ..,
    fun b other => (State.core_enqueue_other _ _ other).trans (State.core_passed_other s c w d other)⟩

end Sys2Proof.Machine
end

section
/-!
SUPPORT. The synchronisation unit of a core without other engine work: what the step of its one instruction is, and that the
core settles with it (R75, R116, R140 to R148).
-/
namespace Sys2Proof.Machine

/-! ### A record written twice -/

namespace SMap

variable {β : Type}

/-- Erasing a key forgets what was put under it. -/
theorem erase_put_same (m : SMap β) (k : Nat) (v : β) : (m.put k v).erase k = m.erase k := by
  have absent : ∀ l : List (Nat × β), (insertSorted k v l).filter (fun e => e.1 != k) = l.filter fun e => e.1 != k := by
    intro l
    induction l with
    | nil => simp [insertSorted]
    | cons e es ih =>
      unfold insertSorted
      split
      · simp
      · simp [List.filter_cons, ih]
  simp [erase, put, absent, List.filter_filter]

theorem put_put_same (m : SMap β) (k : Nat) (v x : β) : (m.put k v).put k x = m.put k x :=
  congrArg (fun n : SMap β => SMap.mk (insertSorted k x n.entries)) (erase_put_same m k v)

end SMap

namespace State

theorem setCore_setCore (s : State) (c : CoreId) (v x : Core) : (s.setCore c v).setCore c x = s.setCore c x := by
  simp only [setCore, SMap.put_put_same]

end State

/-! ### A core whose engines are idle -/

/-- The arrays, the stream engine and the vector unit of a core have no work. -/
structure Core.EnginesIdle (k : Core) : Prop where
  arrays : k.arrList = []
  stream : k.strList = []
  vector : k.vecList = []

namespace Core.EnginesIdle

variable {k : Core} (h : k.EnginesIdle)
include h

theorem array_idle {e : Nat × Arr} (he : e ∈ k.arrs.entries) : e.2.queue = [] ∧ e.2.group = [] ∧ e.2.run = [] := by
  have none := List.flatMap_eq_nil_iff.mp h.arrays e.2 (List.mem_map_of_mem he)
  simpa [and_assoc] using none

theorem queuedList_eq_nil : k.queuedList = [] := by
  have arrays : k.arrs.values.flatMap (·.queue) = [] := by
    rw [List.flatMap_eq_nil_iff]
    intro a ha
    obtain ⟨e, he, rfl⟩ := List.mem_map.mp ha
    exact (h.array_idle he).1
  obtain ⟨stream, -⟩ := List.append_eq_nil_iff.mp h.stream
  obtain ⟨vector, -⟩ := List.append_eq_nil_iff.mp h.vector
  simp [queuedList, arrays, stream, vector]

theorem dueGroup_eq_none : k.dueGroup = none := by
  rw [dueGroup, List.findSome?_eq_none_iff]
  intro e he
  simp [(h.array_idle he).2.1]

theorem cfgHead_eq_none : k.cfgHead = none := by
  rw [cfgHead, List.findSome?_eq_none_iff]
  intro e he
  simp [(h.array_idle he).1]

theorem enginesDone_eq_true (n : Nat) : k.enginesDone n = true := by
  simp [enginesDone, h.arrays, h.stream, h.vector, anyBefore]

end Core.EnginesIdle

/-- A core's place in its launch: part, logical die and cluster, run, and logical core. -/
def Core.logicalPlace (k : Core) : Option Nat × Nat × Nat × Bool × Nat := (k.part, k.ldie, k.lcluster, k.runB, k.lcore)

theorem Core.logicalPlace_eq_iff {k l : Core} : k.logicalPlace = l.logicalPlace ↔
    k.part = l.part ∧ k.ldie = l.ldie ∧ k.lcluster = l.lcluster ∧ k.runB = l.runB ∧ k.lcore = l.lcore := by
  simp [logicalPlace]

namespace State

variable {s : State} {c : CoreId}

/-- A running core with idle engines does by itself what its synchronisation instruction, or its wait, lets it do. -/
theorem settleOne_enginesIdle (running : (s.core c).run = .running) (idle : (s.core c).EnginesIdle) :
    s.settleOne c = ((s.core c).syncQ.head?.bind (s.syncStep c)).orElse fun _ => s.stallStep c := by
  obtain ⟨queue, -⟩ := List.append_eq_nil_iff.mp idle.stream
  simp only [settleOne, running, idle.queuedList_eq_nil, idle.dueGroup_eq_none, idle.cfgHead_eq_none, queue,
    List.findSome?_nil, ne_eq, not_true_eq_false, if_false]
  cases (s.core c).syncQ.head?.bind (s.syncStep c) <;> rfl

theorem settleOne_stopped (stopped : (s.core c).run = .stopped) : s.settleOne c = none := by
  simp [settleOne, stopped]

theorem stallStep_none (h : (s.core c).stall = .none) : s.stallStep c = none := by simp [stallStep, h]
theorem stallStep_engine {n : Nat} (h : (s.core c).stall = .engine n) : s.stallStep c = none := by simp [stallStep, h]

theorem isPaired_congr {t : State} (launches : t.launches = s.launches) (part : (t.core c).part = (s.core c).part) :
    t.isPaired c = s.isPaired c := by
  simp only [isPaired, coreLaunch, launches, part]

/-- The number of a core in its logical cluster is that of its launch. -/
theorem arrivalKey_congr {t : State} (place : (t.core c).logicalPlace = (s.core c).logicalPlace)
    (launches : t.launches = s.launches) (b : Nat) : t.arrivalKey c b = s.arrivalKey c b := by
  obtain ⟨part, die, cluster, run, core⟩ := Core.logicalPlace_eq_iff.mp place
  simp only [arrivalKey, lcoreInCluster, clusterPeers, coreLaunch, launches, part, die, cluster, run, core]

theorem logClusterKey_congr {t : State} (place : (t.core c).logicalPlace = (s.core c).logicalPlace) :
    t.logClusterKey c = s.logClusterKey c := by
  obtain ⟨part, die, cluster, run, -⟩ := Core.logicalPlace_eq_iff.mp place
  simp only [logClusterKey, part, die, cluster, run]

/-- A core of an unpaired launch that is at rest after one step settles in that step. -/
theorem settle_one {t : State} (step : s.settleOne c = some t) (rest : t.settleOne c = none) (alone : t.isPaired c = false) :
    s.settle c = t := by
  have once : s.settleN c 64 = t := by simp [settleN, step, rest]
  simp [settle, once, alone]
  split <;> rfl

end State

/-! ### One synchronisation instruction, and no other engine work -/

/-- A synchronisation instruction as it enters its queue. -/
def State.syncEntry (s : State) (c : CoreId) (w : W32) (e : EngineForm) : EInstr :=
  { ord := (s.core c).ordNext, pc := (s.core c).seq.pc, word := w
    x1 := operandOf s c w e.rs1, x2 := operandOf s c w e.rs2
    reads := (e.reads.map fun f => bits w f.1 f.2).toList, writes := (e.writes.map fun f => bits w f.1 f.2).toList
    stores := (s.core c).storeNext }

/-- The state in which the sequencer of a core without engine work has passed a synchronisation instruction on. -/
def State.syncing (s : State) (c : CoreId) (w : W32) (e : EngineForm) : State :=
  s.setCore c { s.core c with
    seq := wentOn s c, twin := wentOn s c, progAt := (s.die c.die).ticks, ordNext := (s.core c).ordNext + 1
    stall := if e.blocking then .engine (s.core c).ordNext else .none
    syncQ := [s.syncEntry c w e] }

/-- The instruction `i` is the only engine work of a running core of an unpaired launch; the sequencers hold `r`, and wait for
nothing or for it. -/
structure OneSync (u : State) (c : CoreId) (i : EInstr) (r : SeqRegs) : Prop where
  runs : (u.core c).run = .running
  idle : (u.core c).EnginesIdle
  head : (u.core c).syncQ = [i]
  seq : (u.core c).seq = r
  twin : (u.core c).twin = r
  stall : (u.core c).stall = .none ∨ (u.core c).stall = .engine i.ord
  alone : u.isPaired c = false

section
variable {s : State} {c : CoreId} {w : W32} {e : EngineForm}

theorem calm_iff : Calm s c ↔ ((s.core c).EnginesIdle ∧ (s.core c).syncQ = []) ∧ s.lcred c = 0 := by
  have lists : (s.core c).allList = [] ↔ (s.core c).EnginesIdle ∧ (s.core c).syncQ = [] := by
    simp only [Core.allList, List.append_eq_nil_iff]
    exact ⟨fun ⟨⟨⟨a, b⟩, v⟩, q⟩ => ⟨⟨a, b, v⟩, q⟩, fun ⟨⟨a, b, v⟩, q⟩ => ⟨⟨⟨a, b⟩, v⟩, q⟩⟩
  rw [Calm, lists]

theorem queued_sync {d : EngineDef} (m : Models e d) (sync : e.unit = 5) (u : unitOf w = 5) (keeps : e.op ≠ 0x0A)
    (free : (s.core c).stall = .none) (empty : (s.core c).syncQ = []) : s.queued c w d = s.syncing c w e := by
  have entry : s.entryOf c w d = s.syncEntry c w e := by
    simp [State.entryOf, State.syncEntry, m.unit, sync, m.rs1, m.rs2, m.reads, m.writes]
  have v : unitOf (s.syncEntry c w e).word = 5 := u
  rw [State.queued, entry, State.enqueue, v]
  simp only [State.updCore, State.core_passed]
  rw [State.passed, State.updCore, State.setCore_setCore, State.withPair, State.setCore_setCore]
  simp [State.syncing, empty, free, m.op, keeps, m.blocking]

theorem syncForms_unit : ∀ e ∈ syncForms, e.unit = 5 ∧ e.phase = none := by simp [syncForms]

/-- A synchronisation instruction that raises no fault at dispatch is the only engine work of its core when the core settles. -/
theorem exec_sync (he : e ∈ syncForms) (h : SyncTakes s c w e.op) (enc : encodingOk e w) (plain : e.op < 8 ∨ 0x0A < e.op) :
    exec (e.cmd c w) s = .next ((s.syncing c w e).settle c) := by
  obtain ⟨d, m⟩ := syncForms_models e he
  obtain ⟨unit, phase⟩ := syncForms_unit e he
  obtain ⟨⟨-, empty⟩, -⟩ := calm_iff.mp h.calm
  have takes : Takes s c w e.unit e.op := unit ▸ h.takes
  have ok : dispatchOk s c w e := by
    refine ⟨?_, ?_, ?_, ?_, ?_⟩
    · simp [phase]
    all_goals intros; omega
  have opened : ¬ s.queueFull c w = true := fun full =>
    (queueFull_iff m takes.unit).mp full (by simp [queueOpen, unit, empty])
  have keeps : e.op ≠ 0x0A := by omega
  rw [exec_engine m takes h.guard enc, dispatchFault_none m ok,
    ← queued_sync m unit h.takes.unit keeps h.takes.free empty]
  exact congrArg _ (if_neg opened)

theorem State.core_syncing : (s.syncing c w e).core c = { s.core c with
    seq := wentOn s c, twin := wentOn s c, progAt := (s.die c.die).ticks, ordNext := (s.core c).ordNext + 1
    stall := if e.blocking then .engine (s.core c).ordNext else .none
    syncQ := [s.syncEntry c w e] } := State.core_setCore ..

theorem State.logicalPlace_syncing : ((s.syncing c w e).core c).logicalPlace = (s.core c).logicalPlace := by
  rw [core_syncing]
  rfl

/-- The sequencer waits for a blocking instruction. -/
theorem stall_syncing_blocking (blocks : e.blocking = true) :
    ((s.syncing c w e).core c).stall = .engine (s.core c).ordNext := by
  rw [State.core_syncing, blocks]
  rfl

theorem oneSync_syncing {op : Nat} (h : SyncTakes s c w op) :
    OneSync (s.syncing c w e) c (s.syncEntry c w e) (wentOn s c) := by
  obtain ⟨⟨⟨arrays, stream, vector⟩, -⟩, -⟩ := calm_iff.mp h.calm
  have core := State.core_syncing (s := s) (c := c) (w := w) (e := e)
  refine { runs := ?_, idle := ⟨?_, ?_, ?_⟩, head := ?_, seq := ?_, twin := ?_, stall := ?stall, alone := ?alone }
  case alone => exact (State.isPaired_congr (s := s) (t := s.syncing c w e) rfl (by rw [core])).trans h.alone
  case stall => rw [core]; cases e.blocking <;> simp [State.syncEntry]
  all_goals rw [core]
  · exact h.takes.runs
  · exact arrays
  · exact stream
  · exact vector

end

namespace OneSync

variable {u v : State} {c : CoreId} {i : EInstr} {r : SeqRegs} (h : OneSync u c i r)
include h

/-- A change of a core's tokens, its phase and what it waits for leaves its one instruction in its queue. -/
theorem congr {tokens : SMap Token} {phase : Phase} {grantReq halo : Bool} {barrier : Option Nat}
    (core : v.core c = { u.core c with
      tokens := tokens, phase := phase, grantReq := grantReq, atBarrier := barrier, haloWaiting := halo })
    (launches : v.launches = u.launches) :
    OneSync v c i r := by
  obtain ⟨arrays, stream, vector⟩ := h.idle
  refine { runs := ?_, idle := ⟨?_, ?_, ?_⟩, head := ?_, seq := ?_, twin := ?_, stall := ?stall, alone := ?alone }
  case alone => rw [State.isPaired_congr launches (by rw [core]), h.alone]
  case stall => rw [core]; exact h.stall
  all_goals rw [core]
  exacts [h.runs, arrays, stream, vector, h.head, h.seq, h.twin]

theorem allList : (u.core c).allList = [i] := by
  simp [Core.allList, h.idle.arrays, h.idle.stream, h.idle.vector, h.head]

theorem claimBefore (n : Nat) : (u.core c).claimBefore i.ord n = false := by simp [Core.claimBefore, h.allList]

theorem settleOne : u.settleOne c = (u.syncStep c i).orElse fun _ => u.stallStep c := by
  rw [State.settleOne_enginesIdle h.runs h.idle, h.head, List.head?_cons, Option.bind_some]

theorem settleOne_step {t : State} (step : u.syncStep c i = some t) : u.settleOne c = some t := by
  rw [h.settleOne, step, Option.orElse_some]

/-- A core whose instruction waits, and whose sequencer waits for it, is at rest. -/
theorem settleOne_waits (step : u.syncStep c i = none) : u.settleOne c = none := by
  rw [h.settleOne, step, Option.orElse_none]
  rcases h.stall with free | waits
  · exact State.stallStep_none free
  · exact State.stallStep_engine waits

/-- The record of the core whose instruction has completed, with a result only where the sequencer waits for it. -/
theorem core_syncDone (f : SeqRegs → SeqRegs) (result : (u.core c).stall = .none → f r = r) :
    ∃ n, (u.syncDone c i f).core c = { u.core c with
      syncQ := [], remoteWait := false, haloWaiting := false, stall := .none, seq := f r, twin := f r, progAt := n } := by
  have gone : [i].filter (fun q => decide (q.ord ≠ i.ord)) = [] := by simp
  rcases h.stall with free | waits
  · refine ⟨(u.core c).progAt, ?_⟩
    rw [result free, State.syncDone, State.retire]
    simp [free, h.head, h.seq, h.twin]
  · refine ⟨(u.die c.die).ticks, ?_⟩
    rw [State.core_syncDone _ _ _ _ waits, h.head, gone, h.seq, h.twin]

/-- The core is at rest with the instruction over. -/
theorem syncDone (f : SeqRegs → SeqRegs) (result : (u.core c).stall = .none → f r = r) :
    SyncOver (u.syncDone c i f) c (f r) ∧ (u.syncDone c i f).settleOne c = none ∧ (u.syncDone c i f).isPaired c = false := by
  obtain ⟨n, core⟩ := h.core_syncDone f result
  have idle : ((u.syncDone c i f).core c).EnginesIdle := by
    rw [core]
    exact ⟨h.idle.arrays, h.idle.stream, h.idle.vector⟩
  have completed : SyncOver (u.syncDone c i f) c (f r) := by
    rw [SyncOver, core]
    exact ⟨rfl, rfl, rfl, rfl⟩
  have ⟨_, _, stall, queue⟩ := completed
  refine ⟨completed, ?_, ?_⟩
  · rw [State.settleOne_enginesIdle (by rw [core]; exact h.runs) idle, queue]
    exact State.stallStep_none stall
  · rw [State.isPaired_congr (s := u) (by unfold State.syncDone State.retire; split <;> rfl) (by rw [core]), h.alone]

/-- A core whose one instruction completes settles with it. -/
theorem settle_done {f : SeqRegs → SeqRegs} (at' : OneSync v c i r) (step : u.syncStep c i = some (v.syncDone c i f))
    (result : (v.core c).stall = .none → f r = r) :
    u.settle c = v.syncDone c i f ∧ SyncOver (v.syncDone c i f) c (f r) := by
  obtain ⟨completed, rest, alone⟩ := at'.syncDone f result
  exact ⟨State.settle_one (h.settleOne_step step) rest alone, completed⟩

/-- A core whose one instruction makes a step and then waits settles with the step. -/
theorem settle_waits (at' : OneSync v c i r) (step : u.syncStep c i = some v) (waits : v.syncStep c i = none) :
    u.settle c = v :=
  State.settle_one (h.settleOne_step step) (at'.settleOne_waits waits) at'.alone

end OneSync

/-- The instruction of the synchronisation unit with an opcode, as Table 06-10 lists it. -/
def syncForm (op : Fin 16) : EngineForm := syncForms[op]

theorem syncForm_mem (op : Fin 16) : syncForm op ∈ syncForms := List.getElem_mem _

theorem eopField_of_syncTakes {s : State} {c : CoreId} {w : W32} {op : Nat} (h : SyncTakes s c w op) : eopField w = op :=
  h.takes.opcode

namespace State

variable (s : State) (c : CoreId) (i : EInstr) (f : SeqRegs → SeqRegs)

@[simp] theorem clusters_syncDone : (s.syncDone c i f).clusters = s.clusters := by
  unfold syncDone retire
  split <;> rfl

/-- The end of a synchronisation instruction leaves the tokens and the phase alone. -/
theorem tokens_phase_syncDone : ((s.syncDone c i f).core c).tokens = (s.core c).tokens ∧
    ((s.syncDone c i f).core c).phase = (s.core c).phase := by
  simp only [syncDone, retire, moved]
  split <;> simp <;> split <;> exact ⟨rfl, rfl⟩

theorem tok_syncDone (n : Nat) : ((s.syncDone c i f).core c).tok n = (s.core c).tok n := by
  simp only [Core.tok, (tokens_phase_syncDone s c i f).1]

theorem phase_syncDone : ((s.syncDone c i f).core c).phase = (s.core c).phase := (tokens_phase_syncDone s c i f).2

@[simp] theorem cluster_syncDone (k : ClusterId) : (s.syncDone c i f).cluster k = s.cluster k := by
  simp only [cluster, clusters_syncDone]

end State

section
variable {s : State} {c : CoreId} {w : W32} {e : EngineForm} (he : e ∈ syncForms) (h : SyncTakes s c w e.op)
  (enc : encodingOk e w) (plain : e.op < 8 ∨ 0x0A < e.op)
include he h enc plain

/-- A synchronisation instruction completes at once where its step is its end. -/
theorem exec_sync_done {v : State} {f : SeqRegs → SeqRegs}
    (step : (s.syncing c w e).syncStep c (s.syncEntry c w e) = some (v.syncDone c (s.syncEntry c w e) f))
    (at' : OneSync v c (s.syncEntry c w e) (wentOn s c))
    (result : (v.core c).stall = .none → f (wentOn s c) = wentOn s c) :
    exec (e.cmd c w) s = .next (v.syncDone c (s.syncEntry c w e) f) ∧
      SyncOver (v.syncDone c (s.syncEntry c w e) f) c (f (wentOn s c)) := by
  obtain ⟨settles, completed⟩ := (oneSync_syncing h).settle_done at' step result
  exact ⟨(exec_sync he h enc plain).trans (congrArg _ settles), completed⟩

/-- It waits after its step where it has no further one. -/
theorem exec_sync_waits {v : State} (step : (s.syncing c w e).syncStep c (s.syncEntry c w e) = some v)
    (at' : OneSync v c (s.syncEntry c w e) (wentOn s c)) (waits : v.syncStep c (s.syncEntry c w e) = none) :
    exec (e.cmd c w) s = .next v :=
  (exec_sync he h enc plain).trans (congrArg _ ((oneSync_syncing h).settle_waits at' step waits))

end

/-! ### Words with unused fields of 0, and results -/

theorem bits_eq_zero_of_wider {w : W32} {hi lo hi' lo' : Nat} (h : bits w hi lo = 0) (low : lo ≤ lo') (high : hi' ≤ hi) :
    bits w hi' lo' = 0 := by
  apply Nat.eq_of_testBit_eq
  intro n
  have bit := congrArg (·.testBit (lo' - lo + n)) h
  simp only [bits, field, Nat.testBit_mod_two_pow, Nat.testBit_shiftRight, Nat.zero_testBit, Bool.and_eq_false_imp,
    decide_eq_true_eq] at bit ⊢
  intro inside
  rw [← bit (by omega)]
  congr 1
  omega

/-- Fields that lie inside fields of 0 are 0. -/
theorem bits_eq_zero_of_inside {w : W32} {outer inner : List (Nat × Nat)} (zero : ∀ y ∈ outer, bits w y.1 y.2 = 0)
    (inside : ∀ z ∈ inner, ∃ y ∈ outer, y.2 ≤ z.2 ∧ z.1 ≤ y.1) : ∀ z ∈ inner, bits w z.1 z.2 = 0 := by
  intro z hz
  obtain ⟨y, hy, low, high⟩ := inside z hz
  exact bits_eq_zero_of_wider (zero y hy) low high

/-- A register written by an instruction that goes on. -/
theorem wrote_write (r : SeqRegs) (rd : Nat) (v : W64) :
    Wrote r (({ r with pc := r.pc + 1 } : SeqRegs).write rd v) rd v := by
  have rest : ∀ x : SeqRegs, (x.write rd v).p = x.p ∧ (x.write rd v).pc = x.pc ∧ (x.write rd v).stack = x.stack := by
    intro x
    unfold SeqRegs.write
    split <;> exact ⟨rfl, rfl, rfl⟩
  obtain ⟨preds, pc, stack⟩ := rest { r with pc := r.pc + 1 }
  refine { at' := fun h => ?_, zero := rfl, others := fun n h => ?_, preds := preds, pc := pc, stack := stack }
  · simp [read_write, h]
  · rw [read_write, if_neg fun same => h same.1]
    rfl

/-! ### What each instruction of the synchronisation unit does -/

namespace State

section
variable {s : State} {c : CoreId} {i : EInstr}

theorem syncStep_tdef (op : eopField i.word = 0x00) (free : (s.core c).claimBefore i.ord (fYT i.word) = false)
    (ok : Token.descOk i.x1 i.x2 (s.core c).csBytes = true) : s.syncStep c i =
      some (((s.unbind c (fYT i.word)).updCore c fun k =>
        k.setTok (fYT i.word) { region := i.x1, shape := i.x2 }).syncDone c i id) := by
  simp [syncStep, op, free, ok]

theorem syncStep_tdef_fails (op : eopField i.word = 0x00) (free : (s.core c).claimBefore i.ord (fYT i.word) = false)
    (bad : Token.descOk i.x1 i.x2 (s.core c).csBytes = false) :
    s.syncStep c i = some (s.engFault c 5 0x0601 0 (fYT i.word) i) := by
  simp [syncStep, op, free, bad]

theorem syncStep_trel (op : eopField i.word = 0x01) (free : (s.core c).claimBefore i.ord (fIdx i.word) = false) :
    s.syncStep c i = some ((s.updCore c fun k => k.setTokState (fIdx i.word) .empty).syncDone c i id) := by
  simp [syncStep, op, free]

theorem syncStep_tstat (op : eopField i.word = 0x02) (alone : (s.core c).allList = [i]) (reads : i.reads = [])
    (writes : i.writes = []) : s.syncStep c i = some (s.syncDone c i fun r => r.write (fYrRd i.word) (BitVec.ofNat 64
      (((s.core c).tok (fIdx i.word)).st.code + if ((s.core c).tok (fIdx i.word)).window.isSome then 4 else 0))) := by
  have kind : ∀ b : Bool, bit b * 4 = if b then 4 else 0 := by decide
  simp [syncStep, op, alone, reads, writes, kind, place]

theorem syncStep_phase (op : eopField i.word = 0x03) : s.syncStep c i = s.phaseStep c i := by
  simp [syncStep, op]

theorem syncStep_wait (op : eopField i.word = 0x04) (idle : (s.core c).EnginesIdle) :
    s.syncStep c i = some (s.syncDone c i id) := by
  simp [syncStep, op, idle.arrays, idle.stream, idle.vector, Core.anyBefore]

theorem syncStep_hpost (op : eopField i.word = 0x06) (idle : (s.core c).EnginesIdle) :
    s.syncStep c i = some ((s.setCluster c.cluster { s.cluster c.cluster with
      halo := (s.cluster c.cluster).halo.setD 0 (fIdx i.word) (s.halo c (fIdx i.word) + i.x1.truncate 32) }).syncDone
        c i id) := by
  simp [syncStep, op, idle.stream, Core.anyBefore]

section
variable (op : eopField i.word = 0x05)
include op

theorem syncStep_bar (away : (s.core c).atBarrier = none) (idle : (s.core c).EnginesIdle) (stores : (s.core c).stores = []) :
    s.syncStep c i =
      let u := s.waitAway c
      let key := u.arrivalKey c (fIdx i.word)
      some ((u.setCluster c.cluster { u.cluster c.cluster with
        arrivals := (u.cluster c.cluster).arrivals.put key ((u.cluster c.cluster).arrivals.get 0 key + 1) }).updCore c
          fun k => { k with atBarrier := some (fIdx i.word) }) := by
  simp [syncStep, op, away, idle.enginesDone_eq_true, Core.storesDone, stores]

theorem syncStep_bar_waits {b : Nat} (waits : (s.core c).atBarrier = some b) : s.syncStep c i = none := by
  simp [syncStep, op, waits]

end

section
variable (op : eopField i.word = 0x07)
include op

theorem syncStep_hwait (fresh : (s.core c).haloWaiting = false) : s.syncStep c i =
    if wge 32 (s.halo c (fIdx i.word)).toNat (i.x1.toNat % 2 ^ 32) then some (s.syncDone c i id)
    else some ((s.waitAway c).updCore c fun k => { k with haloWaiting := true }) := by
  simp [syncStep, op, fresh]

theorem syncStep_hwait_waits (waits : (s.core c).haloWaiting = true) : s.syncStep c i = none := by
  simp [syncStep, op, waits]

end

/-- Pool 0 is that of the map store. -/
theorem syncStep_alloc (op : eopField i.word = 0x0B) (pool : fIdx i.word = 0) : s.syncStep c i =
    some ((s.alloc0 c i.x1.toNat).1.syncDone c i fun r =>
      r.write (fYrRd i.word) (BitVec.ofNat 64 (s.alloc0 c i.x1.toNat).2)) := by
  simp [syncStep, op, pool, bitAt]

theorem syncStep_free {t : State} (op : eopField i.word = 0x0C) (pool : fIdx i.word = 0) (idle : (s.core c).EnginesIdle)
    (stores : (s.core c).stores = []) (gives : s.free0 c i.x1.toNat = some t) :
    s.syncStep c i = some (t.syncDone c i id) := by
  simp [syncStep, op, pool, bitAt, idle.enginesDone_eq_true, Core.storesDone, stores, gives]

section
variable (op : eopField i.word = 0x0D)
include op

theorem syncStep_wgclm_none (none : s.claimable c = none) : s.syncStep c i =
    some (s.syncDone c i fun r => r.write (fYrRd i.word) (BitVec.allOnes 64)) := by
  simp [syncStep, op, none]

theorem syncStep_wgclm_some {g : Nat} (claims : s.claimable c = some g) : s.syncStep c i =
    some ((s.setCluster c.cluster { s.cluster c.cluster with
      gens := (s.cluster c.cluster).gens.put g { claim := some (s.logClusterKey c) } }).syncDone c i
        fun r => r.write (fYrRd i.word) (BitVec.ofNat 64 g)) := by
  simp [syncStep, op, claims]

end

end

end State
end Sys2Proof.Machine
end

section
/-!
SUPPORT. A program fault stops its core, and leaves the launch paired or unpaired as it was (R113, R114, R247, R322).
-/
namespace Sys2Proof.Machine

namespace State

/-- What every step of a fold leaves alone, the fold leaves alone. -/
theorem cores_foldl {α : Type} {f : State → α → State} (h : ∀ s a, (f s a).cores = s.cores) (l : List α) (s : State) :
    (l.foldl f s).cores = s.cores :=
  List.foldlRecOn l f (motive := fun t : State => t.cores = s.cores) rfl fun t same a _ => (h t a).trans same

section
variable (s : State) (d : DieId)

/-! ### The transport of a message changes no core -/

@[simp] theorem cores_cuffRefill (path n : Nat) : (s.cuffRefill d path n).cores = s.cores :=
  (cores_foldl (fun t p => by split <;> rfl) _ _).trans rfl

@[simp] theorem cores_cuffTake (path p n : Nat) (ahead : Bool) : (s.cuffTake d path p n ahead).cores = s.cores := by
  simp only [cuffTake, setCuffB]
  split
  · rfl
  · split <;> simp

@[simp] theorem cores_cuffSlot (path : Nat) (ready : List Nat) : (s.cuffSlot d path ready).1.cores = s.cores := by
  simp only [cuffSlot, setCuffB]
  split
  · simp
  · simp
  · split <;> simp

variable (l : LinkId)

@[simp] theorem cores_nextRequest (p : Nat) (reqs : List Flit) : (s.nextRequest l p reqs).1.cores = s.cores := by
  simp only [nextRequest]
  split <;> rfl

@[simp] theorem cores_nextFlit : (s.nextFlit l).1.cores = s.cores := by
  simp only [nextFlit]
  split
  · split <;> simp
  split
  · rfl
  split
  · simp
  split
  · rfl
  split
  next t p h => exact (cores_nextRequest ..).trans (by rw [← cores_cuffSlot s, h])
  next t h => rw [← cores_cuffSlot s, h]

@[simp] theorem cores_sendIdle : (s.sendIdle l).cores = s.cores := by
  simp only [sendIdle]
  split <;> rfl

@[simp] theorem cores_freeVia (f : Flit) : (s.freeVia d f).cores = s.cores := by
  unfold freeVia
  split <;> simp

@[simp] theorem cores_stampSent (f : Flit) : (s.stampSent d f).cores = s.cores := by
  unfold stampSent
  split
  · rfl
  split
  · rfl
  split <;> rfl

@[simp] theorem cores_pumpOne : (s.pumpOne l).cores = s.cores := by
  have next := cores_nextFlit s l
  simp only [pumpOne]
  split
  · rfl
  split
  next t h => simpa [h] using next
  next t f h => simpa [h] using next

@[simp] theorem cores_pumpN (n : Nat) : (s.pumpN l n).cores = s.cores := by
  induction n generalizing s with
  | zero => rfl
  | succ n ih => simp [pumpN, ih]

@[simp] theorem cores_enqueueFlit (f : Flit) : (s.enqueueFlit l f).cores = s.cores := by
  simp [enqueueFlit, pump]

@[simp] theorem cores_sendMsg (src dst : DieId) (m : Msg) : (s.sendMsg src dst m).cores = s.cores := by
  unfold sendMsg
  split
  · rfl
  split
  · exact cores_report ..
  · exact cores_foldl (fun t m => cores_enqueueFlit t _ _) _ s

/-! ### The loss of a context stops cores and gives stores up -/

@[simp] theorem cores_setCause (bitNo code : Nat) (ssr : Bool) : (s.setCause d bitNo code ssr).cores = s.cores := rfl

@[simp] theorem cores_eventRecord (code info : Nat) : (s.eventRecord d code info).cores = s.cores := by
  simp only [eventRecord]
  split
  · split <;> rfl
  · rfl

@[simp] theorem cores_writeBytes (pa : Nat) (bs : List Byte) : (s.writeBytes pa bs).cores = s.cores := by
  induction bs generalizing s pa with
  | nil => rfl
  | cons b bs ih => exact ih ..

@[simp] theorem cores_putCtx (n : Nat) (c : Ctx) : (s.putCtx n c).cores = s.cores := by simp [putCtx, syncCtx]

theorem cores_withdraw (p : Owner → Bool) : (s.withdraw d p).cores = s.cores := rfl
theorem cores_dropEvents (p : Nat × Nat × Nat × EventRec → Bool) : (s.dropEvents d p).cores = s.cores := rfl

@[simp] theorem cores_withdrawCtx (n : Nat) : (s.withdrawCtx n).cores = s.cores :=
  (cores_foldl (fun t d => cores_withdraw t d _) _ _).trans (cores_foldl (fun t d => cores_dropEvents t d _) _ s)

end

section
variable (s : State) (c : CoreId)

/-- A core that stops works for its part still; one that is idle or in reset stays so. -/
theorem run_stopCore : ((s.stopCore c).core c).run =
    if (s.core c).run = .idle ∨ (s.core c).run = .reset then (s.core c).run else .stopped := by
  have core : (s.stopCore c).core c = _ := core_setCore ..
  rw [core]
  rfl

theorem part_stopCore : ((s.stopCore c).core c).part = (s.core c).part := by
  have core : (s.stopCore c).core c = _ := core_setCore ..
  rw [core]
  rfl

/-- A store that must be cleared before its next use is noted in its core (R181). -/
theorem core_dirtyStores (n : Nat) : ∃ x, (s.dirtyStores n).core c = { s.core c with store := x } := by
  simp only [core, dirtyStores, SMap.get, SMap.find?_mapVals]
  cases s.cores.find? c.key with
  | none => exact ⟨_, rfl⟩
  | some k => exact ⟨_, rfl⟩

theorem core_stopCore_other {b : CoreId} (other : c ≠ b) : (s.stopCore b).core c = s.core c :=
  core_setCore_other _ _ _ _ other

end

/-- A core has stopped in a part that it works for. -/
def StoppedIn (s : State) (c : CoreId) (q : Nat) : Prop := (s.core c).run = .stopped ∧ (s.core c).part = some q

namespace StoppedIn

variable {s : State} {c : CoreId} {q : Nat} (h : s.StoppedIn c q)
include h

theorem of_cores {t : State} (same : t.cores = s.cores) : t.StoppedIn c q := by
  simpa only [StoppedIn, core, same] using h

theorem foldl {α : Type} {f : State → α → State}
    (keeps : ∀ {t : State} (a : α), t.StoppedIn c q → (f t a).StoppedIn c q) (l : List α) : (l.foldl f s).StoppedIn c q :=
  List.foldlRecOn l f (motive := fun t : State => t.StoppedIn c q) h fun _ stopped a _ => keeps a stopped

theorem of_core {t : State} (run : (t.core c).run = (s.core c).run) (part : (t.core c).part = (s.core c).part) :
    t.StoppedIn c q := ⟨run.trans h.1, part.trans h.2⟩

theorem stopCore (b : CoreId) : (s.stopCore b).StoppedIn c q := by
  by_cases same : c = b
  · subst same
    exact h.of_core (by simp [run_stopCore, h.1]) (part_stopCore ..)
  · have core := core_stopCore_other s c same
    exact h.of_core (by rw [core]) (by rw [core])

theorem stopPart (p : Nat) (d : DieId) : (s.stopPart p d).StoppedIn c q :=
  (h.foldl (fun b stopped => stopped.stopCore b) _).of_cores rfl

theorem stopLaunch (p : Nat) : (s.stopLaunch p).StoppedIn c q :=
  (h.stopPart p _).of_cores (cores_foldl (fun t _ => cores_sendMsg t _ _ _) _ _)

theorem dirtyStores (n : Nat) : (s.dirtyStores n).StoppedIn c q := by
  obtain ⟨x, core⟩ := core_dirtyStores s c n
  exact h.of_core (by rw [core]) (by rw [core])

/-- The loss of a context with a program's fault. -/
theorem lose (home : DieId) (n code cls : Nat) (rec : FaultRec) (program : rec.prog = true) :
    (s.lose home n code cls rec).StoppedIn c q := by
  simp only [State.lose, program, if_true]
  split
  · exact h
  refine foldl (of_cores (dirtyStores (of_cores h ?_) n) (cores_withdrawCtx ..)) (fun b stopped => stopped.stopLaunch b) _
  refine (cores_foldl (fun _ _ => by rfl) _ _).trans ?_
  split
  · split <;> simp
  · simp

theorem failLaunch (p : Nat) (rec : FaultRec) (count : W64) (program : rec.prog = true) :
    (s.failLaunch p rec count).StoppedIn c q := by
  unfold State.failLaunch
  split
  · exact h
  dsimp only
  refine stopLaunch (lose (of_cores h ?_) _ _ _ _ _ program) p
  simp [apply_ite State.cores]

theorem setDie (d : DieId) (v : Die) : (s.setDie d v).StoppedIn c q := h.of_cores rfl

theorem partFault (d : DieId) (p ldie : Nat) (rec : FaultRec) (program : rec.prog = true) :
    (s.partFault d p ldie rec).StoppedIn c q := by
  unfold State.partFault
  dsimp only
  split
  · exact (h.setDie ..).failLaunch p rec _ program
  · exact (h.setDie ..).of_cores (cores_sendMsg ..)

end StoppedIn

/-! ### What stays of a launch that fails: its logical cores -/

/-- The logical cores of a launch in progress. -/
def launchLogCores (s : State) (q : Nat) : Option (List LogCore) := (s.launches.find? q).map (·.cores)

section
variable (s : State) (q : Nat) (rec : FaultRec)

theorem launches_lose (home : DieId) (n code cls : Nat) : (s.lose home n code cls rec).launches = s.launches := by
  by_cases live : (s.ctx n).st = .free ∨ (s.ctx n).st = .lost
  · simp only [lose, live, if_true]
  · exact (lose_live s home n code cls rec live).1

theorem launchLogCores_failLaunch (count : W64) : (s.failLaunch q rec count).launchLogCores q = s.launchLogCores q := by
  unfold failLaunch
  split
  · rfl
  next l found =>
    dsimp only
    rw [launchLogCores, launches_of_objects (objects_stopLaunch ..), launches_lose,
      apply_ite State.launches, launches_putCtx, ite_self]
    simp [launchLogCores, found]

theorem launchLogCores_partFault (d : DieId) (ldie : Nat) :
    (s.partFault d q ldie rec).launchLogCores q = s.launchLogCores q := by
  unfold partFault
  dsimp only
  split
  · rw [launchLogCores_failLaunch]
    rfl
  · rw [launchLogCores, launches_of_objects (objects_sendMsg ..)]
    rfl

end

section
variable {s : State} {c : CoreId}

theorem isPaired_eq_launchLogCores {q : Nat} (part : (s.core c).part = some q) :
    s.isPaired c = ((s.launchLogCores q).map fun l => l.any (·.runB)).getD false := by
  simp [isPaired, coreLaunch, launchLogCores, part, Function.comp_def]

/-- A program fault stops the core, whose launch stays as paired as it was (R113). -/
theorem progFault_stops (running : (s.core c).run = .running) (src code addr info pc insn : Nat) :
    ((s.progFault c src code addr info pc insn).core c).run = .stopped ∧
      (s.progFault c src code addr info pc insn).isPaired c = s.isPaired c := by
  have stopped : ((s.stopCore c).core c).run = .stopped := by simp [run_stopCore, running]
  unfold progFault
  dsimp only
  split
  next => exact ⟨stopped, isPaired_congr rfl (part_stopCore ..)⟩
  next q part =>
    have inPart : (s.stopCore c).StoppedIn c q := ⟨stopped, (part_stopCore ..).trans part⟩
    have still := (inPart.stopPart q c.die).partFault c.die q (s.core c).ldie
    refine ⟨(still _ rfl).1, ?_⟩
    refine (isPaired_eq_launchLogCores (still _ rfl).2).trans ?_
    rw [isPaired_eq_launchLogCores part, launchLogCores_partFault, launchLogCores,
      launches_of_objects (objects_stopPart ..)]
    rfl

end

end State

end Sys2Proof.Machine
end

section
/-!
PROOFS. The synchronisation instructions of a core without engine work: tokens, phases, waits, halo counters, barriers, pool 0
and window generators (06_engine_instructions.md, R118 to R122, R140 to R148, R187, R188).
-/
namespace Sys2Proof.Machine

/-! ### Tokens -/

namespace State

section
variable (s : State) (c : CoreId) (w : W32) (e : EngineForm)

theorem tok_syncing (n : Nat) : ((s.syncing c w e).core c).tok n = (s.core c).tok n := by
  rw [core_syncing]
  rfl

theorem core_unbind (t : Nat) : (s.unbind c t).core c = s.core c := rfl

end

end State

/-- A token reads as it was last written, and writing one leaves the others alone. -/
theorem Core.tok_setTok (k : Core) (t n : Nat) (v : Token) : (k.setTok t v).tok n = if n = t then v else k.tok n := by
  unfold setTok tok
  split
  next h => rw [h, SMap.get_setD_same]
  next h => exact SMap.get_setD_other _ _ _ h

namespace State

section
variable {s : State} {c : CoreId} {i : EInstr} (compute : (s.core c).phase = .compute) (idle : (s.core c).EnginesIdle)
include compute idle

/-- Out of COMPUTE the phase is STORE at once where the arrays and the vector unit have no work (R141). -/
theorem phaseStep_store (target : fIdx i.word = 2) :
    s.phaseStep c i = some ((s.updCore c fun k => { k with phase := .store }).syncDone c i id) := by
  simp [phaseStep, target, compute, idle.arrays, idle.vector, Core.anyBefore]

/-- LOAD needs the load grant, which the core asks for once (R18, R141). -/
theorem phaseStep_load (target : fIdx i.word = 0) (without : s.holdsGrant c = false) : s.phaseStep c i =
    if (s.core c).grantReq then none else some (s.updCore c fun k => { k with grantReq := true }) := by
  simp [phaseStep, target, compute, idle.arrays, idle.vector, Core.anyBefore, without]

end

end State

section
variable {s : State} {c : CoreId} {w : W32}

theorem tdef_defines (h : SyncTakes s c w 0x00) (unused : bits w 3 0 = 0)
    (ok : Token.descOk ((s.core c).seq.read (bits w 13 9)) ((s.core c).seq.read (bits w 8 4)) (s.core c).csBytes = true) :
    ∃ t, exec (.syncTdef c w) s = .next t ∧ SyncOver t c (wentOn s c) ∧
      (t.core c).tok (bits w 19 14) =
        { region := (s.core c).seq.read (bits w 13 9), shape := (s.core c).seq.read (bits w 8 4) } ∧
      ∀ n, n ≠ bits w 19 14 → (t.core c).tok n = (s.core c).tok n := by
  have enc : encodingOk (syncForm 0) w := ⟨bits_eq_zero_of_inside (outer := [(3, 0)]) (by simpa) (by decide), trivial⟩
  have one := oneSync_syncing (e := syncForm 0) h
  have step := State.syncStep_tdef (eopField_of_syncTakes h) (one.claimBefore _) (by rw [State.core_syncing]; exact ok)
  obtain ⟨run, completed⟩ :=
    exec_sync_done (syncForm_mem 0) h enc (by decide) step (one.congr (State.core_updCore ..) rfl) fun _ => rfl
  refine ⟨_, run, completed, ?_, fun n other => ?_⟩
  all_goals rw [State.tok_syncDone, State.core_updCore, State.core_unbind, Core.tok_setTok]
  · exact if_pos rfl
  · exact (if_neg other).trans (State.tok_syncing ..)

theorem tdef_fails (h : SyncTakes s c w 0x00) (unused : bits w 3 0 = 0)
    (bad : Token.descOk ((s.core c).seq.read (bits w 13 9)) ((s.core c).seq.read (bits w 8 4)) (s.core c).csBytes = false) :
    ∃ t, exec (.syncTdef c w) s = .next t ∧ Stopped t c := by
  have enc : encodingOk (syncForm 0) w := ⟨bits_eq_zero_of_inside (outer := [(3, 0)]) (by simpa) (by decide), trivial⟩
  have one := oneSync_syncing (e := syncForm 0) h
  have step := State.syncStep_tdef_fails (eopField_of_syncTakes h) (one.claimBefore _)
    (by rw [State.core_syncing]; exact bad)
  obtain ⟨stopped, paired⟩ := State.progFault_stops one.runs 5 0x0601 0 (fYT w) (s.core c).seq.pc.toNat w.toNat
  have settles := State.settle_one (one.settleOne_step step) (State.settleOne_stopped stopped) (paired.trans one.alone)
  exact ⟨_, (exec_sync (syncForm_mem 0) h enc (by decide)).trans (congrArg _ settles), stopped⟩

theorem trel_empties (h : SyncTakes s c w 0x01) (high : bits w 19 10 = 0) (low : bits w 3 0 = 0) :
    ∃ t, exec (.syncTrel c w) s = .next t ∧ SyncOver t c (wentOn s c) ∧
      (t.core c).tok (bits w 9 4) = { (s.core c).tok (bits w 9 4) with st := .empty } ∧
      ∀ n, n ≠ bits w 9 4 → (t.core c).tok n = (s.core c).tok n := by
  have enc : encodingOk (syncForm 1) w :=
    ⟨bits_eq_zero_of_inside (outer := [(19, 10), (3, 0)]) (by simp [high, low]) (by decide), trivial⟩
  have one := oneSync_syncing (e := syncForm 1) h
  have step := State.syncStep_trel (eopField_of_syncTakes h) (one.claimBefore _)
  obtain ⟨run, completed⟩ :=
    exec_sync_done (syncForm_mem 1) h enc (by decide) step (one.congr (State.core_updCore ..) rfl) fun _ => rfl
  refine ⟨_, run, completed, ?_, fun n other => ?_⟩
  all_goals rw [State.tok_syncDone, State.core_updCore, Core.setTokState, Core.tok_setTok, State.tok_syncing]
  · exact if_pos rfl
  · exact (if_neg other).trans (State.tok_syncing ..)

theorem tstat_reads (h : SyncTakes s c w 0x02) (unused : bits w 14 10 = 0) (low : bits w 3 0 = 0) :
    ∃ t r, exec (.syncTstat c w) s = .next t ∧ SyncOver t c r ∧
      Wrote (s.core c).seq r (bits w 19 15) (BitVec.ofNat 64
        (((s.core c).tok (bits w 9 4)).st.code + if ((s.core c).tok (bits w 9 4)).window.isSome then 4 else 0)) := by
  have enc : encodingOk (syncForm 2) w :=
    ⟨bits_eq_zero_of_inside (outer := [(14, 10), (3, 0)]) (by simp [unused, low]) (by decide), trivial⟩
  have one := oneSync_syncing (e := syncForm 2) h
  have step := State.syncStep_tstat (eopField_of_syncTakes h) one.allList rfl rfl
  rw [State.tok_syncing] at step
  obtain ⟨run, completed⟩ := exec_sync_done (syncForm_mem 2) h enc (by decide) step one fun free => by
    simp [stall_syncing_blocking (e := syncForm 2) rfl] at free
  exact ⟨_, _, run, completed, wrote_write ..⟩

/-! ### Phase and wait -/

theorem phase_to_store (h : SyncTakes s c w 0x03) (high : bits w 19 10 = 0) (low : bits w 3 0 = 0) (store : bits w 9 4 = 2)
    (compute : (s.core c).phase = .compute) :
    ∃ t, exec (.syncPhase c w) s = .next t ∧ SyncOver t c (wentOn s c) ∧ (t.core c).phase = .store := by
  have enc : encodingOk (syncForm 3) w :=
    ⟨bits_eq_zero_of_inside (outer := [(19, 10), (3, 0)]) (by simp [high, low]) (by decide), (by omega : bits w 9 4 < 3)⟩
  have one := oneSync_syncing (e := syncForm 3) h
  have core := State.core_updCore (s.syncing c w (syncForm 3)) c fun k => { k with phase := .store }
  have step := (State.syncStep_phase (s := s.syncing c w (syncForm 3)) (c := c) (i := s.syncEntry c w (syncForm 3))
    (eopField_of_syncTakes h)).trans (State.phaseStep_store (by rw [State.core_syncing]; exact compute) one.idle store)
  obtain ⟨run, completed⟩ := exec_sync_done (syncForm_mem 3) h enc (by decide) step (one.congr core rfl) fun _ => rfl
  exact ⟨_, run, completed, by rw [State.phase_syncDone, core]⟩

theorem phase_to_load (h : SyncTakes s c w 0x03) (high : bits w 19 10 = 0) (low : bits w 3 0 = 0) (load : bits w 9 4 = 0)
    (compute : (s.core c).phase = .compute) (without : s.holdsGrant c = false) (quiet : (s.core c).grantReq = false) :
    ∃ t, exec (.syncPhase c w) s = .next t ∧ (t.core c).phase = .compute ∧ (t.core c).grantReq = true ∧
      (t.core c).stall = .engine (s.core c).ordNext := by
  let u := s.syncing c w (syncForm 3)
  let v := u.updCore c fun k => { k with grantReq := true }
  have enc : encodingOk (syncForm 3) w :=
    ⟨bits_eq_zero_of_inside (outer := [(19, 10), (3, 0)]) (by simp [high, low]) (by decide), (by omega : bits w 9 4 < 3)⟩
  have one := oneSync_syncing (e := syncForm 3) h
  have record : u.core c = _ := State.core_syncing
  have core : v.core c = { u.core c with grantReq := true } := State.core_updCore ..
  have at' := one.congr core rfl
  have step : u.syncStep c (s.syncEntry c w (syncForm 3)) = some v := by
    rw [State.syncStep_phase (eopField_of_syncTakes h),
      State.phaseStep_load (i := s.syncEntry c w (syncForm 3)) (by rw [record]; exact compute) one.idle load without,
      record, quiet]
    rfl
  have waits : v.syncStep c (s.syncEntry c w (syncForm 3)) = none := by
    rw [State.syncStep_phase (eopField_of_syncTakes h),
      State.phaseStep_load (i := s.syncEntry c w (syncForm 3)) (by rw [core, record]; exact compute) at'.idle load without, core]
    rfl
  refine ⟨v, exec_sync_waits (syncForm_mem 3) h enc (by decide) step at' waits, ?_, ?_, ?_⟩ <;> rw [core]
  · rw [record]
    exact compute
  · exact stall_syncing_blocking rfl

theorem wait_idle (h : SyncTakes s c w 0x04) (high : bits w 19 10 = 0) (low : bits w 3 0 = 0) (engines : bits w 9 8 = 0) :
    ∃ t, exec (.syncWait c w) s = .next t ∧ SyncOver t c (wentOn s c) := by
  have few : bits w 9 4 < 16 := by
    simp only [bits, field, Nat.shiftRight_eq_div_pow] at engines ⊢
    omega
  have enc : encodingOk (syncForm 4) w :=
    ⟨bits_eq_zero_of_inside (outer := [(19, 10), (3, 0)]) (by simp [high, low]) (by decide), few⟩
  have one := oneSync_syncing (e := syncForm 4) h
  have step := State.syncStep_wait (i := s.syncEntry c w (syncForm 4)) (eopField_of_syncTakes h) one.idle
  exact ⟨_, exec_sync_done (syncForm_mem 4) h enc (by decide) step one fun _ => rfl⟩

/-! ### Halo counters and barriers -/

theorem hpost_adds (h : SyncTakes s c w 0x06) (high : bits w 19 15 = 0) (low : bits w 3 0 = 0) :
    ∃ t, exec (.syncHpost c w) s = .next t ∧ SyncOver t c (wentOn s c) ∧
      t.halo c (bits w 9 4) = s.halo c (bits w 9 4) + ((s.core c).seq.read (bits w 14 10)).truncate 32 ∧
      ∀ n, n ≠ bits w 9 4 → t.halo c n = s.halo c n := by
  have enc : encodingOk (syncForm 6) w :=
    ⟨bits_eq_zero_of_inside (outer := [(19, 15), (3, 0)]) (by simp [high, low]) (by decide), trivial⟩
  have one := oneSync_syncing (e := syncForm 6) h
  have step := State.syncStep_hpost (i := s.syncEntry c w (syncForm 6)) (eopField_of_syncTakes h) one.idle
  obtain ⟨run, completed⟩ := exec_sync_done (syncForm_mem 6) h enc (by decide) step (one.congr rfl rfl) fun _ => rfl
  refine ⟨_, run, completed, ?_, fun n other => ?_⟩ <;>
    simp only [State.halo, State.cluster_syncDone, State.cluster_setCluster]
  · exact SMap.get_setD_same ..
  · exact SMap.get_setD_other _ _ _ other

/-- The comparison of counters modulo 2^32 (R101) fails where their difference is negative. -/
theorem wge_of_sub_neg {a b : W32} (h : (a - b).toInt < 0) : wge 32 a.toNat b.toNat = false := by
  have ha := a.isLt
  have hb := b.isLt
  rw [BitVec.toInt_eq_toNat_cond, BitVec.toNat_sub] at h
  apply decide_eq_false
  unfold signed wrap
  omega

namespace State

/-- Going away from the load grant for a wait gives the grant up and changes nothing else of the core. -/
theorem core_waitAway (s : State) (c : CoreId) : ∃ g, (s.waitAway c).core c = { s.core c with grantReq := g } := by
  unfold waitAway
  split
  · refine ⟨false, ?_⟩
    rw [core_updCore, releaseGrant]
    split <;> rfl
  · exact ⟨_, rfl⟩

theorem launches_waitAway (s : State) (c : CoreId) : (s.waitAway c).launches = s.launches := by
  unfold waitAway releaseGrant
  split
  · split <;> rfl
  · rfl

theorem arrivals_waitAway (s : State) (c : CoreId) :
    ((s.waitAway c).cluster c.cluster).arrivals = (s.cluster c.cluster).arrivals := by
  unfold waitAway releaseGrant
  split
  · split <;> simp
  · rfl

end State

section
variable (h : SyncTakes s c w 0x07) (high : bits w 19 15 = 0) (low : bits w 3 0 = 0)
  (fresh : (s.core c).haloWaiting = false)
include h high low fresh

theorem hwait_met (met : 0 ≤ (s.halo c (bits w 9 4) - ((s.core c).seq.read (bits w 14 10)).truncate 32).toInt) :
    ∃ t, exec (.syncHwait c w) s = .next t ∧ SyncOver t c (wentOn s c) := by
  have enc : encodingOk (syncForm 7) w :=
    ⟨bits_eq_zero_of_inside (outer := [(19, 15), (3, 0)]) (by simp [high, low]) (by decide), trivial⟩
  have one := oneSync_syncing (e := syncForm 7) h
  have come : wge 32 (s.halo c (fIdx w)).toNat (((s.core c).seq.read (bits w 14 10)).toNat % 2 ^ 32) = true := by
    simpa [fIdx, bits] using State.wge_of_sub_nonneg met
  have step := (State.syncStep_hwait (s := s.syncing c w (syncForm 7)) (i := s.syncEntry c w (syncForm 7))
    (eopField_of_syncTakes h) (by rw [State.core_syncing]; exact fresh)).trans (if_pos come)
  exact ⟨_, exec_sync_done (syncForm_mem 7) h enc (by decide) step one fun _ => rfl⟩

theorem hwait_waits (short : (s.halo c (bits w 9 4) - ((s.core c).seq.read (bits w 14 10)).truncate 32).toInt < 0) :
    ∃ t, exec (.syncHwait c w) s = .next t ∧ (t.core c).haloWaiting = true ∧
      (t.core c).stall = .engine (s.core c).ordNext := by
  let u := s.syncing c w (syncForm 7)
  let v := (u.waitAway c).updCore c fun k => { k with haloWaiting := true }
  have enc : encodingOk (syncForm 7) w :=
    ⟨bits_eq_zero_of_inside (outer := [(19, 15), (3, 0)]) (by simp [high, low]) (by decide), trivial⟩
  have one := oneSync_syncing (e := syncForm 7) h
  have away : wge 32 (s.halo c (fIdx w)).toNat (((s.core c).seq.read (bits w 14 10)).toNat % 2 ^ 32) ≠ true := by
    simpa [fIdx, bits] using wge_of_sub_neg short
  have step := (State.syncStep_hwait (s := u) (i := s.syncEntry c w (syncForm 7))
    (eopField_of_syncTakes h) (by rw [State.core_syncing]; exact fresh)).trans (if_neg away)
  obtain ⟨g, granted⟩ := State.core_waitAway u c
  have core : v.core c = { u.core c with grantReq := g, haloWaiting := true } := by
    rw [State.core_updCore, granted]
  have waits := State.syncStep_hwait_waits (s := v) (c := c) (i := s.syncEntry c w (syncForm 7)) (eopField_of_syncTakes h)
    (by rw [core])
  refine ⟨v, exec_sync_waits (syncForm_mem 7) h enc (by decide) step (one.congr core (State.launches_waitAway ..)) waits,
    by rw [core], ?_⟩
  rw [core]
  exact stall_syncing_blocking rfl

end

theorem bar_arrives (h : SyncTakes s c w 0x05) (high : bits w 19 10 = 0) (low : bits w 3 0 = 0) (barrier : bits w 9 7 = 0)
    (fresh : (s.core c).atBarrier = none) (stores : (s.core c).stores = []) :
    ∃ t, exec (.syncBar c w) s = .next t ∧ (t.core c).atBarrier = some (bits w 9 4) ∧
      (t.core c).stall = .engine (s.core c).ordNext ∧
      (t.cluster c.cluster).arrivals.get 0 (s.arrivalKey c (bits w 9 4)) =
        (s.cluster c.cluster).arrivals.get 0 (s.arrivalKey c (bits w 9 4)) + 1 := by
  let u := s.syncing c w (syncForm 5)
  have few : bits w 9 4 < 8 := by
    simp only [bits, field, Nat.shiftRight_eq_div_pow] at barrier ⊢
    omega
  have enc : encodingOk (syncForm 5) w :=
    ⟨bits_eq_zero_of_inside (outer := [(19, 10), (3, 0)]) (by simp [high, low]) (by decide), few⟩
  have one := oneSync_syncing (e := syncForm 5) h
  have step := State.syncStep_bar (s := u) (i := s.syncEntry c w (syncForm 5)) (eopField_of_syncTakes h)
    (by rw [State.core_syncing]; exact fresh) one.idle (by rw [State.core_syncing]; exact stores)
  obtain ⟨g, granted⟩ := State.core_waitAway u c
  have key : (u.waitAway c).arrivalKey c (fIdx w) = s.arrivalKey c (bits w 9 4) :=
    (State.arrivalKey_congr (by rw [granted]; rfl) (State.launches_waitAway ..) _).trans
      (State.arrivalKey_congr State.logicalPlace_syncing rfl _)
  have arrives := exec_sync_waits (syncForm_mem 5) h enc (by decide) step
    (one.congr ((State.core_updCore ..).trans (by rw [State.setCluster_core_of, granted])) (State.launches_waitAway ..))
    (State.syncStep_bar_waits (eopField_of_syncTakes h) (by rw [State.core_updCore]))
  refine ⟨_, arrives, by rw [State.core_updCore]; rfl, ?_, ?_⟩
  · rw [State.core_updCore, State.setCluster_core_of, granted]
    exact stall_syncing_blocking rfl
  · rw [State.cluster_updCore, State.cluster_setCluster, State.arrivals_waitAway]
    exact key ▸ SMap.get_put_same ..

end

/-! ### Allocations and generators -/

namespace State

section
variable {s : State} {c : CoreId} {n : Nat}

theorem core_alloc0 (b : CoreId) : (s.alloc0 c n).1.core b = s.core b := by
  unfold alloc0
  dsimp only
  split
  · rfl
  · split <;> rfl

theorem launches_alloc0 : (s.alloc0 c n).1.launches = s.launches := by
  unfold alloc0
  dsimp only
  split
  · rfl
  · split <;> rfl

/-- With no allocation, the lowest granule above the static map store that a request fits in is its first (R187). -/
theorem alloc0_empty (empty : (s.cluster c.cluster).allocs = []) (aligned : (s.cluster c.cluster).msStatic % 2048 = 0)
    (positive : 0 < n) (fits : n + (s.cluster c.cluster).msStatic ≤ 6291456) :
    (s.alloc0 c n).2 = (s.cluster c.cluster).msStatic ∧ ((s.alloc0 c n).1.cluster c.cluster).allocs =
      [((s.cluster c.cluster).msStatic / 2048, (n + 2047) / 2048)] := by
  have room : ¬ (n = 0 ∨ 6291456 - (s.cluster c.cluster).msStatic < n) := by omega
  have first : firstFit (ceilDiv n 2048) 3072 ((s.cluster c.cluster).msStatic / 2048) [] =
      some ((s.cluster c.cluster).msStatic / 2048) := by
    apply if_pos
    unfold ceilDiv
    omega
  simp only [alloc0, room, if_false, empty, first, insertAlloc, cluster_setCluster]
  exact ⟨by omega, rfl⟩

/-- The start of the one allocation gives it back (R188). -/
theorem free0_one {g a : Nat} (one : (s.cluster c.cluster).allocs = [(g, n)]) (above : 0 < g) (start : a = 2048 * g) :
    s.free0 c a = some (s.setCluster c.cluster { s.cluster c.cluster with allocs := [] }) := by
  have place : a / 2048 = g := by omega
  have nonzero : a ≠ 0 := by omega
  have whole : a % 2048 = 0 := by omega
  simp [free0, one, nonzero, whole, place]

theorem claimable_syncing (w : W32) (e : EngineForm) : (s.syncing c w e).claimable c = s.claimable c := by
  have partition : (s.syncing c w e).corePartition c = s.corePartition c := by
    unfold corePartition coreLaunch
    rw [core_syncing]
    rfl
  unfold claimable
  rw [partition]
  rfl

end

end State

section
variable {s : State} {c : CoreId} {w : W32}

theorem alloc_first (h : SyncTakes s c w 0x0B) (unused : bits w 9 0 = 0) (empty : (s.cluster c.cluster).allocs = [])
    (aligned : (s.cluster c.cluster).msStatic % 2048 = 0) (positive : 0 < ((s.core c).seq.read (bits w 14 10)).toNat)
    (fits : ((s.core c).seq.read (bits w 14 10)).toNat + (s.cluster c.cluster).msStatic ≤ 6291456) :
    ∃ t r, exec (.syncAlloc c w) s = .next t ∧ SyncOver t c r ∧
      Wrote (s.core c).seq r (bits w 19 15) (BitVec.ofNat 64 (s.cluster c.cluster).msStatic) ∧
      (t.cluster c.cluster).allocs = [((s.cluster c.cluster).msStatic / 2048,
        (((s.core c).seq.read (bits w 14 10)).toNat + 2047) / 2048)] := by
  have pool : bits w 9 4 = 0 := bits_eq_zero_of_wider unused (by decide) (by decide)
  have enc : encodingOk (syncForm 11) w :=
    ⟨bits_eq_zero_of_inside (outer := [(9, 0)]) (by simpa) (by decide), (by omega : bits w 9 4 < 2)⟩
  have one := oneSync_syncing (e := syncForm 11) h
  obtain ⟨value, allocs⟩ := State.alloc0_empty (s := s.syncing c w (syncForm 11)) empty aligned positive fits
  have step := State.syncStep_alloc (s := s.syncing c w (syncForm 11)) (c := c) (i := s.syncEntry c w (syncForm 11))
    (eopField_of_syncTakes h) pool
  obtain ⟨run, completed⟩ := exec_sync_done (syncForm_mem 11) h enc (by decide) step
    (one.congr (State.core_alloc0 _) State.launches_alloc0) fun free => by
      rw [State.core_alloc0, stall_syncing_blocking rfl] at free
      exact Stall.noConfusion free
  refine ⟨_, _, run, completed, ?_, ?_⟩
  · rw [show (s.syncEntry c w (syncForm 11)).x1 = (s.core c).seq.read (bits w 14 10) from rfl, value]
    exact wrote_write ..
  · rw [State.cluster_syncDone]
    exact allocs

theorem free_last {g n : Nat} (h : SyncTakes s c w 0x0C) (high : bits w 19 15 = 0) (unused : bits w 9 0 = 0)
    (stores : (s.core c).stores = []) (allocs : (s.cluster c.cluster).allocs = [(g, n)]) (above : 0 < g)
    (start : ((s.core c).seq.read (bits w 14 10)).toNat = 2048 * g) :
    ∃ t, exec (.syncFree c w) s = .next t ∧ SyncOver t c (wentOn s c) ∧ (t.cluster c.cluster).allocs = [] := by
  have pool : bits w 9 4 = 0 := bits_eq_zero_of_wider unused (by decide) (by decide)
  have enc : encodingOk (syncForm 12) w := ⟨bits_eq_zero_of_inside (outer := [(19, 15), (9, 0)]) (by simp [high, unused])
    (by decide), (by omega : bits w 9 4 < 2)⟩
  have one := oneSync_syncing (e := syncForm 12) h
  have gives := State.free0_one (s := s.syncing c w (syncForm 12)) allocs above start
  have step := State.syncStep_free (i := s.syncEntry c w (syncForm 12)) (eopField_of_syncTakes h) pool one.idle
    (by rw [State.core_syncing]; exact stores) gives
  obtain ⟨run, completed⟩ :=
    exec_sync_done (syncForm_mem 12) h enc (by decide) step (one.congr rfl rfl) fun _ => rfl
  exact ⟨_, run, completed, by rw [State.cluster_syncDone, State.cluster_setCluster]⟩

theorem encodingOk_wgclm (unused : bits w 14 0 = 0) : encodingOk (syncForm 13) w :=
  ⟨bits_eq_zero_of_inside (outer := [(14, 0)]) (by simpa) (by decide),
    bits_eq_zero_of_wider unused (by decide) (by decide)⟩

section
variable (h : SyncTakes s c w 0x0D) (unused : bits w 14 0 = 0)
include h unused

theorem wgclm_none (none : s.claimable c = none) :
    ∃ t r, exec (.syncWgclm c w) s = .next t ∧ SyncOver t c r ∧
      Wrote (s.core c).seq r (bits w 19 15) (BitVec.allOnes 64) := by
  have one := oneSync_syncing (e := syncForm 13) h
  have step := State.syncStep_wgclm_none (i := s.syncEntry c w (syncForm 13)) (eopField_of_syncTakes h)
    ((State.claimable_syncing w (syncForm 13)).trans none)
  obtain ⟨run, completed⟩ := exec_sync_done (syncForm_mem 13) h (encodingOk_wgclm unused) (by decide) step one fun free => by
    rw [stall_syncing_blocking rfl] at free
    exact Stall.noConfusion free
  exact ⟨_, _, run, completed, wrote_write ..⟩

theorem wgclm_some {g : Nat} (claims : s.claimable c = some g) :
    ∃ t r, exec (.syncWgclm c w) s = .next t ∧ SyncOver t c r ∧
      Wrote (s.core c).seq r (bits w 19 15) (BitVec.ofNat 64 g) ∧
      ((t.cluster c.cluster).gens.get {} g).claim = some (s.logClusterKey c) := by
  have one := oneSync_syncing (e := syncForm 13) h
  have step := State.syncStep_wgclm_some (i := s.syncEntry c w (syncForm 13)) (eopField_of_syncTakes h)
    ((State.claimable_syncing w (syncForm 13)).trans claims)
  obtain ⟨run, completed⟩ := exec_sync_done (syncForm_mem 13) h (encodingOk_wgclm unused) (by decide) step
    (one.congr rfl rfl) fun free => by
      rw [State.setCluster_core_of, stall_syncing_blocking rfl] at free
      exact Stall.noConfusion free
  refine ⟨_, _, run, completed, wrote_write .., ?_⟩
  rw [State.cluster_syncDone, State.cluster_setCluster, SMap.get_put_same, State.logClusterKey_congr State.logicalPlace_syncing]

end

end

/-- Settles O20: each instruction is its one step, and a descriptor that fails the check is a program fault of the core. -/
theorem tokenInstructions : Obligations.TokenInstructions := by
  unfold Obligations.TokenInstructions
  exact ⟨fun _ _ _ => tdef_defines, fun _ _ _ => tdef_fails, fun _ _ _ => trel_empties, fun _ _ _ => tstat_reads⟩

/-- Settles O21: the phase changes, or the grant is asked for, in one step of the instruction. -/
theorem phaseAndWait : Obligations.PhaseAndWait := by
  unfold Obligations.PhaseAndWait
  exact ⟨fun _ _ _ => phase_to_store, fun _ _ _ => phase_to_load, fun _ _ _ => wait_idle⟩

/-- Settles O22: a halo wait that is not met, and a core at a barrier, take one step and stay. -/
theorem haloCountersAndBarrier : Obligations.HaloCountersAndBarrier := by
  unfold Obligations.HaloCountersAndBarrier
  refine ⟨fun _ _ _ => hpost_adds, ?hwait, fun _ _ _ => bar_arrives⟩
  case hwait =>
    intro s c w h high low fresh d
    by_cases met : 0 ≤ d.toInt
    · obtain ⟨t, run, completed⟩ := hwait_met h high low fresh met
      exact ⟨t, run, fun _ => completed, fun short => absurd met (Int.not_le.mpr short)⟩
    · obtain ⟨t, run, waits⟩ := hwait_waits h high low fresh (Int.not_le.mp met)
      exact ⟨t, run, fun reached => absurd reached met, fun _ => waits⟩

/-- Settles O23: an empty map store gives its first granule, and the one allocation is given back by its start. -/
theorem allocationAndGenerators : Obligations.AllocationAndGenerators := by
  unfold Obligations.AllocationAndGenerators
  refine ⟨fun _ _ _ => alloc_first, fun _ _ _ _ _ => free_last, ?wgclm⟩
  case wgclm =>
    intro s c w h unused
    cases claims : s.claimable c with
    | none => exact wgclm_none h unused claims
    | some g => exact wgclm_some h unused claims
end Sys2Proof.Machine
end

section
/-!
PROOFS. The services of semaphores, pool 1 and fences (R146, R186, R190, R243 to R245, R250).
-/
namespace Sys2Proof.Machine

/-- A signal of die 0 that is behind the fence, whose VALUE is 0 (one less than 0 in the wrap-aware order of R244). -/
def behindSignal : FenceSig :=
  { va := 0x4000, value := 0xFFFFFFFFFFFFFFFF, status := 0, ctx := 0, queue := 3, src := 0, pa := some 0x4000 }

/-- The fence unit's read of a fence of zeros, answered. -/
def fenceReadDone : BusAcc :=
  { owner := .fence 0, pa := 0x4000, n := 16, write := false, reqs := [(0, some (.data (List.replicate 64 0)))] }

/-- Die 0 serves a signal of its own that waits with the number of the message to be sent next. -/
def signalAtNextNumber : State :=
  ({ State.reset with fences := ⟨[(0, behindSignal)]⟩, msgs := ⟨[(0, (0, 0, .fence 0))]⟩, msgNext := 0 } : State).setDie 0
    { State.reset.die 0 with computeReset := false, bus := [fenceReadDone] }

/-- The fence unit's read of the signal's fence in that state. -/
def signalFenceRead : State × BusRes :=
  signalAtNextNumber.busRead 0 (.fence 0) (signalAtNextNumber.ctx 0).partition 0 0x4000 0x4000 16 noRange true

theorem signalFenceRead_read : SignalRead signalAtNextNumber signalFenceRead.1 0 0 0x4000 0 behindSignal
    (.ok (List.replicate 16 0)) where
  arrived := by decide +kernel
  runs := by decide +kernel
  found := by decide +kernel
  place := rfl
  alone := by decide +kernel
  read := by
    have h : signalFenceRead.2 = .ok (List.replicate 16 0) := by decide +kernel
    rw [← h]; rfl

/-- The answer to the signal takes the signal's number. -/
theorem fenceSignal_answer_reuses_number :
    (signalAtNextNumber.fenceSignal 0).msgAt 0 = some (0, 0, .fenceRes 0) := by
  decide +kernel

/-- Refutes O43: a signal that is dropped (or applied) is said to leave no message under its number `m`, but the answer to a
signal of the serving die's own command processor is a message with the number `msgNext`, and no hypothesis keeps `m` apart
from it, as one does for the pool 1 allocator's answer. -/
theorem not_remoteServices : ¬ Obligations.RemoteServices := by
  unfold Obligations.RemoteServices
  rintro ⟨-, -, -, -, -, -, -, -, -, dropped, -⟩
  obtain ⟨t, g, run, -, -, -, gone⟩ := dropped _ _ _ _ _ _ _ _ signalFenceRead_read (by decide)
  have ht : signalAtNextNumber.fenceSignal 0 = t := by
    injection run
  rw [← ht, fenceSignal_answer_reuses_number] at gone
  contradiction

end Sys2Proof.Machine
end

section
/-!
PROOFS. The stream engine: an instruction reads its entries and is issued, and a finished one leaves
(06_engine_instructions.md, R131; 07_streams.md, R157, R163).
-/
namespace Sys2Proof.Machine

section
variable {s : State} {c : CoreId} (h : s.hasCore c = true)
include h

theorem exec_streamIssue : exec (.streamIssue c) s = .next (s.streamIssue c) := by
  simp [exec, execStreamIssue, onCore, h]

theorem exec_streamComplete : exec (.streamComplete c) s = .next ((s.streamComplete c).quietCheck c) := by
  simp [exec, execStreamComplete, onCore, h]

end

/-- Giving one state to a list of tokens gives it to each of them. -/
theorem Core.st_foldl_setTokState (k : Core) (st : TokState) {ts : List Nat} {n : Nat} (mem : n ∈ ts) :
    ((ts.foldl (fun k t => k.setTokState t st) k).tok n).st = st := by
  induction ts using List.reverseRecOn with
  | nil => exact absurd mem List.not_mem_nil
  | append_singleton ts t ih =>
    rw [List.foldl_concat, setTokState, tok_setTok]
    split
    next => rfl
    next other => exact ih ((List.mem_append.mp mem).resolve_right (other ∘ List.mem_singleton.mp))

/-- A natural number as an `n`-bit pattern. -/
theorem wrap_natCast (n a : Nat) : wrap n (a : Int) = a % 2 ^ n := by
  rw [wrap, ← Int.natCast_emod, Int.toNat_natCast]

namespace State

/-- The end of a bus access is the die's, and no core's. -/
@[simp] theorem core_busDone (s : State) (d : DieId) (o : Owner) (c : CoreId) : (s.busDone d o).core c = s.core c := rfl

/-! ### Issue -/

/-- The state in which a prepared instruction is in flight, the last of its engine's, before it makes its requests: the tokens
that it writes are FILLING (R131, R163). -/
def streamIssued (t : State) (c : CoreId) (i : EInstr) (r : StreamRun) : State :=
  (t.updCore c fun k => i.writes.foldl (fun k t => k.setTokState t .filling) k).updCore c
    fun k => { k with strRun := k.strRun ++ [{ r with startAt := (t.die c.die).ticks }] }

theorem strRun_streamIssued (t : State) (c : CoreId) (i : EInstr) (r : StreamRun) :
    ∃ l : List StreamRun, ((t.streamIssued c i r).core c).strRun = l ++ [{ r with startAt := (t.die c.die).ticks }] := by
  rw [streamIssued, core_updCore]
  exact ⟨_, rfl⟩

theorem st_streamIssued (t : State) (c : CoreId) {i : EInstr} (r : StreamRun) {n : Nat} (writes : n ∈ i.writes) :
    (((t.streamIssued c i r).core c).tok n).st = .filling := by
  rw [streamIssued, core_updCore, core_updCore]
  exact Core.st_foldl_setTokState _ _ writes

/-- An instruction whose descriptors and token pass the checks, whose footprints meet none in flight, and whose outgoing data
could be read is issued (R130, R157, R163). -/
theorem streamGo_issues {s t : State} {c : CoreId} {i : EInstr} {sdt : List Byte} {r : StreamRun}
    {fp : List (Nat × Nat × Bool) × List (Nat × Nat × Bool)} (right : streamFault sdt i = none)
    (token : (streamChecks (s.core c) sdt i).findSome? (·.2) = none)
    (prints : streamPrints i (descOf sdt (fDidx i.word)) (descOf sdt (fDidx i.word + 1)) = fp)
    (apart : ∀ q ∈ (s.core c).strRun, printsMeet q.mem fp.1 = false ∧ printsMeet q.map fp.2 = false)
    (prepared : (s.updCore c fun k => { k with strQ := k.strQ.drop 1 }).streamPrep c i sdt = (t, .ok r)) :
    s.streamGo c i sdt = (t.streamIssued c i r).pumpStream c := by
  have clear : ((s.core c).strRun.any fun q => printsMeet q.mem fp.1 || printsMeet q.map fp.2) = false :=
    List.any_eq_false.mpr fun q flying => by simp [apart q flying]
  simp only [streamGo, right, token, Option.orElse_none, Option.map_none, prints, clear, prepared]
  rfl

/-- What the stream instruction at the head of a core's queue waits for before it reads its entries: a running core, a place
in the engine, no abort, its claims, the load grant where it loads, and no translation that holds it (R131, R157, R171). -/
structure StreamMayIssue (s : State) (c : CoreId) (i : EInstr) : Prop where
  running : (s.core c).run = .running
  head : (s.core c).strQ.head? = some i
  few : (s.core c).strRun.length < 4
  noAbort : (s.core c).strAbort = none
  moves : eopField i.word < 8
  reads : (s.core c).readsOk i = true
  writes : (s.core c).writesOk i [.empty] = true
  grant : streamLoads i.word = true → s.holdsGrant c = true
  free : s.transHeld c.die (.stream c.key i.ord) = false

/-- An instruction that may issue takes its entries from the answered read of the launch's table in device memory
(R157, R159). -/
theorem streamIssue_reads {s t : State} {c : CoreId} {i : EInstr} {n : Nat} {bs : List Byte} (may : s.StreamMayIssue c i)
    (size : (if streamPair i.word then 192 else 96) = n) (inside : 96 * fDidx i.word + n ≤ (s.sdtOf c).length)
    (room : s.streamRoom c (.stream c.key i.ord) (s.coreQueue c) 4 false = true)
    (answered : s.readVa c.die (.stream c.key i.ord) (s.corePartition c) (s.coreCtx c)
      ((s.sdtAddr c + 96 * fDidx i.word) % 2 ^ 64) n .read false = (t, .ok bs)) :
    s.streamIssue c = (t.busDone c.die (.stream c.key i.ord)).streamGo c i
      ((s.sdtOf c).take (96 * fDidx i.word) ++ bs ++ (s.sdtOf c).drop (96 * fDidx i.word + n)) := by
  obtain ⟨running, head, few, noAbort, moves, reads, writes, grant, free⟩ := may
  obtain ⟨rest, queue⟩ := List.head?_eq_some_iff.mp head
  have ready : ¬((s.core c).run ≠ .running ∨ 4 ≤ (s.core c).strRun.length ∨ (s.core c).strAbort.isSome ∨
      8 ≤ eopField i.word ∨ !(s.core c).readsOk i ∨ !(s.core c).writesOk i [.empty] ∨
      (streamLoads i.word && !s.holdsGrant c) ∨ s.transHeld c.die (.stream c.key i.ord)) := by
    simpa [running, few, noAbort, moves, reads, writes, free] using grant
  simp only [streamIssue, queue, if_neg ready, size, if_neg (Nat.not_lt.mpr inside), room, Bool.not_true, Bool.false_eq_true,
    if_false, wrap_natCast, answered]

/-! ### Completion -/

/-- The state in which the effect of a finished instruction stands and the instruction has left the engine (R131). -/
def streamLeft (t : State) (c : CoreId) (r : StreamRun) : State :=
  (t.unorder c r.ins).updCore c fun k => { k with strRun := k.strRun.filter fun q => decide (q.ins.ord ≠ r.ins.ord) }

theorem streamComplete_finishes {s t : State} {c : CoreId} {r : StreamRun} (ready : s.streamReady c = some r)
    (finished : s.streamFinish c r = (t, none)) : s.streamComplete c = (t.streamLeft c r).settle c := by
  simp only [streamComplete, ready, finished]
  rfl

theorem ord_ne_of_mem_streamLeft {t : State} {c : CoreId} {r q : StreamRun}
    (flying : q ∈ ((t.streamLeft c r).core c).strRun) : q.ins.ord ≠ r.ins.ord := by
  rw [streamLeft, core_updCore] at flying
  exact of_decide_eq_true (List.mem_filter.mp flying).2

end State

/-- Settles O26: the answered read is followed by the issue, no other instruction being in flight; and what completes is taken
out of the list of those in flight by its place in the order. -/
theorem streamIssueAndCompletion : Obligations.StreamIssueAndCompletion := by
  unfold Obligations.StreamIssueAndCompletion
  refine ⟨?issue, ?completion⟩
  case issue =>
    intro s s' t c i rest r bs here running queue alone noAbort moves reads writes grant free n at' o inside room answered same
      sdt right token prepared
    have may : s.StreamMayIssue c i :=
      ⟨running, by simp [queue], by simp [alone], noAbort, moves, reads, writes, fun _ => grant, free⟩
    have read : s.streamIssue c = (s'.busDone c.die o).streamGo c i sdt :=
      State.streamIssue_reads may rfl inside room answered
    have core : (s'.busDone c.die o).core c = s.core c := same
    have taken : ((s'.busDone c.die o).updCore c fun k => { k with strQ := k.strQ.drop 1 }) =
        (s'.busDone c.die o).updCore c fun k => { k with strQ := rest } := by
      simp only [State.updCore, core, queue, List.drop_one, List.tail_cons]
    have go : (s'.busDone c.die o).streamGo c i sdt = (t.streamIssued c i r).pumpStream c :=
      State.streamGo_issues right (core ▸ token) rfl (by simp [core, alone]) (taken ▸ prepared)
    obtain ⟨l, last⟩ := t.strRun_streamIssued c i r
    refine ⟨t.streamIssued c i r, l, ?_, last, fun n => t.st_streamIssued c r⟩
    rw [exec_streamIssue here, read, go]
  case completion =>
    intro s t c r here ready finished
    refine ⟨t.streamLeft c r, ?_, fun q => State.ord_ne_of_mem_streamLeft⟩
    rw [exec_streamComplete here, State.streamComplete_finishes ready finished]

end Sys2Proof.Machine
end

section
/-!
PROOFS. Store clears and the scrubber: a cleared store, a corrected word and a zeroed word (08_stores_allocator.md, R178,
R180, R181).
-/
namespace Sys2Proof.Machine

namespace Store

/-! ### The bytes of a store -/

/-- What a byte holds that the store does not list: zero, or a byte of the free value (R177). -/
def unlisted (x : Store) (off : Nat) : Byte := x.base.elim 0 (Config.freeByte · off)

theorem byteAt_eq_get (x : Store) (off : Nat) : x.byteAt off = x.bytes.get (x.unlisted off) off := by
  unfold byteAt SMap.get unlisted
  cases x.bytes.find? off <;> cases x.base <;> rfl

@[simp] theorem unlisted_putByte (x : Store) (a : Nat) (b : Byte) : (x.putByte a b).unlisted = x.unlisted := rfl

theorem byteAt_putByte_same (x : Store) (off : Nat) (b : Byte) : (x.putByte off b).byteAt off = b := by
  rw [byteAt_eq_get, unlisted_putByte]
  cases base : x.base with
  | none => simp [putByte, unlisted, base]
  | some n => simp [putByte, base]

theorem byteAt_putByte_other (x : Store) {a off : Nat} (b : Byte) (h : off ≠ a) :
    (x.putByte a b).byteAt off = x.byteAt off := by
  rw [byteAt_eq_get, byteAt_eq_get, unlisted_putByte]
  cases base : x.base with
  | none => simp [putByte, unlisted, base, SMap.get_setD_other _ _ b h]
  | some n => simp [putByte, base, SMap.get_put_other _ _ b h]

/-- The bytes of a list, put one after the other. -/
def putBytes (x : Store) (bs : List (Nat × Byte)) : Store := bs.foldl (fun x b => x.putByte b.1 b.2) x

/-- Putting bytes touches the content alone: no error and no error register. -/
theorem putBytes_eq (x : Store) (bs : List (Nat × Byte)) : ∃ m, x.putBytes bs = { x with bytes := m } := by
  induction bs generalizing x with
  | nil => exact ⟨_, rfl⟩
  | cons b bs ih =>
    obtain ⟨m, rest⟩ := ih (x.putByte b.1 b.2)
    exact ⟨m, rest⟩

/-- Where every byte put at an offset is `v`, and `v` stands there already or is put there, `v` stands there in the end. -/
theorem byteAt_putBytes {x : Store} {bs : List (Nat × Byte)} {off : Nat} {v : Byte} (all : ∀ b ∈ bs, b.1 = off → b.2 = v)
    (stands : x.byteAt off = v ∨ off ∈ bs.map (·.1)) : (x.putBytes bs).byteAt off = v := by
  induction bs generalizing x with
  | nil => simpa [putBytes] using stands
  | cons b bs ih =>
    refine ih (fun a ha => all a (List.mem_cons_of_mem _ ha)) ?_
    by_cases here : off = b.1
    · left
      rw [here, byteAt_putByte_same]
      exact all b List.mem_cons_self here.symm
    · rw [byteAt_putByte_other _ _ here]
      simpa [here] using stands

/-! ### Clear, correction and a word of zeros -/

theorem byteAt_clear (x : Store) (off : Nat) : x.clear.byteAt off = 0 := rfl

theorem sound_clear (x : Store) : sound x.clear := ⟨rfl, rfl⟩

theorem not_mem_single_correct (x : Store) (w : Nat) : w ∉ (x.correct w).single := by simp [correct]

/-- The scrubber writes the sixteen bytes of the word, and a full write takes the word's errors away (R178). -/
theorem zeroWord_eq (x : Store) (w : Nat) :
    State.zeroWord x w = putBytes { x with single := x.single.filter (· != w), bad := x.bad.filter (· != w) }
      ((List.range 16).map fun i => (16 * w + i, 0)) := by
  simp [State.zeroWord, wordPut, putBytes]

/-- Beside the content, a word of zeros changes the lists of errors alone. -/
theorem zeroWord_errors (x : Store) (w : Nat) : ∃ m, State.zeroWord x w =
    { x with bytes := m, single := x.single.filter (· != w), bad := x.bad.filter (· != w) } := by
  rw [zeroWord_eq]
  exact putBytes_eq ..

theorem not_mem_bad_zeroWord (x : Store) (w : Nat) : w ∉ (State.zeroWord x w).bad := by
  obtain ⟨m, zeroed⟩ := zeroWord_errors x w
  simp [zeroed]

theorem scrubUE_zeroWord (x : Store) (w : Nat) : (State.zeroWord x w).scrubUE = x.scrubUE := by
  obtain ⟨m, zeroed⟩ := zeroWord_errors x w
  rw [zeroed]

theorem byteAt_zeroWord (x : Store) {w i : Nat} (hi : i < 16) : (State.zeroWord x w).byteAt (16 * w + i) = 0 := by
  rw [zeroWord_eq]
  refine byteAt_putBytes ?zeros (.inr ?written)
  case zeros => simp
  case written => simpa using hi

end Store

namespace State

/-! ### The commands -/

section
variable {s : State} {c : CoreId} {w : Nat}

/-- The clear forgets the partition and the context with their data (R181; log entry 26). -/
theorem clearStore_core (idle : (s.core c).part = none) (used : (s.core c).lastPartition ≠ none) :
    s.clearStore (.core c) =
      s.setCore c { s.core c with store := (s.core c).store.clear, lastPartition := none, lastCtx := none } := by
  have due := Option.isSome_iff_ne_none.mpr used
  simp [clearStore, idle, due]

theorem clearStore_map {k : ClusterId} (idle : (s.cluster k).occupant = none) (used : (s.cluster k).lastPartition ≠ none) :
    s.clearStore (.map k) =
      s.setCluster k { s.cluster k with map := (s.cluster k).map.clear, lastPartition := none, lastCtx := none } := by
  have due := Option.isSome_iff_ne_none.mpr used
  simp [clearStore, idle, due]

theorem word_inside (h : w < 65536) : ¬coreStoreSize ≤ 16 * w := by
  unfold coreStoreSize
  omega

theorem scrub_single (inside : w < 65536) (good : w ∉ (s.core c).store.bad) (single : w ∈ (s.core c).store.single) :
    s.scrub (.core c) w = s.setCore c { s.core c with store := (s.core c).store.correct w } := by
  simp [scrub, word_inside inside, good, single]

/-- A report goes to the steward: no core changes. -/
@[simp] theorem core_report (d : DieId) (code info : Nat) : (s.report d code info).core c = s.core c :=
  congrArg (fun m : SMap Core => m.get {} c.key) (cores_report ..)

/-- The store of an idle core after the scrub of an uncorrectable word (R180). -/
theorem store_scrub_bad (inside : w < 65536) (bad : w ∈ (s.core c).store.bad) (idle : (s.core c).part = none) :
    ((s.scrub (.core c) w).core c).store = zeroWord { (s.core c).store with scrubUE := true } w := by
  simp [scrub, word_inside inside, bad, idle]

end

end State

section
variable {s : State} {st : StoreId} (h : s.build.hasStore st = true)
include h

theorem onStore_of_hasStore (t : State) : s.onStore st t = .next t := by
  cases st with
  | core c => exact if_pos h
  | map k => exact if_pos h

theorem exec_storeClear : exec (.storeClear st) s = .next (s.clearStore st) := onStore_of_hasStore h _

theorem exec_scrub (w : Nat) : exec (.scrub st w) s = .next (s.scrub st w) := onStore_of_hasStore h _

end

/-- Settles O34: each command is its one change of the store, and a word of zeros is a full write that takes the word's errors
with it. -/
theorem storeClearAndScrub : Obligations.StoreClearAndScrub := by
  unfold Obligations.StoreClearAndScrub
  refine ⟨?clearCore, ?clearMap, ?corrected, ?zeroed⟩
  case clearCore =>
    intro s c here idle used
    refine ⟨_, exec_storeClear (st := .core c) here, ?_⟩
    rw [State.clearStore_core idle used, State.core_setCore]
    exact ⟨Store.byteAt_clear _, Store.sound_clear _, rfl, rfl⟩
  case clearMap =>
    intro s k here idle used
    refine ⟨_, exec_storeClear (st := .map k) here, ?_⟩
    rw [State.clearStore_map idle used, State.cluster_setCluster]
    exact ⟨Store.byteAt_clear _, Store.sound_clear _, rfl, rfl⟩
  case corrected =>
    intro s c w here inside good single
    refine ⟨_, exec_scrub (st := .core c) here w, ?_⟩
    rw [State.scrub_single inside good single, State.core_setCore]
    exact ⟨Store.not_mem_single_correct _ w, rfl, rfl, fun off => rfl⟩
  case zeroed =>
    intro s c w here inside bad idle
    refine ⟨_, exec_scrub (st := .core c) here w, ?_⟩
    rw [State.store_scrub_bad inside bad idle]
    exact ⟨Store.not_mem_bad_zeroWord _ w, Store.scrubUE_zeroWord _ w, fun i => Store.byteAt_zeroWord _⟩

end Sys2Proof.Machine
end

section
/-!
PROOFS. The vector unit: issue and completion of its instructions, VBCST and VMOVS
(06_engine_instructions.md, R133, R136, R139; 09_vector_unit.md, R203).
-/
namespace Sys2Proof.Machine

section
variable {s : State} {c : CoreId} (h : s.hasCore c = true)
include h

theorem exec_vectorIssue : exec (.vectorIssue c) s = .next (s.vectorIssue c) := by
  simp [exec, execVectorIssue, onCore, h]

theorem exec_vectorComplete : exec (.vectorComplete c) s = .next ((s.vectorComplete c).quietCheck c) := by
  simp [exec, execVectorComplete, onCore, h]

end

/-! ### Tokens and vector registers -/

namespace Core

/-- Giving a state to each of a list of tokens changes the tokens alone. -/
theorem foldl_setTokState_eq (k : Core) (st : TokState) (ts : List Nat) :
    ∃ m, ts.foldl (fun k t => k.setTokState t st) k = { k with tokens := m } := by
  induction ts generalizing k with
  | nil => exact ⟨_, rfl⟩
  | cons t ts ih =>
    obtain ⟨m, rest⟩ := ih (k.setTokState t st)
    exact ⟨m, rest⟩

@[simp] theorem lane_setLane_same (k : Core) (v l : Nat) (x : W32) : (k.setLane v l x).lane v l = x :=
  SMap.get_setD_same ..

/-- Registers lie 64 lanes apart, so that a lane below 64 has a place of its own (R192). -/
theorem lane_setLane_other (k : Core) {v l u j : Nat} (x : W32) (hl : l < 64) (hj : j < 64) (h : u ≠ v ∨ j ≠ l) :
    (k.setLane v l x).lane u j = k.lane u j :=
  SMap.get_setD_other _ _ _ (by omega)

/-- Lanes of a register, given values one after the other. -/
def putLanes (k : Core) (v : Nat) (es : List (Nat × W32)) : Core := es.foldl (fun k e => k.setLane v e.1 e.2) k

section
variable {k : Core} {v l : Nat} {es : List (Nat × W32)} (inside : ∀ e ∈ es, e.1 < 64) (hl : l < 64)
include inside hl

/-- Where every value that a lane is given is `x`, and the lane holds `x` already or is given it, it holds `x` in the end. -/
theorem lane_putLanes {x : W32} (all : ∀ e ∈ es, e.1 = l → e.2 = x) (stands : k.lane v l = x ∨ l ∈ es.map (·.1)) :
    (k.putLanes v es).lane v l = x := by
  induction es generalizing k with
  | nil => simpa [putLanes] using stands
  | cons e es ih =>
    obtain ⟨here, later⟩ := List.forall_mem_cons.mp all
    obtain ⟨e_lt, inside⟩ := List.forall_mem_cons.mp inside
    refine ih inside later ?_
    by_cases same : l = e.1
    · left
      rw [same, lane_setLane_same, here same.symm]
    · rw [lane_setLane_other _ _ e_lt hl (.inr same)]
      simpa [same] using stands

theorem lane_putLanes_other {u : Nat} (other : u ≠ v) : (k.putLanes v es).lane u l = k.lane u l :=
  List.foldlRecOn es _ (motive := fun x : Core => x.lane u l = k.lane u l) rfl fun x same e mem =>
    (lane_setLane_other x e.2 (inside e mem) hl (.inl other)).trans same

end

section
variable (k : Core) (v : Nat) {xs : List W32} {l : Nat}

theorem setLanes_eq (xs : List W32) : k.setLanes v xs = k.putLanes v ((List.range 64).zip xs) := rfl

theorem lt_of_mem_zip_range {e : Nat × W32} (mem : e ∈ (List.range 64).zip xs) : e.1 < 64 :=
  List.mem_range.mp (List.of_mem_zip mem).1

/-- A register that is given 64 values holds each in its lane (R192). -/
theorem lane_setLanes (length : xs.length = 64) (hl : l < 64) : (k.setLanes v xs).lane v l = xs[l] := by
  rw [setLanes_eq]
  refine lane_putLanes (fun _ => lt_of_mem_zip_range) hl ?all (.inr ?given)
  case all =>
    intro e mem at'
    obtain ⟨j, hj, rfl⟩ := List.getElem_of_mem mem
    obtain rfl : j = l := by simpa using at'
    simp
  case given =>
    rw [List.map_fst_zip (by simp [length])]
    exact List.mem_range.mpr hl

theorem lane_setLanes_other {u : Nat} (xs : List W32) (hl : l < 64) (other : u ≠ v) :
    (k.setLanes v xs).lane u l = k.lane u l :=
  lane_putLanes_other (fun _ => lt_of_mem_zip_range) hl other

end

end Core

namespace State

/-! ### The end of an instruction -/

section
variable (s : State) (c : CoreId) (i : EInstr)

/-- Ordering overlapping stores touches the core store and its notes of overlaps alone (R119). -/
theorem core_unorder : ∃ clash store, (s.unorder c i).core c = { s.core c with clash := clash, store := store } := by
  unfold unorder
  dsimp only
  split
  · exact ⟨_, _, rfl⟩
  · exact ⟨_, _, core_updCore ..⟩

/-- The end of an instruction changes the core's sequencers, its wait and its watchdog alone, whether it waited or not. -/
theorem core_retire_eq (f : SeqRegs → SeqRegs) : ∃ stall seq twin progAt, (s.retire c i f).core c =
    { s.core c with stall := stall, seq := seq, twin := twin, progAt := progAt } := by
  by_cases waits : (s.core c).stall = .engine i.ord
  · exact ⟨_, _, _, _, core_retire s c i f waits⟩
  · have stays : (s.retire c i f).core c = s.core c := by simp [retire, waits]
    exact ⟨_, _, _, _, stays⟩

end

/-! ### Issue -/

/-- The state in which the vector instruction at the head of the queue has been issued, and its tokens are FILLING (R203). -/
def vecIssued (s : State) (c : CoreId) (i : EInstr) (rest : List EInstr) : State :=
  s.updCore c fun k => i.writes.foldl (fun k t => k.setTokState t .filling) { k with
    vecQ := rest
    vecRun := k.vecRun ++ [i]
    vecAt := if k.vecRun.isEmpty then (s.die c.die).ticks else k.vecAt }

/-- An instruction whose claims are satisfied and whose counts and tokens pass the checks issues in COMPUTE (R123, R203). -/
theorem vectorIssue_ready {s : State} {c : CoreId} {i : EInstr} {rest : List EInstr} (running : (s.core c).run = .running)
    (compute : (s.core c).phase = .compute) (head : (s.core c).vecQ = i :: rest) (ready : vecReady (s.core c) i = true)
    (counts : vecCountOk i.word i.x1 = true) (right : (vecChecks (s.core c) i).findSome? (·.2) = none) :
    s.vectorIssue c = s.vecIssued c i rest := by
  simp only [vectorIssue, head, running, compute, ready, counts, right]
  rfl

section
variable (s : State) (c : CoreId) (i : EInstr) (rest : List EInstr)

theorem vecQ_vecRun_vecIssued : ((s.vecIssued c i rest).core c).vecQ = rest ∧
    ((s.vecIssued c i rest).core c).vecRun = (s.core c).vecRun ++ [i] := by
  rw [vecIssued, core_updCore]
  obtain ⟨m, filled⟩ := Core.foldl_setTokState_eq { s.core c with
    vecQ := rest
    vecRun := (s.core c).vecRun ++ [i]
    vecAt := if (s.core c).vecRun.isEmpty then (s.die c.die).ticks else (s.core c).vecAt } .filling i.writes
  rw [filled]
  exact ⟨rfl, rfl⟩

theorem st_vecIssued {n : Nat} (writes : n ∈ i.writes) : (((s.vecIssued c i rest).core c).tok n).st = .filling := by
  rw [vecIssued, core_updCore]
  exact Core.st_foldl_setTokState _ _ writes

end

/-! ### Completion -/

/-- What an instruction gives the sequencer that waits for it: VMOVS its lane, any other nothing (R139). -/
def vecResult (k : Core) (w : W32) (r : SeqRegs) : SeqRegs :=
  if eopField w = 9 then r.write (fVd w) ((k.lane (fVa w) (fLane w)).setWidth 64) else r

/-- The lane that VMOVS reads stands in rd, zero-extended (Table 06-7). -/
theorem read_vecResult_vmovs {k : Core} {w : W32} {r : SeqRegs} (op : eopField w = 9) (rd : fVd w ≠ 0) :
    (vecResult k w r).read (fVd w) = BitVec.ofNat 64 (k.lane (fVa w) (fLane w)).toNat := by
  rw [vecResult, if_pos op, read_write]
  simp [rd]

/-- The state in which the effect of the oldest vector instruction stands, and the instruction has left the unit (R136). -/
def vecLeft (t : State) (c : CoreId) (i : EInstr) (rest : List EInstr) (now : Nat) : State :=
  (t.unorder c i).updCore c fun k => { k with vecRun := rest, vecAt := now }

/-- It has left the unit, and the sequencer has gone on where it waited for it (R106, R116). -/
def vecDone (s t : State) (c : CoreId) (i : EInstr) (rest : List EInstr) : State :=
  (t.vecLeft c i rest (s.die c.die).ticks).retire c i (vecResult (s.core c) i.word)

/-- The oldest instruction in flight completes where no uncorrectable word of the core store keeps it from its effect. -/
theorem vectorComplete_finishes {s t : State} {c : CoreId} {i : EInstr} {rest : List EInstr}
    (oldest : (s.core c).vecRun = i :: rest) (finished : s.vecFinish c i = (t, none)) :
    s.vectorComplete c = (s.vecDone t c i rest).settle c := by
  simp only [vectorComplete, oldest, finished]
  rfl

section
variable (s t : State) (c : CoreId) (i : EInstr) (rest : List EInstr)

theorem core_vecLeft (now : Nat) : ∃ clash store, (t.vecLeft c i rest now).core c =
    { t.core c with vecRun := rest, vecAt := now, clash := clash, store := store } := by
  obtain ⟨clash, store, ordered⟩ := core_unorder t c i
  exact ⟨clash, store, by rw [vecLeft, core_updCore, ordered]⟩

/-- Leaving the unit keeps the vector registers. -/
theorem vecRun_v_vecDone : ((s.vecDone t c i rest).core c).vecRun = rest ∧
    ((s.vecDone t c i rest).core c).v = (t.core c).v := by
  obtain ⟨_, _, left⟩ := core_vecLeft t c i rest (s.die c.die).ticks
  obtain ⟨_, _, _, _, retired⟩ := core_retire_eq (t.vecLeft c i rest (s.die c.die).ticks) c i (vecResult (s.core c) i.word)
  rw [vecDone, retired, left]
  exact ⟨rfl, rfl⟩

theorem lane_vecDone (v l : Nat) : ((s.vecDone t c i rest).core c).lane v l = (t.core c).lane v l := by
  simp only [Core.lane, (vecRun_v_vecDone s t c i rest).2]

/-- The sequencer that waited for the instruction goes on, with its result. -/
theorem stall_seq_vecDone (waits : (t.core c).stall = .engine i.ord) : ((s.vecDone t c i rest).core c).stall = .none ∧
    ((s.vecDone t c i rest).core c).seq = vecResult (s.core c) i.word (t.core c).seq := by
  obtain ⟨_, _, left⟩ := core_vecLeft t c i rest (s.die c.die).ticks
  rw [vecDone, core_retire _ _ _ _ (by rw [left, waits]), left]
  exact ⟨rfl, rfl⟩

end

section
variable {s : State} {c : CoreId} {i : EInstr}

/-- VBCST puts the low word of s[rs1] in each lane of VD, and leaves every other register as it is (R133). -/
theorem vecFinish_vbcst (op : eopField i.word = 8) : ∃ t, s.vecFinish c i = (t, none) ∧
    (∀ l, l < 64 → (t.core c).lane (fVd i.word) l = i.x1.truncate 32) ∧
    ∀ v l, v ≠ fVd i.word → l < 64 → (t.core c).lane v l = (s.core c).lane v l := by
  refine ⟨s.updCore c fun k => k.setLanes (fVd i.word) (List.replicate 64 (i.x1.truncate 32)), ?effect, ?given, ?kept⟩
  case effect => simp only [vecFinish, vecLanes, op]
  case given =>
    intro l hl
    rw [core_updCore, Core.lane_setLanes _ _ List.length_replicate hl, List.getElem_replicate]
  case kept =>
    intro v l other hl
    rw [core_updCore, Core.lane_setLanes_other _ _ _ hl other]

/-- VMOVS has no effect on the vector unit: its result is the sequencer's (R139). -/
theorem vecFinish_vmovs (op : eopField i.word = 9) : s.vecFinish c i = (s, none) := by
  simp only [vecFinish, op]

end

end State

/-- Settles O27: an issue and a completion are one equation each; what follows the effect of a vector instruction leaves the
vector registers alone, and gives the waiting sequencer the lane that VMOVS reads. -/
theorem vectorIssueAndCompletion : Obligations.VectorIssueAndCompletion := by
  unfold Obligations.VectorIssueAndCompletion
  refine ⟨?issue, ?completion, ?vbcst, ?vmovs⟩
  case issue =>
    intro s c i rest here running compute head ready counts right
    obtain ⟨queue, flying⟩ := State.vecQ_vecRun_vecIssued s c i rest
    refine ⟨s.vecIssued c i rest, ?_, queue, flying, fun n => State.st_vecIssued s c i rest, rfl⟩
    rw [exec_vectorIssue here, State.vectorIssue_ready running compute head ready counts right]
  case completion =>
    intro s t c i rest here oldest finished
    refine ⟨s.vecDone t c i rest, ?_, (State.vecRun_v_vecDone ..).1⟩
    rw [exec_vectorComplete here, State.vectorComplete_finishes oldest finished]
  case vbcst =>
    intro s c i rest here oldest op
    obtain ⟨t, finished, given, kept⟩ := State.vecFinish_vbcst (s := s) (c := c) op
    refine ⟨s.vecDone t c i rest, ?_, fun l hl => ?_, fun v l other hl => ?_⟩
    · rw [exec_vectorComplete here, State.vectorComplete_finishes oldest finished]
    · exact (State.lane_vecDone ..).trans (given l hl)
    · exact (State.lane_vecDone ..).trans (kept v l other hl)
  case vmovs =>
    intro s c i rest here oldest op waits rd
    have finished := State.vecFinish_vmovs (s := s) (c := c) op
    obtain ⟨goes, result⟩ := State.stall_seq_vecDone s s c i rest waits
    refine ⟨s.vecDone s c i rest, ?_, goes, ?_⟩
    · rw [exec_vectorComplete here, State.vectorComplete_finishes oldest finished]
    · exact (congrArg (·.read (fVd i.word)) result).trans (State.read_vecResult_vmovs op rd)

end Sys2Proof.Machine
end

section
/-!
SUPPORT. What messages, requests, event records and the loss of a context set aside. They change dies, clusters, cores, links,
stewards, contexts, fence signals, messages, requests, rings, interrupt messages and memory, and nothing else: the driver's
tables, its requests, its queues, memory objects and semaphores stay (R164 to R167, R234, R247, R251, R275, R284 to R295,
R308 to R315).
-/
namespace Sys2Proof.Machine

namespace State

/-- A state without the fields that such work may write: two states that agree in it agree in every other field. -/
def aside (s : State) : State :=
  { s with
    dies := {}, clusters := {}, cores := {}, links := {}, stewards := {}, ctxs := {}, fences := {}, msgs := {}, msgNext := 0,
    reqs := {}, reqNext := 0, rings := {}, im := {}, mem := {} }

variable {s t : State}

theorem queues_of_aside (h : t.aside = s.aside) : t.queues = s.queues := (congrArg State.queues h :)
theorem mos_of_aside (h : t.aside = s.aside) : t.mos = s.mos := (congrArg State.mos h :)
theorem queue_of_aside (h : t.aside = s.aside) (q : QueueId) : t.queue q = s.queue q :=
  congrArg (fun m => m.get {} q.key) (queues_of_aside h)
theorem mo_of_aside (h : t.aside = s.aside) (n : Nat) : t.mo n = s.mo n := congrArg (fun m => m.get {} n) (mos_of_aside h)
theorem qTbl_of_aside (h : t.aside = s.aside) : t.qTbl = s.qTbl := (congrArg State.qTbl h :)
theorem objHeld_of_aside (h : t.aside = s.aside) : t.objHeld = s.objHeld := (congrArg State.objHeld h :)

/-- What every step of a fold leaves alone, the fold leaves alone. -/
theorem aside_foldl {α : Type} {f : State → α → State} (h : ∀ s a, (f s a).aside = s.aside) (l : List α) (s : State) :
    (l.foldl f s).aside = s.aside :=
  List.foldlRecOn l f (motive := fun t => t.aside = s.aside) rfl fun t same a _ => (h t a).trans same

theorem aside_foldl_fst {α β : Type} {f : State × β → α → State × β} (h : ∀ p a, (f p a).1.aside = p.1.aside)
    (l : List α) (p : State × β) : (l.foldl f p).1.aside = p.1.aside :=
  List.foldlRecOn l f (motive := fun q => q.1.aside = p.1.aside) rfl fun q same a _ => (h q a).trans same

theorem aside_of_eq {β : Type} {p : State × β} {b : β} (e : p = (t, b)) (h : p.1.aside = s.aside) : t.aside = s.aside := by
  subst e
  exact h

variable (s : State) (d : DieId)

/-! Records of units, and the bytes of memory. -/

@[simp] theorem aside_setDie (v : Die) : (s.setDie d v).aside = s.aside := rfl
@[simp] theorem aside_setLink (l : LinkId) (v : Link) : (s.setLink l v).aside = s.aside := rfl
@[simp] theorem aside_setCtx (n : Nat) (v : Ctx) : (s.setCtx n v).aside = s.aside := rfl
@[simp] theorem aside_addReq (r : Req) : (s.addReq r).aside = s.aside := rfl
@[simp] theorem aside_setCause (bitNo code : Nat) (ssr : Bool) : (s.setCause d bitNo code ssr).aside = s.aside := rfl
@[simp] theorem aside_setCuffB (path p : Nat) (v : Int) : (s.setCuffB d path p v).aside = s.aside := rfl
@[simp] theorem aside_withdraw (p : Owner → Bool) : (s.withdraw d p).aside = s.aside := rfl
@[simp] theorem aside_busDone (o : Owner) : (s.busDone d o).aside = s.aside := rfl
@[simp] theorem aside_waitEvent (n p r : Nat) (rec : EventRec) : (s.waitEvent d n p r rec).aside = s.aside := rfl
@[simp] theorem aside_stopCore (c : CoreId) : (s.stopCore c).aside = s.aside := rfl
@[simp] theorem aside_dropEvents (p : Nat × Nat × Nat × EventRec → Bool) : (s.dropEvents d p).aside = s.aside := rfl
@[simp] theorem aside_dirtyStores (n : Nat) : (s.dirtyStores n).aside = s.aside := rfl

@[simp] theorem aside_writeBytes (pa : Nat) (bs : List Byte) : (s.writeBytes pa bs).aside = s.aside := by
  induction bs generalizing s pa with
  | nil => rfl
  | cons b bs ih => exact ih ..

@[simp] theorem aside_putCtx (n : Nat) (c : Ctx) : (s.putCtx n c).aside = s.aside := by simp [putCtx, syncCtx]

/-- The table entry of a queue, and of a memory object, lies in memory. -/
theorem aside_putQueue (q : QueueId) (k : Queue) : (s.putQueue q k).aside = (s.setQueue q k).aside := by
  simp [putQueue, syncQueue]

theorem aside_putMo (h : Nat) (o : MemObj) : (s.putMo h o).aside = (s.setMo h o).aside := by simp [putMo, syncMo]

@[simp] theorem queue_putQueue (q : QueueId) (k : Queue) : (s.putQueue q k).queue q = k :=
  (queue_of_aside (aside_putQueue s q k) q).trans (queue_setQueue ..)

@[simp] theorem mo_putMo (h : Nat) (o : MemObj) : (s.putMo h o).mo h = o :=
  (mo_of_aside (aside_putMo s h o) h).trans (mo_setMo ..)

/-! Faults reported to a steward (R380, R381, R421). -/

@[simp] theorem aside_eventRecord (code info : Nat) : (s.eventRecord d code info).aside = s.aside := by
  unfold eventRecord
  dsimp only
  split
  · split <;> rfl
  · rfl

@[simp] theorem aside_report (code info : Nat) : (s.report d code info).aside = s.aside := by
  unfold report
  dsimp only
  split <;> split <;> simp

/-! The Cuffs (R167, R273). -/

@[simp] theorem aside_cuffRefill (path n : Nat) : (s.cuffRefill d path n).aside = s.aside :=
  (aside_foldl (fun t p => by split <;> simp) _ _).trans (aside_setDie ..)

@[simp] theorem aside_cuffTake (path p n : Nat) (ahead : Bool) : (s.cuffTake d path p n ahead).aside = s.aside := by
  unfold cuffTake
  dsimp only
  split
  · rfl
  · split <;> simp

@[simp] theorem aside_cuffSlot (path : Nat) (ready : List Nat) : (s.cuffSlot d path ready).1.aside = s.aside := by
  unfold cuffSlot
  dsimp only
  split
  · simp
  · simp
  · split <;> simp

/-! The transmitter of a link (R311 to R315). -/

section
variable (l : LinkId)

@[simp] theorem aside_nextRequest (p : Nat) (reqs : List Flit) : (s.nextRequest l p reqs).1.aside = s.aside := by
  unfold nextRequest
  dsimp only
  split <;> rfl

@[simp] theorem aside_nextFlit : (s.nextFlit l).1.aside = s.aside := by
  unfold nextFlit
  dsimp only
  split
  · split <;> simp
  split
  · rfl
  split
  · simp
  split
  · rfl
  split
  next t p h => exact (aside_nextRequest ..).trans (aside_of_eq h (aside_cuffSlot ..))
  next t h => exact aside_of_eq h (aside_cuffSlot ..)

@[simp] theorem aside_sendIdle : (s.sendIdle l).aside = s.aside := by
  unfold sendIdle
  dsimp only
  split <;> rfl

@[simp] theorem aside_freeVia (f : Flit) : (s.freeVia d f).aside = s.aside := by
  unfold freeVia
  split <;> simp

@[simp] theorem aside_stampSent (f : Flit) : (s.stampSent d f).aside = s.aside := by
  unfold stampSent
  split
  · rfl
  split
  · rfl
  split <;> rfl

@[simp] theorem aside_pumpOne : (s.pumpOne l).aside = s.aside := by
  unfold pumpOne
  dsimp only
  split
  · rfl
  split
  next t h => exact aside_of_eq h (aside_nextFlit ..)
  next t f h => simpa using aside_of_eq h (aside_nextFlit s l)

@[simp] theorem aside_pumpN (n : Nat) : (s.pumpN l n).aside = s.aside := by
  induction n generalizing s with
  | zero => rfl
  | succ n ih => exact (ih _).trans (aside_pumpOne ..)

@[simp] theorem aside_enqueueFlit (f : Flit) : (s.enqueueFlit l f).aside = s.aside := aside_pumpN ..

end

@[simp] theorem aside_sendMsg (src dst : DieId) (m : Msg) : (s.sendMsg src dst m).aside = s.aside := by
  unfold sendMsg
  split
  · rfl
  split
  · simp
  · exact aside_foldl (fun t m => aside_enqueueFlit t _ _) _ s

/-! Requests to memory and translation (R284 to R291, R295, R299, R303). -/

@[simp] theorem aside_hotCount (partition ctx range n : Nat) : (s.hotCount d partition ctx range n).aside = s.aside := by
  unfold hotCount
  dsimp only
  split
  · rfl
  split
  · rfl
  split
  · rfl
  split
  · split <;> rfl
  · rfl

@[simp] theorem aside_sendReq (r : Req) : (s.sendReq d r).1.aside = s.aside := by
  unfold sendReq
  dsimp only
  split
  · rfl
  split
  · rfl
  split
  · simp
  split
  · rfl
  split
  · rfl
  · refine (aside_foldl (fun t m => aside_enqueueFlit t _ _) _ _).trans ?_
    rw [aside_addReq, aside_setLink, aside_hotCount]

@[simp] theorem aside_startWalk (o : Owner) (partition ctx va : Nat) (acc : Access) :
    (s.startWalk d o partition ctx va acc).aside = s.aside := by
  unfold startWalk
  dsimp only
  split
  · rfl
  · split <;> rfl

@[simp] theorem aside_touch (key partition ctx va : Nat) : (s.touch d key partition ctx va).aside = s.aside := by
  unfold touch
  split <;> rfl

@[simp] theorem aside_faultAccess (cause : FaultCause) (range : Nat) (o : Owner) (partition ctx va : Nat) (acc : Access) :
    (s.faultAccess d cause range o partition ctx va acc).aside = s.aside := by
  unfold faultAccess
  dsimp only
  split
  · rfl
  · split <;> rfl

@[simp] theorem aside_busAccess (partition ctx range : Nat) (ahead : Bool) (b : BusAcc) :
    (s.busAccess d partition ctx range ahead b).1.aside = s.aside := by
  unfold busAccess
  dsimp only
  split
  · rfl
  refine (aside_setDie ..).trans (aside_foldl_fst (fun p i => ?_) _ _)
  split
  · rfl
  split
  next t h => exact aside_of_eq h (aside_sendReq ..)
  next => rfl
  next t h => exact (show _ = t.aside from rfl).trans (aside_of_eq h (aside_sendReq ..))

@[simp] theorem aside_busRead (o : Owner) (partition ctx va pa n range : Nat) (ahead : Bool) :
    (s.busRead d o partition ctx va pa n range ahead).1.aside = s.aside := aside_busAccess ..

@[simp] theorem aside_busWrite (o : Owner) (partition ctx va pa : Nat) (bs : List Byte) (range : Nat) (ahead : Bool) :
    (s.busWrite d o partition ctx va pa bs range ahead).1.aside = s.aside := aside_busAccess ..

@[simp] theorem aside_xlateSegs (o : Owner) (partition ctx va : Nat) (acc : Access) :
    (s.xlateSegs d o partition ctx va acc).1.aside = s.aside := by
  have read := aside_busRead s d o partition ctx va (rootTable ((s.die d).roots.get 0 partition) + 256 * ctx) 256 noRange true
  unfold xlateSegs
  dsimp only
  split
  next t h => exact aside_of_eq h read
  next t _ h => exact aside_of_eq h read
  next t blk h =>
    split
    · exact aside_of_eq h read
    split
    · exact aside_of_eq h read
    split
    · exact aside_of_eq h read
    split <;> exact aside_of_eq h read

@[simp] theorem aside_xlateNow (o : Owner) (partition ctx va : Nat) (acc : Access) :
    (s.xlateNow d o partition ctx va acc).1.aside = s.aside := by
  unfold xlateNow
  split
  · rfl
  split
  · split <;> simp
  · split <;> simp
  · simp
  · rfl

/-! Event records (R251, R275). -/

@[simp] theorem aside_writeEvent (p r : Nat) (rec : EventRec) (n : Nat) :
    (s.writeEvent d p r rec n).1.aside = s.aside := by
  unfold writeEvent
  dsimp only
  split
  · rfl
  split
  next t pa range h =>
    have found := aside_of_eq h (aside_xlateNow ..)
    split
    next u _ hw =>
      have written : u.aside = s.aside := aside_of_eq hw ((aside_busWrite ..).trans found)
      split <;> exact written
    next u _ hw => exact (aside_busDone ..).trans (aside_of_eq hw ((aside_busWrite ..).trans found))
    next u hw => exact aside_of_eq hw ((aside_busWrite ..).trans found)
  next t c range h => exact (aside_faultAccess ..).trans (aside_of_eq h (aside_xlateNow ..))
  next t h => exact aside_of_eq h (aside_xlateNow ..)
  next t _ _ h => exact (aside_busDone ..).trans (aside_of_eq h (aside_xlateNow ..))

@[simp] theorem aside_tryEvent (p r : Nat) (rec : EventRec) : (s.tryEvent d p r rec).1.aside = s.aside := by
  unfold tryEvent
  dsimp only
  split
  · simp
  split
  next t h => exact aside_of_eq h (aside_writeEvent ..)
  next t h => exact (aside_waitEvent ..).trans (aside_of_eq h (aside_writeEvent ..))
  next t _ _ h => exact aside_of_eq h (aside_writeEvent ..)

@[simp] theorem aside_logUndeliverable (p : Nat) (rec : EventRec) : (s.logUndeliverable d p rec).aside = s.aside := by
  refine (aside_tryEvent ..).trans ?_
  unfold logOverflow
  dsimp only
  split <;> rfl

/-! The loss of a context (R247). -/

@[simp] theorem aside_stopPart (q : Nat) : (s.stopPart q d).aside = s.aside := aside_foldl aside_stopCore _ _

@[simp] theorem aside_stopLaunch (q : Nat) : (s.stopLaunch q).aside = s.aside :=
  (aside_foldl (fun t _ => aside_sendMsg t _ _ _) _ _).trans (aside_stopPart ..)

@[simp] theorem aside_withdrawCtx (n : Nat) : (s.withdrawCtx n).aside = s.aside :=
  (aside_foldl (fun t d => aside_withdraw t d _) _ _).trans (aside_foldl (fun t d => aside_dropEvents t d _) _ s)

@[simp] theorem aside_postLost (n : Nat) : (s.postLost n).aside = s.aside := by
  unfold postLost
  dsimp only
  split
  · rfl
  split
  next t h => exact aside_of_eq h ((aside_tryEvent ..).trans (aside_putCtx ..))
  next t _ h => exact (aside_logUndeliverable ..).trans (aside_of_eq h ((aside_tryEvent ..).trans (aside_putCtx ..)))

@[simp] theorem aside_lose (home : DieId) (n code cls : Nat) (rec : FaultRec) :
    (s.lose home n code cls rec).aside = s.aside := by
  unfold lose
  dsimp only
  split
  · rfl
  rw [aside_foldl aside_stopLaunch, aside_withdrawCtx, aside_dirtyStores, apply_ite State.aside, aside_postLost, ite_self,
    aside_foldl fun t e => aside_setDie t e _]
  split
  · split <;> simp
  · simp

@[simp] theorem aside_postEvent (p r : Nat) (rec : EventRec) : (s.postEvent d p r rec).aside = s.aside := by
  unfold postEvent
  split
  next t h => exact aside_of_eq h (aside_tryEvent ..)
  next t _ _ h =>
    have tried : t.aside = s.aside := aside_of_eq h (aside_tryEvent ..)
    unfold eventFailed
    split <;> simp [tried]

/-! Accesses of the command processors (R278 to R289). -/

@[simp] theorem aside_xlatePieces (o : Owner) (p ctx : Nat) (acc : Access) (l : List (Nat × Nat)) :
    (s.xlatePieces d o p ctx acc l).1.aside = s.aside := by
  induction l generalizing s with
  | nil => rfl
  | cons e es ih =>
    have now := aside_xlateNow s d o p ctx e.1 acc
    unfold xlatePieces
    split
    next t pa r h =>
      have found : t.aside = s.aside := aside_of_eq h now
      split
      next u l hl => exact aside_of_eq hl ((ih t).trans found)
      next u x hl => exact aside_of_eq hl ((ih t).trans found)
    next t c r h => exact aside_of_eq h now
    next t h => exact aside_of_eq h now
    next t code info h =>
      split
      · exact aside_of_eq h now
      · exact (aside_lose ..).trans (aside_of_eq h now)

@[simp] theorem aside_readVa (o : Owner) (p ctx va n : Nat) (acc : Access) (ahead : Bool) :
    (s.readVa d o p ctx va n acc ahead).1.aside = s.aside := by
  unfold readVa
  split
  next t x h => exact aside_of_eq h (aside_xlatePieces ..)
  next t l h =>
    refine (aside_foldl_fst (fun p e => ?_) l _).trans (aside_of_eq h (aside_xlatePieces ..))
    split
    · split
      next u x hr => exact aside_of_eq hr (aside_busRead ..)
      next u x hr => exact aside_of_eq hr (aside_busRead ..)
      next u hr => exact aside_of_eq hr (aside_busRead ..)
    · rfl

end State
end Sys2Proof.Machine
end

section
/-!
PROOFS. Object requests: the start of a request that is submitted alone, and the creation of objects (R232 to R239, R250).
-/
namespace Sys2Proof.Machine

namespace State

/-! ### The start and the end of a request -/

/-- The state in which a submitted request has started. -/
def started (s : State) (v m : W64) (r : ObjReq) : State :=
  { s with objReq := putCovered s.objReq 0 v m, objHeld := s.objHeld ++ [r] }

/-- The state in which a submitted request waits. -/
def submitted (s : State) (v m : W64) (r : ObjReq) : State := s.started v m { r with waits := true }

variable {s : State} {r : ObjReq}

/-- With no request waiting, none starts. -/
theorem objNextN_of_none_waits (calm : ∀ x ∈ s.objHeld, x.waits = false) (fuel : Nat) : s.objNextN fuel = s := by
  have losses : s.objLosses = s := by simp [objLosses, List.filter_eq_nil_iff.mpr (by simpa using calm)]
  have first : s.objFirst = none := by
    refine List.findSome?_eq_none_iff.mpr fun i _ => ?_
    split
    next x found => simp [calm x (List.mem_of_getElem? found)]
    next => rfl
  cases fuel with
  | zero => rfl
  | succ fuel => simp [objNextN, losses, first]

/-- A request that ends is held no more; its OBJECT record leaves the others alone (R234). -/
theorem aside_objEnd (p ctx queue result : Nat) (v : W64) :
    (s.objEnd r p ctx queue result v).aside = ({ s with objHeld := s.objHeld.erase r } : State).aside := aside_postEvent ..

theorem crown_crownOk (s : State) : s.crownOk.crown = ⟨false, 0⟩ := rfl

/-- The answer to the write that submits it, and its record, leave queues and memory objects alone. -/
theorem queue_objEnd_crownOk (p ctx queue result : Nat) (v : W64) (q : QueueId) :
    (s.objEnd r p ctx queue result v).crownOk.queue q = s.queue q := queue_of_aside (aside_objEnd p ctx queue result v) q

theorem mo_objEnd_crownOk (p ctx queue result : Nat) (v : W64) (h : Nat) :
    (s.objEnd r p ctx queue result v).crownOk.mo h = s.mo h := mo_of_aside (aside_objEnd p ctx queue result v) h

section
variable {v m : W64} (calm : ∀ x ∈ s.objHeld, x.waits = false)
  (alone : ∀ x ∈ s.objHeld, r.names = none ∨ x.names ≠ r.names)
  (meets : r.op ≠ 3 ∧ r.op ≠ 5)

include meets in
/-- A request that destroys neither a context nor a queue meets no loss (R236). -/
theorem lossOf_none (b : Bool) : s.lossOf { r with waits := b } = none := by simp [lossOf, meets]

include calm meets in
theorem objLosses_submitted : (s.submitted v m r).objLosses = s.submitted v m r := by
  have waiting : (s.submitted v m r).objHeld.filter (·.waits) = [{ r with waits := true }] := by
    simpa [submitted, started] using calm
  simp [objLosses, waiting, lossOf_none meets]

include calm alone meets in
/-- It is the only request that waits, and no other is on its object: it starts (R234). -/
theorem objFirst_submitted : (s.submitted v m r).objFirst = some (s.objHeld.length, { r with waits := true }) := by
  have names : ({ r with waits := true } : ObjReq).names = r.names := rfl
  have ready : (s.submitted v m r).objReady s.objHeld { r with waits := true } = true := by
    simp only [objReady, lossOf_none meets, names, Option.all_none, Bool.and_true, Bool.not_eq_true', Bool.and_eq_false_iff,
      List.any_eq_false, decide_eq_true_eq]
    rcases Option.eq_none_or_eq_some r.names with unnamed | ⟨n, named⟩
    · simp [unnamed]
    · exact .inr fun x held => (alone x held).resolve_left (by simp [named])
  simp only [objFirst]
  have length : (s.submitted v m r).objHeld.length = s.objHeld.length + 1 := by simp [submitted, started]
  rw [length, List.range_succ, List.findSome?_append]
  have earlier : ∀ i ∈ List.range s.objHeld.length, (s.submitted v m r).objHeld[i]? = s.objHeld[i]? := fun i inside =>
    List.getElem?_append_left (List.mem_range.mp inside)
  have last : (s.submitted v m r).objHeld[s.objHeld.length]? = some { r with waits := true } := by
    simp [submitted, started]
  rw [List.findSome?_eq_none_iff.mpr fun i inside => ?_]
  · simp [submitted, started] at ready ⊢
    simp [ready]
  · rw [earlier i inside]
    split
    next x found => simp [calm x (List.mem_of_getElem? found)]
    next => rfl

include calm alone meets in
theorem objNext_submitted (fresh : r.waits = false) (rest : ∀ x ∈ ((s.started v m r).objRun r).objHeld, x.waits = false) :
    (s.submitted v m r).objNext = (s.started v m r).objRun r := by
  have waits : (s.submitted v m r).objHeld.any (·.waits) = true := by simp [submitted, started]
  have same : ({ r with waits := false } : ObjReq) = r := by rw [← fresh]
  have set : ({ s.submitted v m r with objHeld := (s.submitted v m r).objHeld.set s.objHeld.length r } : State) =
      s.started v m r := by simp [submitted, started]
  rw [objNext, if_pos waits, objNextN, objLosses_submitted calm meets, objFirst_submitted calm alone meets]
  simp only [same, set]
  exact objNextN_of_none_waits rest _

end

section
variable {role strb : Byte} {v m : W64} {op : Nat} (h : Submits s role strb v op r m)
include h

theorem waits_of_submits : r.waits = false := by
  rw [h.req]
  rfl

/-- The write of word 0 that submits a request is that request's start. -/
theorem objRow_of_submits (meets : op ≠ 3 ∧ op ≠ 5)
    (rest : ∀ x ∈ ((s.started v m r).objRun r).objHeld, x.waits = false) :
    s.objRow op role strb v = ((s.started v m r).objRun r).crownOk := by
  have opcode : fieldAt (putCovered s.objReq 0 v m) 0 1 = op := by
    rw [← h.isOp, h.req]
    rfl
  have request : ({ s with
      objReq := putCovered s.objReq 0 v m
      objHeld := s.objHeld ++ [{ reqOfBlock (putCovered s.objReq 0 v m) with waits := true }] } : State) =
      s.submitted v m r := by
    rw [← h.req]
    rfl
  have room : ¬ 64 ≤ s.objHeld.length := Nat.not_le.mpr h.room
  have next := objNext_submitted h.idle h.alone (h.isOp ▸ meets) (waits_of_submits h) rest
  simp [objRow, objWrite, driverWrite, h.strobe, h.submit, opcode, h.open', h.role', room, request, next]

/-- An operation whose work comes to `u` and then an OBJECT record. -/
theorem objRow_objEnd (meets : op ≠ 3 ∧ op ≠ 5) {u : State} {p ctx queue result : Nat} {w : W64}
    (run : (s.started v m r).objRun r = u.objEnd r p ctx queue result w) (held : u.objHeld = s.objHeld ++ [r]) :
    s.objRow op role strb v = (u.objEnd r p ctx queue result w).crownOk := by
  rw [← run]
  refine objRow_of_submits h meets fun x mem => ?_
  rw [run, objHeld_of_aside (aside_objEnd ..)] at mem
  rcases List.mem_append.mp (held ▸ List.mem_of_mem_erase mem) with earlier | last
  · exact h.idle x earlier
  · rw [List.mem_singleton.mp last]
    exact waits_of_submits h

end

/-! ### The objects that table entries describe (Table 12-2) -/

/-- The context of an entry without a heap. -/
def ctxOfEntry (e : List Byte) : Ctx :=
  { st := .ready, partition := fieldAt e 0 2, evring := fieldAt e 3 1, heap := 0xFFFFFFFF
    saveBase := BitVec.ofNat 64 (fieldAt e 8 8), saveSize := BitVec.ofNat 64 (fieldAt e 0x10 8) }

def queueOfEntry (e : List Byte) : Queue :=
  { st := .opened, ctx := fieldAt e 0 2, ringLog2 := fieldAt e 3 1
    outLimit := if fieldAt e 4 2 = 0 then 32768 else 512 * fieldAt e 4 2
    ringBase := BitVec.ofNat 64 (fieldAt e 8 8), timeout := BitVec.ofNat 32 (fieldAt e 0x10 4) }

def moOfEntry (e : List Byte) : MemObj :=
  { st := .live, partition := fieldAt e 4 2, isFence := bitAt (fieldAt e 6 1) 0, isHeap := bitAt (fieldAt e 6 1) 1
    base := BitVec.ofNat 64 (fieldAt e 8 8), length := BitVec.ofNat 64 (fieldAt e 0x10 8) }

/-- The semaphore that the argument of a SEM_CREATE describes, with its generation (Table 12-2, R250). -/
def semaOfArg (arg : W64) (gen : BitVec 16) : Sema :=
  { used := true, gen := gen, partition := field arg.toNat 19 16, units := field arg.toNat 15 0 }

section
variable (s) (v m : W64) (r)

@[simp] theorem ctx_started (n : Nat) : (s.started v m r).ctx n = s.ctx n := rfl
@[simp] theorem queue_started (q : QueueId) : (s.started v m r).queue q = s.queue q := rfl
@[simp] theorem mo_started (h : Nat) : (s.started v m r).mo h = s.mo h := rfl
@[simp] theorem sema_started (n : Nat) : (s.started v m r).sema n = s.sema n := rfl
@[simp] theorem build_started : (s.started v m r).build = s.build := rfl
@[simp] theorem partEnabled_started (p : Nat) : (s.started v m r).partEnabled p = s.partEnabled p := rfl
@[simp] theorem readBytes_started (pa n : Nat) : (s.started v m r).readBytes pa n = s.readBytes pa n := rfl
@[simp] theorem ctxEntry_started (n : Nat) : (s.started v m r).ctxEntry n = s.ctxEntry n := rfl
@[simp] theorem queueEntry_started (q : QueueId) : (s.started v m r).queueEntry q = s.queueEntry q := rfl
@[simp] theorem moEntry_started (h : Nat) : (s.started v m r).moEntry h = s.moEntry h := rfl

end

/-- The STATE byte of a context's table entry is that of the context (Table 12-3). -/
theorem readByte_putCtx_state (s : State) (n : Nat) (c : Ctx) :
    (s.putCtx n c).readByte (s.ctxEntry n + 2) = BitVec.ofNat 8 c.st.code := by
  simp only [putCtx, syncCtx]
  rw [readByte_writeBytes_other _ _ _ _ (.inl ?_), readByte_writeBytes_other _ _ _ _ (.inl ?_)]
  · exact (readByte_writeByte ..).trans (by simp)
  · change s.ctxEntry n + 2 < s.ctxEntry n + 0x18
    omega
  · change s.ctxEntry n + 2 < s.ctxEntry n + 0x20
    omega

theorem queueOf_key (q : QueueId) : queueOf q.key = q := by
  obtain ⟨d, n⟩ := q
  have die : (d.val * 65536 + n.toNat) / 65536 = d.val := by have := n.isLt; omega
  have number : BitVec.ofNat 16 (d.val * 65536 + n.toNat) = n :=
    BitVec.eq_of_toNat_eq (by simp [Nat.mod_eq_of_lt n.isLt])
  simp only [queueOf, QueueId.key, die, number, dieOf_val]

end State

/-- Settles O44: where every check of an operation passes, its work is the change of the one object that its entry or argument
describes, and an OBJECT record with DONE, which leaves queues, memory objects and the requests held alone (`aside_objEnd`). -/
theorem objectsAreCreated : Obligations.ObjectsAreCreated := by
  unfold Obligations.ObjectsAreCreated
  refine ⟨?context, ?queue, ?object, ?semaphore⟩
  case context =>
    intro s role strb v m r e sub index entry free arg0 enabled base size reserved heap
    have run : (s.started v m r).objRun r = ((s.started v m r).putCtx r.index (State.ctxOfEntry e)).objEnd r (fieldAt e 0 2)
        0xFFFF 0xFFFFFFFF objDone := by
      simp [State.objRun, sub.isOp, State.ctxCreate, ← entry, Nat.not_le.mpr index, free, arg0, sub.plain, enabled, base, size,
        reserved, heap, State.ctxOfEntry]
    have same := State.aside_putCtx (s.started v m r) r.index (State.ctxOfEntry e)
    have row := State.objRow_objEnd sub (by decide) run (State.objHeld_of_aside same)
    exact ⟨_, congrArg Host.Outcome.next row, State.ctx_putCtx .., State.readByte_putCtx_state .., State.queues_of_aside (s := s.started v m r) same,
      State.mos_of_aside (s := s.started v m r) same⟩
  case queue =>
    intro s role strb v m r q e sub index die entry free arg0 ctx ready low high limit reserved base zero zeros
    have inside : ¬ s.build.dies * 65536 ≤ q.key := by
      have := of_decide_eq_true die
      have := q.q.isLt
      simp only [QueueId.key]
      omega
    have run : (s.started v m r).objRun r = ((s.started v m r).putQueue q (State.queueOfEntry e)).objEnd r
        ((s.started v m r).ctxPart (fieldAt e 0 2)) (fieldAt e 0 2) r.index objDone := by
      simp [State.objRun, sub.isOp, State.qCreate, index, State.queueOf_key, inside, ← entry, free, arg0, sub.plain,
        Nat.not_le.mpr ctx, ready, inRange, low, high, Nat.not_lt.mpr limit, reserved, base, zero, zeros, State.queueOfEntry]
    have same := State.aside_putQueue (s.started v m r) q (State.queueOfEntry e)
    have row := State.objRow_objEnd sub (by decide) run (State.objHeld_of_aside same)
    exact ⟨_, congrArg Host.Outcome.next row, State.crown_crownOk _,
      (State.queue_objEnd_crownOk ..).trans (State.queue_putQueue ..)⟩
  case object =>
    intro s role strb v m r e sub index entry free arg0 enabled flags base length low high reserved
    norm_num at high
    have run : (s.started v m r).objRun r = ((s.started v m r).putMo r.index (State.moOfEntry e)).objEnd r (fieldAt e 4 2)
        0xFFFF 0xFFFFFFFF objDone := by
      simp [State.objRun, sub.isOp, State.moRegister, ← entry, Nat.not_le.mpr index, free, arg0, sub.plain, enabled,
        Nat.not_le.mpr flags, base, length, inRange, low, Nat.not_lt.mpr high, reserved, State.moOfEntry]
    have same := State.aside_putMo (s.started v m r) r.index (State.moOfEntry e)
    have row := State.objRow_objEnd sub (by decide) run (State.objHeld_of_aside same)
    exact ⟨_, congrArg Host.Outcome.next row, State.crown_crownOk _, (State.mo_objEnd_crownOk ..).trans (State.mo_putMo ..)⟩
  case semaphore =>
    intro s role strb v m r i sub index high units enabled first
    have run : (s.started v m r).objRun r = ((s.started v m r).setSema i (State.semaOfArg r.arg0 ((s.sema i).gen + 1))).objEnd r
        (field r.arg0.toNat 19 16) 0xFFFF 0xFFFFFFFF objDone
        (BitVec.ofNat 64 (((s.sema i).gen + 1).toNat * 65536 + field r.arg0.toNat 19 16 * 4096 + i)) := by
      simp [State.objRun, sub.isOp, State.semCreate, index, sub.plain, high, units, enabled, first, place, State.semaOfArg]
    exact ⟨_, congrArg Host.Outcome.next (State.objRow_objEnd sub (by decide) run rfl), State.sema_setSema .., rfl⟩

end Sys2Proof.Machine
end

section
/-!
PROOFS. The commands that wait (R237, R261 to R264, R296).
-/
namespace Sys2Proof.Machine

namespace State

variable {s t : State} {q : QueueId}

/-! ### An access of a unit changes an object only through the loss of a context without a slot -/

section
variable (s) (d : DieId) (o : Owner) (p ctx va : Nat) (acc : Access)

theorem slotOf_touch (key n : Nat) : (s.touch d key p n va).slotOf d ctx = s.slotOf d ctx := by
  unfold touch
  split
  · rfl
  · simp [slotOf]

theorem slotOf_startWalk (n : Nat) : (s.startWalk d o p n va acc).slotOf d ctx = s.slotOf d ctx := by
  unfold startWalk
  dsimp only
  split
  · simp [slotOf]
  · split <;> simp [slotOf]

theorem xlate_ne_lost (key code info : Nat) : s.xlate d key p ctx va acc ≠ .lost code info := by
  unfold xlate
  split
  · simp
  split
  · split
    · simp
    · dsimp only
      split <;> simp
  · split <;> simp

/-- In a slot the segments of a context are at hand: its translation reads no segment block, and the context keeps its slot
(R299, R300). -/
theorem xlateNow_of_slot (slot : (s.slotOf d ctx).isSome = true) :
    (s.xlateNow d o p ctx va acc).1.slotOf d ctx = s.slotOf d ctx ∧
      ∀ code info, (s.xlateNow d o p ctx va acc).2 ≠ .lost code info := by
  have held : (s.slotOf d ctx).isNone = false := by simpa using slot
  unfold xlateNow
  split
  · simp
  split
  · split
    · simp
    · simp [slotOf_startWalk]
  · simp [held]
  · simp [slotOf_touch]
  next x h => exact ⟨rfl, fun code info => xlate_ne_lost s d p ctx va acc _ code info⟩

end

section
variable {d : DieId} {o : Owner} {p ctx : Nat} {acc : Access}

theorem objects_xlatePieces {l : List (Nat × Nat)}
    (kept : (s.slotOf d ctx).isSome = true ∨ (s.xlatePieces d o p ctx acc l).2 ≠ .error .wait) :
    (s.xlatePieces d o p ctx acc l).1.objects = s.objects := by
  induction l generalizing s with
  | nil => rfl
  | cons e es ih =>
    have now := objects_xlateNow s d o p ctx e.1 acc
    have slot := xlateNow_of_slot s d o p ctx e.1 acc
    unfold xlatePieces at kept ⊢
    split
    next t pa r h =>
      have found : t.objects = s.objects := objects_of_eq h now
      simp only [h] at kept slot
      have rest : (t.slotOf d ctx).isSome = true ∨ (t.xlatePieces d o p ctx acc es).2 ≠ .error .wait := by
        refine kept.imp (fun k => by rw [(slot k).1]; exact k) fun k stalls => k ?_
        split
        next u l hl => simp [hl] at stalls
        next u x hl => simpa [hl] using stalls
      split
      next u l hl => exact objects_of_eq hl ((ih rest).trans found)
      next u x hl => exact objects_of_eq hl ((ih rest).trans found)
    next t c r h => exact objects_of_eq h now
    next t h => exact objects_of_eq h now
    next t code info h =>
      simp only [h] at kept slot
      split
      · exact objects_of_eq h now
      next live =>
        rcases kept with k | k
        · exact absurd rfl ((slot k).2 code info)
        · simp [live] at k

theorem objects_readVa {va n : Nat} {ahead : Bool}
    (kept : (s.slotOf d ctx).isSome = true ∨ (s.readVa d o p ctx va n acc ahead).2 ≠ .wait) :
    (s.readVa d o p ctx va n acc ahead).1.objects = s.objects := by
  have pieces := @objects_xlatePieces s d o p ctx acc (pagePieces (n / 4096 + 2) va n)
  unfold readVa at kept ⊢
  split
  next t x h =>
    refine objects_of_eq h (pieces (kept.imp_right fun k stalls => k ?_))
    rw [h] at stalls ⊢
    simpa using stalls
  next t l h =>
    refine (objects_foldl_fst (fun p e => ?_) l _).trans (objects_of_eq h (pieces (.inr (by simp [h]))))
    split
    · split
      next u x hr => exact objects_of_eq hr (objects_busRead ..)
      next u x hr => exact objects_of_eq hr (objects_busRead ..)
      next u hr => exact objects_of_eq hr (objects_busRead ..)
    · rfl

end

/-! ### A queue's table entry (Table 12-5) -/

theorem readByte_writeBytes (pa : Nat) (bs : List Byte) {i : Nat} (inside : i < bs.length) :
    (s.writeBytes pa bs).readByte (pa + i) = bs[i] := by
  induction bs generalizing s pa i with
  | nil => simp at inside
  | cons b bs ih =>
    cases i with
    | zero => exact (readByte_writeBytes_other _ _ _ _ (.inl (Nat.lt_succ_self _))).trans (readByte_writeByte ..)
    | succ i =>
      have next : pa + (i + 1) = pa + 1 + i := by omega
      exact (congrArg _ next).trans (ih (s := s.writeByte pa b) (pa + 1) (Nat.lt_of_succ_lt_succ inside))

theorem length_bytesLE (n v : Nat) : (bytesLE n v).length = n := by simp [bytesLE]

theorem getElem_bytesLE (n v : Nat) {i : Nat} (inside : i < (bytesLE n v).length) :
    (bytesLE n v)[i] = BitVec.ofNat 8 (v >>> (8 * i)) := by simp [bytesLE]

theorem readBytes_putQueue_doneptr (s : State) (q : QueueId) (k : Queue) :
    (s.putQueue q k).readBytes (s.queueEntry q + 0x20) 8 = bytesLE 8 k.doneptr.toNat := by
  refine List.map_congr_left fun i inside => ?_
  have inside := List.mem_range.mp inside
  have at' : s.queueEntry q + 0x20 + i = s.queueEntry q + 0x18 + (8 + i) := by omega
  simp only [putQueue, syncQueue, queue_setQueue]
  rw [at']
  refine (readByte_writeBytes (s.queueEntry q + 0x18) _ (by simp [length_bytesLE]; omega)).trans ?_
  rw [List.getElem_append_right (by simp [length_bytesLE])]
  simp [length_bytesLE, getElem_bytesLE]

/-- The other bytes of memory stay. -/
theorem readByte_putQueue_other (k : Queue) {x : Nat} (outside : x < s.queueEntry q ∨ s.queueEntry q + 64 ≤ x) :
    (s.putQueue q k).readByte x = s.readByte x := by
  simp only [putQueue, syncQueue]
  rw [readByte_writeBytes_other _ _ _ _ ?pointers, readByte_writeBytes_other _ _ _ _ ?state]
  · rfl
  case pointers =>
    change x < s.queueEntry q + 0x18 ∨ s.queueEntry q + 0x18 + _ ≤ x
    simp only [List.length_append, length_bytesLE]
    omega
  case state =>
    change x < s.queueEntry q + 2 ∨ s.queueEntry q + 2 + _ ≤ x
    simp only [length_bytesLE]
    omega

end State

/-! ### The end of a command -/

/-- A queue when its oldest command, in its ring, has completed (R240, R259). -/
def Queue.completed (k : Queue) (a : Accepted) (rest : List Accepted) : Queue :=
  { k with
    accepted := rest, doneptr := BitVec.ofNat 64 (a.pos + a.bytes.length), frames := [], wait := .none, cmd := []
    timer := 0, timed := false, reread := false }

namespace OnlyDies

variable {s t : State} (h : OnlyDies s t)
include h

theorem writeBytes (pa : Nat) (bs : List Byte) : OnlyDies (s.writeBytes pa bs) (t.writeBytes pa bs) := by
  induction bs generalizing s t pa with
  | nil => exact h
  | cons b bs ih =>
    obtain ⟨k, rfl⟩ := h
    exact ih (s := s.writeByte pa b) ⟨k, rfl⟩ (pa + 1)

theorem putQueue (q : QueueId) (k : Queue) : OnlyDies (s.putQueue q k) (t.putQueue q k) := by
  obtain ⟨d, rfl⟩ := h
  exact (writeBytes (writeBytes ⟨d, rfl⟩ _ _) _ _)

theorem ranOn (d : DieId) (ctx : Nat) : OnlyDies s (t.ranOn d ctx) := h.setDie _

theorem queue (q : QueueId) : t.queue q = s.queue q := by
  obtain ⟨d, rfl⟩ := h
  rfl

theorem readByte (x : Nat) : t.readByte x = s.readByte x := by
  obtain ⟨d, rfl⟩ := h
  rfl

theorem readBytes (x n : Nat) : t.readBytes x n = s.readBytes x n := List.map_congr_left fun _ _ => h.readByte _

end OnlyDies

namespace State

variable {s t : State} {q : QueueId}

theorem setQueue_setQueue (s : State) (q : QueueId) (v x : Queue) : (s.setQueue q v).setQueue q x = s.setQueue q x := by
  simp only [setQueue, SMap.put_put_same]

theorem queue_updQueue (s : State) (q : QueueId) (f : Queue → Queue) : (s.updQueue q f).queue q = f (s.queue q) :=
  queue_setQueue ..

theorem putQueue_setQueue (s : State) (q : QueueId) (v x : Queue) : (s.setQueue q v).putQueue q x = s.putQueue q x := by
  simp only [putQueue, setQueue_setQueue]

section
variable {a : Accepted} {rest : List Accepted} (oldest : (s.queue q).accepted = a :: rest) (refs : a.refs = [])
include oldest refs

/-- The oldest command, where it holds no references, has completed: beside its queue, only dies note it (R240, R285). -/
theorem ringDone_onlyDies : OnlyDies (s.putQueue q { s.queue q with
    accepted := rest, doneptr := BitVec.ofNat 64 (a.pos + a.bytes.length) }) (s.ringDone q) := by
  have unpinned : OnlyDies s (s.unpin (q.key, a.pos)) := ⟨_, rfl⟩
  have queue : (s.unpin (q.key, a.pos)).queue q = s.queue q := rfl
  have dropped : s.dropRefs q.die [] = s := rfl
  simp only [ringDone, oldest, refs, dropped, queue]
  exact unpinned.putQueue q _

theorem cmdDone_onlyDies (ring : (s.queue q).frames = []) (len : Nat) :
    OnlyDies (s.putQueue q ((s.queue q).completed a rest)) (s.cmdDone q len) := by
  have done := ringDone_onlyDies (s := s.setQueue q { s.queue q with
    frames := [], wait := .none, cmd := [], timer := 0, timed := false, reread := false }) (q := q)
    (by rw [queue_setQueue]; exact oldest) refs
  rw [putQueue_setQueue, queue_setQueue] at done
  simp only [cmdDone, ring, advanceFrames, Option.isNone_none, if_true, Option.getD_none]
  split
  · exact done.ranOn ..
  · exact (done.ranOn ..).askSlot _

end

/-- So DONEPTR has passed the command, in the queue and in its table entry, and the rest of memory stays (R241, R259). -/
theorem cmdDone_completes {a : Accepted} {rest : List Accepted} (tables : t.qTbl = s.qTbl) (mem : t.mem = s.mem)
    (oldest : (t.queue q).accepted = a :: rest) (refs : a.refs = []) (ring : (t.queue q).frames = []) (len : Nat) :
    Completed s (t.cmdDone q len) q a rest ∧ SameOutsideEntry s (t.cmdDone q len) q := by
  have done := cmdDone_onlyDies oldest refs ring len
  have entry : t.queueEntry q = s.queueEntry q := by rw [queueEntry, queueEntry, tables]
  have queue : (t.cmdDone q len).queue q = (t.queue q).completed a rest := (done.queue q).trans (queue_putQueue ..)
  refine ⟨⟨by rw [queue]; rfl, by rw [queue]; rfl, ?_, by rw [queue]; exact ⟨rfl, rfl⟩⟩, fun x outside => ?_⟩
  · rw [queue, done.readBytes, ← entry]
    exact readBytes_putQueue_doneptr t q _
  · refine (done.readByte x).trans ((readByte_putQueue_other _ (entry ▸ outside)).trans ?_)
    rw [readByte, readByte, mem]

/-! ### The start of a command -/

section
variable {op : Nat} {b : List Byte} {a : Accepted} {rest : List Accepted} (h : MayStart s q op b a rest)
include h

/-- Its context is RESIDENT, in a slot of the queue's home die (R259, R267). -/
theorem resident_of_mayStart :
    (s.ctx (s.queue q).ctx).st = .resident ∧ (s.slotOf q.die (s.queue q).ctx).isSome = true := by
  have next := h.next
  simp only [mayRun] at next
  split at next
  · contradiction
  simp only [Option.ite_none_right_eq_some, Bool.and_eq_true, decide_eq_true_eq] at next
  obtain ⟨⟨⟨⟨⟨⟨-, resident⟩, slot⟩, -⟩, -⟩, -⟩, -⟩ := next
  exact ⟨resident, slot⟩

theorem opRow_of_guard (guard : (s.queue q).guardOk b = true) (run : State → List Byte → State) :
    s.opRow q op run = run (s.startTimer q b) b := by
  simp [opRow, h.next, guard]

end

/-! The start of a command's timer notes the command and the time in its queue, and changes nothing else (R266). -/

section
variable (s) (q) (b : List Byte)

@[simp] theorem startTimer_ctx (n : Nat) : (s.startTimer q b).ctx n = s.ctx n := rfl
@[simp] theorem startTimer_die (d : DieId) : (s.startTimer q b).die d = s.die d := rfl
@[simp] theorem startTimer_build : (s.startTimer q b).build = s.build := rfl

theorem startTimer_queue : ∃ n at' on,
    (s.startTimer q b).queue q = { s.queue q with cmd := b, timer := n, timerAt := at', timed := on } := by
  refine Exists.imp (fun n => Exists.imp fun at' => Exists.imp fun on => (queue_setQueue ..).trans) ?_
  dsimp only
  split
  · exact ⟨_, _, _, rfl⟩
  · exact ⟨_, _, _, rfl⟩

@[simp] theorem startTimer_queue_cmd : ((s.startTimer q b).queue q).cmd = b := by
  obtain ⟨n, at', on, queue⟩ := startTimer_queue s q b
  rw [queue]

@[simp] theorem startTimer_queue_ctx : ((s.startTimer q b).queue q).ctx = (s.queue q).ctx := by
  obtain ⟨n, at', on, queue⟩ := startTimer_queue s q b
  rw [queue]

@[simp] theorem startTimer_queue_accepted : ((s.startTimer q b).queue q).accepted = (s.queue q).accepted := by
  obtain ⟨n, at', on, queue⟩ := startTimer_queue s q b
  rw [queue]

@[simp] theorem startTimer_queuePart : (s.startTimer q b).queuePart q = s.queuePart q := by simp [queuePart]

end

theorem ofBytesLE_lt (l : List Byte) : ofBytesLE l < 256 ^ l.length := by
  induction l with
  | nil => simp [ofBytesLE]
  | cons b l ih =>
    have := b.isLt
    simp only [ofBytesLE, List.length_cons, Nat.pow_succ]
    omega

theorem fieldAt_lt (b : List Byte) (off n : Nat) : fieldAt b off n < 256 ^ n :=
  (ofBytesLE_lt _).trans_le (Nat.pow_le_pow_right (by decide) (List.length_take_le ..))

/-! ### SIGNAL -/

/-- A queue waits for the result of a signal, which has its number (R245, R261). -/
def withSignal (s : State) (q : QueueId) (f : FenceSig) : State :=
  { s.updQueue q (fun k => { k with wait := .fence }) with
    fences := s.fences.put s.fenceNext f, fenceNext := s.fenceNext + 1 }

theorem queue_withSignal (f : FenceSig) : (s.withSignal q f).queue q = { s.queue q with wait := .fence } :=
  queue_updQueue s q fun k => { k with wait := .fence }

theorem signalStart_ok {b : List Byte} (ok : s.fenceOk (s.queuePart q) (fieldAt b 8 8) = true) :
    s.signalStart q b = (s.withSignal q
      { va := BitVec.ofNat 64 (fieldAt b 8 8), value := BitVec.ofNat 64 (fieldAt b 0x10 8), status := 0
        ctx := (s.queue q).ctx, queue := q.key, src := q.die.val }).fenceSend s.fenceNext := by
  have va : (BitVec.ofNat 64 (fieldAt b 8 8)).toNat = fieldAt b 8 8 := Nat.mod_eq_of_lt (fieldAt_lt b 8 8)
  simp only [signalStart, va, ok, Bool.not_true, Bool.false_eq_true, if_false]
  rfl

/-! ### WAIT and TIME -/

theorem cmdRead_wait {va n : Nat} (go : State → List Byte → State)
    (waits : s.readVa q.die (.command q.key) (s.queuePart q) (s.queue q).ctx va n .read true = (t, .wait)) :
    s.cmdRead q va n go = t.cmdWait q va := by
  simp only [cmdRead, waits]

theorem cmdRead_ok {va n : Nat} {bs : List Byte} (go : State → List Byte → State)
    (read : s.readVa q.die (.command q.key) (s.queuePart q) (s.queue q).ctx va n .read true = (t, .ok bs)) :
    s.cmdRead q va n go = go (t.busDone q.die (.command q.key)) bs := by
  simp only [cmdRead, read]

theorem cmdWrite_wait {va : Nat} {bs : List Byte} (go : State → State)
    (waits : s.writeVa q.die (.command q.key) (s.queuePart q) (s.queue q).ctx va bs true = (t, .wait)) :
    s.cmdWrite q va bs go = t.cmdWait q va := by
  simp only [cmdWrite, waits]

/-- A WAIT whose read is answered completes, or waits on, by its condition (R261, R263). -/
theorem waitAgain_answered {a : Accepted} {rest : List Accepted} {bs : List Byte} (h : RereadAnswered s t q a rest bs) :
    s.waitAgain q = if condHolds (s.queue q).cmd (ofBytesLE bs) then (t.busDone q.die (.command q.key)).cmdDone q 32
      else t.busDone q.die (.command q.key) := by
  have again : s.waitAgain q = s.waitRead q := by
    simp [waitAgain, h.runs, h.waits, h.goesOn, h.resident, h.clear, h.asked]
  rw [again]
  simp only [waitRead, h.asked, if_true]
  exact cmdRead_ok _ h.data

theorem objects_answered {a : Accepted} {rest : List Accepted} {bs : List Byte} (h : RereadAnswered s t q a rest bs) :
    t.objects = s.objects := objects_of_eq h.data (objects_readVa (.inr (by simp [h.data])))

theorem queue_of_objects (h : t.objects = s.objects) (q : QueueId) : t.queue q = s.queue q :=
  congrArg (fun o => o.queues.get {} q.key) h

/-- A queue that waits for its condition when its read is not answered yet waits on (R263). -/
theorem waitStart_waits {b c : List Byte} (cmd : (s.queue q).cmd = b) (fresh : s.busHas q.die (.command q.key) = false)
    (waits : ((s.updQueue q fun k => { k with wait := .cond }).updQueue q fun k =>
        { k with readAt := (s.die q.die).ticks, reread := false }).readVa q.die (.command q.key) (s.queuePart q)
      (s.queue q).ctx (fieldAt b 8 8) (cmdWide b) .read true = (t, .wait)) :
    s.waitStart q c = t.cmdWait q (fieldAt b 8 8) := by
  have asked : (s.updQueue q fun k => { k with wait := .cond }).busHas q.die (.command q.key) = false := fresh
  have first : (s.updQueue q fun k => { k with wait := .cond }).queue q = { s.queue q with wait := .cond } := queue_setQueue ..
  simp only [waitStart, waitRead, asked, Bool.false_eq_true, if_false, first, cmd]
  refine cmdRead_wait _ ?_
  simpa [queuePart, updQueue] using waits

/-! ### LAUNCH -/

/-- The launch of a command for one die (R15, R143, R264, R371). -/
def oneDieLaunch (s : State) (q : QueueId) (b : List Byte) (a : Accepted) : Launch :=
  { ctx := (s.queue q).ctx, partition := (s.ctx (s.queue q).ctx).partition, cmd := b.take 64, pos := a.pos
    sdt := if lcSdtN b = 0 then [] else readAs a.sdts (lcSdt b, 96 * lcSdtN b)
    dies := [q.die.val], parts := ({} : SMap PartState).put 0 .pending
    clusters := (if lcPair b then [false, true] else [false]).flatMap (logClusters b)
    cores := (if lcPair b then [false, true] else [false]).flatMap (logCores b), saveLen := savePart b }

theorem length_clusters_oneDieLaunch (b : List Byte) (a : Accepted) (one : lcDies b = 1) :
    (s.oneDieLaunch q b a).clusters.length = (if lcPair b then 2 else 1) * lcClusters b := by
  simp only [oneDieLaunch]
  split <;> simp [logClusters, one, Nat.two_mul]

/-- The place in the save area is all of a launch that changes when it takes one (R237). -/
theorem saveTake_launch {n : Nat} {l : Launch} (found : s.launches.find? n = some l) : ∃ off held,
    (s.saveTake n).launches.find? n = some { l with saveOff := off, saveHeld := held } ∧
      (s.saveTake n).queues = s.queues ∧ (s.saveTake n).mem = s.mem := by
  simp only [saveTake, found]
  split
  · exact ⟨_, _, found, rfl, rfl⟩
  split
  · exact ⟨_, _, found, rfl, rfl⟩
  next off _ => exact ⟨off, true, launch_setLaunch .., rfl, rfl⟩

theorem launchStart_one {b : List Byte} {a : Accepted} {rest : List Accepted} (oldest : (s.queue q).accepted = a :: rest)
    (one : lcDies b = 1) (fits : savePart b ≤ (s.ctx (s.queue q).ctx).saveSize.toNat) :
    s.launchStart q b = (((s.updQueue q fun k => { k with wait := .launch, timed := false }).setLaunch q.key
      (s.oneDieLaunch q b a)).saveTake q.key).askSlot q.die (s.queue q).ctx := by
  simp only [launchStart, Nat.not_lt.mpr fits, if_false, oldest, List.headD_cons, one, decide_true, if_true]
  rfl

theorem launchStart_large {b : List Byte} (large : (s.ctx (s.queue q).ctx).saveSize.toNat < savePart b) :
    s.launchStart q b = s.lose q.die (s.queue q).ctx 0x1201 1 (.outside 0x1201 (savePart b)) := by
  simp only [launchStart, large, if_true]

/-- A live context that becomes LOST with a fault outside a program (R247). -/
theorem ctx_lose_outside (s : State) (home : DieId) (n code cls : Nat) (rec : FaultRec)
    (live : ¬((s.ctx n).st = .free ∨ (s.ctx n).st = .lost)) (out : rec.prog = false) : ∃ b,
    (s.lose home n code cls rec).ctx n = { s.ctx n with
      st := .lost, lossStatus := BitVec.ofNat 32 (code * 65536 + cls), lossRecord := rec, losing := some cls, posted := b } := by
  obtain ⟨t, lost, objs⟩ := objects_lose s home n code cls rec live
  have ctx := (ctx_of_objects lost n).trans (ctx_putCtx ..)
  obtain ⟨-, b, posted⟩ := postLost_outside t n (by rw [ctx]; exact out)
  refine ⟨b, (ctx_of_objects objs n).trans ?_⟩
  rw [out, if_neg Bool.false_ne_true, posted, ctx]

/-! ### INVAL -/

theorem allDies_one (one : s.build.dies = 1) : s.allDies = [die0] := by
  simp only [allDies, one]
  rfl

/-- In a package of one die the invalidation goes to that die (R296). -/
theorem invalStart_one (b : List Byte) (one : s.build.dies = 1) (home : q.die = die0) :
    s.invalStart q b = (s.updQueue q fun k => { k with wait := .inval [0] }).deliverMsg 0 0
      (.inval q.key (s.queuePart q) (fieldAt b 8 8) (fieldAt b 0x10 8)) := by
  have dies : s.allDies = [die0] := allDies_one one
  have part : (s.updQueue q fun k => { k with wait := .inval [0] }).queuePart q = s.queuePart q := by
    simp [queuePart, updQueue]
  have after : (s.updQueue q fun k => { k with wait := .inval [0] }).allDies = [die0] := dies
  simp only [invalStart, dies]
  rw [show (s.updQueue q fun k => { k with wait := .inval ([die0].map (·.val)) }) =
    s.updQueue q fun k => { k with wait := .inval [0] } from rfl, after]
  simp only [List.foldl_cons, List.foldl_nil, sendMsg, home, if_true, part]
  rfl

end State

/-- Settles O38: a command that may start has its context in a slot, so that its accesses read no segment block and lose no
context; each clause is then one change of the command's queue, beside a signal, a launch, a message or an access of its own. -/
theorem commandsThatWait : Obligations.CommandsThatWait := by
  unfold Obligations.CommandsThatWait
  refine ⟨?signal, ?wait, ?completes, ?waitsOn, ?time, ?launch, ?large, ?inval⟩
  case signal =>
    intro s q b a rest start guard ok
    have run := State.opRow_of_guard start guard fun t b => t.signalStart q b
    rw [State.signalStart_ok (by rw [State.startTimer_queuePart]; exact ok)] at run
    rw [State.startTimer_queue_ctx] at run
    refine ⟨_, congrArg Host.Outcome.next run, ?_, ?_, rfl, SMap.find?_put_same ..⟩
    · rw [State.queue_withSignal]
    · rw [State.queue_withSignal]
      exact (State.startTimer_queue_accepted ..).trans start.oldest
  case wait =>
    intro s t q b a rest start guard fresh waits
    obtain ⟨-, slot⟩ := State.resident_of_mayStart start
    have run := State.opRow_of_guard start guard fun t b => t.waitStart q b
    rw [State.waitStart_waits (State.startTimer_queue_cmd ..) fresh (by simpa using waits)] at run
    have same := State.objects_of_eq waits (State.objects_readVa (.inl slot))
    have queue : (t.queue q).wait = .cond := by
      rw [State.queue_of_objects same, State.queue_updQueue, State.queue_updQueue]
    refine ⟨_, congrArg Host.Outcome.next run, ?_, rfl, rfl, (State.mem_of_objects same).trans rfl⟩
    rw [State.cmdWait, State.queue_updQueue, if_neg (by rw [queue]; decide), queue]
  case completes =>
    intro s u q a rest bs answered holds
    have same := State.objects_answered answered
    have aside : u.aside = s.aside := State.aside_of_eq answered.data (State.aside_readVa ..)
    have queue : (u.busDone q.die (.command q.key)).queue q = s.queue q := State.queue_of_objects same q
    refine ⟨_, congrArg Host.Outcome.next ((State.waitAgain_answered answered).trans (if_pos holds)), ?_⟩
    exact State.cmdDone_completes (t := u.busDone q.die (.command q.key)) (State.qTbl_of_aside aside)
      (State.mem_of_objects same) (queue ▸ answered.oldest) answered.refs (queue ▸ answered.ring) 32
  case waitsOn =>
    intro s u q a rest bs answered fails
    have same := State.objects_answered answered
    refine ⟨congrArg Host.Outcome.next ?_, ?_, State.mem_of_objects same⟩
    · rw [State.waitAgain_answered answered, if_neg (by simp [fails])]
    · rw [State.queue_of_objects same]
      exact answered.waits
  case time =>
    intro s u q b a rest start guard fresh waits
    have run := State.opRow_of_guard start guard fun t b => t.timeRun q b
    have asked : ((s.startTimer q b).die q.die).bus.find? (fun x => decide (x.owner = .command q.key)) = none :=
      List.find?_eq_none.mpr (List.any_eq_false.mp fresh)
    refine congrArg Host.Outcome.next (run.trans ?_)
    simp only [State.timeRun, asked, Option.map_none, Option.getD_none]
    exact State.cmdWrite_wait _ (by simpa using waits)
  case launch =>
    intro s q b a rest start guard one fits
    have run := State.opRow_of_guard start guard fun t b => t.launchStart q b
    rw [State.launchStart_one (by simpa using start.oldest) one (by simpa using fits)] at run
    obtain ⟨off, held, found, queues, mem⟩ := State.saveTake_launch (State.launch_setLaunch
      ((s.startTimer q b).updQueue q fun k => { k with wait := .launch, timed := false }) q.key
      ((s.startTimer q b).oneDieLaunch q b a))
    obtain ⟨dies, asks⟩ := (OnlyDies.refl _).askSlot _
    have waits : ((s.startTimer q b).updQueue q fun k => { k with wait := .launch, timed := false }).queue q =
        { (s.startTimer q b).queue q with wait := .launch, timed := false } := State.queue_updQueue ..
    refine ⟨_, _, congrArg Host.Outcome.next (run.trans asks), ?_, found, by simp [State.oneDieLaunch], rfl, rfl, ?_, rfl, rfl,
      rfl, State.length_clusters_oneDieLaunch (s := s.startTimer q b) (q := q) b a one, mem⟩
    · exact (congrArg (fun m => (m.get {} q.key).wait) queues).trans (congrArg Queue.wait waits)
    · exact SMap.find?_put_same ..
  case large =>
    intro s q b a rest start guard large _
    obtain ⟨resident, -⟩ := State.resident_of_mayStart start
    have run := State.opRow_of_guard start guard fun t b => t.launchStart q b
    rw [State.launchStart_large (by simpa using large), State.startTimer_queue_ctx] at run
    obtain ⟨posted, ctx⟩ := State.ctx_lose_outside (s.startTimer q b) q.die (s.queue q).ctx 0x1201 1
      (.outside 0x1201 (State.savePart b)) (by simp [resident]) rfl
    refine ⟨_, congrArg Host.Outcome.next run, ?_⟩
    rw [ctx]
    exact ⟨rfl, rfl, rfl⟩
  case inval =>
    intro s q b a rest start guard one home
    have run := State.opRow_of_guard start guard fun t b => t.invalStart q b
    rw [State.invalStart_one b (State.startTimer_build s q b ▸ one) home, State.startTimer_queuePart] at run
    have waits : ((s.startTimer q b).updQueue q fun k => { k with wait := .inval [0] }).queue q =
        { (s.startTimer q b).queue q with wait := .inval [0] } := State.queue_updQueue ..
    exact ⟨_, s.msgNext, congrArg Host.Outcome.next run, congrArg Queue.wait waits, rfl, SMap.find?_put_same ..⟩

end Sys2Proof.Machine
end

section
/-!
PROOFS. The end of objects (R236, R242, R247, R250, R274).
-/
namespace Sys2Proof.Machine

/-- The first word of the request block with Q_DESTROY of queue 3 of die 0, and the request that it submits. -/
def destroyWord : W64 := BitVec.ofNat 64 (5 + 3 * 2 ^ 32)
def destroyReq : ObjReq := { op := 5, tag := 0, index := 3, arg0 := 0 }

/-- Queue 3 of die 0 is open and idle, and a HOT record of the die's fault queue lists an access of its acceptance. -/
def acceptHeldByHot : State :=
  ({ State.reset with queues := ⟨[(3, { st := .opened })]⟩, ctxs := ⟨[(0, { st := .ready })]⟩ } : State).setDie 0
    { State.reset.die 0 with
      stage := .ready, computeReset := false, fq := ⟨[(0, { hot := true, accs := [(.accept 3, 0, 0, 0)] })]⟩ }

theorem acceptHeldByHot_submits :
    Submits acceptHeldByHot 0x10 0xFF destroyWord 5 destroyReq (BitVec.allOnes 64) where
  role' := by decide
  open' := by decide
  strobe := rfl
  submit := by decide
  room := by decide
  req := by decide +kernel
  isOp := rfl
  plain := rfl
  idle := by decide
  alone := by decide

/-- The withdrawal of the acceptance's stalled accesses passes the HOT record over, so that the walk of the queue's ring does not
begin, and the queue stays DESTROYING (R274, R295). -/
theorem qDestroy_held_by_hot : ((acceptHeldByHot.objRow 5 0x10 0xFF destroyWord).queue ⟨0, 3⟩).st = .destroying := by
  decide +kernel

/-- Refutes O45: Q_DESTROY withdraws the stalled acceptance of its queue, but a withdrawal passes HOT records over, and no
hypothesis says that such a record lists no access. Where one lists an access of the queue's acceptance, the walk of R274 waits
for it, and the idle queue does not become FREE. The model posts HOT records without accesses, but the statement speaks of every
state. -/
theorem not_objectsAreDestroyed : ¬ Obligations.ObjectsAreDestroyed := by
  unfold Obligations.ObjectsAreDestroyed
  rintro ⟨-, -, idleQueue, -⟩
  obtain ⟨t, run, free, -⟩ := idleQueue acceptHeldByHot _ _ _ _ destroyReq ⟨0, 3⟩ acceptHeldByHot_submits (by decide)
    (by decide) rfl (by decide) (by decide) (by decide) (by decide) (by decide) (by decide) (by decide) (by decide)
    (by decide)
  injection run with run
  have held := qDestroy_held_by_hot
  rw [run, free] at held
  contradiction

end Sys2Proof.Machine
end

section
/-!
PROOFS. The commands that complete at once or with the answer to their access (R256 to R262).
-/
namespace Sys2Proof.Machine

/-- A state that differs from another in device memory only. -/
def OnlyMem (s t : State) : Prop := ∃ m, t = { s with mem := m }

namespace OnlyMem

variable {s t : State}

theorem refl (s : State) : OnlyMem s s := ⟨s.mem, rfl⟩

theorem writeByte (h : OnlyMem s t) (pa : Nat) (b : Byte) : OnlyMem s (t.writeByte pa b) := by
  obtain ⟨m, rfl⟩ := h
  exact ⟨_, rfl⟩

theorem writeBytes (h : OnlyMem s t) (pa : Nat) (bs : List Byte) : OnlyMem s (t.writeBytes pa bs) := by
  induction bs generalizing t pa with
  | nil => exact h
  | cons b bs ih => exact ih (h.writeByte pa b) (pa + 1)

end OnlyMem

namespace State

variable {s t : State} {q : QueueId}

/-! ### The end of a command changes its queue, dies and memory -/

/-- A queue and its table entry change nothing else of the state. -/
theorem putQueue_onlyMem (s : State) (q : QueueId) (k : Queue) : OnlyMem (s.setQueue q k) (s.putQueue q k) :=
  ((OnlyMem.refl _).writeBytes _ _).writeBytes _ _

section
variable {a : Accepted} {rest : List Accepted} (oldest : (s.queue q).accepted = a :: rest) (refs : a.refs = [])
  (ring : (s.queue q).frames = []) (len : Nat)
include oldest refs ring

/-- With a command of the ring that holds no references, only its queue, dies and memory change (R240, R259, R285). -/
theorem cmdDone_only : ∃ d m,
    s.cmdDone q len = { s.setQueue q ((s.queue q).completed a rest) with dies := d, mem := m } := by
  obtain ⟨d, done⟩ := cmdDone_onlyDies oldest refs ring len
  obtain ⟨m, put⟩ := putQueue_onlyMem s q ((s.queue q).completed a rest)
  exact ⟨d, m, by rw [done, put]⟩

theorem queue_cmdDone : (s.cmdDone q len).queue q = (s.queue q).completed a rest := by
  obtain ⟨d, m, done⟩ := cmdDone_only oldest refs ring len
  rw [done]
  exact queue_setQueue ..

end

/-! ### The start of a command -/

section
variable (s q) (b : List Byte)

@[simp] theorem startTimer_queue_frames : ((s.startTimer q b).queue q).frames = (s.queue q).frames := by
  obtain ⟨n, at', on, queue⟩ := startTimer_queue s q b
  rw [queue]

@[simp] theorem startTimer_queue_cf : ((s.startTimer q b).queue q).cf = (s.queue q).cf := by
  obtain ⟨n, at', on, queue⟩ := startTimer_queue s q b
  rw [queue]

@[simp] theorem startTimer_queue_doneptr : ((s.startTimer q b).queue q).doneptr = (s.queue q).doneptr := by
  obtain ⟨n, at', on, queue⟩ := startTimer_queue s q b
  rw [queue]

end

/-- Each ring command is the row of its opcode (Table 13-2). -/
theorem exec_ringCommand {x : (QueueId → Instr) × Nat} (listed : x ∈ ringCommands) :
    ∃ run : QueueId → State → List Byte → State, ∀ s q, exec (x.1 q) s = .next (s.opRow q x.2 (run q)) := by
  simp only [ringCommands, List.mem_cons, List.not_mem_nil, or_false] at listed
  rcases listed with rfl | rfl | rfl | rfl | rfl | rfl | rfl | rfl | rfl | rfl
  all_goals exact ⟨_, fun _ _ => rfl⟩

/-- A command whose guard is false is complete at once (R258). -/
theorem opRow_of_not_guard {op : Nat} {b : List Byte} {a : Accepted} {rest : List Accepted}
    (start : MayStart s q op b a rest) (guard : (s.queue q).guardOk b = false) (run : State → List Byte → State) :
    s.opRow q op run = s.cmdDone q (cmdLen b) := by
  simp [opRow, start.next, guard]

/-- A flag takes its value whatever else a queue holds (R258). -/
theorem setFlag_cf_congr {k k' : Queue} (same : k.cf = k'.cf) (n : Nat) (v : Bool) :
    (k.setFlag n v).cf = (k'.setFlag n v).cf := by
  unfold Queue.setFlag
  split
  · exact same
  · simp only [same]

theorem setFlag_ring (k : Queue) (n : Nat) (v : Bool) :
    (k.setFlag n v).accepted = k.accepted ∧ (k.setFlag n v).frames = k.frames := by
  unfold Queue.setFlag
  split
  · exact ⟨rfl, rfl⟩
  · exact ⟨rfl, rfl⟩

/-- The flag of a TEST has taken the comparison of what its read has answered (R261). -/
def tested (s : State) (q : QueueId) (b bs : List Byte) : State :=
  (s.busDone q.die (.command q.key)).updQueue q fun k => k.setFlag (cmdCfd b) (condHolds b (ofBytesLE bs))

theorem queue_tested (s : State) (q : QueueId) (b bs : List Byte) :
    ((s.tested q b bs).queue q).accepted = (s.queue q).accepted ∧ ((s.tested q b bs).queue q).frames = (s.queue q).frames ∧
      ((s.tested q b bs).queue q).cf = ((s.queue q).setFlag (cmdCfd b) (condHolds b (ofBytesLE bs))).cf := by
  obtain ⟨accepted, frames⟩ := setFlag_ring (s.queue q) (cmdCfd b) (condHolds b (ofBytesLE bs))
  rw [tested, queue_updQueue]
  exact ⟨accepted, frames, rfl⟩

theorem testRun_read {b bs : List Byte} (read : s.readVa q.die (.command q.key) (s.queuePart q) (s.queue q).ctx
    (fieldAt b 8 8) (cmdWide b) .read true = (t, .ok bs)) : s.testRun q b = (t.tested q b bs).cmdDone q 32 :=
  cmdRead_ok _ read

/-! ### Writes of the command processor -/

section
variable {d : DieId} {o : Owner} {p ctx va : Nat} {bs : List Byte} {ahead : Bool}

/-- The bytes of a write travel in requests: the unit that asks for it changes no object (R286 to R289, R455 to R458). -/
theorem objects_writeVa (slot : (s.slotOf d ctx).isSome = true) :
    (s.writeVa d o p ctx va bs ahead).1.objects = s.objects := by
  have pieces := @objects_xlatePieces s d o p ctx .write (pagePieces (bs.length / 4096 + 2) va bs.length) (.inl slot)
  unfold writeVa
  split
  next t x h => exact objects_of_eq h pieces
  next t l h =>
    refine (objects_foldl_fst (fun p e => ?_) l _).trans (objects_of_eq h pieces)
    split
    · split
      next u x hw => exact objects_of_eq hw (objects_busWrite ..)
      next u x hw => exact objects_of_eq hw (objects_busWrite ..)
      next u hw => exact objects_of_eq hw (objects_busWrite ..)
    · rfl

theorem aside_writeVa : (s.writeVa d o p ctx va bs ahead).1.aside = s.aside := by
  have pieces := aside_xlatePieces s d o p ctx .write (pagePieces (bs.length / 4096 + 2) va bs.length)
  unfold writeVa
  split
  next t x h => exact aside_of_eq h pieces
  next t l h =>
    refine (aside_foldl_fst (fun p e => ?_) l _).trans (aside_of_eq h pieces)
    split
    · split
      next u x hw => exact aside_of_eq hw (aside_busWrite ..)
      next u x hw => exact aside_of_eq hw (aside_busWrite ..)
      next u hw => exact aside_of_eq hw (aside_busWrite ..)
    · rfl

end

theorem cmdWrite_ok {va : Nat} {bs x : List Byte} (go : State → State)
    (written : s.writeVa q.die (.command q.key) (s.queuePart q) (s.queue q).ctx va bs true = (t, .ok x)) :
    s.cmdWrite q va bs go = go (t.busDone q.die (.command q.key)) := by
  simp only [cmdWrite, written]

/-- WRITE and TIME complete when their write has been answered (R261). -/
theorem cmdWrite_completes {op : Nat} {b : List Byte} {a : Accepted} {rest : List Accepted} {va : Nat} {bs : List Byte}
    (start : MayStart s q op b a rest)
    (written : (s.startTimer q b).writeVa q.die (.command q.key) (s.queuePart q) (s.queue q).ctx va bs true = (t, .ok [])) :
    let u := (s.startTimer q b).cmdWrite q va bs fun t => t.cmdDone q 32
    Completed s u q a rest ∧ SameOutsideEntry t u q := by
  obtain ⟨-, slot⟩ := resident_of_mayStart start
  have same : t.objects = (s.startTimer q b).objects := objects_of_eq written (objects_writeVa slot)
  have tables : t.qTbl = s.qTbl := (qTbl_of_aside (s := s.startTimer q b) (aside_of_eq written aside_writeVa)).trans rfl
  have queue : (t.busDone q.die (.command q.key)).queue q = (s.startTimer q b).queue q := queue_of_objects same q
  have oldest : ((t.busDone q.die (.command q.key)).queue q).accepted = a :: rest := by
    rw [queue, startTimer_queue_accepted, start.oldest]
  have ring : ((t.busDone q.die (.command q.key)).queue q).frames = [] := by
    rw [queue, startTimer_queue_frames, start.ring]
  dsimp only
  rw [cmdWrite_ok _ (by simpa using written)]
  have completes (v : State) (tables : t.qTbl = v.qTbl) (mem : t.mem = v.mem) :=
    cmdDone_completes (s := v) (t := t.busDone q.die (.command q.key)) tables mem oldest start.refs ring 32
  exact ⟨(completes s tables ((mem_of_objects same).trans rfl)).1, (completes t rfl rfl).2⟩

/-- TIME writes the count that its write under way has taken (R261). -/
theorem timeRun_under {c : List Byte} {x : BusAcc}
    (under : ((s.die q.die).bus.find? fun y => decide (y.owner = .command q.key)) = some x) :
    s.timeRun q c = s.cmdWrite q (fieldAt c 8 8) x.data fun t => t.cmdDone q 32 := by
  simp only [timeRun, under, Option.map_some, Option.getD_some]

end State

/-- Settles O37: each command is one change of its queue and then its end, which is the same for all of them: the queue's record
with the command taken off its ring, and beside it only dies and the queue's table entry in memory. -/
theorem queueCommandsComplete : Obligations.QueueCommandsComplete := by
  unfold Obligations.QueueCommandsComplete
  refine ⟨?guardFalse, ?nop, ?test, ?write, ?time, ?call, ?breaks⟩
  case guardFalse =>
    intro x listed s q b a rest start guard
    obtain ⟨run, row⟩ := State.exec_ringCommand listed
    have completes := State.cmdDone_completes (s := s) (t := s) rfl rfl start.oldest start.refs start.ring (cmdLen b)
    obtain ⟨d, m, only⟩ := State.cmdDone_only start.oldest start.refs start.ring (cmdLen b)
    refine ⟨s.cmdDone q (cmdLen b), ?_, completes.1, ?_, completes.2, ?_, ?_⟩
    · rw [row, State.opRow_of_not_guard start guard]
    · rw [State.queue_cmdDone start.oldest start.refs start.ring]
      rfl
    · rw [only]
      rfl
    · rw [only]
      rfl
  case nop =>
    intro s q b a rest start guard
    have oldest : ((s.startTimer q b).queue q).accepted = a :: rest := by simpa using start.oldest
    have ring : ((s.startTimer q b).queue q).frames = [] := by simpa using start.ring
    have completes := State.cmdDone_completes (s := s) (t := s.startTimer q b) rfl rfl oldest start.refs ring (cmdLen b)
    refine ⟨_, congrArg Host.Outcome.next (State.opRow_of_guard start guard _), completes.1, ?_, completes.2⟩
    rw [State.queue_cmdDone oldest start.refs ring]
    exact State.startTimer_queue_cf ..
  case test =>
    intro s u q b a rest bs start guard read
    obtain ⟨-, slot⟩ := State.resident_of_mayStart start
    have same : u.objects = (s.startTimer q b).objects := State.objects_of_eq read (State.objects_readVa (.inl slot))
    have tables : u.qTbl = s.qTbl :=
      (State.qTbl_of_aside (s := s.startTimer q b) (State.aside_of_eq read (State.aside_readVa ..))).trans rfl
    have run := State.opRow_of_guard start guard fun t b => t.testRun q b
    rw [State.testRun_read (t := u) (bs := bs) (by simpa using read)] at run
    have queue := State.queue_of_objects same q
    obtain ⟨accepted, frames, cf⟩ := State.queue_tested u q b bs
    rw [queue, State.startTimer_queue_accepted, start.oldest] at accepted
    rw [queue, State.startTimer_queue_frames, start.ring] at frames
    have completes := State.cmdDone_completes (s := s) (t := u.tested q b bs) tables ((State.mem_of_objects same).trans rfl)
      accepted start.refs frames 32
    refine ⟨_, congrArg Host.Outcome.next run, completes.1, ?_, completes.2⟩
    rw [State.queue_cmdDone accepted start.refs frames]
    exact cf.trans (State.setFlag_cf_congr (by rw [queue, State.startTimer_queue_cf]) _ _)
  case write =>
    intro s u q b a rest start guard written
    exact ⟨_, congrArg Host.Outcome.next (State.opRow_of_guard start guard _), State.cmdWrite_completes start written⟩
  case time =>
    intro s u q b a rest x start guard under written
    have run := State.opRow_of_guard start guard fun t b => t.timeRun q b
    rw [State.timeRun_under (by simpa using under)] at run
    exact ⟨_, congrArg Host.Outcome.next run, State.cmdWrite_completes start written⟩
  case call =>
    intro s q b a rest start guard
    have run := State.opRow_of_guard start guard fun t b => t.callRun q b
    have called : ((s.startTimer q b).callRun q b).queue q = _ := State.queue_updQueue ..
    refine ⟨_, congrArg Host.Outcome.next run, ?_, ?_, ?_, rfl⟩
    · rw [called]
      simp [start.oldest, start.ring, callBuf]
    · rw [called]
      simpa using start.oldest
    · rw [called]
      exact State.startTimer_queue_doneptr ..
  case breaks =>
    intro s q b f a rest next guard frames oldest refs
    have run : s.opRow q 8 (fun t b => t.breakRun q b) = (s.startTimer q b).breakRun q b := by
      simp [State.opRow, next, guard]
    have ended := State.queue_updQueue (s.startTimer q b) q fun k => { k with frames := k.frames.drop 1 }
    have completes := State.cmdDone_completes (s := s)
      (t := (s.startTimer q b).updQueue q fun k => { k with frames := k.frames.drop 1 }) rfl rfl
      ((congrArg Queue.accepted ended).trans (by simpa using oldest)) refs
      ((congrArg Queue.frames ended).trans (by simp [frames])) 32
    exact ⟨_, congrArg Host.Outcome.next run, completes⟩

end Sys2Proof.Machine
end

section
/-!
PROOFS. Doorbells and the acceptance of commands (R14, R158, R255, R256, R260).
-/
namespace Sys2Proof.Machine

/-- A queue whose fill mark a doorbell has moved at a tick (R255, R447). -/
def Queue.rung (k : Queue) (wr : W64) (now : Nat) : Queue :=
  { k with fill := wr, bells := (k.bells.filter fun b => decide (k.doneptr < b.1)) ++ [(wr, now)] }

/-- A queue that has accepted a command of its ring (R240, R260). -/
def Queue.appended (k : Queue) (a : Accepted) : Queue :=
  { k with accepted := k.accepted ++ [a], accptr := k.accptr + BitVec.ofNat 64 a.bytes.length }

namespace State

variable {s t : State} {q : QueueId} {wr : W64}

/-! ### Doorbells -/

/-- A doorbell that moves the fill mark forward by whole commands within the ring sets it; beside the queue, the home die may note
that the context asks for a slot (R255, R268). -/
theorem doorbellAt_forward (opened : (s.queue q).st = .opened) (forward : (s.queue q).fill < wr)
    (whole : wr.toNat % 32 = 0) (inside : wr.toNat ≤ (s.queue q).doneptr.toNat + 2 ^ (s.queue q).ringLog2)
    (live : (s.ctx (s.queue q).ctx).st ≠ .lost) :
    OnlyDies (s.setQueue q ((s.queue q).rung wr (s.die q.die).ticks)) (s.doorbellAt q wr) := by
  have moves : ¬ wr ≤ (s.queue q).fill := BitVec.not_le.mpr forward
  have fits : ¬ (s.queue q).doneptr.toNat + 2 ^ (s.queue q).ringLog2 < wr.toNat := Nat.not_lt.mpr inside
  unfold doorbellAt
  dsimp only
  rw [if_neg (by simp [opened, moves]), if_neg (by simp [whole, fits]), setQueue_ctx_of, if_neg live]
  exact (OnlyDies.refl _).askSlot _

/-- One that does not move it forward is counted and ignored (R255). -/
theorem doorbellAt_ignored (back : wr ≤ (s.queue q).fill) :
    s.doorbellAt q wr = s.setDie q.die { s.die q.die with dbIgnored := satInc (s.die q.die).dbIgnored } := by
  simp only [doorbellAt, back, or_true, if_true]

/-- The driver's whole-word write to the doorbell of a queue of die 0 reaches that die at once (R14, R489). -/
theorem doorbell_driver {role : Byte} (driver : roleOf role = some .driver) (opened : s.crownOpen = true)
    (built : s.hasDie q.die = true) (home : q.die = die0) : s.doorbell role 0xFF q wr = (s.doorbellAt q wr).crownOk := by
  simp [doorbell, driver, opened, home ▸ built, home]

/-- A write that does not cover the word gets an error response (R489, R493). -/
theorem doorbell_narrow {role strb : Byte} (narrow : strb ≠ 0xFF) (released : (s.die die0).stage ≠ .held) :
    s.doorbell role strb q wr = { s with crown := ⟨true, 0⟩ } := by
  unfold doorbell
  dsimp only
  rw [if_pos (.inl narrow), crownErr, portErr, if_neg released]

theorem doorbellForward_msg {m d r : Nat} (msg : s.msgAt m = some (d, r, .doorbell q.key wr)) :
    s.doorbellForward m = (s.takeMsg m).doorbellAt q wr := by
  simp only [doorbellForward, msg, queueOf_key]

/-! ### The reads of an acceptance change no queue -/

section
variable (s) (d : DieId) (n p ctx : Nat)

@[simp] theorem aside_cpRead (va len : Nat) : (s.cpRead d n p ctx va len).1.aside = s.aside := by
  have read := aside_readVa s d (.accept n) p ctx va len .read true
  unfold cpRead
  split
  next t _ h => exact aside_of_eq h read
  next t _ _ _ h => exact aside_of_eq h read
  next t _ h => exact aside_of_eq h read
  next t h => exact aside_of_eq h read

@[simp] theorem aside_readTree (pos : Nat) (safe : Bool) (levels : Nat) (cs : List (List Byte)) :
    (s.readTree d n p ctx pos safe levels cs).1.aside = s.aside := by
  induction levels generalizing s cs with
  | zero => rfl
  | succ levels ih =>
    refine aside_foldl_fst (fun acc b => ?_) _ _
    split
    · rfl
    split
    next t _ h => exact aside_of_eq h (aside_cpRead ..)
    next t bs h =>
      have read : t.aside = acc.1.aside := aside_of_eq h (aside_cpRead ..)
      dsimp only
      split
      · exact read
      split
      next u _ below => exact (aside_of_eq below (ih ..)).trans read
      next u _ below => exact (aside_of_eq below (ih ..)).trans read

@[simp] theorem aside_readSdts (cs : List (List Byte)) : (s.readSdts d n p ctx cs).1.aside = s.aside := by
  induction cs generalizing s with
  | nil => rfl
  | cons b bs ih =>
    unfold readSdts
    split
    · exact ih s
    split
    next t _ h => exact aside_of_eq h (aside_cpRead ..)
    next t x h =>
      have read : t.aside = s.aside := aside_of_eq h (aside_cpRead ..)
      split
      · exact read
      split
      next u _ below => exact (aside_of_eq below (ih t)).trans read
      next u _ below => exact (aside_of_eq below (ih t)).trans read

end

@[simp] theorem aside_acceptRead (s : State) (q : QueueId) : (s.acceptRead q).1.aside = s.aside := by
  unfold acceptRead
  dsimp only
  split
  next t _ h => exact aside_of_eq h (aside_cpRead ..)
  next t head h =>
    have headRead : t.aside = s.aside := aside_of_eq h (aside_cpRead ..)
    split
    · exact headRead
    split
    · exact headRead
    split
    next u _ h => exact (aside_of_eq h (aside_cpRead ..)).trans headRead
    next u b h =>
      have read : u.aside = s.aside := (aside_of_eq h (aside_cpRead ..)).trans headRead
      split
      · exact read
      split
      next v _ h => exact (aside_of_eq h (aside_readTree ..)).trans read
      next v bufs h =>
        have treeRead : v.aside = s.aside := (aside_of_eq h (aside_readTree ..)).trans read
        split
        · exact treeRead
        split
        next w _ h => exact (aside_of_eq h (aside_readSdts ..)).trans treeRead
        next w _ h => exact (aside_of_eq h (aside_readSdts ..)).trans treeRead

/-! ### The end of an acceptance -/

/-- References are counted in the memory objects and their table entries (R240). -/
@[simp] theorem queues_addRefs (s : State) (d : DieId) (l : List Nat) : (s.addRefs d l).queues = s.queues := by
  fun_induction addRefs s d l with
  | case1 => rfl
  | case2 s h hs m ih => exact ih.trans (queues_of_aside (s := s.setMo h _) (aside_putMo ..))

section
variable {a : Accepted} (may : s.mayAccept q = true)
include may

/-- The command is appended and passed when all its reads are answered and no window needs a walk (R158, R260). -/
theorem accept_appends (read : s.acceptRead q = (t, .ok (some a)))
    (need : t.pinNeed q.die (s.queuePart q) q.key (acceptWindows a) = none) : ∃ u : State, u.queues = t.queues ∧
      s.accept q = u.putQueue q ((u.queue q).appended a) := by
  refine ⟨((t.busDone q.die (.accept q.key)).addRefs q.die a.refs).pinAll q.die (s.queuePart q) (q.key, a.pos)
    (acceptWindows a), ?_, ?_⟩
  · obtain ⟨d, pinned⟩ := (OnlyDies.refl ((t.busDone q.die (.accept q.key)).addRefs q.die a.refs)).pinAll (d := q.die)
      (s.queuePart q) (q.key, a.pos) (acceptWindows a)
    rw [pinned]
    exact queues_addRefs ..
  · unfold acceptWindows at need ⊢
    simp only [accept, may, read, need, Bool.not_true, Bool.false_eq_true, if_false]
    rfl

theorem accept_walks {va : Nat} (read : s.acceptRead q = (t, .ok (some a)))
    (need : t.pinNeed q.die (s.queuePart q) q.key (acceptWindows a) = some va) :
    s.accept q = t.startWalk q.die (.pin q.key) (s.queuePart q) (s.queue q).ctx va .read := by
  unfold acceptWindows at need
  simp only [accept, may, read, need, Bool.not_true, Bool.false_eq_true, if_false]

theorem accept_waits (read : s.acceptRead q = (t, .error .wait)) : s.accept q = t := by
  simp only [accept, may, read, Bool.not_true, Bool.false_eq_true, if_false]

end

end State

/-- Settles O39: a doorbell is one change of the queue or of a count of die 0; an acceptance changes no queue before its reads are
answered and its walks are over, and is then one change of the queue. -/
theorem doorbellsAndAcceptance : Obligations.DoorbellsAndAcceptance := by
  unfold Obligations.DoorbellsAndAcceptance
  refine ⟨?rings, ?forwarded, ?ignored, ?partialWrite, ?appends, ?walks, ?waits⟩
  case rings =>
    intro s role q wr driver opened built home st forward whole inside live
    have rung := State.doorbellAt_forward st forward whole inside live
    have queue := (rung.queue q).trans (State.queue_setQueue ..)
    refine ⟨_, congrArg Host.Outcome.next (State.doorbell_driver driver opened built home), ?_, rfl, ?_, ?_⟩
    · exact congrArg Queue.fill queue
    · exact (congrArg Queue.accepted queue).trans rfl
    · exact (State.mem_of_objects rung.objects).trans rfl
  case forwarded =>
    intro s m d r q wr msg st forward whole inside live
    have rung := State.doorbellAt_forward (s := s.takeMsg m) st forward whole inside live
    refine ⟨_, congrArg Host.Outcome.next (State.doorbellForward_msg msg), ?_, ?_,
      (State.mem_of_objects rung.objects).trans rfl⟩
    · exact (congrArg Queue.fill (rung.queue q)).trans (congrArg Queue.fill (State.queue_setQueue ..))
    · exact (rung.msgAt m).trans (SMap.find?_erase_same ..)
  case ignored =>
    intro s role q wr driver opened built home _ back
    have row := State.doorbell_driver (wr := wr) driver opened built home
    rw [State.doorbellAt_ignored back, home] at row
    exact ⟨_, congrArg Host.Outcome.next row, rfl, congrArg Die.dbIgnored (State.die_setDie ..), rfl, rfl⟩
  case partialWrite =>
    intro s role strb q wr released covers
    exact ⟨_, congrArg Host.Outcome.next (State.doorbell_narrow covers released), rfl, rfl⟩
  case appends =>
    intro s t q a may read need
    obtain ⟨u, queues, row⟩ := State.accept_appends may read need
    have same : u.queues = s.queues :=
      queues.trans (State.queues_of_aside (State.aside_of_eq read (State.aside_acceptRead ..)))
    have queue : u.queue q = s.queue q := congrArg (fun l => l.get {} q.key) same
    rw [queue] at row
    have appended := State.queue_putQueue u q ((s.queue q).appended a)
    refine ⟨_, congrArg Host.Outcome.next row, ?_⟩
    rw [appended]
    exact ⟨rfl, rfl, rfl⟩
  case walks =>
    intro s t q a va may read need
    exact congrArg Host.Outcome.next (State.accept_walks may read need)
  case waits =>
    intro s t q may read
    exact congrArg Host.Outcome.next (State.accept_waits may read)

end Sys2Proof.Machine
end

section
/-!
PROOFS. Resident slots, the placement and the start of launches, slices and the end of a launch (R19, R268 to R271, R348).
-/
namespace Sys2Proof.Machine

/-- The record of a die on which a context has taken a free slot (R268). -/
def Die.slotTaken (k : Die) (n : Nat) : Die :=
  { k with slots := k.slots ++ [{ ctx := n, lastRun := k.lastRan.get 0 n }], slotWait := k.slotWait.filter (· ≠ n) }

/-- A launch whose part on a logical die has been placed at a tick, and has started (R271, R347). -/
def Launch.startedOn (l : Launch) (i now : Nat) : Launch :=
  { l with parts := l.parts.put i .started, placedAt := l.placedAt.put i now }

namespace State

variable {s t : State} {d : DieId}

/-- A context and its table entry change nothing else of the state. -/
theorem putCtx_onlyMem (s : State) (n : Nat) (c : Ctx) : OnlyMem (s.setCtx n c) (s.putCtx n c) :=
  (((OnlyMem.refl _).writeBytes _ _).writeBytes _ _).writeBytes _ _

theorem die_putCtx (s : State) (n : Nat) (c : Ctx) (d : DieId) : (s.putCtx n c).die d = s.die d := by
  obtain ⟨m, put⟩ := putCtx_onlyMem s n c
  rw [put]
  rfl

/-! ### Resident slots -/

/-- A context of a partition without Kindling segments whose turn it is takes a free slot (R268, R299). -/
theorem slotTake_free {n : Nat} (runs : s.cpRuns d = true) (turn : s.slotTurn d = some n) (ready : (s.ctx n).st = .ready)
    (room : (s.die d).slots.length < 48) (ranges : rootMode ((s.die d).roots.get 0 (s.ctx n).partition) ≠ 2) :
    s.slotTake d n = (s.setDie d ((s.die d).slotTaken n)).putCtx n { s.ctx n with st := .resident } := by
  have segs : s.segsRead d n 0 = (s, true) := by rw [segsRead, if_pos ranges]
  have taken : ((s.setDie d ((s.die d).slotTaken n)).putCtx n { s.ctx n with st := .resident }).loadSegs d n 0 =
      (s.setDie d ((s.die d).slotTaken n)).putCtx n { s.ctx n with st := .resident } := by
    unfold loadSegs
    dsimp only
    rw [die_putCtx, die_setDie, ctx_putCtx, if_pos (.inl ranges)]
  unfold slotTake
  dsimp only
  rw [if_neg (by simp [runs, turn, ready]), segs]
  dsimp only
  rw [if_pos room]
  exact taken

/-! ### The release of a launch's cores gives a monitor its sample -/

theorem hmTake_only (s : State) (d : DieId) (i : Nat) (v : W32) :
    ∃ m n, s.hmTake d i v = { s with monitors := m, freeNext := n } := by
  simp only [hmTake]
  split_ifs <;> exact ⟨_, _, rfl⟩

theorem hmEvent_only (s : State) (d : DieId) (src : Nat) (sel : Nat → Bool) (v : W32) :
    ∃ m n, s.hmEvent d src sel v = { s with monitors := m, freeNext := n } := by
  refine List.foldlRecOn _ _ (motive := fun t : State => ∃ m n, t = { s with monitors := m, freeNext := n })
    ⟨_, _, rfl⟩ fun t only i _ => ?_
  obtain ⟨m, n, rfl⟩ := only
  dsimp only
  split
  · obtain ⟨m', n', took⟩ := hmTake_only { s with monitors := m, freeNext := n } d i v
    exact ⟨m', n', took⟩
  · exact ⟨m, n, rfl⟩

/-- The launch notes its sample (R447). -/
theorem startSample_units {q : Nat} {l : Launch} (found : s.launches.find? q = some l) :
    (∃ b, (s.startSample q).launches.find? q = some { l with sampled := b }) ∧ (s.startSample q).cores = s.cores ∧
      (s.startSample q).clusters = s.clusters ∧ (s.startSample q).build = s.build ∧ (s.startSample q).mem = s.mem := by
  simp only [startSample, found]
  split
  · split
    · exact ⟨⟨l.sampled, found⟩, rfl, rfl, rfl, rfl⟩
    · obtain ⟨m, n, event⟩ := hmEvent_only (s.setLaunch q { l with sampled := true }) (queueOf q).die 1 _ _
      rw [event]
      exact ⟨⟨true, launch_setLaunch ..⟩, rfl, rfl, rfl, rfl⟩
  · exact ⟨⟨l.sampled, found⟩, rfl, rfl, rfl, rfl⟩

/-! ### Placement -/

section
variable (s) (q : Nat) (l : Launch) (x : LogCore) (y : LogCluster) (c : CoreId) (k : ClusterId)

/-- A core given to a logical core works for it, with its image (R93, R269). -/
theorem core_giveCore (run : CoreRun) : ∃ v : Core, (s.giveCore q l x run c).core c = v ∧ v.part = some q ∧ v.run = run ∧
    v.lcore = x.lcore ∧ v.image = BitVec.ofNat 64 (lcImage l.cmd) :=
  ⟨_, core_setCore .., rfl, rfl, rfl, rfl⟩

theorem giveCore_only (run : CoreRun) : ∃ dies cores, s.giveCore q l x run c = { s with dies := dies, cores := cores } := by
  simp only [giveCore, emptyBufs]
  split
  · exact ⟨_, _, rfl⟩
  · exact ⟨_, _, rfl⟩

/-- A cluster given to a logical cluster is its own, with the static part of its map store (R143, R177). -/
theorem cluster_giveCluster : ∃ v : Cluster, (s.giveCluster q l y k).cluster k = v ∧
    v.occupant = some (clusterKey q y.ldie y.lcl y.runB) ∧ v.msStatic = lcStatic l.cmd :=
  ⟨_, cluster_setCluster .., rfl, rfl⟩

theorem giveCluster_only : ∃ clusters n, s.giveCluster q l y k = { s with clusters := clusters, freeNext := n } := by
  simp only [giveCluster]
  split
  · exact ⟨_, _, rfl⟩
  · exact ⟨_, _, rfl⟩

end

/-- A part without a launch count starts where it is placed; the rest of the placement is kept by its die and its queue
(R266, R269, R270, R352). -/
theorem tryPlace_now {q i : Nat} {l l' : Launch} (found : s.launches.find? q = some l) (part : l.ldieOf d = some i)
    (now : l.count = none)
    (placed : s.placeClusters q l d .header (l.clusters.filter fun x => decide (x.ldie = i)) = some (t, l')) :
    ∃ (u : State) (l'' : Launch), s.tryPlace q d = some u ∧ u.cores = t.cores ∧ u.clusters = t.clusters ∧ u.mem = t.mem ∧
      u.launches.find? q = some l'' ∧ l''.parts.find? i = some .started ∧ l''.fault = l'.fault := by
  have row : ∃ die die' queue, s.tryPlace q d = some (((((t.setLaunch q (l'.startedOn i (t.die d).ticks)).setDie d
      die).startSample q).setDie d die').setQueue (queueOf q) queue) := by
    simp only [tryPlace, found, part, now, Option.isNone_none, Bool.true_or, if_true, placed, served, updQueue]
    exact ⟨_, _, _, rfl⟩
  obtain ⟨die, die', queue, row⟩ := row
  have launch : ((t.setLaunch q (l'.startedOn i (t.die d).ticks)).setDie d die).launches.find? q =
      some (l'.startedOn i (t.die d).ticks) := launch_setLaunch ..
  obtain ⟨⟨b, sampled⟩, cores, clusters, -, mem⟩ := startSample_units launch
  exact ⟨_, _, row, cores, clusters, mem, sampled, SMap.find?_put_same .., rfl⟩

section
variable {q : QueueId} {l : Launch} {x : LogCore} {y : LogCluster} {k : ClusterId} {c : CoreId} {cs : List CoreId} {i : Nat}
  (alone : l.cores = [x]) (sameCluster : x.lcl = y.lcl) (coreA : x.runB = false) (clusterA : y.runB = false)
  (best : s.bestCluster d l.partition (lcCores l.cmd) = some k) (free : s.freeCores l.partition k = c :: cs)
include alone sameCluster coreA clusterA best free

/-- The one logical core of a launch takes the best cluster's first free core (R269). -/
theorem placeClusters_single (n : Nat) (run : CoreRun) : ∃ l' : Launch, s.placeClusters n l d run [y] =
    some ((s.giveCluster n l y k).giveCore n l x run c, l') ∧ l'.fault = l.fault := by
  simp only [placeClusters, best, free, alone, sameCluster, coreA, clusterA, List.filter_cons, List.filter_nil, decide_true,
    beq_self_eq_true, Bool.and_self, if_true, Bool.false_eq_true, if_false, List.zip_cons_cons, List.zip_nil_left,
    List.foldl_cons, List.foldl_nil]
  exact ⟨_, rfl, rfl⟩

variable (found : s.launches.find? q.key = some l) (clusters : l.clusters = [y]) (here : y.ldie = i)
  (part : l.ldieOf d = some i) (now : l.count = none)
include found clusters here part now

/-- Its part then starts, and beside the core and the cluster that it takes, no core, no cluster and no byte of memory changes
(R269, R347). -/
theorem tryPlace_single : ∃ (t : State) (l' : Launch), s.tryPlace q.key d = some t ∧
    t.cores = ((s.giveCluster q.key l y k).giveCore q.key l x .header c).cores ∧
    t.clusters = ((s.giveCluster q.key l y k).giveCore q.key l x .header c).clusters ∧
    t.launches.find? q.key = some l' ∧ l'.parts.find? i = some .started ∧ l'.fault = l.fault ∧ t.mem = s.mem := by
  obtain ⟨l₁, placed, fault⟩ := placeClusters_single alone sameCluster coreA clusterA best free q.key .header
  have mine : (l.clusters.filter fun z => decide (z.ldie = i)) = [y] := by simp [clusters, here]
  rw [← mine] at placed
  obtain ⟨t, l', row, cores, clusters, mem, launch, started, same⟩ := tryPlace_now found part now placed
  refine ⟨t, l', row, cores, clusters, launch, started, same.trans fault, mem.trans ?_⟩
  obtain ⟨dies, cores, gave⟩ := giveCore_only (s.giveCluster q.key l y k) q.key l x c .header
  obtain ⟨clusters, n, took⟩ := giveCluster_only s q.key l y k
  rw [gave, took]

end

/-- The launch at its turn whose part can be placed is placed (R269). -/
theorem placeLaunch_placed {q i : Nat} {l : Launch} {high : Bool} (found : s.launches.find? q = some l)
    (held : l.saveHeld = true) (turn : s.turn d = some (q, high)) (opened : s.schedOpen d = true)
    (slot : (s.slotOf d l.ctx).isSome = true) (part : l.ldieOf d = some i) (pending : l.parts.find? i = some .pending)
    (placed : s.tryPlace q d = some t) : s.placeLaunch q d = t := by
  have goes : s.canGo q d = true := by simp [canGo, found, part, pending, placed]
  have taken : s.saveTake q = s := by simp [saveTake, found, held]
  have resident : (s.slotOf d l.ctx).isNone = false := by simpa using slot
  simp [placeLaunch, taken, found, turn, resident, opened, goes, part, pending, placed]

/-! ### Changes of every core of a list -/

/-- A step that changes one core at a time brings a core of the list to `Q`, where it brings it from `P` to `Q` and `Q` is a
case of `P`. -/
theorem core_foldl {f : State → CoreId → State} {P Q : Core → Prop} {c : CoreId}
    (other : ∀ u b, b ≠ c → (f u b).core c = u.core c) (own : ∀ u, P (u.core c) → Q ((f u c).core c))
    (stays : ∀ k, Q k → P k) {l : List CoreId} (mem : c ∈ l) (start : P (s.core c)) : Q ((l.foldl f s).core c) := by
  have keeps (l : List CoreId) (u : State) (h : Q (u.core c)) : Q ((l.foldl f u).core c) :=
    List.foldlRecOn l f (motive := fun u => Q (u.core c)) h fun u h b _ => by
      by_cases same : b = c
      · exact same ▸ own u (stays _ h)
      · rwa [other u b same]
  induction l generalizing s with
  | nil => simp at mem
  | cons b l ih =>
    by_cases same : b = c
    · subst same
      exact keeps l _ (own s start)
    · exact ih ((List.mem_cons.mp mem).resolve_left (Ne.symm same)) (by rwa [other s b same])

theorem core_updCore_other (s : State) {b c : CoreId} (g : Core → Core) (other : b ≠ c) :
    (s.updCore b g).core c = s.core c := core_setCore_other _ _ _ _ (Ne.symm other)

/-- Changes of cores leave the rest of the state alone. -/
theorem updCores_only {f : State → CoreId → Core → Core} (l : List CoreId) (s : State) :
    ∃ cores, l.foldl (fun s c => s.updCore c (f s c)) s = { s with cores := cores } :=
  List.foldlRecOn l _ (motive := fun t => ∃ cores, t = { s with cores := cores }) ⟨_, rfl⟩ fun t only c _ => by
    obtain ⟨cores, rfl⟩ := only
    exact ⟨_, rfl⟩

/-! ### The launch count, and slices -/

/-- The cores of a launch on a die are those of any state with the same build and cores. -/
theorem launchCores_congr (build : t.build = s.build) (cores : t.cores = s.cores) (q : Nat) (d : DieId) :
    t.launchCores q d = s.launchCores q d := by
  have clusterCores (k : ClusterId) : t.clusterCores k = s.clusterCores k := by simp only [State.clusterCores, build]
  simp only [launchCores, dieCores, allClusters, build, core, cores, funext clusterCores]
  rfl

/-- The cores of a launch that wait for its count check their headers (R348). -/
def releaseCores (s : State) (q : Nat) (d : DieId) : State :=
  (s.launchCores q d).foldl (fun s c => s.updCore c fun k =>
    if k.run = .waiting then { k with run := .header, progAt := (s.die d).ticks } else k) s

theorem releaseCores_releases (s : State) (q : Nat) (d : DieId) : (s.releaseCores q d).launches = s.launches ∧
    (s.releaseCores q d).mem = s.mem ∧
    ∀ c ∈ s.launchCores q d, (s.core c).run = .waiting → ((s.releaseCores q d).core c).run = .header := by
  obtain ⟨_, only⟩ := updCores_only (f := fun s _ k =>
    if k.run = .waiting then { k with run := .header, progAt := (s.die d).ticks } else k) (s.launchCores q d) s
  refine ⟨by rw [releaseCores, only], by rw [releaseCores, only], fun c listed waits => ?_⟩
  refine core_foldl (P := fun k => k.run = .waiting ∨ k.run = .header) (Q := fun k => k.run = .header)
    (fun u b other => core_updCore_other u _ other) (fun u before => ?_) (fun k => .inr) listed (.inl waits)
  rw [core_updCore]
  split
  · rfl
  next stays => exact before.resolve_left stays

section
variable {q i : Nat} {l : Launch} {n : W64} (found : s.launches.find? q = some l) (count : l.count = some n)
include found count

/-- A placed part whose launch count is reached starts, and the cores that wait for it check their headers (R348). -/
theorem countReached_starts (part : l.ldieOf d = some i) (placed : l.parts.find? i = some .placed) (due : n ≤ (s.die d).count) :
    ∃ l' : Launch, (s.countReached q d).launches.find? q = some l' ∧ l'.parts.find? i = some .started ∧
      (∀ c ∈ s.launchCores q d, (s.core c).run = .waiting → ((s.countReached q d).core c).run = .header) ∧
      (s.countReached q d).mem = s.mem := by
  have starts : s.countReached q d =
      ((s.setLaunch q { l with parts := l.parts.put i .started }).startSample q).releaseCores q d := by
    simp only [countReached, found, part, count, placed, BitVec.not_lt.mpr due, ne_eq, not_true, or_self, if_false]
    rfl
  obtain ⟨⟨b, launch⟩, cores, -, build, mem⟩ :=
    startSample_units (s := s.setLaunch q { l with parts := l.parts.put i .started }) (launch_setLaunch ..)
  have same := launchCores_congr (s := s) build cores q d
  obtain ⟨launches, bytes, released⟩ :=
    releaseCores_releases ((s.setLaunch q { l with parts := l.parts.put i .started }).startSample q) q d
  rw [starts, launches, bytes]
  refine ⟨_, launch, SMap.find?_put_same .., fun c listed waits => released c (same ▸ listed) ?_, mem⟩
  rw [core, cores]
  exact waits

/-- Before that nothing starts (R348). -/
theorem countReached_early (early : (s.die d).count < n) : s.countReached q d = s := by
  simp only [countReached, found, count]
  split
  next i m _ same =>
    cases same
    simp [early]
  · rfl

end

/-- YPEND is set on the cores of a launch that run (R271). -/
theorem setYpend_sets (s : State) (q : Nat) (d : DieId) : (s.setYpend q d).mem = s.mem ∧
    ∀ c ∈ s.launchCores q d, (s.core c).run ≠ .idle →
      ((s.setYpend q d).core c).ypend = true ∧ ((s.setYpend q d).core c).run = (s.core c).run := by
  refine ⟨?_, fun c listed works => ?_⟩
  · obtain ⟨_, only⟩ := updCores_only (f := fun _ _ k => if k.run = .idle then k else { k with ypend := true })
      (s.launchCores q d) s
    rw [setYpend, only]
  · refine core_foldl (P := fun k => k.run = (s.core c).run) (Q := fun k => k.ypend = true ∧ k.run = (s.core c).run)
      (fun u b other => core_updCore_other u _ other) (fun u same => ?_) (fun k asked => asked.2) listed rfl
    rw [core_updCore, if_neg (same ▸ works)]
    exact ⟨rfl, same⟩

/-- A slice that is over while another launch of the partition waits in vain (R271). -/
theorem sliceEnd_expired {q at' : Nat} {l : Launch} (found : s.launches.find? q = some l)
    (placed : (l.ldieOf d).bind l.placedAt.find? = some at') (expired : s.sliceOf l.partition ≤ s.since d at')
    (waits : ∃ e ∈ s.waitingOn d, e.2.partition = l.partition ∧ e.1 ≠ q ∧ s.canGo e.1 d = false) :
    s.sliceEnd q d = s.setYpend q d := by
  obtain ⟨e, waiting, partition, other, stuck⟩ := waits
  have vain : ((s.waitingOn d).any fun e =>
      decide (e.2.partition = l.partition) && decide (e.1 ≠ q) && !s.canGo e.1 d) = true :=
    List.any_eq_true.mpr ⟨e, waiting, by simp [partition, other, stuck]⟩
  simp only [sliceEnd, found, placed, vain, Nat.not_lt.mpr expired, Bool.not_true, Bool.false_eq_true, or_self, if_false]

/-! ### The end of a launch -/

theorem holdCores_onlyDies {u : State} (h : OnlyDies s u) (d : DieId) : OnlyDies s (u.holdCores d) := by
  unfold holdCores
  split
  · exact h
  · exact h.setDie _

/-- The end of a launch changes units alone, and takes the launch away (R269). -/
theorem endLaunch_only (s : State) (q : Nat) (lost : Bool) : ∃ dies cores clusters sems, s.endLaunch q lost =
    { s with dies := dies, cores := cores, clusters := clusters, sems := sems, launches := s.launches.erase q } := by
  have withdraw (u : State) (d : DieId) (h : OnlyDies s u) : OnlyDies s (u.withdrawImages q d) := h.setDie _
  obtain ⟨k, withdrawn⟩ := OnlyDies.foldl withdraw s.allDies (OnlyDies.refl s)
  have hold (l : List DieId) (x : State) : OnlyDies x (l.foldl (fun s d => s.holdCores d) x) :=
    OnlyDies.foldl (fun _ d h => holdCores_onlyDies h d) l (OnlyDies.refl x)
  unfold endLaunch
  dsimp only
  rw [withdrawn]
  exact (hold _ _).imp fun dies held => ⟨_, _, _, held⟩

/-- The launch whose parts have all ended is over, and its command is complete (R19, R322). -/
theorem launchEnd_ended {q : QueueId} {l : Launch} (found : s.launches.find? q.key = some l) (dies : l.dies ≠ [])
    (ended : ∀ i, i < l.dies.length → l.parts.find? i = some .ended) (good : l.fault = none)
    (goesOn : (s.queue q).stopping = none) (live : (s.ctx l.ctx).st ≠ .lost) :
    s.launchEnd q = (s.endLaunch q.key false).cmdDone q (cmdLen l.cmd) := by
  have all : (!l.dies.isEmpty && (List.range l.dies.length).all fun i => decide (l.parts.find? i = some .ended)) = true := by
    simpa [dies] using ended
  simp only [launchEnd, found, all, good, goesOn, live, Bool.not_true, Bool.false_eq_true, Option.isSome_none, or_self,
    if_false]

end State

/-- Settles O40: a slot, a placement, a start and the end of a launch are each one change of the units concerned; what follows it
(monitor samples, rotations, timers, held cores) touches neither those nor memory. -/
theorem launchesArePlacedAndEnd : Obligations.LaunchesArePlacedAndEnd := by
  unfold Obligations.LaunchesArePlacedAndEnd
  refine ⟨?slot, ?placement, ?count, ?early, ?slice, ?complete⟩
  case slot =>
    intro s d n built runs turn ready room ranges
    have die : ((s.setDie d ((s.die d).slotTaken n.toNat)).putCtx n.toNat { s.ctx n.toNat with st := .resident }).die d =
        (s.die d).slotTaken n.toNat := (State.die_putCtx ..).trans (State.die_setDie ..)
    refine ⟨_, ?_, congrArg Ctx.st (State.ctx_putCtx ..), congrArg Die.slots die, ?_, State.readByte_putCtx_state ..⟩
    · exact (if_pos built).trans (congrArg Host.Outcome.next (State.slotTake_free runs turn ready room ranges))
    · rw [die]
      simp [Die.slotTaken]
  case placement =>
    intro s q d l x y k c cs high i built found held turn opened part pending slot now alone clusters sameCluster _ here
      coreA clusterA best free
    obtain ⟨t, l', row, cores, clusters', launch, started, fault, mem⟩ := State.tryPlace_single alone sameCluster coreA
      clusterA best free found clusters here part now
    obtain ⟨v, core, works, runs, number, image⟩ := State.core_giveCore (s.giveCluster q.key l y k) q.key l x c .header
    obtain ⟨w, cluster, occupant, static⟩ := State.cluster_giveCluster s q.key l y k
    obtain ⟨_, _, gave⟩ := State.giveCore_only (s.giveCluster q.key l y k) q.key l x c .header
    have core : t.core c = v := (congrArg (fun m => m.get {} c.key) cores).trans core
    have cluster : t.cluster k = w :=
      (congrArg (fun m => m.get {} k.key) (clusters'.trans (by rw [gave]))).trans cluster
    refine ⟨t, l', ?_, ?_, ?_, ?_, ?_, ?_, ?_, launch, started, fault, mem⟩
    · exact (if_pos built).trans (congrArg Host.Outcome.next
        (State.placeLaunch_placed found held turn opened slot part pending row))
    · rw [core, works]
    · rw [core, runs]
    · rw [core, number]
    · rw [core, image]
    · rw [cluster, occupant, here, clusterA]
    · rw [cluster, static]
  case count =>
    intro s q d l i n built found part count placed due
    obtain ⟨l', launch, started, released, mem⟩ := State.countReached_starts found count part placed due
    exact ⟨_, l', if_pos built, launch, started, released, mem⟩
  case early =>
    intro s q d l n built found count early
    exact (if_pos built).trans (congrArg Host.Outcome.next (State.countReached_early found count early))
  case slice =>
    intro s q d l t₀ built found placed expired waits
    obtain ⟨mem, asked⟩ := State.setYpend_sets s q.key d
    exact ⟨_, (if_pos built).trans (congrArg Host.Outcome.next (State.sliceEnd_expired found placed expired waits)), mem, asked⟩
  case complete =>
    intro s q l a rest found dies ended good goesOn live ring oldest refs
    have row := State.launchEnd_ended found dies ended good goesOn live
    obtain ⟨_, _, _, _, freed⟩ := State.endLaunch_only s q.key false
    have queue : (s.endLaunch q.key false).queue q = s.queue q := by rw [freed]; rfl
    have oldest' : ((s.endLaunch q.key false).queue q).accepted = a :: rest := by rw [queue, oldest]
    have ring' : ((s.endLaunch q.key false).queue q).frames = [] := by rw [queue, ring]
    have completes := State.cmdDone_completes (s := s) (by rw [freed]) (by rw [freed]) oldest' refs ring' (cmdLen l.cmd)
    obtain ⟨_, _, only⟩ := State.cmdDone_only oldest' refs ring' (cmdLen l.cmd)
    refine ⟨_, congrArg Host.Outcome.next row, completes.1, ?_, completes.2⟩
    rw [only, freed]
    exact SMap.find?_erase_same ..

end Sys2Proof.Machine
end

section
/-!
PROOFS. The stop of a command, the drain and the loss procedure (R113, R114, R247, R266, R274).
-/
namespace Sys2Proof.Machine

/-- From one state to another the launches stay, and every context keeps its state or becomes LOST. -/
def LosesOnly (s t : State) : Prop := t.launches = s.launches ∧ ∀ n, (t.ctx n).st = (s.ctx n).st ∨ (t.ctx n).st = .lost

namespace LosesOnly

variable {s t u : State}

theorem of_objects (h : t.objects = s.objects) : LosesOnly s t :=
  ⟨State.launches_of_objects h, fun n => .inl (by rw [State.ctx_of_objects h])⟩

theorem trans (h : LosesOnly s t) (h' : LosesOnly t u) : LosesOnly s u :=
  ⟨h'.1.trans h.1, fun n => (h'.2 n).elim (fun same => (h.2 n).imp same.trans same.trans) .inr⟩

end LosesOnly

/-- A queue whose command is being stopped since a tick, with the units that have not acknowledged (R266, R274). -/
def Queue.stoppedAt (k : Queue) (now : Nat) (units : List Nat) (w : QWait) : Queue :=
  { k with stopping := some now, stopWait := units, timed := false, wait := w }

/-- A queue whose command has been stopped (R266). -/
def Queue.stopEnded (k : Queue) : Queue := { k with stopping := none, drained := false }

namespace State

variable {s t u : State} {q : QueueId}

/-! ### The loss of a context -/

theorem ctx_putCtx_other (s : State) {n m : Nat} (c : Ctx) (other : m ≠ n) : (s.putCtx n c).ctx m = s.ctx m := by
  obtain ⟨_, only⟩ := putCtx_onlyMem s n c
  rw [only]
  exact ctx_setCtx_other _ _ _ _ other

/-- The LOST record is posted once: of the objects, the context notes it, with the record's last count (R114, R247, R251). -/
theorem objects_postLost (s : State) (n : Nat) (fresh : (s.ctx n).posted = false) :
    ∃ r, (s.postLost n).objects = (s.putCtx n { s.ctx n with posted := true, lossRecord := r }).objects := by
  unfold postLost
  dsimp only
  rw [if_neg (by simp [fresh])]
  split
  next t h => exact ⟨_, objects_of_eq h (objects_tryEvent ..)⟩
  next t _ h => exact ⟨_, (objects_logUndeliverable ..).trans (objects_of_eq h (objects_tryEvent ..))⟩

theorem ctx_postLost (s : State) (n : Nat) :
    ((s.postLost n).ctx n).posted = true ∧ ((s.postLost n).ctx n).st = (s.ctx n).st ∧
      ∀ m, m ≠ n → (s.postLost n).ctx m = s.ctx m := by
  by_cases fresh : (s.ctx n).posted = true
  · have same : s.postLost n = s := by simp [postLost, fresh]
    rw [same]
    exact ⟨fresh, rfl, fun _ _ => rfl⟩
  · obtain ⟨r, objs⟩ := objects_postLost s n (by simpa using fresh)
    rw [ctx_of_objects objs, ctx_putCtx]
    exact ⟨rfl, rfl, fun m other => (ctx_of_objects objs m).trans (ctx_putCtx_other _ _ other)⟩

/-- A context that is FREE or LOST already stays as it is (R236, R247). -/
theorem lose_dead {n : Nat} (dead : (s.ctx n).st = .free ∨ (s.ctx n).st = .lost) (home : DieId) (code cls : Nat)
    (rec : FaultRec) : s.lose home n code cls rec = s := by
  simp only [lose, dead, if_true]

theorem losesOnly_lose (s : State) (home : DieId) (n code cls : Nat) (rec : FaultRec) :
    LosesOnly s (s.lose home n code cls rec) := by
  by_cases dead : (s.ctx n).st = .free ∨ (s.ctx n).st = .lost
  · rw [lose_dead dead]
    exact .of_objects rfl
  refine ⟨launches_lose .., fun m => ?_⟩
  by_cases same : m = n
  · subst same
    exact .inr (lose_live s home m code cls rec dead).2.1
  · obtain ⟨t, lost, objs⟩ := objects_lose s home n code cls rec dead
    have kept : t.ctx m = s.ctx m := (ctx_of_objects lost m).trans (ctx_putCtx_other _ _ same)
    refine .inl (congrArg Ctx.st ((ctx_of_objects objs m).trans ?_))
    split
    · exact kept
    · exact ((ctx_postLost t n).2.2 m same).trans kept

/-! ### Event records that wait are tried again (R251) -/

/-- With no record waiting nothing happens. -/
theorem retryEvents_of_none (calm : NoEventWaits s) : s.retryEvents = s := by
  have todo : (s.allDies.flatMap fun d => (s.die d).evWait.map fun e => (d, e)) = [] :=
    List.flatMap_eq_nil_iff.mpr fun d _ => by rw [calm d]; rfl
  simp only [retryEvents, todo, List.mergeSort_nil, List.foldl_nil]

section
variable (s) (d : DieId) (p : Nat) (rec : EventRec) (code info : Nat)

theorem aside_eventFailed : (s.eventFailed d p rec code info).aside = s.aside := by
  unfold eventFailed
  split
  · rfl
  · exact (aside_lose ..).trans (aside_logUndeliverable ..)

theorem losesOnly_eventFailed : LosesOnly s (s.eventFailed d p rec code info) := by
  unfold eventFailed
  split
  · exact .of_objects rfl
  · exact (LosesOnly.of_objects (objects_logUndeliverable ..)).trans (losesOnly_lose ..)

end

theorem aside_retryEvents (s : State) : s.retryEvents.aside = s.aside := by
  refine aside_foldl_fst (fun p e => ?_) _ _
  dsimp only
  split
  · rfl
  split
  next u h => exact (aside_setDie ..).trans (aside_of_eq h (aside_writeEvent ..))
  next u h => exact aside_of_eq h (aside_writeEvent ..)
  next u _ _ h => exact (aside_eventFailed ..).trans ((aside_setDie ..).trans (aside_of_eq h (aside_writeEvent ..)))

/-- One that proves undeliverable loses its context (R275). -/
theorem losesOnly_retryEvents (s : State) : LosesOnly s s.retryEvents := by
  refine List.foldlRecOn (motive := fun p : State × List (Nat × Nat) => LosesOnly s p.1) _ _ (.of_objects rfl)
    fun p same e _ => same.trans ?_
  dsimp only
  split
  · exact .of_objects rfl
  split
  next u h => exact .of_objects ((objects_setDie ..).trans (objects_of_eq h (objects_writeEvent ..)))
  next u h => exact .of_objects (objects_of_eq h (objects_writeEvent ..))
  next u _ _ h =>
    exact (LosesOnly.of_objects ((objects_setDie ..).trans (objects_of_eq h (objects_writeEvent ..)))).trans
      (losesOnly_eventFailed ..)

/-! ### The end of a stop (R266, R274) -/

/-- A unit that has not acknowledged is waited for. -/
theorem stopDone_waits (waits : (s.queue q).stopWait ≠ []) : s.stopDone q = s := by
  simp [stopDone, waits]

/-- With the last acknowledgement the launch of a command that has timed out is over, and its context is lost with F-1306. -/
theorem stopDone_ends (stopping : (s.queue q).stopping.isSome = true) (acked : (s.queue q).stopWait = [])
    (kept : (s.queue q).destroyTag = none) :
    (s.stopDone q).queue q = (s.queue q).stopEnded ∧ (s.stopDone q).launches.find? q.key = none ∧
      ((s.ctx (s.queue q).ctx).st = .resident → ((s.stopDone q).ctx (s.queue q).ctx).st = .lost ∧
        ((s.stopDone q).ctx (s.queue q).ctx).lossStatus = 0x13060001) ∧
      ((s.ctx (s.queue q).ctx).st = .lost → ((s.stopDone q).ctx (s.queue q).ctx).st = .lost) := by
  obtain ⟨dies, cores, clusters, sems, ended⟩ := endLaunch_only (s.setQueue q (s.queue q).stopEnded) q.key true
  have running : (s.queue q).stopping.isNone = false := by simpa using stopping
  have row : ∃ rec, s.stopDone q = ((s.setQueue q (s.queue q).stopEnded).endLaunch q.key true).lose q.die (s.queue q).ctx
      0x1306 1 rec := by
    unfold stopDone
    dsimp only
    rw [if_neg (by simp [running, acked, kept])]
    split
    · exact ⟨_, rfl⟩
    next tag destroyed => simp [kept] at destroyed
  obtain ⟨rec, row⟩ := row
  rw [row]
  refine ⟨?_, ?_, fun live => ?_, fun lost => ?_⟩
  · rw [queue_of_aside (aside_lose ..), ended]
    exact queue_setQueue ..
  · rw [launches_lose, ended]
    exact SMap.find?_erase_same ..
  · have ctx : ((s.setQueue q (s.queue q).stopEnded).endLaunch q.key true).ctx (s.queue q).ctx =
        s.ctx (s.queue q).ctx := by rw [ended]; rfl
    obtain ⟨-, lost, status, -⟩ := lose_live ((s.setQueue q (s.queue q).stopEnded).endLaunch q.key true) q.die
      (s.queue q).ctx 0x1306 1 rec (by rw [ctx, live]; decide)
    exact ⟨lost, status⟩
  · have ctx : ((s.setQueue q (s.queue q).stopEnded).endLaunch q.key true).ctx (s.queue q).ctx =
        s.ctx (s.queue q).ctx := by rw [ended]; rfl
    rw [lose_dead (.inr (ctx ▸ lost)), ctx, lost]

/-! ### The begin of a stop (R266, R274) -/

theorem noEventWaits_setDie (calm : NoEventWaits s) (d : DieId) {v : Die} (noneLeft : v.evWait = []) :
    NoEventWaits (s.setDie d v) := fun e => by
  by_cases same : e = d
  · subst same
    rw [die_setDie, noneLeft]
  · rw [die_setDie_other _ _ _ _ same, calm e]

theorem noEventWaits_withdraw (calm : NoEventWaits s) (d : DieId) (p : Owner → Bool) : NoEventWaits (s.withdraw d p) :=
  noEventWaits_setDie calm d (calm d)

theorem noEventWaits_dropEvents (calm : NoEventWaits s) (d : DieId) (p : Nat × Nat × Nat × EventRec → Bool) :
    NoEventWaits (s.dropEvents d p) := by
  unfold dropEvents
  dsimp only
  refine noEventWaits_setDie (noEventWaits_withdraw calm d _) d ?_
  dsimp only
  rw [noEventWaits_withdraw calm d _ d, List.filter_nil]

theorem noEventWaits_dropInval (calm : NoEventWaits s) (q : QueueId) : NoEventWaits (s.dropInval q) := fun d => by
  have waits := calm d
  simp only [die, SMap.get] at waits
  simp only [dropInval, die, SMap.get, SMap.find?_mapVals]
  cases found : s.dies.find? d.val with
  | none => rfl
  | some x => simpa [found] using waits

/-- A message within a die has arrived at once (R319). -/
theorem sendMsg_self (s : State) (d : DieId) (m : Msg) : s.sendMsg d d m = s.deliverMsg d.val d.val m := if_pos rfl

/-- A state in which a queue has a new record, and what its stop sets aside has been withdrawn: stalled accesses, event records,
signals and invalidations. -/
def stopBase (s : State) (q : QueueId) (k : Queue) (p : Owner → Bool) (e : Nat × Nat × Nat × EventRec → Bool)
    (f : SMap FenceSig) : State :=
  ({ ((s.setQueue q k).withdraw q.die p).dropEvents q.die e with fences := f } : State).dropInval q

section
variable (s q) (k : Queue) (p : Owner → Bool) (e : Nat × Nat × Nat × EventRec → Bool) (f : SMap FenceSig)

theorem queue_stopBase : (s.stopBase q k p e f).queue q = k := queue_setQueue s q k
theorem ctx_stopBase (n : Nat) : (s.stopBase q k p e f).ctx n = s.ctx n := rfl
theorem launches_stopBase : (s.stopBase q k p e f).launches = s.launches := rfl
theorem mem_stopBase : (s.stopBase q k p e f).mem = s.mem := rfl

theorem noEventWaits_stopBase (calm : NoEventWaits s) : NoEventWaits (s.stopBase q k p e f) :=
  noEventWaits_dropInval (noEventWaits_dropEvents (noEventWaits_withdraw (s := s.setQueue q k) calm q.die p) q.die e) q

/-- What a stop has withdrawn, the event records tried again. -/
theorem queue_retry_stopBase : (s.stopBase q k p e f).retryEvents.queue q = k :=
  (queue_of_aside (aside_retryEvents _) q).trans (queue_stopBase ..)

theorem mem_retry_stopBase (calm : NoEventWaits s) : (s.stopBase q k p e f).retryEvents.mem = s.mem := by
  rw [retryEvents_of_none (noEventWaits_stopBase s q k p e f calm), mem_stopBase]

end

section
variable (fresh : (s.queue q).stopping = none)
include fresh

/-- The stop of a launch goes to its die, and waits for its cores. -/
theorem beginStop_launch {l : Launch} {n : Nat} (waits : (s.queue q).wait = .launch)
    (found : s.launches.find? q.key = some l) (home : l.dies = [q.die.val])
    (units : ((s.cores.entries.filter fun e => decide (e.2.part = some q.key) && decide (e.2.run ≠ .idle) &&
      !e.2.stopAcked).map (·.1)) = [n]) : ∃ p e f,
    s.beginStop q = (s.stopBase q ((s.queue q).stoppedAt (s.die q.die).ticks [n] .launch) p e f).retryEvents.deliverMsg
      q.die.val q.die.val (.stop q.key) := by
  have row : ∃ p e f, s.beginStop q = (((((s.stopBase q ((s.queue q).stoppedAt (s.die q.die).ticks [n] .launch) p e
      f).retryEvents.launches.find? q.key).map (·.dies)).getD []).foldl (fun s d => s.sendMsg q.die (dieOf d) (.stop q.key))
      (s.stopBase q ((s.queue q).stoppedAt (s.die q.die).ticks [n] .launch) p e f).retryEvents).stopDone q := by
    simp only [beginStop, fresh, waits, units, Option.isSome_none, Bool.false_eq_true, if_false, if_true]
    exact ⟨_, _, _, rfl⟩
  obtain ⟨p, e, f, row⟩ := row
  refine ⟨p, e, f, row.trans ?_⟩
  rw [(losesOnly_retryEvents _).1, launches_stopBase, found, Option.map_some, Option.getD_some, home, List.foldl_cons,
    List.foldl_nil, dieOf_val, sendMsg_self]
  refine stopDone_waits ?_
  rw [show ((s.stopBase q ((s.queue q).stoppedAt (s.die q.die).ticks [n] .launch) p e f).retryEvents.deliverMsg q.die.val
    q.die.val (.stop q.key)).queue q = _ from queue_retry_stopBase ..]
  exact List.cons_ne_nil n []

/-- The stop of a WAIT ends at once, unless a response to its read is to come. -/
theorem beginStop_cond (waits : (s.queue q).wait = .cond) : ∃ p e f,
    s.beginStop q = (s.stopBase q ((s.queue q).stoppedAt (s.die q.die).ticks (if s.cpOut q.key then [cpUnit] else []) .none)
      p e f).retryEvents.stopDone q := by
  simp only [beginStop, fresh, waits, Option.isSome_none, Bool.false_eq_true, if_false, reduceCtorEq, List.foldl_nil]
  exact ⟨_, _, _, rfl⟩

/-- A command that has run its queue's time is stopped (R266). -/
theorem cmdTimeout_begins (opened : (s.queue q).st = .opened) (timed : (s.queue q).timeout ≠ 0)
    (waits : (s.queue q).wait ≠ .none) (live : (s.ctx (s.queue q).ctx).st ≠ .lost)
    (due : (s.queue q).timeout.toNat ≤ (s.queue q).elapsed (s.die q.die).ticks) : s.cmdTimeout q = s.beginStop q := by
  unfold cmdTimeout
  dsimp only
  refine if_neg ?_
  rintro (closed | stops | untimed | idle | lost | early)
  · exact closed opened
  · simp [fresh] at stops
  · exact timed untimed
  · simp [waits] at idle
  · exact live lost
  · exact absurd due (Nat.not_le.mpr early)

end

/-! ### The drain, stop messages and acknowledgements (R266, R274) -/

/-- A drain that has run its 2,000 counts resets the one engine that is busy still (R359). -/
theorem drainEnd_resets {at' : Nat} {r : ResetUnit} (stopping : (s.queue q).stopping = some at')
    (drains : (s.queue q).drained = false) (due : 2000 ≤ s.since q.die at')
    (busy : ((s.cores.entries.filter fun e => decide (e.2.part = some q.key)).map fun e => coreOf e.1).flatMap s.busyEngines =
      [r]) :
    s.drainEnd q = (s.setQueue q { s.queue q with drained := true }).startLadder r
      (if (s.queue q).destroyTag.isSome then 0 else 0x1306) := by
  have expired : ¬((s.queue q).drained = true ∨ s.since q.die at' < 2000) := by simp [drains, due]
  have engines : (((s.setQueue q { s.queue q with drained := true }).cores.entries.filter fun e =>
      decide (e.2.part = some q.key)).map fun e => coreOf e.1).flatMap
        (s.setQueue q { s.queue q with drained := true }).busyEngines = [r] := busy
  unfold drainEnd
  dsimp only
  split
  next idle => simp [stopping] at idle
  next x found =>
    obtain rfl : at' = x := by simpa [stopping] using found
    rw [if_neg expired, engines]
    rfl

/-- A core that has stopped for a stop message (R113). -/
theorem core_stopCore (s : State) (c : CoreId) : ∃ k : Core, (s.stopCore c).core c = k ∧ k.stall = .none ∧ k.strQ = [] ∧
    k.vecQ = [] ∧ k.syncQ = [] :=
  ⟨_, core_setCore .., rfl, rfl, rfl, rfl⟩

/-- A stop message reaches a die: for what has left its core the die acknowledges at once, which changes no core and no byte of
memory; then the cores of the launch are told to stop (R113, R274). -/
theorem stopHere_tells {m r : Nat} {d : DieId} (msg : s.msgAt m = some (d.val, r, .stop q.key)) : ∃ w : State,
    w.cores = s.cores ∧ w.build = s.build ∧ w.mem = s.mem ∧ s.stopHere m = (w.launchCores q.key d).foldl (fun s c =>
      if (s.core c).run = .idle then s
      else ((s.stopCore c).updCore c fun k => { k with stopAsked := true }).quietCheck c) (w.withdrawImages q.key d) := by
  have told (l : List Nat) (t : State) :
      let w := l.foldl (fun s x => s.sendMsg d (queueOf q.key).die (.stopAck q.key x)) t
      w.cores = t.cores ∧ w.aside = t.aside ∧ w.objects = t.objects :=
    ⟨cores_foldl (fun t _ => cores_sendMsg t _ _ _) l t, aside_foldl (fun t _ => aside_sendMsg t _ _ _) l t,
      objects_foldl (fun t _ => objects_sendMsg t _ _ _) l t⟩
  simp only [stopHere, msg, dieOf_val]
  obtain ⟨cores, aside, objects⟩ := told _ (s.takeMsg m)
  exact ⟨_, cores, (congrArg State.build aside :), mem_of_objects objects, rfl⟩

/-- The one core of a launch on a die is told to stop, and acknowledges as soon as it is quiet (R274). -/
theorem stopHere_single {m r : Nat} {c : CoreId} (msg : s.msgAt m = some (c.die.val, r, .stop q.key))
    (one : s.launchCores q.key c.die = [c]) (runs : (s.core c).run = .running) : ∃ u : State, u.cores = s.cores ∧
      u.mem = s.mem ∧ s.stopHere m = ((u.stopCore c).updCore c fun k => { k with stopAsked := true }).quietCheck c := by
  obtain ⟨w, cores, build, mem, row⟩ := stopHere_tells msg
  have works : ((w.withdrawImages q.key c.die).core c).run ≠ .idle := by
    change (w.core c).run ≠ .idle
    rw [core, cores, show (s.cores.get {} c.key).run = .running from runs]
    decide
  rw [launchCores_congr build cores, one, List.foldl_cons, List.foldl_nil, if_neg works] at row
  exact ⟨w.withdrawImages q.key c.die, cores, mem, row⟩

/-- The last acknowledgement ends the stop (R274). -/
theorem stopAcked_last {m d r c : Nat} (msg : s.msgAt m = some (d, r, .stopAck q.key c)) (last : (s.queue q).stopWait = [c]) :
    s.stopAcked m = ((s.takeMsg m).setQueue q { s.queue q with stopWait := [] }).stopDone q := by
  have acked : ((s.takeMsg m).queue q).stopWait.filter (· ≠ c) = [] := by
    rw [show ((s.takeMsg m).queue q).stopWait = [c] from last]
    simp
  simp only [stopAcked, msg, queueOf_key, stopAck, updQueue, acked]
  rfl

/-! ### The loss procedure (R247) -/

section
variable {n : Nat}

/-- Launches that are over leave, and nothing of the host's objects changes. -/
theorem endLaunches_only (l : List Nat) (s : State) : ∃ dies cores clusters sems launches,
    l.foldl (fun t k => t.endLaunch k true) s =
      { s with dies := dies, cores := cores, clusters := clusters, sems := sems, launches := launches } ∧
    ∀ e ∈ launches.entries, e ∈ s.launches.entries ∧ e.1 ∉ l := by
  induction l generalizing s with
  | nil => exact ⟨_, _, _, _, _, rfl, fun e mem => ⟨mem, List.not_mem_nil⟩⟩
  | cons k l ih =>
    obtain ⟨_, _, _, _, ended⟩ := endLaunch_only s k true
    obtain ⟨_, _, _, _, launches, rest, left⟩ := ih (s.endLaunch k true)
    refine ⟨_, _, _, _, launches, rest.trans (by rw [ended]), fun e mem => ?_⟩
    obtain ⟨before, other⟩ := left e mem
    rw [ended] at before
    obtain ⟨before, differs⟩ := List.mem_filter.mp before
    exact ⟨before, by simp [other, bne_iff_ne.mp differs]⟩

/-- With all its launches over, a context has none, and the host's objects are as they were. -/
theorem endLaunches_keeps (s : State) (n : Nat) : ∃ u : State,
    u = (s.launchesOf n).foldl (fun t k => t.endLaunch k true) s ∧ u.launchesOf n = [] ∧ u.queues = s.queues ∧
      u.objHeld = s.objHeld ∧ u.ctxs = s.ctxs := by
  obtain ⟨_, _, _, _, launches, ended, left⟩ := endLaunches_only (s.launchesOf n) s
  refine ⟨_, ended.symm, List.map_eq_nil_iff.mpr (List.filter_eq_nil_iff.mpr fun e mem mine => ?_), rfl, rfl, rfl⟩
  obtain ⟨before, other⟩ := left e mem
  exact other (List.mem_map_of_mem (List.mem_filter.mpr ⟨before, mine⟩))

theorem ctxQueues_of_none (h : ∀ e ∈ s.queues.entries, e.2.ctx ≠ n) : s.ctxQueues n = [] :=
  List.map_eq_nil_iff.mpr (List.filter_eq_nil_iff.mpr fun e mem => by simp [h e mem])

variable (losing : (s.ctx n).losing.isSome = true) (calm : NoEventWaits s) (closed : s.faultsOpen n = false)
  (ready : (s.postLost n).lossReady n = true)
include losing calm closed ready

/-- Once the launches have issued their last, they are over, the context's queues are walked, and the procedure ends. -/
theorem lossStep_ends {w : State} (gone : u = ((s.postLost n).launchesOf n).foldl (fun t k => t.endLaunch k true) (s.postLost n))
    (walked : u.walkAll (u.ctxQueues n) = (w, true)) (stopped : ∀ q ∈ w.ctxQueues n, (w.queue q).stopping = none)
    (noAbort : ∀ r ∈ w.objHeld, r.op ≠ 2) : s.lossStep n = w.setCtx n { w.ctx n with losing := none } := by
  have running : (s.ctx n).losing.isNone = false := by simpa using losing
  have stops : (w.ctxQueues n).foldl (fun s q => if (s.queue q).stopping.isSome then
      (s.updQueue q fun k => { k with stopWait := [] }).stopDone q else s) w = w :=
    List.foldlRecOn _ _ (motive := fun t => t = w) rfl fun t same q listed => by
      subst same
      simp [stopped q listed]
  have aborts : ((w.setCtx n { w.ctx n with losing := none }).objHeld.filter fun r =>
      decide (r.op = 2) && !r.waits && decide (r.index = n)) = [] :=
    List.filter_eq_nil_iff.mpr fun r held => by simp [noAbort r held]
  simp only [lossStep, running, retryEvents_of_none calm, closed, ready, ← gone, walked, stops, aborts, Bool.not_true,
    Bool.false_eq_true, if_false, List.foldl_nil]

end

end State

/-- Settles O42: a stop that has begun waits for its units, and with the last one ends by one lemma for the acknowledgement and
for the stop of a WAIT; before that, event records that wait are tried again, which can only lose contexts. -/
theorem stopsAndLosses : Obligations.StopsAndLosses := by
  unfold Obligations.StopsAndLosses
  refine ⟨?launch, ?wait, ?waitRead, ?drain, ?stop, ?lastAck, ?loss, ?walk⟩
  case launch =>
    intro s q l n opened fresh timed waits live due found home units
    obtain ⟨p, e, f, row⟩ := State.beginStop_launch fresh waits found home units
    have begins := State.cmdTimeout_begins fresh opened timed (by simp [waits]) live due
    have queue := State.queue_retry_stopBase s q ((s.queue q).stoppedAt (s.die q.die).ticks [n] .launch) p e f
    refine ⟨_, _, congrArg Host.Outcome.next (begins.trans row), ?_, ?_, SMap.find?_put_same .., ?_⟩
    · exact (congrArg Queue.stopping queue).trans rfl
    · exact (congrArg Queue.stopWait queue).trans rfl
    · exact State.mem_retry_stopBase s q _ p e f
  case wait =>
    intro s q opened fresh timed waits kept resident answered due
    obtain ⟨p, e, f, row⟩ := State.beginStop_cond fresh waits
    rw [answered] at row
    have begins := State.cmdTimeout_begins fresh opened timed (by simp [waits]) (by simp [resident]) due
    have queue := State.queue_retry_stopBase s q ((s.queue q).stoppedAt (s.die q.die).ticks [] .none) p e f
    obtain ⟨ended, -, live, lost⟩ := State.stopDone_ends (q := q)
      (s := (s.stopBase q ((s.queue q).stoppedAt (s.die q.die).ticks [] .none) p e f).retryEvents)
      (by rw [queue]; rfl) (by rw [queue]; rfl) (by rw [queue]; exact kept)
    rw [queue] at ended live lost
    refine ⟨_, congrArg Host.Outcome.next (begins.trans row), ?_, ?_, ?_, fun calm => ?_⟩
    · exact (congrArg Queue.stopping ended).trans rfl
    · exact (congrArg Queue.wait ended).trans rfl
    · rcases (State.losesOnly_retryEvents (s.stopBase q ((s.queue q).stoppedAt (s.die q.die).ticks [] .none) p e f)).2
        (s.queue q).ctx with same | gone
      · exact (live (same.trans resident)).1
      · exact lost gone
    · rw [State.retryEvents_of_none (State.noEventWaits_stopBase s q _ p e f calm)] at live ⊢
      exact (live resident).2
  case waitRead =>
    intro s q opened fresh timed waits live out due
    obtain ⟨p, e, f, row⟩ := State.beginStop_cond fresh waits
    rw [out] at row
    have begins := State.cmdTimeout_begins fresh opened timed (by simp [waits]) live due
    have queue := State.queue_retry_stopBase s q ((s.queue q).stoppedAt (s.die q.die).ticks [cpUnit] .none) p e f
    have row := row.trans (State.stopDone_waits (by rw [if_pos rfl, queue]; exact List.cons_ne_nil cpUnit []))
    refine ⟨_, congrArg Host.Outcome.next (begins.trans row), ?_, ?_⟩
    · exact (congrArg Queue.stopping queue).trans rfl
    · exact (congrArg Queue.stopWait queue).trans rfl
  case drain =>
    intro s q t₀ r stopping drains due busy
    exact congrArg Host.Outcome.next (State.drainEnd_resets stopping drains due busy)
  case stop =>
    intro s m r c q msg one runs
    obtain ⟨u, cores, mem, row⟩ := State.stopHere_single msg one runs
    obtain ⟨k, core, stall, strQ, vecQ, syncQ⟩ := State.core_stopCore u c
    have stopped : k.run = .stopped := by
      rw [← core, State.run_stopCore, State.core, cores, show (s.cores.get {} c.key).run = .running from runs]
      rfl
    refine ⟨_, congrArg Host.Outcome.next row, ?_⟩
    rw [State.core_updCore, core]
    exact ⟨stopped, rfl, stall, strQ, vecQ, syncQ, mem⟩
  case lastAck =>
    intro s m d r c q msg stopping last kept resident
    have row := State.stopAcked_last msg last
    have queue := State.queue_setQueue (s.takeMsg m) q { s.queue q with stopWait := [] }
    obtain ⟨ended, launch, live, -⟩ := State.stopDone_ends (q := q)
      (s := (s.takeMsg m).setQueue q { s.queue q with stopWait := [] })
      (by rw [queue]; exact stopping) (by rw [queue]) (by rw [queue]; exact kept)
    rw [queue] at ended live
    refine ⟨s.stopAcked m, rfl, ?_⟩
    rw [row]
    exact ⟨(congrArg Queue.stopping ended).trans rfl, launch, live resident⟩
  case loss =>
    intro s n cls losing calm closed ready lost noQueue noAbort
    obtain ⟨u, gone, noLaunch, queues, held, ctxs⟩ := State.endLaunches_keeps (s.postLost n.toNat) n.toNat
    have aside := State.aside_postLost s n.toNat
    have empty : u.ctxQueues n.toNat = [] :=
      State.ctxQueues_of_none ((queues.trans (State.queues_of_aside aside)).symm ▸ noQueue)
    have noAbort' : ∀ r ∈ u.objHeld, r.op ≠ 2 := (held.trans (State.objHeld_of_aside aside)).symm ▸ noAbort
    have ends := State.lossStep_ends (w := u) (by rw [losing]; rfl) calm closed ready gone (by rw [empty]; rfl)
      (by simp [empty]) noAbort'
    obtain ⟨posted, st, -⟩ := State.ctx_postLost s n.toNat
    have ctx : u.ctx n.toNat = (s.postLost n.toNat).ctx n.toNat := congrArg (fun m => m.get {} n.toNat) ctxs
    refine ⟨s.lossStep n.toNat, rfl, ?_⟩
    rw [ends, State.ctx_setCtx, ctx]
    exact ⟨rfl, posted, st.trans lost, noLaunch⟩
  case walk =>
    intro s u w n q cls losing calm closed ready gone one walked one' stopping noAbort
    refine congrArg (fun t : State => Host.Outcome.next t.objNext)
      (State.lossStep_ends (by rw [losing]; rfl) calm closed ready gone ?_ ?_ noAbort)
    · rw [one, State.walkAll, walked]
      rfl
    · rw [one']
      simpa using stopping

end Sys2Proof.Machine
end

section
/-!
PROOFS. One step of the block (spec/95_what_each_step_holds.md).
-/
namespace Sys2Proof.Machine

/-- Settles O1: the step looks at the queue and at nothing else. -/
theorem stepRunsTheFrontCommand : Obligations.StepRunsTheFrontCommand := by
  refine ⟨fun c cs s queued => ?_, fun s empty => ?_⟩
  · simp only [step, queued]
  · simp only [step, empty]

/-- A command on a die that the build has takes its effect (R2). -/
theorem onDie_next {s : State} {d : DieId} (h : s.hasDie d = true) (t : State) : onDie s d t = .next t := if_pos h

namespace State

theorem setDie_setDie (s : State) (d : DieId) (v x : Die) : (s.setDie d v).setDie d x = s.setDie d x := by
  simp only [setDie, SMap.put_put_same]

theorem setLink_setLink (s : State) (l : LinkId) (v x : Link) : (s.setLink l v).setLink l x = s.setLink l x := by
  simp only [setLink, SMap.put_put_same]

theorem setSteward_setSteward (s : State) (d : DieId) (v x : Steward) :
    (s.setSteward d v).setSteward d x = s.setSteward d x := by
  simp only [setSteward, SMap.put_put_same]

theorem setNet_setNet (s : State) (d : DieId) (v x : NetTime) : (s.setNet d v).setNet d x = s.setNet d x := by
  simp only [setNet, SMap.put_put_same]

end State

end Sys2Proof.Machine
end

section
/-!
PROOFS. Flits over a Mitten link: bad and good ones, what a good one brings, and the replay (15_multi_die_links.md, R311, R313,
R314).
-/
namespace Sys2Proof.Machine

/-- A link that has taken the ACK and the credits that a flit carries (R313, R314). -/
def Link.acked (k : Link) (f : Flit) : Link :=
  let last := f.ack.getD 1024
  { k with
    held := if k.held.any (fun h => decide (h.1.seq = last)) then
        (k.held.dropWhile fun h => decide (h.1.seq ≠ last)).drop 1
      else k.held
    credits := k.credits.mapIdx fun i n => n + f.cret.getD i 0 }

/-- A link that has taken a flit in order for its own die: its buffer is free again (R313, R314). -/
def Link.took (k : Link) (f : Flit) : Link :=
  Link.acked { k with rxSeq := (k.rxSeq + 1) % 1024, free := bump k.free (f.buffer.getD 6) 1 } f

/-- A link whose replay begins now, for the first time within 1,000 counts (R316). -/
def Link.replaying (k : Link) (now : Nat) : Link :=
  { k with replayAt := [now], replays := satInc k.replays, hmReplays := k.hmReplays + 1 }

/-- A link whose held flits have gone out again (R313). -/
def Link.resent (k : Link) (now count : Nat) : Link := { k with held := k.held.map fun h => (h.1, now, h.2.2 + count) }

namespace State

/-! ### What arrives at a receiver -/

section
variable {s : State} {l : LinkId} {f : Flit} {rest : List Flit}

theorem flit_bad {raw : List Byte} (active : (s.link l).st = .active) (given : raw ≠ []) (bad : flitBad raw = true)
    (wire : (s.link l).wire = f :: rest) (busy : f.body ≠ .idle) :
    s.flit l raw = (s.setLink l { s.link l with
      wire := rest, nakDue := true, crcErrors := satInc (s.link l).crcErrors }).reply l := by
  simp [flit, active, given, bad, wire, busy]

/-- With no bytes given, the flit at the end of the wire arrives as it was sent. -/
theorem flit_sent (active : (s.link l).st = .active) (wire : (s.link l).wire = f :: rest) :
    s.flit l [] = (s.setLink l { s.link l with wire := rest }).goodFlit l f := by
  simp [flit, active, wire]

theorem goodFlit_outOfOrder (busy : f.body ≠ .idle) (order : f.seq ≠ (s.link l).rxSeq) : s.goodFlit l f = s.reply l := by
  simp [goodFlit, busy, order]

theorem takeAck_good (good : f.nak = none) : s.takeAck l f = s.setLink l ((s.link l).acked f) := by
  simp only [takeAck, good, Option.isSome_none, Bool.false_eq_true, if_false]
  rfl

theorem goodFlit_own (busy : f.body ≠ .idle) (order : f.seq = (s.link l).rxSeq) (own : f.dst = l.die.val)
    (good : f.nak = none) :
    s.goodFlit l f = ((s.setLink l ((s.link l).took f)).consume l f).reply l := by
  simp only [goodFlit, busy, order, own, if_false, if_true, ne_eq, not_true_eq_false]
  rw [takeAck_good good, link_setLink, setLink_setLink]
  rfl

/-- The state in which a flit in order for the die of the link has been taken off the wire. -/
def taken (s : State) (l : LinkId) (f : Flit) (rest : List Flit) : State :=
  s.setLink l (Link.took { s.link l with wire := rest } f)

/-- A flit in order for the die is consumed there, and answered (R313). -/
theorem flit_own (active : (s.link l).st = .active) (wire : (s.link l).wire = f :: rest) (busy : f.body ≠ .idle)
    (order : f.seq = (s.link l).rxSeq) (own : f.dst = l.die.val) (good : f.nak = none) :
    s.flit l [] = ((s.taken l f rest).consume l f).reply l := by
  rw [flit_sent active wire, goodFlit_own busy (by simpa using order) own good, link_setLink, setLink_setLink]
  rfl

theorem link_taken : (s.taken l f rest).link l = Link.took { s.link l with wire := rest } f := link_setLink ..

/-- The request of another die that a full write becomes at its destination (R302). -/
def writeOf (f : Flit) (d : DieId) (bs : List Byte) : Req where
  owner := .remote f.src f.tag
  die := d
  partition := f.partition
  ctx := f.ctx
  queue := 0
  va := f.addr
  pa := f.addr
  write := true
  data := (List.range 64).map fun i => (i, bs.getD i 0)
  ahead := f.ahead
  fromDie := some f.src

/-- The bytes of a full write, each at its place (R311). -/
theorem maskedData_allOnes (bs : List Byte) :
    maskedData bs (BitVec.allOnes 64) = (List.range 64).map fun i => (i, bs.getD i 0) := by
  have all : (List.range 64).filter (fun i => bitAt (BitVec.allOnes 64).toNat i) = List.range 64 := by decide
  rw [maskedData, all]

theorem consume_write {bs : List Byte} (body : f.body = .wr bs) : s.consume l f = s.addReq (writeOf f l.die bs) := by
  simp only [consume, body, serveRemote, maskedData_allOnes]
  rfl

theorem find?_addReq (s : State) (r : Req) : (s.addReq r).reqs.find? s.reqNext = some r := SMap.find?_put_same ..

/-- A control message that no unit of the link consumes arrives at its die (R311). -/
theorem consume_message {m : Msg} (body : f.body = .ctl m) (sem : ∀ c g, m ≠ .semAns c g) (first : ∀ b, m ≠ .distA b)
    (second : ∀ b, m ≠ .distB b) (topo : ∀ e n far, m ≠ .topology e n far) :
    s.consume l f = s.deliverMsg f.src l.die.val m := by
  simp only [consume, body]
  cases m with
  | semAns c g => exact absurd rfl (sem c g)
  | distA b => exact absurd rfl (first b)
  | distB b => exact absurd rfl (second b)
  | topology e n far => exact absurd rfl (topo e n far)
  | _ => rfl

theorem msgAt_deliverMsg (s : State) (src dst : Nat) (m : Msg) :
    (s.deliverMsg src dst m).msgAt s.msgNext = some (dst, src, m) := SMap.find?_put_same ..

end

/-! ### The replay -/

section
variable {s : State} {l : LinkId}

/-- A link of which only held flits and replays differ leads to the same far end. -/
theorem farEnd_setLink {k : Link} (die : k.farDie = (s.link l).farDie) (link : k.farLink = (s.link l).farLink) :
    (s.setLink l k).farEnd l = s.farEnd l := by
  simp only [farEnd, link_setLink, die, link]

theorem resend_other (far : s.farEnd l ≠ l) (count : Nat) :
    s.resend l count = (s.setLink l ((s.link l).resent (s.die l.die).ticks count)).setLink (s.farEnd l)
      { s.link (s.farEnd l) with wire := (s.link (s.farEnd l)).wire ++ (s.link l).held.map (·.1) } := by
  unfold resend
  dsimp only
  rw [farEnd_setLink (by rfl) (by rfl), link_setLink_other _ _ _ _ far]
  rfl

/-- The first replay of a link within 1,000 counts, of flits that have gone out at most three times: the link stays ACTIVE
(R313, R316). -/
theorem replayHeld_first (first : (s.link l).replayAt = []) (held : (s.link l).held ≠ [])
    (few : ∀ x ∈ (s.link l).held, x.2.2 < 3) (far : s.farEnd l ≠ l) :
    s.replayHeld l =
      (s.setLink l (Link.resent ((s.link l).replaying (s.die l.die).ticks) (s.die l.die).ticks 1)).setLink (s.farEnd l)
        { s.link (s.farEnd l) with wire := (s.link (s.farEnd l)).wire ++ (s.link l).held.map (·.1) } := by
  have resends := resend_other (s := s.setLink l ((s.link l).replaying (s.die l.die).ticks)) (l := l)
    (by rwa [farEnd_setLink (by rfl) (by rfl)]) 1
  rw [farEnd_setLink (by rfl) (by rfl), link_setLink_other _ _ _ _ far, link_setLink, setLink_setLink] at resends
  have calm : ((s.link l).held.map fun h => (h.1, (s.die l.die).ticks, h.2.2 + 1)).any
      (fun h => decide (4 ≤ h.2.2)) = false := by
    simpa using fun a b c hm => few _ hm
  simp only [replayHeld, List.isEmpty_eq_false_iff.mpr held, first, List.filter_nil, List.nil_append, List.length_singleton,
    Bool.false_eq_true, if_false]
  refine (if_neg ?_).trans resends
  change ¬(8 ≤ 1 ∨ (((s.setLink l ((s.link l).replaying (s.die l.die).ticks)).resend l 1).link l).held.any
    (fun h => decide (4 ≤ h.2.2)) = true)
  rw [resends, link_setLink_other _ _ _ _ far.symm, link_setLink]
  exact not_or.mpr ⟨by decide, (Bool.not_eq_true _).mpr calm⟩

end

end State

/-- Settles O48: a flit that is bad or out of order is discarded, one in order for the die is consumed there, and a replay sends
every held flit again. -/
theorem linksCarryFlits : Obligations.LinksCarryFlits := by
  unfold Obligations.LinksCarryFlits
  refine ⟨?bad, ?outOfOrder, ?write, ?message, ?firstHalf, ?secondHalf, ?replay⟩
  case bad =>
    intro s l raw f rest here active given bad wire busy
    refine ⟨_, (onDie_next here _).trans (congrArg _ (State.flit_bad active given bad wire busy)), ?_⟩
    simp
  case outOfOrder =>
    intro s l f rest here active wire busy order
    refine (onDie_next here _).trans (congrArg _ ?_)
    rw [State.flit_sent active wire, State.goodFlit_outOfOrder busy (by simpa using order)]
  case write =>
    intro s l f rest bs here active wire body order own good
    have busy : f.body ≠ .idle := by simp [body]
    refine ⟨_, State.writeOf f l.die bs,
      (onDie_next here _).trans (congrArg _ (State.flit_own active wire busy order own good)), ?_⟩
    rw [State.consume_write body]
    exact ⟨congrArg Link.rxSeq State.link_taken, congrArg Link.wire State.link_taken,
      State.find?_addReq (s.taken l f rest) (State.writeOf f l.die bs), rfl, rfl, rfl, rfl,
      rfl, rfl, rfl⟩
  case message =>
    intro s l f rest m here active wire body sem first second topo order own good
    have busy : f.body ≠ .idle := by simp [body]
    refine ⟨_, (onDie_next here _).trans (congrArg _ (State.flit_own active wire busy order own good)), ?_⟩
    rw [State.consume_message body sem first second topo]
    exact ⟨congrArg Link.rxSeq State.link_taken, State.msgAt_deliverMsg (s.taken l f rest) ..⟩
  case firstHalf =>
    intro s l f rest half here active wire body order own good
    have busy : f.body ≠ .idle := by simp [body]
    refine ⟨_, (onDie_next here _).trans (congrArg _ (State.flit_own active wire busy order own good)), ?_⟩
    simp only [State.consume, State.consumeMsg, body]
    exact ⟨congrArg Link.rxSeq State.link_taken, by simp, rfl⟩
  case secondHalf =>
    intro s l f rest half half' here active wire body order own good held
    have busy : f.body ≠ .idle := by simp [body]
    have known : ((s.taken l f rest).die l.die).distHalf.get [] f.src = half := by
      change (s.die l.die).distHalf.get [] f.src = half
      simp [SMap.get, held]
    refine ⟨_, (onDie_next here _).trans (congrArg _ (State.flit_own active wire busy order own good)), ?_⟩
    simp only [State.consume, State.consumeMsg, body, known]
    exact ⟨congrArg Link.rxSeq State.link_taken, State.msgAt_deliverMsg ((s.taken l f rest).setDie _ _) ..⟩
  case replay =>
    intro s l h rest here active held due first few far
    have replays := State.replayHeld_first (s := s) (l := l) first (by simp [held]) (by rwa [held]) far
    have sent : s.ackTimeout l = s.replayHeld l := by simp [State.ackTimeout, held, active, due]
    have near := (congrArg (State.link · l) replays).trans
      ((State.link_setLink_other _ _ _ _ far.symm).trans (State.link_setLink ..))
    refine ⟨_, (onDie_next here _).trans (congrArg _ sent), ?_⟩
    refine ⟨(congrArg Link.replays near).trans rfl, (congrArg Link.st near).trans active, ?_, ?_⟩
    · exact (congrArg Link.held near).trans (by simp [Link.resent, Link.replaying, held])
    · rw [replays, State.link_setLink, held]

end Sys2Proof.Machine
end

section
/-!
PROOFS. The training of a Mitten link, its failure, and the announcements of a die (15_multi_die_links.md, R316 to R318, R462,
R482).
-/
namespace Sys2Proof.Machine

/-! ### The lanes -/

/-- The sum of the powers of two of the numbers below a bound that pass a test: the number whose bits are the test's answers. -/
theorem testBit_sum_two_pow (p : Nat → Bool) (m : Nat) :
    let w := ((List.range m).filter p).foldl (fun w i => w + 2 ^ i) 0
    w < 2 ^ m ∧ ∀ n, w.testBit n = (decide (n < m) && p n) := by
  induction m with
  | zero => simp
  | succ m ih =>
    obtain ⟨below, bits⟩ := ih
    rw [List.range_succ, List.filter_append, List.foldl_append]
    generalize ((List.range m).filter p).foldl (fun w i => w + 2 ^ i) 0 = w at below bits ⊢
    cases hp : p m
    case false =>
      simp only [List.filter_cons, hp, Bool.false_eq_true, if_false, List.filter_nil, List.foldl_nil]
      refine ⟨below.trans (Nat.pow_lt_pow_right Nat.one_lt_two m.lt_succ_self), fun n => ?_⟩
      rw [bits]
      rcases Nat.lt_trichotomy n m with h | rfl | h
      · simp [h, Nat.lt_succ_of_lt h]
      · simp [hp]
      · simp [Nat.not_lt.mpr (Nat.le_of_lt h), Nat.not_lt.mpr h]
    case true =>
      simp only [List.filter_cons, hp, if_true, List.filter_nil, List.foldl_cons, List.foldl_nil]
      have sum : w + 2 ^ m = 2 ^ m * 1 ||| w := by
        rw [Nat.add_comm, ← Nat.two_pow_add_eq_or_of_lt below 1, Nat.mul_one]
      refine ⟨by rw [Nat.pow_succ]; omega, fun n => ?_⟩
      rw [sum, Nat.mul_one, Nat.testBit_or, Nat.testBit_two_pow, bits]
      rcases Nat.lt_trichotomy n m with h | rfl | h
      · simp [h, Nat.lt_succ_of_lt h, Nat.ne_of_gt h]
      · simp [hp]
      · simp [Nat.not_lt.mpr (Nat.le_of_lt h), Nat.not_lt.mpr h, Nat.ne_of_lt h]

theorem eraseDups_of_nodup {l : List Nat} (h : l.Nodup) : l.eraseDups = l := by
  induction l with
  | nil => rfl
  | cons a l ih =>
    obtain ⟨fresh, rest⟩ := List.nodup_cons.mp h
    rw [List.eraseDups_cons, List.filter_eq_self.mpr, ih rest]
    intro b hb
    simpa using fun same : b = a => fresh (same ▸ hb)

/-- A mask of 48 bits made from a test of lane numbers holds the test's answers. -/
theorem bitAt_maskOf (p : Nat → Bool) {n : Nat} (lane : n < 48) :
    bitAt (maskOf 48 ((List.range 48).filter p)).toNat n = p n := by
  obtain ⟨below, bits⟩ := testBit_sum_two_pow p 48
  rw [maskOf, eraseDups_of_nodup (List.nodup_range.filter _), bitAt, BitVec.toNat_ofNat, Nat.mod_eq_of_lt below, bits]
  simp [lane]

/-- Two values of a list that are each more than half of it are the same. -/
theorem majority_unique {α : Type} [BEq α] [LawfulBEq α] {l : List α} {a b : α} (ha : l.length < 2 * l.count a)
    (hb : l.length < 2 * l.count b) : a = b := by
  by_contra differ
  have disjoint : l.count a + l.count b ≤ l.length := by
    clear ha hb
    induction l with
    | nil => simp
    | cons x l ih =>
      have apart : ¬((x == a) = true ∧ (x == b) = true) := fun h => differ ((eq_of_beq h.1).symm.trans (eq_of_beq h.2))
      simp only [List.count_cons, List.length_cons]
      split <;> split
      · exact absurd ⟨‹_›, ‹_›⟩ apart
      all_goals omega
  omega

/-- The far side that the majority of the lanes carries is the one that is found (R317). -/
theorem find?_majority {α : Type} [BEq α] [LawfulBEq α] {l : List α} {a : α} (ha : l.length < 2 * l.count a) :
    (l.find? fun x => decide (l.length < 2 * l.count x)) = some a := by
  cases found : l.find? fun x => decide (l.length < 2 * l.count x) with
  | none =>
    have member : a ∈ l := List.count_pos_iff.mp (by omega)
    exact absurd ha (by simpa using List.find?_eq_none.mp found a member)
  | some b => rw [majority_unique ha (by simpa using List.find?_some found)]

/-- A state that differs from another in the records of stewards only. -/
def OnlyStewards (s t : State) : Prop := ∃ k, t = { s with stewards := k }

namespace OnlyStewards

variable {s t : State}

theorem refl (s : State) : OnlyStewards s s := ⟨s.stewards, rfl⟩

theorem setSteward (h : OnlyStewards s t) (d : DieId) (v : Steward) : OnlyStewards s (t.setSteward d v) := by
  obtain ⟨k, rfl⟩ := h
  exact ⟨_, rfl⟩

theorem eventRecord (h : OnlyStewards s t) (d : DieId) (code info : Nat) : OnlyStewards s (t.eventRecord d code info) := by
  have fresh (k : Steward) : OnlyStewards s (State.eventRecord.fresh t d code info k) := (h.setSteward d _).setSteward d _
  unfold State.eventRecord
  dsimp only
  split
  · split
    · exact h.setSteward d _
    · exact fresh _
  · exact fresh _

/-- The report of a fault (R380, R421). -/
theorem report (h : OnlyStewards s t) (d : DieId) (code info : Nat) : OnlyStewards s (t.report d code info) := by
  unfold State.report
  dsimp only
  split <;> split
  · exact (h.setSteward d _).eventRecord ..
  · exact h.eventRecord ..
  · exact h.setSteward d _
  · exact h

end OnlyStewards

namespace State

/-! ### Records of links, and reports -/

theorem link_setLink_ite (s : State) (l x : LinkId) (v : Link) :
    (s.setLink l v).link x = if x = l then v else s.link x := by
  split
  next same => rw [same, link_setLink]
  next other => exact link_setLink_other _ _ _ _ other

theorem link_report (s : State) (d : DieId) (code info : Nat) (l : LinkId) : (s.report d code info).link l = s.link l := by
  obtain ⟨k, hk⟩ := (OnlyStewards.refl s).report d code info
  rw [hk]
  rfl

/-! ### The failure of a link -/

theorem st_freeVia (s : State) (d : DieId) (f : Flit) (l : LinkId) : ((s.freeVia d f).link l).st = (s.link l).st := by
  have idle (t : State) (k : LinkId) : ((t.sendIdle k).link l).st = (t.link l).st := by
    simp only [sendIdle]
    split
    · rfl
    · simp only [link_setLink_ite]
      split
      next same =>
        rw [← same]
        split
        next here => rw [here]
        next => rfl
      next =>
        split
        next same => rw [same]
        next => rfl
  unfold freeVia
  split
  · rfl
  · rw [idle, link_setLink_ite]
    split
    next same => rw [same]
    next => rfl

/-- A link without requests under way that fails reads FAILED (R320). -/
theorem st_failLink {s : State} {l : LinkId} (idle : (s.link l).e2e = {}) : ((s.failLink l).link l).st = .failed := by
  simp only [failLink, idle, SMap.values, List.map_nil, List.foldl_nil]
  refine List.foldlRecOn (s.link l).waiting _ (motive := fun t : State => (t.link l).st = .failed) ?_ ?_
  · rw [link_setLink]
  · exact fun t failed f _ => (st_freeVia t l.die f l).trans failed

/-- A link that fails in training reads FAILED, and F-1502 sets its CAUSE bit (R316, Table 19-3). -/
theorem linkFailed_fails {s : State} {l : LinkId} (idle : (s.link l).e2e = {}) :
    ((s.linkFailed l).link l).st = .failed ∧ bitAt ((s.linkFailed l).steward l.die).safety.causes.toNat 7 = true := by
  refine ⟨?_, (safety_report _ _ _ (by rfl) (by decide)).1⟩
  rw [linkFailed, link_report, st_failLink idle]

end State

/-! ### The steps of a training -/

namespace State

section
variable {s : State} {l : LinkId}

theorem phyReady_down (down : (s.link l).st = .down) (on : (s.link l).enabled = true) :
    s.phyReady l = s.setLink l { (s.link l).toStep .ident (s.die l.die).ticks with
      phyReady := true, trainAt := (s.die l.die).ticks, restarts := 0 } := by
  simp only [phyReady, startTraining, link_setLink, down, on, setLink_die_of, setLink_setLink, decide_true, Bool.and_self, if_true]
  simp [Link.toStep, down, on]

/-- An ACTIVE link whose PHY is not ready any more, in RETRAIN: what it held stays, and the credits that IDLE flits on their way
carry are not lost (R316). -/
theorem phyFall_active (active : (s.link l).st = .active) :
    s.phyFall l = (s.setLink l { s.link l with phyReady := false }).retrain l := by
  simp [phyFall, active]

/-- Credits that come back only add to what a link holds. -/
theorem credits_grow (idle : List Flit) (credits : List Nat) (i : Nat) :
    credits.getD i 0 ≤ (idle.foldl (fun c f => c.mapIdx fun i n => n + f.cret.getD i 0) credits).getD i 0 := by
  induction idle generalizing credits with
  | nil => exact Nat.le_refl _
  | cons f idle ih =>
    refine Nat.le_trans ?_ (ih _)
    rw [List.getD_eq_getElem?_getD, List.getD_eq_getElem?_getD, List.getElem?_mapIdx]
    cases credits[i]? with
    | none => exact Nat.le_refl _
    | some n => exact Nat.le_add_right ..

theorem identComplete_ready {lanes : List LaneSeen} (st : (s.link l).st = .ident) (step : (s.link l).step = .ident)
    (ready : (s.link l).phyReady = true) (all : lanes.length = 48) :
    ((s.identComplete l lanes).link l).st = .report ∧ ((s.identComplete l lanes).link l).step = .report ∧
      ((s.identComplete l lanes).link l).retired = maskOf 48 ((List.range 48).filter fun n =>
        !decide ((lanes.map laneVerdict).countP (fun v => decide (v.map (·.1) = some n)) = 1)) := by
  simp [identComplete, Link.training, Link.toStep, st, step, ready, all]

/-- A link that has heard its far end, and its lanes in order (R317). -/
def Link.hears (k : Link) (far : BitVec 48) (fd : Fin 8) (fl : Fin 4) : Link :=
  { k with farRetired := far, farDie := fd.val, farLink := fl.val, heard := true, rxLanes := logicalLanes k.retired,
           txLanes := logicalLanes far }

/-- What REPORT comes to, once the majority of the lanes carries the same far side (R316 to R318). -/
theorem reportComplete_majority {rs : List (BitVec 48)} {ds : List (Fin 8)} {ls : List (Fin 4)} {far : BitVec 48} {fd : Fin 8}
    {fl : Fin 4} (st : (s.link l).st = .report) (step : (s.link l).step = .report)
    (most : (rs.zip (ds.zip ls)).length < 2 * (rs.zip (ds.zip ls)).count (far, fd, fl)) :
    s.reportComplete l rs ds ls =
      let t := s.setLink l (Link.hears (s.link l) far fd fl)
      if fd.val = (s.die l.die).number then (t.failLink l).topologyConflict l.die fd.val
      else if 2 < popcount 48 (s.link l).retired.toNat ∨ 2 < popcount 48 far.toNat then t.linkFailed l
      else t.setLink l ((t.link l).toStep .align (s.die l.die).ticks) := by
  have guard : (!((s.link l).training && decide ((s.link l).step = .report))) = false := by simp [Link.training, st, step]
  simp only [reportComplete, guard, find?_majority most, Bool.false_eq_true, if_false]
  rfl

/-- A far die of the same number is a conflict: F-1505 asks for the safe state (R318). -/
theorem topologyConflict_notes (far : Nat) :
    ((s.topologyConflict l.die far).die l.die).linkConflict = true ∧
      ((s.topologyConflict l.die far).steward l.die).safety.ssrLatch = true := by
  refine ⟨by simp [topologyConflict], ?_⟩
  exact (safety_report s l.die far (code := 0x1505) (by rfl) (by decide)).2.trans (Bool.or_true _)

theorem phaseTimeout_again (training : (s.link l).training = true) (few : (s.link l).restarts < 2)
    (late : 20 ≤ (s.die l.die).ticks - (s.link l).phaseAt) :
    s.phaseTimeout l = s.setLink l { (s.link l).toStep .ident (s.die l.die).ticks with restarts := (s.link l).restarts + 1 } := by
  simp [phaseTimeout, training, Nat.not_lt.mpr late, Nat.not_le.mpr few]

theorem phaseTimeout_third (training : (s.link l).training = true) (third : 2 ≤ (s.link l).restarts)
    (late : 20 ≤ (s.die l.die).ticks - (s.link l).phaseAt) : s.phaseTimeout l = s.linkFailed l := by
  simp [phaseTimeout, training, Nat.not_lt.mpr late, third]

theorem trainTimeout_training (links : (s.die l.die).stage = .links)
    (late : 5000000 ≤ s.since l.die (s.die l.die).stageAt) (training : (s.link l).training = true) :
    s.trainTimeout l = s.linkFailed l := by
  refine if_pos ⟨links, late, ?_⟩
  cases st : (s.link l).st <;> simp [Link.training, st] at training ⊢

/-- The link is ACTIVE again, and the flits that it holds go out (R316). -/
theorem alignComplete_aligned (st : (s.link l).st = .align) (step : (s.link l).step = .align) :
    ∃ t, OnlyStewards (s.setLink l { s.link l with st := .active }) t ∧
      s.alignComplete l = ((t.resend l 0).pump l).pumpDie l.die := by
  have guard : (!((s.link l).training && decide ((s.link l).step = .align))) = false := by simp [Link.training, st, step]
  unfold alignComplete
  simp only [guard, Bool.false_eq_true, if_false]
  refine ⟨_, ?_, rfl⟩
  exact List.foldlRecOn _ _ (motive := OnlyStewards _) (.refl _) fun t only lane _ => only.report ..

theorem st_resend (count : Nat) : ((s.resend l count).link l).st = (s.link l).st := by
  simp only [resend]
  rw [link_setLink_ite]
  split
  next here => rw [← here, link_setLink]
  next => rw [link_setLink]

/-! ### Announcements -/

theorem announce_released {d : DieId} (on : (s.die d).stage ≠ .held) :
    ∃ k, k.topology = (s.die d).topology.put d.val (s.farDies d) ∧
      k.topologyNo = (s.die d).topologyNo.put d.val ((s.die d).topologyNo.get 0 d.val + 1) ∧
      s.announce d = ((s.setDie d k).tellAll d ((s.setDie d k).die d).topology.entries).computeRoutes d :=
  ⟨_, rfl, rfl, if_neg on⟩

/-- A newer announcement of another die is kept, and goes on (R318). -/
theorem learn_newer {d : DieId} {die no : Nat} {far : List Nat} (other : die ≠ d.val)
    (newer : (s.die d).topologyNo.get 0 die < no) :
    s.learn d die no far = ((s.setDie d { s.die d with
      topology := (s.die d).topology.put die far, topologyNo := (s.die d).topologyNo.put die no }).tellAll d
        [(die, far)]).computeRoutes d := by
  simp [learn, other, Nat.not_le.mpr newer]

end

end State

/-- Settles O49: each step of a training, its time-out and its failure, and how an announcement spreads. -/
theorem linksTrain : Obligations.LinksTrain := by
  unfold Obligations.LinksTrain
  refine ⟨?ready, ?fall, ?ident, ?report, ?retired, ?conflict, ?align, ?again, ?third, ?startUp, ?announce, ?learn⟩
  case ready =>
    intro s l here down on
    refine ⟨_, (onDie_next here _).trans (congrArg _ (State.phyReady_down down on)), ?_⟩
    simp [Link.toStep, down]
  case fall =>
    intro s l here active
    refine ⟨_, (onDie_next here _).trans (congrArg _ (State.phyFall_active active)), ?_⟩
    simp only [State.retrain, State.link_setLink, true_and, and_true]
    refine ⟨fun i => State.credits_grow _ _ i, fun busy => ?_⟩
    have none : (s.link l).wire.filter (fun f => decide (f.body = .idle)) = [] :=
      List.filter_eq_nil_iff.mpr fun f hf => by simpa using busy f hf
    rw [none]
    rfl
  case ident =>
    intro s l lanes here st step ready all
    obtain ⟨report, next, retired⟩ := State.identComplete_ready st step ready all
    refine ⟨_, onDie_next here _, report, next, fun n lane => ?_⟩
    rw [retired, bitAt_maskOf _ lane, decide_not]
  case report =>
    intro s l rs ds ls far fd fl here st step most other near away
    refine ⟨_, (onDie_next here _).trans (congrArg _ (State.reportComplete_majority st step most)), ?_⟩
    simp [other, Nat.not_lt.mpr near, Nat.not_lt.mpr away, State.Link.hears, Link.toStep, st]
  case retired =>
    intro s l rs ds ls far fd fl here st step most other many idle
    refine ⟨_, (onDie_next here _).trans (congrArg _ (State.reportComplete_majority st step most)), ?_⟩
    simp only [other, many, true_or, if_true, if_false]
    exact State.linkFailed_fails (by rw [State.link_setLink]; exact idle)
  case conflict =>
    intro s l rs ds ls far fd fl here st step most same idle
    refine ⟨_, (onDie_next here _).trans (congrArg _ (State.reportComplete_majority st step most)), ?_⟩
    simp only [same, if_true]
    refine ⟨?_, State.topologyConflict_notes _⟩
    rw [State.topologyConflict, State.setDie_link_of, State.link_report]
    exact State.st_failLink (by rw [State.link_setLink]; exact idle)
  case align =>
    intro s l here st step
    obtain ⟨t, ⟨k, only⟩, row⟩ := State.alignComplete_aligned st step
    refine ⟨t.resend l 0, (onDie_next here _).trans (congrArg _ row), ?_, by rw [only]; rfl⟩
    rw [State.st_resend, only]
    exact congrArg Link.st (State.link_setLink ..)
  case again =>
    intro s l here training few late
    refine ⟨_, (onDie_next here _).trans (congrArg _ (State.phaseTimeout_again training few late)), ?_⟩
    rw [State.link_setLink]
    refine ⟨rfl, rfl, ?_⟩
    by_cases again : (s.link l).st = .retrain <;> simp [Link.toStep, Link.training, again]
  case third =>
    intro s l here training third late idle
    exact ⟨_, (onDie_next here _).trans (congrArg _ (State.phaseTimeout_third training third late)),
      (State.linkFailed_fails idle).1⟩
  case startUp =>
    intro s l here links late training idle
    exact ⟨_, (onDie_next here _).trans (congrArg _ (State.trainTimeout_training links late training)),
      (State.linkFailed_fails idle).1⟩
  case announce =>
    intro s d here on
    obtain ⟨k, topology, number, row⟩ := State.announce_released on
    refine ⟨s.setDie d k, (onDie_next here _).trans (congrArg _ row), ?_⟩
    simp [topology, number]
  case learn =>
    intro s l f rest die no far here active wire body order own good other newer
    have busy : f.body ≠ .idle := by simp [body]
    have learns : (s.taken l f rest).consume l f = _ :=
      (by simp only [State.consume, body, State.consumeMsg] :
        (s.taken l f rest).consume l f = (s.taken l f rest).learn l.die die no far).trans (State.learn_newer other newer)
    refine ⟨_, (onDie_next here _).trans (congrArg _ ((State.flit_own active wire busy order own good).trans
      (congrArg (State.reply · l) learns))), ?_⟩
    simp

end Sys2Proof.Machine
end

section
/-!
PROOFS. Translation service: the end of a walk, faults that wait for a slot, the driver's answers and the replay
(14_translation.md, R282, R285, R289 to R294).
-/
namespace Sys2Proof.Machine

/-! ### Samples, and writes of the host driver -/

/-- A state that differs from another in the monitors, and in the free values drawn for them, only. -/
def OnlySampled (s t : State) : Prop := ∃ m n, t = { s with monitors := m, freeNext := n }

namespace OnlySampled

variable {s t : State}

theorem refl (s : State) : OnlySampled s s := ⟨s.monitors, s.freeNext, rfl⟩

theorem setMonitor (h : OnlySampled s t) (d : DieId) (i : Nat) (v : Monitor) : OnlySampled s (t.setMonitor d i v) := by
  obtain ⟨m, n, rfl⟩ := h
  exact ⟨_, _, rfl⟩

theorem draw (h : OnlySampled s t) : OnlySampled s t.draw.2 := by
  obtain ⟨m, n, rfl⟩ := h
  exact ⟨_, _, rfl⟩

theorem ite {c : Prop} [Decidable c] {a b : State} (ha : OnlySampled s a) (hb : OnlySampled s b) :
    OnlySampled s (if c then a else b) := by
  split <;> assumption

theorem hmTake (h : OnlySampled s t) (d : DieId) (i : Nat) (v : W32) : OnlySampled s (t.hmTake d i v) :=
  ite (h.setMonitor ..) (ite (ite (h.draw.setMonitor ..) (h.draw.setMonitor ..)) (h.setMonitor ..))

/-- An event of a source for the monitors of a die (R447). -/
theorem hmEvent (h : OnlySampled s t) (d : DieId) (src : Nat) (sel : Nat → Bool) (v : W32) :
    OnlySampled s (t.hmEvent d src sel v) := by
  exact List.foldlRecOn (List.range 32) _ (motive := OnlySampled s) h fun u only i _ => ite (only.hmTake d i v) only

end OnlySampled

namespace State

/-- A write of the host driver at the open Crown port takes effect (R459, R488). -/
theorem driverWrite_driver {s : State} {role strb : Byte} {m : W64} (driver : roleOf role = some .driver)
    (opened : s.crownOpen = true) (strobe : strobes strb = some m) (act : W64 → State) :
    s.driverWrite role strb act = (act m).crownOk := by
  simp [driverWrite, strobe, opened, driver]

/-- A write without a 1 in a reserved bit notes nothing (R8). -/
theorem rsvdWrite_plain {s : State} {v m rsv : W64} (d : DieId) (plain : v &&& m &&& rsv = 0) : s.rsvdWrite d v m rsv = s :=
  if_pos plain

/-! ### The end of a walk -/

section
variable {s t : State} {d : DieId} {n : Nat} {w : Walk}

/-- The reads of a walk change no object and no memory (R280, R282). -/
theorem objects_tableWalk (s : State) (d : DieId) (o : Owner) (p pa count va : Nat) :
    (s.tableWalk d o p pa count va).1.objects = s.objects := by
  unfold tableWalk
  dsimp only
  split
  · rfl
  next i _ =>
    have reads := objects_busRead s d o p 0xFFFF va (pa + 32 * i) 32 noRange true
    split
    next h => exact objects_of_eq h reads
    next _ _ h => exact objects_of_eq h reads

theorem walkEnd_wait (runs : (s.die d).walks[n]? = some w)
    (read : s.tableWalk d (walkOwner w) w.partition w.tablePa w.count w.va = (t, .wait)) : s.walkEnd d n = t := by
  rw [walkOwner] at read
  simp only [walkEnd, runs, read]

theorem walkEnd_found {e : RangeEnt} {o : Owner} {va acc ctx : Nat} (runs : (s.die d).walks[n]? = some w)
    (one : w.waiters = [(o, va, acc, ctx)]) (clear : w.spans = [])
    (read : s.tableWalk d (walkOwner w) w.partition w.tablePa w.count w.va = (t, .found e)) :
    s.walkEnd d n = (((walkOver t d n w).install d o e).goOn o).nextWalks d
      ((((walkOver t d n w).install d o e).goOn o).die d).walkWait.length := by
  rw [walkOwner] at read
  simp only [walkEnd, runs, read, one, clear, List.any_nil, Bool.false_eq_true, if_false, List.foldl_cons, List.foldl_nil]
  rfl

theorem walkEnd_fault {c : FaultCause} {a : Owner × Nat × Nat × Nat} (runs : (s.die d).walks[n]? = some w)
    (one : w.waiters = [a])
    (read : s.tableWalk d (walkOwner w) w.partition w.tablePa w.count w.va = (t, .fault c)) :
    s.walkEnd d n = ((walkOver t d n w).walkFault d w (t.walkAbove d w) c a).nextWalks d
      (((walkOver t d n w).walkFault d w (t.walkAbove d w) c a).die d).walkWait.length := by
  rw [walkOwner] at read
  simp only [walkEnd, runs, read, one, List.foldl_cons, List.foldl_nil]
  rfl

/-- A unit's own access that misses takes the entry into its range buffer; a pre-translation does not (R158, R284). -/
theorem bufs_install {o : Owner} (e : RangeEnt) (access : o.isPin = false) :
    ((s.install d o e).die d).bufs.get [] o.bufKey =
      bufInsert ((s.die d).bufs.get [] o.bufKey) e (s.die d).useNext := by
  cases o with
  | pin q => exact absurd access (by simp [Owner.isPin])
  | _ => simp [install]

theorem walkFault_access {o : Owner} (above : Nat) (c : FaultCause) (va acc ctx : Nat) (access : o.isPin = false) :
    s.walkFault d w above c (o, va, acc, ctx) = s.faultAccess d c 0 o w.partition ctx va (Access.ofBits acc) := by
  cases o with
  | pin q => exact absurd access (by simp [Owner.isPin])
  | _ => rfl

/-- The end of a walk leaves the die's range buffers and fault queue as they were. -/
theorem walkOver_keeps (t : State) (d : DieId) (n : Nat) (w : Walk) :
    ((walkOver t d n w).die d).bufs = (t.die d).bufs ∧ ((walkOver t d n w).die d).useNext = (t.die d).useNext ∧
      ((walkOver t d n w).die d).fq = (t.die d).fq ∧ ((walkOver t d n w).die d).pinMiss = (t.die d).pinMiss := by
  simp [walkOver, busDone]

end

/-! ### Faults that wait -/

/-- The record of a fault that is posted now (R290). -/
def faultRec (s : State) (d : DieId) (w : FqWait) : FqRec :=
  { cause := w.cause, access := w.access, partition := w.partition, ctx := w.ctx, va := w.va,
    accs := [(w.owner, w.va, w.access, w.ctx)], count := 1, range := if FaultCause.isPage w.cause then 0 else w.range,
    seq := (s.die d).fqSeq, time := (s.die d).count }

theorem die_postFault (s : State) (d : DieId) (i : Nat) (w : FqWait) :
    (s.postFault d i w).die d =
      { s.die d with fq := (s.die d).fq.put i (s.faultRec d w), fqSeq := (s.die d).fqSeq + 1 } :=
  die_setDie ..

theorem postDeferred_free {s : State} {d : DieId} {i : Nat} {w : FqWait} {rest : List FqWait}
    (waits : (s.die d).fqWait = w :: rest) (free : s.freeSlot d = some i)
    (alone : s.mergeSlot d w.cause w.partition w.va w.range = none) :
    s.postDeferred d = (s.setDie d { s.die d with fqWait := rest }).postFault d i w := by
  simp only [postDeferred, waits, free, alone]

/-! ### The driver's answers -/

section
variable {s : State} {role strb : Byte} {d : DieId} {v m : W64} (h : Answers s role strb d v m)
include h

/-- A write of FQ_RESP is the answer that it carries (R292). -/
theorem fqRow_answers {action : Nat} (row : fqAction v.toNat = action) :
    s.fqRow action role strb d v = (s.fqAnswer d v.toNat).crownOk := by
  simp only [fqRow, row, h.die, ne_eq, not_true_eq_false, if_false, Bool.not_true, Bool.false_eq_true]
  rw [driverWrite_driver h.role' h.open' h.strobe]
  simp only [rsvdWrite_plain d h.plain, h.covers, if_true]

end

section
variable {s : State} {d : DieId} {v : Nat} {r : FqRec}

/-- The state in which the slot of an answered record is free, and the monitors of a fault's latency have their sample. -/
def slotFreed (s : State) (d : DieId) (v : Nat) (r : FqRec) : State :=
  let k := s.die d
  let t := s.setDie d { k with fq := k.fq.erase (fqSlot v) }
  if r.hot then t else t.hmEvent d 2 (fun n => decide (n = 0)) (sampleOf (k.count - r.time).toNat)

theorem slotFreed_only (s : State) (d : DieId) (v : Nat) (r : FqRec) :
    OnlySampled (s.setDie d { s.die d with fq := (s.die d).fq.erase (fqSlot v) }) (s.slotFreed d v r) := by
  unfold slotFreed
  dsimp only
  split
  · exact .refl _
  · exact (OnlySampled.refl _).hmEvent ..

theorem die_slotFreed : (s.slotFreed d v r).die d = { s.die d with fq := (s.die d).fq.erase (fqSlot v) } := by
  obtain ⟨m, n, only⟩ := slotFreed_only s d v r
  rw [only]
  exact die_setDie ..

theorem fqAnswer_retry (named : s.answered d v = some r) (action : fqAction v = 1) :
    s.fqAnswer d v = (s.slotFreed d v r).setDie d { (s.slotFreed d v r).die d with
      replays := ((s.slotFreed d v r).die d).replays ++ r.accs } := by
  simp only [fqAnswer, named, action]
  rfl

theorem fqAnswer_fail {a : Owner × Nat × Nat × Nat} (named : s.answered d v = some r) (action : fqAction v = 2)
    (one : r.accs = [a]) : s.fqAnswer d v = failAccess (s.slotFreed d v r) (s.slotFreed d v r) d a := by
  simp only [fqAnswer, named, action, one]
  rfl

theorem fqAnswer_ack (named : s.answered d v = some r) (action : fqAction v = 3) : s.fqAnswer d v = s.slotFreed d v r := by
  simp only [fqAnswer, named, action]
  rfl

end

end State

/-- Settles O46: the end of a walk by its result, a fault that takes a free slot, and each answer of the driver. -/
theorem translationFaultsAreServed : Obligations.TranslationFaultsAreServed := by
  unfold Obligations.TranslationFaultsAreServed
  refine ⟨?found, ?fault, ?pin, ?wait, ?deferred, ?retry, ?fail, ?ack, ?unnamed, ?replay⟩
  case found =>
    intro s t d n va acc ctx o w e here runs one access clear read
    obtain ⟨bufs, stamp, -, -⟩ := State.walkOver_keeps t d n w
    refine ⟨_, (onDie_next here _).trans (congrArg _ (State.walkEnd_found runs one clear read)), rfl, ?_, ?_⟩
    · rw [State.bufs_install e access, bufs, stamp]
    · have mem : t.mem = s.mem := State.mem_of_objects (State.objects_of_eq read (State.objects_tableWalk ..))
      exact mem
  case fault =>
    intro s t d n va acc ctx o w c here runs one access read
    refine ⟨_, (onDie_next here _).trans (congrArg _ (State.walkEnd_fault runs one read)), ?_⟩
    exact State.walkFault_access _ c va acc ctx access
  case pin =>
    intro s t d n va acc ctx q w c here runs one read
    obtain ⟨-, -, queue, notes⟩ := State.walkOver_keeps t d n w
    refine ⟨_, (onDie_next here _).trans (congrArg _ (State.walkEnd_fault runs one read)), ?_⟩
    simp only [State.walkFault, State.die_setDie, notes, queue, and_self]
  case wait =>
    intro s t d n w here runs read
    exact (onDie_next here _).trans (congrArg _ (State.walkEnd_wait runs read))
  case deferred =>
    intro s d i w rest here waits free alone
    refine ⟨_, s.faultRec d w, (onDie_next here _).trans (congrArg _ (State.postDeferred_free waits free alone)), ?_⟩
    simp only [State.die_postFault, State.die_setDie]
    exact ⟨by simp [State.faultRec], rfl, rfl, rfl, rfl, rfl, rfl, rfl, trivial, trivial⟩
  case retry =>
    intro s role strb d v m r h action named
    have row := (State.fqRow_answers h action).trans (congrArg State.crownOk (State.fqAnswer_retry named action))
    obtain ⟨k, n, only⟩ := State.slotFreed_only s d v.toNat r
    refine ⟨_, congrArg Host.Outcome.next row, ?_⟩
    have die : ∀ u : State, u.crownOk.die d = u.die d := fun _ => rfl
    rw [die, State.die_setDie, State.die_slotFreed]
    exact ⟨SMap.find?_erase_same .., rfl, rfl, by rw [only]; rfl, by rw [only]; rfl⟩
  case fail =>
    intro s role strb d v m r k va acc ctx h action named one
    have row := (State.fqRow_answers h action).trans (congrArg State.crownOk (State.fqAnswer_fail named action one))
    obtain ⟨l, n, only⟩ := State.slotFreed_only s d v.toNat r
    have cores : (s.slotFreed d v.toNat r).cores = s.cores := by rw [only]; rfl
    refine ⟨s.slotFreed d v.toNat r, (congrArg Host.Outcome.next row).trans ?_, ?_, cores⟩
    · simp only [State.failAccess, State.core, cores]
    · rw [State.die_slotFreed]
      exact SMap.find?_erase_same ..
  case ack =>
    intro s role strb d v m r h action named
    have row := (State.fqRow_answers h action).trans (congrArg State.crownOk (State.fqAnswer_ack named action))
    have die : (s.slotFreed d v.toNat r).crownOk.die d = _ := State.die_slotFreed (s := s) (d := d) (v := v.toNat) (r := r)
    refine ⟨_, congrArg Host.Outcome.next row, ?_⟩
    rw [die]
    exact ⟨SMap.find?_erase_same .., rfl, rfl⟩
  case unnamed =>
    intro s role strb d v m h action unnamed
    exact congrArg Host.Outcome.next ((State.fqRow_answers h action).trans (by simp only [State.fqAnswer, unnamed]))
  case replay =>
    intro s d n k va acc ctx here waits
    exact (onDie_next here _).trans (congrArg _ (by simp only [State.replay, waits, State.goOn]))

end Sys2Proof.Machine
end

section
/-!
SUPPORT. What reports, messages and requests on their way leave alone: of a die they touch the Cuffs, the remote counters, the
fault queue and the accesses under way, of a steward the safety outputs and the journal, which only ever gain causes; beside that
only links, messages, requests and interrupt messages change, and no array is recorded as failed (R167, R273, R303, R308 to
R315, R380, R421).
-/
namespace Sys2Proof.Machine

/-- A die without what the transport of messages and requests touches: two dies that agree in it agree in every other field. -/
def Die.still (k : Die) : Die :=
  { k with cuff := {}, cuffLast := {}, cuffAt := {}, cuffReq := {}, l2 := [], fq := {}, fqSeq := 0, hotSkip := false, bus := [] }

/-- A state without what the transport of messages and requests touches. -/
def State.still (s : State) : State :=
  { s with dies := {}, links := {}, stewards := {}, msgs := {}, msgNext := 0, reqs := {}, reqNext := 0, im := {} }

/-- From one state to another only messages and requests have moved, and faults have been reported. -/
structure Carries (s t : State) : Prop where
  other : t.still = s.still
  die : ∀ d, (t.die d).still = (s.die d).still
  cause : ∀ d b, bitAt (s.steward d).safety.causes.toNat b = true → bitAt (t.steward d).safety.causes.toNat b = true
  latch : ∀ d, (s.steward d).safety.ssrLatch = true → (t.steward d).safety.ssrLatch = true
  failed : ∀ d, (t.steward d).failedArrays = (s.steward d).failedArrays

namespace Carries

variable {s t u : State}

theorem refl (s : State) : Carries s s := ⟨rfl, fun _ => rfl, fun _ _ h => h, fun _ h => h, fun _ => rfl⟩

theorem trans (h : Carries s t) (h' : Carries t u) : Carries s u :=
  ⟨h'.other.trans h.other, fun d => (h'.die d).trans (h.die d), fun d b c => h'.cause d b (h.cause d b c),
    fun d c => h'.latch d (h.latch d c), fun d => (h'.failed d).trans (h.failed d)⟩

theorem of_eq {β : Type} {p : State × β} {b : β} (e : p = (t, b)) (h : Carries s p.1) : Carries s t := by
  subst e
  exact h

theorem foldl {α : Type} {f : State → α → State} (k : ∀ u a, Carries u (f u a)) (l : List α) (h : Carries s t) :
    Carries s (l.foldl f t) :=
  List.foldlRecOn l f (motive := Carries s) h fun u h a _ => h.trans (k u a)

theorem foldl_fst {α β : Type} {f : State × β → α → State × β} (k : ∀ p a, Carries p.1 (f p a).1) (l : List α) (p : State × β)
    (h : Carries s p.1) : Carries s (l.foldl f p).1 :=
  List.foldlRecOn l f (motive := fun p => Carries s p.1) h fun p h a _ => h.trans (k p a)

/-- A state whose other fields, dies and stewards are another's. -/
theorem of_same (h : Carries s t) (other : u.still = t.still) (dies : u.dies = t.dies) (stewards : u.stewards = t.stewards) :
    Carries s u := by
  have die (d : DieId) : u.die d = t.die d := congrArg (fun m : SMap Die => m.get {} d.val) dies
  have steward (d : DieId) : u.steward d = t.steward d := congrArg (fun m : SMap Steward => m.get {} d.val) stewards
  exact h.trans ⟨other, fun d => by rw [die], fun d b h => by rwa [steward], fun d h => by rwa [steward],
    fun d => by rw [steward]⟩

theorem setDie (d : DieId) {v : Die} (h : Carries s t) (same : v.still = (t.die d).still) : Carries s (t.setDie d v) := by
  refine h.trans ⟨rfl, fun e => ?_, fun _ _ h => h, fun _ h => h, fun _ => rfl⟩
  by_cases here : e = d
  · rw [here, State.die_setDie, same]
  · rw [State.die_setDie_other _ _ _ _ here]

theorem setSteward (d : DieId) {v : Steward} (h : Carries s t)
    (cause : ∀ b, bitAt (t.steward d).safety.causes.toNat b = true → bitAt v.safety.causes.toNat b = true)
    (latch : (t.steward d).safety.ssrLatch = true → v.safety.ssrLatch = true)
    (failed : v.failedArrays = (t.steward d).failedArrays) : Carries s (t.setSteward d v) := by
  refine h.trans ⟨rfl, fun _ => rfl, fun e b h => ?_, fun e h => ?_, fun e => ?_⟩
  · by_cases here : e = d
    · subst here
      rw [State.steward_setSteward]
      exact cause b h
    · rwa [State.steward_setSteward_other _ _ _ _ here]
  · by_cases here : e = d
    · subst here
      rw [State.steward_setSteward]
      exact latch h
    · rwa [State.steward_setSteward_other _ _ _ _ here]
  · by_cases here : e = d
    · rw [here, State.steward_setSteward, failed]
    · rw [State.steward_setSteward_other _ _ _ _ here]

/-- A steward may change in all but its safety outputs and its failed arrays. -/
theorem setSteward_safety (d : DieId) {v : Steward} (h : Carries s t) (same : v.safety = (t.steward d).safety)
    (failed : v.failedArrays = (t.steward d).failedArrays) : Carries s (t.setSteward d v) :=
  setSteward d h (fun _ c => by rwa [same]) (fun c => by rwa [same]) failed

theorem setLink (l : LinkId) {v : Link} (h : Carries s t) : Carries s (t.setLink l v) := of_same h rfl rfl rfl

theorem addReq (r : Req) (h : Carries s t) : Carries s (t.addReq r) := of_same h rfl rfl rfl

/-! Fields that the transport leaves alone. -/

section
variable (h : Carries s t)
include h

theorem ctxs : t.ctxs = s.ctxs := (congrArg State.ctxs h.other :)
theorem launches : t.launches = s.launches := (congrArg State.launches h.other :)
theorem mem : t.mem = s.mem := (congrArg State.mem h.other :)
theorem ctx (n : Nat) : t.ctx n = s.ctx n := congrArg (fun m : SMap Ctx => m.get {} n) h.ctxs

end

/-! Faults reported to a steward (R380, R381, R421). -/

section
variable (s : State) (d : DieId)

theorem setCause (bitNo code : Nat) (ssr : Bool) : Carries s (s.setCause d bitNo code ssr) := by
  refine setSteward d (refl s) (fun b h => ?_) (fun h => ?_) rfl
  · rw [bitAt] at h
    show bitAt ((s.steward d).safety.causes ||| BitVec.ofNat 13 (2 ^ bitNo)).toNat b = true
    rw [bitAt, BitVec.toNat_or, Nat.testBit_or, h, Bool.true_or]
  · exact (congrArg (· || ssr) h).trans (Bool.true_or _)

theorem eventRecord (code info : Nat) : Carries s (s.eventRecord d code info) := by
  have fresh (k : Steward) (same : k.safety = (s.steward d).safety) (failed : k.failedArrays = (s.steward d).failedArrays) :
      Carries s (State.eventRecord.fresh s d code info k) :=
    setSteward_safety d (setSteward_safety d (refl s) same failed) rfl rfl
  unfold State.eventRecord
  dsimp only
  split
  · split
    · exact setSteward_safety d (refl s) rfl rfl
    · exact fresh _ rfl rfl
  · exact fresh _ rfl rfl

theorem report (code info : Nat) : Carries s (s.report d code info) := by
  unfold State.report
  dsimp only
  split <;> split
  · exact (setCause ..).trans (eventRecord ..)
  · exact eventRecord ..
  · exact setCause ..
  · exact refl s

/-! The Cuffs (R167, R273). -/

theorem cuffRefill (path n : Nat) : Carries s (s.cuffRefill d path n) := by
  refine foldl (fun u p => ?_) _ (setDie d (refl s) rfl)
  split
  · exact setDie d (refl u) rfl
  · exact refl u

theorem setCuffB (path p : Nat) (v : Int) : Carries s (s.setCuffB d path p v) := setDie d (refl s) rfl

theorem cuffTake (path p n : Nat) (ahead : Bool) : Carries s (s.cuffTake d path p n ahead) := by
  unfold State.cuffTake
  dsimp only
  split
  · exact refl s
  have filled : Carries s _ := (cuffRefill s d path (s.cuffSlots d path - 1)).trans (cuffRefill _ d path n)
  split
  · exact filled.trans (setCuffB ..)
  · exact setDie d (filled.trans (setCuffB ..)) rfl

theorem cuffSlot (path : Nat) (ready : List Nat) : Carries s (s.cuffSlot d path ready).1 := by
  have filled := cuffRefill s d path (s.cuffSlots d path)
  have serve (u : State) (p : Nat) : Carries u (u.setDie d { u.die d with cuffLast := (u.die d).cuffLast.put path p }) :=
    setDie d (refl u) rfl
  unfold State.cuffSlot
  dsimp only
  generalize s.cuffRefill d path (s.cuffSlots d path) = t at filled ⊢
  split
  · exact (filled.trans (setCuffB ..)).trans (serve ..)
  · exact (filled.trans (setCuffB ..)).trans (serve ..)
  · split
    · exact filled.trans (serve ..)
    · exact filled

end

/-! The transmitter of a link (R311 to R315). -/

section
variable (s : State) (l : LinkId)

theorem nextRequest (p : Nat) (reqs : List Flit) : Carries s (s.nextRequest l p reqs).1 := by
  unfold State.nextRequest
  dsimp only
  split
  · exact refl s
  · exact setDie _ (refl s) rfl

theorem nextFlit : Carries s (s.nextFlit l).1 := by
  unfold State.nextFlit
  dsimp only
  split
  · split
    · dsimp only
      exact cuffTake ..
    · exact refl s
  split
  · exact refl s
  split
  · dsimp only
    exact cuffTake ..
  split
  · exact refl s
  split
  next h => exact (of_eq h (cuffSlot ..)).trans (nextRequest ..)
  next h => exact of_eq h (cuffSlot ..)

theorem sendIdle : Carries s (s.sendIdle l) := by
  unfold State.sendIdle
  dsimp only
  split
  · exact refl s
  · exact setLink _ (setLink l (refl s))

theorem freeVia (d : DieId) (f : Flit) : Carries s (s.freeVia d f) := by
  unfold State.freeVia
  split
  · exact refl s
  · exact (setLink _ (refl s)).trans (sendIdle ..)

theorem stampSent (d : DieId) (f : Flit) : Carries s (s.stampSent d f) := by
  unfold State.stampSent
  split
  · exact refl s
  split
  · exact refl s
  split
  · exact of_same (refl s) rfl rfl rfl
  · exact refl s

theorem pumpOne : Carries s (s.pumpOne l) := by
  unfold State.pumpOne
  dsimp only
  split
  · exact refl s
  split
  next h => exact of_eq h (nextFlit s l)
  next h =>
    refine .trans (.trans ?_ (stampSent ..)) (freeVia ..)
    exact setLink _ (setLink l (of_eq h (nextFlit s l)))

theorem pumpN (n : Nat) : Carries s (s.pumpN l n) := by
  induction n generalizing s with
  | zero => exact refl s
  | succ n ih => exact (pumpOne s l).trans (ih _)

theorem enqueueFlit (f : Flit) : Carries s (s.enqueueFlit l f) := by
  unfold State.enqueueFlit State.pump
  exact trans (setLink l (refl s)) (pumpN ..)

end

theorem sendMsg (s : State) (src dst : DieId) (m : Msg) : Carries s (s.sendMsg src dst m) := by
  unfold State.sendMsg
  split
  · exact of_same (refl s) rfl rfl rfl
  split
  · exact report ..
  · exact foldl (fun u m => enqueueFlit u _ _) _ (refl s)

/-! Requests to memory (R284 to R291, R303, R455). -/

section
variable (s : State) (d : DieId)

theorem postRecord (slot : Nat) (r : FqRec) : Carries s (s.postRecord d slot r) :=
  of_same (setDie d (refl s) (by rfl)) rfl rfl rfl

theorem hotCount (partition ctx range n : Nat) : Carries s (s.hotCount d partition ctx range n) := by
  unfold State.hotCount
  dsimp only
  split
  · exact refl s
  split
  · exact refl s
  split
  · exact setDie d (refl s) rfl
  split
  · split
    · exact trans (setDie d (refl s) (by rfl)) (postRecord ..)
    · exact setDie d (refl s) rfl
  · exact setDie d (setDie d (refl s) rfl) rfl

theorem sendReq (r : Req) : Carries s (s.sendReq d r).1 := by
  unfold State.sendReq
  dsimp only
  split
  · exact of_same (refl s) rfl rfl rfl
  split
  · exact refl s
  split
  · dsimp only
    exact report ..
  split
  · exact refl s
  split
  · exact refl s
  · exact foldl (fun u f => enqueueFlit u _ f) _ (addReq _ (setLink _ (hotCount ..)))

theorem busAccess (partition ctx range : Nat) (ahead : Bool) (b : BusAcc) :
    Carries s (s.busAccess d partition ctx range ahead b).1 := by
  unfold State.busAccess
  dsimp only
  split
  · exact refl s
  refine setDie d (foldl_fst (fun p i => ?_) _ _ (refl s)) rfl
  split
  · exact refl p.1
  split
  next e => exact of_eq e (sendReq ..)
  next => exact refl p.1
  next e => exact of_same (of_eq e (sendReq ..)) rfl rfl rfl

theorem busRead (o : Owner) (partition ctx va pa n range : Nat) (ahead : Bool) :
    Carries s (s.busRead d o partition ctx va pa n range ahead).1 := busAccess ..

theorem busDone (o : Owner) : Carries s (s.busDone d o) := setDie d (refl s) rfl

end
end Carries
end Sys2Proof.Machine
end

section
/-! PROOFS. Roots, segment blocks and invalidations (O47). -/
namespace Sys2Proof.Machine

namespace Carries

theorem segsRead (s : State) (d : DieId) (ctx why : Nat) : Carries s (s.segsRead d ctx why).1 := by
  unfold State.segsRead
  split
  · exact refl s
  split
  next e => exact of_eq e (busRead ..)
  next e => exact of_eq e (busRead ..)

theorem readSegs {s u : State} {d : DieId} {ctx why : Nat} {r : BusRes} (read : s.readSegs d ctx why = (u, r)) : Carries s u :=
  of_eq read (busRead ..)

end Carries

namespace State

variable {s t u : State} {d : DieId}

theorem mem_allDies (here : s.hasDie d = true) : d ∈ s.allDies :=
  List.mem_map.mpr ⟨d.val, List.mem_range.mpr (of_decide_eq_true here), dieOf_val d⟩

/-! ### The HOT period and the roots -/

theorem hotPeriodEnd_over (ended : 100 * max 1 (s.die d).hotPeriod.toNat ≤ s.since d (s.die d).hotAt) :
    s.hotPeriodEnd d = s.setDie d { s.die d with
      l2 := (s.die d).l2.map fun e => { e with hot := 0, hotPosted := false }, hotAt := (s.die d).ticks } :=
  if_neg (Nat.not_lt.mpr ended)

theorem mergeW_allOnes (old new : W64) : mergeW old new (BitVec.allOnes 64) = new := by
  have all : old &&& ~~~BitVec.allOnes 64 = 0#64 := by rw [BitVec.not_allOnes, BitVec.and_zero]
  rw [mergeW, all, BitVec.and_allOnes, BitVec.zero_or]

/-- The root that a write of a partition's low half makes (R279). -/
def rootOf (s : State) (p : Fin 16) (v : W64) : BitVec 128 :=
  BitVec.ofNat 64 ((s.partRoot.get 0 p.val).toNat / 2 ^ 64) ++ (v &&& ~~~rootRsvLow)

/-- A root of a partition is copied to each of a list of dies. -/
def copyRoot (s : State) (p : Nat) (new : BitVec 128) (l : List DieId) : State :=
  l.foldl (fun s d => s.setDie d { s.die d with roots := (s.die d).roots.setD 0 p new }) s

theorem copyRoot_onlyDies (s : State) (p : Nat) (new : BitVec 128) (l : List DieId) : OnlyDies s (s.copyRoot p new l) :=
  OnlyDies.foldl (fun _ _ h => h.setDie _) l (.refl s)

/-- A die that has the root keeps it, and each die of the list gets it. -/
theorem roots_copyRoot (s : State) (p : Nat) (new : BitVec 128) (l : List DieId) (d : DieId)
    (h : d ∈ l ∨ (s.die d).roots.get 0 p = new) : ((s.copyRoot p new l).die d).roots.get 0 p = new := by
  induction l generalizing s with
  | nil => simpa [copyRoot] using h
  | cons e l ih =>
    refine ih _ ?_
    by_cases same : d = e
    · subst same
      exact .inr (by simp)
    · rw [die_setDie_other _ _ _ _ same]
      simpa [same] using h

section
variable {role : Byte} {p : Fin 16} {v : W64} (driver : roleOf role = some .driver) (opened : s.crownOpen = true)
include driver opened

theorem rootWrite_commit (mode : rootMode (s.rootOf p v) ≠ 3) :
    s.rootWrite role 0xFF p false v =
      (copyRoot { s.rsvdWrite die0 v (BitVec.allOnes 64) rootRsvLow with
        partRoot := s.partRoot.setD 0 p.val (s.rootOf p v), rootInval := s.rootInval.setD false p.val false } p.val
        (s.rootOf p v) s.allDies).crownOk := by
  have bit : bitAt (BitVec.allOnes 64).toNat 63 = true := by decide
  have noted : (s.rsvdWrite die0 v (BitVec.allOnes 64) rootRsvLow).partRoot = s.partRoot ∧
      (s.rsvdWrite die0 v (BitVec.allOnes 64) rootRsvLow).rootInval = s.rootInval ∧
      (s.rsvdWrite die0 v (BitVec.allOnes 64) rootRsvLow).build = s.build := by
    unfold rsvdWrite
    split <;> exact ⟨rfl, rfl, rfl⟩
  obtain ⟨root, inval, build⟩ := noted
  rw [rootOf] at mode
  rw [rootWrite, driverWrite_driver driver opened rfl]
  simp only [bit, mergeW_allOnes, mode, Bool.not_false, Bool.true_and, decide_false, Bool.false_eq_true, if_false, if_true,
    root, inval, rootOf, copyRoot, allDies, build]

theorem rootWrite_ignored (mode : rootMode (s.rootOf p v) = 3) :
    s.rootWrite role 0xFF p false v = (s.setDie die0 { s.die die0 with rsvdWrite := true }).crownOk := by
  have bit : bitAt (BitVec.allOnes 64).toNat 63 = true := by decide
  rw [rootOf] at mode
  rw [rootWrite, driverWrite_driver driver opened rfl]
  simp only [bit, mergeW_allOnes, Bool.false_eq_true, if_false, mode, Bool.not_false, Bool.true_and, decide_true, if_true]

end

/-! ### Segment blocks -/

section
variable {n : Nat} {why : Nat} (table : rootMode ((s.die d).roots.get 0 (s.ctx n).partition) = 2)
  (slot : (s.slotOf d n).isSome = true)
include table slot

theorem loadSegs_wait (read : s.readSegs d n why = (u, .wait)) : s.loadSegs d n why = u := by
  have held : (s.slotOf d n).isNone = false := by simpa using slot
  simp only [loadSegs, table, held, ne_eq, not_true_eq_false, Bool.false_eq_true, or_self, if_false, read]

theorem loadSegs_bad {blk : List Byte} {i : Nat} (read : s.readSegs d n why = (u, .ok blk)) (bad : segBad blk = some i) :
    s.loadSegs d n why = (u.busDone d (.segs n why)).lose d n 0x1403 1 (.outside 0x1403 i) := by
  have held : (s.slotOf d n).isNone = false := by simpa using slot
  simp only [loadSegs, table, held, ne_eq, not_true_eq_false, Bool.false_eq_true, or_self, if_false, read, bad]

theorem loadSegs_good {blk : List Byte} (read : s.readSegs d n why = (u, .ok blk)) (good : segBad blk = none) :
    s.loadSegs d n why = (u.busDone d (.segs n why)).setDie d { (u.busDone d (.segs n why)).die d with
      slots := ((u.busDone d (.segs n why)).die d).slots.map fun x => if x.ctx = n then { x with segs := blk } else x
      bufs := ((u.busDone d (.segs n why)).die d).bufs.mapVals fun l => l.filter fun e => decide (e.seg ≠ some n) } := by
  have held : (s.slotOf d n).isNone = false := by simpa using slot
  simp only [loadSegs, table, held, ne_eq, not_true_eq_false, Bool.false_eq_true, or_self, if_false, read, good]

/-- A slot takes the segment block that was read for its context (R299). -/
theorem slotOf_loadSegs {blk : List Byte} (read : s.readSegs d n why = (u, .ok blk)) (good : segBad blk = none) :
    ((s.loadSegs d n why).slotOf d n).map (·.segs) = some blk ∧ (s.loadSegs d n why).mem = s.mem := by
  have slots : (u.die d).slots = (s.die d).slots := (congrArg Die.slots ((Carries.readSegs read).die d) :)
  have kept : (u.slotOf d n).isSome = true := by rwa [slotOf, slots]
  obtain ⟨x, held⟩ := Option.isSome_iff_exists.mp kept
  have mine : x.ctx = n := by simpa using List.find?_some held
  have keeps : ((fun x : Slot => decide (x.ctx = n)) ∘ fun x : Slot => if x.ctx = n then { x with segs := blk } else x) =
      fun x => decide (x.ctx = n) := by
    funext x
    by_cases h : x.ctx = n <;> simp [h]
  rw [loadSegs_good table slot read good]
  refine ⟨?_, (Carries.readSegs read).mem⟩
  rw [slotOf] at held
  rw [slotOf, die_setDie, List.find?_map, keeps, busDone, die_setDie, held]
  simp [mine]

end

/-! ### Invalidations -/

/-- The contexts' slots of a partition on a die. -/
def slotsOf (s : State) (d : DieId) (p : Nat) : List Slot :=
  (s.die d).slots.filter fun x => decide ((s.ctx x.ctx).partition = p)

/-- The segment blocks of some slots' contexts are read; true when each of them has been. -/
def segsReads (s : State) (d : DieId) (why : Nat) (l : List Slot) : State × Bool :=
  l.foldl (fun (acc : State × Bool) x => ((acc.1.segsRead d x.ctx why).1, acc.2 && (acc.1.segsRead d x.ctx why).2)) (s, true)

theorem segsReads_carries (s : State) (d : DieId) (why : Nat) (l : List Slot) : Carries s (s.segsReads d why l).1 := by
  refine Carries.foldl_fst (fun p x => ?_) l (s, true) (.refl s)
  exact Carries.segsRead ..

section
variable {m r q p base len : Nat} (msg : s.msgAt m = some (d.val, r, .inval q p base len)) (runs : s.cpRuns d = true)
include msg runs

theorem invalidate_waits (due : (s.segsReads d (m + 1) (s.slotsOf d p)).2 = false) :
    s.invalidate m = (s.segsReads d (m + 1) (s.slotsOf d p)).1 := by
  simp only [segsReads, slotsOf] at due
  simp only [invalidate, msg, dieOf_val, runs, due, Bool.not_true, Bool.not_false, Bool.false_eq_true, if_false, if_true]
  rfl

/-- A translation that an invalidation leaves (R296). -/
def Spared (p base n : Nat) (e : RangeEnt) : Bool := !(decide (e.partition = p) && e.overlaps base n)

/-- Once the segment blocks have been read, only the die's record changes, and then they are loaded. -/
theorem invalidate_removes (done : (s.segsReads d (m + 1) (s.slotsOf d p)).2 = true)
    (read : (s.segsReads d (m + 1) (s.slotsOf d p)).1 = u) : ∃ (k : Die) (ns fs : List Nat),
    s.invalidate m = (s.slotsOf d p).foldl (fun t x => t.loadSegs d x.ctx (m + 1)) ((u.takeMsg m).setDie d k) ∧
      k.l2 = (u.die d).l2.filter (Spared p base (if len = 0 then 2 ^ 64 else len)) ∧
      k.bufs = (u.die d).bufs.mapVals (·.filter (Spared p base (if len = 0 then 2 ^ 64 else len))) ∧
      k.invals = (u.die d).invals ++ [(q, p, ns, fs)] := by
  subst read
  simp only [segsReads, slotsOf] at done
  simp only [invalidate, msg, dieOf_val, runs, done, Bool.not_true, Bool.false_eq_true, if_false, withdraw, setDie_setDie,
    die_setDie]
  exact ⟨_, _, _, rfl, rfl, rfl, rfl⟩

end

theorem not_overlaps_of_spared {p base n : Nat} {e : RangeEnt} (spared : Spared p base n e = true) (mine : e.partition = p) :
    e.overlaps base n = false := by
  simpa [Spared, mine] using spared

/-! ### Acknowledgements -/

/-- The last acknowledgement completes the INVAL (R296). -/
theorem invalAck_last {q : QueueId} (waits : (s.queue q).wait = .inval [d.val]) (runs : (s.queue q).stopping = none) :
    ∃ u : State, s.invalAck q d = u.cmdDone q 32 ∧ u.qTbl = s.qTbl ∧ u.mem = s.mem ∧ u.queue q = s.queue q := by
  simp only [invalAck, waits, runs, ne_eq, not_true_eq_false, decide_false, List.filter_cons, List.filter_nil, Bool.false_eq_true,
    if_false, List.isEmpty_nil, Bool.not_true, Option.isSome_none]
  split
  · exact ⟨_, rfl, rfl, rfl, rfl⟩
  · exact ⟨s, rfl, rfl, rfl, rfl⟩

theorem invalAck_more {q : QueueId} {e : DieId} (other : d ≠ e) (waits : (s.queue q).wait = .inval [d.val, e.val]) :
    s.invalAck q d = s.setQueue q { s.queue q with wait := .inval [e.val] } := by
  have differ : e.val ≠ d.val := fun h => other (Fin.ext h.symm)
  simp [invalAck, waits, differ]

theorem invalAckRow_arrives {q : QueueId} {m r : Nat} (runs : s.cpRuns q.die = true)
    (msg : s.msgFor (.invalAck q.key d.val) = some (m, r)) : s.invalAckRow d q = (s.takeMsg m).invalAck q d := by
  simp only [invalAckRow, msg, runs, if_true]

/-- The home die, with nothing left to wait for, acknowledges its own invalidation. -/
theorem invalAckRow_own {q : QueueId} {e : Nat × Nat × List Nat × List Nat} (runs : s.cpRuns q.die = true)
    (unsent : s.msgFor (.invalAck q.key q.die.val) = none)
    (found : ((s.die q.die).invals.find? fun e => decide (e.1 = q.key)) = some e)
    (answered : ∀ n ∈ e.2.2.1, s.reqs.find? n = none)
    (signalled : ∀ n ∈ e.2.2.2, ∀ f, s.fences.find? n = some f → f.pa = none ∨ f.result ≠ none) :
    s.invalAckRow q.die q =
      (s.setDie q.die { s.die q.die with invals := (s.die q.die).invals.erase e }).invalAck q q.die := by
  have noReq : (e.2.2.1.any fun n => (s.reqs.find? n).isSome) = false := by
    rw [List.any_eq_false]
    intro n listed
    rw [answered n listed]
    decide
  have noSignal : (e.2.2.2.any fun n => ((s.fences.find? n).map fun f => f.pa.isSome && f.result.isNone).getD false) =
      false := by
    rw [List.any_eq_false]
    intro n listed flies
    cases held : s.fences.find? n with
    | none => simp [held] at flies
    | some f =>
      rcases signalled n listed f held with pa | result
      · simp [held, pa] at flies
      · simp [held, result] at flies
  simp only [invalAckRow, unsent, found, runs, noReq, noSignal, Bool.not_true, Bool.or_self, Bool.false_eq_true, if_false,
    if_true]

end State

/-- Settles O47: reads of segment blocks leave a die's slots and invalidations alone, so that each clause is one case of its
operation; a root reaches each die of the package in turn. -/
theorem rootsAndInvalidation : Obligations.RootsAndInvalidation := by
  unfold Obligations.RootsAndInvalidation
  refine ⟨?hot, ?commit, ?ignored, ?load, ?bad, ?wait, ?inval, ?last, ?more⟩
  case hot =>
    intro s d here ended
    refine ⟨_, (onDie_next here _).trans (congrArg _ (State.hotPeriodEnd_over ended)), fun e found => ?_, ?_, ?_⟩
    · rw [State.die_setDie] at found
      obtain ⟨x, -, rfl⟩ := List.mem_map.mp found
      exact ⟨rfl, rfl⟩
    · rw [State.die_setDie]
    · rw [State.die_setDie]
  case commit =>
    intro s role p v new driver opened root mode
    subst root
    refine ⟨_, congrArg Host.Outcome.next (State.rootWrite_commit driver opened mode), ?_⟩
    obtain ⟨k, copied⟩ := State.copyRoot_onlyDies { s.rsvdWrite State.die0 v (BitVec.allOnes 64) rootRsvLow with
        partRoot := s.partRoot.setD 0 p.val (s.rootOf p v), rootInval := s.rootInval.setD false p.val false } p.val
        (s.rootOf p v) s.allDies
    refine ⟨?_, fun d here => State.roots_copyRoot _ _ _ _ d (.inl (State.mem_allDies here)), rfl, ?_⟩
    · rw [copied]
      exact SMap.get_setD_same ..
    · rw [copied]
      show (s.rsvdWrite State.die0 v (BitVec.allOnes 64) rootRsvLow).mem = s.mem
      unfold State.rsvdWrite
      split <;> rfl
  case ignored =>
    intro s role p v driver opened mode
    refine ⟨_, congrArg Host.Outcome.next (State.rootWrite_ignored driver opened mode), rfl, ?_, fun d => ?_⟩
    · show ((s.setDie _ _).die _).rsvdWrite = true
      rw [State.die_setDie]
    · show ((s.setDie _ _).die d).roots = _
      by_cases zero : d = State.die0
      · rw [zero, State.die_setDie]
      · rw [State.die_setDie_other _ _ _ _ zero]
  case load =>
    intro s u d n blk here table slot read good
    obtain ⟨taken, mem⟩ := State.slotOf_loadSegs table slot read good
    exact ⟨_, onDie_next here _, taken, mem⟩
  case bad =>
    intro s u d n i blk here table slot read bad resident
    have ctx : (u.busDone d (.segs n.toNat 0)).ctx n.toNat = s.ctx n.toNat := (Carries.readSegs read).ctx n.toNat
    obtain ⟨-, lost, status, record⟩ := State.lose_live (u.busDone d (.segs n.toNat 0)) d n.toNat 0x1403 1
      (.outside 0x1403 i) (by rw [ctx, resident]; decide)
    exact ⟨_, (onDie_next here _).trans (congrArg _ (State.loadSegs_bad table slot read bad)), lost, status, record⟩
  case wait =>
    intro s u d n here table slot read
    exact (onDie_next here _).trans (congrArg _ (State.loadSegs_wait table slot read))
  case inval =>
    intro s m r q p base len d msg runs
    refine ⟨fun due => congrArg Host.Outcome.next (State.invalidate_waits msg runs due), fun done => ?_⟩
    have moved := State.segsReads_carries s d (m + 1) (s.slotsOf d p)
    obtain ⟨k, ns, fs, removed, l2, bufs, invals⟩ := State.invalidate_removes msg runs done rfl
    refine ⟨_, congrArg Host.Outcome.next removed, SMap.find?_erase_same .., moved.mem, ?_, ?_, ns, fs, ?_⟩
    · rw [State.die_setDie, l2]
      exact fun e found => State.not_overlaps_of_spared (List.mem_filter.mp found).2
    · rw [State.die_setDie, bufs]
      intro x listed e found
      simp only [SMap.values, SMap.mapVals, List.map_map, List.mem_map, Function.comp_apply] at listed
      obtain ⟨y, -, rfl⟩ := listed
      exact State.not_overlaps_of_spared (List.mem_filter.mp found).2
    · rw [State.die_setDie, invals]
      exact congrArg (· ++ _) (congrArg Die.invals (moved.die d) :)
  case last =>
    intro s q e a rest here runs unsent found answered signalled waits live ring oldest refs
    obtain ⟨u, done, tables, mem, queue⟩ := State.invalAck_last
      (s := s.setDie q.die { s.die q.die with invals := (s.die q.die).invals.erase e }) waits live
    have row := (State.invalAckRow_own runs unsent found answered signalled).trans done
    refine ⟨_, (onDie_next here _).trans (congrArg (Host.Outcome.next ·.objNext) row), ?_⟩
    exact (State.cmdDone_completes (s := s) tables mem (queue ▸ oldest) refs (queue ▸ ring) 32).1
  case more =>
    intro s q d e m r here runs other msg waits
    have row := (State.invalAckRow_arrives runs msg).trans (State.invalAck_more (s := s.takeMsg m) other waits)
    refine ⟨_, (onDie_next here _).trans (congrArg (Host.Outcome.next ·.objNext) row), ?_⟩
    rw [State.queue_setQueue]
    exact ⟨rfl, SMap.find?_erase_same .., rfl⟩

end Sys2Proof.Machine
end

section
/-! PROOFS. The Peat ports: transfers, read data, acceptances and unanswered requests (O35, O36). -/
namespace Sys2Proof.Machine

namespace State

variable {s t : State} {n : Nat} {r : Req}

/-! ### Transfers (O35) -/

/-- The request that its port offers is the one that `offered` names; the slot of the Cuff moves nothing else. -/
theorem offered_of_offers {tag : Nat} (h : Offers s n tag r) :
    ∃ t, s.offered (servingPort r) r.write = some (t, n, r, tag) ∧ Carries s t := by
  have free := h.tag
  rcases h.first with first | ⟨none, slot, turn, oldest⟩
  · refine ⟨s.cuffTake (servingPort r).die (peatPath (servingPort r).port.val r.write) r.partition 1 true, ?_,
      Carries.cuffTake ..⟩
    simp only [offered, free, first]
  · have behind : (s.offerFor (servingPort r) r.write).find? (fun e => e.2.ahead) = Option.none :=
      List.find?_eq_none.mpr fun e listed => by simp [none e listed]
    have chosen : ((s.offerFor (servingPort r) r.write).filter fun e => decide (e.2.partition = r.partition)).find?
        (fun e => decide (some (requester r) = some (requester e.2))) = some (n, r) := by
      rw [List.find?_filter, ← oldest]
      congr 1
      funext e
      simp [eq_comm]
    refine ⟨_, ?_, Carries.cuffSlot s (servingPort r).die (peatPath (servingPort r).port.val r.write)
      (((s.offerFor (servingPort r) r.write).map (·.2.partition)).eraseDups)⟩
    generalize cut : s.cuffSlot (servingPort r).die (peatPath (servingPort r).port.val r.write)
      (((s.offerFor (servingPort r) r.write).map (·.2.partition)).eraseDups) = x at slot ⊢
    obtain ⟨t, part⟩ := x
    subst slot
    simp only [offered, free, behind, cut, turn, chosen, Option.map_some]

/-- The request as it stands at its port once it has transferred (R455, R457). -/
def AtPort (s : State) (tag : Nat) (r r' : Req) : Prop :=
  r'.st = .port (servingPort r).die.val (servingPort r).port.val tag ∧ r'.sent = true ∧ r'.data = r.data ∧ r'.pa = r.pa ∧
    r'.owner = r.owner ∧ r'.snap = if r.write then [] else s.readBytes (r.pa / 64 * 64) 64

theorem transfer_of_offers {tag : Nat} (h : Offers s n tag r) : ∃ r', AtPort s tag r r' ∧
    (s.transfer n r.write).reqs.find? n = some r' ∧ (s.transfer n r.write).mem = s.mem := by
  obtain ⟨t, offered, moved⟩ := offered_of_offers h
  have bytes (a k : Nat) : t.readBytes a k = s.readBytes a k :=
    List.map_congr_left fun i _ => by rw [readByte, readByte, moved.mem]
  simp only [transfer, h.found, h.waits, h.turn, h.admitted, offered, ne_eq, not_true_eq_false, Bool.not_true, Bool.false_eq_true,
    or_self, if_false]
  refine ⟨_, ?_, SMap.find?_put_same .., moved.mem⟩
  refine ⟨rfl, rfl, rfl, rfl, rfl, ?_⟩
  exact congrArg (fun x => if r.write then [] else x) (bytes _ _)

theorem transfer_refused {write : Bool} (found : s.reqs.find? n = some r) (waits : r.st = .waiting) (kind : r.write = write)
    (turn : s.inTurn n r = true) (refused : s.ownAdmits (servingPort r).die r.pa r.partition r.ctx = false) :
    s.transfer n write = (s.ownRefuse (servingPort r).die r.pa).answer n r .error := by
  simp only [transfer, found, waits, kind, turn, refused, ne_eq, not_true_eq_false, Bool.not_true, Bool.not_false,
    Bool.false_eq_true, or_self, if_false, if_true]

/-! ### Read data (O36) -/

/-- Data for a sequencer's load is kept until the load completes (R102). -/
theorem respond_load {k rt size : Nat} {sgn : Bool} {va : W64} (bs : List Byte) (owner : r.owner = .seqLoad k)
    (kept : r.gone = false) (due : ((s.die r.die).orphans.any fun o => decide (o.req = n)) = false)
    (alone : s.busOwns r.die n = false) (stall : (s.core (coreOf k)).stall = .load rt size sgn va none) :
    s.respond n r (.data bs) =
      (({ s with reqs := s.reqs.erase n } : State).moved (coreOf k)).updCore (coreOf k) fun x =>
        { x with stall := .load rt size sgn va (some ((bs.drop (r.pa % 64)).take size)) } := by
  have core : ({ s with reqs := s.reqs.erase n } : State).core (coreOf k) = s.core (coreOf k) := rfl
  have owns : ({ s with reqs := s.reqs.erase n } : State).busOwns r.die n = false := alone
  simp only [respond, kept, due, Bool.or_self, Bool.false_eq_true, if_false, owns, owner, core, stall]

theorem answer_load {k : Nat} (owner : r.owner = .seqLoad k) (a : Answer) :
    s.answer n r a = (s.respond n r a).quietCheck (coreOf k) := by
  simp only [answer, owner]

/-! ### Accepted writes -/

/-- The bytes of a write are put at their places in a granule. -/
def putData (s : State) (g : Nat) (bs : List (Nat × Byte)) : State := bs.foldl (fun s b => s.writeByte (g + b.1) b.2) s

theorem readByte_putData_other (g : Nat) (bs : List (Nat × Byte)) (s : State) {a : Nat} (other : ∀ b ∈ bs, a ≠ g + b.1) :
    (s.putData g bs).readByte a = s.readByte a := by
  induction bs generalizing s with
  | nil => rfl
  | cons b bs ih =>
    refine (ih _ fun x listed => other x (List.mem_cons_of_mem b listed)).trans ?_
    exact readByte_writeByte_other s _ (other b List.mem_cons_self)

theorem readByte_putData (g : Nat) (bs : List (Nat × Byte)) (s : State) (once : (bs.map (·.1)).Nodup) {b : Nat × Byte}
    (listed : b ∈ bs) : (s.putData g bs).readByte (g + b.1) = b.2 := by
  induction bs generalizing s with
  | nil => cases listed
  | cons x bs ih =>
    obtain ⟨fresh, rest⟩ := List.nodup_cons.mp once
    rcases List.mem_cons.mp listed with rfl | later
    · refine (readByte_putData_other g bs _ fun y found same => fresh ?_).trans (readByte_writeByte ..)
      exact List.mem_map.mpr ⟨y, found, (Nat.add_left_cancel same).symm⟩
    · exact ih _ rest later

theorem writeAccepted_stores {p : PortId} {tag : Nat} (asked : s.byTag p tag true = some (n, r)) :
    ∃ q, s.writeAccepted p tag false = ({ s.putData (r.pa / 64 * 64) r.data with reqs := q } : State).answer n r .accepted := by
  simp only [writeAccepted, asked, Bool.false_eq_true, if_false]
  exact ⟨_, rfl⟩

/-! ### Requests without an answer -/

/-- The request of a die that no port has answered in time is noted (R355). -/
def orphaned (s : State) (d : DieId) (n : Nat) : State :=
  s.setDie d { s.die d with orphans := (s.die d).orphans ++ [{ req := n, at' := none }] }

/-- An event at a unit that no escalation covers, of a part that is not in reset, acts and starts the ladder (R358, R359). -/
theorem startEvent_first {u : ResetUnit} (code : Nat) (act : State → State) (runs : (s.die u.dieId).computeReset = false)
    (alone : s.covered u = false) : s.startEvent u code act = (act s).startLadder u code := by
  simp only [startEvent, outOfService, runs, alone, Bool.false_and, Bool.false_eq_true, if_false]

theorem unanswered_load {k : Nat} (found : s.reqs.find? n = some r) (owner : r.owner = .seqLoad k)
    (runs : (s.die (coreOf k).die).computeReset = false) (sent : r.sent = true) (kept : r.gone = false)
    (late : 1000 ≤ s.since r.die r.sentAt) (alone : s.covered (.core (coreOf k)) = false)
    (fresh : ((s.die r.die).orphans.any fun o => decide (o.req = n)) = false) :
    s.unanswered n = ((s.orphaned r.die n).seqFault (coreOf k) 0 0x0705 r.va r.va
      ((s.core (coreOf k)).code.get 0 (s.core (coreOf k)).seq.pc.toNat)).startLadder (.core (coreOf k)) 0x0705 := by
  have same : ((s.orphaned r.die n).die (coreOf k).die).computeReset = (s.die (coreOf k).die).computeReset ∧
      ((s.orphaned r.die n).die (coreOf k).die).escalations = (s.die (coreOf k).die).escalations := by
    by_cases here : (coreOf k).die = r.die
    · simp [orphaned, here]
    · simp [orphaned, die_setDie_other _ _ _ _ here]
  obtain ⟨reset, escalations⟩ := same
  have due : ¬(r.gone = true ∨ (!r.sent) = true ∨ s.since r.die r.sentAt < 1000 ∨
      ((s.die r.die).orphans.any fun o => decide (o.req = n)) = true) := by
    simp [kept, sent, fresh, Nat.not_lt.mpr late]
  simp only [unanswered, found, owner]
  rw [if_neg due]
  refine startEvent_first (s := s.orphaned r.die n) _ _ (reset.trans runs) ?_
  rw [covered, ResetUnit.dieId, escalations]
  exact alone

end State

/-- Settles O35: the port's offer is the waiting request, and the slot it takes at the Cuff moves no memory. -/
theorem peatTransfers : Obligations.PeatTransfers := by
  unfold Obligations.PeatTransfers
  refine ⟨?read, ?write, ?refused⟩
  case read =>
    intro s n tag r offers read
    obtain ⟨r', ⟨st, sent, -, pa, owner, snap⟩, found, mem⟩ := State.transfer_of_offers offers
    rw [read] at found mem snap
    exact ⟨_, r', rfl, found, st, sent, snap, pa, owner, mem⟩
  case write =>
    intro s n tag r offers write
    obtain ⟨r', ⟨st, sent, data, -⟩, found, mem⟩ := State.transfer_of_offers offers
    rw [write] at found mem
    exact ⟨_, r', rfl, found, st, sent, data, mem⟩
  case refused =>
    intro s n r found waits read turn refused
    exact congrArg Host.Outcome.next (State.transfer_refused found waits read turn refused)

/-- Settles O36: the answer to a load sets the core's stall alone, an accepted write puts distinct bytes one by one, and a
request without an answer is noted before its fault is raised. -/
theorem peatAnswers : Obligations.PeatAnswers := by
  unfold Obligations.PeatAnswers
  refine ⟨?data, ?accepted, ?unanswered⟩
  case data =>
    intro s p tag n k rt size sgn va r here asked owner kept due alone stall
    have read : s.readReturn p tag false = s.draw.2.answer n r (.data ((List.range 64).map (s.readData r))) := by
      simp only [State.readReturn, asked, Bool.false_eq_true, if_false]
    have load := State.respond_load (s := s.draw.2) (n := n) ((List.range 64).map (s.readData r)) owner kept due alone stall
    refine ⟨_, (onDie_next here _).trans (congrArg Host.Outcome.next
      (read.trans ((State.answer_load owner _).trans (congrArg (State.quietCheck · _) load)))), ?_, ?_, rfl⟩
    · rw [State.core_updCore]
    · exact SMap.find?_erase_same ..
  case accepted =>
    intro s p tag n r here asked once
    obtain ⟨q, stores⟩ := State.writeAccepted_stores asked
    refine ⟨_, (onDie_next here _).trans (congrArg _ stores), fun b listed => ?_, fun a other => ?_⟩
    · exact State.readByte_putData _ _ _ once listed
    · exact State.readByte_putData_other _ _ _ other
  case unanswered =>
    intro s n k r die port tag found owner runs st sent kept late alone fresh
    have uncovered : s.covered (.core (coreOf k)) = false := List.any_eq_false.mpr fun e listed => by simp [alone e listed]
    refine ⟨_, congrArg Host.Outcome.next
      (State.unanswered_load found owner runs sent kept late uncovered fresh), ?_⟩
    rw [State.orphaned, State.die_setDie]

end Sys2Proof.Machine
end

section
/-! PROOFS. Paired runs and the readback of the error pins (O54). A launch that fails loses no cause that a steward holds. -/
namespace Sys2Proof.Machine

/-- The stewards of one state hold every cause that those of another hold (R380). -/
structure Gains (s t : State) : Prop where
  cause : ∀ d b, bitAt (s.steward d).safety.causes.toNat b = true → bitAt (t.steward d).safety.causes.toNat b = true

theorem Carries.gains {s t : State} (h : Carries s t) : Gains s t := ⟨h.cause⟩

namespace Gains

variable {s t u : State} {d : DieId}

theorem refl (s : State) : Gains s s := ⟨fun _ _ h => h⟩

theorem trans (h : Gains s t) (h' : Gains t u) : Gains s u :=
  ⟨fun d b c => h'.cause d b (h.cause d b c)⟩

theorem of_eq {β : Type} {p : State × β} {b : β} (e : p = (t, b)) (h : Gains s p.1) : Gains s t := by
  subst e
  exact h

theorem foldl {α : Type} {f : State → α → State} (k : ∀ u a, Gains u (f u a)) (l : List α) (h : Gains s t) :
    Gains s (l.foldl f t) :=
  List.foldlRecOn l f (motive := Gains s) h fun u h a _ => h.trans (k u a)

theorem of_stewards (h : t.stewards = s.stewards) : Gains s t where
  cause d b c := by rwa [show t.steward d = s.steward d from congrArg (fun m : SMap Steward => m.get {} d.val) h]

theorem ite {c : Prop} {_ : Decidable c} (ht : Gains s t) (hu : Gains s u) : Gains s (if c then t else u) := by
  split <;> assumption

theorem setDie (s : State) (d : DieId) (v : Die) : Gains s (s.setDie d v) := of_stewards rfl

theorem setCore (s : State) (c : CoreId) (v : Core) : Gains s (s.setCore c v) := of_stewards rfl

theorem setCtx (s : State) (n : Nat) (v : Ctx) : Gains s (s.setCtx n v) := of_stewards rfl

theorem setLaunch (s : State) (q : Nat) (v : Launch) : Gains s (s.setLaunch q v) := of_stewards rfl

theorem withdraw (s : State) (d : DieId) (p : Owner → Bool) : Gains s (s.withdraw d p) := of_stewards rfl

/-! Translation and event records (R251, R275, R284 to R291). -/

section
variable (s d)

theorem startWalk (o : Owner) (partition ctx va : Nat) (acc : Access) : Gains s (s.startWalk d o partition ctx va acc) := by
  unfold State.startWalk
  dsimp only
  split
  · exact of_stewards rfl
  · split <;> exact of_stewards rfl

theorem touch (key partition ctx va : Nat) : Gains s (s.touch d key partition ctx va) := by
  unfold State.touch
  split
  · exact refl s
  · exact of_stewards rfl

theorem faultAccess (cause : FaultCause) (range : Nat) (o : Owner) (partition ctx va : Nat) (acc : Access) :
    Gains s (s.faultAccess d cause range o partition ctx va acc) := by
  unfold State.faultAccess
  dsimp only
  split
  · exact of_stewards rfl
  · split
    · exact (Carries.postRecord ..).gains
    · exact of_stewards rfl

theorem busRead (o : Owner) (partition ctx va pa n range : Nat) (ahead : Bool) :
    Gains s (s.busRead d o partition ctx va pa n range ahead).1 := (Carries.busRead ..).gains

theorem busWrite (o : Owner) (partition ctx va pa : Nat) (bs : List Byte) (range : Nat) (ahead : Bool) :
    Gains s (s.busWrite d o partition ctx va pa bs range ahead).1 := (Carries.busAccess ..).gains

theorem busDone (o : Owner) : Gains s (s.busDone d o) := of_stewards rfl

theorem xlateSegs (o : Owner) (partition ctx va : Nat) (acc : Access) : Gains s (s.xlateSegs d o partition ctx va acc).1 := by
  unfold State.xlateSegs
  dsimp only
  split
  next t h => exact of_eq h (busRead ..)
  next t _ h => exact of_eq h (busRead ..)
  next t blk h =>
    have read : Gains s t := of_eq h (busRead ..)
    split
    · exact read
    split
    · exact read
    split
    · exact read
    · split <;> exact read

theorem xlateNow (o : Owner) (partition ctx va : Nat) (acc : Access) : Gains s (s.xlateNow d o partition ctx va acc).1 := by
  unfold State.xlateNow
  split
  · exact refl s
  split
  · split
    · exact refl s
    · exact startWalk ..
  · split
    · exact xlateSegs ..
    · exact refl s
  · exact touch ..
  · exact refl s

theorem writeEvent (p r : Nat) (rec : EventRec) (n : Nat) : Gains s (s.writeEvent d p r rec n).1 := by
  unfold State.writeEvent
  dsimp only
  split
  · exact refl s
  split
  next t pa range h =>
    have found : Gains s t := of_eq h (xlateNow ..)
    split
    next u _ hw =>
      have written : Gains s (u.busDone d (.event n)) := (found.trans (of_eq hw (busWrite ..))).trans (busDone ..)
      split <;> exact written.trans (of_stewards (by rfl))
    next u _ hw => exact (found.trans (of_eq hw (busWrite ..))).trans (busDone ..)
    next u hw => exact found.trans (of_eq hw (busWrite ..))
  next t c range h => exact (of_eq h (xlateNow ..)).trans (faultAccess ..)
  next t h => exact of_eq h (xlateNow ..)
  next t _ _ h => exact (of_eq h (xlateNow ..)).trans (busDone ..)

theorem tryEvent (p r : Nat) (rec : EventRec) : Gains s (s.tryEvent d p r rec).1 := by
  unfold State.tryEvent
  dsimp only
  split
  · exact of_stewards rfl
  split
  next t h => exact of_eq h (writeEvent ..)
  next t h => exact (of_eq h (writeEvent ..)).trans (of_stewards rfl)
  next t _ _ h => exact of_eq h (writeEvent ..)

theorem logUndeliverable (p : Nat) (rec : EventRec) : Gains s (s.logUndeliverable d p rec) := by
  have log : Gains s (s.logOverflow d rec) := by
    unfold State.logOverflow
    dsimp only
    split <;> exact of_stewards rfl
  exact log.trans (tryEvent ..)

end

/-! The stop of a launch, and what a lost context gives up (R113, R181, R247, R295, R322). -/

section
variable (s)

theorem writeBytes (pa : Nat) (bs : List Byte) : Gains s (s.writeBytes pa bs) := by
  induction bs generalizing s pa with
  | nil => exact refl s
  | cons b bs ih =>
    refine trans ?_ (ih (s.writeByte pa b) (pa + 1))
    exact of_stewards rfl

theorem putCtx (n : Nat) (c : Ctx) : Gains s (s.putCtx n c) := by
  unfold State.putCtx State.syncCtx
  exact trans (trans (trans (setCtx ..) (writeBytes ..)) (writeBytes ..)) (writeBytes ..)

theorem stopCore (c : CoreId) : Gains s (s.stopCore c) := by
  unfold State.stopCore
  refine trans ?_ (withdraw ..)
  exact setCore ..

theorem stopPart (q : Nat) (d : DieId) : Gains s (s.stopPart q d) := by
  unfold State.stopPart State.withdrawImages
  refine trans ?_ (withdraw ..)
  exact foldl stopCore _ (refl s)

theorem stopLaunch (q : Nat) : Gains s (s.stopLaunch q) :=
  foldl (fun u _ => (Carries.sendMsg u _ _ _).gains) _ (stopPart ..)

theorem withdrawCtx (n : Nat) : Gains s (s.withdrawCtx n) := by
  have dropped (l : List DieId) (p : Nat × Nat × Nat × EventRec → Bool) : Gains s (l.foldl (fun s d => s.dropEvents d p) s) :=
    foldl (fun u d => by exact of_stewards rfl) l (refl s)
  have withdrawn (u : State) (l : List DieId) (p : Owner → Bool) : Gains u (l.foldl (fun s d => s.withdraw d p) u) :=
    foldl (fun u d => by exact withdraw ..) l (refl u)
  exact trans (trans (dropped ..) (withdrawn ..)) (of_stewards (by rfl))

theorem dirtyStores (n : Nat) : Gains s (s.dirtyStores n) := of_stewards rfl

theorem postLost (n : Nat) : Gains s (s.postLost n) := by
  unfold State.postLost
  dsimp only
  split
  · exact refl s
  split
  next t h => exact (putCtx ..).trans (of_eq h (tryEvent ..))
  next t _ h => exact ((putCtx ..).trans (of_eq h (tryEvent ..))).trans (logUndeliverable ..)

theorem lose (home : DieId) (n code cls : Nat) (rec : FaultRec) : Gains s (s.lose home n code cls rec) := by
  have noted (t : State) (info : Nat) : Gains t ((if cls = 1 then t.setCause home (lossCause code) code false else t).eventRecord
      home code info) := by
    refine trans ?_ (Carries.eventRecord ..).gains
    split
    · exact (Carries.setCause ..).gains
    · exact refl t
  unfold State.lose
  dsimp only
  split
  · exact refl s
  refine foldl stopLaunch _ (trans (trans ?_ (dirtyStores ..)) (withdrawCtx ..))
  refine ite ?_ (trans ?_ (postLost ..))
  all_goals
    refine foldl (fun u e => by exact setDie ..) _ ?_
    refine ite (trans ?_ (noted ..)) (putCtx ..)
    exact putCtx ..

theorem failLaunch (q : Nat) (rec : FaultRec) (count : W64) : Gains s (s.failLaunch q rec count) := by
  unfold State.failLaunch
  dsimp only
  split
  · exact refl s
  refine trans (trans (ite ?_ ?_) (lose ..)) (stopLaunch ..)
  · exact (setLaunch ..).trans (putCtx ..)
  · exact setLaunch ..

theorem partFault (d : DieId) (q ldie : Nat) (rec : FaultRec) : Gains s (s.partFault d q ldie rec) := by
  unfold State.partFault
  dsimp only
  split
  · exact (setDie ..).trans (failLaunch ..)
  · exact (setDie ..).trans (Carries.sendMsg ..).gains

end
end Gains

namespace State

variable {s : State} {q lcore : Nat} {x y : LogCore} {a b : CoreId}

/-- The cores of two runs leave their comparison point (R374). -/
def pairGo (s : State) (a b : CoreId) : State :=
  let go := fun (s : State) c => s.updCore c fun k => { k with pairPoint := none, pairPassed := true }
  go (go s a) b

theorem core_pairGo {c : CoreId} (run : c = a ∨ c = b) :
    ((s.pairGo a b).core c).pairPoint = none ∧ ((s.pairGo a b).core c).pairPassed = true := by
  by_cases last : c = b
  · subst last
    simp [pairGo]
  · obtain rfl : c = a := run.resolve_right last
    simp [pairGo, updCore, core_setCore_other _ _ _ _ last]

section
variable (runs : s.pairRuns q lcore = some ((x, a), (y, b))) (first : s.atPoint a = true)
include runs first

theorem pairCompare_equal (second : s.atPoint b = true) (points : x.points = y.points)
    (str : (s.core a).psStr = (s.core b).psStr) (seq : (s.core a).psSeq = (s.core b).psSeq) :
    s.pairCompare q lcore = ((s.pairGo a b).settle a).settle b := by
  simp only [pairCompare, runs, first, second, points, str, seq, Bool.not_true, Bool.false_eq_true, ne_eq, not_true_eq_false,
    or_self, if_false, and_self, if_true]
  rfl

theorem pairCompare_differ (second : s.atPoint b = true) (points : x.points = y.points)
    (seq : (s.core a).psSeq ≠ (s.core b).psSeq) : s.pairCompare q lcore = s.pairFault q lcore a 0x1901 x.points := by
  simp only [pairCompare, runs, first, second, points, seq, Bool.not_true, Bool.false_eq_true, ne_eq, not_true_eq_false,
    or_self, if_false, and_false]

theorem pairLate_first {t₀ : Nat} (ahead : y.points < x.points) (waits : (s.core a).pairPoint = some t₀)
    (late : s.objVal a.die 0x2A41 0 ≤ s.since a.die t₀) : s.pairLate q lcore = s.pairFault q lcore a 0x1902 x.points := by
  simp only [pairLate, runs, first, ahead, waits, late, decide_true, Bool.and_self, if_true]

end

/-- A launch without a fault that its home die hears of keeps the fault it hears of (R113, R375). -/
theorem launch_partFault {l : Launch} {d : DieId} (ldie : Nat) (rec : FaultRec) (home : (queueOf q).die = d)
    (found : s.launches.find? q = some l) (good : l.fault = none) :
    ∃ l', (s.partFault d q ldie rec).launches.find? q = some l' ∧ l'.fault = some rec := by
  have here : (s.setDie d { s.die d with parts := (s.die d).parts.filter fun x => decide (x.queue ≠ q) }).launches.find? q =
      some l := found
  refine ⟨{ l with fault := some rec, faultAt := (s.die d).count }, ?_, rfl⟩
  simp only [partFault, home, if_true]
  rw [failLaunch_first _ _ q _ here good, launches_of_objects (objects_stopLaunch ..), launches_lose]
  exact SMap.find?_put_same ..

/-- F-1902 fails the launch, and its cause stays with the steward (R374, R375, R380). -/
theorem pairFault_late {l : Launch} (point : Nat) (home : (queueOf q).die = a.die) (found : s.launches.find? q = some l)
    (good : l.fault = none) : ∃ l', (s.pairFault q lcore a 0x1902 point).launches.find? q = some l' ∧
      l'.fault = some (.outside 0x1902 (lcore * 2 ^ 32 + point % 2 ^ 32)) ∧
      bitAt ((s.pairFault q lcore a 0x1902 point).steward a.die).safety.causes.toNat 11 = true := by
  unfold pairFault
  dsimp only
  have kept : ((s.report a.die 0x1902 (place lcore 32 + point % 2 ^ 32)).stopPart q a.die).launches = s.launches := by
    rw [launches_of_objects (objects_stopPart ..), launches_of_objects (objects_report ..)]
  obtain ⟨l', failed, record⟩ := launch_partFault (s.core a).ldie (.outside 0x1902 (place lcore 32 + point % 2 ^ 32)) home
    (kept ▸ found) good
  refine ⟨l', failed, record, ?_⟩
  refine ((Gains.stopPart ..).trans (Gains.partFault ..)).cause a.die 11 ?_
  exact (safety_report s a.die _ (code := 0x1902) rfl (by decide)).1

theorem readback_mismatch {d : DieId} {x : BitVec 2} (differs : x ≠ errPins (s.errDriven d))
    (settled : 4 ≤ s.since d (s.steward d).safety.errAt) :
    s.readback d x = s.report d 0x1903 (place x.toNat 2 + (errPins (s.errDriven d)).toNat) :=
  if_neg (not_or.mpr ⟨differs, Nat.not_lt.mpr settled⟩)

theorem readback_same {d : DieId} : s.readback d (errPins (s.errDriven d)) = s := if_pos (.inl rfl)

theorem dies_report (s : State) (d : DieId) (code info : Nat) : (s.report d code info).dies = s.dies := by
  obtain ⟨k, only⟩ := (OnlyStewards.refl s).report d code info
  rw [only]

end State

/-- Settles O54: the comparison unit reads the two runs' cores; the fault of a run that waited alone reaches its launch through
reports that lose no cause. -/
theorem pairedRunsAreCompared : Obligations.PairedRunsAreCompared := by
  unfold Obligations.PairedRunsAreCompared
  refine ⟨?equal, ?differ, ?late, ?mismatch, ?same⟩
  case equal =>
    intro s q lcore x y a b runs other first second points str seq
    exact ⟨s.pairGo a b, congrArg Host.Outcome.next (State.pairCompare_equal runs first second points str seq),
      fun c run => State.core_pairGo run, rfl⟩
  case differ =>
    intro s q lcore x y a b runs first second points seq
    exact congrArg Host.Outcome.next (State.pairCompare_differ runs first second points seq)
  case late =>
    intro s q lcore t₀ x y a b l runs first ahead waits late home found good
    obtain ⟨l', failed, record, cause⟩ := State.pairFault_late (lcore := lcore) x.points
      (((congrArg QueueId.die (State.queueOf_key q)).trans home.symm)) found good
    exact ⟨_, l', congrArg Host.Outcome.next (State.pairLate_first runs first ahead waits late), failed, record, cause⟩
  case mismatch =>
    intro s d x here differs settled
    obtain ⟨cause, latch⟩ := State.safety_report s d (place x.toNat 2 + (errPins (s.errDriven d)).toNat) (code := 0x1903) rfl
      (by decide)
    exact ⟨_, (onDie_next here _).trans (congrArg _ (State.readback_mismatch differs settled)), cause, latch.trans (Bool.or_true _),
      State.dies_report ..⟩
  case same =>
    intro s d here
    exact (onDie_next here _).trans (congrArg _ State.readback_same)

end Sys2Proof.Machine
end

section
/-! PROOFS. Registers of the Crown port (O60). -/
namespace Sys2Proof.Machine

namespace State

variable {s : State} {role : Byte}

theorem served_of_open (opened : s.crownOpen = true) : (s.die die0).stage ≠ .held := by
  intro held
  simp [crownOpen, held] at opened

/-! ### Accesses of the port -/

section
variable {strb : Byte} {m : W64} {act : W64 → Option State}

theorem crownTry_acts {t : State} (strobe : strobes strb = some m) (acts : act m = some t) :
    s.crownTry strb true act = t.crownOk := by
  simp [crownTry, strobe, acts]

theorem crownTry_refuses (strobe : strobes strb = some m) (refuses : act m = none) : s.crownTry strb true act = s.crownErr := by
  simp [crownTry, strobe, refuses]

theorem crownTry_barred : s.crownTry strb false act = s.crownErr := by
  unfold crownTry
  split <;> simp

end

/-! ### Table bases (R490) -/

section
variable (driver : roleOf role = some .driver) (opened : s.crownOpen = true)
include driver opened

theorem tableBaseWrite_driver (v : W64) :
    s.tableBaseWrite role 0xFF 0x1000 v = s.crownTry 0xFF true (s.tableWrite 0 v) := by
  simp [tableBaseWrite, crownWrite, served_of_open opened, opened, driver]

theorem tableBaseWrite_free {v : W64} (free : ∀ e ∈ s.ctxs.entries, e.2.st = .free) (plain : v &&& 0xFFF0000000000FFF = 0) :
    s.tableBaseWrite role 0xFF 0x1000 v = ({ s with ctxTbl := v } : State).crownOk := by
  have unused : (s.ctxs.entries.any fun e => decide (e.2.st ≠ .free)) = false := by
    rw [List.any_eq_false]
    intro e listed
    simp [free e listed]
  have whole : v &&& 0x000FFFFFFFFFF000 = v := by
    have parts : v &&& 0x000FFFFFFFFFF000 ||| v &&& 0xFFF0000000000FFF = v := by
      rw [← BitVec.and_or_distrib_left]
      exact BitVec.and_allOnes
    rw [plain] at parts
    exact BitVec.or_zero.symm.trans parts
  refine (tableBaseWrite_driver driver opened v).trans (crownTry_acts (m := BitVec.allOnes 64) rfl ?_)
  simp only [tableWrite, tableBase, if_true, unused, Bool.false_eq_true, if_false, mergeW_allOnes, whole]
  rw [rsvdWrite_plain die0 (by rw [BitVec.and_allOnes]; exact plain)]

theorem tableBaseWrite_used {n : Nat} {c : Ctx} (v : W64) (listed : (n, c) ∈ s.ctxs.entries) (used : c.st ≠ .free) :
    s.tableBaseWrite role 0xFF 0x1000 v = s.crownErr := by
  have any : (s.ctxs.entries.any fun e => decide (e.2.st ≠ .free)) = true :=
    List.any_eq_true.mpr ⟨(n, c), listed, by simpa using used⟩
  refine (tableBaseWrite_driver driver opened v).trans (crownTry_refuses (m := BitVec.allOnes 64) rfl ?_)
  simp only [tableWrite, tableBase, if_true, any]

end
/-! ### Event rings (R492) -/

section
variable {p : Fin 16} {r : Nat} {v : W64}

theorem ring_rsvdWrite (s : State) (d : DieId) (v m rsv : W64) (p r : Nat) : (s.rsvdWrite d v m rsv).ring p r = s.ring p r := by
  unfold rsvdWrite
  split <;> rfl

section
variable (driver : roleOf role = some .driver) (opened : s.crownOpen = true)
include driver opened

theorem ringWrite_base : s.ringWrite role 0xFF p r 0 v = s.crownTry 0xFF true (s.ringBase p.val r v) := by
  simp [ringWrite, opened, driver]

theorem ringWrite_cfg : s.ringWrite role 0xFF p r 8 v = s.crownTry 0xFF true (s.ringCfgPut p.val r v) := by
  simp [ringWrite, opened, driver]

theorem ringBase_disabled (off : (s.ring p.val r).enable = false) (aligned : v.toNat % 4096 = 0) :
    s.ringWrite role 0xFF p r 0 v = (s.setRing p.val r { s.ring p.val r with base := v }).crownOk := by
  refine (ringWrite_base driver opened).trans (crownTry_acts (m := BitVec.allOnes 64) rfl ?_)
  simp only [ringBase, mergeW_allOnes, off, aligned, Bool.false_eq_true, ne_eq, not_true_eq_false, or_self, if_false]

theorem ringBase_enabled (on : (s.ring p.val r).enable = true) : s.ringWrite role 0xFF p r 0 v = s.crownErr := by
  refine (ringWrite_base driver opened).trans (crownTry_refuses (m := BitVec.allOnes 64) rfl ?_)
  simp [ringBase, on]

/-- A ring that is enabled starts anew. -/
theorem ringCfg_enables (off : (s.ring p.val r).enable = false) (least : 6 ≤ field v.toNat 4 0) (most : field v.toNat 4 0 ≤ 16)
    (enable : bitAt v.toNat 6 = true) : s.ringWrite role 0xFF p r 8 v =
      ((s.setRing p.val r { s.ring p.val r with
        irqEn := bitAt v.toNat 7, enable := true, log2 := field v.toNat 4 0, wr := 0, rd := 0 }).rsvdWrite die0 v
          (BitVec.allOnes 64) 0xFFFFFFFFFFFFFF20).crownOk := by
  refine (ringWrite_cfg driver opened).trans (crownTry_acts (m := BitVec.allOnes 64) rfl ?_)
  have range : inRange (field v.toNat 4 0) 6 16 = true := by simp [inRange, least, most]
  simp only [ringCfgPut, mergeW_allOnes, range, off, enable, Bool.not_true, Bool.not_false, Bool.false_eq_true, false_and,
    or_self, if_false, Bool.and_self, if_true]

end

section
variable (owner : roleOf role = some (.partition p)) (opened : s.crownOpen = true)
include owner opened

theorem ringWrite_rd : s.ringWrite role 0xFF p r 0x18 v = s.crownTry 0xFF true (s.ringRd p.val r v) := by
  simp [ringWrite, opened, owner]

theorem ringRd_within (least : (s.ring p.val r).rd ≤ v) (most : v ≤ (s.ring p.val r).wr) :
    s.ringWrite role 0xFF p r 0x18 v = (s.setRing p.val r { s.ring p.val r with rd := v }).crownOk := by
  refine (ringWrite_rd owner opened).trans (crownTry_acts (m := BitVec.allOnes 64) rfl ?_)
  simp only [ringRd, mergeW_allOnes, BitVec.not_lt.mpr least, BitVec.not_lt.mpr most, or_self, if_false]

theorem ringRd_above (above : (s.ring p.val r).wr < v) : s.ringWrite role 0xFF p r 0x18 v = s.crownErr := by
  refine (ringWrite_rd owner opened).trans (crownTry_refuses (m := BitVec.allOnes 64) rfl ?_)
  simp only [ringRd, mergeW_allOnes, above, or_true, if_true]

end
end

/-! ### OVF_CTL and the mailboxes (R406, R495) -/

theorem ovfFree_oldest {d : DieId} (here : s.hasDie d = true) (driver : roleOf role = some .driver)
    (opened : s.crownOpen = true) (held : (s.die d).ovf ≠ []) :
    s.ovfFree role 0xFF d 0x8000000000000000 = (s.setDie d { s.die d with
      ovf := (s.die d).ovf.drop 1, ovfHead := ((s.die d).ovfHead + 1) % 64 }).crownOk := by
  have free : bitAt ((0x8000000000000000 : W64) &&& BitVec.allOnes 64).toNat 63 = true := by decide
  simp only [ovfFree, here, Bool.not_true, Bool.false_eq_true, if_false]
  rw [driverWrite_driver driver opened rfl, ovfCtl, rsvdWrite_plain d (by decide)]
  have some : (s.die d).ovf.isEmpty = false := by simpa using held
  simp only [free, some, Bool.not_false, Bool.and_self, if_true]

/-- Mailbox 0 as GO leaves it. -/
def goMailbox (s : State) : Mailbox :=
  { (s.steward die0).mailboxes.get {} 0 with
    ovr := ((s.steward die0).mailboxes.get {} 0).ovr && !bitAt 1 3 || bitAt 1 0 && ((s.steward die0).mailboxes.get {} 0).busy
    irqEn := bitAt 1 2
    busy := true }

theorem registerWrite_mailbox (served : (s.die die0).stage ≠ .held) (strb : Byte) (v : W64) :
    s.registerWrite die0 role strb 0x10040 v =
      s.crownTry strb (decide (roleOf role ≠ none) && decide (mailboxRole 0 = roleOf role)) (s.mailboxWrite 0 0x40 v) := by
  simp [registerWrite, crownWrite, served]

theorem registerWrite_go (served : (s.die die0).stage ≠ .held) (driver : roleOf role = some .driver) :
    s.registerWrite die0 role 0xFF 0x10040 1 = (s.setSteward die0 { s.steward die0 with
      mailboxes := (s.steward die0).mailboxes.put 0 s.goMailbox }).crownOk := by
  have role0 : mailboxRole 0 = some .driver := rfl
  refine (registerWrite_mailbox served ..).trans ?_
  rw [driver, role0]
  refine crownTry_acts (m := BitVec.allOnes 64) rfl ?_
  have one : ((1 : W64) &&& BitVec.allOnes 64).toNat = 1 := by decide
  have go : bitAt 1 0 = true := by decide
  have irq : bitAt (BitVec.allOnes 64).toNat 2 = true := by decide
  rw [mailboxWrite, if_neg (by decide), if_neg (by decide), if_pos rfl]
  simp only [one, go, irq, if_true, Bool.or_true]
  rw [rsvdWrite_plain die0 (by decide)]
  rfl

/-! ### Reads (R13, R495) -/

theorem registerRead_cpStat (here : s.hasDie die0 = true) (driver : roleOf role = some .driver) (opened : s.crownOpen = true) :
    s.registerRead die0 role 0x8000010 =
      { (if (s.die die0).computeReset then s else s.setDie die0 { s.die die0 with dbIgnored := 0, ovfLost := 0 }) with
        crown := ⟨false, BitVec.ofNat 64 (if (s.die die0).computeReset then 0 else s.cpStat die0)⟩ } := by
  have dies : 0 < s.build.dies := of_decide_eq_true here
  have zero : dieOf 0 = die0 := rfl
  simp [registerRead, crownReadAt, served_of_open opened, opened, driver, dies, dieRead, dieRegRead, zero]

end State

/-- Settles O60: each access is one case of its register's rule, past the checks of the port. -/
theorem registersOfTheCrownPort : Obligations.RegistersOfTheCrownPort := by
  unfold Obligations.RegistersOfTheCrownPort
  refine ⟨?base, ?used, ?ring, ?enabled, ?cfg, ?rd, ?above, ?ovf, ?go, ?barred, ?port, ?stat, ?reset⟩
  case base =>
    intro s role v driver opened free plain
    exact ⟨_, congrArg Host.Outcome.next (State.tableBaseWrite_free driver opened free plain), rfl, rfl, rfl, rfl, rfl⟩
  case used =>
    intro s role v n c driver opened listed used
    exact congrArg Host.Outcome.next (State.tableBaseWrite_used driver opened v listed used)
  case ring =>
    intro s role p r v driver opened off aligned
    exact ⟨_, congrArg Host.Outcome.next (State.ringBase_disabled driver opened off aligned), State.ring_setRing .., rfl⟩
  case enabled =>
    intro s role p r v driver opened on
    exact congrArg Host.Outcome.next (State.ringBase_enabled driver opened on)
  case cfg =>
    intro s role p r v driver opened off least most enable
    exact ⟨_, congrArg Host.Outcome.next (State.ringCfg_enables driver opened off least most enable), rfl,
      (State.ring_rsvdWrite ..).trans (State.ring_setRing ..)⟩
  case rd =>
    intro s role p r v owner opened least most
    exact ⟨_, congrArg Host.Outcome.next (State.ringRd_within owner opened least most), rfl, State.ring_setRing ..⟩
  case above =>
    intro s role p r v owner opened above
    exact congrArg Host.Outcome.next (State.ringRd_above owner opened above)
  case ovf =>
    intro s role d here driver opened held
    refine ⟨_, congrArg Host.Outcome.next (State.ovfFree_oldest here driver opened held), rfl, ?_, ?_⟩
    · exact congrArg Die.ovf (State.die_setDie ..)
    · exact congrArg Die.ovfHead (State.die_setDie ..)
  case go =>
    intro s role here served driver idle
    refine ⟨_, (onDie_next here _).trans (congrArg _ (State.registerWrite_go served driver)), rfl, ?_⟩
    have mailbox : ((s.setSteward State.die0 { s.steward State.die0 with
        mailboxes := (s.steward State.die0).mailboxes.put 0 s.goMailbox }).steward State.die0).mailboxes.get {} 0 = s.goMailbox := by
      rw [State.steward_setSteward]
      exact SMap.get_put_same ..
    exact ⟨(congrArg Mailbox.busy mailbox :), (congrArg Mailbox.req mailbox :), rfl⟩
  case barred =>
    intro s role strb v here served other
    have barred : (decide (roleOf role ≠ none) && decide (State.mailboxRole 0 = roleOf role)) = false := by
      simp [show State.mailboxRole 0 = some .driver from rfl, Ne.symm other]
    refine (onDie_next here _).trans (congrArg _ ((State.registerWrite_mailbox served strb v).trans ?_))
    rw [barred, State.crownTry_barred]
  case port =>
    intro s d role off here other
    refine ⟨(onDie_next here _).trans (congrArg _ (if_pos other)), fun served => ?_⟩
    simp [State.portErr, served]
  case stat =>
    intro s role here driver opened runs
    refine ⟨_, (onDie_next here _).trans (congrArg _ (State.registerRead_cpStat here driver opened)), ?_⟩
    simp only [runs, Bool.false_eq_true, if_false]
    refine ⟨trivial, ?_, ?_, rfl⟩
    · exact congrArg Die.dbIgnored (State.die_setDie ..)
    · exact congrArg Die.ovfLost (State.die_setDie ..)
  case reset =>
    intro s role here driver opened reset
    refine (onDie_next here _).trans (congrArg _ ((State.registerRead_cpStat here driver opened).trans ?_))
    simp [reset]

end Sys2Proof.Machine
end

section
/-! PROOFS. Histogram monitors, interrupt messages and the debug port (O59). -/
namespace Sys2Proof.Machine

namespace State

variable {s t u : State} {d : DieId}

/-! ### Samples (R447 to R449) -/

/-- A monitor after an event that it counts at a time (R448). -/
def Monitor.counted (m : Monitor) (now : Nat) : Monitor := { m with events := m.events + 1, lastAt := some now }

/-- A monitor after an event whose value it sorts (R449). -/
def Monitor.sorted (m : Monitor) (now : Nat) (v : W32) : Monitor :=
  { Monitor.counted m now with live := m.live.sample m.cfg.toNat v }

theorem monitor_setMonitor_other (s : State) (d : DieId) {i j : Nat} (m : Monitor) (other : i ≠ j) :
    (s.setMonitor d j m).monitor d i = s.monitor d i :=
  SMap.get_put_other _ _ _ (by omega)

section
variable {i : Nat} {v : W32}

theorem hmTake_passed (passed : (s.monitor d i).events % 2 ^ (s.monitor d i).div ≠ 0) :
    s.hmTake d i v = s.setMonitor d i (Monitor.counted (s.monitor d i) (s.die d).ticks) := by
  simp only [hmTake, passed, decide_false, Bool.not_false, if_true]
  rfl

theorem hmTake_sorted (due : (s.monitor d i).events % 2 ^ (s.monitor d i).div = 0)
    (idle : (s.monitor d i).src = 3 → (s.monitor d i).div ≠ 0 ∨ ∀ t, (s.monitor d i).lastAt = some t → t + 1 < (s.die d).ticks) :
    s.hmTake d i v = s.setMonitor d i (Monitor.sorted (s.monitor d i) (s.die d).ticks v) := by
  cases last : (s.monitor d i).lastAt with
  | none =>
    simp only [hmTake, due, last, decide_true, Bool.not_true, Bool.false_eq_true, and_false, if_false]
    rfl
  | some t =>
    have free : ¬((s.monitor d i).src = 3 ∧ (s.monitor d i).div = 0 ∧ decide ((s.die d).ticks ≤ t + 1) = true) := by
      rintro ⟨src, div, sorting⟩
      rcases idle src with divided | settled
      · exact divided div
      · exact absurd (settled t last) (Nat.not_lt.mpr (of_decide_eq_true sorting))
    simp only [hmTake, due, last, decide_true, Bool.not_true, Bool.false_eq_true, if_false]
    rw [if_neg free]
    rfl

theorem monitor_ite {c : Prop} {_ : Decidable c} {a b : State} {i : Nat} {m : Monitor} (ha : a.monitor d i = m)
    (hb : b.monitor d i = m) : (if c then a else b).monitor d i = m := by
  split <;> assumption

/-- An event taken by one monitor leaves the others. -/
theorem monitor_hmTake_other {j : Nat} (other : i ≠ j) : (s.hmTake d j v).monitor d i = s.monitor d i := by
  have kept (t : State) (m : Monitor) : (t.setMonitor d j m).monitor d i = t.monitor d i :=
    monitor_setMonitor_other t d m other
  exact monitor_ite (kept ..) (monitor_ite (monitor_ite (kept s.draw.2 _) (kept s.draw.2 _)) (kept ..))

end

/-- One step of an event's way over the monitors of a die. -/
def eventAt (d : DieId) (src : Nat) (sel : Nat → Bool) (v : W32) (s : State) (i : Nat) : State :=
  if (s.monitor d i).src = src ∧ sel (s.monitor d i).sel then s.hmTake d i v else s

theorem monitor_eventAt_other {src i j : Nat} {sel : Nat → Bool} {v : W32} (other : i ≠ j) :
    (eventAt d src sel v s j).monitor d i = s.monitor d i := by
  unfold eventAt
  split
  · exact monitor_hmTake_other other
  · rfl

theorem monitor_events_other {src i : Nat} {sel : Nat → Bool} {v : W32} (l : List Nat) (other : i ∉ l) (s : State) :
    (l.foldl (eventAt d src sel v) s).monitor d i = s.monitor d i := by
  induction l generalizing s with
  | nil => rfl
  | cons j l ih =>
    obtain ⟨first, rest⟩ := not_or.mp (mt List.mem_cons.mpr other)
    exact (ih rest _).trans (monitor_eventAt_other first)

/-- An event reaches a monitor that its source and selection let through once, and its die's time stays (R447). -/
theorem hmEvent_reaches {src i : Nat} {sel : Nat → Bool} {v : W32} (listed : i < 32) (source : (s.monitor d i).src = src)
    (admits : sel (s.monitor d i).sel = true) : ∃ u : State, u.monitor d i = s.monitor d i ∧ u.die d = s.die d ∧
      (s.hmEvent d src sel v).monitor d i = (u.hmTake d i v).monitor d i := by
  obtain ⟨a, b, split⟩ := List.append_of_mem (List.mem_range.mpr listed)
  have once : (a ++ i :: b).Nodup := split ▸ List.nodup_range
  have before : i ∉ a := fun h => (List.nodup_append.mp once).2.2 i h i List.mem_cons_self rfl
  have after : i ∉ b := (List.nodup_cons.mp (List.nodup_append.mp once).2.1).1
  have same := monitor_events_other (d := d) (src := src) (sel := sel) (v := v) a before s
  have only : OnlySampled s (a.foldl (eventAt d src sel v) s) :=
    List.foldlRecOn a _ (motive := OnlySampled s) (.refl s) fun u h j _ => .ite (h.hmTake ..) h
  refine ⟨a.foldl (eventAt d src sel v) s, same, ?_, ?_⟩
  · obtain ⟨m, n, only⟩ := only
    rw [only]
    rfl
  · show ((List.range 32).foldl (eventAt d src sel v) s).monitor d i = _
    rw [split, List.foldl_append, List.foldl_cons, monitor_events_other b after, eventAt, if_pos]
    exact ⟨same ▸ source, same ▸ admits⟩

/-! MONITOR_SAMPLE -/

section
variable {i : Nat} {v : W32} (served : (s.die d).stage ≠ .held)
include served

theorem sample_gives (gives : Gives s d (s.monitor d i)) : s.sample d i v = s.hmTake d i v := by
  simp only [sample, if_neg served]
  rcases gives with ⟨peat, -⟩ | ⟨source, last⟩
  · simp only [peat]
  cases at' : (s.monitor d i).lastAt with
  | none =>
    rcases source with supply | ⟨sensor, which⟩
    · simp only [supply, if_true]
    · simp only [sensor, which, and_self, if_true]
  | some t =>
    rcases source with supply | ⟨sensor, which⟩
    · simp only [supply, last t at', decide_true, if_true]
    · simp only [sensor, which, last t at', decide_true, and_self, if_true]

theorem sample_link {l : LinkId} (source : (s.monitor d i).src = 4) (link : l = ⟨d, Fin.ofNat 4 (s.monitor d i).sel⟩)
    (used : (s.link l).st ≠ .unused) (ended : 1000 ≤ s.since d (s.link l).hmAt) :
    s.sample d i v = (s.setLink l { s.link l with hmReplays := 0, hmAt := (s.die d).ticks }).hmEvent d 4
      (fun n => decide (n = (s.monitor d i).sel)) (sampleOf (s.link l).hmReplays) := by
  subst link
  simp only [sample, if_neg served, source, used, Nat.not_lt.mpr ended, or_self, if_false]

end

theorem sample_other {i : Nat} {v : W32} (other : (s.monitor d i).src ∉ [3, 4, 6, 7]) : s.sample d i v = s := by
  simp only [List.mem_cons, List.not_mem_nil, or_false, not_or] at other
  obtain ⟨peat, links, supply, sensor⟩ := other
  unfold sample
  dsimp only
  split
  · rfl
  split
  · contradiction
  · contradiction
  · contradiction
  · contradiction
  · rfl

/-- A source that gives an event does so outside the sorting of a sample. -/
theorem idle_of_gives {m : Monitor} (gives : Gives s d m) :
    m.src = 3 → m.div ≠ 0 ∨ ∀ t, m.lastAt = some t → t + 1 < (s.die d).ticks := by
  intro peat
  rcases gives with ⟨-, idle⟩ | ⟨supply | ⟨sensor, -⟩, -⟩
  · exact idle
  · omega
  · omega

/-- The sample of a monitor that takes the event (R449). -/
theorem live_sorted (m : Monitor) (now : Nat) (v : W32) :
    (Monitor.sorted m now v).live.total = min (m.live.total + 1) (2 ^ 48 - 1) := rfl

/-! ### HM_GCTL (R451) -/

theorem hmCrown_joins {role : Byte} (here : s.hasDie d = true) (driver : roleOf role = some .driver)
    (opened : s.crownOpen = true) (v : W64) : s.hmCrown role 0xFF d v = (s.setDie d { s.die d with
      hmSnap := (s.die d).hmSnap ||| v.truncate 32
      hmClear := (s.die d).hmClear ||| (v >>> 32).truncate 32 }).crownOk := by
  simp only [hmCrown, here, Bool.not_true, Bool.false_eq_true, if_false]
  rw [driverWrite_driver driver opened rfl, BitVec.and_allOnes, hmWrite]

/-! ### The debug port (R470) -/

/-- A state with other debug ports: what a register read answers does not depend on them. -/
def withDebugs (s : State) (g : SMap Debug) : State := { s with debugs := g }

/-- The outcome of a read, in a state with other debug ports. -/
def readWith (g : SMap Debug) (r : Option (Nat × State)) : Option (Nat × State) := r.map fun p => (p.1, p.2.withDebugs g)

theorem dieRegRead_withDebugs (s : State) (g : SMap Debug) (d : DieId) (o : Nat) :
    (s.withDebugs g).dieRegRead d o = readWith g (s.dieRegRead d o) := by
  have die : (s.withDebugs g).die d = s.die d := rfl
  unfold dieRegRead
  dsimp only
  split
  case h_3 =>
    rw [die]
    cases (s.die d).computeReset <;> rfl
  all_goals rfl

theorem storeErrRead_withDebugs (s : State) (g : SMap Debug) (d : DieId) (c j : Nat) :
    (s.withDebugs g).storeErrRead d c j = ((s.storeErrRead d c j).1, (s.storeErrRead d c j).2.withDebugs g) := by
  unfold storeErrRead
  dsimp only
  have cluster (k : ClusterId) : (s.withDebugs g).hasCluster k = s.hasCluster k := rfl
  have core (k : CoreId) : (s.withDebugs g).hasCore k = s.hasCore k := rfl
  rw [cluster, core]
  split
  · rfl
  split
  · rfl
  split
  · rfl
  · rfl

theorem ovfWord_withDebugs (s : State) (g : SMap Debug) (d : DieId) (slot off : Nat) :
    (s.withDebugs g).ovfWord d slot off = ((s.ovfWord d slot off).1.withDebugs g, (s.ovfWord d slot off).2) := by
  have die : (s.withDebugs g).die d = s.die d := rfl
  unfold ovfWord
  dsimp only
  rw [die]
  split <;> rfl

theorem dumpWord_withDebugs (s : State) (g : SMap Debug) (d : DieId) (off : Nat) :
    (s.withDebugs g).dumpWord d off = ((s.dumpWord d off).1.withDebugs g, (s.dumpWord d off).2) := by
  have die : (s.withDebugs g).die d = s.die d := rfl
  simp only [dumpWord, die]
  split <;> rfl

theorem readWith_ite {g : SMap Debug} {c : Prop} {_ : Decidable c} {a b a' b' : Option (Nat × State)} (ha : a' = readWith g a)
    (hb : b' = readWith g b) : (if c then a' else b') = readWith g (if c then a else b) := by
  split <;> assumption

theorem dieRead_withDebugs (s : State) (g : SMap Debug) (d : DieId) (o : Nat) :
    (s.withDebugs g).dieRead d o = readWith g (s.dieRead d o) := by
  -- Each part of the block is read at an index of its own: the offsets of the window are not computed with.
  have link (l : LinkId) (x : Nat) : (if x = 0 then some (((s.withDebugs g).link l).stat, (s.withDebugs g).setLink l
        { (s.withDebugs g).link l with retrains := 0, replays := 0, crcErrors := 0 })
      else some (((s.withDebugs g).link l).retired.toNat, s.withDebugs g)) = readWith g (if x = 0 then some ((s.link l).stat,
        s.setLink l { s.link l with retrains := 0, replays := 0, crcErrors := 0 })
      else some ((s.link l).retired.toNat, s)) := readWith_ite rfl rfl
  have region (r : Nat) : some (((s.withDebugs g).region d r).reg, (s.withDebugs g).setRegion d r
        { (s.withDebugs g).region d r with slackMin := 0x7F, raises := 0 }) = readWith g (some ((s.region d r).reg,
        s.setRegion d r { s.region d r with slackMin := 0x7F, raises := 0 })) := rfl
  have same (x : Nat) : some (x, s.withDebugs g) = readWith g (some (x, s)) := rfl
  have swap {a b : State × Nat} (h : a = (b.1.withDebugs g, b.2)) : some (a.2, a.1) = readWith g (some (b.2, b.1)) := by
    subst h
    rfl
  have errors (c j : Nat) : some ((s.withDebugs g).storeErrRead d c j) = readWith g (some (s.storeErrRead d c j)) :=
    congrArg some (storeErrRead_withDebugs ..)
  simp only [dieRead]
  refine readWith_ite (dieRegRead_withDebugs ..) (readWith_ite (link ..) (readWith_ite (region ..) ?_))
  refine readWith_ite (errors ..) (readWith_ite (errors ..) (readWith_ite (same ..) (readWith_ite (swap (ovfWord_withDebugs ..)) ?_)))
  refine readWith_ite (readWith_ite (same ..) (readWith_ite (same ..) rfl)) (readWith_ite (same ..) ?_)
  exact readWith_ite (swap (dumpWord_withDebugs ..)) rfl

/-- A read of a die's block leaves memory alone. -/
structure SameMem (s : State) (r : Option (Nat × State)) : Prop where
  same : ∀ p ∈ r, p.2.mem = s.mem

theorem sameMem_ite {c : Prop} {_ : Decidable c} {a b : Option (Nat × State)} (ha : SameMem s a) (hb : SameMem s b) :
    SameMem s (if c then a else b) := by
  split <;> assumption

theorem sameMem_some {x : Nat} (same : u.mem = s.mem) : SameMem s (some (x, u)) := ⟨fun _ h => by
  rw [← Option.mem_some.mp h]
  exact same⟩

theorem sameMem_none : SameMem s none := ⟨fun _ h => absurd h (Option.not_mem_none _)⟩

theorem sameMem_dieRegRead (s : State) (d : DieId) (o : Nat) : SameMem s (s.dieRegRead d o) := by
  unfold dieRegRead
  dsimp only
  split
  case h_3 =>
    refine sameMem_some ?_
    split <;> rfl
  case h_19 => exact sameMem_none
  all_goals exact sameMem_some rfl

theorem sameMem_dieRead (s : State) (d : DieId) (o : Nat) : SameMem s (s.dieRead d o) := by
  have region (r x : Nat) (v : Region) : SameMem s (some (x, s.setRegion d r v)) := sameMem_some rfl
  have link (l : LinkId) (x : Nat) (v : Link) : SameMem s (some (x, s.setLink l v)) := sameMem_some rfl
  have same (x : Nat) : SameMem s (some (x, s)) := sameMem_some rfl
  have errors (c j : Nat) : SameMem s (some (s.storeErrRead d c j)) := by
    unfold storeErrRead
    dsimp only
    split
    · exact sameMem_some rfl
    split
    · exact sameMem_some rfl
    split <;> exact sameMem_some rfl
  have ovf (slot off : Nat) : (s.ovfWord d slot off).1.mem = s.mem := by
    unfold ovfWord
    dsimp only
    split <;> rfl
  have dump (off : Nat) : (s.dumpWord d off).1.mem = s.mem := by
    simp only [dumpWord]
    split <;> rfl
  simp only [dieRead]
  refine sameMem_ite (sameMem_dieRegRead ..) (sameMem_ite (sameMem_ite (link ..) (same ..)) ?_)
  refine sameMem_ite (region ..) (sameMem_ite (errors ..) (sameMem_ite (errors ..) ?_))
  refine sameMem_ite (same ..) (sameMem_ite (sameMem_some (ovf ..)) (sameMem_ite ?_ ?_))
  · exact sameMem_ite (same ..) (sameMem_ite (same ..) sameMem_none)
  · exact sameMem_ite (same ..) (sameMem_ite (sameMem_some (dump ..)) sameMem_none)

/-- The debug port of a die once an access has been shifted in. -/
def shiftedIn (s : State) (d : DieId) (addr : W32) (write : Bool) : State :=
  s.setDebug d { s.debug d with tap := .updateDr, ir := 0x3, addr := addr, write := write }

theorem debugAccess_reads {addr : W32} {x : Nat} (v : W64) (served : (s.die d).stage ≠ .held) (own : bitAt addr.toNat 31 = false)
    (inside : field addr.toNat 27 3 * 8 < 0x1000000) (read : s.dieRead d (field addr.toNat 27 3 * 8) = some (x, u)) :
    s.debugAccess d addr false v = (u.withDebugs (s.shiftedIn d addr false).debugs).setDebug d
      { (s.shiftedIn d addr false).debug d with err := false, data := BitVec.ofNat 64 x } := by
  have shifted : (s.shiftedIn d addr false).dieRead d (field addr.toNat 27 3 * 8) =
      some (x, u.withDebugs (s.shiftedIn d addr false).debugs) :=
    (dieRead_withDebugs s (s.shiftedIn d addr false).debugs ..).trans (congrArg _ read)
  rw [shiftedIn] at shifted ⊢
  have on : ((s.setDebug d { s.debug d with tap := .updateDr, ir := 0x3, addr := addr, write := false }).die d).stage ≠ .held :=
    served
  simp only [debugAccess, own, inside, Bool.false_eq_true, if_false, if_true, on, Bool.not_false, shifted]
  rfl

/-- A block in reset answers no access (R465, R470). -/
theorem debugAccess_held (addr : W32) (write : Bool) (v : W64) (held : (s.die d).stage = .held) :
    s.debugAccess d addr write v = (s.shiftedIn d addr write).setDebug d
      { (s.shiftedIn d addr write).debug d with err := true, data := 0 } := by
  have off : ((s.setDebug d { s.debug d with tap := .updateDr, ir := 0x3, addr := addr, write := write }).die d).stage = .held :=
    held
  unfold debugAccess
  dsimp only
  split
  · rfl
  · rw [if_pos off]
    rfl

end State

/-- Settles O59: a monitor takes an event once and apart from the others; the reads of the debug port are those of the die's
block, which know nothing of the port. -/
theorem monitorsAndPins : Obligations.MonitorsAndPins := by
  unfold Obligations.MonitorsAndPins
  refine ⟨?sorted, ?passed, ?link, ?other, ?masks, ?message, ?read, ?held, ?trst⟩
  case sorted =>
    intro s d i v here served gives due
    refine ⟨_, (onDie_next here _).trans (congrArg _ ((State.sample_gives served gives).trans
      (State.hmTake_sorted due (State.idle_of_gives gives)))), ?_⟩
    rw [State.monitor_setMonitor]
    exact ⟨rfl, rfl, rfl, rfl, State.live_sorted ..⟩
  case passed =>
    intro s d i v here served gives passed
    refine ⟨_, (onDie_next here _).trans (congrArg _ ((State.sample_gives served gives).trans
      (State.hmTake_passed passed))), ?_⟩
    rw [State.monitor_setMonitor]
    exact ⟨rfl, rfl⟩
  case link =>
    intro s d i v l here served source link used ended due
    obtain ⟨u, same, die, reached⟩ := State.hmEvent_reaches (s := s.setLink l { s.link l with hmReplays := 0, hmAt := (s.die d).ticks })
      (d := d) (src := 4) (sel := fun n => decide (n = (s.monitor d i.val).sel)) (v := sampleOf (s.link l).hmReplays)
      i.isLt source (decide_eq_true rfl)
    have same : u.monitor d i.val = s.monitor d i.val := same
    obtain ⟨m, n, only⟩ := (OnlySampled.refl (s.setLink l { s.link l with hmReplays := 0, hmAt := (s.die d).ticks })).hmEvent d 4
      (fun n => decide (n = (s.monitor d i.val).sel)) (sampleOf (s.link l).hmReplays)
    refine ⟨_, (onDie_next here _).trans (congrArg _ (State.sample_link served source link used ended)), ?_, ?_, ?_⟩
    · rw [reached, State.hmTake_sorted (by rwa [same]) (by rw [same, source]; exact fun h => absurd h (by decide)),
        State.monitor_setMonitor, same]
      rfl
    · rw [only]
      exact congrArg Link.hmReplays (State.link_setLink ..)
    · rw [only]
      exact congrArg Link.hmAt (State.link_setLink ..)
  case other =>
    intro s d i v here other
    exact (onDie_next here _).trans (congrArg _ (State.sample_other other))
  case masks =>
    intro s role d v here driver opened
    have joins := State.hmCrown_joins here driver opened v
    refine ⟨_, congrArg Host.Outcome.next joins, congrArg Host.Outcome.next joins, ?_, ?_, rfl, rfl⟩
    · exact congrArg Die.hmSnap (State.die_setDie ..)
    · exact congrArg Die.hmClear (State.die_setDie ..)
  case message =>
    intro s d x rest here waiting
    have row : s.imTransfer d = { s with im := s.im.setD [] d.val rest, imSent := some x } := by
      simp only [State.imTransfer, waiting]
    exact ⟨_, (onDie_next here _).trans (congrArg _ row), rfl, SMap.get_setD_same .., rfl⟩
  case read =>
    intro s u d addr v x here served own inside read
    refine ⟨_, (onDie_next here _).trans (congrArg _ (State.debugAccess_reads v served own inside read)), ?_⟩
    rw [State.debug_setDebug]
    refine ⟨rfl, ?_, rfl, (State.sameMem_dieRead s d _).same _ read⟩
    exact congrArg Debug.addr (State.debug_setDebug ..)
  case held =>
    intro s d addr write v here held
    refine ⟨_, (onDie_next here _).trans (congrArg _ (State.debugAccess_held addr write v held)), ?_⟩
    rw [State.debug_setDebug]
    exact ⟨rfl, rfl, rfl⟩
  case trst =>
    intro s d here
    exact ⟨_, onDie_next here _, SMap.get_put_same .., rfl⟩

end Sys2Proof.Machine
end

section
/-! PROOFS. The reset ladder and its dumps (O53). -/
namespace Sys2Proof.Machine

/-- The dies of two states agree in all but what the transport of messages and requests touches. -/
structure StillDies (s t : State) : Prop where
  same : ∀ d, (t.die d).still = (s.die d).still

theorem Carries.stillDies {s t : State} (h : Carries s t) : StillDies s t := ⟨h.die⟩

namespace StillDies

variable {s t u : State}

theorem refl (s : State) : StillDies s s := ⟨fun _ => rfl⟩

theorem trans (h : StillDies s t) (h' : StillDies t u) : StillDies s u := ⟨fun d => (h'.same d).trans (h.same d)⟩

theorem updCore (s : State) (c : CoreId) (f : Core → Core) : StillDies s (s.updCore c f) := ⟨fun _ => rfl⟩

theorem foldl {α : Type} {f : State → α → State} (k : ∀ u a, StillDies u (f u a)) (l : List α) (h : StillDies s t) :
    StillDies s (l.foldl f t) :=
  List.foldlRecOn l f (motive := StillDies s) h fun u h a _ => h.trans (k u a)

theorem releaseSems (s : State) (c : CoreId) : StillDies s (s.releaseSems c) := by
  unfold State.releaseSems
  dsimp only
  split
  · exact updCore ..
  · exact foldl (fun u _ => (Carries.sendMsg u _ _ _).stillDies) _ (updCore ..)

theorem quietCheck (s : State) (c : CoreId) : StillDies s (s.quietCheck c) := by
  unfold State.quietCheck
  dsimp only
  split
  · exact refl s
  split
  · exact ((releaseSems ..).trans (updCore ..)).trans (Carries.sendMsg ..).stillDies
  · exact refl s

theorem ackReset (s : State) (c : CoreId) : StillDies s (s.ackReset c) := by
  unfold State.ackReset
  dsimp only
  split
  · exact refl s
  split
  · exact (updCore ..).trans (Carries.sendMsg ..).stillDies
  · exact refl s

theorem coresBack (s : State) (u : ResetUnit) : StillDies s (s.coresBack u) :=
  foldl (fun t c => (updCore ..).trans (ackReset (t.updCore c _) c)) _ (refl s)

theorem escalations (h : StillDies s t) (d : DieId) : (t.die d).escalations = (s.die d).escalations :=
  (congrArg Die.escalations (h.same d) :)

theorem dumps (h : StillDies s t) (d : DieId) : (t.die d).dumps = (s.die d).dumps := (congrArg Die.dumps (h.same d) :)

end StillDies

namespace State

variable {s u : State} {d : DieId} {n : Nat} {e : Escalation}

/-! ### Escalations -/

theorem esc_setEsc (found : s.esc d n = some e) (f : Escalation) : (s.setEsc d n f).esc d n = some f := by
  rw [esc, setEsc, die_setDie]
  exact List.getElem?_set_self (List.getElem?_eq_some_iff.mp found).1

theorem startLadder_first {u : ResetUnit} (runs : (s.die u.dieId).computeReset = false) (none : (s.die u.dieId).escalations = [])
    (code : Nat) : ∃ e, ((s.startLadder u code).die u.dieId).escalations = [e] ∧ e.unit = u ∧ e.code = code ∧
      e.level = u.level ∧ e.t0 = (s.die u.dieId).ticks ∧ e.resetAt = .none ∧ (s.startLadder u code).mem = s.mem ∧
      (s.startLadder u code).cores = s.cores := by
  have free : s.covered u = false := by simp only [covered, none, List.any_nil]
  simp only [startLadder, outOfService, runs, free, none, Bool.false_and, Bool.false_eq_true, if_false, List.find?_nil,
    List.nil_append, die_setDie]
  exact ⟨_, rfl, rfl, rfl, rfl, rfl, rfl, rfl, rfl⟩

/-! ### Regions -/

/-- What a region holds is read without an effect, but for the draw of its free bytes. -/
theorem regionData_only (s : State) (d : DieId) (r : RegionTodo) : ∃ n, (s.regionData d r).1 = { s with freeNext := n } := by
  have core (c : CoreId) : ∃ n, (s.coreRegion c r).1 = { s with freeNext := n } := by
    unfold coreRegion
    dsimp only
    split <;> exact ⟨_, rfl⟩
  have cluster (k : ClusterId) : ∃ n, (s.clusterRegion k r).1 = { s with freeNext := n } := by
    unfold clusterRegion
    dsimp only
    split <;> exact ⟨_, rfl⟩
  unfold regionData
  dsimp only
  split
  · exact cluster _
  · exact cluster _
  · exact cluster _
  · exact ⟨_, rfl⟩
  · exact ⟨_, rfl⟩
  · exact ⟨s.freeNext, rfl⟩
  · exact ⟨s.freeNext, rfl⟩
  · exact core _

/-- The record of a region in a dump (R365). -/
def regionRecord (s : State) (d : DieId) (r : RegionTodo) (status : Nat) (data : List Byte) : DumpRegion :=
  { id := r.id, status := status, unit := r.unit, key := r.key, idx := r.idx, data := data, time := (s.die d).count }

theorem addRegion_fits {r : RegionTodo} {status : Nat} {data : List Byte} (kept : e.kept = true)
    (fits : s.dumpOthers d e.dump.seqno + dumpBytes e.dump + regionBytes data.length ≤ 524288) :
    s.addRegion d e r status data =
      { e with dump := { e.dump with regions := e.dump.regions ++ [s.regionRecord d r status data] } } := by
  simp only [addRegion, kept, fits, and_self, if_true]
  rfl

/-- A region that is not the last one leaves the others to be read (R364). -/
theorem esc_regionDone {path : Nat} {r : RegionTodo} {x : Escalation} (found : s.esc d n = some x)
    (more : e.todo.erase r ≠ []) : (s.regionDone d n path e r).esc d n =
      some { e with todo := e.todo.erase r, pathAt := e.pathAt.put path (s.die d).ticks } := by
  have some : (e.todo.erase r).isEmpty = false := by simpa using more
  simp only [regionDone, some, Bool.false_eq_true, if_false]
  exact esc_setEsc found _

section
variable {path : Nat} {r : RegionTodo} (found : s.esc d n = some e)
  (next : (e.todo.find? fun r => decide (r.path = path)) = some r) (collects : e.resetAt = none)
include found next collects

theorem regionRead_answers (early : s.since d (e.pathAt.get 0 path) < 200) : s.regionRead d n path =
    (s.regionData d r).1.regionDone d n path ((s.regionData d r).1.addRegion d e r 0 (s.regionData d r).2) r := by
  simp only [regionRead, found, next, collects, Nat.not_le.mpr early, Option.isSome_none, Bool.false_eq_true, or_self, if_false]

theorem regionLate_marks (late : 200 ≤ s.since d (e.pathAt.get 0 path)) :
    s.regionLate d n path = s.regionDone d n path (s.addRegion d e r 1 []) r := by
  simp only [regionLate, found, next, collects, Nat.not_lt.mpr late, Option.isSome_none, Bool.false_eq_true, or_self, if_false]

end

/-! ### The end of a collection, and the deadline -/

/-- A region that is cut off leaves an escalation's unit and level. -/
theorem cutoff_resets (found : s.esc d n = some e) (collects : e.resetAt = none) (ended : e.level.collect ≤ s.since d e.from') :
    ∃ f : Escalation, s.cutoff d n = (s.setEsc d n f).assertReset d n ∧ f.todo = [] ∧ f.unit = e.unit ∧ f.level = e.level := by
  simp only [cutoff, found, collects, Nat.not_lt.mpr ended, Option.isSome_none, Bool.false_eq_true, or_self, if_false]
  refine ⟨_, rfl, rfl, ?_⟩
  refine List.foldlRecOn e.todo _ (motive := fun f : Escalation => f.unit = e.unit ∧ f.level = e.level) ⟨rfl, rfl⟩
    fun f same r _ => ?_
  split <;> exact same

/-- An escalation that covers no other one takes none over (R360). -/
theorem esc_absorb {f : Escalation} (found : s.esc d n = some f) (alone : ∀ x ∈ (s.die d).escalations,
      x.dump.seqno ≠ f.dump.seqno → (f.unit.atLevel f.level).contains (x.unit.atLevel x.level) = false) :
    (s.absorb d f).esc d n = some f := by
  have kept : ((s.die d).escalations.filter fun x =>
      !((f.unit.atLevel f.level).contains (x.unit.atLevel x.level) && decide (x.dump.seqno ≠ f.dump.seqno))) =
        (s.die d).escalations := by
    refine List.filter_eq_self.mpr fun x listed => ?_
    by_cases same : x.dump.seqno = f.dump.seqno
    · simp [same]
    · simp [alone x listed same]
  have posted (l : List Escalation) (t : State) : (l.foldl (fun s _ => s.postIm d (0x1200 + d.val) 0) t).dies = t.dies :=
    List.foldlRecOn l _ (motive := fun u : State => u.dies = t.dies) rfl fun u same _ _ => same
  rw [absorb]
  dsimp only
  rw [esc, die, posted]
  show ((s.setDie d _).die d).escalations[n]? = some f
  rw [die_setDie, kept]
  exact found

theorem resetDeadline_core (found : s.esc d n = some e) (engine : e.level = .engine) (late : 2000 ≤ s.since d e.t0)
    (more : s.regionsLeft (e.unit.atLevel .core) e.dump ≠ []) (core : (e.unit.atLevel .core).level = .core) :
    s.resetDeadline d n = (s.setEsc d n (s.beginLevel d { e with from' := (s.die d).ticks } .core)).absorb d
      (s.beginLevel d { e with from' := (s.die d).ticks } .core) := by
  have some : (s.beginLevel d { e with from' := (s.die d).ticks } .core).todo.isEmpty = false := by
    simpa [beginLevel] using more
  have due : ¬s.since d e.t0 < e.level.deadline := by
    rw [engine]
    exact Nat.not_lt.mpr late
  have next : e.level.next = .some .core := by
    rw [engine]
    rfl
  simp only [resetDeadline, found, due, if_false, next, core, some, Bool.false_eq_true]

theorem resetDeadline_last (found : s.esc d n = some e) (last : e.level = .die) (late : 40000 ≤ s.since d e.t0) :
    s.resetDeadline d n = ((s.escOver d n e).setDie d { (s.escOver d n e).die d with
      computeReset := true, heldLadder := true }).reportFree d 0x1804 := by
  have due : ¬s.since d e.t0 < e.level.deadline := by
    rw [last]
    exact Nat.not_lt.mpr late
  have next : e.level.next = none := by
    rw [last]
    rfl
  simp only [resetDeadline, found, due, if_false, next]

theorem die_escOver (s : State) (d : DieId) (n : Nat) (e : Escalation) : (s.escOver d n e).die d = { s.die d with
    escalations := (s.die d).escalations.eraseIdx n
    dumps := if e.kept then (s.die d).dumps ++ [e.dump] else (s.die d).dumps } := by
  unfold escOver
  dsimp only
  split <;> exact die_setDie ..

/-! ### The reset check of a core -/

theorem run_sendMsg (src dst : DieId) (m : Msg) (c : CoreId) : (s.sendMsg src dst m).core c = s.core c :=
  congrArg (fun l : SMap Core => l.get {} c.key) (cores_sendMsg s src dst m)

/-- A core's run and part: an acknowledgement of its stop leaves them alone. -/
def running (s : State) (c : CoreId) : CoreRun × Option Nat := ((s.core c).run, (s.core c).part)

theorem running_updCore {c x : CoreId} {f : Core → Core} (run : ∀ k, (f k).run = k.run) (part : ∀ k, (f k).part = k.part) :
    (s.updCore x f).running c = s.running c := by
  by_cases same : c = x
  · subst same
    rw [running, core_updCore, run, part]
    rfl
  · rw [running, updCore, core_setCore_other _ _ _ _ same]
    rfl

theorem running_sendMsg (src dst : DieId) (m : Msg) (c : CoreId) : (s.sendMsg src dst m).running c = s.running c := by
  rw [running, run_sendMsg]
  rfl

theorem running_ackReset (x c : CoreId) : (s.ackReset x).running c = s.running c := by
  unfold ackReset
  dsimp only
  split
  · rfl
  split
  · exact (running_sendMsg ..).trans (running_updCore (fun _ => rfl) fun _ => rfl)
  · rfl

theorem running_quietCheck (x c : CoreId) : (s.quietCheck x).running c = s.running c := by
  have released : (s.releaseSems x).running c = s.running c := by
    have dropped : (s.updCore x fun k => { k with sems := [] }).running c = s.running c :=
      running_updCore (fun _ => rfl) fun _ => rfl
    unfold releaseSems
    dsimp only
    split
    · exact dropped
    · exact List.foldlRecOn _ _ (motive := fun t : State => t.running c = s.running c) dropped fun t same _ _ =>
        (running_sendMsg ..).trans same
  unfold quietCheck
  dsimp only
  split
  · rfl
  split
  · refine (running_sendMsg ..).trans ((running_updCore ?_ ?_).trans released)
    · exact fun _ => rfl
    · exact fun _ => rfl
  · rfl

/-- A core that leaves reset: stopped with a launch, else idle (R353). -/
def backRun (k : Core) : CoreRun := if k.run ≠ .reset then k.run else if k.part.isSome then .stopped else .idle

/-- A core leaves reset, and acknowledges a stop that it had been told. -/
def backOne (s : State) (c : CoreId) : State := (s.updCore c fun k => { k with run := backRun k }).ackReset c

theorem running_backOne (s : State) (c : CoreId) : (s.backOne c).running c = (backRun (s.core c), (s.core c).part) := by
  rw [backOne, running_ackReset, running, core_updCore]

theorem running_backAll_done {c : CoreId} (l : List CoreId) (only : ∀ x ∈ l, x = c) (s : State) (done : (s.core c).run ≠ .reset) :
    (l.foldl backOne s).running c = s.running c := by
  refine List.foldlRecOn l backOne (motive := fun t => t.running c = s.running c) rfl fun t same x listed => ?_
  obtain rfl : x = c := only x listed
  have run : (t.core x).run = (s.core x).run := congrArg Prod.fst same
  rw [running_backOne, backRun, if_pos (run ▸ done)]
  exact same

theorem run_backAll {c : CoreId} {l : List CoreId} (only : ∀ x ∈ l, x = c) (listed : l ≠ []) (reset : (s.core c).run = .reset) :
    ((l.foldl backOne s).core c).run = if (s.core c).part.isSome then .stopped else .idle := by
  cases l with
  | nil => exact absurd rfl listed
  | cons x l =>
    obtain rfl : x = c := only x List.mem_cons_self
    have run : ((s.backOne x).core x).run = if (s.core x).part.isSome then .stopped else .idle := by
      refine (congrArg Prod.fst (running_backOne s x)).trans ?_
      rw [backRun, reset]
      rfl
    refine (congrArg Prod.fst (running_backAll_done l (fun y h => only y (List.mem_cons_of_mem x h)) (s.backOne x) ?_)).trans run
    rw [run]
    split <;> simp

theorem mem_dieCores {c : CoreId} (has : s.hasCore c = true) : c ∈ s.dieCores c.die := by
  simp only [hasCore, hasCluster, Bool.and_eq_true, decide_eq_true_eq] at has
  obtain ⟨⟨-, cluster⟩, core⟩ := has
  refine List.mem_flatMap.mpr ⟨c.cluster, ?_, ?_⟩
  · exact List.mem_map.mpr ⟨c.cl.val, List.mem_range.mpr cluster, by simp [CoreId.cluster]⟩
  · exact List.mem_map.mpr ⟨c.core.val, List.mem_range.mpr core, by simp [CoreId.cluster]⟩

theorem run_coresBack {c : CoreId} (has : s.hasCore c = true) (reset : (s.core c).run = .reset) :
    ((s.coresBack (.core c)).core c).run = if (s.core c).part.isSome then .stopped else .idle := by
  refine run_backAll (l := (s.dieCores c.die).filter fun x => (ResetUnit.core c).contains (.core x)) (fun x listed => ?_) ?_ reset
  · simpa [ResetUnit.contains, ResetUnit.coreOf?] using (List.mem_filter.mp listed).2
  · exact List.ne_nil_of_mem (List.mem_filter.mpr ⟨mem_dieCores has, by simp [ResetUnit.contains, ResetUnit.coreOf?]⟩)

theorem resetCheck_core {c : CoreId} (found : s.esc d n = some e) (reset : e.resetAt.isSome = true) (unit : e.unit = .core c)
    (level : e.level = .core) : s.resetCheck d n = ((s.escOver d n e).coresBack (.core c)).quietCheck c := by
  have held : e.resetAt.isNone = false := by simpa using reset
  simp only [resetCheck, found, held, Bool.false_eq_true, if_false, unit, level, ResetUnit.atLevel, ResetUnit.coreOf?]

/-! ### Slots of requests without a response, dumps freed, and the plan after a reset -/

/-- The slot of a request of a die is returned (R355). -/
def slotFree (s : State) (d : DieId) (n : Nat) : State :=
  s.setDie d { s.die d with orphans := (s.die d).orphans.filter fun x => decide (x.req ≠ n) }

theorem orphans_slotFree (s : State) (d : DieId) (n : Nat) : ∀ x ∈ ((s.slotFree d n).die d).orphans, x.req ≠ n := by
  rw [slotFree, die_setDie]
  exact fun x listed => of_decide_eq_true (List.mem_filter.mp listed).2

section
variable {t₀ : Nat} {o : Orphan} (waits : ((s.die d).orphans.find? fun o => decide (o.req = n)) = some o)
  (since : o.at' = some t₀) (late : 1000 ≤ s.since d t₀)
include waits since late

theorem slotTimeout_answered (gone : s.reqs.find? n = none) : s.slotTimeout d n = s.slotFree d n := by
  simp only [slotTimeout, waits, Option.bind_some, since, Nat.not_lt.mpr late, if_false]
  rw [show (s.setDie d { s.die d with orphans := (s.die d).orphans.filter fun x => decide (x.req ≠ n) }).reqs.find? n = none
    from gone]
  rfl

theorem slotTimeout_request {r : Req} (found : s.reqs.find? n = some r) (own : ∀ link credit, r.st ≠ .remote link credit) :
    s.slotTimeout d n =
      ({ s.slotFree d n with reqs := (s.slotFree d n).reqs.put n { r with gone := true } } : State).slotBack r := by
  simp only [slotTimeout, waits, Option.bind_some, since, Nat.not_lt.mpr late, if_false]
  rw [show (s.setDie d { s.die d with orphans := (s.die d).orphans.filter fun x => decide (x.req ≠ n) }).reqs.find? n = some r
    from found]
  dsimp only
  split
  next link credit st => exact absurd st (own link credit)
  · rfl

end

theorem dumpFree_oldest {role : Byte} {x : Dump} {rest : List Dump} (here : s.hasDie d = true)
    (driver : roleOf role = some .driver) (opened : s.crownOpen = true) (held : (s.die d).dumps = x :: rest) :
    s.dumpFree role 0xFF d 1 = (s.setDie d { s.die d with
      dumps := rest, dumpBase := ((s.die d).dumpBase + dumpBytes x) % 524288 }).crownOk := by
  have free : bitAt ((1 : W64) &&& BitVec.allOnes 64).toNat 0 = true := by decide
  simp only [dumpFree, here, Bool.not_true, Bool.false_eq_true, if_false]
  rw [driverWrite_driver driver opened rfl, dumpStatWrite, rsvdWrite_plain d (by decide)]
  simp only [held, free, if_true]

/-- A region as the plan after a DIE reset starts it (R392). -/
def replanned (s : State) (d : DieId) (t : State) (r : Nat) : Region :=
  { (t.region d r).remeasure (s.die d).ticks with
    code := (s.die d).savedCodes.get 0x20 r
    fresh := []
    atCode := {}
    plan := if (t.region d r).monFail then none else some .dieReset }

theorem dieReplan_ready (carori : s.caroriRuns d = true) (awaits : (s.die d).awaitPlan = true)
    (runs : (s.die d).computeReset = false) (ready : (s.die d).stage = .ready) :
    s.dieReplan d = (s.regionsOn d).foldl (fun t r => t.setRegion d r (s.replanned d t r))
      (s.setDie d { s.die d with awaitPlan := false }) := by
  have plan : ¬(Stage.ready = .plan) := by decide
  simp only [dieReplan, carori, awaits, runs, ready, plan, decide_true, Bool.or_true, Bool.not_true, Bool.false_eq_true, or_self,
    if_false, decide_false, false_and]
  rfl

theorem region_setRegion (s : State) (d : DieId) (r : Nat) (v : Region) : (s.setRegion d r v).region d r = v := by
  rw [region, setRegion, steward_setSteward]
  exact SMap.get_put_same ..

theorem region_setRegion_other (s : State) (d : DieId) {r x : Nat} (v : Region) (other : x ≠ r) :
    (s.setRegion d r v).region d x = s.region d x := by
  rw [region, setRegion, steward_setSteward]
  exact SMap.get_put_other _ _ _ other

/-- A code that a fold writes to each region of a list is there at its end. -/
theorem code_foldl_setRegion {f : State → Nat → Region} {code : Nat → Nat} (writes : ∀ t r, (f t r).code = code r) (l : List Nat)
    (t : State) {r : Nat} (h : r ∈ l ∨ (t.region d r).code = code r) :
    ((l.foldl (fun t r => t.setRegion d r (f t r)) t).region d r).code = code r := by
  induction l generalizing t with
  | nil => simpa using h
  | cons x l ih =>
    refine ih _ ?_
    by_cases same : r = x
    · subst same
      exact .inr (by rw [region_setRegion, writes])
    · rw [region_setRegion_other _ _ _ same]
      simpa [same] using h

theorem dies_foldl_setRegion (f : State → Nat → Region) (l : List Nat) (t : State) :
    (l.foldl (fun t r => t.setRegion d r (f t r)) t).dies = t.dies :=
  List.foldlRecOn l _ (motive := fun u : State => u.dies = t.dies) rfl fun _ same _ _ => same

end State

/-- Settles O53: each clause is one case of its operation; a region's record, an escalation's level and a core's run are followed
through what the operation does next. -/
theorem resetLadderAndDumps : Obligations.ResetLadderAndDumps := by
  unfold Obligations.ResetLadderAndDumps
  refine ⟨?watchdog, ?read, ?late, ?cutoff, ?deadline, ?last, ?check, ?answered, ?request, ?free, ?replan⟩
  case watchdog =>
    intro s u n has runs limit watched none
    obtain ⟨e, one, unit, code, level, t0, reset, mem, cores⟩ := State.startLadder_first runs none 0x1801
    have row : s.watchdog u n = s.startLadder u 0x1801 := by
      simp only [State.watchdog, runs, Nat.not_lt.mpr limit, watched, Bool.not_true, Bool.false_eq_true, or_self, if_false]
    exact ⟨_, e, (if_pos has).trans (congrArg _ row), one, unit, code, level, t0, reset, mem, cores⟩
  case read =>
    intro s d n path e r here found next collects early more kept fits
    obtain ⟨free, only⟩ := State.regionData_only s d r
    have same : (s.regionData d r).1.esc d n = some e := by
      rw [only]
      exact found
    have joined := State.addRegion_fits (r := r) (status := 0) kept fits
    refine ⟨_, _, (onDie_next here _).trans (congrArg _ (State.regionRead_answers found next collects early)),
      State.esc_regionDone same (by rwa [joined]), ?_⟩
    rw [joined]
    refine ⟨rfl, collects, ?_⟩
    rw [State.regionRecord, only]
    rfl
  case late =>
    intro s d n path e r here found next collects late more kept fits
    have joined := State.addRegion_fits (r := r) (status := 1) (data := []) kept fits
    refine ⟨_, _, (onDie_next here _).trans (congrArg _ (State.regionLate_marks found next collects late)),
      State.esc_regionDone found (by rwa [joined]), ?_⟩
    rw [joined]
    exact ⟨rfl, rfl⟩
  case cutoff =>
    intro s d n e here found collects ended
    obtain ⟨f, row, todo, unit, level⟩ := State.cutoff_resets found collects ended
    exact ⟨_, f, (onDie_next here _).trans (congrArg _ row), State.esc_setEsc found f, todo, unit, level, rfl⟩
  case deadline =>
    intro s d n e here found engine late more core alone
    refine ⟨_, _, (onDie_next here _).trans (congrArg _ (State.resetDeadline_core found engine late more core)),
      State.esc_absorb (State.esc_setEsc found _) ?_, rfl, rfl, rfl, rfl, rfl⟩
    rw [State.setEsc, State.die_setDie]
    intro x listed other
    rcases List.mem_or_eq_of_mem_set listed with before | rfl
    · exact alone x before other
    · exact absurd rfl other
  case last =>
    intro s d n e here found last late
    obtain ⟨cause, latch⟩ := State.safety_reportFree ((s.escOver d n e).setDie d { (s.escOver d n e).die d with
      computeReset := true, heldLadder := true }) d (code := 0x1804) rfl (by decide)
    have die := (State.die_reportFree ((s.escOver d n e).setDie d { (s.escOver d n e).die d with
      computeReset := true, heldLadder := true }) d 0x1804 d).trans (State.die_setDie ..)
    refine ⟨_, (onDie_next here _).trans (congrArg _ (State.resetDeadline_last found last late)), ?_, ?_, ?_, cause,
      latch.trans (Bool.or_true _)⟩
    · rw [die]
    · rw [die]
    · rw [die, State.die_escOver]
  case check =>
    intro s d n e c here found reset unit level die has inReset kept
    have still : StillDies (s.escOver d n e) (((s.escOver d n e).coresBack (.core c)).quietCheck c) :=
      (StillDies.coresBack ..).trans (StillDies.quietCheck ..)
    have cores : (s.escOver d n e).cores = s.cores ∧ (s.escOver d n e).build = s.build := by
      unfold State.escOver
      dsimp only
      split <;> exact ⟨rfl, rfl⟩
    have core : (s.escOver d n e).core c = s.core c := congrArg (fun l : SMap Core => l.get {} c.key) cores.1
    have has' : (s.escOver d n e).hasCore c = true := by
      rw [State.hasCore, State.hasCluster, State.hasDie, cores.2]
      exact has
    refine ⟨_, (onDie_next here _).trans (congrArg _ (State.resetCheck_core found reset unit level)), ?_, ?_, ?_⟩
    · rw [still.escalations, State.die_escOver]
    · rw [still.dumps, State.die_escOver, if_pos kept]
    · refine (congrArg Prod.fst (State.running_quietCheck c c)).trans ?_
      refine (State.run_coresBack has' (by rw [core]; exact inReset)).trans ?_
      rw [core]
  case answered =>
    intro s d n t₀ o here waits since late gone
    exact ⟨_, (onDie_next here _).trans (congrArg _ (State.slotTimeout_answered waits since late gone)),
      State.orphans_slotFree s d n, rfl⟩
  case request =>
    intro s d n t₀ o r here waits since late found own
    exact ⟨_, (onDie_next here _).trans (congrArg _ (State.slotTimeout_request waits since late found own)),
      State.orphans_slotFree s d n, SMap.find?_put_same .., rfl⟩
  case free =>
    intro s role d x rest here driver opened held
    refine ⟨_, congrArg Host.Outcome.next (State.dumpFree_oldest here driver opened held), ?_, ?_, rfl⟩
    · exact congrArg Die.dumps (State.die_setDie ..)
    · exact congrArg Die.dumpBase (State.die_setDie ..)
  case replan =>
    intro s d here carori awaits runs ready
    refine ⟨_, (onDie_next here _).trans (congrArg _ (State.dieReplan_ready carori awaits runs ready)), ?_, fun r listed => ?_⟩
    · exact (congrArg (fun m : SMap Die => (m.get {} d.val).awaitPlan) (State.dies_foldl_setRegion ..)).trans
        (congrArg Die.awaitPlan (State.die_setDie ..))
    · exact State.code_foldl_setRegion (f := s.replanned d) (code := fun r => (s.die d).savedCodes.get 0x20 r)
        (fun _ _ => rfl) _ _ (.inl listed)

end Sys2Proof.Machine
end

section
/-!
PROOFS. Margin supervision: the supervision cycle, readings and failures of the monitors, the plans they ask for, the voltage
request and the hourly record (20_supply_and_margin.md, R378, R387 to R394).
-/
namespace Sys2Proof.Machine

/-- A byte is the slack that its reading stands for (R387). -/
theorem ofInt_slackInt (x : Byte) : BitVec.ofInt 8 (slackInt x) = x := by
  have fits : x.toNat % 2 ^ 8 = x.toNat := Nat.mod_eq_of_lt x.isLt
  apply BitVec.eq_of_toNat_eq
  have bound := x.isLt
  rw [slackInt, signed, fits, BitVec.toNat_ofInt]
  split <;> omega

namespace State

variable {s t : State} {d : DieId} {r : Nat}

/-! ### What a report and a sample leave alone -/

/-- A steward that differs from another by reports at most: in its safety outputs, its events and the queue of its journal. -/
def Reported (k k' : Steward) : Prop := ∃ f q a b, k' = { k with
  safety := f, journal := { k.journal with queue := q }, eventAt := a, eventRepeats := b }

theorem Reported.refl (k : Steward) : Reported k k := ⟨k.safety, k.journal.queue, k.eventAt, k.eventRepeats, rfl⟩

theorem Reported.trans {k k' k'' : Steward} (h : Reported k k') (h' : Reported k' k'') : Reported k k'' := by
  obtain ⟨f, q, a, b, rfl⟩ := h
  obtain ⟨f', q', a', b', rfl⟩ := h'
  exact ⟨f', q', a', b', rfl⟩

theorem reported_eventRecord (s : State) (d : DieId) (code info : Nat) :
    Reported (s.steward d) ((s.eventRecord d code info).steward d) := by
  unfold eventRecord eventRecord.fresh journal
  dsimp only
  split
  · split <;> rw [steward_setSteward]
    · exact ⟨(s.steward d).safety, (s.steward d).journal.queue, (s.steward d).eventAt, _, rfl⟩
    · rw [steward_setSteward]
      exact ⟨(s.steward d).safety, _, _, (s.steward d).eventRepeats, rfl⟩
  · rw [steward_setSteward, steward_setSteward]
    exact ⟨(s.steward d).safety, _, _, (s.steward d).eventRepeats, rfl⟩

theorem reported_setCause (s : State) (d : DieId) (b code : Nat) (ssr : Bool) :
    Reported (s.steward d) ((s.setCause d b code ssr).steward d) := by
  rw [setCause, steward_setSteward]
  exact ⟨_, (s.steward d).journal.queue, (s.steward d).eventAt, (s.steward d).eventRepeats, rfl⟩

/-- A report tells the steward alone (R423, Table 19-3). -/
theorem steward_report (s : State) (d : DieId) (code info : Nat) : Reported (s.steward d) ((s.report d code info).steward d) := by
  unfold report
  dsimp only
  split <;> split
  · exact (reported_setCause ..).trans (reported_eventRecord ..)
  · exact reported_eventRecord ..
  · exact reported_setCause ..
  · exact Reported.refl _

theorem region_report (code info r : Nat) : (s.report d code info).region d r = s.region d r := by
  obtain ⟨f, q, a, b, told⟩ := steward_report s d code info
  rw [region, told]
  rfl

/-- A sample of the monitors leaves the stewards and the dies alone. -/
theorem sampled_hmEvent (s : State) (d : DieId) (src : Nat) (sel : Nat → Bool) (v : W32) :
    (s.hmEvent d src sel v).stewards = s.stewards ∧ (s.hmEvent d src sel v).dies = s.dies := by
  obtain ⟨m, n, only⟩ := (OnlySampled.refl s).hmEvent d src sel v
  rw [only]
  exact ⟨rfl, rfl⟩

theorem region_of_stewards (same : t.stewards = s.stewards) : t.region d r = s.region d r :=
  congrArg (fun m : SMap Steward => (m.get {} d.val).regions.get {} r) same

theorem caroriRuns_of_stewards (same : t.stewards = s.stewards) : t.caroriRuns d = s.caroriRuns d :=
  congrArg (fun m : SMap Steward => decide ((m.get {} d.val).mode = .carori) && (m.get {} d.val).journal.replayed) same

theorem caroriRuns_setRegion (v : Region) : (s.setRegion d r v).caroriRuns d = s.caroriRuns d := by
  simp [caroriRuns, setRegion]

theorem safety_setRegion (v : Region) : ((s.setRegion d r v).steward d).safety = (s.steward d).safety := by
  simp [setRegion]

/-! ### Plans -/

/-- A plan whose measurement is not complete decides nothing (R391). -/
theorem planStep_unmeasured (open' : (s.region d r).measure = none) : s.planStep d r = s := by
  unfold planStep
  dsimp only
  rw [open']
  split
  · rfl
  · split
    · contradiction
    · contradiction
    · rfl

theorem planStep_noPlan (idle : (s.region d r).plan = none) : s.planStep d r = s := by
  unfold planStep
  dsimp only
  rw [idle]
  split
  · rfl
  · split
    · contradiction
    · contradiction
    · rfl

/-- The start-up plan raises the code of a region below 8 % (R391). -/
theorem planStep_raises {m : Int} (runs : s.caroriRuns d = true) (plan : (s.region d r).plan = some .startup)
    (done : (s.region d r).measure = some m) (low : m < 16) (room : (s.region d r).code < 63) (up : (s.region d r).down = false) :
    s.planStep d r = s.setRegion d r { (s.region d r).setCode (s.die d).ticks ((s.region d r).code + 1) with
      down := false, moved := true } := by
  unfold planStep
  dsimp only
  simp only [runs, plan, done, up, low, room, Bool.not_true, Bool.not_false, Bool.false_eq_true, if_false, and_self, if_true]

/-- Asking for a plan changes only what its region is asked for. -/
theorem region_askPlan (s : State) (d : DieId) (kind : PlanKind) (r : Nat) :
    ∃ a, (s.askPlan d kind r).region d r = { s.region d r with asked := a } := by
  unfold askPlan
  dsimp only
  split
  · exact ⟨_, rfl⟩
  · exact ⟨_, region_setRegion ..⟩

theorem safety_askPlan (s : State) (d : DieId) (kind : PlanKind) (r : Nat) :
    ((s.askPlan d kind r).steward d).safety = (s.steward d).safety := by
  unfold askPlan
  dsimp only
  split
  · rfl
  · exact safety_setRegion _

theorem caroriRuns_askPlan (s : State) (d : DieId) (kind : PlanKind) (r : Nat) :
    (s.askPlan d kind r).caroriRuns d = s.caroriRuns d := by
  unfold askPlan
  dsimp only
  split
  · rfl
  · exact caroriRuns_setRegion _

/-! ### A reading -/

section
variable {mon : Nat} {x : Byte}

/-- A region's count of consecutive readings at least SHIFT_DELTA below REF, and of those below 8 % (R390). -/
def readingBelow (s : State) (d : DieId) (r mon : Nat) (x : Byte) : Nat :=
  let y := s.region d r
  let delta : Int := s.objVal d 0x2A52 0
  if y.ref ≠ 0x80 ∧ slackInt x ≤ slackInt y.ref - delta then y.below.get 0 mon + 1 else 0
def readingLow (s : State) (d : DieId) (r mon : Nat) (x : Byte) : Nat :=
  if slackInt x < 16 then (s.region d r).low.get 0 mon + 1 else 0

/-- A region with a reading of one of its monitors (R387, R390). -/
def readingOf (s : State) (d : DieId) (r mon : Nat) (x : Byte) : Region :=
  let y := s.region d r
  let v := slackInt x
  let readings := y.readings.put mon v
  { y with
    readings := readings
    readAt := y.readAt.put mon (s.die d).ticks
    atCode := y.atCode.put mon v
    slack := BitVec.ofInt 8 (if r < 64 then v else min (readings.get v 0) (readings.get v 1))
    slackMin := if v < slackInt y.slackMin then x else y.slackMin
    hourMin := if v < slackInt y.hourMin then x else y.hourMin
    fresh := (y.fresh ++ [v]).drop (y.fresh.length - 3)
    below := y.below.put mon (s.readingBelow d r mon x)
    low := y.low.put mon (s.readingLow d r mon x)
    hard := y.hard || decide (v < 8) }

/-- The reading is kept, and given to the health monitors (R387, R447). -/
def readingKept (s : State) (d : DieId) (r mon : Nat) (x : Byte) : State :=
  (s.setRegion d r (s.readingOf d r mon x)).hmEvent d 8 (fun n => decide (n = r)) (BitVec.ofInt 32 (slackInt x))

/-- A reading below 4 % is reported, and asks for a hard limit plan; sixteen below REF or four below 8 % ask for a shift plan
(R390). -/
def hardAsked (s : State) (d : DieId) (r : Nat) (x : Byte) : State :=
  if slackInt x < 8 then (s.report d 0x2002 (place r 8 + x.toNat)).askPlan d .hard r else s
def shiftAsked (s : State) (d : DieId) (r below low : Nat) : State :=
  if 16 ≤ below ∨ 4 ≤ low then s.askPlan d .shift r else s

theorem region_readingKept : (s.readingKept d r mon x).region d r = s.readingOf d r mon x :=
  (region_of_stewards (sampled_hmEvent ..).1).trans (region_setRegion ..)

theorem caroriRuns_readingKept : (s.readingKept d r mon x).caroriRuns d = s.caroriRuns d :=
  (caroriRuns_of_stewards (sampled_hmEvent ..).1).trans (caroriRuns_setRegion _)

theorem region_shiftAsked (s : State) (d : DieId) (r below low : Nat) :
    ∃ a, (s.shiftAsked d r below low).region d r = { s.region d r with asked := a } := by
  unfold shiftAsked
  split
  · exact region_askPlan ..
  · exact ⟨_, rfl⟩

theorem safety_shiftAsked (s : State) (d : DieId) (r below low : Nat) :
    ((s.shiftAsked d r below low).steward d).safety = (s.steward d).safety := by
  unfold shiftAsked
  split
  · exact safety_askPlan ..
  · rfl

theorem caroriRuns_shiftAsked (s : State) (d : DieId) (r below low : Nat) :
    (s.shiftAsked d r below low).caroriRuns d = s.caroriRuns d := by
  unfold shiftAsked
  split
  · exact caroriRuns_askPlan ..
  · rfl

section
variable (used : s.hasMonitor d r mon = true) (due : s.emberInterval d r ≤ s.since d ((s.region d r).readAt.get 0 mon))
include used due

theorem ember_taken : s.ember d r mon x =
    (((s.readingKept d r mon x).hardAsked d r x).shiftAsked d r (s.readingBelow d r mon x) (s.readingLow d r mon x)).planStep d r := by
  unfold ember
  dsimp only
  rw [if_neg (by simp [used, due])]
  rfl

/-- A reading of at least 4 % is kept, and may ask for a shift plan. -/
theorem ember_calm (calm : 8 ≤ slackInt x) : ∃ (t : State) (a : Option PlanKind), s.ember d r mon x = t.planStep d r ∧
    t.region d r = { s.readingOf d r mon x with asked := a } ∧ t.caroriRuns d = s.caroriRuns d := by
  obtain ⟨a, asked⟩ := region_shiftAsked (s.readingKept d r mon x) d r (s.readingBelow d r mon x) (s.readingLow d r mon x)
  rw [region_readingKept] at asked
  refine ⟨_, a, ember_taken used due, ?_⟩
  rw [hardAsked, if_neg (Int.not_lt.mpr calm)]
  exact ⟨asked, (caroriRuns_shiftAsked ..).trans caroriRuns_readingKept⟩

/-- A reading below 4 % is reported besides, and asks for a hard limit plan. -/
theorem ember_alarm (alarm : slackInt x < 8) : ∃ (t : State) (a : Option PlanKind), s.ember d r mon x = t.planStep d r ∧
    t.region d r = { s.readingOf d r mon x with asked := a } ∧ bitAt (t.steward d).safety.causes.toNat 4 = true := by
  have cause (u : State) (info : Nat) : bitAt ((u.report d 0x2002 info).steward d).safety.causes.toNat 4 = true :=
    (safety_report u d info (code := 0x2002) rfl (by decide)).1
  obtain ⟨a, hard⟩ := region_askPlan ((s.readingKept d r mon x).report d 0x2002 (place r 8 + x.toNat)) d .hard r
  obtain ⟨b, shift⟩ := region_shiftAsked ((s.readingKept d r mon x).hardAsked d r x) d r (s.readingBelow d r mon x)
    (s.readingLow d r mon x)
  rw [hardAsked, if_pos alarm, hard, region_report, region_readingKept] at shift
  refine ⟨_, b, ember_taken used due, ?_⟩
  rw [hardAsked, if_pos alarm]
  refine ⟨shift, ?_⟩
  rw [safety_shiftAsked, safety_askPlan]
  exact cause ..

end
end

/-! ### The supervision cycle -/

theorem readLatches_stewards (s : State) (d : DieId) :
    (s.readLatches d).stewards = s.stewards ∧ (s.readLatches d).dies = s.dies := ⟨rfl, rfl⟩

/-- The steward after its supervision cycle has toggled SAFE_HB (R378). -/
def beaten (s : State) (d : DieId) : State :=
  let k := s.steward d
  let now := (s.die d).ticks
  s.setSteward d { k with supAt := now, supDone := true, safety := { k.safety with hb := !k.safety.hb, hbAt := now } }

/-- Before the journal has been replayed, the cycle toggles SAFE_HB and reads the latches (R378, R392). -/
theorem supervise_unreplayed (carori : (s.steward d).mode = .carori) (due : 48000 ≤ s.since d (s.steward d).safety.hbAt)
    (unread : (s.steward d).journal.replayed = false) : s.supervise d = (s.beaten d).readLatches d := by
  have off : ((s.beaten d).readLatches d).caroriRuns d = false := by
    rw [caroriRuns_of_stewards (readLatches_stewards ..).1]
    simp [caroriRuns, beaten, unread]
  have stamps : ((s.beaten d).readLatches d).stampsTaken d = (s.beaten d).readLatches d := if_pos (.inl (by rw [off]; rfl))
  have cycle : s.supervise d =
      if !(((s.beaten d).readLatches d).stampsTaken d).caroriRuns d ∨ ((((s.beaten d).readLatches d).stampsTaken d).die d).computeReset
      then ((s.beaten d).readLatches d).stampsTaken d
      else ((((s.beaten d).readLatches d).stampsTaken d).regionsOn d).foldl (fun s r => s.beginPlan d r)
        (((s.beaten d).readLatches d).stampsTaken d) := if_neg (by simp [carori, due])
  rw [cycle, stamps]
  exact if_pos (.inl (by rw [off]; rfl))

theorem supervise_early (early : s.since d (s.steward d).safety.hbAt < 48000) : s.supervise d = s := if_pos (.inr early)

/-! ### Failures of a monitor -/

/-- A monitor that has missed two intervals raises the code of its region by 8 where Carori runs (R388, R392). -/
theorem monitorFailed_late {mon : Nat} (used : s.hasMonitor d r mon = true)
    (late : 2 * s.emberInterval d r ≤ s.since d ((s.region d r).readAt.get 0 mon)) (idle : (s.region d r).plan = none)
    (good : (s.region d r).monFail = false) : ∃ v : Region, v.monFail = true ∧
      v.code = (if s.caroriRuns d then min 63 ((s.region d r).code + 8) else (s.region d r).code) ∧
      s.monitorFailed d r mon = (s.setRegion d r v).report d 0x2003 (place r 8 + mon) := by
  unfold monitorFailed
  dsimp only
  simp only [used, good, late, idle, decide_true, Bool.true_or, Bool.not_true, Bool.false_eq_true, or_self, if_false]
  refine ⟨_, rfl, ?_, rfl⟩
  dsimp only
  split <;> rfl

/-! ### The periodic re-plan -/

/-- A state that differs from another, as a periodic re-plan sees it, at one region of a die only. -/
structure Touches (s t : State) (d : DieId) (r : Nat) : Prop where
  other : ∀ x, x ≠ r → t.region d x = s.region d x
  periodicAt : (t.steward d).periodicAt = (s.steward d).periodicAt

theorem touches_refl (s : State) (d : DieId) (r : Nat) : Touches s s d r := ⟨fun _ _ => rfl, rfl⟩

theorem touches_setRegion (s : State) (d : DieId) (r : Nat) (v : Region) : Touches s (s.setRegion d r v) d r :=
  ⟨fun _ other => region_setRegion_other _ _ _ other, by simp [setRegion]⟩

/-- What one visit makes of a region holds of every region that a die's steward has visited. -/
theorem visited {f : State → Nat → State} {P Q : Nat → Region → Prop} (weaker : ∀ r v, Q r v → P r v)
    (visit : ∀ u r, P r (u.region d r) → Touches u (f u r) d r ∧ Q r ((f u r).region d r)) (l : List Nat)
    (u : State) (ready : ∀ r ∈ l, P r (u.region d r)) :
    ((l.foldl f u).steward d).periodicAt = (u.steward d).periodicAt ∧
      ∀ r, r ∈ l ∨ Q r (u.region d r) → Q r ((l.foldl f u).region d r) := by
  induction l generalizing u with
  | nil => exact ⟨rfl, fun r h => h.resolve_left List.not_mem_nil⟩
  | cons x l ih =>
    obtain ⟨touches, made⟩ := visit u x (ready x List.mem_cons_self)
    have ready' : ∀ r ∈ l, P r ((f u x).region d r) := fun r listed => by
      by_cases same : r = x
      · subst same
        exact weaker _ _ made
      · rw [touches.other r same]
        exact ready r (List.mem_cons_of_mem _ listed)
    obtain ⟨at', rest⟩ := ih (f u x) ready'
    refine ⟨at'.trans touches.periodicAt, fun r h => rest r ?_⟩
    by_cases same : r = x
    · subst same
      exact .inr made
    · rw [touches.other r same]
      exact h.imp_left fun listed => (List.mem_cons.mp listed).resolve_left same

/-- A region asked for its periodic plan (R390). -/
def periodicAsked (s : State) (d : DieId) (r : Nat) : State :=
  let x := s.region d r
  if x.plan.isSome ∨ x.monFail then s else s.setRegion d r { x with asked := some .periodic }

theorem regionsOn_periodicAsked (s : State) (d : DieId) (r : Nat) : (s.periodicAsked d r).regionsOn d = s.regionsOn d := by
  unfold periodicAsked
  dsimp only
  split <;> rfl

/-- The regions of a die, each asked that can be, and the periodic time begun anew. -/
def allAsked (s : State) (d : DieId) : State :=
  (s.regionsOn d).foldl (fun u r => u.periodicAsked d r) (s.setSteward d { s.steward d with periodicAt := (s.die d).ticks })

theorem regionsOn_allAsked (s : State) (d : DieId) : (s.allAsked d).regionsOn d = s.regionsOn d :=
  List.foldlRecOn _ _ (motive := fun u : State => u.regionsOn d = s.regionsOn d) rfl fun u same r _ =>
    (regionsOn_periodicAsked u d r).trans same

theorem periodicPlan_due (runs : s.caroriRuns d = true) (powered : (s.die d).computeReset = false)
    (planned : (s.die d).awaitPlan = false) (late : 60000000000 ≤ s.since d (s.steward d).periodicAt) :
    s.periodicPlan d = (s.regionsOn d).foldl (fun u r => u.beginPlan d r) (s.allAsked d) := by
  have row : s.periodicPlan d = ((s.allAsked d).regionsOn d).foldl (fun u r => u.beginPlan d r) (s.allAsked d) :=
    if_neg (by simp [runs, powered, planned, late])
  rw [row, regionsOn_allAsked]

/-- A region that can be asked, one that waits for its periodic plan, and one that waits for it or runs it; none with a reading
at its code. -/
def Idle (code : Nat → Nat) (r : Nat) (v : Region) : Prop :=
  v.fresh = [] ∧ v.code = code r ∧ v.plan = none ∧ v.monFail = false
def Asked (code : Nat → Nat) (r : Nat) (v : Region) : Prop := Idle code r v ∧ v.asked = some .periodic
def Runs (code : Nat → Nat) (r : Nat) (v : Region) : Prop :=
  v.code = code r ∧ v.asked = none ∧ v.plan = some .periodic

theorem periodicAsked_idle {code : Nat → Nat} (idle : Idle code r (s.region d r)) :
    Touches s (s.periodicAsked d r) d r ∧ Asked code r ((s.periodicAsked d r).region d r) := by
  obtain ⟨fresh, kept, none, good⟩ := idle
  have asks : s.periodicAsked d r = s.setRegion d r { s.region d r with asked := some .periodic } :=
    if_neg (by simp [none, good])
  rw [asks, region_setRegion]
  exact ⟨touches_setRegion .., ⟨fresh, kept, none, good⟩, rfl⟩

theorem measure_fresh {v : Region} (fresh : v.fresh = []) : v.measure = none := by rw [Region.measure, fresh]

/-- A region that waits for its plan, with no reading at its code, starts it and decides nothing yet; one that runs it goes
on. -/
theorem beginPlan_runs {code : Nat → Nat} (waits : Asked code r (s.region d r) ∨ Runs code r (s.region d r)) :
    Touches s (s.beginPlan d r) d r ∧ Runs code r ((s.beginPlan d r).region d r) := by
  obtain ⟨⟨fresh, kept, -, -⟩, asked⟩ | runs := waits
  · have starts : s.beginPlan d r = s.setRegion d r { (s.region d r).remeasure (s.die d).ticks with
        asked := none, plan := some .periodic, moved := false } := by
      unfold beginPlan
      dsimp only
      rw [asked]
      refine planStep_unmeasured ?_
      rw [region_setRegion]
      exact measure_fresh fresh
    rw [starts, region_setRegion]
    exact ⟨touches_setRegion .., kept, rfl, rfl⟩
  · have goes : s.beginPlan d r = s := by
      unfold beginPlan
      dsimp only
      rw [runs.2.1]
    rw [goes]
    exact ⟨touches_refl .., runs⟩

theorem periodicPlan_runs (runs : s.caroriRuns d = true) (powered : (s.die d).computeReset = false)
    (planned : (s.die d).awaitPlan = false) (late : 60000000000 ≤ s.since d (s.steward d).periodicAt)
    (idle : ∀ r ∈ s.regionsOn d, Idle (fun r => (s.region d r).code) r (s.region d r)) :
    ((s.periodicPlan d).steward d).periodicAt = (s.die d).ticks ∧
      ∀ r ∈ s.regionsOn d, Runs (fun r => (s.region d r).code) r ((s.periodicPlan d).region d r) := by
  let t := s.setSteward d { s.steward d with periodicAt := (s.die d).ticks }
  have same (r : Nat) : t.region d r = s.region d r := by simp [t, region]
  obtain ⟨askedAt, asked⟩ := visited (f := fun u r => u.periodicAsked d r) (d := d) (Q := Asked fun r => (s.region d r).code)
    (fun _ _ => And.left)
    (fun u r => periodicAsked_idle (s := u)) (s.regionsOn d) t (fun r listed => same r ▸ idle r listed)
  obtain ⟨begunAt, begun⟩ := visited (f := fun u r => u.beginPlan d r) (d := d)
    (P := fun r v => Asked (fun r => (s.region d r).code) r v ∨ Runs (fun r => (s.region d r).code) r v) (fun _ _ => .inr)
    (fun u r => beginPlan_runs (s := u)) (s.regionsOn d) _ (fun r listed => .inl (asked r (.inl listed)))
  rw [periodicPlan_due runs powered planned late]
  exact ⟨begunAt.trans (askedAt.trans (by rw [steward_setSteward])), fun r listed => begun r (.inl listed)⟩

/-! ### The voltage request -/

/-- Where the voltage request stands, and when it moved last. -/
def vreqOf (s : State) (d : DieId) : Nat × Nat := ((s.steward d).vreq, (s.steward d).vreqAt)

theorem vreqOf_setSteward {v : Steward} (vreq : v.vreq = (s.steward d).vreq) (at' : v.vreqAt = (s.steward d).vreqAt) :
    (s.setSteward d v).vreqOf d = s.vreqOf d := by rw [vreqOf, steward_setSteward, vreq, at', vreqOf]

theorem vreqOf_foldl {α : Type} {f : State → α → State} (keeps : ∀ u a, (f u a).vreqOf d = u.vreqOf d) (l : List α) (s : State) :
    (l.foldl f s).vreqOf d = s.vreqOf d :=
  List.foldlRecOn l f (motive := fun u : State => u.vreqOf d = s.vreqOf d) rfl fun u same a _ => (keeps u a).trans same

theorem vreqOf_startPlans (s : State) (d : DieId) : (s.startPlans d).vreqOf d = s.vreqOf d := by
  unfold startPlans
  dsimp only
  split
  · rfl
  · refine vreqOf_foldl (fun u r => ?_) _ s
    split
    · exact vreqOf_setSteward rfl rfl
    · rfl

theorem vreqOf_planRecord (s : State) (d : DieId) (kind : PlanKind) : (s.planRecord d kind).vreqOf d = s.vreqOf d :=
  vreqOf_setSteward rfl rfl

theorem vreqOf_planRecords (s : State) (d : DieId) : (s.planRecords d).vreqOf d = s.vreqOf d := by
  unfold planRecords
  dsimp only
  split
  · rfl
  · exact (vreqOf_foldl (fun u kind => vreqOf_planRecord u d kind) _ _).trans (vreqOf_setSteward rfl rfl)

theorem vreqStep_moves (away : (s.steward d).vreq ≠ (s.steward d).vtarget) (due : 100 ≤ s.since d (s.steward d).vreqAt) :
    (s.vreqStep d).vreqOf d = (if (s.steward d).vreq < (s.steward d).vtarget then (s.steward d).vreq + 1
      else (s.steward d).vreq - 1, (s.die d).ticks) := by
  unfold vreqStep
  dsimp only
  rw [if_neg (by simp [away, due]), vreqOf_planRecords, vreqOf_startPlans, vreqOf, steward_setSteward]

/-! ### The hourly record -/

/-- The regions of a steward, each with its hour begun anew. -/
def hourBegun (s : State) (d : DieId) : State :=
  let k := s.steward d
  s.setSteward d { k with hourAt := (s.die d).ticks, regions := k.regions.mapVals fun x => { x with hourMin := 0x7F } }

theorem slackHour_due (runs : s.caroriRuns d = true) (late : 360000000000 ≤ s.since d (s.steward d).hourAt) :
    s.slackHour d = (s.hourBegun d).journal d 4
      (bytesLE 8 (s.die d).count.toNat ++ s.regionList.map fun r => (s.region d r).hourMin) := by
  unfold slackHour
  dsimp only
  rw [if_neg (by simp [runs, late])]
  rfl

theorem hourMin_hourBegun (s : State) (d : DieId) (r : Nat) : ((s.hourBegun d).region d r).hourMin = 0x7F := by
  rw [region, hourBegun, steward_setSteward, SMap.get, SMap.find?_mapVals]
  cases (s.steward d).regions.find? r <;> rfl

end State

/-- Settles O55: a reading and a failure are one write of their region; a re-plan visits the die's regions twice, and leaves each
with its plan begun; the voltage request stands through the plans and records that follow it. -/
theorem marginsAreSupervised : Obligations.MarginsAreSupervised := by
  unfold Obligations.MarginsAreSupervised
  refine ⟨?cycle, ?early, ?calm, ?alarm, ?raise, ?failure, ?replan, ?vreq, ?hour⟩
  case cycle =>
    intro s d here carori due unread
    refine ⟨_, (onDie_next here _).trans (congrArg _ (State.supervise_unreplayed carori due unread)), ?_⟩
    have same : (((s.beaten d).readLatches d).steward d) = (s.beaten d).steward d := rfl
    rw [same, State.beaten, State.steward_setSteward]
    exact ⟨rfl, rfl, rfl, rfl⟩
  case early =>
    intro s d here early
    exact (onDie_next here _).trans (congrArg _ (State.supervise_early early))
  case calm =>
    intro s d r x here used low due idle calm
    obtain ⟨t, a, taken, region, -⟩ := State.ember_calm used due calm
    have stays : t.planStep d r = t := State.planStep_noPlan (by rw [region]; exact idle)
    refine ⟨t, (onDie_next here _).trans (congrArg _ (taken.trans stays)), ?_⟩
    rw [region]
    refine ⟨?_, rfl, ?_, ?_, SMap.get_put_same ..⟩
    · simp only [State.readingOf, low, if_true, ofInt_slackInt]
    · simp [State.readingOf, calm]
    · simp only [State.readingOf]
      split <;> omega
  case alarm =>
    intro s d r x here used low due idle alarm
    obtain ⟨t, a, taken, region, cause⟩ := State.ember_alarm used due alarm
    have stays : t.planStep d r = t := State.planStep_noPlan (by rw [region]; exact idle)
    refine ⟨t, (onDie_next here _).trans (congrArg _ (taken.trans stays)), ?_, cause⟩
    rw [region]
    simp [State.readingOf, alarm]
  case raise =>
    intro s d r x a b c here used low due plan runs fresh calm raise room up
    have interval : s.emberInterval d r = 1000 := by simp [State.emberInterval, plan]
    obtain ⟨t, _, taken, region, carori⟩ := State.ember_calm used (interval ▸ due) calm
    have measured : (t.region d r).measure = some (min (min a b) (min c (slackInt x))) := by
      rw [region, Region.measure]
      simp [State.readingOf, fresh]
    have raises := State.planStep_raises (carori.trans runs) (by rw [region]; exact plan) measured (by omega)
      (by rw [region]; exact room) (by rw [region]; exact up)
    refine ⟨_, (onDie_next here _).trans (congrArg _ (taken.trans raises)), ?_⟩
    rw [State.region_setRegion, region]
    exact ⟨rfl, plan, rfl⟩
  case failure =>
    intro s d r mon here used late idle good
    obtain ⟨v, failed, code, row⟩ := State.monitorFailed_late used late idle good
    refine ⟨_, (onDie_next here _).trans (congrArg _ row), ?_⟩
    rw [State.region_report, State.region_setRegion]
    exact ⟨failed, code, (State.safety_report _ d _ (code := 0x2003) rfl (by decide)).1⟩
  case replan =>
    intro s d here runs powered planned late idle
    obtain ⟨at', begun⟩ := State.periodicPlan_runs runs powered planned late fun r listed => by
      obtain ⟨fresh, none, -, good⟩ := idle r listed
      exact ⟨fresh, rfl, none, good⟩
    refine ⟨_, onDie_next here _, at', fun r listed => ?_⟩
    obtain ⟨code, -, plan⟩ := begun r listed
    exact ⟨plan, code⟩
  case vreq =>
    intro s d here away due
    have moves := State.vreqStep_moves away due
    exact ⟨_, onDie_next here _, congrArg Prod.snd moves, congrArg Prod.fst moves⟩
  case hour =>
    intro s d here runs late
    refine ⟨_, (onDie_next here _).trans (congrArg _ (State.slackHour_due runs late)), ?_⟩
    rw [State.journal, State.steward_setSteward]
    refine ⟨?_, fun r => ?_, ?_⟩
    · rw [State.hourBegun, State.steward_setSteward]
    · rw [State.region, State.steward_setSteward]
      exact State.hourMin_hourBegun s d r
    · rw [State.hourBegun, State.steward_setSteward]

end Sys2Proof.Machine
end

section
/-!
PROOFS. Network time: the frames that a die hears and sends, the step and the servo, and the second's advance
(23_network_time.md, R432 to R440, R445).
-/
namespace Sys2Proof.Machine
namespace State

variable {s : State} {d : DieId} {f : List Byte} {m : PtpMsg} {type : Nat}

/-! ### Frames that are heard -/

theorem onPtp_hears (hears : Hears s d f m type) (act : PtpMsg → State) : s.onPtp d f type act = act m := by
  unfold onPtp
  simp only [hears.stage, hears.accepts, hears.msg, hears.ether, hears.isType, hears.role', Bool.not_true, Bool.false_eq_true,
    if_false, ne_eq, not_false_eq_true, and_self, if_true]

/-- The network time of a die whose timestamps its steward has taken. -/
def emptied (s : State) (d : DieId) : State := s.setNet d { s.net d with tsQueue := [], tx := [] }

/-- The steward takes the ingress timestamp of a frame heard at an empty queue with the frame (R435, R436). -/
theorem onStamp_hears (hears : Hears s d f m type) (empty : (s.net d).tsQueue = []) :
    s.onStamp d f type = (s.emptied d).stampTaken d ((s.net d).edges, ingress s d, f) := by
  have runs (v : NetTime) : (s.setNet d v).caroriRuns d = true := hears.runs
  unfold onStamp
  rw [onPtp_hears hears]
  simp only [empty, List.length_nil, Nat.reduceLeDiff, if_false, List.nil_append]
  unfold stampsTaken
  simp only [runs, net_setNet, List.isEmpty_cons, Bool.not_true, Bool.false_eq_true, or_self, if_false, List.foldl_cons,
    List.foldl_nil, setNet_setNet]
  rfl

theorem stampTaken_msg (hears : Hears s d f m type) (u : State) (at' : Nat) (tr : Int) : u.stampTaken d (at', tr, f) =
    if m.type = 0 then u.syncTake d m at' tr
    else if m.type = 2 then u.pdelayAnswer d m tr
    else if m.type = 3 ∧ u.pdelayMine d m then
      u.setNet d { u.net d with pdelayT2 := some (m.time + m.corr), pdelayT4 := some tr }
    else u := by
  unfold stampTaken
  simp only [hears.msg]

theorem sync_hears (hears : Hears s d f m 0) (empty : (s.net d).tsQueue = []) :
    s.sync d f = (s.emptied d).syncTake d m (s.net d).edges (ingress s d) := by
  rw [sync, onStamp_hears hears empty, stampTaken_msg hears, if_pos hears.isType]

theorem pdelayReq_hears (hears : Hears s d f m 2) (empty : (s.net d).tsQueue = []) :
    s.pdelayReq d f = (s.emptied d).pdelayAnswer d m (ingress s d) := by
  rw [pdelayReq, onStamp_hears hears empty, stampTaken_msg hears, hears.isType]
  rfl

theorem pdelayResp_hears (hears : Hears s d f m 3) (empty : (s.net d).tsQueue = []) (mine : s.pdelayMine d m = true) :
    s.pdelayResp d f = (s.emptied d).setNet d { (s.emptied d).net d with
      pdelayT2 := some (m.time + m.corr), pdelayT4 := some (ingress s d) } := by
  have kept : (s.emptied d).pdelayMine d m = true := by
    rw [← mine]
    simp only [pdelayMine, emptied, net_setNet]
    rfl
  rw [pdelayResp, onStamp_hears hears empty, stampTaken_msg hears, hears.isType, if_neg (by decide), if_neg (by decide),
    if_pos ⟨rfl, kept⟩]

/-! ### An accepted Sync -/

theorem net_report (s : State) (d : DieId) (code info : Nat) (e : DieId) : (s.report d code info).net e = s.net e := by
  obtain ⟨k, only⟩ := (OnlyStewards.refl s).report d code info
  rw [only]
  rfl

/-- A network time that differs from another in its lock only. -/
def Locks (n v : NetTime) : Prop := ∃ a b c e, v = { n with inLimit := a, outLimit := b, locked := c, unlock := e }

theorem locks_ite {c : Prop} {_ : Decidable c} {n : NetTime} {a b : State} (ha : Locks n (a.net d)) (hb : Locks n (b.net d)) :
    Locks n ((if c then a else b).net d) := by
  split <;> assumption

/-- Lock and its loss leave the step, the servo and the count of Syncs alone (R439). -/
theorem net_lockRule (s : State) (d : DieId) (off : Int) : Locks (s.net d) ((s.lockRule d off).net d) :=
  locks_ite ⟨_, _, _, _, net_setNet ..⟩ ⟨_, _, _, _, (net_report ..).trans (net_setNet ..)⟩

/-- The network time as the acceptance of a Sync leaves it before its step or the servo. -/
def heard (n : NetTime) (now : Nat) : NetTime :=
  { n with syncRx := satInc n.syncRx, syncAt := now, syncDown := false, waiting := none }

/-- The offset of a Sync, in units of 2^-17 ns (R438). -/
def syncOff (s : State) (d : DieId) (tr time : Int) : Int := 2 * (tr - time) - (s.linkDelay d (s.objVal d 0x2D01 0)).2

theorem net_linkDelay (s : State) (d : DieId) (cfg : Nat) :
    (s.linkDelay d cfg).1.net = s.net ∧ (s.linkDelay d cfg).1.die = s.die := by
  unfold linkDelay
  dsimp only
  split
  · exact ⟨rfl, rfl⟩
  · split <;> exact ⟨rfl, rfl⟩

/-- The network time that steps by an offset at the next edge, and that which the servo steers (R438). -/
def stepping (n : NetTime) (off : Int) : NetTime :=
  { n with stepBy := some (-off * 32768), stepTo := none, stepped := true, f := 0, stepEdge := n.edges + 1 }
def steered (n : NetTime) (off : Int) (log : Nat) : NetTime :=
  { n with f := (servo n.f off log).1, adjNext := some (servo n.f off log).2 }

/-- The first Sync steps the device time by its offset (R438). -/
theorem syncAccepted_steps (first : (s.net d).stepped = false) (tr time : Int) :
    Locks (stepping (heard (s.net d) (s.die d).ticks) (s.syncOff d tr time)) ((s.syncAccepted d tr time).net d) := by
  obtain ⟨net, die⟩ := net_linkDelay s d (s.objVal d 0x2D01 0)
  have row : s.syncAccepted d tr time = ((s.linkDelay d (s.objVal d 0x2D01 0)).1.setNet d
      (stepping (heard (s.net d) (s.die d).ticks) (s.syncOff d tr time))).lockRule d (s.syncOff d tr time) := by
    unfold syncAccepted
    simp only [net, die, first, Bool.not_false, if_true]
    rfl
  have locks := net_lockRule ((s.linkDelay d (s.objVal d 0x2D01 0)).1.setNet d
    (stepping (heard (s.net d) (s.die d).ticks) (s.syncOff d tr time))) d (s.syncOff d tr time)
  rwa [← row, net_setNet] at locks

/-- Later ones move ADJ by the servo (R438). -/
theorem syncAccepted_steers (later : (s.net d).stepped = true) (tr time : Int) :
    Locks (steered (heard (s.net d) (s.die d).ticks) (s.syncOff d tr time) (ntSyncLog (s.objVal d 0x2D01 0)))
      ((s.syncAccepted d tr time).net d) := by
  obtain ⟨net, die⟩ := net_linkDelay s d (s.objVal d 0x2D01 0)
  have row : s.syncAccepted d tr time = ((s.linkDelay d (s.objVal d 0x2D01 0)).1.setNet d (steered (heard (s.net d)
      (s.die d).ticks) (s.syncOff d tr time) (ntSyncLog (s.objVal d 0x2D01 0)))).lockRule d (s.syncOff d tr time) := by
    unfold syncAccepted
    simp only [net, die, steered, heard, later, Bool.not_true, Bool.false_eq_true, if_false]
    rfl
  have locks := net_lockRule ((s.linkDelay d (s.objVal d 0x2D01 0)).1.setNet d (steered (heard (s.net d)
    (s.die d).ticks) (s.syncOff d tr time) (ntSyncLog (s.objVal d 0x2D01 0)))) d (s.syncOff d tr time)
  rwa [← row, net_setNet] at locks

theorem syncOff_static (static : ntStatic (s.objVal d 0x2D01 0) = true) (tr time : Int) :
    s.syncOff d tr time = 2 * (tr - time) - (s.objVal d 0x2D03 0 : Int) * 131072 := by
  simp only [syncOff, linkDelay, static, if_true]

/-- An accepted Sync is counted, and the time stepped by then. -/
theorem syncAccepted_counted (s : State) (d : DieId) (tr time : Int) :
    ((s.syncAccepted d tr time).net d).waiting = none ∧ ((s.syncAccepted d tr time).net d).stepped = true ∧
    ((s.syncAccepted d tr time).net d).syncRx = satInc (s.net d).syncRx ∧
    ((s.syncAccepted d tr time).net d).syncAt = (s.die d).ticks := by
  cases first : (s.net d).stepped with
  | false =>
    obtain ⟨a, b, c, e, net⟩ := syncAccepted_steps first tr time
    rw [net]
    exact ⟨rfl, rfl, rfl, rfl⟩
  | true =>
    obtain ⟨a, b, c, e, net⟩ := syncAccepted_steers first tr time
    rw [net]
    exact ⟨rfl, first, rfl, rfl⟩

section
variable {w : SyncWait}

theorem followUp_step (hears : Hears s d f m 8) (slave : ntRole (s.objVal d 0x2D01 0) = 1) (waits : (s.net d).waiting = some w)
    (named : w.seqId = m.seqId) : s.followUp d f =
      if w.at' < (s.net d).stepEdge then s.setNet d { s.net d with waiting := none }
      else s.syncAccepted d w.tr (m.time + m.corr + w.corr) := by
  unfold followUp
  rw [onPtp_hears hears]
  simp only [waits, slave, hears.runs, named, ne_eq, not_true_eq_false, Bool.not_true, Bool.false_eq_true, or_self, if_false]

theorem syncTake_waits (slave : ntRole (s.objVal d 0x2D01 0) = 1) (after : (s.net d).stepEdge ≤ (s.net d).edges)
    (two : m.twoStep = true) (tr : Int) : (s.emptied d).syncTake d m (s.net d).edges tr = s.setNet d { s.net d with
      tsQueue := [], tx := [], waiting := some { seqId := m.seqId, tr := tr, corr := m.corr, at' := (s.net d).edges } } := by
  have slave' : ntRole ((s.emptied d).objVal d 0x2D01 0) = 1 := slave
  have net : (s.emptied d).net d = { s.net d with tsQueue := [], tx := [] } := net_setNet ..
  unfold syncTake
  simp only [slave', net, two, Nat.not_lt.mpr after, ne_eq, not_true_eq_false, or_self, if_false, if_true]
  rw [emptied, setNet_setNet]

theorem syncTake_oneStep (slave : ntRole (s.objVal d 0x2D01 0) = 1) (after : (s.net d).stepEdge ≤ (s.net d).edges)
    (one : m.twoStep = false) (tr : Int) :
    (s.emptied d).syncTake d m (s.net d).edges tr = (s.emptied d).syncAccepted d tr (m.time + m.corr) := by
  have slave' : ntRole ((s.emptied d).objVal d 0x2D01 0) = 1 := slave
  have net : (s.emptied d).net d = { s.net d with tsQueue := [], tx := [] } := net_setNet ..
  unfold syncTake
  simp only [slave', net, one, Nat.not_lt.mpr after, ne_eq, not_true_eq_false, or_self, if_false, Bool.false_eq_true]

end

/-! ### Peer delay, and frames that go out -/

theorem pdelayFup_measures {a b c : Int} (hears : Hears s d f m 10) (mine : s.pdelayMine d m = true)
    (t1 : (s.net d).pdelayT1 = some a) (t2 : (s.net d).pdelayT2 = some b) (t4 : (s.net d).pdelayT4 = some c) :
    s.pdelayFup d f = s.setNet d { s.net d with
      pdelayT1 := none, pdelayT2 := none, pdelayT3 := some (m.time + m.corr), pdelayT4 := none,
      delay := (c - a) - (m.time + m.corr - b), delayKnown := true } := by
  unfold pdelayFup
  rw [onPtp_hears hears]
  simp only [hears.runs, mine, t1, t2, t4, Bool.not_true, Bool.false_eq_true, or_self, if_false]

theorem pdelayAnswer_emptied (tr : Int) : (((s.emptied d).pdelayAnswer d m tr).net d).tx =
    [{ kind := 0x88F7, bytes := ptpFrame (s.macBytes d) 3 (stampFrac tr) m.seqId 5 0x7F (stampBytes tr ++ m.source) },
      { kind := 0x88F7, bytes := ptpFrame (s.macBytes d) 10 (stampFrac (s.egress d)) m.seqId 5 0x7F
          (stampBytes (s.egress d) ++ m.source) }] := by
  have out : (s.emptied d).egress d = s.egress d := by
    simp only [egress, emptied, net_setNet]
    rfl
  have mac : (s.emptied d).macBytes d = s.macBytes d := rfl
  unfold pdelayAnswer
  simp only [out, mac, net_setNet]
  rw [emptied, net_setNet]
  rfl

/-- The frame of a Sync, and of a Pdelay_Req, that goes out now (R435, R437). -/
def syncFrame (s : State) (d : DieId) : List Byte :=
  ptpFrame (s.macBytes d) 0 (stampFrac (s.egress d)) (((s.net d).syncSeq + 1) % 65536) 0
    (BitVec.ofNat 8 (field (s.objVal d 0x2D01 0) 23 16)) (stampBytes (s.egress d) ++ followUpTlv)
def pdelayFrame (s : State) (d : DieId) : List Byte :=
  ptpFrame (s.macBytes d) 2 0 (((s.net d).pdelaySeq + 1) % 65536) 5 (BitVec.ofNat 8 (field (s.objVal d 0x2D01 0) 15 8))
    (List.replicate 20 0)

theorem syncSend_due (runs : s.caroriRuns d = true) (master : ntRole (s.objVal d 0x2D01 0) = 2) (mac : (s.die d).macMode < 2)
    (due : ntSyncCounts (s.objVal d 0x2D01 0) ≤ s.since d (s.net d).sentSyncAt) :
    s.syncSend d = s.setNet d { s.net d with
      syncSeq := ((s.net d).syncSeq + 1) % 65536
      sentSyncAt := (s.die d).ticks
      tx := [{ kind := 0x88F7, bytes := s.syncFrame d }] } :=
  if_neg (by simp [runs, master, mac, due])

theorem pdelaySend_due (runs : s.caroriRuns d = true) (role : ntRole (s.objVal d 0x2D01 0) ≠ 0)
    (measured : ntStatic (s.objVal d 0x2D01 0) = false) (mac : (s.die d).macMode < 2)
    (due : ntPdelayCounts (s.objVal d 0x2D01 0) ≤ s.since d (s.net d).sentPdelayAt) :
    s.pdelaySend d = s.setNet d { s.net d with
      pdelaySeq := ((s.net d).pdelaySeq + 1) % 65536
      sentPdelayAt := (s.die d).ticks
      pdelayT1 := some (s.egress d)
      pdelayT2 := none
      pdelayT3 := none
      pdelayT4 := none
      tx := [{ kind := 0x88F7, bytes := s.pdelayFrame d }] } :=
  if_neg (by simp [runs, role, measured, mac, due])

/-! ### Loss of Sync, the second's advance and frames that are dropped -/

theorem syncLost_first (runs : s.caroriRuns d = true) (slave : ntRole (s.objVal d 0x2D01 0) = 1)
    (fresh : (s.net d).syncDown = false) (due : 3 * ntSyncCounts (s.objVal d 0x2D01 0) ≤ s.since d (s.net d).syncAt) :
    s.syncLost d = (s.setNet d { s.net d with syncLost := true, syncDown := true }).report d 0x2302
      (field (s.objVal d 0x2D01 0) 23 16) :=
  if_neg (by simp [runs, slave, fresh, due])

theorem syncLost_noted (noted : (s.net d).syncDown = true) : s.syncLost d = s := if_pos (.inr (.inr (.inl noted)))

theorem secondAdvance_due {n : W64} {k : Nat} (due : (s.net d).secDue = some (n, k)) (stepped : (s.net d).stepped = true)
    (next : (s.net d).ppsLast < k) : s.secondAdvance d = s.setNet d { s.net d with
      secDue := none, corrCount := n, corrSecs := k, pps := true, ppsAt := (s.die d).ticks, ppsLast := k } := by
  unfold secondAdvance
  simp only [due, stepped, next, and_self, if_true]

theorem ppsFall_late (high : (s.net d).pps = true) (late : 10000000 ≤ s.since d (s.net d).ppsAt) :
    s.ppsFall d = s.setNet d { s.net d with pps := false } := if_neg (by simp [high, late])

theorem rxDrop_refused (on : (s.die d).stage ≠ .held) (mac : (s.die d).macMode < 2) (refused : s.macAccepts d f = false) :
    s.rxDrop d f = s.setNet d { s.net d with rxDrop := satInc (s.net d).rxDrop } := by
  rw [rxDrop, refused, if_neg Bool.false_ne_true, frameDropped]
  exact if_pos ⟨mac, on⟩

end State

/-- Settles O58: a frame that the die hears reaches its message's rule on the network time, and each rule writes the network time
once; the lock that follows an accepted Sync leaves the step and the servo alone. -/
theorem networkTimeFollowsItsFrames : Obligations.NetworkTimeFollowsItsFrames := by
  unfold Obligations.NetworkTimeFollowsItsFrames
  refine ⟨?twoStep, ?first, ?later, ?completes, ?stepped, ?asked, ?answered, ?measured, ?syncOut, ?pdelayOut, ?lost, ?second, ?fall,
    ?link, ?dropped⟩
  case twoStep =>
    intro s d f m hears slave after empty two
    refine ⟨_, (onDie_next hears.die _).trans (congrArg _ ((State.sync_hears hears empty).trans
      (State.syncTake_waits slave after two _))), ?_⟩
    rw [State.net_setNet]
    exact ⟨rfl, rfl, rfl⟩
  case first =>
    intro s d f m hears slave after empty one static first
    refine ⟨_, (onDie_next hears.die _).trans (congrArg _ ((State.sync_hears hears empty).trans
      (State.syncTake_oneStep slave after one _))), ?_⟩
    have net : (s.emptied d).net d = { s.net d with tsQueue := [], tx := [] } := State.net_setNet ..
    obtain ⟨a, b, c, e, steps⟩ := State.syncAccepted_steps (s := s.emptied d) (d := d) (by rw [net]; exact first) (ingress s d)
      (m.time + m.corr)
    rw [steps, State.syncOff_static (s := s.emptied d) static, net]
    exact ⟨rfl, rfl, rfl⟩
  case later =>
    intro s d f m hears slave after empty one static later
    refine ⟨_, (onDie_next hears.die _).trans (congrArg _ ((State.sync_hears hears empty).trans
      (State.syncTake_oneStep slave after one _))), ?_⟩
    have net : (s.emptied d).net d = { s.net d with tsQueue := [], tx := [] } := State.net_setNet ..
    obtain ⟨a, b, c, e, steers⟩ := State.syncAccepted_steers (s := s.emptied d) (d := d) (by rw [net]; exact later) (ingress s d)
      (m.time + m.corr)
    rw [steers, State.syncOff_static (s := s.emptied d) static, net]
    exact ⟨rfl, rfl⟩
  case completes =>
    intro s d f m w hears slave waits named after
    refine ⟨_, (onDie_next hears.die _).trans (congrArg _ ((State.followUp_step hears slave waits named).trans
      (if_neg (Nat.not_lt.mpr after)))), ?_⟩
    exact State.syncAccepted_counted ..
  case stepped =>
    intro s d f m w hears slave waits named before
    exact (onDie_next hears.die _).trans (congrArg _ ((State.followUp_step hears slave waits named).trans (if_pos before)))
  case asked =>
    intro s d f m hears empty
    exact ⟨_, (onDie_next hears.die _).trans (congrArg _ (State.pdelayReq_hears hears empty)), State.pdelayAnswer_emptied _⟩
  case answered =>
    intro s d f m hears mine empty
    refine ⟨_, (onDie_next hears.die _).trans (congrArg _ (State.pdelayResp_hears hears empty mine)), ?_⟩
    rw [State.net_setNet, State.emptied, State.net_setNet]
    exact ⟨rfl, rfl, rfl⟩
  case measured =>
    intro s d f m a b c hears mine t1 t2 t4
    refine ⟨_, (onDie_next hears.die _).trans (congrArg _ (State.pdelayFup_measures hears mine t1 t2 t4)), ?_⟩
    rw [State.net_setNet]
    exact ⟨rfl, rfl, rfl⟩
  case syncOut =>
    intro s d here runs master mac due
    refine ⟨_, (onDie_next here _).trans (congrArg _ (State.syncSend_due runs master mac due)), ?_⟩
    rw [State.net_setNet]
    exact ⟨rfl, rfl, rfl⟩
  case pdelayOut =>
    intro s d here runs role measured mac due
    refine ⟨_, (onDie_next here _).trans (congrArg _ (State.pdelaySend_due runs role measured mac due)), ?_⟩
    rw [State.net_setNet]
    exact ⟨rfl, rfl, rfl, rfl⟩
  case lost =>
    intro s d here runs slave fresh due
    have row := State.syncLost_first runs slave fresh due
    refine ⟨_, (onDie_next here _).trans (congrArg _ row), ?_⟩
    have net : (((s.setNet d { s.net d with syncLost := true, syncDown := true }).report d 0x2302
        (field (s.objVal d 0x2D01 0) 23 16)).net d) = { s.net d with syncLost := true, syncDown := true } :=
      (State.net_report ..).trans (State.net_setNet ..)
    obtain ⟨k, only⟩ := (OnlyStewards.refl (s.setNet d { s.net d with syncLost := true, syncDown := true })).report d 0x2302
      (field (s.objVal d 0x2D01 0) 23 16)
    refine ⟨by rw [net], by rw [net], (onDie_next ?_ _).trans (congrArg _ (State.syncLost_noted (by rw [net])))⟩
    rw [only]
    exact here
  case second =>
    intro s d n k here due stepped next
    refine ⟨_, (onDie_next here _).trans (congrArg _ (State.secondAdvance_due due stepped next)), ?_⟩
    rw [State.net_setNet]
    exact ⟨rfl, rfl, rfl, rfl, rfl⟩
  case fall =>
    intro s d here high late
    refine ⟨_, (onDie_next here _).trans (congrArg _ (State.ppsFall_late high late)), ?_⟩
    rw [State.net_setNet]
  case link =>
    intro s d up here on
    refine ⟨_, (onDie_next here _).trans (congrArg _ (if_neg on)), ?_, rfl⟩
    rw [State.net_setNet]
  case dropped =>
    intro s d f here on mac refused
    refine ⟨_, (onDie_next here _).trans (congrArg _ (State.rxDrop_refused on mac refused)), ?_⟩
    rw [State.net_setNet]

end Sys2Proof.Machine
end

section
/-!
PROOFS. The steward and its journal: the check of the image, restarts, DAP frames, records written and replayed, compactions and
erases (21_steward_dictionary.md, 22_journal.md, R397 to R428).
-/
namespace Sys2Proof.Machine

/-- A map without the pairs whose keys fail a test. -/
theorem SMap.find?_filter_key {β : Type} (m : SMap β) (p : Nat → Bool) (k : Nat) :
    (m.filter fun a _ => p a).find? k = if p k then m.find? k else none := by
  obtain ⟨l⟩ := m
  simp only [filter, find?]
  induction l with
  | nil => simp [lookup]
  | cons e es ih =>
    by_cases same : e.1 = k
    · subst same
      cases pass : p e.1 <;> simp [pass, lookup, ih]
    · cases pass : p e.1 <;> simp [pass, lookup, same, ih]

namespace State

variable {s t : State} {d : DieId}

theorem die_of_dies (same : t.dies = s.dies) : t.die d = s.die d := congrArg (fun m : SMap Die => m.get {} d.val) same

/-! ### Answers of a mailbox -/

/-- A steward that has answered the request of a path in its mailbox (R404, R406). -/
def answeredBy (k : Steward) (p : DPath) (i : Nat) (req : List Byte) (r : DResp) : Steward :=
  let m := k.mailboxes.get {} i
  { k with
    serving := if k.serving = some p then none else k.serving
    rateRefused := if r.result = 4 then satInc k.rateRefused else k.rateRefused
    mailboxes := k.mailboxes.put i { m with
      resp := r.bytes req, doneCount := m.doneCount + 1, busy := false, taken := [], restarted := false } }

theorem answerPath_mailbox {p : DPath} {i : Nat} {req : List Byte} (box : p.mailbox = some i)
    (waits : s.waitingReq d p = some req) (r : DResp) :
    ∃ m, s.answerPath d p r = { s.setSteward d (answeredBy (s.steward d) p i req r) with im := m } := by
  have answers : s.answerPath d p r =
      if ((s.steward d).mailboxes.get {} i).irqEn then
        (s.setSteward d (answeredBy (s.steward d) p i req r)).postIm d (0x1000 + i) 0
      else s.setSteward d (answeredBy (s.steward d) p i req r) := by
    unfold answerPath
    simp only [waits]
    cases p with
    | dap key => cases box
    | driver => cases box; rfl
    | safety => cases box; rfl
    | partition n => cases box; rfl
  rw [answers]
  split
  · exact ⟨_, rfl⟩
  · exact ⟨_, rfl⟩

/-! ### The firmware starts -/

/-- A state whose steward runs the firmware of another's, with the same dies. -/
structure SameFirmware (s t : State) (d : DieId) : Prop where
  mode : (t.steward d).mode = (s.steward d).mode
  svn : (t.steward d).svn = (s.steward d).svn
  supAt : (t.steward d).supAt = (s.steward d).supAt
  vfail : (t.steward d).vfail = (s.steward d).vfail
  dies : t.dies = s.dies

theorem SameFirmware.refl (s : State) (d : DieId) : SameFirmware s s d := ⟨rfl, rfl, rfl, rfl, rfl⟩

theorem SameFirmware.trans {s t u : State} (h : SameFirmware s t d) (h' : SameFirmware t u d) : SameFirmware s u d :=
  ⟨h'.mode.trans h.mode, h'.svn.trans h.svn, h'.supAt.trans h.supAt, h'.vfail.trans h.vfail, h'.dies.trans h.dies⟩

theorem sameFirmware_answerPath {p : DPath} {i : Nat} (box : p.mailbox = some i) (r : DResp) :
    SameFirmware s (s.answerPath d p r) d := by
  cases waits : s.waitingReq d p with
  | none =>
    rw [answerPath, waits]
    exact SameFirmware.refl s d
  | some req =>
    obtain ⟨m, row⟩ := answerPath_mailbox box waits r
    have steward : (s.answerPath d p r).steward d = answeredBy (s.steward d) p i req r := by
      rw [row]
      exact steward_setSteward ..
    refine ⟨?_, ?_, ?_, ?_, by rw [row]; rfl⟩ <;> rw [steward] <;> rfl

/-- Requests that a restart has cut off are answered (R399). -/
theorem sameFirmware_answerRestarted (s : State) (d : DieId) : SameFirmware s (s.answerRestarted d) d := by
  refine List.foldlRecOn allPaths _ (motive := fun u => SameFirmware s u d) (.refl s d) fun u same p _ => same.trans ?_
  split
  · next i box =>
    split
    · exact sameFirmware_answerPath box _
    · exact .refl u d
  · exact .refl u d

/-- A steward that has started a firmware (R399). -/
def runsFirmware (k : Steward) (now : Nat) (mode : StwMode) (svn : W16) (version : W32) : Steward :=
  { k with
    mode := mode, svn := svn, fwVersion := version, supAt := now, supDone := false, forceRom := false
    safety := { k.safety with hbAt := now } }

/-- The steward of a die in BOOT starts a firmware, and BOOT ends (R399, R476). -/
theorem stewardRuns_boot (boot : (s.die d).stage = .boot) (mode : StwMode) (svn : W16) (version : W32) :
    ∃ u, SameFirmware u (s.stewardRuns d mode svn version) d ∧
      u.steward d = runsFirmware (s.steward d) (s.die d).ticks mode svn version ∧
      u.die d = (((s.setSteward d (runsFirmware (s.steward d) (s.die d).ticks mode svn version)).enterStage d .replay).die d) := by
  have boot' (v : Steward) (n : NetTime) : (((s.setSteward d v).setNet d n).die d).stage = .boot := boot
  unfold stewardRuns
  dsimp only
  rw [if_pos (boot' ..)]
  refine ⟨_, sameFirmware_answerRestarted .., steward_setSteward .., ?_⟩
  simp only [enterStage, die_setDie]
  rfl

/-- The flash is usable, and the image is checked (R397, R416). -/
def flashChecked (s : State) (d : DieId) : State :=
  s.setSteward d { s.steward d with journal := { (s.steward d).journal with unusable := false } }

section
variable (checking : (s.steward d).mode = .checking) (boot : (s.die d).stage = .boot) (idle : (s.steward d).journal.jobs = [])
  (forced : (s.steward d).forceRom = false)
include checking boot idle forced

theorem imageCheckAt_good (good : imageVfail d (s.steward d).journal = 0) : s.imageCheckAt d true =
    (s.flashChecked d).stewardRuns d .carori (BitVec.ofNat 16 (fieldAt ((s.steward d).journal.bytesAt 0 0x10) 8 2))
      (BitVec.ofNat 32 (fieldAt ((s.steward d).journal.bytesAt 0 0x10) 4 4)) := by
  unfold imageCheckAt
  dsimp only
  rw [if_neg (by simp [checking, boot, idle])]
  generalize imageVfail d (s.steward d).journal = n at good
  subst good
  simp only [forced, Bool.not_true, Bool.false_eq_true, if_false, flashChecked]

theorem imageCheckAt_bad (bad : imageVfail d (s.steward d).journal ≠ 0) :
    s.imageCheckAt d true = (s.flashChecked d).runRom d (imageVfail d (s.steward d).journal) 0x2102 := by
  unfold imageCheckAt
  dsimp only
  rw [if_neg (by simp [checking, boot, idle])]
  generalize imageVfail d (s.steward d).journal = n at bad
  cases n with
  | zero => exact absurd rfl bad
  | succ n => simp only [forced, Bool.not_true, Bool.false_eq_true, if_false, flashChecked]

end

/-- A die in start-up runs the ROM firmware, and will not report READY (R398, R479). -/
theorem runRom_boot (boot : (s.die d).stage = .boot) (vfail : Nat) : s.runRom d vfail 0x2102 =
    ((s.setSteward d { s.steward d with vfail := BitVec.ofNat 8 vfail }).startFault d 0x2102 true).stewardRuns d .rom 0 0 := by
  unfold runRom
  simp only [boot, ne_eq, reduceCtorEq, not_false_eq_true, decide_true, if_true, Nat.reduceEqDiff, if_false]

theorem startFault_boot (boot : (s.die d).stage = .boot) (code : Nat) : ∃ c g, s.startFault d code true =
    s.setDie d { s.die d with failCode := c, stopped := true, degraded := g } := by
  have early : ¬(s.die d).stage = .ready := by simp [boot]
  unfold startFault
  dsimp only
  rw [if_neg early, Bool.or_true]
  exact ⟨_, _, rfl⟩

/-! ### Restarts and sessions -/

/-- A steward that restarts (R399). -/
def restarting (k : Steward) : Steward :=
  { k with
    mode := .checking
    supDone := false
    sessions := {}
    serving := none
    buckets := {}
    mailboxes := k.mailboxes.mapVals fun m => { m with restarted := m.restarted || (m.busy && !m.taken.isEmpty) }
    dap := k.dap.mapVals fun q => { q with queue := [], held := [] }
    journal := { k.journal with replayed := false, queue := [], jobs := [], erased := false } }

theorem restartSteward_ready (ready : (s.die d).stage = .ready) : s.restartSteward d = s.setSteward d (restarting (s.steward d)) :=
  if_pos (.inl ready)

theorem stewardWatchdog_late (carori : (s.steward d).mode = .carori) (late : 200000 ≤ s.since d (s.steward d).supAt) :
    s.stewardWatchdog d = ((s.setSteward d { s.steward d with restarts := satInc (s.steward d).restarts }).report d 0x2101
      (satInc (s.steward d).restarts).toNat).restartSteward d := if_neg (by simp [carori, late])

theorem sessionEnd_late {g : Nat} {x : Session} (found : (s.steward d).sessions.find? g = some x)
    (late : 100000000 ≤ s.since d x.at') :
    s.sessionEnd d g = s.setSteward d { s.steward d with sessions := (s.steward d).sessions.erase g } := by
  unfold sessionEnd
  simp only [found, late, if_true]

/-! ### Frames of the debug access port -/

section
variable {f b : List Byte} {key : Fin 2}
variable (on : (s.die d).stage ≠ .held) (accepted : s.macAccepts d f = true) (ether : (etherType f).1 = 0x88B5)
  (runs : s.caroriRuns d = true)
include on accepted ether runs

/-- A frame whose key is not set is counted (R409, R410). -/
theorem dapFrame_unset (unset : s.objVal d (0x1E00 + fieldAt ((f.drop (etherType f).2.2).take 64) 2 1 % 2) 0 = 0) :
    s.dapFrame d f = s.setSteward d { s.steward d with authFail := satInc (s.steward d).authFail } := by
  have unset' : s.objVal d (0x1E00 + (Fin.ofNat 2 (fieldAt ((f.drop (etherType f).2.2).take 64) 2 1)).val) 0 = 0 := unset
  unfold dapFrame
  simp only [on, accepted, ether, runs, unset', Bool.not_true, Bool.false_eq_true, ne_eq, not_true_eq_false, or_self, if_false,
    decide_false, Bool.and_false, Bool.false_and, Bool.not_false, if_true]

/-- A frame whose every check passes, with no reservation of its key under way, is handled (R409, R411). -/
theorem dapFrame_good (body : b = (f.drop (etherType f).2.2).take 64) (long : 64 ≤ f.length - 4 - (etherType f).2.2)
    (version : fieldAt b 0 1 = 1) (request : fieldAt b 1 1 = 1) (keyed : fieldAt b 2 1 = key.val) (rsv : fieldAt b 3 1 = 0)
    (rsv' : fieldAt b 12 4 = 0) (set : s.objVal d (0x1E00 + key.val) 0 ≠ 0)
    (mac : b.drop 0x30 = dapMac (BitVec.ofNat 128 (s.objVal d (0x1E00 + key.val) 0)) (f.take 6) ((f.drop 6).take 6) b)
    (newer : ¬BitVec.ofNat 64 (fieldAt b 4 8) ≤ ((s.steward d).dap.get {} key.val).rxHigh)
    (room : ((s.steward d).dap.get {} key.val).queue.length + ((s.steward d).dap.get {} key.val).held.length < 32)
    (free : s.reserving d key = false) : s.dapFrame d f =
      s.dapHandle d key (BitVec.ofNat 64 (fieldAt b 4 8)) ((b.drop 0x10).take 32) ((f.drop 6).take 6) := by
  have named : Fin.ofNat 2 key.val = key := Fin.ext (Nat.mod_eq_of_lt key.isLt)
  have small : key.val < 2 := key.isLt
  unfold dapFrame
  simp only [← body]
  simp only [on, accepted, ether, runs, named, long, version, request, keyed, rsv, rsv', set, ← mac, newer, free, small, bit,
    Nat.not_le.mpr room, Bool.not_true, Bool.false_eq_true, ne_eq, not_true_eq_false, not_false_eq_true, or_self, if_false,
    decide_true, Nat.add_zero, Bool.and_self]

end

theorem dapHandle_queues {key : Fin 2} {seq : W64} (newer : ¬seq ≤ ((s.steward d).dap.get {} key.val).rxHigh)
    (reserved : ¬((s.steward d).dap.get {} key.val).rxRes.toNat < seq.toNat + 2048) (block src : List Byte) :
    s.dapHandle d key seq block src = s.setSteward d { s.steward d with
      dap := (s.steward d).dap.put key.val { (s.steward d).dap.get {} key.val with
        rxHigh := seq, queue := ((s.steward d).dap.get {} key.val).queue ++ [(block, src)] } } :=
  (if_neg newer).trans (if_neg reserved)

/-! ### Records -/

theorem compactDue_only (j : Journal) : ∃ jobs, compactDue j = { j with jobs := jobs } := by
  unfold compactDue
  split
  · exact ⟨_, rfl⟩
  · exact ⟨j.jobs, rfl⟩

theorem mem_nextRec {j : Journal} {r : JrnRec} (next : nextRec j = some r) : r ∈ j.queue := by
  unfold nextRec at next
  split at next
  · next x found =>
    cases next
    exact List.mem_of_find?_eq_some found
  · exact List.mem_of_mem_head? next

section
variable {r : JrnRec} {bs : List Byte}

/-- The journal once its next record has been written (R420, R422, R425). -/
def recorded (s : State) (d : DieId) (r : JrnRec) (bs : List Byte) : Journal :=
  let j := (s.steward d).journal
  compactDue { j.append1 bs with
    next := j.next + 1, queue := j.queue.erase r
    planCodes := if r.kind = 2 then planCodesOf s.regionList r.payload else j.planCodes }

/-- The journal whose next record did not read back as written (R422). -/
def unrecorded (j : Journal) (r : JrnRec) (len : Nat) (bad : List Byte) : Journal :=
  { j.program (Journal.bankBase j.bank + j.recordAt len) bad with
    append := nextPage (j.recordAt len), verifyFail := true
    queue := j.queue.map fun x => if x = r then { x with tries := x.tries + 1 } else x }

variable (next : nextRec (s.steward d).journal = some r) (carori : (s.steward d).mode = .carori)
  (replayed : (s.steward d).journal.replayed = true) (valid : (s.steward d).journal.gen ≠ 0)
  (writable : (s.steward d).journal.readOnly = false) (usable : (s.steward d).journal.unusable = false)
  (bytes : bs = recBytes (s.steward d).journal.gen (s.steward d).journal.next r.kind r.payload)
  (fits : (s.steward d).journal.recordAt bs.length + bs.length ≤ 0x200000)
include next carori replayed valid writable usable bytes fits

theorem recordWrite_good : s.recordWrite d true =
    (s.setSteward d { s.steward d with journal := s.recorded d r bs }).recWritten d (s.steward d).journal.next r.after := by
  unfold recordWrite
  simp only [next, ← bytes]
  simp only [carori, replayed, valid, writable, usable, Nat.not_lt.mpr fits, reduceCtorEq, Bool.not_true, Bool.false_eq_true,
    or_self, if_false, if_true]
  rfl

theorem recordWrite_again (few : r.tries < 2) : ∃ bad, s.recordWrite d false =
    s.draw.2.setSteward d { s.steward d with journal := unrecorded (s.steward d).journal r bs.length bad } := by
  refine ⟨(List.range bs.length).map fun i => Config.freeByte s.draw.1 i, ?_⟩
  unfold recordWrite
  simp only [next, ← bytes]
  simp only [carori, replayed, valid, writable, usable, few, Nat.not_lt.mpr fits, reduceCtorEq, Bool.not_true, Bool.false_eq_true,
    or_self, if_false, if_true]
  rfl

end

/-! ### Replays -/

/-- A journal without its queue. -/
def unqueued (j : Journal) : Journal := { j with queue := [] }

/-- A state that differs from another, as a replay sees it, in no die's record, nor in the journal but for its queue, nor in the
safety outputs of the steward. -/
structure Refills (s t : State) (d : DieId) : Prop where
  dies : t.dies = s.dies
  journal : unqueued (t.steward d).journal = unqueued (s.steward d).journal
  safety : (t.steward d).safety = (s.steward d).safety

theorem Refills.refl (s : State) (d : DieId) : Refills s s d := ⟨rfl, rfl, rfl⟩

theorem Refills.trans {s t u : State} (h : Refills s t d) (h' : Refills t u d) : Refills s u d :=
  ⟨h'.dies.trans h.dies, h'.journal.trans h.journal, h'.safety.trans h.safety⟩

theorem refills_setSteward {v : Steward} (journal : unqueued v.journal = unqueued (s.steward d).journal)
    (safety : v.safety = (s.steward d).safety) : Refills s (s.setSteward d v) d :=
  ⟨rfl, by rw [steward_setSteward, journal], by rw [steward_setSteward, safety]⟩

theorem refills_of_same (dies : t.dies = s.dies) (stewards : t.stewards = s.stewards) : Refills s t d where
  dies := dies
  journal := congrArg (fun m : SMap Steward => unqueued (m.get {} d.val).journal) stewards
  safety := congrArg (fun m : SMap Steward => (m.get {} d.val).safety) stewards

theorem refills_setMonitor (s : State) (d : DieId) (i : Nat) (v : Monitor) : Refills s (s.setMonitor d i v) d :=
  refills_of_same rfl rfl

theorem refills_foldl {α : Type} {f : State → α → State} (keeps : ∀ u a, Refills u (f u a) d) (l : List α) (s : State) :
    Refills s (l.foldl f s) d :=
  List.foldlRecOn l f (motive := fun u => Refills s u d) (.refl s d) fun u same a _ => same.trans (keeps u a)

theorem refills_setRegion (s : State) (d : DieId) (r : Nat) (v : Region) : Refills s (s.setRegion d r v) d :=
  refills_setSteward rfl rfl

theorem refills_journal (s : State) (d : DieId) (kind : Nat) (payload : List Byte) (after : JrnAfter) :
    Refills s (s.journal d kind payload after) d := refills_setSteward rfl rfl

theorem refills_putVals (l : List (Nat × BitVec 128)) (s : State) (d : DieId) : Refills s (s.putVals d l) d := by
  induction l generalizing s with
  | nil => exact .refl s d
  | cons e l ih =>
    refine .trans ?_ (ih _)
    dsimp only
    split
    · exact (refills_setSteward (by rfl) (by rfl)).trans (refills_setMonitor ..)
    · exact refills_setSteward rfl rfl

theorem refills_applyFirst (s : State) (d : DieId) (l : List JrnRead) : Refills s (s.applyFirst d l) d := by
  unfold applyFirst
  dsimp only
  split
  · exact refills_foldl (fun u e => refills_setRegion u d _ _) _ s
  · exact refills_foldl (fun u r => refills_setRegion u d _ _) _ s

theorem refills_applyLog (s : State) (d : DieId) (l : List JrnRead) : Refills s (s.applyLog d l) d := by
  unfold applyLog
  dsimp only
  split
  · exact (refills_putVals ..).trans (refills_setSteward rfl rfl)
  · exact refills_putVals ..

theorem refills_takeDefaults (s : State) (d : DieId) : Refills s (s.takeDefaults d) d :=
  ((refills_putVals ..).trans (refills_applyFirst ..)).trans (refills_setSteward rfl rfl)

/-- The values of a log take effect at power-up; at a restart the values that it lacks are journaled again (R399, R402). -/
def refilled (s : State) (d : DieId) (filled : Bool) (l : List JrnRead) : State :=
  if filled then (s.unjournaled d l).foldl (fun s e => s.journal d e.1 e.2 .again) s else s.applyLog d l

theorem refills_refilled (s : State) (d : DieId) (filled : Bool) (l : List JrnRead) : Refills s (s.refilled d filled l) d := by
  unfold refilled
  split
  · exact refills_foldl (fun u e => refills_journal u d _ _ _) _ s
  · exact refills_applyLog ..

/-- The journal of a steward that has replayed a bank's log (R424). -/
def replayedLog (s : State) (d : DieId) (b g : Nat) (x : JrnLog) : Journal :=
  let j := (s.steward d).journal
  compactDue { j with
    replayed := true, bank := b, gen := g, append := x.append
    next := match x.recs.getLast? with
      | some r => BitVec.ofNat 64 (r.seq + 1)
      | none => 1
    planCodes := (lastRec x.recs 2).elim {} (planCodesOf s.regionList)
    torn := if x.torn then satInc j.torn else j.torn }

theorem replayedLog_only (s : State) (d : DieId) (b g : Nat) (x : JrnLog) : ∃ jobs next codes torn,
    s.replayedLog d b g x = { (s.steward d).journal with
      replayed := true, bank := b, gen := g, append := x.append, next := next, planCodes := codes, torn := torn, jobs := jobs } := by
  obtain ⟨jobs, only⟩ := compactDue_only _
  exact ⟨jobs, _, _, _, only⟩

/-- The journal of a steward that has found no valid bank (R424, R428). -/
def emptyLog (j : Journal) : Journal :=
  { j with
    replayed := true, gen := 0, next := 1, empty := true, planCodes := {}, jobs := [(.empty, Journal.bankSectors 0)] }

theorem emptyLog_fields {j k : Journal} (q : List JrnRec) (same : unqueued j = unqueued { emptyLog k with queue := q }) :
    j.empty = true ∧ j.jobs = [(.empty, Journal.bankSectors 0)] :=
  ⟨(congrArg Journal.empty same :), (congrArg Journal.jobs same :)⟩

section
variable (carori : (s.steward d).mode = .carori) (fresh : (s.steward d).journal.replayed = false)
  (usable : (s.steward d).journal.unusable = false)
include carori fresh usable

theorem journalReplay_active {b g : Nat} (active : (s.steward d).journal.active = some (b, g)) : s.journalReplay d =
    let x := (s.steward d).journal.log b g
    ((((s.setSteward d { s.steward d with journal := s.replayedLog d b g x }).refilled d (s.steward d).filled x.recs).applyFirst d
      x.recs).replayOver d x.recs) := by
  unfold journalReplay
  dsimp only
  rw [if_neg (by simp [carori, fresh]), if_neg (by simp [usable]), active]
  rfl

theorem journalReplay_none (none' : (s.steward d).journal.active = none) : s.journalReplay d =
    (((s.setSteward d { s.steward d with journal := emptyLog (s.steward d).journal }).report d 0x2201 1).takeDefaults d).replayOver
      d [] := by
  unfold journalReplay
  dsimp only
  rw [if_neg (by simp [carori, fresh]), if_neg (by simp [usable]), none']
  rfl

end

/-- The limits of the DAP keys as a log has them (R411). -/
def dapLimits (d : DieId) (l : List JrnRead) : SMap DapKey :=
  (List.range 2).foldl (fun (m : SMap DapKey) i =>
    let x := logKey d l i
    m.put i { rxHigh := BitVec.ofNat 64 x.2.1, rxRes := BitVec.ofNat 64 x.2.1, txSeq := BitVec.ofNat 64 x.2.2,
              txRes := BitVec.ofNat 64 x.2.2 }) {}

/-- After a replay a die in REPLAY goes on to PLAN (R411, R476). -/
theorem replayOver_plan (replay : (s.die d).stage = .replay) (l : List JrnRead) : s.replayOver d l =
    (s.setSteward d { s.steward d with dap := dapLimits d l, filled := true }).enterStage d .plan := if_pos replay

theorem replayOver_goes (replay : (s.die d).stage = .replay) (l : List JrnRead) :
    ((s.replayOver d l).steward d).journal = (s.steward d).journal ∧
      ((s.replayOver d l).steward d).filled = true ∧
      ((s.replayOver d l).steward d).safety = (s.steward d).safety ∧ ((s.replayOver d l).die d).stage = .plan := by
  have steward (t : State) : (t.enterStage d .plan).steward d = t.steward d := rfl
  rw [replayOver_plan replay, steward, steward_setSteward, enterStage, die_setDie]
  exact ⟨rfl, rfl, rfl, rfl⟩

/-! ### Compactions and erases -/

theorem append1_foldl (f : JrnRead → List Byte) (l : List JrnRead) (j : Journal) :
    ∃ flash append, l.foldl (fun x r => x.append1 (f r)) j = { j with flash := flash, append := append } := by
  induction l generalizing j with
  | nil => exact ⟨j.flash, j.append, rfl⟩
  | cons r l ih =>
    obtain ⟨flash, append, rest⟩ := ih (j.append1 (f r))
    exact ⟨flash, append, rest⟩

/-- A compaction moves to the other bank, with the next generation (R425). -/
theorem compaction_moves (erased : (s.steward d).journal.erased = true) (replayed : (s.steward d).journal.replayed = true)
    (valid : (s.steward d).journal.gen ≠ 0) (writable : (s.steward d).journal.readOnly = false) :
    ∃ flash append, s.compaction d = s.setSteward d { s.steward d with journal := { (s.steward d).journal with
      bank := 1 - (s.steward d).journal.bank, gen := (s.steward d).journal.gen + 1, erased := false, flash := flash,
      append := append } } := by
  unfold compaction
  dsimp only
  rw [if_neg (by simp [erased, replayed, valid, writable])]
  obtain ⟨flash, append, row⟩ := append1_foldl _ (liveRecs ((s.steward d).journal.log (s.steward d).journal.bank
    (s.steward d).journal.gen true).recs) _
  rw [row]
  exact ⟨_, append, rfl⟩

/-- A flash whose sector has been erased (R417, R425). -/
def erasedAt (j : Journal) (n : Nat) (jobs : List (EraseJob × List Nat)) : Journal :=
  { j with flash := j.flash.filter fun a _ => !inSector n a, jobs := jobs }

theorem byte_erasedAt (j : Journal) (n : Nat) (jobs : List (EraseJob × List Nat)) (x : Nat) :
    (erasedAt j n jobs).byte x = if inSector n x then 0xFF else j.byte x := by
  have found : (j.flash.filter fun a _ => !inSector n a).find? x = if !inSector n x then j.flash.find? x else none :=
    SMap.find?_filter_key ..
  rw [Journal.byte, erasedAt, SMap.get, found]
  cases inSector n x <;> rfl

section
variable {job : EraseJob} {n m : Nat} {rest : List Nat} {more : List (EraseJob × List Nat)}

theorem sectorErase_more (jobs : (s.steward d).journal.jobs = (job, n :: m :: rest) :: more)
    (writable : job ≠ .compact ∨ (s.steward d).journal.readOnly = false) : s.sectorErase d =
      s.setSteward d { s.steward d with journal := erasedAt (s.steward d).journal n ((job, m :: rest) :: more) } := by
  have open' : ¬(job = .compact ∧ (s.steward d).journal.readOnly = true) := by
    rintro ⟨compact, readOnly⟩
    obtain other | writes := writable
    · exact other compact
    · simp [readOnly] at writes
  unfold sectorErase
  simp only [jobs, open', List.isEmpty_cons, Bool.not_false, if_true, if_false]
  rfl

theorem sectorErase_last (jobs : (s.steward d).journal.jobs = (.compact, [n]) :: more)
    (writable : (s.steward d).journal.readOnly = false) : s.sectorErase d =
      s.setSteward d { s.steward d with journal := { erasedAt (s.steward d).journal n more with erased := true } } := by
  unfold sectorErase
  simp only [jobs, writable, erasedAt, Bool.false_eq_true, and_false, List.isEmpty_nil, Bool.not_true, if_false]

theorem sectorErase_readOnly (jobs : (s.steward d).journal.jobs = (.compact, rest) :: more)
    (readOnly : (s.steward d).journal.readOnly = true) : s.sectorErase d =
      s.setSteward d { s.steward d with journal := { (s.steward d).journal with jobs := more } } := by
  unfold sectorErase
  cases rest with
  | nil => simp only [jobs]
  | cons n rest => simp only [jobs, readOnly, and_self, if_true]

end

end State

/-- Settles O57: the image check ends in one firmware's start, which the answers after it leave running; each journal operation is
one write of the steward, and what a replay puts into place leaves the journal but for its queue. -/
theorem stewardAndJournal : Obligations.StewardAndJournal := by
  unfold Obligations.StewardAndJournal
  refine ⟨?image, ?watchdog, ?session, ?unset, ?queued, ?recorded, ?again, ?replay, ?empty, ?compacted, ?erased, ?last, ?readOnly⟩
  case image =>
    intro s d here checking boot idle forced
    refine ⟨_, onDie_next here _, fun good => ?_, fun bad => ?_⟩
    · obtain ⟨u, same, steward, die⟩ := State.stewardRuns_boot (s := s.flashChecked d) boot .carori
        (BitVec.ofNat 16 (fieldAt ((s.steward d).journal.bytesAt 0 0x10) 8 2))
        (BitVec.ofNat 32 (fieldAt ((s.steward d).journal.bytesAt 0 0x10) 4 4))
      rw [State.imageCheckAt_good checking boot idle forced good, same.mode, same.svn, same.supAt, steward,
        State.die_of_dies same.dies, die]
      refine ⟨rfl, ?_, rfl, rfl⟩
      rw [State.enterStage, State.die_setDie]
    · let u := (s.flashChecked d).setSteward d { (s.flashChecked d).steward d with
        vfail := BitVec.ofNat 8 (imageVfail d (s.steward d).journal) }
      obtain ⟨c, g, stops⟩ := State.startFault_boot (s := u) (d := d) boot 0x2102
      have boot' : ((u.startFault d 0x2102 true).die d).stage = .boot := by
        rw [stops, State.die_setDie]
        exact boot
      obtain ⟨v, same, steward, die⟩ := State.stewardRuns_boot boot' .rom 0 0
      rw [State.imageCheckAt_bad checking boot idle forced bad, State.runRom_boot (s := s.flashChecked d) boot, same.mode,
        same.vfail, State.die_of_dies same.dies, steward, die]
      refine ⟨rfl, ?_, ?_⟩
      · rw [stops]
        exact (congrArg Steward.vfail (State.steward_setSteward (s.flashChecked d) d _) :)
      · rw [State.enterStage, State.die_setDie]
        change ((u.startFault d 0x2102 true).die d).stopped = true
        rw [stops, State.die_setDie]
  case watchdog =>
    intro s d here carori ready late
    let t := (s.setSteward d { s.steward d with restarts := satInc (s.steward d).restarts }).report d 0x2101
      (satInc (s.steward d).restarts).toNat
    have ready' : (t.die d).stage = .ready := by
      rw [State.die_of_dies (State.dies_report ..)]
      exact ready
    obtain ⟨f, q, a, b, told⟩ := State.steward_report (s.setSteward d { s.steward d with restarts := satInc (s.steward d).restarts })
      d 0x2101 (satInc (s.steward d).restarts).toNat
    refine ⟨t.setSteward d (State.restarting (t.steward d)), (onDie_next here _).trans (congrArg _
      ((State.stewardWatchdog_late carori late).trans (State.restartSteward_ready ready'))), ?_⟩
    have cause := (State.safety_report (s.setSteward d { s.steward d with restarts := satInc (s.steward d).restarts }) d
      (satInc (s.steward d).restarts).toNat (code := 0x2101) rfl (by decide)).1
    rw [State.steward_setSteward]
    refine ⟨rfl, ?_, rfl, cause, ready', ?_⟩
    · rw [State.restarting, told, State.steward_setSteward]
    · rw [State.restarting, told, State.steward_setSteward]
  case session =>
    intro s d g x here found late
    refine ⟨_, (onDie_next here _).trans (congrArg _ (State.sessionEnd_late found late)), ?_⟩
    rw [State.steward_setSteward]
    exact ⟨SMap.find?_erase_same .., rfl⟩
  case unset =>
    intro s d f here on accepted ether runs unset
    refine ⟨_, (onDie_next here _).trans (congrArg _ (State.dapFrame_unset on accepted ether runs unset)), ?_⟩
    rw [State.steward_setSteward]
    exact ⟨rfl, rfl⟩
  case queued =>
    intro s d f b key x here on accepted ether runs body long version request keyed rsv rsv' set mac root newer room free reserved
    subst root
    have small : fieldAt b 4 8 < 2 ^ 64 := State.fieldAt_lt b 4 8
    have value : (BitVec.ofNat 64 (fieldAt b 4 8)).toNat = fieldAt b 4 8 := Nat.mod_eq_of_lt small
    have newer' : ¬BitVec.ofNat 64 (fieldAt b 4 8) ≤ ((s.steward d).dap.get {} key.val).rxHigh := by
      rw [BitVec.le_def, value]
      exact Nat.not_le.mpr newer
    have row := (State.dapFrame_good on accepted ether runs body long version request keyed rsv rsv' set mac newer' room free).trans
      (State.dapHandle_queues newer' (by rw [value]; exact Nat.not_lt.mpr reserved) _ _)
    refine ⟨_, _, (onDie_next here _).trans (congrArg _ row), rfl, ?_⟩
    rw [State.steward_setSteward, SMap.get_put_same]
    exact ⟨value, rfl⟩
  case recorded =>
    intro s d r bs here next plain carori replayed valid writable usable bytes fits
    have row := State.recordWrite_good next carori replayed valid writable usable bytes fits
    rw [plain] at row
    refine ⟨_, (onDie_next here _).trans (congrArg _ row), ?_⟩
    obtain ⟨jobs, only⟩ := State.compactDue_only { (s.steward d).journal.append1 bs with
      next := (s.steward d).journal.next + 1, queue := (s.steward d).journal.queue.erase r
      planCodes := if r.kind = 2 then State.planCodesOf s.regionList r.payload else (s.steward d).journal.planCodes }
    rw [State.recWritten, State.steward_setSteward, State.recorded, only]
    exact ⟨rfl, rfl, rfl, rfl⟩
  case again =>
    intro s d r bs here next few carori replayed valid writable usable bytes fits
    obtain ⟨bad, row⟩ := State.recordWrite_again next carori replayed valid writable usable bytes fits few
    refine ⟨_, (onDie_next here _).trans (congrArg _ row), ?_⟩
    rw [State.steward_setSteward]
    exact ⟨rfl, rfl, writable, List.mem_map.mpr ⟨r, State.mem_nextRec next, if_pos rfl⟩⟩
  case replay =>
    intro s d b g here carori fresh active usable replay
    let x := (s.steward d).journal.log b g
    let t := s.setSteward d { s.steward d with journal := s.replayedLog d b g x }
    have refills := (State.refills_refilled t d (s.steward d).filled x.recs).trans (State.refills_applyFirst _ d x.recs)
    have replay' : ((((t.refilled d (s.steward d).filled x.recs).applyFirst d x.recs).die d).stage) = .replay := by
      rw [State.die_of_dies refills.dies]
      exact replay
    obtain ⟨journal, filled, -, stage⟩ := State.replayOver_goes replay' x.recs
    obtain ⟨jobs, next, codes, torn, only⟩ := State.replayedLog_only s d b g x
    have fields := refills.journal
    rw [State.steward_setSteward, only] at fields
    refine ⟨_, (onDie_next here _).trans (congrArg _ (State.journalReplay_active carori fresh usable active)), ?_⟩
    rw [journal]
    exact ⟨(congrArg Journal.replayed fields :), (congrArg Journal.bank fields :), (congrArg Journal.gen fields :),
      (congrArg Journal.append fields :), filled, stage⟩
  case empty =>
    intro s d here carori fresh none' usable replay
    let t := s.setSteward d { s.steward d with journal := State.emptyLog (s.steward d).journal }
    obtain ⟨f, q, a, b, told⟩ := State.steward_report t d 0x2201 1
    have refills := State.refills_takeDefaults (t.report d 0x2201 1) d
    have replay' : (((t.report d 0x2201 1).takeDefaults d).die d).stage = .replay := by
      rw [State.die_of_dies (refills.dies.trans (State.dies_report ..))]
      exact replay
    obtain ⟨journal, -, safety, stage⟩ := State.replayOver_goes replay' []
    have fields := refills.journal
    rw [told, State.steward_setSteward] at fields
    obtain ⟨empty, jobs⟩ := State.emptyLog_fields q fields
    refine ⟨_, (onDie_next here _).trans (congrArg _ (State.journalReplay_none carori fresh usable none')), ?_⟩
    rw [journal, safety, refills.safety]
    exact ⟨empty, jobs, stage, (State.safety_report t d 1 (code := 0x2201) rfl (by decide)).1⟩
  case compacted =>
    intro s d here erased replayed valid writable
    obtain ⟨flash, append, row⟩ := State.compaction_moves erased replayed valid writable
    refine ⟨_, (onDie_next here _).trans (congrArg _ row), ?_⟩
    rw [State.steward_setSteward]
    exact ⟨rfl, rfl, rfl, rfl⟩
  case erased =>
    intro s d job n m rest more here jobs writable
    refine ⟨_, (onDie_next here _).trans (congrArg _ (State.sectorErase_more jobs writable)), ?_⟩
    rw [State.steward_setSteward]
    exact ⟨rfl, fun x inside => (State.byte_erasedAt ..).trans (if_pos inside),
      fun x outside => (State.byte_erasedAt ..).trans (if_neg (by simp [outside]))⟩
  case last =>
    intro s d n more here jobs writable
    refine ⟨_, (onDie_next here _).trans (congrArg _ (State.sectorErase_last jobs writable)), ?_⟩
    rw [State.steward_setSteward]
    exact ⟨rfl, rfl⟩
  case readOnly =>
    intro s d l more here jobs readOnly
    refine ⟨_, (onDie_next here _).trans (congrArg _ (State.sectorErase_readOnly jobs readOnly)), ?_⟩
    rw [State.steward_setSteward]
    exact ⟨rfl, rfl⟩

end Sys2Proof.Machine
end

section
/-!
PROOFS. Requests to the object dictionary: the request that a mailbox has waiting is taken and checked, and its operation has its
effect and its answer (21_steward_dictionary.md, R398 to R412).
-/
namespace Sys2Proof.Machine
namespace State

variable {s t u : State} {p : DPath} {i : Nat} {r : List Byte} {kind : DKind}

/-! ### The request that a mailbox has waiting -/

/-- The request of a mailbox of die 0 (R406). -/
def requestOf (m : Mailbox) : Option (List Byte) := if m.busy then some (if m.taken.isEmpty then m.req else m.taken) else none

theorem waitingReq_mailbox (box : p.mailbox = some i) (s : State) :
    s.waitingReq die0 p = requestOf ((s.steward die0).mailboxes.get {} i) := by
  cases p with
  | dap key => cases box
  | driver => cases box; simp [waitingReq, DPath.mailbox, requestOf]
  | safety => cases box; simp [waitingReq, DPath.mailbox, requestOf]
  | partition n => cases box; simp [waitingReq, DPath.mailbox, requestOf]

theorem waitingReq_congr (box : p.mailbox = some i) (same : (t.steward die0).mailboxes = (s.steward die0).mailboxes) :
    t.waitingReq die0 p = s.waitingReq die0 p := by
  rw [waitingReq_mailbox box, waitingReq_mailbox box, same]

theorem requestOf_taken {m : Mailbox} (waits : requestOf m = some r) : requestOf { m with taken := r } = some r := by
  unfold requestOf at *
  cases r with
  | cons b bs => cases busy : m.busy <;> simp_all
  | nil => cases busy : m.busy <;> cases taken : m.taken <;> simp_all

/-! ### The steward takes it -/

/-- A state whose steward of die 0 has taken the request of a mailbox: the request waits there, and the sessions stand, but that
the one of the request's group is kept (R407, R412). -/
structure Takes (s t : State) (p : DPath) (r : List Byte) : Prop where
  only : ∃ l b m x, t = s.setSteward die0 { s.steward die0 with lastPath := l, buckets := b, mailboxes := m, sessions := x }
  waits : t.waitingReq die0 p = some r
  sets : SameSets s t
  kept : ∀ x, (s.steward die0).sessions.find? (s.reqGroup die0 r) = some x → x.path = p →
    (t.steward die0).sessions.find? (s.reqGroup die0 r) = some { x with at' := (s.die die0).ticks }

/-- The steward with the request in its mailbox taken, and its turn and its tokens as they then are. -/
def taking (s : State) (i : Nat) (r : List Byte) (l : Nat) (b : SMap Bucket) : State :=
  s.setSteward die0 { s.steward die0 with
    lastPath := l, buckets := b
    mailboxes := (s.steward die0).mailboxes.put i { (s.steward die0).mailboxes.get {} i with taken := r } }

theorem takes_touchSession (box : p.mailbox = some i) (waits : s.waitingReq die0 p = some r) (l : Nat) (b : SMap Bucket) :
    Takes s ((s.taking i r l b).touchSession die0 p (s.reqGroup die0 r)) p r := by
  have taken : (s.taking i r l b).waitingReq die0 p = some r := by
    rw [waitingReq_mailbox box] at waits ⊢
    rw [taking, steward_setSteward, SMap.get_put_same]
    exact requestOf_taken waits
  have sessions : ((s.taking i r l b).steward die0).sessions = (s.steward die0).sessions := by rw [taking, steward_setSteward]
  unfold touchSession
  simp only [sessions]
  cases found : (s.steward die0).sessions.find? (s.reqGroup die0 r) with
  | none =>
    exact ⟨⟨l, b, _, _, rfl⟩, taken, fun g => by rw [sessions], fun x other => by simp [found] at other⟩
  | some x =>
    dsimp only
    split
    · next own =>
      refine ⟨⟨l, b, (s.steward die0).mailboxes.put i { (s.steward die0).mailboxes.get {} i with taken := r },
        (s.steward die0).sessions.put (s.reqGroup die0 r) { x with at' := (s.die die0).ticks }, ?_⟩, ?_, fun g => ?_,
        fun y same _ => ?_⟩
      · rw [taking, steward_setSteward, setSteward_setSteward]
        rfl
      · exact (waitingReq_congr box (by rw [steward_setSteward])).trans taken
      · rw [steward_setSteward]
        by_cases same : g = s.reqGroup die0 r
        · subst same
          simp [found]
        · simp [SMap.find?_put_other _ _ same]
      · rw [found] at same
        cases same
        rw [steward_setSteward]
        exact SMap.find?_put_same ..
    · next other =>
      exact ⟨⟨l, b, _, _, rfl⟩, taken, fun g => by rw [sessions], fun y same own => by
        rw [found] at same
        cases same
        exact absurd own other⟩

namespace Takes

variable (takes : Takes s t p r)
include takes

theorem dict : (t.steward die0).dict = (s.steward die0).dict := by
  obtain ⟨l, b, m, x, rfl⟩ := takes.only
  rw [steward_setSteward]

theorem journal : (t.steward die0).journal = (s.steward die0).journal := by
  obtain ⟨l, b, m, x, rfl⟩ := takes.only
  rw [steward_setSteward]

theorem rateRefused : (t.steward die0).rateRefused = (s.steward die0).rateRefused := by
  obtain ⟨l, b, m, x, rfl⟩ := takes.only
  rw [steward_setSteward]

theorem die : t.die = s.die := by
  obtain ⟨l, b, m, x, rfl⟩ := takes.only
  rfl

theorem objVal : t.objVal die0 = s.objVal die0 := by
  obtain ⟨l, b, m, x, rfl⟩ := takes.only
  funext index sub
  simp only [State.objVal, steward_setSteward]
  rfl

theorem objNow : t.objNow die0 = s.objNow die0 := by
  have objVal := takes.objVal
  obtain ⟨l, b, m, x, rfl⟩ := takes.only
  funext index sub
  simp only [State.objNow, objVal, safeStat, ssrAsserted, errDriven, steward_setSteward]
  rfl

theorem writeRefused : t.writeRefused die0 = s.writeRefused die0 := by
  have objVal := takes.objVal
  obtain ⟨l, b, m, x, rfl⟩ := takes.only
  funext key
  simp only [State.writeRefused, objVal]
  rfl

/-- The checks are those of the request as it waited (R405). -/
theorem dictCheck : t.dictCheck die0 p r = s.dictCheck die0 p r := by
  have refused := takes.writeRefused
  have path (g : Nat) : ((t.steward die0).sessions.find? g).map (·.path) = ((s.steward die0).sessions.find? g).map (·.path) := by
    have both := congrArg (Option.map Prod.fst) (takes.sets g)
    rwa [Option.map_map, Option.map_map] at both
  have build : t.build = s.build := by
    obtain ⟨l, b, m, x, rfl⟩ := takes.only
    rfl
  unfold State.dictCheck
  dsimp only
  rw [refused, build]
  generalize (if dOp r = 3 ∨ dOp r = 4 then dGroup r
    else if dOp r = 2 then (Option.map (·.group) (objAttr s.build.dies die0.val (dIndex r) (dSub r))).getD 0 else 0) = g
  have held := path g
  cases found : (s.steward die0).sessions.find? g with
  | none =>
    rw [found, Option.map_none, Option.map_eq_none_iff] at held
    simp only [held]
  | some x =>
    rw [found, Option.map_some, Option.map_eq_some_iff] at held
    obtain ⟨y, listed, same⟩ := held
    simp only [listed, same]

end Takes

/-! ### The steward serves it -/

/-- The turn after a request has been served (R412). -/
def turnOf (s : State) (p : DPath) : Nat := if p.role = DRole.safety then (s.steward die0).lastPath else p.turn

/-- The buckets after a path has taken a token (R412). -/
def tokenTaken (s : State) (p : DPath) : SMap Bucket :=
  (s.steward die0).buckets.put p.bucket.1 { tokens := s.bucketNow die0 p - 100000000, at' := (s.die die0).ticks }

/-- The checks of a request that has been taken, and its operation or its answer (R405). -/
def checkedOn (s : State) (p : DPath) (r : List Byte) : State :=
  match s.dictCheck die0 p r with
  | 0 => s.dictDo die0 p r
  | n => s.answerPath die0 p { result := n }

theorem checkedOn_passed (passed : s.dictCheck die0 p r = 0) : s.checkedOn p r = s.dictDo die0 p r := by
  unfold checkedOn
  split
  · rfl
  · contradiction

theorem checkedOn_failed (failed : s.dictCheck die0 p r ≠ 0) :
    s.checkedOn p r = s.answerPath die0 p { result := s.dictCheck die0 p r } := by
  unfold checkedOn
  split
  · contradiction
  · rfl

section
variable (i r) (l : Nat)

theorem bucketNow_taking : (s.taking i r l (s.steward die0).buckets).bucketNow die0 p = s.bucketNow die0 p := by
  simp only [bucketNow, taking, steward_setSteward]
  rfl

theorem notOffered_taking (b : SMap Bucket) (q : List Byte) : (s.taking i r l b).notOffered die0 p q = s.notOffered die0 p q := by
  simp only [notOffered, taking, steward_setSteward]

theorem takeToken_taking : (s.taking i r l (s.steward die0).buckets).takeToken die0 p = s.taking i r l (s.tokenTaken p) := by
  rw [takeToken, bucketNow_taking, taking, steward_setSteward, setSteward_setSteward]
  rfl

end

section
variable (box : p.mailbox = some i) (waits : s.waitingReq die0 p = some r) (open' : s.stewardServes die0 = true)
  (isKind : dKind r = kind) (turn : s.dictTurn die0 p = true) (offered : s.notOffered die0 p r = false)
include box waits open' isKind turn offered

theorem serve_taken : ∃ n, s.serve die0 p kind =
    if 100000000 ≤ s.bucketNow die0 p then
      ((s.taking i r (s.turnOf p) (s.tokenTaken p)).touchSession die0 p (s.reqGroup die0 r)).checkedOn p r
    else ((s.taking i r (s.turnOf p) (s.steward die0).buckets).touchSession die0 p (s.reqGroup die0 r)).answerPath die0 p
      { result := 4, retry := n } := by
  let u := s.taking i r (s.turnOf p) (s.steward die0).buckets
  refine ⟨min (ceilDiv (ceilDiv (100000000 - s.bucketNow die0 p) p.bucket.2.1) 100) 0xFFFF, ?_⟩
  unfold serve
  simp only [waits]
  rw [if_neg (by simp [open', isKind, turn])]
  simp only [box]
  change (if u.notOffered die0 p r then _ else if !decide (100000000 ≤ u.bucketNow die0 p) then
    (u.touchSession die0 p (s.reqGroup die0 r)).answerPath die0 p
      { result := 4, retry := min (ceilDiv (ceilDiv (100000000 - u.bucketNow die0 p) p.bucket.2.1) 100) 0xFFFF }
    else (fun t : State => (t.touchSession die0 p (t.reqGroup die0 r)).checkedOn p r)
      (if decide (100000000 ≤ u.bucketNow die0 p) then u.takeToken die0 p else u)) = _
  rw [notOffered_taking, offered, bucketNow_taking, takeToken_taking, if_neg Bool.false_ne_true]
  by_cases token : 100000000 ≤ s.bucketNow die0 p
  · simp only [token, decide_true, Bool.not_true, Bool.false_eq_true, if_false, if_true]
    rfl
  · simp only [token, decide_false, Bool.not_false, if_true, if_false, u]

/-- A request with a token is checked, and done where every check passes (R405). -/
theorem serve_token (token : 100000000 ≤ s.bucketNow die0 p) : ∃ t, Takes s t p r ∧
    (s.dictCheck die0 p r = 0 → s.serve die0 p kind = t.dictDo die0 p r) ∧
    (s.dictCheck die0 p r ≠ 0 → s.serve die0 p kind = t.answerPath die0 p { result := s.dictCheck die0 p r }) := by
  have takes := takes_touchSession box waits (s.turnOf p) (s.tokenTaken p)
  obtain ⟨n, row⟩ := serve_taken box waits open' isKind turn offered
  rw [if_pos token] at row
  refine ⟨_, takes, fun passed => ?_, fun failed => ?_⟩
  · exact row.trans (checkedOn_passed (takes.dictCheck.trans passed))
  · rw [← takes.dictCheck] at failed ⊢
    exact row.trans (checkedOn_failed failed)

/-- A request without one is told to come again (R412). -/
theorem serve_short (short : s.bucketNow die0 p < 100000000) : ∃ t n, Takes s t p r ∧
    s.serve die0 p kind = t.answerPath die0 p { result := 4, retry := n } := by
  obtain ⟨n, row⟩ := serve_taken box waits open' isKind turn offered
  exact ⟨_, n, takes_touchSession box waits .., row.trans (if_neg (Nat.not_le.mpr short))⟩

end

/-! ### Its answer -/

/-- A state that differs from another by an answer to the request of a mailbox (R404, R406). -/
structure Replied (u t : State) (p : DPath) (i : Nat) (r : List Byte) (x : DResp) : Prop where
  steward : t.steward die0 = answeredBy (u.steward die0) p i r x
  net : t.net = u.net
  die : t.die = u.die

theorem replied (box : p.mailbox = some i) (waits : u.waitingReq die0 p = some r) (x : DResp) :
    Replied u (u.answerPath die0 p x) p i r x := by
  obtain ⟨m, row⟩ := answerPath_mailbox box waits x
  rw [row]
  exact ⟨steward_setSteward .., rfl, rfl⟩

namespace Replied

variable {x : DResp} (replies : Replied u t p i r x)
include replies

theorem answered : Answered t i r x := by
  rw [Answered, replies.steward, answeredBy, SMap.get_put_same]
  exact ⟨rfl, rfl⟩

theorem dict : (t.steward die0).dict = (u.steward die0).dict := by rw [replies.steward, answeredBy]

theorem sessions : (t.steward die0).sessions = (u.steward die0).sessions := by rw [replies.steward, answeredBy]

theorem journal : (t.steward die0).journal = (u.steward die0).journal := by rw [replies.steward, answeredBy]

end Replied

/-! ### Kinds and operations -/

/-- The operation of a kind of request, but for reads; and the object of a kind that has one (R404). -/
def kindOp : DKind → Option Nat
  | .read => none
  | .commit => some 3
  | .abort => some 4
  | .describe => some 5
  | .imgErase => some 0x10
  | .imgWrite => some 0x11
  | .boot => some 0x12
  | _ => some 2
def kindKey : DKind → Option Nat
  | .timeSet => some 0x2D0500
  | .timeAdj => some 0x2D0600
  | .restep => some 0x2D0700
  | .recover => some 0x101200
  | .jrnClear => some 0x2F0200
  | _ => none

theorem dOp_of_kind {n : Nat} (op : kindOp (dKind r) = some n) : dOp r = n := by
  unfold dKind at op
  split at op
  case h_1 two =>
    split at op <;> exact two.trans (Option.some.inj op)
  case h_8 => cases op
  all_goals next same => exact same.trans (Option.some.inj op)

theorem dKey_of_kind {n : Nat} (key : kindKey (dKind r) = some n) : dKey r = n := by
  unfold dKind at key
  split at key
  case h_1 =>
    split at key
    case h_6 => cases key
    all_goals next same => exact same.trans (Option.some.inj key)
  all_goals cases key

/-- The object that a request names by its key (R400). -/
theorem object_of_key {n : Nat} (key : dKey r = n) : dIndex r = n / 256 ∧ dSub r = n % 256 := by
  have small : dSub r < 256 := fieldAt_lt r 1 1
  rw [dKey, objKey] at key
  omega

/-- A read that passes its checks is an OP of 1 (R405). -/
theorem dOp_of_read (isKind : dKind r = .read) (passed : s.dictCheck die0 p r = 0) : dOp r = 1 := by
  by_contra other
  have write : dOp r ≠ 2 := by
    intro same
    simp only [dKind, same] at isKind
    split at isKind <;> cases isKind
  have rest : dOp r ≠ 3 ∧ dOp r ≠ 4 ∧ dOp r ≠ 5 ∧ dOp r ≠ 0x10 ∧ dOp r ≠ 0x11 ∧ dOp r ≠ 0x12 := by
    refine ⟨?_, ?_, ?_, ?_, ?_, ?_⟩ <;> (intro same; simp [dKind, same] at isKind)
  simp [dictCheck, other, write, rest] at passed

/-! ### Operations -/

section
variable {a : ObjAttr}

/-- An object of die 0, as the steward that has taken a request sees it. -/
theorem Takes.object (takes : Takes s t p r) : objAttr t.build.dies die0.val (dIndex r) (dSub r) = objOf s r := by
  obtain ⟨l, b, m, x, rfl⟩ := takes.only
  rfl

theorem objReadDone_same (s : State) (index sub : Nat) :
    ((s.objReadDone die0 index sub).steward die0).mailboxes = (s.steward die0).mailboxes ∧
      ((s.objReadDone die0 index sub).steward die0).dict = (s.steward die0).dict := by
  unfold objReadDone
  dsimp only
  split
  case h_3 => exact ⟨rfl, rfl⟩
  case h_5 => exact ⟨rfl, rfl⟩
  all_goals
    rw [steward_setSteward]
    exact ⟨rfl, rfl⟩

theorem dictDo_read (op : dOp r = 1) (obj : objAttr s.build.dies die0.val (dIndex r) (dSub r) = some a) : s.dictDo die0 p r =
    (s.objReadDone die0 (dIndex r) (dSub r)).answerPath die0 p { result := 0, value := s.objNow die0 (dIndex r) (dSub r) } := by
  unfold dictDo
  simp only [op, obj]

theorem dictDo_write (op : dOp r = 2) (obj : objAttr s.build.dies die0.val (dIndex r) (dSub r) = some a) :
    s.dictDo die0 p r = s.dictWriteObj die0 p r a := by
  unfold dictDo
  simp only [op, obj]

theorem dictDo_describe (op : dOp r = 5) (obj : objAttr s.build.dies die0.val (dIndex r) (dSub r) = some a) :
    ∃ n, s.dictDo die0 p r = s.answerPath die0 p { result := 0, info := n, value := s.objDflt die0 (dIndex r) (dSub r) a } := by
  unfold dictDo
  simp only [op, obj]
  exact ⟨_, rfl⟩

theorem dictDo_commit (op : dOp r = 3) : s.dictDo die0 p r = s.dictCommitGroup die0 p (dGroup r) := by
  unfold dictDo
  simp only [op]

theorem dictDo_abort (op : dOp r = 4) : s.dictDo die0 p r = (s.setSteward die0 { s.steward die0 with
    sessions := (s.steward die0).sessions.erase (dGroup r) }).answerPath die0 p { result := 0 } := by
  unfold dictDo
  simp only [op]

theorem dictDo_imgErase (op : dOp r = 0x10) : s.dictDo die0 p r = s.setSteward die0 { s.steward die0 with
    serving := some p
    journal := { (s.steward die0).journal with jobs := (s.steward die0).journal.jobs ++ [(.image p, List.range 512)] } } := by
  unfold dictDo
  simp only [op]

theorem dictDo_imgWrite (op : dOp r = 0x11) : s.dictDo die0 p r = (s.setSteward die0 { s.steward die0 with
    journal := (s.steward die0).journal.program (dOffset r) ((r.drop 16).take 16) }).answerPath die0 p { result := 0 } := by
  unfold dictDo
  simp only [op]

theorem dictDo_boot (op : dOp r = 0x12) : s.dictDo die0 p r = ((s.answerPath die0 p { result := 0 }).setSteward die0
    { (s.answerPath die0 p { result := 0 }).steward die0 with forceRom := false }).restartSteward die0 := by
  unfold dictDo
  simp only [op]

/-! ### Writes -/

/-- A write of a group's object is staged in the group's session (R407). -/
theorem dictWriteObj_staged (plain : a.type ≠ 6) (grouped : a.group ≠ 0) : ∃ (u : State) (y : Session),
    y.staged.find? (dKey r) = some (BitVec.ofNat 128 (noRsv (dIndex r) (dSub r) (dValue r))) ∧
    s.dictWriteObj die0 p r a = (u.setSteward die0 { s.steward die0 with
      sessions := (s.steward die0).sessions.put a.group y }).answerPath die0 p { result := 0 } := by
  unfold dictWriteObj
  dsimp only
  rw [if_neg plain, if_pos grouped]
  exact ⟨_, _, SMap.find?_put_same .., rfl⟩

/-- What follows the answer of a write that takes effect at once: RECOVER restarts the steward, JRN_CLEAR queues its sectors
(R398, R428). -/
def afterWrite (s : State) (kind : DKind) : State :=
  let k := s.steward die0
  match kind with
  | .recover => (s.setSteward die0 { k with forceRom := true }).restartSteward die0
  | .jrnClear => s.setSteward die0 { k with journal := { k.journal with
      gen := 0, queue := [], erased := false, jobs := [(.clear, Journal.bankSectors 0 ++ Journal.bankSectors 1)] } }
  | _ => s

theorem dictWriteObj_now (plain : a.type ≠ 6) (alone : a.group = 0) (volatile : a.persistent = false)
    (value : noRsv (dIndex r) (dSub r) (dValue r) = dValue r) : s.dictWriteObj die0 p r a =
      ((s.objWriteNow die0 (dIndex r) (dSub r) (dValue r)).answerPath die0 p { result := 0 }).afterWrite (dKind r) := by
  unfold dictWriteObj
  simp only [value, plain, alone, volatile, ne_eq, not_true_eq_false, decide_false, Bool.false_eq_true, if_false]
  rfl

theorem noRsv_unreserved {index sub : Nat} (v : Nat) (free : objRsv index sub = 0) : noRsv index sub v = v := by
  rw [noRsv, free, Nat.and_zero, Nat.sub_zero]

theorem objWriteNow_timeSet (v : Nat) : s.objWriteNow die0 0x2D05 0 v = s.setNet die0 { s.net die0 with
    stepTo := some (BitVec.ofNat 96 v), stepBy := none, stepped := true, stepEdge := (s.net die0).edges + 1 } := rfl

theorem objWriteNow_timeAdj (v : Nat) : s.objWriteNow die0 0x2D06 0 v = s.setNet die0 { s.net die0 with
    adjNext := some (BitVec.ofInt 32 (clampAdj (signed 32 v))) } := rfl

theorem objWriteNow_restep (v : Nat) : s.objWriteNow die0 0x2D07 0 v = s.setNet die0 { s.net die0 with stepped := false } := rfl

theorem objWriteNow_recover (v : Nat) : s.objWriteNow die0 0x1012 0 v = s := rfl

theorem objWriteNow_jrnClear (v : Nat) : s.objWriteNow die0 0x2F02 0 v = s := rfl

end

/-! ### Commits -/

section
variable {x : Session} {g : Nat}

/-- A session that stands when a request is taken (R407). -/
theorem Takes.session (takes : Takes s t p r) (found : (s.steward die0).sessions.find? g = some x) :
    ∃ a, (t.steward die0).sessions.find? g = some { x with at' := a } := by
  have same := takes.sets g
  rw [found, Option.map_some, Option.map_eq_some_iff] at same
  obtain ⟨y, listed, fields⟩ := same
  obtain ⟨path, staged⟩ := Prod.mk.inj fields
  refine ⟨y.at', listed.trans (congrArg some ?_)⟩
  cases x
  cases y
  simp_all

theorem Takes.commitOk (takes : Takes s t p r) (a : Nat) (role : DRole) :
    t.commitOk die0 g { x with at' := a } role = s.commitOk die0 g x role := by
  have objVal := takes.objVal
  obtain ⟨l, b, m, y, rfl⟩ := takes.only
  simp only [State.commitOk, windowCommitOk, partCommitOk, stagedVal, objVal]
  rfl

theorem Takes.entries (takes : Takes s t p r) (a : Nat) : keptObjs t g { x with at' := a } = keptObjs s g x := by
  have objVal := takes.objVal
  obtain ⟨l, b, m, y, rfl⟩ := takes.only
  simp only [keptObjs, stagedVal, objVal]
  rfl

/-- A COMMIT that passes its checks is one of the path that holds the session (R405, R407). -/
theorem path_of_commit (op : dOp r = 3) (passed : s.dictCheck die0 p r = 0) (grouped : dGroup r ≠ 0)
    (found : (s.steward die0).sessions.find? (dGroup r) = some x) : x.path = p := by
  by_contra other
  have failed (c : Prop) {_ : Decidable c} : (if c then 1 else 3) ≠ 0 := by split <;> decide
  simp [dictCheck, op, found, grouped, other] at passed
  exact failed _ passed

theorem grouped_of_kept (kept : keptObjs s g x ≠ []) : g ≠ 0 := by
  rintro rfl
  exact kept rfl

theorem grouped_of_refused {role : DRole} (refused : s.commitOk die0 g x role = false) : g ≠ 0 := by
  rintro rfl
  simp [commitOk, groupObjs] at refused

theorem dictCommitGroup_none (none' : (s.steward die0).sessions.find? g = none) :
    s.dictCommitGroup die0 p g = s.answerPath die0 p { result := 0 } := by
  unfold dictCommitGroup
  simp only [none']

theorem stewards_cuffRefill (s : State) (d : DieId) (path n : Nat) : (s.cuffRefill d path n).stewards = s.stewards := by
  unfold cuffRefill
  exact List.foldlRecOn _ _ (motive := fun u : State => u.stewards = s.stewards) rfl fun u kept q _ => by split <;> exact kept

theorem stewards_settleCuffs (s : State) : s.settleCuffs.stewards = s.stewards := by
  unfold settleCuffs
  refine List.foldlRecOn _ _ (motive := fun u : State => u.stewards = s.stewards) rfl fun u same d _ => ?_
  refine List.foldlRecOn _ _ (motive := fun u : State => u.stewards = s.stewards) same fun v kept path _ => ?_
  dsimp only
  split
  · exact kept
  · exact (stewards_cuffRefill ..).trans kept

variable (found : (s.steward die0).sessions.find? g = some x)
include found

theorem dictCommitGroup_refused (refused : s.commitOk die0 g x p.role = false) :
    s.dictCommitGroup die0 p g = s.answerPath die0 p { result := 5 } := by
  unfold dictCommitGroup
  simp only [found, refused, Bool.not_false, if_true]

/-- A set without a persistent object takes effect at once, and its session ends (R408). -/
theorem dictCommitGroup_now (agreed : s.commitOk die0 g x p.role = true) (volatile : keptObjs s g x = []) :
    ∃ u : State, u.stewards = s.stewards ∧ s.dictCommitGroup die0 p g =
      ((u.putVals die0 x.staged.entries).setSteward die0 { (u.putVals die0 x.staged.entries).steward die0 with
        sessions := ((u.putVals die0 x.staged.entries).steward die0).sessions.erase g }).answerPath die0 p { result := 0 } := by
  have empty : (keptObjs s g x).isEmpty = true := by rw [volatile, List.isEmpty_nil]
  refine ⟨if 0x10 ≤ g ∧ g ≤ 0x1F then s.settleCuffs else s, ?_, ?_⟩
  · split
    · exact stewards_settleCuffs s
    · rfl
  · unfold dictCommitGroup
    simp only [found, agreed, Bool.not_true, Bool.false_eq_true, if_false]
    exact if_pos empty

/-- The record of a set with a persistent one is queued first (R408). -/
theorem dictCommitGroup_later (agreed : s.commitOk die0 g x p.role = true) (kept : keptObjs s g x ≠ []) :
    s.dictCommitGroup die0 p g =
      s.chargeRecord die0 p 1 (keptObjs s g x).flatten (.commit p x.staged.entries g false) := by
  have full : ¬(keptObjs s g x).isEmpty = true := by rwa [List.isEmpty_iff]
  unfold dictCommitGroup
  simp only [found, agreed, Bool.not_true, Bool.false_eq_true, if_false]
  split
  · next empty => exact absurd empty full
  · exact congrArg (fun l => s.chargeRecord die0 p 1 (List.flatten l) (.commit p x.staged.entries g false))
      (show _ = keptObjs s g x from rfl)

end

section
variable {rec : Nat} {payload : List Byte} {after : JrnAfter}

/-- A steward with a path's request in service, and the tokens of its journal as they then are (R422). -/
def inService (k : Steward) (p : DPath) (n m : Nat) : Steward :=
  { k with serving := some p, journal := { k.journal with tokens := n, tokensAt := m } }

/-- The steward with a record queued besides (R420). -/
def inQueue (k : Steward) (r : JrnRec) : Steward := { k with journal := { k.journal with queue := k.journal.queue ++ [r] } }

theorem journal_setSteward (s : State) (v : Steward) : (s.setSteward die0 v).journal die0 rec payload after =
    s.setSteward die0 (inQueue v { kind := rec, payload := payload, after := after }) := by
  rw [State.journal, steward_setSteward, setSteward_setSteward, inQueue]

/-- A record that the journal takes is queued, and the path's request stays in service (R422, R423). -/
theorem chargeRecord_queues (writable : (s.steward die0).journal.readOnly = false)
    (usable : (s.steward die0).journal.unusable = false)
    (budget : 100000000 ≤ (s.steward die0).journal.budget (s.die die0).ticks) : ∃ n m,
    s.chargeRecord die0 p rec payload after = s.setSteward die0
      (inQueue (inService (s.steward die0) p n m) { kind := rec, payload := payload, after := after }) := by
  have open' : ¬((s.steward die0).journal.readOnly = true ∨ (s.steward die0).journal.unusable = true ∨
      (s.steward die0).journal.budget (s.die die0).ticks < 100000000) := by
    rw [writable, usable]
    exact not_or.mpr ⟨Bool.false_ne_true, not_or.mpr ⟨Bool.false_ne_true, Nat.not_lt.mpr budget⟩⟩
  exact ⟨_, _, (if_neg open').trans (journal_setSteward ..)⟩

end

/-- Committed values are in the dictionary store, and nowhere else in the steward (R403). -/
theorem steward_putVals (l : List (Nat × BitVec 128)) (s : State) : (s.putVals die0 l).steward die0 =
    { s.steward die0 with dict := l.foldl (fun m e => m.put e.1 e.2) (s.steward die0).dict } := by
  induction l generalizing s with
  | nil => rfl
  | cons e l ih =>
    rw [putVals, ih]
    have put (c : Prop) {_ : Decidable c} (u : State) (i : Nat) (v : Monitor) :
        (if c then u.setMonitor die0 i v else u).steward die0 = u.steward die0 := by
      split <;> rfl
    rw [put, steward_setSteward]
    rfl

/-- The values of a commit take effect with its record, its session ends, and its path is answered (R403, R408). -/
theorem recWritten_commit {vals : List (Nat × BitVec 128)} {g : Nat} (rsvd : Bool) (seq : W64) (grouped : g ≠ 0) :
    ∃ u : State, u.steward die0 = { s.steward die0 with
        dict := vals.foldl (fun m e => m.put e.1 e.2) (s.steward die0).dict
        sessions := (s.steward die0).sessions.erase g } ∧
      s.recWritten die0 seq (.commit p vals g rsvd) = u.answerPath die0 p { result := 0, info := seq.toNat } := by
  have noted (u : State) : (if rsvd then u.setDie die0 { u.die die0 with rsvdWrite := true } else u).steward die0 =
      u.steward die0 := by
    split <;> rfl
  unfold recWritten
  dsimp only
  rw [if_neg grouped]
  refine ⟨_, ?_, rfl⟩
  rw [steward_setSteward, noted, steward_putVals]

/-! ### Requests that pass their checks -/

theorem Serves.takes (serves : Serves s p i kind r) : ∃ t, Takes s t p r ∧ s.serve die0 p kind = t.dictDo die0 p r := by
  obtain ⟨t, takes, done, -⟩ :=
    serve_token serves.box serves.waits serves.open' serves.isKind serves.turn serves.offered serves.token
  exact ⟨t, takes, done serves.checks⟩

/-- A write that takes effect at once, of an object without reserved bits. -/
theorem Serves.writes {a : ObjAttr} {n : Nat} (serves : Serves s p i kind r) (obj : objOf s r = some a)
    (write : kindOp kind = some 2) (key : kindKey kind = some n) (plain : a.type ≠ 6) (alone : a.group = 0)
    (volatile : a.persistent = false) (free : objRsv (n / 256) (n % 256) = 0) : ∃ t, Takes s t p r ∧
      s.serve die0 p kind =
        ((t.objWriteNow die0 (n / 256) (n % 256) (dValue r)).answerPath die0 p { result := 0 }).afterWrite kind := by
  obtain ⟨t, takes, row⟩ := Serves.takes serves
  have isKind := serves.isKind
  subst isKind
  obtain ⟨index, sub⟩ := object_of_key (dKey_of_kind key)
  have value := noRsv_unreserved (index := dIndex r) (sub := dSub r) (dValue r) (by rw [index, sub, free])
  have written := dictWriteObj_now (s := t) (p := p) plain alone volatile value
  rw [index, sub] at written
  exact ⟨t, takes, (row.trans (dictDo_write (dOp_of_kind write) (takes.object.trans obj))).trans written⟩

/-- An answer outlives the restart of the steward (R399). -/
theorem Replied.restarts {x : DResp} (replies : Replied u t p i r x) (ready : (u.die die0).stage = .ready) (forced : Bool) :
    let v := (t.setSteward die0 { t.steward die0 with forceRom := forced }).restartSteward die0
    Answered v i r x ∧ (v.steward die0).forceRom = forced ∧ (v.steward die0).mode = .checking ∧ (v.die die0).stage = .ready := by
  have ready' (w : Steward) : ((t.setSteward die0 w).die die0).stage = .ready := by
    rw [← ready, ← replies.die]
    rfl
  dsimp only
  rw [restartSteward_ready (ready' _), setSteward_setSteward, Answered, steward_setSteward, steward_setSteward, replies.steward]
  refine ⟨?_, rfl, rfl, ready' _⟩
  rw [restarting, answeredBy, SMap.get, SMap.find?_mapVals, SMap.find?_put_same]
  exact ⟨rfl, rfl⟩

/-- JRN_CLEAR queues its sectors after its answer (R428). -/
theorem Replied.clears {x : DResp} (replies : Replied u t p i r x) : Answered (t.afterWrite .jrnClear) i r x ∧
    ((t.afterWrite .jrnClear).steward die0).journal.jobs = [(.clear, Journal.bankSectors 0 ++ Journal.bankSectors 1)] ∧
    ((t.afterWrite .jrnClear).steward die0).journal.queue = [] := by
  have answered := replies.answered
  rw [Answered] at answered ⊢
  rw [afterWrite, steward_setSteward]
  exact ⟨answered, rfl, rfl⟩

end State

/-- Settles O56: a request that a mailbox has waiting is taken with its session kept; its operation writes the steward or the
network time once and answers, and the answer leaves all but the mailbox alone. -/
theorem dictionaryRequestsAreServed : Obligations.DictionaryRequestsAreServed := by
  unfold Obligations.DictionaryRequestsAreServed
  refine ⟨⟨?now, ?later, ?written, ?refused⟩, ?read, ?describe, ?write, ?alone, ?abort, ?timeSet, ?timeAdj, ?restep, ?recover,
    ?boot, ?imgErase, ?imgWrite, ?jrnClear, ?failed, ?short⟩
  case now =>
    intro s p i r x serves found agreed volatile
    have isKind := serves.isKind
    obtain ⟨t, takes, row⟩ := State.Serves.takes serves
    obtain ⟨a, listed⟩ := takes.session found
    obtain ⟨u, stewards, commits⟩ := State.dictCommitGroup_now (p := p) listed ((takes.commitOk a p.role).trans agreed)
      ((takes.entries a).trans volatile)
    have steward : u.steward State.die0 = t.steward State.die0 := congrArg (fun m : SMap Steward => m.get {} 0) stewards
    rw [State.steward_putVals, steward] at commits
    have replies := State.replied (u := (u.putVals State.die0 x.staged.entries).setSteward State.die0 { t.steward State.die0 with
      dict := x.staged.entries.foldl (fun m e => m.put e.1 e.2) (t.steward State.die0).dict
      sessions := (t.steward State.die0).sessions.erase (dGroup r) }) serves.box
      ((State.waitingReq_congr (s := t) serves.box (by rw [State.steward_setSteward])).trans takes.waits) { result := 0 }
    refine ⟨_, (onDie_next serves.die _).trans (congrArg _ (row.trans ((State.dictDo_commit (State.dOp_of_kind
      (by rw [isKind]; rfl))).trans commits))), replies.answered, ?_, ?_, ?_⟩
    · rw [replies.sessions, State.steward_setSteward]
      exact SMap.find?_erase_same ..
    · rw [replies.dict, State.steward_setSteward, takes.dict]
    · rw [replies.journal, State.steward_setSteward, takes.journal]
  case later =>
    intro s p i r x serves found agreed kept writable usable budget
    have op : dOp r = 3 := State.dOp_of_kind (by rw [serves.isKind]; rfl)
    have own := State.path_of_commit op serves.checks (State.grouped_of_kept kept) found
    obtain ⟨t, takes, row⟩ := State.Serves.takes serves
    have group : s.reqGroup State.die0 r = dGroup r := if_pos (.inl op)
    have listed := takes.kept x (by rw [group]; exact found) own
    rw [group] at listed
    have commits := State.dictCommitGroup_later (p := p) listed ((takes.commitOk _ p.role).trans agreed)
      (by rw [takes.entries]; exact kept)
    rw [takes.entries] at commits
    obtain ⟨n, m, queues⟩ := State.chargeRecord_queues (s := t) (p := p) (rec := 1) (payload := (keptObjs s (dGroup r) x).flatten)
      (after := .commit p x.staged.entries (dGroup r) false) (by rw [takes.journal]; exact writable)
      (by rw [takes.journal]; exact usable) (by rw [takes.journal, takes.die]; exact budget)
    refine ⟨_, (onDie_next serves.die _).trans (congrArg _ (row.trans ((State.dictDo_commit op).trans (commits.trans queues)))), ?_⟩
    rw [State.steward_setSteward, State.inQueue, State.inService]
    refine ⟨rfl, ?_, listed, takes.dict⟩
    rw [takes.journal]
  case written =>
    intro s d rec p vals g i rsvd r bs here next after grouped root box waits carori replayed valid writable usable bytes fits
    subst root
    have row := State.recordWrite_good next carori replayed valid writable usable bytes fits
    rw [after] at row
    obtain ⟨u, steward, answers⟩ := State.recWritten_commit (s := s.setSteward State.die0 { s.steward State.die0 with
      journal := s.recorded State.die0 rec bs }) (p := p) (vals := vals) rsvd (s.steward State.die0).journal.next grouped
    rw [State.steward_setSteward] at steward
    have replies := State.replied (u := u) box ((State.waitingReq_congr (s := s) box (by rw [steward])).trans waits)
      { result := 0, info := (s.steward State.die0).journal.next.toNat }
    refine ⟨_, (onDie_next here _).trans (congrArg _ (row.trans answers)), replies.answered, ?_, ?_⟩
    · rw [replies.sessions, steward]
      exact SMap.find?_erase_same ..
    · rw [replies.dict, steward]
  case refused =>
    intro s p i r x serves found refused
    have op : dOp r = 3 := State.dOp_of_kind (by rw [serves.isKind]; rfl)
    have own := State.path_of_commit op serves.checks (State.grouped_of_refused refused) found
    obtain ⟨t, takes, row⟩ := State.Serves.takes serves
    have group : s.reqGroup State.die0 r = dGroup r := if_pos (.inl op)
    have listed := takes.kept x (by rw [group]; exact found) own
    rw [group] at listed
    have replies := State.replied serves.box takes.waits { result := 5 }
    refine ⟨_, (onDie_next serves.die _).trans (congrArg _ (row.trans ((State.dictDo_commit op).trans
      (State.dictCommitGroup_refused listed ((takes.commitOk _ p.role).trans refused))))), replies.answered, ?_, ?_, ?_⟩
    · rw [replies.sessions]
      exact listed
    · exact replies.dict.trans takes.dict
    · exact replies.journal.trans takes.journal
  case read =>
    intro s p i r a serves obj
    have op := State.dOp_of_read serves.isKind serves.checks
    obtain ⟨t, takes, row⟩ := State.Serves.takes serves
    obtain ⟨mailboxes, dict⟩ := State.objReadDone_same t (dIndex r) (dSub r)
    have replies := State.replied serves.box ((State.waitingReq_congr serves.box mailboxes).trans takes.waits)
      { result := 0, value := s.objNow State.die0 (dIndex r) (dSub r) }
    refine ⟨_, (onDie_next serves.die _).trans (congrArg _ (row.trans ((State.dictDo_read op (takes.object.trans obj)).trans
      (by rw [takes.objNow])))), replies.answered, (replies.dict.trans dict).trans takes.dict⟩
  case describe =>
    intro s p i r a serves obj
    have op : dOp r = 5 := State.dOp_of_kind (by rw [serves.isKind]; rfl)
    obtain ⟨t, takes, row⟩ := State.Serves.takes serves
    obtain ⟨n, describes⟩ := State.dictDo_describe (s := t) (p := p) op (takes.object.trans obj)
    rw [State.objDflt, takes.objNow] at describes
    have replies := State.replied serves.box takes.waits
      { result := 0, info := n, value := s.objDflt State.die0 (dIndex r) (dSub r) a }
    exact ⟨_, n, (onDie_next serves.die _).trans (congrArg _ (row.trans describes)), replies.answered,
      replies.dict.trans takes.dict⟩
  case write =>
    intro s p i r a serves obj plain grouped
    have op : dOp r = 2 := State.dOp_of_kind (by rw [serves.isKind]; rfl)
    obtain ⟨t, takes, row⟩ := State.Serves.takes serves
    obtain ⟨u, y, staged, writes⟩ := State.dictWriteObj_staged (s := t) (p := p) plain grouped
    have replies := State.replied (u := u.setSteward State.die0 { t.steward State.die0 with
      sessions := (t.steward State.die0).sessions.put a.group y }) serves.box
      ((State.waitingReq_congr (s := t) serves.box (by rw [State.steward_setSteward])).trans takes.waits) { result := 0 }
    refine ⟨_, y, (onDie_next serves.die _).trans (congrArg _ (row.trans ((State.dictDo_write op (takes.object.trans obj)).trans
      writes))), replies.answered, ?_, staged, ?_⟩
    · rw [replies.sessions, State.steward_setSteward]
      exact SMap.find?_put_same ..
    · rw [replies.dict, State.steward_setSteward]
      exact takes.dict
  case alone =>
    intro s p i r serves none'
    have op : dOp r = 3 := State.dOp_of_kind (by rw [serves.isKind]; rfl)
    obtain ⟨t, takes, row⟩ := State.Serves.takes serves
    have unlisted : (t.steward State.die0).sessions.find? (dGroup r) = none := by
      have same := takes.sets (dGroup r)
      rwa [none', Option.map_none, Option.map_eq_none_iff] at same
    have replies := State.replied serves.box takes.waits { result := 0 }
    exact ⟨_, (onDie_next serves.die _).trans (congrArg _ (row.trans ((State.dictDo_commit op).trans
      (State.dictCommitGroup_none unlisted)))), replies.answered, replies.dict.trans takes.dict⟩
  case abort =>
    intro s p i r serves
    have op : dOp r = 4 := State.dOp_of_kind (by rw [serves.isKind]; rfl)
    obtain ⟨t, takes, row⟩ := State.Serves.takes serves
    have replies := State.replied (u := t.setSteward State.die0 { t.steward State.die0 with
      sessions := (t.steward State.die0).sessions.erase (dGroup r) }) serves.box
      ((State.waitingReq_congr (s := t) serves.box (by rw [State.steward_setSteward])).trans takes.waits) { result := 0 }
    refine ⟨_, (onDie_next serves.die _).trans (congrArg _ (row.trans (State.dictDo_abort op))), replies.answered, ?_, ?_⟩
    · rw [replies.sessions, State.steward_setSteward]
      exact SMap.find?_erase_same ..
    · rw [replies.dict, State.steward_setSteward]
      exact takes.dict
  case timeSet =>
    intro s p i r a serves obj plain alone volatile
    obtain ⟨t, takes, row⟩ := State.Serves.writes serves obj rfl rfl plain alone volatile rfl
    have replies := State.replied (u := t.objWriteNow State.die0 0x2D05 0 (dValue r)) serves.box
      ((State.waitingReq_congr serves.box rfl).trans takes.waits) { result := 0 }
    refine ⟨_, (onDie_next serves.die _).trans (congrArg _ row), replies.answered, ?_⟩
    change ((State.answerPath _ _ _ _).net State.die0).stepTo = _ ∧ ((State.answerPath _ _ _ _).net State.die0).stepped = true
    rw [replies.net, State.objWriteNow_timeSet, State.net_setNet]
    exact ⟨rfl, rfl⟩
  case timeAdj =>
    intro s p i r a serves obj plain alone volatile
    obtain ⟨t, takes, row⟩ := State.Serves.writes serves obj rfl rfl plain alone volatile rfl
    have replies := State.replied (u := t.objWriteNow State.die0 0x2D06 0 (dValue r)) serves.box
      ((State.waitingReq_congr serves.box rfl).trans takes.waits) { result := 0 }
    refine ⟨_, (onDie_next serves.die _).trans (congrArg _ row), replies.answered, ?_⟩
    change ((State.answerPath _ _ _ _).net State.die0).adjNext = _
    rw [replies.net, State.objWriteNow_timeAdj, State.net_setNet]
  case restep =>
    intro s p i r a serves obj plain alone volatile
    obtain ⟨t, takes, row⟩ := State.Serves.writes serves obj rfl rfl plain alone volatile rfl
    have replies := State.replied (u := t.objWriteNow State.die0 0x2D07 0 (dValue r)) serves.box
      ((State.waitingReq_congr serves.box rfl).trans takes.waits) { result := 0 }
    refine ⟨_, (onDie_next serves.die _).trans (congrArg _ row), replies.answered, ?_⟩
    change ((State.answerPath _ _ _ _).net State.die0).stepped = false
    rw [replies.net, State.objWriteNow_restep, State.net_setNet]
  case recover =>
    intro s p i r a serves obj plain alone volatile ready
    obtain ⟨t, takes, row⟩ := State.Serves.writes serves obj rfl rfl plain alone volatile rfl
    have replies := State.replied serves.box takes.waits { result := 0 }
    exact ⟨_, (onDie_next serves.die _).trans (congrArg _ row), State.Replied.restarts replies (by rw [takes.die]; exact ready) true⟩
  case boot =>
    intro s p i r serves ready
    have op : dOp r = 0x12 := State.dOp_of_kind (by rw [serves.isKind]; rfl)
    obtain ⟨t, takes, row⟩ := State.Serves.takes serves
    have replies := State.replied serves.box takes.waits { result := 0 }
    obtain ⟨answered, forced, mode, -⟩ := State.Replied.restarts replies (by rw [takes.die]; exact ready) false
    exact ⟨_, (onDie_next serves.die _).trans (congrArg _ (row.trans (State.dictDo_boot op))), answered, forced, mode⟩
  case imgErase =>
    intro s p i r serves
    have op : dOp r = 0x10 := State.dOp_of_kind (by rw [serves.isKind]; rfl)
    obtain ⟨t, takes, row⟩ := State.Serves.takes serves
    refine ⟨_, (onDie_next serves.die _).trans (congrArg _ (row.trans (State.dictDo_imgErase op))), ?_⟩
    rw [State.steward_setSteward, takes.journal]
    exact ⟨rfl, rfl⟩
  case imgWrite =>
    intro s p i r serves
    have op : dOp r = 0x11 := State.dOp_of_kind (by rw [serves.isKind]; rfl)
    obtain ⟨t, takes, row⟩ := State.Serves.takes serves
    have replies := State.replied (u := t.setSteward State.die0 { t.steward State.die0 with
      journal := (t.steward State.die0).journal.program (dOffset r) ((r.drop 16).take 16) }) serves.box
      ((State.waitingReq_congr (s := t) serves.box (by rw [State.steward_setSteward])).trans takes.waits) { result := 0 }
    refine ⟨_, (onDie_next serves.die _).trans (congrArg _ (row.trans (State.dictDo_imgWrite op))), replies.answered, ?_⟩
    rw [replies.journal, State.steward_setSteward, takes.journal]
  case jrnClear =>
    intro s p i r a serves obj plain alone volatile
    obtain ⟨t, takes, row⟩ := State.Serves.writes serves obj rfl rfl plain alone volatile rfl
    have replies := State.replied serves.box takes.waits { result := 0 }
    refine ⟨_, (onDie_next serves.die _).trans (congrArg _ row), State.Replied.clears replies⟩
  case failed =>
    intro s p i n r here box waits open' isKind turn offered token check failed
    subst check
    obtain ⟨t, takes, -, row⟩ := State.serve_token box waits open' isKind turn offered token
    have replies := State.replied box takes.waits { result := s.dictCheck State.die0 p r }
    refine ⟨_, (onDie_next here _).trans (congrArg _ (row failed)), replies.answered, replies.dict.trans takes.dict, fun g => ?_⟩
    rw [replies.sessions]
    exact takes.sets g
  case short =>
    intro s p i r here box waits open' isKind turn offered short
    obtain ⟨t, n, takes, row⟩ := State.serve_short box waits open' isKind turn offered short
    have replies := State.replied box takes.waits { result := 4, retry := n }
    refine ⟨_, n, (onDie_next here _).trans (congrArg _ row), replies.answered, fun g => ?_, ?_⟩
    · rw [replies.sessions]
      exact takes.sets g
    · rw [replies.steward, State.answeredBy, takes.rateRefused]
      rfl

end Sys2Proof.Machine
end

section
/-!
SUPPORT. What the service of requests, queues and launches leaves alone: what start-up has decided of the dies, the arrays recorded
as failed, and the arrays in service (R11, R245, R247, R251, R274, R353, R362, R402, R481).
-/
namespace Sys2Proof.Machine

/-- What start-up has decided of a die: its stage, whether its self-test has ended, whether it waits for a plan, and its number. -/
def Die.decided (k : Die) : Stage × Bool × Bool × Nat := (k.stage, k.selftested, k.awaitPlan, k.number)

/-- Which arrays of a core are enabled. -/
def Core.inService (k : Core) (i : Nat) : Bool := (k.arrs.get {} i).enabled

/-- Start-up has decided the same of the dies, and the same arrays are recorded as failed, and in service. -/
structure Stays (s t : State) : Prop where
  die : ∀ d, (t.die d).decided = (s.die d).decided
  failed : ∀ d, (t.steward d).failedArrays = (s.steward d).failedArrays
  service : ∀ c, (t.core c).inService = (s.core c).inService

theorem StillDies.decided {s t : State} (h : StillDies s t) (d : DieId) : (t.die d).decided = (s.die d).decided :=
  (congrArg Die.decided (h.same d) :)

theorem Carries.stays {s t : State} (h : Carries s t) : Stays s t :=
  ⟨h.stillDies.decided, h.failed, fun c => congrArg (fun m : SMap Core => (m.get {} c.key).inService)
    ((congrArg State.cores h.other :) : t.cores = s.cores)⟩

namespace Stays

variable {s t u : State} {d : DieId}

theorem refl (s : State) : Stays s s := ⟨fun _ => rfl, fun _ => rfl, fun _ => rfl⟩

theorem trans (h : Stays s t) (h' : Stays t u) : Stays s u :=
  ⟨fun d => (h'.die d).trans (h.die d), fun d => (h'.failed d).trans (h.failed d), fun c => (h'.service c).trans (h.service c)⟩

theorem of_eq {β : Type} {p : State × β} {b : β} (e : p = (t, b)) (h : Stays s p.1) : Stays s t := by
  subst e
  exact h

theorem of_same (dies : t.dies = s.dies) (stewards : t.stewards = s.stewards) (cores : t.cores = s.cores) : Stays s t :=
  ⟨fun d => congrArg (fun m : SMap Die => (m.get {} d.val).decided) dies,
    fun d => congrArg (fun m : SMap Steward => (m.get {} d.val).failedArrays) stewards,
    fun c => congrArg (fun m : SMap Core => (m.get {} c.key).inService) cores⟩

theorem foldl {α : Type} {f : State → α → State} (k : ∀ u a, Stays u (f u a)) (l : List α) (h : Stays s t) :
    Stays s (l.foldl f t) :=
  List.foldlRecOn l f (motive := Stays s) h fun u h a _ => h.trans (k u a)

theorem foldl_fst {α β : Type} {f : State × β → α → State × β} (k : ∀ p a, Stays p.1 (f p a).1) (l : List α) (p : State × β)
    (h : Stays s p.1) : Stays s (l.foldl f p).1 :=
  List.foldlRecOn l f (motive := fun p => Stays s p.1) h fun p h a _ => h.trans (k p a)

theorem ite {c : Prop} {_ : Decidable c} (ht : Stays s t) (hu : Stays s u) : Stays s (if c then t else u) := by
  split <;> assumption

theorem setDie (d : DieId) {v : Die} (h : Stays s t) (same : v.decided = (t.die d).decided) : Stays s (t.setDie d v) := by
  refine h.trans ⟨fun e => ?_, fun _ => rfl, fun _ => rfl⟩
  by_cases here : e = d
  · rw [here, State.die_setDie, same]
  · rw [State.die_setDie_other _ _ _ _ here]

theorem setCore (c : CoreId) {v : Core} (h : Stays s t) (same : v.inService = (t.core c).inService) : Stays s (t.setCore c v) := by
  refine h.trans ⟨fun _ => rfl, fun _ => rfl, fun e => ?_⟩
  by_cases here : e = c
  · rw [here, State.core_setCore, same]
  · rw [State.core_setCore_other _ _ _ _ here]

theorem updCore (c : CoreId) {f : Core → Core} (h : Stays s t) (same : ∀ k, (f k).inService = k.inService) :
    Stays s (t.updCore c f) := setCore c h (same _)

/-- The same change of every die's record. -/
theorem mapDies (s : State) (f : Die → Die) (same : ∀ k, (f k).decided = k.decided) :
    Stays s { s with dies := s.dies.mapVals f } := by
  refine ⟨fun d => ?_, fun _ => rfl, fun _ => rfl⟩
  simp only [State.die, SMap.get, SMap.find?_mapVals]
  cases s.dies.find? d.val with
  | none => rfl
  | some k => exact same k

/-- The same changes of every die's and of every core's record. -/
theorem of_maps {f : Die → Die} {g : Core → Core} (dies : t.dies = s.dies.mapVals f) (stewards : t.stewards = s.stewards)
    (cores : t.cores = s.cores.mapVals g) (decided : ∀ k, (f k).decided = k.decided)
    (service : ∀ k, (g k).inService = k.inService) : Stays s t := by
  refine (mapDies s f decided).trans ⟨fun d => ?_, fun d => ?_, fun c => ?_⟩
  · exact congrArg (fun m : SMap Die => (m.get {} d.val).decided) dies
  · exact congrArg (fun m : SMap Steward => (m.get {} d.val).failedArrays) stewards
  · simp only [State.core, SMap.get, cores, SMap.find?_mapVals]
    cases s.cores.find? c.key with
    | none => rfl
    | some k => exact service k

/-- The same change of every core's record. -/
theorem of_cores {g : Core → Core} (dies : t.dies = s.dies) (stewards : t.stewards = s.stewards)
    (cores : t.cores = s.cores.mapVals g) (service : ∀ k, (g k).inService = k.inService) : Stays s t := by
  have mapped : Stays s { t with dies := s.dies.mapVals id } := of_maps rfl stewards cores (fun _ => rfl) service
  refine ⟨fun d => congrArg (fun m : SMap Die => (m.get {} d.val).decided) dies, mapped.failed, mapped.service⟩

/-- The same change of every array of a core. -/
theorem inService_mapArrs {k k' : Core} {f : Arr → Arr} (arrs : k'.arrs = k.arrs.mapVals f)
    (same : ∀ a, (f a).enabled = a.enabled) : k'.inService = k.inService := by
  funext i
  simp only [Core.inService, SMap.get, arrs, SMap.find?_mapVals]
  cases k.arrs.find? i with
  | none => rfl
  | some a => exact same a

/-! Translation and event records (R251, R275, R284 to R291). -/

section
variable (s d)

theorem withdraw (p : Owner → Bool) : Stays s (s.withdraw d p) := setDie d (refl s) rfl

theorem startWalk (o : Owner) (partition ctx va : Nat) (acc : Access) : Stays s (s.startWalk d o partition ctx va acc) := by
  unfold State.startWalk
  dsimp only
  split
  · exact setDie d (refl s) rfl
  · split <;> exact setDie d (refl s) rfl

theorem touch (key partition ctx va : Nat) : Stays s (s.touch d key partition ctx va) := by
  unfold State.touch
  split
  · exact refl s
  · exact setDie d (refl s) rfl

theorem faultAccess (cause : FaultCause) (range : Nat) (o : Owner) (partition ctx va : Nat) (acc : Access) :
    Stays s (s.faultAccess d cause range o partition ctx va acc) := by
  unfold State.faultAccess
  dsimp only
  split
  · exact setDie d (refl s) rfl
  · split
    · exact (Carries.postRecord ..).stays
    · exact setDie d (refl s) rfl

theorem busRead (o : Owner) (partition ctx va pa n range : Nat) (ahead : Bool) :
    Stays s (s.busRead d o partition ctx va pa n range ahead).1 := (Carries.busRead ..).stays

theorem busWrite (o : Owner) (partition ctx va pa : Nat) (bs : List Byte) (range : Nat) (ahead : Bool) :
    Stays s (s.busWrite d o partition ctx va pa bs range ahead).1 := (Carries.busAccess ..).stays

theorem busDone (o : Owner) : Stays s (s.busDone d o) := (Carries.busDone ..).stays

theorem xlateSegs (o : Owner) (partition ctx va : Nat) (acc : Access) : Stays s (s.xlateSegs d o partition ctx va acc).1 := by
  unfold State.xlateSegs
  dsimp only
  split
  next t h => exact of_eq h (busRead ..)
  next t _ h => exact of_eq h (busRead ..)
  next t blk h =>
    have read : Stays s t := of_eq h (busRead ..)
    split
    · exact read
    split
    · exact read
    split
    · exact read
    · split <;> exact read

theorem xlateNow (o : Owner) (partition ctx va : Nat) (acc : Access) : Stays s (s.xlateNow d o partition ctx va acc).1 := by
  unfold State.xlateNow
  split
  · exact refl s
  split
  · split
    · exact refl s
    · exact startWalk ..
  · split
    · exact xlateSegs ..
    · exact refl s
  · exact touch ..
  · exact refl s

theorem writeEvent (p r : Nat) (rec : EventRec) (n : Nat) : Stays s (s.writeEvent d p r rec n).1 := by
  unfold State.writeEvent
  dsimp only
  split
  · exact refl s
  split
  next t pa range h =>
    have found : Stays s t := of_eq h (xlateNow ..)
    split
    next u _ hw =>
      have written : Stays s (u.busDone d (.event n)) := (found.trans (of_eq hw (busWrite ..))).trans (busDone ..)
      split <;> exact written.trans (of_same (by rfl) (by rfl) (by rfl))
    next u _ hw => exact (found.trans (of_eq hw (busWrite ..))).trans (busDone ..)
    next u hw => exact found.trans (of_eq hw (busWrite ..))
  next t c range h => exact (of_eq h (xlateNow ..)).trans (faultAccess ..)
  next t h => exact of_eq h (xlateNow ..)
  next t _ _ h => exact (of_eq h (xlateNow ..)).trans (busDone ..)

theorem waitEvent (n p r : Nat) (rec : EventRec) : Stays s (s.waitEvent d n p r rec) :=
  setDie State.die0 (setDie d (refl s) (by rfl)) (by rfl)

theorem tryEvent (p r : Nat) (rec : EventRec) : Stays s (s.tryEvent d p r rec).1 := by
  unfold State.tryEvent
  dsimp only
  split
  · exact waitEvent ..
  split
  next t h => exact of_eq h (writeEvent ..)
  next t h => exact (of_eq h (writeEvent ..)).trans (waitEvent ..)
  next t _ _ h => exact of_eq h (writeEvent ..)

theorem logUndeliverable (p : Nat) (rec : EventRec) : Stays s (s.logUndeliverable d p rec) := by
  have log : Stays s (s.logOverflow d rec) := by
    unfold State.logOverflow
    dsimp only
    split
    · refine trans (t := s.setDie d { s.die d with ovf := (s.die d).ovf ++ [rec] }) ?_ (of_same rfl rfl rfl)
      exact setDie d (refl s) rfl
    · exact setDie d (refl s) rfl
  exact log.trans (tryEvent ..)

theorem dropEvents (p : Nat × Nat × Nat × EventRec → Bool) : Stays s (s.dropEvents d p) :=
  setDie d (withdraw ..) (by rfl)

end

/-! Table entries, the stop of a launch, and what a lost context gives up (R113, R181, R232, R240, R247, R295, R322). -/

section
variable (s)

theorem writeBytes (pa : Nat) (bs : List Byte) : Stays s (s.writeBytes pa bs) := by
  induction bs generalizing s pa with
  | nil => exact refl s
  | cons b bs ih => exact trans (of_same (by rfl) (by rfl) (by rfl)) (ih (s.writeByte pa b) (pa + 1))

theorem setCtx (n : Nat) (c : Ctx) : Stays s (s.setCtx n c) := of_same rfl rfl rfl

theorem putCtx (n : Nat) (c : Ctx) : Stays s (s.putCtx n c) := by
  unfold State.putCtx State.syncCtx
  exact (setCtx ..).trans ((writeBytes ..).trans ((writeBytes ..).trans (writeBytes ..)))

theorem putMo (h : Nat) (m : MemObj) : Stays s (s.putMo h m) := by
  unfold State.putMo State.syncMo
  exact trans (of_same (by rfl) (by rfl) (by rfl)) ((writeBytes ..).trans (writeBytes ..))

theorem syncQueue (q : QueueId) : Stays s (s.syncQueue q) := by
  unfold State.syncQueue
  exact (writeBytes ..).trans (writeBytes ..)

theorem setQueue (q : QueueId) (k : Queue) : Stays s (s.setQueue q k) := of_same rfl rfl rfl

theorem putQueue (q : QueueId) (k : Queue) : Stays s (s.putQueue q k) := by
  unfold State.putQueue
  exact (setQueue ..).trans (syncQueue ..)

theorem updQueue (q : QueueId) (f : Queue → Queue) : Stays s (s.updQueue q f) := of_same rfl rfl rfl

theorem dropRefs (d : DieId) (hs : List Nat) : Stays s (s.dropRefs d hs) := by
  fun_induction State.dropRefs s d hs with
  | case1 => exact refl _
  | case2 s h hs m ih => exact (putMo ..).trans ih

theorem unpin (tag : Nat × Nat) : Stays s (s.unpin tag) := mapDies s _ fun _ => rfl

theorem stopCore (c : CoreId) : Stays s (s.stopCore c) := by
  unfold State.stopCore
  refine trans ?_ (withdraw ..)
  refine setCore c (refl s) (inService_mapArrs (f := fun a => { a with queue := [], group := [] }) rfl fun _ => ?_)
  rfl

theorem stopPart (q : Nat) (d : DieId) : Stays s (s.stopPart q d) := by
  unfold State.stopPart State.withdrawImages
  refine trans ?_ (withdraw ..)
  exact foldl stopCore _ (refl s)

theorem stopLaunch (q : Nat) : Stays s (s.stopLaunch q) := foldl (fun u _ => (Carries.sendMsg u _ _ _).stays) _ (stopPart ..)

theorem withdrawCtx (n : Nat) : Stays s (s.withdrawCtx n) := by
  have dropped (l : List DieId) (p : Nat × Nat × Nat × EventRec → Bool) : Stays s (l.foldl (fun s d => s.dropEvents d p) s) :=
    foldl (fun u d => by exact dropEvents ..) l (refl s)
  have withdrawn (u : State) (l : List DieId) (p : Owner → Bool) : Stays u (l.foldl (fun s d => s.withdraw d p) u) :=
    foldl (fun u d => by exact withdraw ..) l (refl u)
  exact trans (trans (dropped ..) (withdrawn ..)) (of_same (by rfl) (by rfl) (by rfl))

theorem postLost (n : Nat) : Stays s (s.postLost n) := by
  unfold State.postLost
  dsimp only
  split
  · exact refl s
  split
  next t h => exact (putCtx ..).trans (of_eq h (tryEvent ..))
  next t _ h => exact ((putCtx ..).trans (of_eq h (tryEvent ..))).trans (logUndeliverable ..)

theorem lose (home : DieId) (n code cls : Nat) (rec : FaultRec) : Stays s (s.lose home n code cls rec) := by
  have noted (t : State) (info : Nat) : Stays t ((if cls = 1 then t.setCause home (lossCause code) code false else t).eventRecord
      home code info) :=
    trans (ite (Carries.setCause ..).stays (refl t)) (Carries.eventRecord ..).stays
  have dirty (t : State) : Stays t (t.dirtyStores n) := by
    unfold State.dirtyStores
    apply of_cores
    case cores => dsimp only
    all_goals intros; rfl
  unfold State.lose
  dsimp only
  split
  · exact refl s
  refine foldl stopLaunch _ (trans (trans ?_ (dirty _)) (withdrawCtx ..))
  refine ite ?_ (trans ?_ (postLost ..))
  all_goals
    refine foldl (fun u e => by exact setDie e (refl u) rfl) _ ?_
    exact ite (trans (putCtx ..) (noted ..)) (putCtx ..)

theorem eventFailed (d : DieId) (p : Nat) (rec : EventRec) (code info : Nat) : Stays s (s.eventFailed d p rec code info) :=
  ite (refl s) ((logUndeliverable ..).trans (lose ..))

theorem postEvent (d : DieId) (p r : Nat) (rec : EventRec) : Stays s (s.postEvent d p r rec) := by
  unfold State.postEvent
  split
  next t h => exact of_eq h (tryEvent ..)
  next t _ _ h => exact (of_eq h (tryEvent ..)).trans (eventFailed ..)

theorem objEvent (r : ObjReq) (p ctx queue result : Nat) (value : W64) : Stays s (s.objEvent r p ctx queue result value) := by
  refine trans ?_ (postEvent ..)
  exact of_same rfl rfl rfl

/-! The end of a launch, and the stop of a queue (R248, R266, R274, R297). -/

theorem holdCores (d : DieId) : Stays s (s.holdCores d) := by
  unfold State.holdCores
  split
  · exact refl s
  · exact setDie d (refl s) rfl

theorem endLaunch (q : Nat) (lost : Bool) : Stays s (s.endLaunch q lost) := by
  have images (u : State) (l : List DieId) : Stays u (l.foldl (fun s d => s.withdrawImages q d) u) :=
    foldl (fun v d => by unfold State.withdrawImages; exact withdraw ..) l (refl u)
  refine foldl holdCores _ ((images s s.allDies).trans ?_)
  apply of_maps
  case dies => dsimp only
  case stewards => rfl
  case cores => dsimp only
  case decided => exact fun _ => rfl
  case service =>
    intro k
    split <;> rfl

theorem stopDone (q : QueueId) : Stays s (s.stopDone q) := by
  have freed (u : State) (l : List Accepted) :
      Stays u (l.foldl (fun s a => (s.dropRefs q.die a.refs).unpin (q.key, a.pos)) u) :=
    foldl (fun u a => (dropRefs u q.die a.refs).trans (unpin ..)) l (refl u)
  have emptied (u : State) (k : Queue) (pa : Nat) :
      Stays u ((((u.setQueue q k).syncQueue q).setQueue q {}).writeBytes pa [0]) :=
    (setQueue u q k).trans ((syncQueue ..).trans ((setQueue ..).trans (writeBytes ..)))
  unfold State.stopDone
  dsimp only
  split
  · exact refl s
  have ended (k : Queue) (pa : Nat) (l : List Accepted) :=
    ((endLaunch s q.key false).trans (freed _ l)).trans (emptied _ k pa)
  split
  · exact trans (trans (setQueue ..) (endLaunch ..)) (lose ..)
  · split
    · refine trans ?_ (objEvent ..)
      exact ended ..
    · exact ended ..

theorem dropInval (q : QueueId) : Stays s (s.dropInval q) :=
  trans (mapDies s (fun k => { k with invals := k.invals.filter fun e => decide (e.1 ≠ q.key) }) fun _ => rfl)
    (of_same rfl rfl rfl)

theorem retryEvents : Stays s s.retryEvents := by
  refine foldl_fst (fun p e => ?_) _ _ (refl s)
  dsimp only
  split
  · exact refl p.1
  split
  next u h => exact setDie _ (of_eq h (writeEvent ..)) (by rfl)
  next u h => exact of_eq h (writeEvent ..)
  next u _ _ h =>
    refine trans ?_ (eventFailed ..)
    exact setDie _ (of_eq h (writeEvent ..)) (by rfl)

/-- A queue that stops gives up the accesses, event records, fences and invalidation that it had begun. -/
theorem quieted (q : QueueId) (k : Queue) (gone : Owner → Bool) (late : Nat × Nat × Nat × EventRec → Bool)
    (keep : Nat → FenceSig → Bool) : Stays s (({ ((s.setQueue q k).withdraw q.die gone).dropEvents q.die late with
      fences := (((s.setQueue q k).withdraw q.die gone).dropEvents q.die late).fences.filter keep } : State).dropInval
        q).retryEvents := by
  refine trans (trans ?_ (dropInval ..)) (retryEvents ..)
  have dropped := trans (trans (setQueue s q k) (withdraw _ q.die gone)) (dropEvents _ q.die late)
  exact dropped.trans (of_same rfl rfl rfl)

theorem beginStop (q : QueueId) : Stays s (s.beginStop q) := by
  unfold State.beginStop
  dsimp only
  split
  · exact stopDone ..
  refine trans (foldl (fun u _ => (Carries.sendMsg u _ _ _).stays) _ ?_) (stopDone ..)
  exact quieted ..

theorem stopAck (q : QueueId) (unit : Nat) : Stays s (s.stopAck q unit) := by
  unfold State.stopAck
  exact trans (updQueue ..) (stopDone ..)

/-! The commands of a ring that is walked without execution, and their signals (R245, R248, R274). -/

theorem fenceXlate (d : DieId) (n : Nat) (f : FenceSig) : Stays s (s.fenceXlate d n f).1 := by
  unfold State.fenceXlate
  dsimp only
  split
  next t _ _ h => exact (of_eq h (xlateNow ..)).trans (xlateNow ..)
  next => exact xlateNow ..

theorem fenceSend (n : Nat) : Stays s (s.fenceSend n) := by
  have told (u : State) (src dst : DieId) (f : FenceSig) :
      Stays u (({ u with fences := u.fences.put n f } : State).sendMsg src dst (.fence n)) :=
    trans (of_same (by rfl) (by rfl) (by rfl)) (Carries.sendMsg ..).stays
  have failed (u : State) (f : FenceSig) (d : DieId) :
      Stays u (({ u with fences := u.fences.put n f } : State).sendMsg d d (.fenceRes n)) :=
    trans (of_same (by rfl) (by rfl) (by rfl)) (Carries.sendMsg ..).stays
  unfold State.fenceSend
  split
  · exact refl s
  next f _ =>
  have ended (t : State) (x : Xlate) (h : s.fenceXlate (dieOf f.src) n f = (t, x)) :
      Stays s (t.busDone (dieOf f.src) (.fence n)) :=
    (of_eq h (fenceXlate ..)).trans (busDone ..)
  dsimp only
  split
  next t pa range h =>
    have found := ended t _ h
    split
    · exact (found.trans (ite (refl _) (Carries.hotCount ..).stays)).trans (told ..)
    · exact (found.trans (Carries.report ..).stays).trans (failed ..)
  next t c r h => exact (of_eq h (fenceXlate ..)).trans (faultAccess ..)
  next t h => exact of_eq h (fenceXlate ..)
  next t code info h =>
    have found := ended t _ h
    split
    · exact found.trans (failed ..)
    · exact found.trans (lose ..)

theorem walkSignal (f : FenceSig) : Stays s (s.walkSignal f).1 := by
  unfold State.walkSignal State.fenceLost
  split
  · exact trans (logUndeliverable ..) (lose ..)
  · exact trans (of_same (by rfl) (by rfl) (by rfl)) (fenceSend ..)

theorem walkSend (q : QueueId) (status : W32) (l : List (W64 × W64)) : Stays s (s.walkSend q status l).1 := by
  induction l generalizing s with
  | nil => exact refl s
  | cons x xs ih =>
    unfold State.walkSend
    dsimp only
    split
    · exact refl s
    split
    next t h => exact of_eq h (walkSignal ..)
    next t h => exact (of_eq h (walkSignal ..)).trans ((updQueue ..).trans (ih _))

theorem xlatePieces (d : DieId) (o : Owner) (p ctx : Nat) (acc : Access) (l : List (Nat × Nat)) :
    Stays s (s.xlatePieces d o p ctx acc l).1 := by
  induction l generalizing s with
  | nil => exact refl s
  | cons e es ih =>
    unfold State.xlatePieces
    split
    next t pa r h =>
      have found : Stays s t := of_eq h (xlateNow ..)
      split
      next u l hl => exact found.trans (of_eq hl (ih t))
      next u x hl => exact found.trans (of_eq hl (ih t))
    next t c r h => exact of_eq h (xlateNow ..)
    next t h => exact of_eq h (xlateNow ..)
    next t code info h =>
      have found : Stays s t := of_eq h (xlateNow ..)
      split
      · exact found
      · exact found.trans (lose ..)

theorem readVa (d : DieId) (o : Owner) (p ctx va n : Nat) (acc : Access) (ahead : Bool) :
    Stays s (s.readVa d o p ctx va n acc ahead).1 := by
  unfold State.readVa
  split
  next t x h => exact of_eq h (xlatePieces ..)
  next t l h =>
    refine foldl_fst (fun p e => ?_) l _ (of_eq h (xlatePieces ..))
    split
    · split
      next u x hr => exact of_eq hr (busRead ..)
      next u x hr => exact of_eq hr (busRead ..)
      next u hr => exact of_eq hr (busRead ..)
    · exact refl p.1

theorem walkRead (q : QueueId) (va n : Nat) : Stays s (s.walkRead q va n).1 := by
  unfold State.walkRead
  dsimp only
  split
  next t bs h => exact of_eq h (readVa ..)
  next t h => exact of_eq h (readVa ..)
  next t a h => exact of_eq h (readVa ..)
  next t c r a h =>
    have read : Stays s t := of_eq h (readVa ..)
    split
    · exact read
    · exact read.trans (faultAccess ..)

theorem walkCmd (q : QueueId) : Stays s (s.walkCmd q).1 := by
  unfold State.walkCmd
  dsimp only
  split
  · exact refl s
  split
  next t h => exact of_eq h (walkRead ..)
  next t h => exact of_eq h (walkRead ..)
  next t b h =>
    have head : Stays s t := of_eq h (walkRead ..)
    split
    · exact head
    split
    · exact head
    split
    next u hb => exact head.trans (of_eq hb (walkRead ..))
    next u hb => exact head.trans (of_eq hb (walkRead ..))
    next u b hb => exact head.trans (of_eq hb (walkRead ..))

theorem walkFree (q : QueueId) (lo hi : Nat) : Stays s (s.walkFree q lo hi) := by
  unfold State.walkFree
  refine trans ?_ (updQueue ..)
  exact foldl (fun u a => by exact (dropRefs u q.die a.refs).trans (unpin ..)) _ (refl s)

theorem walkTo (q : QueueId) (pos : Nat) : Stays s (s.walkTo q pos) := by
  unfold State.walkTo
  exact trans (busDone ..) (putQueue ..)

theorem walkBuf (q : QueueId) (bufs : List (Nat × List Byte)) (depth : Nat) (span : Nat × Nat) :
    Stays s (s.walkBuf q bufs depth span).1 := by
  induction depth generalizing s span with
  | zero => exact refl s
  | succ depth ih =>
    unfold State.walkBuf
    have read (t : State) (e : Option (Nat × List Byte)) (off n : Nat) : Stays t (match e with
        | some e => (t, WalkGet.ok ((e.2.drop off).take n))
        | none => t.walkRead q (span.1 + off) n).1 := by
      cases e
      · exact walkRead ..
      · exact refl t
    refine foldl_fst (fun p e => ?_) _ _ (refl s)
    dsimp only
    split
    next t l off =>
      split
      · exact refl t
      split
      next u h => exact of_eq h (read ..)
      next u h => exact of_eq h (read ..)
      next u b h =>
        have head : Stays t u := of_eq h (read ..)
        split
        · exact head
        split
        next v hb => exact head.trans (of_eq hb (read ..))
        next v hb => exact head.trans (of_eq hb (read ..))
        next v b hb =>
          have whole : Stays t v := head.trans (of_eq hb (read ..))
          split
          · exact whole
          split
          · split
            next w l' hw => exact whole.trans (of_eq hw (ih ..))
            next w l' hw => exact whole.trans (of_eq hw (ih ..))
          · exact whole
    next => exact refl _

theorem walkSignals (q : QueueId) (a : Accepted) : Stays s (s.walkSignals q a).1 := by
  unfold State.walkSignals
  split
  · exact refl s
  split
  · exact walkBuf ..
  · exact refl s

theorem walkRing (q : QueueId) (status : W32) (fuel : Nat) : Stays s (s.walkRing q status fuel).1 := by
  induction fuel generalizing s with
  | zero => exact refl s
  | succ fuel ih =>
    unfold State.walkRing
    dsimp only
    split
    · exact refl s
    split
    next t h => exact of_eq h (walkCmd ..)
    next t h => exact (of_eq h (walkCmd ..)).trans ((walkFree ..).trans ((updQueue ..).trans (walkTo ..)))
    next t h => exact (of_eq h (walkCmd ..)).trans (busDone ..)
    next t a h =>
      have signals : Stays s ((t.walkFree q a.pos (a.pos + 1)).walkSignals q a).1 :=
        (of_eq h (walkCmd ..)).trans ((walkFree ..).trans (walkSignals ..))
      split
      next v hv => exact signals.trans (of_eq hv (walkSend ..))
      next v hv =>
        have sent : Stays s v := signals.trans (of_eq hv (walkSend ..))
        split
        · exact sent
        · exact sent.trans ((walkTo ..).trans (ih _))

theorem destroyWalk (q : QueueId) : Stays s (s.destroyWalk q) := by
  unfold State.destroyWalk
  dsimp only
  split
  · exact refl s
  split
  next t h => exact (of_eq h (walkRing ..)).trans ((updQueue ..).trans (beginStop ..))
  next t h => exact of_eq h (walkRing ..)

/-! What a die takes up again when its compute part has left reset (R353, R362, R363, Table 15-4). -/

theorem askSlot (d : DieId) (ctx : Nat) : Stays s (s.askSlot d ctx) :=
  ite (refl s) (setDie d (refl s) rfl)

theorem ringDone (q : QueueId) : Stays s (s.ringDone q) := by
  unfold State.ringDone
  split
  · exact refl s
  · refine trans ?_ (putQueue ..)
    exact trans (dropRefs ..) (unpin ..)

theorem ranOn (d : DieId) (ctx : Nat) : Stays s (s.ranOn d ctx) := setDie d (refl s) rfl

theorem cmdDone (q : QueueId) (len : Nat) : Stays s (s.cmdDone q len) := by
  have ran (u : State) (ctx : Nat) : Stays s u → Stays s
      (if ((u.ranOn q.die ctx).queue q).act = .idle then u.ranOn q.die ctx else (u.ranOn q.die ctx).askSlot q.die ctx) :=
    fun h => ite (h.trans (ranOn ..)) ((h.trans (ranOn ..)).trans (askSlot ..))
  exact ran _ _ (ite (trans (setQueue ..) (ringDone ..)) (setQueue ..))

theorem invalAck (q : QueueId) (d : DieId) : Stays s (s.invalAck q d) := by
  unfold State.invalAck
  dsimp only
  split
  · split
    · exact setQueue ..
    have root (c : Prop) {_ : Decidable c} (m : SMap Bool) : Stays s (if c then ({ s with rootInval := m } : State) else s) :=
      ite (of_same rfl rfl rfl) (refl s)
    split
    · exact (root ..).trans ((setQueue ..).trans (stopAck ..))
    · exact (root ..).trans (cmdDone ..)
  · exact refl s

theorem resumeCompute (d : DieId) : Stays s (s.resumeCompute d) := by
  unfold State.resumeCompute
  refine foldl (fun u e => ?_) _ (foldl (fun u e => ?_) _ ?_)
  · dsimp only
    exact ite (refl u) (ite (destroyWalk ..) (ite (askSlot ..) (refl u)))
  · exact ite (invalAck ..) (Carries.sendMsg ..).stays
  · exact setDie d (refl s) rfl

end
end Stays
end Sys2Proof.Machine
end

section
/-!
SUPPORT. The faults, the synchronisation, the streams and the accesses of a core leave alone what start-up has decided, and the
arrays in service (R58, R73, R113, R117, R142 to R160, R163, R295, R322).
-/
namespace Sys2Proof.Machine
namespace Stays

variable {s t u : State} {d : DieId} {c : CoreId}

/-- Where a step gives a state, that state stays. -/
def May (s : State) (o : Option State) : Prop := ∀ t, o = some t → Stays s t

theorem may_none : May s none := fun _ h => nomatch h

theorem may_some (h : Stays s t) : May s (some t) := fun _ e => Option.some.inj e ▸ h

section
variable (s d c)

/-! Faults of a program (R113, R322). -/

theorem setCluster (k : ClusterId) (v : Cluster) : Stays s (s.setCluster k v) := of_same rfl rfl rfl

theorem setLaunch (q : Nat) (l : Launch) : Stays s (s.setLaunch q l) := of_same rfl rfl rfl

theorem draw : Stays s s.draw.2 := of_same rfl rfl rfl

theorem failLaunch (q : Nat) (rec : FaultRec) (count : W64) : Stays s (s.failLaunch q rec count) := by
  unfold State.failLaunch
  split
  · exact refl s
  dsimp only
  refine trans (trans ?_ (lose ..)) (stopLaunch ..)
  exact (setLaunch ..).trans (ite (putCtx ..) (refl _))

theorem partFault (q ldie : Nat) (rec : FaultRec) : Stays s (s.partFault d q ldie rec) := by
  unfold State.partFault
  dsimp only
  split
  · exact trans (setDie d (refl s) (by rfl)) (failLaunch ..)
  · exact trans (setDie d (refl s) (by rfl)) (Carries.sendMsg ..).stays

theorem progFault (src code addr info pc insn : Nat) : Stays s (s.progFault c src code addr info pc insn) := by
  unfold State.progFault
  dsimp only
  split
  · exact stopCore ..
  · exact (stopCore ..).trans ((stopPart ..).trans (partFault ..))

theorem seqFault (src code addr info : Nat) (w : W32) : Stays s (s.seqFault c src code addr info w) := progFault ..

theorem engFault (src code addr info : Nat) (i : EInstr) : Stays s (s.engFault c src code addr info i) := progFault ..

/-! The ends of instructions (R117, R142). -/

theorem moved : Stays s (s.moved c) := updCore c (refl s) fun _ => rfl

theorem releaseGrant : Stays s (s.releaseGrant c) := ite (setCluster ..) (refl s)

theorem noteRsvd (ones : W32) : Stays s (s.noteRsvd d ones) := ite (refl s) (setDie d (refl s) rfl)

theorem retire (i : EInstr) (f : SeqRegs → SeqRegs) : Stays s (s.retire c i f) := by
  unfold State.retire
  refine updCore c (ite (moved ..) (refl s)) fun k => ?_
  split <;> rfl

theorem syncDone (i : EInstr) (f : SeqRegs → SeqRegs) : Stays s (s.syncDone c i f) := by
  unfold State.syncDone
  refine trans ?_ (retire ..)
  exact updCore c (refl s) fun _ => rfl

theorem tellB (v : W64) : Stays s (s.tellB c v) := by
  unfold State.tellB
  split
  · exact refl s
  split
  · exact updCore _ (refl s) fun _ => rfl
  · exact refl s

theorem semResult (granted : Bool) : Stays s (s.semResult c granted) := by
  unfold State.semResult
  split
  · exact refl s
  · refine ((tellB ..).trans (ite (updCore c (refl _) ?_) (refl _))).trans (syncDone ..)
    exact fun _ => rfl

theorem unbind (n : Nat) : Stays s (s.unbind c n) := by
  unfold State.unbind
  exact setCluster ..

theorem csRead (off n : Nat) : Stays s (s.csRead c off n).1 := by
  unfold State.csRead
  dsimp only
  refine updCore c (refl s) ?_
  exact fun _ => rfl

theorem wgBind (i : EInstr) : Stays s (s.wgBind c i) := by
  unfold State.wgBind
  dsimp only
  split
  · exact engFault ..
  split
  · exact engFault ..
  split
  next u _ off h => exact (of_eq h (csRead ..)).trans (engFault ..)
  next u blk h =>
    have read : Stays s u := of_eq h (csRead ..)
    split
    · exact read.trans (engFault ..)
    split
    · exact read.trans (engFault ..)
    · refine trans (updCore c (trans (read.trans (unbind ..)) (setCluster ..)) ?_) (syncDone ..)
      exact fun _ => rfl

theorem wgRel (i : EInstr) : Stays s (s.wgRel c i) := by
  unfold State.wgRel
  dsimp only
  split
  · exact engFault ..
  · refine trans (foldl (fun u b => ?_) _ (setCluster ..)) (syncDone ..)
    split
    · exact updCore _ (refl u) fun _ => rfl
    · exact refl u

theorem alloc0 (n : Nat) : Stays s (s.alloc0 c n).1 := by
  unfold State.alloc0
  dsimp only
  split
  · exact refl s
  split
  · exact refl s
  · exact (draw s).trans (setCluster ..)

theorem free0 (a : Nat) : May s (s.free0 c a) := by
  unfold State.free0
  dsimp only
  split
  · exact may_some (refl s)
  split
  · exact may_some (setCluster ..)
  · exact may_none

theorem poolResult (value : W64) (ok : Bool) : Stays s (s.poolResult c value ok) := by
  unfold State.poolResult
  split
  · exact refl s
  split
  · exact engFault ..
  · exact (tellB ..).trans (syncDone ..)

theorem waitAway : Stays s (s.waitAway c) := ite (updCore c (releaseGrant s c) fun _ => rfl) (refl s)

theorem phaseStep (i : EInstr) : May s (s.phaseStep c i) := by
  unfold State.phaseStep
  extract_lets k target ready
  split
  · exact may_some (syncDone ..)
  split
  · exact may_none
  split
  · split
    · refine may_some (trans ?_ (syncDone ..))
      exact updCore c (refl s) fun _ => rfl
    split
    · exact may_none
    · exact may_some (updCore c (refl s) fun _ => rfl)
  · refine may_some (trans (updCore c (waitAway s c) ?_) (syncDone ..))
    exact fun _ => rfl

theorem askDie0 (m : Msg) : Stays s (s.askDie0 c m) := by
  unfold State.askDie0
  refine trans ?_ (Carries.sendMsg ..).stays
  exact updCore c (refl s) fun _ => rfl

theorem takeFromA : Stays s (s.takeFromA c) := updCore c (refl s) fun _ => rfl

theorem syncStep (i : EInstr) : May s (s.syncStep c i) := by
  have freed (u : State) (f : Core → Core) (same : ∀ k, (f k).inService = k.inService) (h : Stays s u) :
      Stays s ((u.updCore c f).syncDone c i id) := (updCore c h same).trans (syncDone ..)
  have taken (u : State) (value : W64) : Stays u ((u.takeFromA c).poolResult c value true) := (takeFromA ..).trans (poolResult ..)
  unfold State.syncStep
  extract_lets k x drained
  split
  · split
    · exact may_none
    split
    · exact may_some (engFault ..)
    · exact may_some (freed _ _ (fun _ => rfl) (unbind ..))
  · split
    · exact may_none
    · exact may_some (freed _ _ (fun _ => rfl) (refl s))
  · exact may_some (syncDone ..)
  · exact phaseStep s c i
  · split
    · exact may_none
    · exact may_some (syncDone ..)
  · split
    · exact may_none
    · refine may_some (updCore c (trans (waitAway ..) (setCluster ..)) ?_)
      exact fun _ => rfl
  · split
    · exact may_none
    · exact may_some (trans (setCluster ..) (syncDone ..))
  · split
    · exact may_none
    split
    · exact may_some (syncDone ..)
    · exact may_some (updCore c (waitAway ..) fun _ => rfl)
  case h_9 | h_10 =>
    split
    · split
      · exact may_none
      · exact may_some ((takeFromA ..).trans (semResult ..))
    split
    · exact may_none
    · exact may_some (askDie0 ..)
  · split
    · exact may_none
    split
    · split
      · exact may_none
      · exact may_some ((takeFromA ..).trans (syncDone ..))
    · exact may_some ((Carries.sendMsg ..).stays.trans ((tellB ..).trans (syncDone ..)))
  · split
    · split
      · split
        · exact may_none
        · exact may_some (taken ..)
      split
      · exact may_none
      · exact may_some (askDie0 ..)
    · exact may_some ((alloc0 ..).trans (syncDone ..))
  · split
    · exact may_none
    split
    · split
      · split
        · exact may_none
        · exact may_some (taken ..)
      split
      · exact may_none
      · exact may_some (askDie0 ..)
    split
    next t h => exact may_some ((free0 s c _ t h).trans (syncDone ..))
    next => exact may_some (engFault ..)
  · split
    · exact may_some (syncDone ..)
    · exact may_some (trans (setCluster ..) (syncDone ..))
  · split
    · exact may_none
    · exact may_some (wgBind ..)
  · split
    · exact may_some (wgRel ..)
    · exact may_none

/-! The end of a launch's core, and what a core does on its own (R58, R113, R117). -/

theorem setArr (a : ArrayId) {v : Arr} (same : v.enabled = (s.arr a).enabled) : Stays s (s.setArr a v) := by
  refine setCore a.core (refl s) (funext fun i => ?_)
  by_cases here : i = a.arr.val
  · rw [here, Core.inService, SMap.get_put_same, same]
    rfl
  · rw [Core.inService, SMap.get_put_other _ _ _ here]
    rfl

theorem enabled_onIssue (x : Arr) (now : Nat) : (x.onIssue now).enabled = x.enabled := by
  have kept : (x.unexpire now).enabled = x.enabled := by
    unfold Arr.unexpire
    split
    · split <;> rfl
    · rfl
  unfold Arr.onIssue
  dsimp only
  split
  · exact kept
  · exact kept
  · split <;> exact kept
  · exact kept

theorem groupIssue (a : ArrayId) : Stays s (s.groupIssue a) := by
  have fill (l : List EInstr) (k : Core) : (l.foldl (fun k i => k.setTokState (fTC i.word) .filling) k).inService = k.inService :=
    List.foldlRecOn l _ (motive := fun x : Core => x.inService = k.inService) rfl fun _ same _ _ => same
  unfold State.groupIssue
  dsimp only
  split
  · exact refl s
  · refine trans ?_ (updCore a.core (refl _) ?_)
    · exact setArr _ _ (enabled_onIssue ..)
    · exact fun k => fill _ k

theorem cfgStep (p : Nat) (i : EInstr) : Stays s (s.cfgStep c p i) := by
  unfold State.cfgStep
  dsimp only
  refine trans (trans (setCore c (refl s) (funext fun j => ?_)) (noteRsvd ..)) (retire ..)
  by_cases here : j = p
  · rw [here, Core.inService, SMap.get_put_same]
    rfl
  · rw [Core.inService, SMap.get_put_other _ _ _ here]
    rfl

theorem cvStep (i : EInstr) : Stays s (s.cvStep c i) := by
  unfold State.cvStep
  dsimp only
  refine trans (updCore c (refl s) ?_) (retire ..)
  exact fun _ => rfl

theorem releaseSems : Stays s (s.releaseSems c) := by
  unfold State.releaseSems
  dsimp only
  refine ite ?_ (foldl (fun u _ => (Carries.sendMsg u _ _ _).stays) _ ?_)
  all_goals exact updCore c (refl s) fun _ => rfl

theorem quietCheck : Stays s (s.quietCheck c) := by
  unfold State.quietCheck
  dsimp only
  split
  · exact refl s
  split
  · exact trans (updCore c (releaseSems ..) (by exact fun _ => rfl)) (Carries.sendMsg ..).stays
  · exact refl s

theorem pauseTimer (q : Nat) (l : Launch) : Stays s (s.pauseTimer q l) := ite (setQueue ..) (refl s)

theorem partOver (q ldie : Nat) : Stays s (s.partOver q ldie) := by
  unfold State.partOver
  split
  · exact refl s
  · exact setLaunch ..

theorem coreEnded : Stays s (s.coreEnded c) := by
  unfold State.coreEnded
  dsimp only
  split
  · exact refl s
  split
  · exact refl s
  have left (u : State) (q : Nat) (l : Launch) (f : Core → Core) (same : ∀ k, (f k).inService = k.inService) : Stays u
      (((u.setLaunch q l).releaseGrant c).updCore c f) :=
    updCore c (trans (setLaunch ..) (releaseGrant ..)) same
  have freed (u : State) (parts : List PartEntry) (x : Nat) :
      Stays u ((u.setDie c.die { u.die c.die with parts := parts }).ranOn c.die x) :=
    trans (setDie c.die (refl u) (by rfl)) (ranOn ..)
  split
  · split
    · refine trans (trans (trans (trans (left _ _ _ _ ?_) (pauseTimer ..)) (holdCores ..)) (freed ..)) (partOver ..)
      exact fun _ => rfl
    · refine trans (trans (trans (trans (left _ _ _ _ ?_) (pauseTimer ..)) (holdCores ..)) (freed ..)) (Carries.sendMsg ..).stays
      exact fun _ => rfl
  · refine trans (trans (left _ _ _ _ ?_) (pauseTimer ..)) (holdCores ..)
    exact fun _ => rfl

theorem reachPoint : Stays s (s.reachPoint c) := by
  unfold State.reachPoint
  dsimp only
  split
  · exact updCore c (refl s) fun _ => rfl
  · refine trans ?_ (setLaunch ..)
    exact updCore c (refl s) fun _ => rfl

theorem pairGate {go : State → Option State} (h : ∀ u, May u (go u)) : May s (s.pairGate c go) := by
  unfold State.pairGate
  dsimp only
  split
  · split
    · exact may_none
    · exact may_some (reachPoint ..)
  · exact h s

theorem advance : Stays s (s.advance c) := updCore c (moved ..) fun _ => rfl

theorem stallStep : May s (s.stallStep c) := by
  unfold State.stallStep
  dsimp only
  split
  · split
    · exact may_some (advance ..)
    · exact may_none
  · split
    · exact may_none
    refine pairGate s c fun u => ?_
    split
    · split
      · exact may_none
      · exact may_some (updCore c (refl u) fun _ => rfl)
    · refine may_some (trans (updCore c (refl u) ?_) (advance ..))
      exact fun _ => rfl
  · split
    · exact may_none
    refine pairGate s c fun u => ?_
    split
    · exact may_some ((seqFault ..).trans (releaseSems ..))
    · exact may_some (coreEnded ..)
  · exact may_none

theorem settleOne : May s (s.settleOne c) := by
  unfold State.settleOne
  dsimp only
  split
  · exact may_none
  split
  · split
    · exact may_some ((draw s).trans (engFault ..))
    · exact may_some (engFault ..)
  split
  · exact may_some (groupIssue ..)
  split
  · exact may_some (cfgStep ..)
  split
  · exact may_some (cvStep ..)
  split
  next t h =>
    obtain ⟨i, _, stepped⟩ := Option.bind_eq_some_iff.1 h
    exact may_some (syncStep s c i t stepped)
  next => exact stallStep s c

theorem settleN (n : Nat) : Stays s (s.settleN c n) := by
  induction n generalizing s with
  | zero => exact refl s
  | succ n ih =>
    unfold State.settleN
    split
    · exact refl s
    next t h => exact (settleOne s c t h).trans (ih t)

theorem settle : Stays s (s.settle c) := by
  unfold State.settle
  dsimp only
  split
  · exact settleN ..
  split
  · exact (settleN ..).trans (settleN ..)
  · exact settleN ..

/-! Streams (R73 to R79, R163). -/

theorem mergeInto (slot : Nat) (o : Owner) (va acc ctx : Nat) : Stays s (s.mergeInto d slot o va acc ctx) := setDie d (refl s) rfl

theorem updRun (ord : Nat) (f : StreamRun → StreamRun) : Stays s (s.updRun c ord f) := updCore c (refl s) fun _ => rfl

theorem undefCv (r : StreamRun) : Stays s (s.undefCv c r) := by
  unfold State.undefCv
  dsimp only
  split
  · exact refl s
  · refine updCore c (draw s) fun k => ?_
    split <;> rfl

theorem abortReport : Stays s (s.abortReport c) := by
  have empty (l : List Nat) (k : Core) : (l.foldl (fun k t => k.setTokState t .empty) k).inService = k.inService :=
    List.foldlRecOn l _ (motive := fun x : Core => x.inService = k.inService) rfl fun _ same _ _ => same
  unfold State.abortReport
  dsimp only
  split
  · exact refl s
  split
  · exact refl s
  split
  · exact refl s
  · refine trans (updCore c (undefCv ..) ?_) (engFault ..)
    exact fun k => empty _ k

theorem streamAbort (x : StreamRun) (code addr info : Nat) : Stays s (s.streamAbort c x code addr info) := by
  unfold State.streamAbort
  dsimp only
  split
  · exact refl s
  · refine trans ?_ (abortReport ..)
    exact setCore c (refl s) rfl

theorem pumpRun (ord : Nat) (write noLocal noRemote : Bool) (noRoute : List Nat) (l : List (Nat × Nat)) :
    Stays s (s.pumpRun c ord write noLocal noRemote noRoute l) := by
  induction l generalizing s noLocal noRemote noRoute with
  | nil => exact refl s
  | cons e es ih =>
    unfold State.pumpRun
    dsimp only
    split
    · exact refl s
    split
    · exact refl s
    split
    · split
      · exact (updRun ..).trans (mergeInto ..)
      · exact (updRun ..).trans (startWalk ..)
    · exact (updRun ..).trans (faultAccess ..)
    · exact refl s
    · split
      · exact ih ..
      split
      · exact ih ..
      have sent (t : State) (x : SendRes) (va : Nat) (r : Req)
          (h : (s.touch c.die (c.key * 2) (s.corePartition c) (s.coreCtx c) va).sendReq c.die r = (t, x)) : Stays s t := (touch ..).trans (of_eq h (Carries.sendReq ..).stays)
      split
      next t h => exact (sent t _ _ _ h).trans ((updRun ..).trans (ih ..))
      next t h => exact (sent t _ _ _ h).trans (ih ..)
      next t h => exact (sent t _ _ _ h).trans (streamAbort ..)

theorem pumpStream : Stays s (s.pumpStream c) := by
  refine foldl (fun u r => ?_) _ (refl s)
  split
  · exact refl u
  · exact pumpRun ..

theorem pumpQueue (q : Nat) : Stays s (s.pumpQueue d q) := foldl pumpStream _ (refl s)

theorem streamData (ord tile pass va : Nat) (bs : List Byte) : Stays s (s.streamData c ord tile pass va bs) := by
  unfold State.streamData
  dsimp only
  split
  · exact abortReport ..
  split
  · exact updRun ..
  split
  · split
    · exact (updRun ..).trans (streamAbort ..)
    · exact updRun ..
  · exact updRun ..

theorem answerStream (ord : Nat) (r : Req) (a : Answer) : Stays s (s.answerStream c ord r a) := by
  unfold State.answerStream
  dsimp only
  split
  · exact abortReport ..
  split
  · exact abortReport ..
  split
  · exact streamAbort ..
  · exact (streamData ..).trans (pumpQueue ..)
  · exact (updRun ..).trans (pumpQueue ..)

/-! Loads and stores of a sequencer (R102, R172). -/

theorem seqAccess : Stays s (s.seqAccess c) := by
  unfold State.seqAccess
  extract_lets k p x key go
  have made (o : Owner) (va : Nat) (acc : Access) (data : List Byte) {sent : State → State} (h : ∀ u, Stays u (sent u)) :
      Stays s (go o va acc data sent) := by
    dsimp only [go]
    split
    · split
      · exact mergeInto ..
      · exact startWalk ..
    · exact faultAccess ..
    · exact refl s
    split
    · exact refl s
    split
    next t e => exact ((touch ..).trans (of_eq e (Carries.sendReq ..).stays)).trans (h t)
    next => exact refl s
    next t e => exact ((touch ..).trans (of_eq e (Carries.sendReq ..).stays)).trans (seqFault ..)
  split
  · exact made _ _ _ _ fun u => moved u c
  · refine made _ _ _ _ fun u => trans (updCore c (refl u) ?_) (advance ..)
    exact fun _ => rfl
  · exact refl s

theorem pumpSeq : Stays s (s.pumpSeq c) := by
  unfold State.pumpSeq
  dsimp only
  split
  · exact ite (refl s) (seqAccess ..)
  · exact ite (refl s) (seqAccess ..)
  · exact refl s

theorem answerStore (num : Nat) (r : Req) (a : Answer) : Stays s (s.answerStore c num r a) := by
  have taken (u : State) (f : Core → Core) (same : ∀ k, (f k).inService = k.inService) : Stays u ((u.moved c).updCore c f) :=
    updCore c (moved ..) same
  unfold State.answerStore
  dsimp only
  split
  · exact refl s
  split
  · refine trans (taken _ _ ?_) (progFault ..)
    exact fun _ => rfl
  · refine trans (trans (taken _ _ ?_) (settle ..)) (pumpSeq ..)
    exact fun _ => rfl

end
end Stays
end Sys2Proof.Machine
end

section
/-!
SUPPORT. Requests for objects, losses, and the answers to requests leave alone what start-up has decided, and the arrays in service
(R233, R236, R240 to R250, R295, R320, R358, R455).
-/
namespace Sys2Proof.Machine
namespace Stays

variable (s : State) (d : DieId)

/-! The loss of a context (R245, R295). -/

theorem walkLost (q : QueueId) : Stays s (s.walkLost q).1 := by
  unfold State.walkLost
  extract_lets k same t
  have set : Stays s t := setQueue ..
  split
  · exact set
  · exact set.trans (walkRing ..)

theorem walkAll (l : List QueueId) : Stays s (s.walkAll l).1 := by
  induction l generalizing s with
  | nil => exact refl s
  | cons q l ih =>
    unfold State.walkAll
    split
    next t h => exact (of_eq h (walkLost ..)).trans (ih t)
    next t h => exact of_eq h (walkLost ..)

theorem lossStep (n : Nat) : Stays s (s.lossStep n) := by
  have ended (u : State) (l : List Nat) : Stays u (l.foldl (fun s q => s.endLaunch q true) u) :=
    foldl (fun v q => endLaunch v q true) l (refl u)
  have stopped (u : State) (l : List QueueId) : Stays u (l.foldl (fun s q =>
      if (s.queue q).stopping.isSome then (s.updQueue q fun k => { k with stopWait := [] }).stopDone q else s) u) :=
    foldl (fun v q => ite ((updQueue ..).trans (stopDone ..)) (refl v)) l (refl u)
  unfold State.lossStep
  split
  · exact refl s
  extract_lets t u
  have posted : Stays s u := (retryEvents s).trans (ite (refl t) (postLost t n))
  dsimp only
  split
  · exact posted
  split
  next t h => exact (posted.trans (ended ..)).trans (of_eq h (walkAll ..))
  next t h =>
    refine foldl (fun u r => objEvent u r _ _ _ _ _) _ ?_
    exact (((posted.trans (ended ..)).trans (of_eq h (walkAll ..))).trans (stopped ..)).trans (setCtx ..)

/-! The requests for objects (R236, R240 to R250). -/

theorem objEnd (r : ObjReq) (p ctx queue result : Nat) (v : W64) : Stays s (s.objEnd r p ctx queue result v) := objEvent ..

theorem dropSlot (ctx : Nat) : Stays s (s.dropSlot d ctx) := by
  unfold State.dropSlot
  dsimp only
  split
  · exact trans (setDie d (refl s) (by rfl)) (putCtx ..)
  · exact setDie d (refl s) rfl

theorem ctxCreate (r : ObjReq) : Stays s (s.ctxCreate r) := by
  unfold State.ctxCreate
  refine ite (objEvent ..) (ite (objEnd ..) (ite (objEnd ..) (ite (objEnd ..) ?_)))
  exact (putCtx ..).trans (objEnd ..)

theorem ctxAbort (r : ObjReq) : Stays s (s.ctxAbort r) := by
  unfold State.ctxAbort
  exact ite (objEvent ..) (ite (objEnd ..) (ite (objEnd ..) (ite (objEnd ..) (lose ..))))

theorem ctxDestroy (r : ObjReq) : Stays s (s.ctxDestroy r) := by
  have dropped (n : Nat) : Stays s (s.allDies.foldl (fun s d => s.dropSlot d n) s) := foldl (fun u d => dropSlot u d n) _ (refl s)
  unfold State.ctxDestroy
  dsimp only
  split
  · exact objEvent ..
  split
  · exact objEnd ..
  split
  · exact objEnd ..
  refine trans (trans (trans (dropped r.index) ?_) (putCtx ..)) (objEnd ..)
  apply of_maps
  case dies => dsimp only
  case stewards => rfl
  case cores => dsimp only
  case decided => exact fun _ => rfl
  case service =>
    intro k
    split
    · rfl
    · split <;> rfl

theorem qCreate (r : ObjReq) : Stays s (s.qCreate r) := by
  unfold State.qCreate
  refine ite (objEvent ..) (ite (objEnd ..) (ite (objEnd ..) (ite (objEnd ..) ?_)))
  exact (putQueue ..).trans (objEnd ..)

theorem qDestroy (r : ObjReq) : Stays s (s.qDestroy r) := by
  unfold State.qDestroy
  refine ite (objEvent ..) (ite (objEnd ..) (ite (objEnd ..) (ite (objEnd ..) ?_)))
  exact (withdraw ..).trans ((putQueue ..).trans (destroyWalk ..))

theorem moRegister (r : ObjReq) : Stays s (s.moRegister r) := by
  unfold State.moRegister
  refine ite (objEvent ..) (ite (objEnd ..) (ite (objEnd ..) ?_))
  exact (putMo ..).trans (objEnd ..)

theorem moRetire (h : Nat) : Stays s (s.moRetire h) := by
  unfold State.moRetire
  dsimp only
  split
  · exact refl s
  split
  · exact (putMo ..).trans (objEnd ..)
  · exact putMo ..

theorem moDestroy (r : ObjReq) : Stays s (s.moDestroy r) := by
  unfold State.moDestroy
  exact ite (objEvent ..) (ite (objEnd ..) (ite (objEnd ..) ((putMo ..).trans (moRetire ..))))

theorem setSema (n : Nat) (v : Sema) : Stays s (s.setSema n v) := of_same rfl rfl rfl

theorem semCreate (r : ObjReq) : Stays s (s.semCreate r) := by
  unfold State.semCreate
  dsimp only
  split
  · exact objEnd ..
  split
  · exact objEnd ..
  · exact (setSema ..).trans (objEnd ..)

theorem semDestroy (r : ObjReq) : Stays s (s.semDestroy r) := by
  unfold State.semDestroy
  exact ite (objEnd ..) (ite (objEnd ..) ((setSema ..).trans (objEnd ..)))

theorem objRun (r : ObjReq) : Stays s (s.objRun r) := by
  unfold State.objRun
  split
  · exact ctxCreate ..
  · exact ctxAbort ..
  · exact ctxDestroy ..
  · exact qCreate ..
  · exact qDestroy ..
  · exact moRegister ..
  · exact moDestroy ..
  · exact semCreate ..
  · exact semDestroy ..
  · exact objEvent ..

theorem objLosses : Stays s s.objLosses := by
  refine foldl (fun u r => ?_) _ (refl s)
  cases u.lossOf r with
  | none => exact refl u
  | some n => exact lossStep u n

theorem objNextN (n : Nat) : Stays s (s.objNextN n) := by
  induction n generalizing s with
  | zero => exact refl s
  | succ n ih =>
    unfold State.objNextN
    dsimp only
    split
    · exact objLosses s
    · refine trans (trans (trans (objLosses s) ?_) (objRun ..)) (ih _)
      exact of_same rfl rfl rfl

theorem objNext : Stays s s.objNext := ite (objNextN ..) (refl s)

/-! Answers (R320, R358, R455). -/

theorem walkOn (q : QueueId) : Stays s (s.walkOn q) := by
  unfold State.walkOn
  exact ite ((destroyWalk ..).trans (objNext _)) (ite (ite ((lossStep ..).trans (objNext _)) (walkLost ..)) (refl s))

theorem answerBus (n : Nat) (r : Req) (a : Answer) : Stays s (s.answerBus n r a) := by
  have taken : Stays s (s.busTake r.die n a) := setDie r.die (refl s) rfl
  unfold State.answerBus
  dsimp only
  split
  · exact taken.trans (walkOn ..)
  · exact taken.trans (retryEvents _)
  · exact taken

theorem strayResponse (n : Nat) (r : Req) : Stays s (s.strayResponse n r) := by
  unfold State.strayResponse
  refine trans (t := { s with reqs := s.reqs.erase n }) (of_same rfl rfl rfl) ?_
  exact setDie r.die (refl _) rfl

theorem respond (n : Nat) (r : Req) (a : Answer) : Stays s (s.respond n r a) := by
  unfold State.respond
  split
  · exact strayResponse ..
  extract_lets t
  have erased : Stays s t := of_same rfl rfl rfl
  split
  · exact erased.trans (answerBus ..)
  split
  · exact erased.trans (answerStream ..)
  · extract_lets c
    split
    · exact erased.trans (trans (moved ..) (updCore c (refl _) fun _ => rfl))
    · exact erased.trans (seqFault ..)
    · exact erased
  · exact erased.trans (answerStore ..)
  · split
    · exact erased
    · exact erased.trans (Carries.enqueueFlit ..).stays
  · exact erased

theorem answer (n : Nat) (r : Req) (a : Answer) : Stays s (s.answer n r a) := by
  have done := respond s n r a
  unfold State.answer
  dsimp only
  split
  · exact done.trans (quietCheck ..)
  · exact done.trans (quietCheck ..)
  · exact done.trans (quietCheck ..)
  · exact done.trans (quietCheck ..)
  · refine done.trans (ite ?_ (refl _))
    exact stopAck ..
  · exact done

/-! Links (R316, R320, R462, R482). -/

theorem startTraining (l : LinkId) : Stays s (s.startTraining l) := by
  unfold State.startTraining
  exact ite (of_same rfl rfl rfl) (refl s)

theorem linkFailed (l : LinkId) : Stays s (s.linkFailed l) := by
  unfold State.linkFailed State.failLink
  dsimp only
  refine trans ?_ (Carries.report ..).stays
  refine foldl (fun u n => ?_) _ (foldl (fun u f => (Carries.freeVia u _ _).stays) _ (of_same rfl rfl rfl))
  split
  · exact answer ..
  · exact refl u

theorem enableLink (l : LinkId) : Stays s (s.enableLink l) := by
  unfold State.enableLink
  dsimp only
  split
  · exact refl s
  split
  · exact of_same rfl rfl rfl
  split
  · exact linkFailed ..
  · exact trans (of_same (by rfl) (by rfl) (by rfl)) (startTraining ..)

end Stays
end Sys2Proof.Machine
end

section
/-! SUPPORT. The release of a compute part leaves memory alone where nothing waits for it (R12, R353, R362, R402). -/
namespace Sys2Proof.Machine

/-- Memory, the queues, the invalidations that dies are due to answer, and what start-up has decided of the dies are the same. -/
structure Rests (s t : State) : Prop where
  mem : t.mem = s.mem
  queues : t.queues = s.queues
  invals : ∀ d, (t.die d).invals = (s.die d).invals
  die : ∀ d, (t.die d).decided = (s.die d).decided

theorem Carries.rests {s t : State} (h : Carries s t) : Rests s t :=
  ⟨h.mem, (congrArg State.queues h.other :), fun d => (congrArg Die.invals (h.stillDies.same d) :), h.stays.die⟩

namespace Rests

variable {s t u : State} {d : DieId}

theorem refl (s : State) : Rests s s := ⟨rfl, rfl, fun _ => rfl, fun _ => rfl⟩

theorem trans (h : Rests s t) (h' : Rests t u) : Rests s u :=
  ⟨h'.mem.trans h.mem, h'.queues.trans h.queues, fun d => (h'.invals d).trans (h.invals d), fun d => (h'.die d).trans (h.die d)⟩

theorem of_dies (mem : t.mem = s.mem) (queues : t.queues = s.queues) (dies : t.dies = s.dies) : Rests s t :=
  ⟨mem, queues, fun d => congrArg (fun m : SMap Die => (m.get {} d.val).invals) dies,
    fun d => congrArg (fun m : SMap Die => (m.get {} d.val).decided) dies⟩

theorem foldl {α : Type} {f : State → α → State} (k : ∀ u a, Rests u (f u a)) (l : List α) (h : Rests s t) :
    Rests s (l.foldl f t) :=
  List.foldlRecOn l f (motive := Rests s) h fun u h a _ => h.trans (k u a)

theorem setDie (s : State) (d : DieId) {v : Die} (invals : v.invals = (s.die d).invals)
    (decided : v.decided = (s.die d).decided) : Rests s (s.setDie d v) := by
  refine ⟨rfl, rfl, fun e => ?_, (Stays.setDie d (.refl s) decided).die⟩
  by_cases here : e = d
  · rw [here, State.die_setDie]
    exact invals
  · rw [State.die_setDie_other _ _ _ _ here]

section
variable (s d)

theorem updCore (c : CoreId) (f : Core → Core) : Rests s (s.updCore c f) := of_dies rfl rfl rfl

theorem setCluster (k : ClusterId) (v : Cluster) : Rests s (s.setCluster k v) := of_dies rfl rfl rfl

theorem setLink (l : LinkId) (v : Link) : Rests s (s.setLink l v) := of_dies rfl rfl rfl

theorem enableUnits : Rests s (s.enableUnits d) := by
  refine foldl (fun u k => ?_) _ (refl s)
  refine trans ?_ (setCluster ..)
  exact foldl (fun v c => by exact updCore ..) _ (refl u)

theorem ackReset (c : CoreId) : Rests s (s.ackReset c) := by
  unfold State.ackReset
  dsimp only
  split
  · exact refl s
  split
  · exact (updCore ..).trans (Carries.sendMsg ..).rests
  · exact refl s

theorem coresBack (u : ResetUnit) : Rests s (s.coresBack u) :=
  foldl (fun t c => (updCore ..).trans (ackReset (t.updCore c _) c)) _ (refl s)

theorem linkDown (l : LinkId) : Rests s (s.linkDown l) := by
  unfold State.linkDown State.startTraining
  dsimp only
  split
  · exact setLink ..
  split
  · exact trans (setLink ..) (setLink ..)
  · exact setLink ..

theorem linksReleased : Rests s (s.linksReleased d) := foldl linkDown _ (refl s)

theorem startAlign (periodic : Bool) : Rests s (s.startAlign d periodic) := by
  unfold State.startAlign
  dsimp only
  split
  · exact refl s
  split <;> exact setDie s d rfl rfl

theorem setRegion (r : Nat) (v : Region) : Rests s (s.setRegion d r v) := of_dies rfl rfl rfl

theorem beginStartPlan : Rests s (s.beginStartPlan d) := by
  unfold State.beginStartPlan State.startPlans
  dsimp only
  have begun (k : Steward) (f : State → Nat → Region) (l : List Nat) :
      Rests s (l.foldl (fun s r => s.setRegion d r (f s r)) (s.setSteward d k)) :=
    foldl (fun u r => setRegion u d r _) l (of_dies rfl rfl rfl)
  split
  · exact begun ..
  refine foldl (fun u r => ?_) _ (begun ..)
  split
  · exact setRegion ..
  · exact refl u

theorem released : Rests s ((((s.enableUnits d).coresBack (.die d)).linksReleased d).startAlign d false) :=
  (enableUnits ..).trans ((coresBack ..).trans ((linksReleased ..).trans (startAlign ..)))

end
end Rests

namespace State

variable {s : State} {d : DieId}

theorem mem_askSlot (s : State) (d : DieId) (ctx : Nat) : (s.askSlot d ctx).mem = s.mem := by
  unfold askSlot
  dsimp only
  split <;> rfl

/-- A die that owes no invalidation and has no queue under destruction takes up nothing that writes memory. -/
theorem mem_resumeCompute (none : (s.die d).invals = [])
    (kept : ∀ e ∈ s.queues.entries, (queueOf e.1).die = d → e.2.st ≠ .destroying) : (s.resumeCompute d).mem = s.mem := by
  unfold resumeCompute
  rw [none]
  refine List.foldlRecOn _ _ (motive := fun t : State => t.mem = s.mem) rfl fun t same e listed => ?_
  dsimp only
  split
  · exact same
  next here =>
    rw [if_neg (kept e listed (not_not.1 here))]
    split
    · exact (mem_askSlot ..).trans same
    · exact same

/-- What the release of the compute part begins with. -/
def partOut (s : State) (d : DieId) : State :=
  s.setDie d { s.die d with
    computeReset := false
    dieReset := false
    awaitPlan := true
    number := s.latchNumber d
    aligned := (s.die d).aligned || decide (d = die0)
    windowAt := (s.die d).ticks }

theorem decided_computeRelease (s : State) (d : DieId) : ((s.computeRelease d).die d).decided = ((s.partOut d).die d).decided := by
  have begun (t : State) : ((if t.caroriRuns d then t.beginStartPlan d else t).die d).decided = (t.die d).decided := by
    split
    · exact (Rests.beginStartPlan ..).die d
    · rfl
  exact (begun _).trans (((Stays.resumeCompute ..).die d).trans ((Rests.released (s.partOut d) d).die d))

theorem mem_computeRelease (none : (s.die d).invals = [])
    (kept : ∀ e ∈ s.queues.entries, (queueOf e.1).die = d → e.2.st ≠ .destroying) : (s.computeRelease d).mem = s.mem := by
  have out := Rests.released (s.partOut d) d
  have resumed := mem_resumeCompute ((out.invals d).trans ((congrArg Die.invals (die_setDie ..)).trans none))
    (fun e listed => kept e (by rw [out.queues] at listed; exact listed))
  have begun (t : State) : (if t.caroriRuns d then t.beginStartPlan d else t).mem = t.mem := by
    split
    · exact (Rests.beginStartPlan ..).mem
    · rfl
  exact (begun _).trans (resumed.trans out.mem)

/-- Where nothing holds the compute part of a die in PLAN, it leaves reset, waits for its plan, and has the strapped number. -/
theorem computePartRelease_releases (here : s.hasDie d = true) (plan : (s.die d).stage = .plan)
    (reset : (s.die d).computeReset = true) (fresh : (s.die d).awaitPlan = false) (supply : (s.die d).heldSupply = false) (ladder : (s.die d).heldLadder = false) :
    exec (.computePartRelease d) s = .next (s.computeRelease d) := by
  refine (onDie_next here _).trans (congrArg _ ?_)
  simp [planRelease, plan, reset, fresh, supply, ladder]

end State
end Sys2Proof.Machine
end

section
/-! PROOFS. The stages of start-up (O51). -/
namespace Sys2Proof.Machine

/-! ### Block reset and its release -/

theorem SMap.get_filter_key {β : Type} (m : SMap β) (p : Nat → Bool) (x : β) (k : Nat) :
    (m.filter fun a _ => p a).get x k = if p k then m.get x k else x := by
  rw [get, SMap.find?_filter_key]
  split <;> rfl

theorem coreOf_key_die (c : CoreId) : (coreOf c.key).die = c.die := by
  have place : c.key / 64 = c.die.val := by
    have := c.cl.isLt
    have := c.core.isLt
    unfold CoreId.key
    omega
  rw [coreOf, place]
  exact State.dieOf_val c.die

theorem clusterOf_key_die (k : ClusterId) : (clusterOf k.key).die = k.die := by
  have place : k.key / 16 = k.die.val := by
    have := k.cl.isLt
    unfold ClusterId.key
    omega
  rw [clusterOf, place]
  exact State.dieOf_val k.die

namespace State

variable {s : State} {d : DieId}

/-- Block reset of a die without writes under way cuts none off. -/
theorem cutWrites_none (reads : ∀ e ∈ s.reqs.entries, e.2.die = d → e.2.write = false) : s.cutWrites d = s := by
  unfold cutWrites
  rw [List.filter_eq_nil_iff.2]
  · rfl
  · intro e listed
    by_cases own : e.2.die = d
    · simp [own, reads e listed own]
    · simp [own]

/-- What block reset draws: whether bytes under way reached the flash. -/
theorem tear_draws (s : State) (d : DieId) : ∃ n, (s.tear d).1 = { s with freeNext := n } := by
  unfold tear
  dsimp only
  split
  · exact ⟨s.freeNext, rfl⟩
  split
  · exact ⟨s.freeNext, rfl⟩
  · exact ⟨_, rfl⟩

theorem cutErase_draws (s : State) (d : DieId) (j : Journal) : ∃ n, (s.cutErase d j).1 = { s with freeNext := n } := by
  unfold cutErase
  split
  · exact ⟨_, rfl⟩
  · exact ⟨s.freeNext, rfl⟩

/-- What die 0 holds for the package is erased on die 0 alone. -/
def erased (s : State) (d : DieId) (j : Journal) : State :=
  if d = die0 then (s.eraseDie d j).eraseHost else s.eraseDie d j

/-- Block reset of a die without writes under way erases the die. -/
theorem blockReset_erases (reads : ∀ e ∈ s.reqs.entries, e.2.die = d → e.2.write = false) :
    ∃ n j, s.blockReset d = ({ s with freeNext := n } : State).erased d j := by
  obtain ⟨n, torn⟩ := tear_draws s d
  obtain ⟨m, cut⟩ := cutErase_draws { s with freeNext := n } d (s.tear d).2
  refine ⟨m, (({ s with freeNext := n } : State).cutErase d (s.tear d).2).2, ?_⟩
  unfold blockReset
  dsimp only
  rw [cutWrites_none reads, torn, cut]
  rfl

/-- Where die 0's erasure leaves a part of the state alone, that part is as the erasure of the die leaves it. -/
theorem of_erased {α : Type} (part : State → α) (host : ∀ t, part t.eraseHost = part t) (s : State) (d : DieId) (j : Journal) :
    part (s.erased d j) = part (s.eraseDie d j) := by
  unfold erased
  split
  · exact host _
  · rfl

section
variable (s : State) (d : DieId) (j : Journal)

theorem die_erased : (s.erased d j).die d = {} := by
  refine (of_erased (fun t => t.die d) (fun _ => rfl) s d j).trans ?_
  show (s.dies.erase d.val).get {} d.val = {}
  rw [SMap.get, SMap.find?_erase_same]
  rfl

theorem die_erased_other {e : DieId} (other : e ≠ d) : (s.erased d j).die e = s.die e := by
  refine (of_erased (fun t => t.die e) (fun _ => rfl) s d j).trans ?_
  show (s.dies.erase d.val).get {} e.val = s.dies.get {} e.val
  rw [SMap.get, SMap.find?_erase_other _ (Fin.val_ne_of_ne other)]
  rfl

theorem net_erased : (s.erased d j).net d = {} := by
  refine (of_erased (fun t => t.net d) (fun _ => rfl) s d j).trans ?_
  show (s.nets.erase d.val).get {} d.val = {}
  rw [SMap.get, SMap.find?_erase_same]
  rfl

theorem steward_erased : (s.erased d j).steward d = { journal := j } :=
  (of_erased (fun t => t.steward d) (fun _ => rfl) s d j).trans (SMap.get_put_same ..)

theorem steward_erased_other {e : DieId} (other : e ≠ d) : (s.erased d j).steward e = s.steward e :=
  (of_erased (fun t => t.steward e) (fun _ => rfl) s d j).trans (SMap.get_put_other _ _ _ (Fin.val_ne_of_ne other))

theorem mem_erased : (s.erased d j).mem = s.mem := of_erased State.mem (fun _ => rfl) s d j

theorem core_erased (c : CoreId) (own : c.die = d) : (s.erased d j).core c = {} := by
  refine (of_erased (fun t => t.core c) (fun _ => rfl) s d j).trans ((SMap.get_filter_key ..).trans (if_neg ?_))
  rw [coreOf_key_die, own]
  simp

theorem cluster_erased (k : ClusterId) (own : k.die = d) : (s.erased d j).cluster k = {} := by
  refine (of_erased (fun t => t.cluster k) (fun _ => rfl) s d j).trans ((SMap.get_filter_key ..).trans (if_neg ?_))
  rw [clusterOf_key_die, own]
  simp

theorem link_erased (l : LinkId) (own : l.die = d) : (s.erased d j).link l = {} := by
  refine (of_erased (fun t => t.link l) (fun _ => rfl) s d j).trans ((SMap.get_filter_key ..).trans (if_neg ?_))
  have place : l.key / 4 = d.val := by
    have := l.link.isLt
    rw [← own, LinkId.key]
    omega
  simp [place]

theorem queue_erased (q : QueueId) (own : q.die = d) : (s.erased d j).queue q = {} := by
  refine (of_erased (fun t => t.queue q) (fun _ => rfl) s d j).trans ((SMap.get_filter_key ..).trans (if_neg ?_))
  simp [queueOf_key, own]

end

/-- A change of links alone, which a link that goes DOWN or trains makes. -/
theorem dies_linkDown (s : State) (l : LinkId) : (s.linkDown l).dies = s.dies := by
  unfold linkDown startTraining
  dsimp only
  split
  · rfl
  · split <;> rfl

/-- The release of block reset begins BOOT on the die as it stands, and latches the straps (R463, R476). -/
theorem die_blockRelease (held : (s.die d).stage = .held) : ∃ use rate mac n, (s.blockRelease d).die d = { s.die d with
    aligned := decide (d = die0), linkUse := use, linkRate := rate, macMode := mac
    stage := .boot, stageAt := (s.die d).ticks, entered := n } := by
  have down (t : State) : (((dieLinks d).foldl linkDown t).die d) = t.die d :=
    congrArg (fun m : SMap Die => m.get {} d.val) (List.foldlRecOn (dieLinks d) linkDown
      (motive := fun u : State => u.dies = t.dies) rfl fun u same l _ => (dies_linkDown u l).trans same)
  unfold blockRelease
  rw [if_pos held]
  dsimp only [enterStage]
  rw [die_setDie, down, die_setDie]
  exact ⟨_, _, _, _, rfl⟩

end State
/-! ### The verdicts of the self-test -/

namespace Stays

variable (s : State) (d : DieId)

theorem startFault (code : Nat) (stop : Bool) : Stays s (s.startFault d code stop) := by
  unfold State.startFault
  dsimp only
  split
  · exact refl s
  · exact setDie d (refl s) rfl

theorem loseEmpty : Stays s (s.loseEmpty d) := by
  refine foldl (fun u k => ?_) _ (refl s)
  have cores : Stays u ((u.clusterCores k).foldl (fun s c =>
      if (List.range s.build.arrays).any fun i => ((s.core c).arrs.get {} i).enabled then s
      else s.updCore c fun x => { x with enabled := false }) u) := by
    refine foldl (fun v c => ite (refl v) ?_) _ (refl u)
    exact updCore c (refl v) fun _ => rfl
  exact ite cores (cores.trans (setCluster ..))

theorem clearStores : Stays s (s.clearStores d) := by
  refine foldl (fun u k => ?_) _ (refl s)
  refine trans (foldl (fun v c => ?_) _ (refl u)) (setCluster ..)
  exact updCore c (refl v) fun _ => rfl

end Stays

namespace State

/-- What the end of a self-test does beside the failed units: what has lost all its parts is disabled, start-up may stop, and the
stores are cleared (R181, R481). -/
def testEnd (s : State) (d : DieId) (dieFail : Nat) : State :=
  let s := s.loseEmpty d
  let stop := fun (s : State) kind => (s.report d 0x2601 kind).startFault d 0x2601 true
  let s := if 1 ≤ dieFail ∧ dieFail ≤ 5 then stop s dieFail else s
  let s := if (s.allClusters d).any fun c => (s.cluster c).enabled then s else stop s 6
  s.clearStores d

theorem testEnd_stays (s : State) (d : DieId) (dieFail : Nat) : Stays s (s.testEnd d dieFail) := by
  have stopped (t : State) (kind : Nat) : Stays t ((t.report d 0x2601 kind).startFault d 0x2601 true) :=
    (Carries.report ..).stays.trans (.startFault ..)
  unfold testEnd
  extract_lets lost stop failed last
  have first : Stays s failed := (Stays.loseEmpty s d).trans (.ite (stopped ..) (.refl _))
  exact (first.trans (.ite (.refl _) (stopped ..))).trans (.clearStores ..)

section
variable {s : State} {d : DieId}

/-- The self-test has ended, and LINKS begins. -/
def linksBegun (s : State) (d : DieId) : State := (s.setDie d { s.die d with selftested := true }).enterStage d .links

theorem decided_linksBegun (s : State) (d : DieId) :
    ((s.linksBegun d).die d).decided = (.links, true, (s.die d).awaitPlan, (s.die d).number) := by
  unfold linksBegun enterStage
  rw [die_setDie, die_setDie]
  rfl

/-- An array that a verdict disables is out of service, and recorded as failed (R481). -/
theorem disableUnit_array (s : State) (d : DieId) (a : ArrayId) : ((s.disableUnit d (.array a)).arr a).enabled = false ∧
    a.key ∈ ((s.disableUnit d (.array a)).steward d).failedArrays := by
  have off : ((s.setArr a { s.arr a with enabled := false }).arr a).enabled = false := by rw [arr_setArr]
  unfold disableUnit
  dsimp only
  split
  next listed => exact ⟨off, List.contains_iff_mem.1 listed⟩
  next =>
    refine ⟨off, ?_⟩
    unfold journal
    rw [steward_setSteward, steward_setSteward]
    exact List.mem_append_right _ (List.mem_singleton.2 rfl)

/-- The verdict on one array that takes part in the test: it is disabled with F-2603 before the rest of the test's end. -/
theorem selftest_array {a : ArrayId} (stage : (s.die d).stage = .selftest) (out : (s.die d).computeReset = false)
    (planned : (s.die d).awaitPlan = false) (own : a.core.die = d) (has : s.hasArray a = true) (on : s.unitOn (.array a) = true) :
    s.selftest d [.array a] 0 = (dieLinks d).foldl (fun s l => s.enableLink l)
      (((((s.report d 0x2603 (ResetUnit.array a).num).startFault d 0x2603 false).disableUnit d (.array a)).testEnd d
        0).linksBegun d) := by
  have runs : ¬((s.die d).stage ≠ .selftest ∨ (s.die d).computeReset ∨ (s.die d).awaitPlan) := by simp [stage, out, planned]
  have takes : (ResetUnit.array a).dieId = d ∧ s.hasUnit (.array a) ∧ s.unitOn (.array a) := ⟨own, has, on⟩
  unfold selftest
  dsimp only
  rw [if_neg runs, List.foldl_cons, List.foldl_nil, if_pos takes]
  rfl

theorem selftest_fails {a : ArrayId} (stage : (s.die d).stage = .selftest) (out : (s.die d).computeReset = false)
    (planned : (s.die d).awaitPlan = false) (own : a.core.die = d) (has : s.hasArray a = true) (on : s.unitOn (.array a) = true) :
    ((s.selftest d [.array a] 0).die d).stage = .links ∧ ((s.selftest d [.array a] 0).die d).selftested = true ∧
      ((s.selftest d [.array a] 0).arr a).enabled = false ∧ a.key ∈ ((s.selftest d [.array a] 0).steward d).failedArrays := by
  rw [selftest_array stage out planned own has on]
  generalize ((s.report d 0x2603 _).startFault d 0x2603 false) = u
  obtain ⟨off, listed⟩ := disableUnit_array u d a
  have ended := testEnd_stays (u.disableUnit d (.array a)) d 0
  generalize (u.disableUnit d (.array a)).testEnd d 0 = v at ended
  have trained : Stays (v.linksBegun d) ((dieLinks d).foldl (fun s l => s.enableLink l) (v.linksBegun d)) :=
    .foldl Stays.enableLink _ (.refl _)
  generalize (dieLinks d).foldl (fun s l => s.enableLink l) (v.linksBegun d) = w at trained
  have die := (trained.die d).trans (decided_linksBegun v d)
  have service : (w.arr a).enabled = ((u.disableUnit d (.array a)).arr a).enabled :=
    congrFun ((trained.service a.core).trans (ended.service a.core)) a.arr.val
  have failed := (trained.failed d).trans (ended.failed d)
  exact ⟨congrArg Prod.fst die, congrArg (fun x => x.2.1) die, service.trans off, failed ▸ listed⟩

end
end State
/-! ### Stage reports, HOST_DONE and readiness -/

namespace State

variable {s : State} {d : DieId}

theorem die_enterStage (s : State) (d : DieId) (stage : Stage) : ∃ n, (s.enterStage d stage).die d =
    { s.die d with stage := stage, stageAt := (s.die d).ticks, entered := n } := ⟨_, die_setDie ..⟩

/-- Where every link of a die has settled, and it reaches every number of the build, its links end in HOST_INIT with the stage
report sent (R482). -/
theorem linksEnd_reports (away : d ≠ die0) (stage : (s.die d).stage = .links) (fresh : (s.die d).reported = false)
    (goes : (s.die d).stopped = false) (clear : (s.die d).linkConflict = false) (aligned : (s.die d).aligned = true)
    (settled : ∀ i : Fin 4, s.linkSettled ⟨d, i⟩ = true)
    (whole : ∀ n, n < s.build.dies → ∃ e : DieId, s.hasDie e = true ∧ s.reaches d e.val = true ∧ (s.die e).number = n) :
    s.linksEnd d = ((s.setDie d { s.die d with reported := true }).enterStage d .hostInit).sendMsg d die0
      (.stage (s.enabledCounts d).clusters (s.enabledCounts d).cores (s.enabledCounts d).arrays (s.enabledCounts d).links
        (s.die d).failCode (s.die d).degraded) := by
  have links : (dieLinks d).all s.linkSettled = true := by
    refine List.all_eq_true.2 fun l listed => ?_
    obtain ⟨i, _, rfl⟩ := List.mem_map.1 listed
    exact settled _
  have reached : ((List.range s.build.dies).all fun n =>
      ((s.allDies.filter fun e => s.reaches d e.val).map fun e => (s.die e).number).contains n) = true := by
    refine List.all_eq_true.2 fun n small => List.contains_iff_mem.2 ?_
    obtain ⟨e, has, reaches, number⟩ := whole n (List.mem_range.1 small)
    exact List.mem_map.2 ⟨e, List.mem_filter.2 ⟨mem_allDies has, reaches⟩, number⟩
  have ended : ¬((s.die d).stage ≠ .links ∨ (s.die d).reported ∨ (s.die d).stopped ∨ (s.die d).linkConflict ∨
      !((dieLinks d).all s.linkSettled)) := by
    rw [stage, fresh, goes, clear, links]
    decide
  unfold linksEnd
  dsimp only
  rw [if_neg ended, reached]
  simp [aligned, away]

/-- The report of another die's stage is taken, and its counts stand in the capability table (R252, R482). -/
theorem stageReport_enters {m dst src clusters cores arrays : Nat} {links : W32} {code : W16} {degraded : Bool}
    (sent : s.msgAt m = some (dst, src, .stage clusters cores arrays links code degraded)) (opened : s.capFixed = false) :
    (s.stageReport m).msgAt m = none ∧
      (s.stageReport m).caps.find? src = some { clusters := clusters, cores := cores, arrays := arrays, links := links } := by
  have taken : (s.takeMsg m).msgAt m = none := SMap.find?_erase_same ..
  unfold stageReport
  rw [sent]
  dsimp only
  rw [if_neg (show ¬(s.takeMsg m).capFixed = true by simp [takeMsg, opened])]
  split <;> exact ⟨taken, SMap.find?_put_same ..⟩

/-- A die that raises READY (R484). -/
theorem raiseReady_raises (s : State) (d : DieId) : ((s.raiseReady d).die d).stage = .ready ∧
    ((s.raiseReady d).die d).readyPin = true ∧ (s.raiseReady d).capFixed = s.capFixed ∧ (s.raiseReady d).msgs = s.msgs := by
  have noted (t : State) (was : Bool) : (t.noteErr d was).dies = t.dies ∧ (t.noteErr d was).capFixed = t.capFixed ∧
      (t.noteErr d was).msgs = t.msgs := by
    unfold noteErr
    split
    · exact ⟨rfl, rfl, rfl⟩
    · exact ⟨rfl, rfl, rfl⟩
  unfold raiseReady
  dsimp only
  generalize up : (s.enterStage d .ready).setDie d { (s.enterStage d .ready).die d with readyPin := true } = u
  obtain ⟨dies, fixed, msgs⟩ := noted u ((s.enterStage d .ready).errDriven d)
  have die : (u.noteErr d ((s.enterStage d .ready).errDriven d)).die d = u.die d :=
    congrArg (fun m : SMap Die => m.get {} d.val) dies
  refine ⟨?_, ?_, fixed.trans ?_, msgs.trans ?_⟩
  · rw [die, ← up, die_setDie, enterStage, die_setDie]
  · rw [die, ← up, die_setDie]
  · rw [← up]
    rfl
  · rw [← up]
    rfl

/-- Where every condition of HOST_DONE holds, the capability table is fixed, and die 0 raises READY (R484). -/
theorem hostDone_ready {role : Byte} (driver : roleOf role = some .driver) (stage : (s.die die0).stage = .hostInit)
    (ready : s.hostReady = true) : ∃ u, Carries ({ s with capFixed := true } : State) u ∧
      s.hostDone role 0xFF 1 = (u.raiseReady die0).crownOk := by
  have opened : s.crownOpen = true := by simp [crownOpen, stage]
  refine ⟨_, Carries.foldl (fun u e => Carries.sendMsg u die0 e (.readiness (s.die die0).count))
    (s.allDies.filter fun e => decide (e ≠ die0)) (.refl _), ?_⟩
  rw [hostDone, driverWrite_driver driver opened rfl, rsvdWrite_plain die0 (by decide)]
  dsimp only
  rw [if_neg (by simp [stage, bitAt]), ready]
  rfl

/-- Where a condition of HOST_DONE fails, HOST_ERR is set (R484). -/
theorem hostDone_fails {role : Byte} (driver : roleOf role = some .driver) (stage : (s.die die0).stage = .hostInit)
    (fails : s.hostReady = false) : s.hostDone role 0xFF 1 = (s.setDie die0 { s.die die0 with hostErr := true }).crownOk := by
  have opened : s.crownOpen = true := by simp [crownOpen, stage]
  rw [hostDone, driverWrite_driver driver opened rfl, rsvdWrite_plain die0 (by decide)]
  dsimp only
  rw [if_neg (by simp [stage, bitAt]), fails]
  rfl

/-- A readiness report raises READY on a die in HOST_INIT (R484). -/
theorem readiness_raises {m src : Nat} {x : W64} (sent : s.msgAt m = some (d.val, src, .readiness x))
    (stage : (s.die d).stage = .hostInit) (goes : (s.die d).stopped = false) : s.readiness m = (s.takeMsg m).raiseReady d := by
  unfold readiness
  rw [sent]
  dsimp only
  rw [dieOf_val, if_pos (by simp [stage, goes])]

end State

/-! ### The obligation -/

/-- Settles O51: block reset erases the die (`blockReset_erases`), its release begins BOOT, what the compute part takes up when it
leaves reset moves no stage, number or wait (`Stays`), and neither do the links that a verdict's end trains; the reports then raise
READY. -/
theorem startUpStages : Obligations.StartUpStages := by
  unfold Obligations.StartUpStages
  refine ⟨?_, ?_, ?_, ?_, ?_, ?_, ?_, ?_, ?_, ?_⟩
  case refine_1 =>
    intro s d here reads
    obtain ⟨n, j, erases⟩ := State.blockReset_erases reads
    refine ⟨_, (onDie_next here _).trans (congrArg _ erases), State.die_erased .., ?_, State.net_erased ..,
      State.core_erased _ d j, State.cluster_erased _ d j, State.link_erased _ d j, State.queue_erased _ d j,
      fun e other => ⟨State.die_erased_other _ d j other, State.steward_erased_other _ d j other⟩, State.mem_erased .., ?_, ?_⟩
    · rw [State.die_erased]
    · rw [State.steward_erased]
    · rw [State.steward_erased]
  case refine_2 =>
    intro s here
    refine ⟨_, onDie_next here _, ?_⟩
    unfold State.blockReset
    dsimp only
    rw [if_pos rfl]
    exact ⟨rfl, rfl, rfl, rfl, rfl, rfl, rfl, rfl, rfl⟩
  case refine_3 =>
    intro s d here held
    obtain ⟨use, rate, mac, n, released⟩ := State.die_blockRelease held
    refine ⟨_, onDie_next here _, ?_⟩
    rw [released]
    exact ⟨rfl, rfl, rfl, rfl⟩
  case refine_4 =>
    intro s d here plan reset fresh supply ladder
    obtain ⟨n, standing⟩ := State.standing_computeRelease s d
    have decided := State.decided_computeRelease s d
    rw [State.partOut, State.die_setDie] at decided
    exact ⟨_, State.computePartRelease_releases here plan reset fresh supply ladder, (congrArg Standing.computeReset standing :),
      congrArg (fun x => x.2.2.1) decided, congrArg (fun x => x.2.2.2) decided, State.mem_computeRelease⟩
  case refine_5 =>
    intro s d a here stage out planned own has on
    exact ⟨_, onDie_next here _, State.selftest_fails stage out planned own has on⟩
  case refine_6 =>
    intro s d here away stage fresh goes clear aligned settled whole
    refine ⟨_, (onDie_next here _).trans (congrArg _ (State.linksEnd_reports away stage fresh goes clear aligned settled whole)),
      ?_⟩
    have same := (Carries.sendMsg ((s.setDie d { s.die d with reported := true }).enterStage d .hostInit) d State.die0
      (.stage (s.enabledCounts d).clusters (s.enabledCounts d).cores (s.enabledCounts d).arrays (s.enabledCounts d).links
        (s.die d).failCode (s.die d).degraded)).die d
    obtain ⟨n, entered⟩ := State.die_enterStage (s.setDie d { s.die d with reported := true }) d .hostInit
    rw [State.die_setDie] at entered
    rw [entered] at same
    exact ⟨(congrArg Die.stage same :), (congrArg Die.reported same :)⟩
  case refine_7 =>
    intro s m d r clusters cores arrays links code deg sent opened
    exact ⟨_, rfl, State.stageReport_enters sent opened⟩
  case refine_8 =>
    intro s role driver stage ready
    obtain ⟨u, carried, done⟩ := State.hostDone_ready driver stage ready
    obtain ⟨raised, pin, fixed, _⟩ := State.raiseReady_raises u State.die0
    exact ⟨_, congrArg Host.Outcome.next done, raised, pin, fixed.trans (congrArg State.capFixed carried.other :), rfl⟩
  case refine_9 =>
    intro s role driver stage fails
    refine ⟨_, congrArg Host.Outcome.next (State.hostDone_fails driver stage fails), ?_⟩
    have die : (s.setDie State.die0 { s.die State.die0 with hostErr := true }).crownOk.die State.die0 =
      { s.die State.die0 with hostErr := true } := State.die_setDie ..
    rw [die]
    exact ⟨stage, rfl, rfl⟩
  case refine_10 =>
    intro s m r d x sent stage goes
    obtain ⟨raised, pin, _, msgs⟩ := State.raiseReady_raises (s.takeMsg m) d
    refine ⟨_, congrArg Host.Outcome.next (State.readiness_raises sent stage goes), raised, pin, ?_⟩
    exact (congrArg (fun l : SMap (Nat × Nat × Msg) => l.find? m) msgs).trans (SMap.find?_erase_same ..)

end Sys2Proof.Machine
end
